-- ==== Sys2Proof/Word.lean ====
section
/-!
DEFINITION. The word types of the KH-9632 and their plainest arithmetic (R2, R8).
-/
namespace Sys2Proof

/-- One byte. -/
abbrev Byte := BitVec 8
/-- A CSR or a U32 object (R6, R8). -/
abbrev Word32 := BitVec 32
/-- Chassis time and other U64 values (R8, R166). -/
abbrev Word64 := BitVec 64

/-- A logical port P00-P95. -/
abbrev PortIx := Fin 96
/-- A host H00-H63, or the virtual switch instance numbered after it. -/
abbrev HostIx := Fin 64
/-- A memory target M00-M63. -/
abbrev TargetIx := Fin 64
/-- A shared window W00-W15. -/
abbrev WinIx := Fin 16
/-- A port tile T0-T3, or the seam that joins it to the hub. -/
abbrev TileIx := Fin 4
/-- A service core SC0-SC3. -/
abbrev CoreIx := Fin 4
/-- A slot SL00-SL23. -/
abbrev SlotIx := Fin 24
/-- An event source E000-E639. -/
abbrev EventIx := Fin 640
/-- A trigger line: 0-15 are TRIG00-TRIG15, 16-39 are STAR00-STAR23. -/
abbrev LineIx := Fin 40
/-- A data-mover slice S0000-S2047. -/
abbrev SliceIx := Fin 2048
/-- A data-mover engine DM0-DM15. -/
abbrev EngineIx := Fin 16
/-- A serial lane L000-L383. -/
abbrev LaneIx := Fin 384
/-- A die of the CSR map of R506: 0-3 tiles, 4 hub, 5 SPC0, 6 SPC1, 7 island. -/
abbrev DieIx := Fin 8
/-- A management session, named by its SESSION_ID (R508): [7:0] path, [23:8] number. -/
abbrev SessRef := Nat

end Sys2Proof
end

