-- ==== Sys2Proof/Types.lean ====
section
/-!
DEFINITION. The data that commands carry and State holds: cells, requests, units, responses.
-/
namespace Sys2Proof

/-- The four traffic classes (R24, R39). -/
inductive Cls where
  | sys | coh | bulk | view
deriving DecidableEq, Repr, Inhabited

/-- A policer colour (R224, R39). -/
inductive Colour where
  | green | yellow | red
deriving DecidableEq, Repr, Inhabited

/-- MetaValue of a CXL.mem request, with No-Op beside Invalid (R90's table of kinds). -/
inductive Meta where
  | invalid | shared | any
deriving DecidableEq, Repr, Inhabited

/-- What a request flit asks for (R80, R242, R243, R388). -/
inductive ReqOp where
  | memRd (m : Meta) | memRdData | memInv (m : Meta) | memInvNT (m : Meta)
  | memClnEvct | memSpecRd
  | memWr (m : Meta) | memWrPtl (m : Meta)
  | memRdFwd | memWrFwd
  | ioRead | ioWrite | ioAtomic | ioOtherNonPosted
  | config | message
  | d2hRead | d2hWrite | h2dSnoop
  | completion
  | viral
deriving DecidableEq, Repr, Inhabited

/-- One request as it is extracted from a flit at step 1 (R20). `bytes` is its length, `data` its payload
as a little-endian number, `mask` the byte enables of a partial write (of a configuration request: 0 a read, with `cfg1` that it is Type 1 and its bus, device, function and register at bits
[27:20], [19:15], [14:12] and [11:0] of `addr`), `ext` that it carries extended metadata or a trailer (R80), `pkt` the packet's bytes with header and prefixes, `hdr` the header bytes with prefixes, `parity` false when the header fails its parity
(R441). `cacheId` is the Cache ID of CXL.cache, or the LD-ID of an MLD's request. Of a completion, `tag` is the number of the
request that it answers and `addr` its status: 0 good, 1 poisoned, 2 Completer Abort, 3 Unsupported Request. -/
structure Req where
  op      : ReqOp
  addr    : Nat
  bytes   : Nat
  tc      : Nat
  rid     : Nat
  tag     : Nat
  pasid   : Option Nat
  cacheId : Nat
  data    : Nat
  mask    : Nat
  pkt     : Nat
  hdr     : Nat
  parity  : Bool
  ext     : Bool := false
  cfg1    : Bool := false
deriving DecidableEq, Repr, Inhabited

/-- One cell with the header fields of R39. `hcrc` is the received CRC-16; `rsv` gathers the reserved bits, lowest first: 7, 15, 23,
31, [71:69], [111:84]; `colourCode` is the 2-bit field as received. `lim` is the class whose limit it counts against (R46). `committed` is the shaper's mark (R219), `req` the
number of the packet the cell belongs to (the model's own, 0 none), `credit` the reorder credit it holds (0 none, else
1 + 2 * output, plus 1 for a reserved one; R68). -/
structure Cell where
  cls        : Cls
  colourCode : Nat
  sop        : Bool
  eop        : Bool
  mcast      : Bool
  source     : Nat
  egress     : Nat
  bytes      : Nat
  seq        : Nat
  pktCells   : Nat
  reseq      : Bool
  mcidx      : Nat
  gen        : Nat
  gepoch     : Nat
  rsv        : Nat
  hcrc       : Nat
  data       : Nat
  committed  : Bool
  req        : Nat
  credit     : Nat
  lim        : Cls
deriving DecidableEq, Repr, Inhabited

/-- A back-invalidate response (R80, R103). -/
inductive BiRsp where
  | i | s | e | blk
deriving DecidableEq, Repr, Inhabited

/-- How a memory target answers (R107, R117, R354). -/
inductive MemStatus where
  | ok | poison | uncorrectable | error
deriving DecidableEq, Repr, Inhabited

/-- TYPE of a seam unit (R305); `bad` is any illegal code. -/
inductive UnitType where
  | data | ack | keepalive | check | train | bad
deriving DecidableEq, Repr, Inhabited

/-- An item of a DATA unit (R307): the cell and its DEST. -/
structure Item where
  cell : Cell
  dest : Nat
deriving DecidableEq, Repr, Inhabited

/-- A seam unit (R305, R306). `crcOk` is the outcome of the UCRC comparison. `wireErrors` are the wires whose
pattern bits differ in a control unit (R328's pattern). -/
structure SeamUnit where
  type       : UnitType
  seq        : Nat
  prev       : Option Nat
  ack        : Option Nat
  nak        : Option Nat
  items      : List Item
  cr0        : Nat × Nat
  cr1        : Nat × Nat
  strandsUp  : Nat
  empty      : Nat
  asOf       : Nat
  retThru    : Nat
  rsv        : Nat
  crcOk      : Bool
  wireErrors : List Nat
deriving DecidableEq, Repr, Inhabited

/-- A message that the hatband sends to the ports (R178-R180, R427): message code and payload. -/
structure Bcast where
  code    : Nat
  payload : Nat
deriving DecidableEq, Repr, Inhabited

/-- The body of a timing-strand flit (R325); the two flits of a broadcast and the flits of a SYS item are
carried as one command each. -/
inductive FlitBody where
  | idle
  | tick (ct : Word64) (ctState : Nat)
  | bcast (m : Bcast)
  | sys (it : Item)
  | credit (pairs : List (Nat × Nat))
  | ack
  | illegal
deriving DecidableEq, Repr, Inhabited

/-- A timing-strand flit (R325). `rsv` gathers its reserved bits and those of FBODY that its type leaves zero. -/
structure TimingFlit where
  body  : FlitBody
  fseq  : Nat
  fack  : Option Nat
  rsv   : Nat
  crcOk : Bool
deriving DecidableEq, Repr, Inhabited

/-- What the device learns when a link's training completes (R235, R275-R285). -/
structure LinkInfo where
  width       : Nat
  rate        : Nat
  flit        : Nat
  protocol    : Nat
  reversed    : Bool
  partWidth   : Nat
  partRate    : Nat
  kind        : Nat
  serial      : Option Nat
  lds         : Nat
  capacityGiB : Nat
  timeUs      : Nat
  polarity    : Nat
  biCredits   : Nat
  isDcd       : Bool
deriving DecidableEq, Repr, Inhabited

/-- Why a link enters Recovery and how it ends (R286). -/
inductive RecoveryCause where
  | uncorrectableFlit | replayTimeout | unrequested | rateChange (rate : Nat) | partnerRequest
deriving DecidableEq, Repr, Inhabited

/-- A plain access of a service core (R147). -/
inductive CoreOp where
  | load | store (data : Word64) | fetch
  /-- a load of cluster memory that is performed later; the oldest one such is performed now (R147) -/
  | loadLate | perform
deriving DecidableEq, Repr, Inhabited

/-- Settings of an HDM decoder at its commit (R241, R244). -/
structure HdmSettings where
  base        : Nat
  size        : Nat
  ways        : Nat
  granularity : Nat
  targets     : List Nat
  lock        : Bool
deriving DecidableEq, Repr, Inhabited

/-- Who issues a CSR access: a service core, or a service-port session (R6, R402, R506). -/
inductive CsrVia where
  | core (c : CoreIx)
  | service (sess : SessRef)
deriving DecidableEq, Repr, Inhabited

/-- A service-port request as received (R505): the header but for OP, and what follows it, padding included. -/
structure SvcFrame where
  version : Byte
  session : BitVec 16
  seq     : Word32
  length  : BitVec 16
  status  : BitVec 16
  rsv     : Word32
  payload : List Byte
deriving DecidableEq, Repr, Inhabited

/-- The header of a service-port request, but for OP (R505). -/
structure SvcHead where
  version : Byte
  session : BitVec 16
  seq     : Word32
  length  : BitVec 16
  status  : BitVec 16
  rsv     : Word32
deriving DecidableEq, Repr, Inhabited

/-- The request with this header and these bytes after it. -/
def SvcHead.frame (h : SvcHead) (payload : List Byte) : SvcFrame :=
  { version := h.version, session := h.session, seq := h.seq, length := h.length, status := h.status, rsv := h.rsv, payload := payload }

/-- How the tick engine fares at a boundary (R34): the state check fails; or it is faulty, starts only so many items of the tick, and the
last one of these ends so many cycles after the tick. -/
structure TickFault where
  upset : Bool := false
  slow  : Option (Fin 8 × Nat) := none
deriving DecidableEq, Repr, Inhabited

/-- A presence pin took the level `present` at `at_`, in ps (R262). -/
structure PresenceEdge where
  present : Bool
  at_     : Nat
deriving DecidableEq, Repr, Inhabited

/-- The end of a seam's retrain, with the wires that it found bad: direction, strand, wire (R323, R329). -/
structure RetrainEnd where
  sm       : TileIx
  badWires : List (Fin 2 × Fin 8 × Fin 66) := []
deriving DecidableEq, Repr, Inhabited

/-- An IEEE 1149.1 instruction (R514). -/
inductive TapInstr where
  | bypass | idcode | sample | extest | internalDebug
deriving DecidableEq, Repr, Inhabited

/-- A TAP instruction, the levels at the pins, and what is shifted in (R514, R556). -/
structure TapScan where
  instr : TapInstr
  pins  : BitVec 97
  tdi   : BitVec 97
deriving DecidableEq, Repr, Inhabited

/-- A reset domain that is released (R550). -/
inductive ResetDomain where
  | housekeeping | hub | tile (t : TileIx) | port (p : PortIx)
deriving DecidableEq, Repr, Inhabited

end Sys2Proof
end

