-- ==== Sys2Proof/Syntax.lean ====
section
/-!
DEFINITION. The commands of the block: one constructor per row of the operation table, with the row's operands.
The docstrings give the row's rule and its own summary. An operand that only the outside world can supply (a level, a
measured value, the outcome of an analog or external act) is an operand of its command.
-/
namespace Sys2Proof

/-- Every operation and event of the part (spec/opcode_table.json). -/
inductive Instr where
  /-- TICK_BOUNDARY (R31): At each tick boundary the tick engine runs its fixed list of housekeeping items in order. -/
  | tickBoundary (fault : TickFault)
  /-- REQUALIFY_CHECK (R451): A block whose clear was accepted is tested for requalification, in item 6 or every 1 µs for island blocks. -/
  | requalifyCheck (n : EventIx)
  /-- GENERATION_PUBLISH (R33): A committed generation or a due rollback is published in item 7 of the first tick after it became ready. -/
  | generationPublish
  /-- GUARD_EPOCH_PUBLISH (R393): A pending guard change is published as a new epoch in item 7. -/
  | guardEpochPublish
  /-- REF100_LOSS (R29): 80 ns with no rising edge of REF100 moves the hub PLL to holdover on XTAL. -/
  | ref100Loss
  /-- REF100_RETURN (R29): After REF100 has been present for 1 ms the hatband returns to it and slews the tick phase. -/
  | ref100Return
  /-- REQUEST_ARRIVAL (R20): A request flit is received and passes steps 1 to 4 of the request path before its cells are queued. -/
  | requestArrival (p : PortIx) (at_ : Nat) (req : Req)
  /-- TILE_FORWARD_TO_LANDING (R41): The tile forwards a VOQ head cell to the landing store when seam credit allows. -/
  | tileForwardToLanding (i : PortIx)
  /-- CARDING_MATCH_SLOT (R52): For each cell time the matcher computes a request-grant-accept matching in carding mode. -/
  | cardingMatchSlot (extra : List (PortIx × PortIx × Cls))
  /-- FULLING_STAGE_1 (R58): In an even cell time each input sends one qualifying landed cell to its intermediate. -/
  | fullingStage1
  /-- FULLING_STAGE_2 (R59): In an odd cell time each intermediate sends one cell to its output. -/
  | fullingStage2
  /-- START_DRAIN_TO_CARDING (R61): At a tick boundary where all conditions hold, stage 1 stops and the fulling store drains. -/
  | startDrainToCarding
  /-- CARDING_START (R61): At the tick boundary after the fulling store is empty, carding mode starts. -/
  | cardingStart
  /-- MATCHER_SELFTEST_DONE (R62): The matcher self-test finishes and reports pass or fail. -/
  | matcherSelftestDone (pass : Bool)
  /-- AGENT_MERGE_ADMIT (R212): A hub agent cell is admitted to the egress queue when space allows. -/
  | agentMergeAdmit (p : PortIx) (cls : Cls)
  /-- EGRESS_CLASS_PICK (R213): The flit builder takes the next cell by SYS priority or smallest class finish tag. -/
  | egressClassPick (p : PortIx)
  /-- CROWN_REQUEST_ARRIVE (R105): A window request reaches the crown and joins its line queue. -/
  | crownRequestArrive (src : Fin 5)
  /-- CROWN_ENTRY_SERVE (R91): The head entry of a line queue is served against the directory entry once the previous entry has ended. -/
  | crownEntryServe (w : WinIx) (line : BitVec 36)
  /-- BIRSP_RECEIVE (R91): A host's back-invalidate response arrives and advances its entry. -/
  | birspReceive (h : HostIx) (w : WinIx) (line : BitVec 36) (rsp : BiRsp)
  /-- BICONFLICT_RECEIVE (R102): A host's BIConflict is answered with BIConflictAck now or after its request's completion. -/
  | biconflictReceive (h : HostIx) (w : WinIx) (line : BitVec 36)
  /-- SNOOP_TIMEOUT (R104): An unanswered snoop times out, the host's port goes down and its departure starts. -/
  | snoopTimeout (h : HostIx) (w : WinIx) (line : BitVec 36)
  /-- TARGET_RESPONSE_RECEIVE (R107): A memory target's completion or data for a crown access arrives and may end the entry. -/
  | targetResponseReceive (id : Nat) (status : MemStatus) (data : BitVec 512)
  /-- BRIM_FILL (R94): A tile's brim cache receives a FILL command and acknowledges it. -/
  | brimFill (t : TileIx)
  /-- BRIM_READ (R96): A brim cache receives READ and forwards the line or returns MISS. -/
  | brimRead (t : TileIx)
  /-- BRIM_INV (R94): A brim cache receives INV, invalidates the line and acknowledges. -/
  | brimInv (t : TileIx)
  /-- BRIM_ACK_RECEIVE (R95): The crown receives a brim acknowledgement or MISS and continues the entry. -/
  | brimAckReceive (t : TileIx)
  /-- WINDOW_INIT_COMPLETE (R82): Directory initialisation of a window ends and its STATE becomes ACTIVE. -/
  | windowInitComplete (w : WinIx)
  /-- RESYNC_START (R119): A write of RESYNC_START begins copying the survivor to the returning replica. -/
  | resyncStart (sess : SessRef) (w : WinIx) (v : Byte)
  /-- RESYNC_LINE_COPY (R119): The internal agent copies the next line and directory sector at the sweep rate. -/
  | resyncLineCopy (w : WinIx)
  /-- DEPARTURE_MARKER_ARRIVE (R121): A host's departure marker reaches the crown, which removes its queued entries and marks it departing. -/
  | departureMarkerArrive (h : HostIx)
  /-- DEPARTURE_SWEEP_STEP (R123): The departure sweep reads the next directory line and fixes entries naming departed hosts. -/
  | departureSweepStep
  /-- FENCE_DOORBELL (R133): A write to the fence aperture is validated and starts a fabric or trigger fence. -/
  | fenceDoorbell (p : PortIx) (rid : BitVec 16) (offset : BitVec 12) (nbytes : Nat) (word : BitVec 128)
  /-- FENCE_END (R137): When every covered write has ended and earlier fences have recorded, the fence record is written. -/
  | fenceEnd (id : Nat)
  /-- FENCE_TIMEOUT (R141): FENCE_TIMEOUT passes and the fence ends with status TIMEOUT. -/
  | fenceTimeout (id : Nat)
  /-- BAR_CORE (R149): A core barrier that waits for its loads and store-buffer entry of earlier stores. -/
  | barCore (c : CoreIx)
  /-- BAR_CLU (R149): A cluster barrier that waits for earlier cluster stores to be visible to all cores. -/
  | barClu (c : CoreIx)
  /-- BAR_SYS (R150): A system barrier that acts as a fabric fence for the core with no record. -/
  | barSys (c : CoreIx)
  /-- BAR_SYS_TIMEOUT (R150): FENCE_TIMEOUT passes during a BAR.SYS, which ends and sets BAR_TIMEOUT. -/
  | barSysTimeout (c : CoreIx)
  /-- LDRES (R154): A reserved load reads a value and reserves its 64-byte granule. -/
  | ldres (c : CoreIx) (addr : Word64) (eight : Bool)
  /-- STCOND (R157): A conditional store stores only while the reservation is held and reports 0, 1 or 2. -/
  | stcond (c : CoreIx) (addr : Word64) (eight : Bool) (data : Word64)
  /-- STORE_BUFFER_RELEASE (R148): A buffered store leaves the store buffer and becomes visible or enters its flow. -/
  | storeBufferRelease (c : CoreIx) (ix : Fin 32)
  /-- CORE_EXCEPTION (R160): A core takes an exception or interrupt, keeping older buffered stores. -/
  | coreException (c : CoreIx)
  /-- CT_LOAD (R168): A write of CT_LOAD arms a load of chassis time at a load edge. -/
  | ctLoad (sess : SessRef) (v : Word64)
  /-- CT_LOAD_EDGE (R170): At the load edge CT takes the loaded value and pending pulses are cancelled. -/
  | ctLoadEdge
  /-- SYNC_EDGE (R173): A chassis sync edge is measured against the expected boundary and slewing adjusted. -/
  | syncEdge (at_ : Nat)
  /-- SYNC_MISS (R174): No sync edge within SYNC_PERIOD + 1 µs counts a miss. -/
  | syncMiss
  /-- TRIG_EDGE (R175): An edge on a TRIG or STAR line passes the filter and is stamped. -/
  | trigEdge (line : LineIx) (level : Bool) (at_ : Nat) (width : Nat)
  /-- HOLDOFF_END (R175): At the end of a line's holdoff the level is resampled and a change is stamped. -/
  | holdoffEnd (line : LineIx) (level : Bool)
  /-- TRIGGER_MESSAGE_BUILD (R178): Edges of one build window are built into one trigger message and sent to the tiles. -/
  | triggerMessageBuild
  /-- TIME_MESSAGE_SEND (R180): At the first sync edge at or after a due instant a time message is sent. -/
  | timeMessageSend
  /-- OUT_AT (R181): A write of OUT_AT schedules one output pulse on a line or is refused. -/
  | outAt (sess : SessRef) (line : LineIx) (v : Word64)
  /-- OUT_CANCEL (R181): A write of OUT_CANCEL cancels every pending pulse of the line. -/
  | outCancel (sess : SessRef) (line : LineIx) (v : Byte)
  /-- PULSE_ASSERT (R182): A scheduled pulse asserts its line at CT_AT. -/
  | pulseAssert (line : LineIx)
  /-- PULSE_RELEASE (R182): A pulse releases its line at CT_AT + OUT_WIDTH. -/
  | pulseRelease (line : LineIx)
  /-- TRIGGER_FENCE_POINT (R190): CT reaches a trigger fence's point P, closing covered ring blocks with CUT. -/
  | triggerFencePoint (id : Nat)
  /-- TFENCE_WAIT_EXPIRY (R189): No qualifying edge within TFENCE_WAIT ends the fence with NO_TRIGGER. -/
  | tfenceWaitExpiry (id : Nat)
  /-- FRZ_ARM (R194): A write of FRZ_ARM arms a window freeze or is refused. -/
  | frzArm (sess : SessRef) (w : WinIx) (v : Byte)
  /-- FRZ_RELEASE (R200): A write of FRZ_RELEASE returns the freeze to IDLE or is refused. -/
  | frzRelease (sess : SessRef) (w : WinIx) (v : Byte)
  /-- FREEZE_POINT (R195): At the cycle of P the crown inverts WE and the freeze becomes COPYING. -/
  | freezePoint (w : WinIx)
  /-- FREEZE_SWEEP_STEP (R199): The freeze sweep copies or passes the next line at FRZ_RATE. -/
  | freezeSweepStep (w : WinIx)
  /-- FREEZE_COMPLETE (R199): Sweep, old writes and shadow writes are done, and the freeze becomes FROZEN. -/
  | freezeComplete (w : WinIx)
  /-- CAPTURE_FEED_WRITE (R366): A posted write into a feed aperture feeds the ring stream or is discarded. -/
  | captureFeedWrite (p : PortIx) (rid : BitVec 16) (addr : Word64) (data : List Byte)
  /-- RING_FLUSH_TIMEOUT (R368): FLUSH_US after a block's first byte the partial block is closed. -/
  | ringFlushTimeout (sl : SliceIx)
  /-- RING_CONS (R369): A write of RING_CONS returns ring space to the engine or is ignored. -/
  | ringCons (p : PortIx) (sl : SliceIx) (offset : BitVec 12) (nbytes : Nat) (pasid : Option (BitVec 20)) (v : Word64)
  /-- PORT_ROLE_WRITE (R234): A write of ROLE claims, unclaims or re-claims a port. -/
  | portRoleWrite (sess : SessRef) (p : PortIx) (v : Byte)
  /-- PORT_AGENT_WRITE (R234): A write of AGENT names the agent of the port's role or is refused. -/
  | portAgentWrite (sess : SessRef) (p : PortIx) (v : Byte)
  /-- PORT_POOL_WRITE (R234): A write of POOL makes an SLD a pool target or host-bound, or is refused. -/
  | portPoolWrite (sess : SessRef) (p : PortIx) (v : Byte)
  /-- PORT_SLOT_WRITE (R234): A write of SLOT names the slot powering the port's agent, or is refused. -/
  | portSlotWrite (sess : SessRef) (p : PortIx) (v : Byte)
  /-- HDM_DECODER_COMMIT (R241): A host commits an HDM decoder, which commits or fails with Error Not Committed. -/
  | hdmDecoderCommit (h : HostIx) (ix : Fin 49) (set : HdmSettings)
  /-- BIND_CMD_BIND (R253): A BIND_CMD with OP bind is validated and binds a vPPB. -/
  | bindCmdBind (sess : SessRef) (cmd : BitVec 64)
  /-- UNBIND_WAIT_LINK_DOWN (R255): An unbind in mode 0 waits for the host to take the link down. -/
  | unbindWaitLinkDown (sess : SessRef) (cmd : BitVec 64)
  /-- UNBIND_MANAGED_HOT_REMOVE (R255): An unbind in mode 1 presses the attention button and waits for removal. -/
  | unbindManagedHotRemove (sess : SessRef) (cmd : BitVec 64)
  /-- UNBIND_SURPRISE_HOT_REMOVE (R255): An unbind in mode 2 takes the vPPB view down at once and ends its requests. -/
  | unbindSurpriseHotRemove (sess : SessRef) (cmd : BitVec 64)
  /-- BINDING_PUBLISH (R254): A binding or unbinding takes effect in its publication cycle after being stored in flash. -/
  | bindingPublish
  /-- UNBIND_TIMEOUT (R256): An unbind in mode 0 or 1 not published within UNBIND_TIMEOUT ends with reason 0x09. -/
  | unbindTimeout
  /-- EXTENT_ADD (R248): An accepted add takes the target range and zero-fills it. -/
  | extentAdd (sess : SessRef) (cmd : BitVec 128)
  /-- EXTENT_ZERO_FILL_DONE (R248): Zero-fill ends and an Add Capacity event record is sent to the host. -/
  | extentZeroFillDone
  /-- ADD_DYNAMIC_CAPACITY_RESPONSE (R248): The host's response maps accepted extents and frees the others. -/
  | addDynamicCapacityResponse (h : HostIx) (count : Nat) (runs : List (Nat × Nat))
  /-- EXTENT_RELEASE_BY_HOST (R249): An extent command with OP release by host sends a Release Capacity event. -/
  | extentReleaseByHost (sess : SessRef) (cmd : BitVec 128)
  /-- EXTENT_FORCED_RELEASE (R249): A forced release unmaps extents in one cycle and notifies the host. -/
  | extentForcedRelease (sess : SessRef) (cmd : BitVec 128)
  /-- RELEASE_DYNAMIC_CAPACITY (R249): The host releases extents with Release Dynamic Capacity. -/
  | releaseDynamicCapacity (h : HostIx) (count : Nat) (runs : List (Nat × Nat))
  /-- EXTENT_TIMEOUT (R248): EXTENT_TIMEOUT passes without the host's response and the command ends timed out. -/
  | extentTimeout
  /-- EXTENT_RETURN_FREE (R249): An unmapped extent returns to the free set once no request decoded under it remains. -/
  | extentReturnFree (h : HostIx) (dpa : Nat)
  /-- POWER_CONTROLLER_ON (R260): A host writes Power Controller Control on and managed insertion starts. -/
  | powerControllerOn (h : HostIx) (v : Fin 49)
  /-- POWER_CONTROLLER_OFF (R261): A host writes Power Controller Control off and managed removal starts. -/
  | powerControllerOff (h : HostIx) (v : Fin 49)
  /-- SLOT_CONTROL_WRITE (R259): A host's other Slot Control write is applied and Command Completed set. -/
  | slotControlWrite (h : HostIx) (v : Fin 49) (value : BitVec 16)
  /-- PERST_RELEASE (R260): PERST_DELAY after PG_Nnn the card's reset is released and training starts. -/
  | perstRelease (s : SlotIx)
  /-- SLOT_OFF_AFTER_PERST (R261): PERST_TO_OFF after PERST_Nnn is asserted the slot is commanded off. -/
  | slotOffAfterPerst (s : SlotIx)
  /-- HOST_LINK_DISABLE (R255): A host's Link Disable on a vPPB takes the physical link or only the vPPB view down. -/
  | hostLinkDisable (h : HostIx) (v : Fin 49) (disable : Bool)
  /-- PRESENCE_CHANGE (R262): PRSNT_Nnn holds a new level for PRSNT_DEBOUNCE and presence changes. -/
  | presenceChange (s : SlotIx) (edge : PresenceEdge)
  /-- SURPRISE_LINK_LOSS (R262): A link is lost without managed removal, the port goes down and enters LOST. -/
  | surpriseLinkLoss (p : PortIx)
  /-- RSP_TIMEOUT (R267): A CXL.mem request outstanding for RSP_TIMEOUT takes the target's port down. -/
  | rspTimeout (id : Nat)
  /-- LINK_ENABLE (R287): A write of LINK_ENABLE disables the link or starts training. -/
  | linkEnable (sess : SessRef) (p : PortIx) (v : Byte)
  /-- LINK_RETRAIN (R284): A write of LINK_RETRAIN retrains the link with new equalisation. -/
  | linkRetrain (sess : SessRef) (p : PortIx) (v : Byte)
  /-- PARTNER_HOT_RESET (R282): A partner's hot reset starts training of the port. -/
  | partnerHotReset (p : PortIx)
  /-- LINK_ACTIVE (R282): Training completes and the link reaches Data Link Layer Link Active. -/
  | linkActive (p : PortIx) (info : LinkInfo)
  /-- LINK_RECOVERY (R286): A link enters Recovery and returns to L0 or goes down by surprise. -/
  | linkRecovery (p : PortIx) (cause : RecoveryCause) (back : Bool)
  /-- LOOPBACK_ENTRY (R292): A partner leads the link into Loopback and the port acts as follower. -/
  | loopbackEntry (p : PortIx)
  /-- L1_ENTRY (R299): A link enters L1 and its lanes go to STANDBY. -/
  | l1Entry (p : PortIx)
  /-- L0P_WIDTH_CHANGE (R299): An L0p width change puts lanes into NAP or back to ACTIVE. -/
  | l0pWidthChange (p : PortIx) (width : Nat)
  /-- LANE_MARGINING (R288): The partner margins a receiver lane using the offset sampler. -/
  | laneMargining (lane : LaneIx) (on : Bool)
  /-- EYE_CMD (R295): A write of EYE_CMD is validated and starts an eye scan. -/
  | eyeCmd (sess : SessRef) (p : PortIx) (cmd : BitVec 128)
  /-- EYE_SCAN_POINT (R293): One eye-scan point ends after its dwell and the next starts or the scan completes. -/
  | eyeScanPoint (p : PortIx) (errors : BitVec 32)
  /-- LANE_TEST_CONFIG (R291): A write of LOOP, PATTERN, GEN_EN or CHK_EN configures a lane's test or is ignored with ILLEGAL. -/
  | laneTestConfig (via : CsrVia) (lane : LaneIx) (value : Word32)
  /-- BITSLIP (R291): A write of BITSLIP requests a one-UI slip of the word boundary. -/
  | bitslip (via : CsrVia) (lane : LaneIx)
  /-- BITSLIP_DONE (R291): The slip takes effect, SLIP_POS advances and BITSLIP reads 0. -/
  | bitslipDone (lane : LaneIx)
  /-- ERR_CLR (R290): A write of ERR_CLR clears the lane's error counter. -/
  | errClr (via : CsrVia) (lane : LaneIx)
  /-- SEAM_UNIT_LAUNCH (R309): A sender launches a unit on the first free strand with the items ready. -/
  | seamUnitLaunch (sm : TileIx) (d : Fin 2) (k : Fin 8)
  /-- SEAM_UNIT_RECEIVE (R312): A DATA or control unit arrives, is checked and stored, delivered or discarded. -/
  | seamUnitReceive (sm : TileIx) (d : Fin 2) (k : Fin 8) (u : SeamUnit)
  /-- SEAM_REPLAY_TIMER_EXPIRY (R314): 64 ns without an ACK relaunches an unacknowledged unit. -/
  | seamReplayTimerExpiry (sm : TileIx) (d : Fin 2) (seq : BitVec 12)
  /-- SEAM_ACK_UNIT_SEND (R316): With no DATA unit within 8 ns of a delivery or NAK, an ACK control unit is sent. -/
  | seamAckUnitSend (sm : TileIx) (d : Fin 2) (k : Fin 8)
  /-- KEEPALIVE_SEND (R330): A strand idle for 256 ns sends a KEEPALIVE. -/
  | keepaliveSend (sm : TileIx) (d : Fin 2) (k : Fin 8)
  /-- CHECK_SEND (R319): At a tick boundary a receiver with empty pools sends a CHECK unit. -/
  | checkSend (sm : TileIx) (d : Fin 2) (k : Fin 8)
  /-- CHECK_EVALUATE (R319): Once RET_THRU is delivered the sender computes pool shortfalls from a CHECK. -/
  | checkEvaluate (sm : TileIx) (d : Fin 2)
  /-- SEAM_RETRAIN_START (R323): A retrain of the seam's data strands starts at its tick boundary. -/
  | seamRetrainStart (sm : TileIx)
  /-- SEAM_RETRAIN_COMPLETE (R323): The retrain ends with credits reset and DATA units resuming from SEQ 0. -/
  | seamRetrainComplete (ended : RetrainEnd)
  /-- RETRAIN_NOW (R324): A write of RETRAIN_NOW requests a retrain and a retry of stopped strands. -/
  | retrainNow (sess : SessRef) (sm : TileIx) (v : Byte)
  /-- SEAM_STRAND_DOWN (R330): 4 µs without a good unit declares a data strand down. -/
  | seamStrandDown (sm : TileIx) (d : Fin 2) (k : Fin 8)
  /-- TIMING_STRAND_DOWN (R331): 500 ns without symbol lock declares the timing strand down. -/
  | timingStrandDown (sm : TileIx) (d : Fin 2)
  /-- STRAND_RETRY (R332): Every 1 ms a down strand is retried by training. -/
  | strandRetry (sm : TileIx) (d : Fin 2) (k : Fin 9) (pass : Bool) (badWires : List (Fin 66))
  /-- TIMING_FLIT_RECEIVE (R326): A timing-strand flit arrives and is delivered, acknowledged or discarded. -/
  | timingFlitReceive (sm : TileIx) (d : Fin 2) (f : TimingFlit)
  /-- TICK_MARK (R327): A tile receives the tick mark and realigns its cycle count and CT. -/
  | tickMark (sm : TileIx) (step : Int)
  /-- ISOLATE (R335): A write of ISOLATE holds a tile in reset or releases it. -/
  | isolate (sess : SessRef) (sm : TileIx) (v : Byte)
  /-- SEAM_HEALTHY (R333): A seam becomes healthy 1 ms after its last strand comes up. -/
  | seamHealthy (sm : TileIx)
  /-- INJ_ONCE (R340): Inverts one check bit of the next unit or flit on the chosen strand. -/
  | injOnce (via : CsrVia) (sm : TileIx) (d : Fin 2) (k : Fin 9) (on : Bool)
  /-- INJ_PERSIST (R340): Inverts the check bit on every unit or flit of the strand until cleared. -/
  | injPersist (via : CsrVia) (sm : TileIx) (d : Fin 2) (k : Fin 9) (on : Bool)
  /-- SEAM_WIRE_INJECT (R340): A write of WIRE inverts the pattern bits of one wire in control units. -/
  | seamWireInject (via : CsrVia) (sm : TileIx) (d : Fin 2) (k : Fin 9) (wire : BitVec 7)
  /-- KA_HOLD (R340): A write of KA_HOLD suppresses keep-alives on the strand. -/
  | kaHold (via : CsrVia) (sm : TileIx) (d : Fin 2) (k : Fin 9) (on : Bool)
  /-- SLICE_CREATE (R345): SLICE_CMD CREATE makes a descriptor slice or ring ACTIVE. -/
  | sliceCreate (sess : SessRef) (cmd : BitVec 512)
  /-- SLICE_DESTROY (R342): SLICE_CMD DESTROY returns a slice and its resources to FREE. -/
  | sliceDestroy (sess : SessRef) (cmd : BitVec 512)
  /-- SLICE_FREEZE (R360): SLICE_CMD FREEZE stops the slice being chosen and makes it FREEZING. -/
  | sliceFreeze (sess : SessRef) (cmd : BitVec 512)
  /-- SLICE_FROZEN (R360): Every issued write has ended and the slice becomes FROZEN. -/
  | sliceFrozen (sl : SliceIx)
  /-- SLICE_SAVE (R361): SLICE_CMD SAVE writes the state record and pending descriptors. -/
  | sliceSave (sess : SessRef) (cmd : BitVec 512)
  /-- SLICE_RESTORE (R362): SLICE_CMD RESTORE validates a record and creates a FROZEN slice from it. -/
  | sliceRestore (sess : SessRef) (cmd : BitVec 512) (record : List Byte)
  /-- SLICE_THAW (R342): SLICE_CMD THAW makes a FROZEN slice ACTIVE. -/
  | sliceThaw (sess : SessRef) (cmd : BitVec 512)
  /-- SUBMIT (R351): A descriptor written to SUBMIT is validated and queued or rejected. -/
  | submit (p : PortIx) (sl : SliceIx) (offset : BitVec 12) (pasid : Option (BitVec 20)) (desc : List Byte)
  /-- SLICE_FENCE (R143): A write to the slice's FENCE register starts a slice fence. -/
  | sliceFence (p : PortIx) (sl : SliceIx) (offset : BitVec 12) (nbytes : Nat) (pasid : Option (BitVec 20)) (word : BitVec 128)
  /-- DESCRIPTOR_START (R352): A descriptor starts, its list and ranges are checked before any byte moves. -/
  | descriptorStart (sl : SliceIx) (list : List Byte)
  /-- CHUNK_ISSUE (R356): At a chunk boundary the engine chooses a slice and issues its next chunk. -/
  | chunkIssue (e : EngineIx)
  /-- CHUNK_READ_RETURN (R354): Read data for a chunk returns, enabling its writes or faulting the descriptor. -/
  | chunkReadReturn (id : Nat) (status : MemStatus) (data : List Byte)
  /-- DESCRIPTOR_FINISH (R355): When every write of a descriptor has ended its completion record is written. -/
  | descriptorFinish (sl : SliceIx)
  /-- EVAC_CMD (R363): A write of EVAC_CMD starts evacuation of a pool target or is refused. -/
  | evacCmd (sess : SessRef) (cmd : BitVec 128)
  /-- EVAC_GRANULE_MOVE (R364): One granule is held, drained, copied and its watermark advanced. -/
  | evacGranuleMove
  /-- TAG_CMD (R382): A write of TAG_CMD recolours granules or is refused. -/
  | tagCmd (sess : SessRef) (cmd : BitVec 128)
  /-- TAG_CMD_WRITTEN (R383): The new tags are written through, and a guard epoch becomes pending. -/
  | tagCmdWritten
  /-- TAG_FILL_COMPLETE (R381): The fill or move of a colour-tag region ends and the target uses its store. -/
  | tagFillComplete (m : TargetIx)
  /-- SLICE_RGN_CMD (R392): A write of SLICE_RGN_CMD stages one region of a slice's set. -/
  | sliceRgnCmd (sess : SessRef) (cmd : BitVec 192)
  /-- GUARD_PUBLISH (R394): A write of GUARD_PUBLISH makes the staged slice sets pending publication. -/
  | guardPublish (sess : SessRef) (v : Byte)
  /-- GUARD_SYNC (R396): A write of GUARD_SYNC starts a sync for the active epoch. -/
  | guardSync (sess : SessRef) (v : Byte)
  /-- GUARD_SYNC_DONE (R396): Every count for an older epoch reaches zero and the sync completes. -/
  | guardSyncDone
  /-- GUARD_SYNC_TIMEOUT (R396): SYNC_TIMEOUT passes and the sync ends timed out. -/
  | guardSyncTimeout
  /-- CORE_REGION_BASE_HI (R402): A write of _BASE_HI checks the four words and loads the core region or sets RGN_BAD. -/
  | coreRegionBaseHi (via : CsrVia) (c : CoreIx) (k : Fin 16) (value : Word32)
  /-- VBUS_REVERSE_TURN_OFF (R403): VBUS_OR above an input turns that input's ORing FET off. -/
  | vbusReverseTurnOff (b : Bool)
  /-- VBUS_OVERVOLTAGE_OFF (R403): An input above 80.0 V for 1 µs turns its ORing FET off. -/
  | vbusOvervoltageOff (b : Bool)
  /-- VBUS_ORING_ON (R403): An input recovers and its ORing FET turns on again. -/
  | vbusOringOn (b : Bool)
  /-- POWER_ON_RESET_RELEASE (R547): VBUS_OR has stood at 33.0 V for 1 ms, power-on reset is released and the island boots. -/
  | powerOnResetRelease (ga : BitVec 6)
  /-- VBUS_WARN_ASSERT (R404): VBUS_OR falls through VBUS_WARN_LEVEL and a device power warning is raised. -/
  | vbusWarnAssert
  /-- VBUS_WARN_CLEAR (R404): VBUS_OR rises back and the warning clears. -/
  | vbusWarnClear
  /-- VBUS_BELOW_33 (R404): VBUS_OR falls through 33.0 V, hub warm reset is asserted and the rails go off. -/
  | vbusBelow33
  /-- VBUS_RECOVER_36 (R404): VBUS_OR at 36.0 V for 10 ms resequences the rails and releases the hub. -/
  | vbusRecover36
  /-- VBUS_BELOW_31 (R404): VBUS_OR falls through 31.0 V and power-on reset is asserted. -/
  | vbusBelow31
  /-- RAIL_START (R406): A rail's regulator is commanded on 0.5 ms after the previous rail is up. -/
  | railStart (r : Fin 4)
  /-- RAIL_UP (R406): A rail reads within ±3 % for 100 µs and is declared up. -/
  | railUp (r : Fin 4)
  /-- RAIL_START_TIMEOUT (R406): A rail not up within 20 ms stops sequencing with a rail fault. -/
  | railStartTimeout (r : Fin 4)
  /-- RAIL_FAULT (R407): A running rail faults, the hub is reset and the rails turned off. -/
  | railFault (r : Fin 4) (status : BitVec 16)
  /-- RAIL_OFF_STEP (R408): The next rail is turned off when the previous has fallen or 10 ms have passed. -/
  | railOffStep (r : Fin 4)
  /-- RAIL_RETRY (R407): 100 ms after a rail fault the rails are sequenced again unless retries are exhausted. -/
  | railRetry
  /-- RAIL_RESTART (R407): A write of RAIL_RESTART sequences the rails after they were stopped. -/
  | railRestart (sess : SessRef) (v : Byte)
  /-- PMBUS_POLL (R405): Every 1 ms, or on PMB_ALERT_N, the island reads status and telemetry. -/
  | pmbusPoll (r : Fin 4) (ack : Bool) (status : BitVec 16) (mv : Nat) (ma : Nat) (mc : Int)
  /-- DATA_PATH_RELEASE (R406): 1 ms after VDDIO is up the data-path dies are released. -/
  | dataPathRelease
  /-- SLOT_CMD_ON (R420): SLOT_CMD on is accepted and starts the ramp or is refused. -/
  | slotCmdOn (sess : SessRef) (s : SlotIx)
  /-- SLOT_CMD_OFF (R411): SLOT_CMD off takes the slot to OFF. -/
  | slotCmdOff (sess : SessRef) (s : SlotIx)
  /-- FORCE_OFF (R430): The manager forces a slot OFF whoever owns it. -/
  | forceOff (sess : SessRef) (s : SlotIx) (v : Byte)
  /-- RAMP_START (R412): An accepted on command starts gate drive when the output is below 2.5 V. -/
  | rampStart (s : SlotIx) (mv : Nat)
  /-- GATE_FULLY_ON (R417): The gate is declared fully on without the fault timer, PG_Nnn is asserted and the slot is ON. -/
  | gateFullyOn (s : SlotIx) (mv : Nat)
  /-- CURRENT_LIMIT_ENTER (R413): The shunt current exceeds LIMIT_MA, the gate limits and the fault timer starts. -/
  | currentLimitEnter (s : SlotIx) (ma : Nat)
  /-- FAULT_TIMER_STOP (R413): The current stays below 0.95 × LIMIT_MA for 10 µs and the timer resets. -/
  | faultTimerStop (s : SlotIx) (ma : Nat)
  /-- FAULT_TIMER_EXPIRY (R413): The fault timer reaches FAULT_TIME and the slot trips. -/
  | faultTimerExpiry (s : SlotIx)
  /-- FAST_TRIP (R414): The current crosses 2.5 × LIMIT_MA and the gate is pulled off at once. -/
  | fastTrip (s : SlotIx)
  /-- RAMP_TIMEOUT (R411): RAMP_TIMEOUT passes in RAMP and the slot trips. -/
  | rampTimeout (s : SlotIx)
  /-- TRIP_FAILURE (R418): Current persists after a trip, the feed paths open and the slot locks out. -/
  | tripFailure (s : SlotIx)
  /-- SUPPLY_OUT_OF_RANGE (R411): The node falls below UV_OFF or exceeds 78 V and the slot enters SUPPLY_WAIT. -/
  | supplyOutOfRange (s : SlotIx) (high : Bool)
  /-- SUPPLY_RETURN (R411): The node is in range for 10 ms with CMD_ON set and the slot ramps again. -/
  | supplyReturn (s : SlotIx)
  /-- PASS_FET_WATCH_FIRE (R419): The output stays above 2.5 V for 1 ms while off and the slot locks out. -/
  | passFetWatchFire (s : SlotIx)
  /-- DISCHARGE_END (R410): DSCHG_TIME after entry the discharge FET turns off and the watch starts. -/
  | dischargeEnd (s : SlotIx)
  /-- CHAN_RESET (R421): A write of CHAN_RESET resets the slot channel and starts its self-test. -/
  | chanReset (sess : SessRef) (s : SlotIx) (v : Byte)
  /-- CHANNEL_SELFTEST_DONE (R421): The channel self-test reports pass or fail. -/
  | channelSelftestDone (s : SlotIx) (pass : Bool)
  /-- LOCKOUT_CLEAR (R421): A write of LOCKOUT_CLEAR after a passed self-test returns the slot to OFF. -/
  | lockoutClear (sess : SessRef) (s : SlotIx) (v : Byte)
  /-- FEED_SWITCHOVER (R409): A feed path turns off for reverse current and the other feed carries the slot. -/
  | feedSwitchover (s : SlotIx) (b : Bool)
  /-- FEED_WARNING_ASSERT (R424): The slot node stays below WARN_LEVEL for 1 µs and WARN_Nnn asserts. -/
  | feedWarningAssert (s : SlotIx)
  /-- FEED_WARNING_CLEAR (R424): The node stays above WARN_LEVEL + 1 V for 1 ms and the warning clears. -/
  | feedWarningClear (s : SlotIx)
  /-- REDUNDANCY_LOST (R425): One feed stays below 36.0 V for 1 ms while the other is good. -/
  | redundancyLost (s : SlotIx) (b : Bool)
  /-- REDUNDANCY_REGAINED (R425): Both feeds stand at 36.0 V for 1 ms. -/
  | redundancyRegained (s : SlotIx)
  /-- POWER_WARNING_MESSAGE (R426): Warnings of one build window are stamped and sent as one power-warning message. -/
  | powerWarningMessage
  /-- HOST_GPF_PHASE2_REQUEST (R428): A host sends its own GPF Phase 2 request toward the device. -/
  | hostGpfPhase2Request (h : HostIx)
  /-- GPF_TARGET_FORWARD (R428): When the conditions hold the device sends or forwards GPF to a memory target. -/
  | gpfTargetForward (m : TargetIx)
  /-- GPF_HOST_WAIT_EXPIRY (R428): GPF_HOST_WAIT passes and pool targets are flushed without waiting further. -/
  | gpfHostWaitExpiry
  /-- EVENT_DELIVER (R457): After gathering, MSI-X messages and emergencies for changed sources are issued. -/
  | eventDeliver (n : EventIx)
  /-- ESCALATION_TIMER_EXPIRY (R452): A block's escalation timer expires and it takes its next step. -/
  | escalationTimerExpiry (n : EventIx)
  /-- SAFE_EXIT (R455): A write of SAFE_EXIT leaves the safe state or is refused. -/
  | safeExit (sess : SessRef) (v : Byte)
  /-- PENDING_ACK (R452): Writing 1 to PENDING acknowledges the event and stops its timer. -/
  | pendingAck (via : CsrVia) (n : EventIx)
  /-- EVT_ACK (R452): A write of EVT_ACK acknowledges an event source. -/
  | evtAck (sess : SessRef) (n : EventIx) (v : Byte)
  /-- ACK_MAP_WRITE (R458): A host writes its acknowledgement map, acknowledging routed sources. -/
  | ackMapWrite (h : HostIx) (map : BitVec 640)
  /-- CLR (R450): A write of CLR asks the block to leave its class. -/
  | clr (via : CsrVia) (n : EventIx)
  /-- EVT_CLEAR (R450): A write of EVT_CLEAR asks the source to leave its class. -/
  | evtClear (sess : SessRef) (n : EventIx) (v : Byte)
  /-- FER_VALID_RELEASE (R447): Writing 1 to FER_VALID releases the first-error record. -/
  | ferValidRelease (via : CsrVia) (n : EventIx)
  /-- EVT_INJ (R462): A write of the injection register arms check-bit inversion or is denied. -/
  | evtInj (via : CsrVia) (n : EventIx) (value : Word32)
  /-- EMCY (R477): The island sends the next queued emergency frame once the previous has left the bus. -/
  | emcy
  /-- READ_REQ (R474): A CAN FD read request is checked and answered with READ_RSP or ABORT. -/
  | readReq (src : BitVec 7) (txn : BitVec 6) (data : List Byte)
  /-- WRITE_REQ (R474): A CAN FD write request is checked and answered with WRITE_RSP or ABORT. -/
  | writeReq (src : BitVec 7) (txn : BitVec 6) (data : List Byte)
  /-- SEG_INIT (R476): A segmented transfer is opened and answered with SEG_INIT_RSP. -/
  | segInit (src : BitVec 7) (txn : BitVec 6) (data : List Byte)
  /-- SEG_DATA (R476): A segment of a transfer is received or checked for sequence. -/
  | segData (src : BitVec 7) (txn : BitVec 6) (data : List Byte)
  /-- SEG_ACK (R476): A segment acknowledgement advances or resends the transfer. -/
  | segAck (src : BitVec 7) (txn : BitVec 6) (data : List Byte)
  /-- SEG_ACK_TIMER_EXPIRY (R476): 20 ms after the last frame received the receiver sends SEG_ACK. -/
  | segAckTimerExpiry (src : BitVec 7)
  /-- SEG_TIMEOUT (R476): No frame of a transfer for 100 ms aborts it with 0x0703. -/
  | segTimeout (src : BitVec 7)
  /-- ABORT (R476): An ABORT frame from a peer ends its transfer. -/
  | abortFrame (src : BitVec 7) (txn : BitVec 6) (data : List Byte)
  /-- ILLEGAL_FUNC_FRAME (R472): A frame with an illegal FUNC or classical format is discarded and counted. -/
  | illegalFuncFrame (classical : Bool)
  /-- ADDR_CLAIM (R480): A received address claim makes the device defend, yield or move candidate. -/
  | addrClaim (src : BitVec 7) (serial : Word64)
  /-- ADDR_ASSIGN (R480): An address assignment restarts the dynamic claim with the given address. -/
  | addrAssign (data : List Byte)
  /-- ADDR_CLAIM_TIMER_EXPIRY (R479): 250 ms uncontested makes the candidate address taken and saved. -/
  | addrClaimTimerExpiry
  /-- ADDR_RETRY_EXPIRY (R479): 10 s after all candidates were contested the claim restarts. -/
  | addrRetryExpiry
  /-- CAN_ERROR_STATE_CHANGE (R470): The CAN node becomes error passive or bus off, or recovers. -/
  | canErrorStateChange (state : Fin 3) (tec : Byte) (rec_ : Byte)
  /-- SESSION_IDLE_EXPIRY (R466): SESSION_IDLE passes and the session closes, discarding its draft. -/
  | sessionIdleExpiry (sess : SessRef)
  /-- OBJECT_WRITE (R481): A write of an object with no row of its own is checked and applied or staged. -/
  | objectWrite (sess : SessRef) (index : BitVec 16) (sub : Byte) (data : List Byte)
  /-- FEAT_REQUEST (R487): A write of FEAT_REQUEST sets the session's feature intersection. -/
  | featRequest (sess : SessRef) (v : Word64)
  /-- GEN_COMMIT (R493): A write of GEN_COMMIT runs the commit checks and schedules publication. -/
  | genCommit (sess : SessRef) (v : Byte)
  /-- GEN_CONFIRM (R495): A write of GEN_CONFIRM confirms the active generation and stores it. -/
  | genConfirm (sess : SessRef) (v : Byte)
  /-- GEN_ROLLBACK (R496): A write of GEN_ROLLBACK makes a rollback due. -/
  | genRollback (sess : SessRef) (v : Byte)
  /-- DRAFT_DISCARD (R492): A write of DRAFT_DISCARD discards the owner's draft. -/
  | draftDiscard (sess : SessRef) (v : Byte)
  /-- CONFIRM_TIMER_EXPIRY (R496): CONFIRM_TIME passes unconfirmed and a rollback becomes due. -/
  | confirmTimerExpiry
  /-- DRAFT_IDLE_EXPIRY (R492): DRAFT_IDLE passes without an owner's write and the draft is discarded. -/
  | draftIdleExpiry
  /-- NOTIFY_SAMPLE (R510): At a subscription's period boundary the object is sampled and NOTIFY sent. -/
  | notifySample (k : Fin 32)
  /-- IDENTIFY (R500): The mailbox Identify command returns the device identity. -/
  | identify (h : HostIx)
  /-- GET_RESPONSE_MESSAGE_LIMIT (R500): The mailbox returns the response message limit. -/
  | getResponseMessageLimit (h : HostIx)
  /-- SET_RESPONSE_MESSAGE_LIMIT (R500): The mailbox sets the response message limit. -/
  | setResponseMessageLimit (h : HostIx) (limit : Byte)
  /-- GET_SUPPORTED_LOGS (R500): The mailbox lists the supported logs. -/
  | getSupportedLogs (h : HostIx)
  /-- GET_LOG (R500): The mailbox returns the Command Effects Log. -/
  | getLog (h : HostIx) (log : BitVec 128) (offset : Nat) (length : Nat)
  /-- OD_ACCESS_READ (R501): OD_ACCESS with OP read returns part of an object. -/
  | odAccessRead (h : HostIx) (input : List Byte)
  /-- OD_ACCESS_WRITE (R501): OD_ACCESS with OP write writes an object. -/
  | odAccessWrite (h : HostIx) (input : List Byte)
  /-- MAILBOX_UNSUPPORTED_COMMAND (R500): Any other mailbox command returns Unsupported. -/
  | mailboxUnsupportedCommand (h : HostIx) (opcode : BitVec 16)
  /-- IDENTIFY_SWITCH_DEVICE (R502): Returns the switch's ports, VCSs and vPPBs. -/
  | identifySwitchDevice (h : HostIx)
  /-- GET_PHYSICAL_PORT_STATE (R502): Returns a port's state from its objects. -/
  | getPhysicalPortState (h : HostIx) (p : PortIx)
  /-- PHYSICAL_PORT_CONTROL (R502): Resets a port, which goes down and trains again. -/
  | physicalPortControl (h : HostIx) (p : PortIx) (op : Byte)
  /-- SEND_PPB_CXL_IO_CONFIG_REQUEST (R502): Sends a configuration request to a target or end-device port. -/
  | sendPpbCxlIoConfigRequest (h : HostIx) (p : PortIx) (reg : BitVec 12) (write : Bool) (data : Word32)
  /-- GET_VIRTUAL_CXL_SWITCH_INFO (R502): Returns VCS information from the VCS objects. -/
  | getVirtualCxlSwitchInfo (h : HostIx) (n : HostIx)
  /-- BIND_VPPB (R502): The FM-API Bind vPPB command acts as BIND_CMD bind. -/
  | bindVppb (h : HostIx) (cmd : BitVec 64)
  /-- UNBIND_VPPB (R502): The FM-API Unbind vPPB command acts as BIND_CMD unbind. -/
  | unbindVppb (h : HostIx) (cmd : BitVec 64)
  /-- GENERATE_AER_EVENT (R502): Generates an AER event on a vPPB. -/
  | generateAerEvent (h : HostIx) (n : HostIx) (v : Fin 49) (error : Word32)
  /-- TUNNEL_MANAGEMENT_COMMAND (R502): Passes a command to an MLD's FM-owned LD or a pool target's mailbox. -/
  | tunnelManagementCommand (h : HostIx) (p : PortIx) (payload : List Byte)
  /-- GET_DCD_INFO (R502): Returns dynamic-capacity information for capacity LDs. -/
  | getDcdInfo (h : HostIx)
  /-- GET_HOST_DC_REGION_CONFIGURATION (R502): Returns a host's DC region configuration. -/
  | getHostDcRegionConfiguration (h : HostIx) (n : HostIx)
  /-- GET_DC_REGION_EXTENT_LISTS (R502): Returns the extent lists of a DC region. -/
  | getDcRegionExtentLists (h : HostIx) (n : HostIx)
  /-- INITIATE_DYNAMIC_CAPACITY_ADD (R502): Acts as an EXTENT_CMD add. -/
  | initiateDynamicCapacityAdd (h : HostIx) (cmd : BitVec 128)
  /-- INITIATE_DYNAMIC_CAPACITY_RELEASE (R502): Acts as an EXTENT_CMD release. -/
  | initiateDynamicCapacityRelease (h : HostIx) (cmd : BitVec 128)
  /-- SET_DC_REGION_CONFIGURATION (R502): Returns Invalid Input because the region is fixed. -/
  | setDcRegionConfiguration (h : HostIx)
  /-- DISCOVER (R506): The service port answers with serial, address and life-cycle state. -/
  | discover (f : SvcFrame)
  /-- OPEN (R506): Opens a service-port session or returns busy. -/
  | openSession (f : SvcFrame)
  /-- CLOSE (R506): Closes a service-port session. -/
  | closeSession (h : SvcHead) (payload : List Byte)
  /-- OD_READ (R506): Reads part of an object over the service port. -/
  | odRead (h : SvcHead) (index : BitVec 16) (sub rsv : Byte) (offset length : Word32)
  /-- OD_WRITE (R506): Writes an object over the service port. -/
  | odWrite (h : SvcHead) (index : BitVec 16) (sub rsv : Byte) (offset : Word32) (rest : List Byte)
  /-- CSR_READ (R506): Reads a CSR of a named die with the maker role. -/
  | csrRead (h : SvcHead) (die : Byte) (rsv : BitVec 24) (offset : Word32)
  /-- CSR_WRITE (R506): Writes a CSR of a named die with the maker role. -/
  | csrWrite (h : SvcHead) (die : Byte) (rsv : BitVec 24) (offset value : Word32)
  /-- SERVICE_PORT_BAD_OP (R506): A service-port request with an unknown OP is answered 0x0801. -/
  | servicePortBadOp (h : SvcHead) (op : Byte) (payload : List Byte)
  /-- BLOB_BEGIN (R530): Opens a blob transfer of an image, response or token. -/
  | blobBegin (h : SvcHead) (kind : Byte) (rsv : BitVec 24) (total crc : Word32)
  /-- BLOB_DATA (R530): Appends data to the open blob. -/
  | blobData (h : SvcHead) (offset len : Word32) (bytes : List Byte)
  /-- BLOB_END (R530): Ends the blob, which is checked and acted on or staged. -/
  | blobEnd (h : SvcHead) (payload : List Byte)
  /-- BLOB_STATUS (R529): Returns the state of the session's blob. -/
  | blobStatus (h : SvcHead) (payload : List Byte)
  /-- BLOB_ABORT (R529): Discards the session's blob. -/
  | blobAbort (h : SvcHead) (payload : List Byte)
  /-- BLOB_IDLE_EXPIRY (R530): A blob idle for 10 s is discarded. -/
  | blobIdleExpiry (sess : SessRef)
  /-- LC_ADVANCE (R515): A write of LC_ADVANCE moves to PROVISIONED or FIELD. -/
  | lcAdvance (sess : SessRef) (v : Byte)
  /-- LC_TOKEN (R515): A valid return token moves the device to RETURNED. -/
  | lcToken (sess : SessRef) (token : List Byte)
  /-- LC_SCRAP (R515): A write of LC_SCRAP with the serial retires the device. -/
  | lcScrap (sess : SessRef) (v : Word64)
  /-- VROOT_REVOKE0 (R521): A write of VROOT_REVOKE0 revokes vendor root slot 0. -/
  | vrootRevoke0 (sess : SessRef) (v : Byte)
  /-- JTAG_OPEN (R517): A write of JTAG_OPEN opens the TAP instructions the state allows. -/
  | jtagOpen (sess : SessRef) (v : Byte)
  /-- CUST_KEY_HASH (R522): A write of CUST_KEY_HASH registers or removes the customer key. -/
  | custKeyHash (sess : SessRef) (v : BitVec 256)
  /-- AUTH_RESPONSE (R523): A write of AUTH_RESPONSE raises the session's role when it verifies. -/
  | authResponse (sess : SessRef) (response : List Byte)
  /-- DEVKEY_GEN (R545): A write of DEVKEY_GEN generates the device signing key. -/
  | devkeyGen (sess : SessRef) (v : Byte)
  /-- DEVKEY_CERT (R538): A write of DEVKEY_CERT installs the device certificate. -/
  | devkeyCert (sess : SessRef) (cert : List Byte)
  /-- ATTEST_NONCE (R541): A write of ATTEST_NONCE asks for a signed attestation report. -/
  | attestNonce (sess : SessRef) (nonce : BitVec 256)
  /-- ATTEST_REPORT_READY (R541): The signing engine finishes and the report is written. -/
  | attestReportReady (sess : SessRef)
  /-- FW_INSTALL (R531): A write of FW_INSTALL starts installation of the named staged images. -/
  | fwInstall (sess : SessRef) (v : Byte)
  /-- PART_SWAP_COMPLETE (R532): A part finishes swapping and its probation starts. -/
  | partSwapComplete (k : Fin 8) (ok : Bool)
  /-- IMAGE_HEALTH_REPORT (R532): A probationary image reports its health, confirming or falling back. -/
  | imageHealthReport (k : Fin 8) (healthy : Bool)
  /-- PROBATION_EXPIRY (R533): The probation window ends unconfirmed and the part falls back. -/
  | probationExpiry (k : Fin 8)
  /-- FW_REJECT (R533): A write of FW_REJECT makes the probationary part fall back. -/
  | fwReject (sess : SessRef) (v : Byte)
  /-- FW_DISCARD (R546): A write of FW_DISCARD discards the named staged images. -/
  | fwDiscard (sess : SessRef) (v : Byte)
  /-- APPLET_REMOVE (R546): A write of APPLET_REMOVE stops and erases an applet. -/
  | appletRemove (sess : SessRef) (slot : Fin 8) (v : Byte)
  /-- DATA_PATH_IMAGES_LOADED (R547): Data-path images are verified and started, the generation published and CORE_READY set. -/
  | dataPathImagesLoaded
  /-- HK_RST_N (R550): HK_RST_N low for 1 µs enters the housekeeping reset. -/
  | hkRstN (ga : BitVec 6)
  /-- RESET_HK (R550): A write of RESET_HK performs a housekeeping reset. -/
  | resetHk (sess : SessRef) (v : Byte)
  /-- RESET_HUB (R551): A write of RESET_HUB performs a hub warm reset or is refused during a flush. -/
  | resetHub (sess : SessRef) (v : Byte)
  /-- HK_WATCHDOG (R550): The island watchdog expires and a housekeeping reset follows. -/
  | hkWatchdog
  /-- RESET_RELEASE (R550): A held reset domain is released and its restart runs. -/
  | resetRelease (dom : ResetDomain)
  /-- CXL_HOT_RESET (R550): A partner hot reset or Secondary Bus Reset resets a port's CXL state. -/
  | cxlHotReset (p : PortIx) (vppb : Option (HostIx × Fin 49))
  /-- TEMPERATURE_POLL (R563): Every 1 ms the island reads the die sensors and raises or clears the warning. -/
  | temperaturePoll (mc : List Int)
  /-- THERMAL_SHUTDOWN (R563): A hub or tile at 135 °C for 10 µs turns the rails off and holds the hub in reset. -/
  | thermalShutdown
  /-- THERMAL_RECOVERY (R563): All sensors below 110 °C for 1 s resequence the rails and release the hub. -/
  | thermalRecovery
  /-- COMPANION_OVER_TEMPERATURE (R563): A companion at 140 °C for 10 µs turns its slots off. -/
  | companionOverTemperature (b : Bool)
  /-- COMPANION_TEMPERATURE_RECOVER (R563): A companion below 115 °C allows on commands again. -/
  | companionTemperatureRecover (b : Bool)
  /-- REGISTER_WRITE (R6): A CSR write with no row of its own is checked for alignment and applied by its access code. -/
  | registerWrite (via : CsrVia) (die : DieIx) (offset : Word32) (nbytes : Nat) (value : Word32)
  /-- PARTNER_DETECT (R299): A DOWN port whose lanes are in NAP detects a partner's receiver or electrical-idle exit and starts training at once. -/
  | partnerDetect (p : PortIx)
  /-- L1_EXIT (R299): A link leaves L1 and its lanes return from STANDBY to ACTIVE within the advertised exit latency. -/
  | l1Exit (p : PortIx)
  /-- LOOPBACK_EXIT (R292): The partner ends Loopback, and the port stops acting as follower and no longer counts as down. -/
  | loopbackExit (p : PortIx)
  /-- SERVICE_PORT_LINK_CHANGE (R442): The 1000BASE-X service-port link goes down or comes up, raising E611. -/
  | servicePortLinkChange (up : Bool)
  /-- SPC_OSCILLATOR_OUT_OF_RANGE (R442): A companion's 20 MHz oscillator leaves or returns to its range, raising E612 or E613 with the lasting cause code 0x02. -/
  | spcOscillatorOutOfRange (b : Bool) (bad : Bool)
  /-- TILE_SWAP_DEADLINE (R535): Ten seconds after FW_INSTALL, a TILE or SERDES part that has not swapped on every tile falls back. -/
  | tileSwapDeadline
  /-- GPF_TARGET_COMPLETE (R428): A memory target completes GPF Phase 2, which lets the flush state end and E614 report it as completed. -/
  | gpfTargetComplete (m : TargetIx)
  /-- CORE_MEMORY_ACCESS (R147): A service core executes a plain load, store or instruction fetch, which its region unit checks and which enters the store buffer or is issued. -/
  | coreMemoryAccess (c : CoreIx) (op : CoreOp) (addr : Word64) (nbytes : Fin 9)
  /-- REGISTER_READ (R6): A CSR read that is misaligned, or that targets an unreachable die, returns all ones and records a fault or sets UNREACH. -/
  | registerRead (via : CsrVia) (die : DieIx) (offset : Word32) (nbytes : Nat)
  /-- JTAG_TAP_ACCESS (R514): An instruction is shifted into the IEEE 1149.1 TAP, and the life-cycle gates and JTAG_OPEN decide whether it acts. -/
  | jtagTapAccess (scan : TapScan)
deriving DecidableEq, Repr

end Sys2Proof
end

