-- ==== Sys2Proof/Decode.lean ====
section
/-!
DEFINITION. Words of the operation table. The table gives none of its rows any bits, so no word spells a command.
-/
namespace Sys2Proof

/-- The command that a word spells by the table's bits: none, as no row has bits. -/
def decodeTableWord (_nbits _w : Nat) : Option Instr := none

end Sys2Proof
end

