-- ==== Sys2Proof/Config.lean ====
section
/-!
DEFINITION. Configuration of the model: the constants of the device that the spec fixes, and the opaque values that it
leaves open or that lie outside it (free values, the entropy source, the hash and signature schemes of RFC 8554).
No proof can see what an opaque constant is.
-/
namespace Sys2Proof.Config

/-- A fresh free value, by the number already taken: the value of a result that the spec leaves open. -/
opaque freeValue : Nat → BitVec 64
/-- The island's entropy source (R518): 32 bytes, by the number of values already taken. -/
opaque entropy : Nat → BitVec 256
/-- SHA-256 of bytes (R520, R524). -/
opaque sha256 : List Byte → BitVec 256
/-- HSS verification of RFC 8554 section 6.3 with the parameter sets of R519: message, public key, signature. -/
opaque hssVerify : List Byte → List Byte → List Byte → Bool
/-- The device key's HSS signature over a body with an index (R542). -/
opaque hssSign : Nat → Nat → BitVec 24992
/-- Public key made from the entropy of DEVKEY_GEN: 60 bytes. -/
opaque devPublic : Nat → BitVec 480
/-- The vendor public key whose fused hash this is: the certificate of R538 carries none. -/
opaque rootKey : Nat → List Byte
/-- SHA-256 of a generation as it is stored in flash, whose format the spec does not give (R542). -/
opaque genHash : List (Nat × Nat) → BitVec 256
/-- Manufacturer identity in IDCODE [11:1], from fuses (R552). -/
opaque manufacturer : BitVec 11

/-- One FCLK cycle in ps (R4). -/
def fclk : Nat := 625
/-- One tick of 1,600 cycles in ps. -/
def tickPs : Nat := 1000000
/-- Microseconds and milliseconds in ps. -/
def us : Nat := 1000000
def ms : Nat := 1000000000

end Sys2Proof.Config
end

