-- ==== Sys2Proof/Machine/KMap.lean ====
section
/-!
DEFINITION. Sparse data by number: a list of (key, value) pairs in ONE canonical form, keys strictly rising and no
entry equal to the default that an unlisted key reads as. Queues, tables of links and trackers, and the object
dictionary's values are held so.
-/
namespace Sys2Proof.Machine

/-- A sparse map from numbers to values. -/
abbrev KMap (α : Type) := List (Nat × α)

/-- The value under `k`; `d` where nothing is listed. -/
def KMap.get {α : Type} (d : α) : KMap α → Nat → α
  | [], _ => d
  | (j, v) :: m, k => if j = k then v else KMap.get d m k

/-- Every entry but the one under `k`. -/
def KMap.erase {α : Type} : KMap α → Nat → KMap α
  | [], _ => []
  | (j, v) :: m, k => if j = k then KMap.erase m k else (j, v) :: KMap.erase m k

/-- `v` under `k`, in key order. -/
def KMap.insert {α : Type} : KMap α → Nat → α → KMap α
  | [], k, v => [(k, v)]
  | (j, w) :: m, k, v =>
    if k < j then (k, v) :: (j, w) :: m
    else if j = k then (k, v) :: m
    else (j, w) :: KMap.insert m k v

/-- Set the value under `k`, keeping the canonical form for the default `d`. -/
def KMap.set {α : Type} [DecidableEq α] (d : α) (m : KMap α) (k : Nat) (v : α) : KMap α :=
  if v = d then m.erase k else m.insert k v

/-- Apply `f` to the value under `k`. -/
def KMap.upd {α : Type} [DecidableEq α] (d : α) (m : KMap α) (k : Nat) (f : α → α) : KMap α :=
  KMap.set d m k (f (KMap.get d m k))

/-- Keep the entries whose key meets a condition. -/
def KMap.keep {α : Type} (f : Nat → Bool) (m : KMap α) : KMap α := m.filter (fun e => f e.1)

/-- Drop every value that `f` picks. -/
def KMap.drop {α : Type} (f : Nat → α → Bool) (m : KMap α) : KMap α := m.filter (fun e => !f e.1 e.2)

/-- Apply `f` to every listed value, keeping the canonical form for the default `d`. -/
def KMap.mapVals {α : Type} [DecidableEq α] (d : α) (f : Nat → α → α) (m : KMap α) : KMap α :=
  (m.map (fun e => (e.1, f e.1 e.2))).filter (fun e => decide (e.2 ≠ d))

/-- Keys rise strictly from above `lo`. -/
def KMap.risesFrom {α : Type} : Option Nat → KMap α → Bool
  | _, [] => true
  | lo, (j, _) :: m => (match lo with | none => true | some l => decide (l < j)) && KMap.risesFrom (some j) m

/-- The canonical form: keys strictly rising, no entry at its default `d k`. -/
def KMap.wf {α : Type} [DecidableEq α] (d : Nat → α) (m : KMap α) : Bool :=
  KMap.risesFrom none m && m.all (fun e => decide (e.2 ≠ d e.1))

end Sys2Proof.Machine
end

