-- ==== Sys2Proof/Machine/Objects.lean ====
section
/-!
DEFINITION. The object dictionary (R8, R9, R486): the key of every object the chapters define, and the table that
gives each its place, type, access, default and range. A key is index * 256 + subindex. Each K name is the object's
own name in the spec; i counts the first index variable of its row, j the second.
-/
namespace Sys2Proof.Machine

/-- An object's type (R8): `u n` an unsigned, flag, time or address word of n bytes. -/
inductive OdType where
  | u (n : Nat) | i32 | bool | octets (n : Nat) | string (n : Nat)
deriving DecidableEq, Repr

/-- Access codes of objects (R9). -/
inductive OdAccess where
  | ro | rw | rws | wo
deriving DecidableEq, Repr

/-- The range column: what check 7 of R481 accepts. `bits m`: no bit outside m (check 6). `region`: a port guard's region
(R374). -/
inductive OdCheck where
  | any
  | rng (lo hi : Nat)
  | srng (neg hi : Nat)
  | oneOf (l : List Nat)
  | mult (unit top : Nat)
  | rngOr (hi also : Nat)
  | nibbles (n lo hi : Nat)
  | bits (mask : Nat)
  | region
deriving DecidableEq, Repr

/-- Where an object's value lives (R484, R485). -/
inductive OdHome where
  | island | hub | tile | companion | event
deriving DecidableEq, Repr

/-- A default that is one number, or counts with the index (RAIL_ADDR). -/
inductive OdDflt where
  | const (v : Nat) | plusIx (v : Nat)
deriving DecidableEq, Repr

/-- One row of an object table. The indices are `base + stride * i` for i below `count`, the subindices
`sub + j` for j below `subs`. `role` is the lowest role that may write (R565). -/
structure OdRow where
  name   : String
  base   : Nat
  stride : Nat
  count  : Nat
  sub    : Nat
  subs   : Nat
  type   : OdType
  access : OdAccess
  dflt   : OdDflt
  check  : OdCheck
  home   : OdHome
  role   : Nat
deriving DecidableEq, Repr

/-- CLASS_MAP_VIEW (OD 0x1003+.01, 01_architecture.md). -/
def K.CLASS_MAP_VIEW (i : Nat) : Nat := (0x1003 + 16 * i) * 256 + 1
/-- CLASS_MAP_OVERRIDES (OD 0x1003+.02, 01_architecture.md). -/
def K.CLASS_MAP_OVERRIDES (i : Nat) : Nat := (0x1003 + 16 * i) * 256 + 2
/-- LIM_SYS (OD 0x2100+.01, 02_plank_switching.md). -/
def K.LIM_SYS (i : Nat) : Nat := (0x2100 + 1 * i) * 256 + 1
/-- LIM_COH (OD 0x2100+.02, 02_plank_switching.md). -/
def K.LIM_COH (i : Nat) : Nat := (0x2100 + 1 * i) * 256 + 2
/-- LIM_BULK (OD 0x2100+.03, 02_plank_switching.md). -/
def K.LIM_BULK (i : Nat) : Nat := (0x2100 + 1 * i) * 256 + 3
/-- LIM_VIEW (OD 0x2100+.04, 02_plank_switching.md). -/
def K.LIM_VIEW (i : Nat) : Nat := (0x2100 + 1 * i) * 256 + 4
/-- PLANK_MODE (OD 0x2000.01, 02_plank_switching.md). -/
def K.PLANK_MODE : Nat := 0x200001
/-- FORCE_FULLING (OD 0x2000.02, 02_plank_switching.md). -/
def K.FORCE_FULLING : Nat := 0x200002
/-- MATCH_SELFTEST (OD 0x2000.03, 02_plank_switching.md). -/
def K.MATCH_SELFTEST : Nat := 0x200003
/-- MODE_CHANGES (OD 0x2000.04, 02_plank_switching.md). -/
def K.MODE_CHANGES : Nat := 0x200004
/-- GRANT_CONFLICTS (OD 0x2000.05, 02_plank_switching.md). -/
def K.GRANT_CONFLICTS : Nat := 0x200005
/-- MCAST_SYS_SLOTS (OD 0x2000.06, 02_plank_switching.md). -/
def K.MCAST_SYS_SLOTS : Nat := 0x200006
/-- MCAST_HIGH_WATER (OD 0x2000.07, 02_plank_switching.md). -/
def K.MCAST_HIGH_WATER : Nat := 0x200007
/-- RESEQ_RESERVED_USES (OD 0x2000.08, 02_plank_switching.md). -/
def K.RESEQ_RESERVED_USES : Nat := 0x200008
/-- HDR_ERRORS (OD 0x2000.09, 02_plank_switching.md). -/
def K.HDR_ERRORS : Nat := 0x200009
/-- OCC (OD 0x2100+.05–, 02_plank_switching.md). -/
def K.OCC (i j : Nat) : Nat := (0x2100 + 1 * i) * 256 + 5 + j
/-- VIEW_DROP_CELLS (OD 0x2100+.09, 02_plank_switching.md). -/
def K.VIEW_DROP_CELLS (i : Nat) : Nat := (0x2100 + 1 * i) * 256 + 9
/-- VIEW_DROP_PKTS (OD 0x2100+.0A, 02_plank_switching.md). -/
def K.VIEW_DROP_PKTS (i : Nat) : Nat := (0x2100 + 1 * i) * 256 + 10
/-- BP_TICKS (OD 0x2100+.0B, 02_plank_switching.md). -/
def K.BP_TICKS (i : Nat) : Nat := (0x2100 + 1 * i) * 256 + 11
/-- FLUSHED_CELLS (OD 0x2100+.0C, 02_plank_switching.md). -/
def K.FLUSHED_CELLS (i : Nat) : Nat := (0x2100 + 1 * i) * 256 + 12
/-- WIN_ENABLE (OD 0x2900+.01, 03_crown_coherence.md). -/
def K.WIN_ENABLE (i : Nat) : Nat := (0x2900 + 1 * i) * 256 + 1
/-- WIN_SIZE (OD 0x2900+.02, 03_crown_coherence.md). -/
def K.WIN_SIZE (i : Nat) : Nat := (0x2900 + 1 * i) * 256 + 2
/-- PRIMARY_TARGET (OD 0x2900+.03, 03_crown_coherence.md). -/
def K.PRIMARY_TARGET (i : Nat) : Nat := (0x2900 + 1 * i) * 256 + 3
/-- PRIMARY_OFFSET (OD 0x2900+.04, 03_crown_coherence.md). -/
def K.PRIMARY_OFFSET (i : Nat) : Nat := (0x2900 + 1 * i) * 256 + 4
/-- DIR_OFFSET (OD 0x2900+.05, 03_crown_coherence.md). -/
def K.DIR_OFFSET (i : Nat) : Nat := (0x2900 + 1 * i) * 256 + 5
/-- MIRROR (OD 0x2900+.06, 03_crown_coherence.md). -/
def K.MIRROR (i : Nat) : Nat := (0x2900 + 1 * i) * 256 + 6
/-- MIRROR_TARGET (OD 0x2900+.07, 03_crown_coherence.md). -/
def K.MIRROR_TARGET (i : Nat) : Nat := (0x2900 + 1 * i) * 256 + 7
/-- MIRROR_OFFSET (OD 0x2900+.08, 03_crown_coherence.md). -/
def K.MIRROR_OFFSET (i : Nat) : Nat := (0x2900 + 1 * i) * 256 + 8
/-- MIRROR_DIR_OFFSET (OD 0x2900+.09, 03_crown_coherence.md). -/
def K.MIRROR_DIR_OFFSET (i : Nat) : Nat := (0x2900 + 1 * i) * 256 + 9
/-- READ_REPLICA (OD 0x2900+.0A, 03_crown_coherence.md). -/
def K.READ_REPLICA (i : Nat) : Nat := (0x2900 + 1 * i) * 256 + 10
/-- HOSTS (OD 0x2900+.0B, 03_crown_coherence.md). -/
def K.HOSTS (i : Nat) : Nat := (0x2900 + 1 * i) * 256 + 11
/-- SNOOP_TIMEOUT (OD 0x2900+.0C, 03_crown_coherence.md). -/
def K.SNOOP_TIMEOUT (i : Nat) : Nat := (0x2900 + 1 * i) * 256 + 12
/-- STATE (OD 0x2900+.0D, 03_crown_coherence.md). -/
def K.STATE (i : Nat) : Nat := (0x2900 + 1 * i) * 256 + 13
/-- FWD_HITS (OD 0x2900+.0E, 03_crown_coherence.md). -/
def K.FWD_HITS (i : Nat) : Nat := (0x2900 + 1 * i) * 256 + 14
/-- FWD_MISSES (OD 0x2900+.0F, 03_crown_coherence.md). -/
def K.FWD_MISSES (i : Nat) : Nat := (0x2900 + 1 * i) * 256 + 15
/-- BISNP_SENT (OD 0x2900+.10, 03_crown_coherence.md). -/
def K.BISNP_SENT (i : Nat) : Nat := (0x2900 + 1 * i) * 256 + 16
/-- POISONED_LINES (OD 0x2900+.11, 03_crown_coherence.md). -/
def K.POISONED_LINES (i : Nat) : Nat := (0x2900 + 1 * i) * 256 + 17
/-- FAILOVERS (OD 0x2900+.12, 03_crown_coherence.md). -/
def K.FAILOVERS (i : Nat) : Nat := (0x2900 + 1 * i) * 256 + 18
/-- RESYNC_DONE (OD 0x2900+.13, 03_crown_coherence.md). -/
def K.RESYNC_DONE (i : Nat) : Nat := (0x2900 + 1 * i) * 256 + 19
/-- RESYNC_START (OD 0x2900+.14, 03_crown_coherence.md). -/
def K.RESYNC_START (i : Nat) : Nat := (0x2900 + 1 * i) * 256 + 20
/-- WIN_TOTAL (OD 0x2800.01, 03_crown_coherence.md). -/
def K.WIN_TOTAL : Nat := 0x280001
/-- SWEEP_RATE (OD 0x2800.02, 03_crown_coherence.md). -/
def K.SWEEP_RATE : Nat := 0x280002
/-- DEPART_PENDING (OD 0x2800.03, 03_crown_coherence.md). -/
def K.DEPART_PENDING : Nat := 0x280003
/-- TRACKER_IN_USE (OD 0x2800.04, 03_crown_coherence.md). -/
def K.TRACKER_IN_USE : Nat := 0x280004
/-- TRACKER_HIGH_WATER (OD 0x2800.05, 03_crown_coherence.md). -/
def K.TRACKER_HIGH_WATER : Nat := 0x280005
/-- DIRCACHE_LOOKUPS (OD 0x2800.06, 03_crown_coherence.md). -/
def K.DIRCACHE_LOOKUPS : Nat := 0x280006
/-- DIRCACHE_MISSES (OD 0x2800.07, 03_crown_coherence.md). -/
def K.DIRCACHE_MISSES : Nat := 0x280007
/-- DIR_REPAIRS (OD 0x2800.08, 03_crown_coherence.md). -/
def K.DIR_REPAIRS : Nat := 0x280008
/-- QUEUE_DEPTH_MAX (OD 0x2800.09, 03_crown_coherence.md). -/
def K.QUEUE_DEPTH_MAX : Nat := 0x280009
/-- LAST_REFUSAL (OD 0x2800.0F, 03_crown_coherence.md). -/
def K.LAST_REFUSAL : Nat := 0x28000f
/-- FENCE_TIMEOUT (OD 0x2300.01, 04_ordering_fences.md). -/
def K.FENCE_TIMEOUT : Nat := 0x230001
/-- FENCES_DONE (OD 0x2300.02, 04_ordering_fences.md). -/
def K.FENCES_DONE : Nat := 0x230002
/-- FENCES_TIMED_OUT (OD 0x2300.03, 04_ordering_fences.md). -/
def K.FENCES_TIMED_OUT : Nat := 0x230003
/-- FENCES_REFUSED (OD 0x2300.04, 04_ordering_fences.md). -/
def K.FENCES_REFUSED : Nat := 0x230004
/-- DOORBELLS_DISCARDED (OD 0x2300.05, 04_ordering_fences.md). -/
def K.DOORBELLS_DISCARDED : Nat := 0x230005
/-- FENCE_HIGH_WATER (OD 0x2300.06, 04_ordering_fences.md). -/
def K.FENCE_HIGH_WATER : Nat := 0x230006
/-- FENCES_ABANDONED (OD 0x2300.07, 04_ordering_fences.md). -/
def K.FENCES_ABANDONED : Nat := 0x230007
/-- FENCE_BASE (OD 0x2340+.01, 04_ordering_fences.md). -/
def K.FENCE_BASE (i : Nat) : Nat := (0x2340 + 1 * i) * 256 + 1
/-- FENCE_ENABLE (OD 0x2340+.02, 04_ordering_fences.md). -/
def K.FENCE_ENABLE (i : Nat) : Nat := (0x2340 + 1 * i) * 256 + 2
/-- LINE_DIR (OD 0x0410+.01, 05_chassis_time_triggers.md). -/
def K.LINE_DIR (i : Nat) : Nat := (0x0410 + 1 * i) * 256 + 1
/-- IN_EDGE (OD 0x0410+.02, 05_chassis_time_triggers.md). -/
def K.IN_EDGE (i : Nat) : Nat := (0x0410 + 1 * i) * 256 + 2
/-- IN_FILTER (OD 0x0410+.03, 05_chassis_time_triggers.md). -/
def K.IN_FILTER (i : Nat) : Nat := (0x0410 + 1 * i) * 256 + 3
/-- IN_HOLDOFF (OD 0x0410+.04, 05_chassis_time_triggers.md). -/
def K.IN_HOLDOFF (i : Nat) : Nat := (0x0410 + 1 * i) * 256 + 4
/-- BCAST (OD 0x0410+.05, 05_chassis_time_triggers.md). -/
def K.BCAST (i : Nat) : Nat := (0x0410 + 1 * i) * 256 + 5
/-- LAST_STAMP (OD 0x0410+.06, 05_chassis_time_triggers.md). -/
def K.LAST_STAMP (i : Nat) : Nat := (0x0410 + 1 * i) * 256 + 6
/-- EDGE_COUNT (OD 0x0410+.07, 05_chassis_time_triggers.md). -/
def K.EDGE_COUNT (i : Nat) : Nat := (0x0410 + 1 * i) * 256 + 7
/-- MERGED_COUNT (OD 0x0410+.08, 05_chassis_time_triggers.md). -/
def K.MERGED_COUNT (i : Nat) : Nat := (0x0410 + 1 * i) * 256 + 8
/-- MSG_OVERRUN (OD 0x0410+.09, 05_chassis_time_triggers.md). -/
def K.MSG_OVERRUN (i : Nat) : Nat := (0x0410 + 1 * i) * 256 + 9
/-- OUT_AT (OD 0x0410+.0A, 05_chassis_time_triggers.md). -/
def K.OUT_AT (i : Nat) : Nat := (0x0410 + 1 * i) * 256 + 10
/-- OUT_WIDTH (OD 0x0410+.0B, 05_chassis_time_triggers.md). -/
def K.OUT_WIDTH (i : Nat) : Nat := (0x0410 + 1 * i) * 256 + 11
/-- OUT_PENDING (OD 0x0410+.0C, 05_chassis_time_triggers.md). -/
def K.OUT_PENDING (i : Nat) : Nat := (0x0410 + 1 * i) * 256 + 12
/-- OUT_CANCEL (OD 0x0410+.0D, 05_chassis_time_triggers.md). -/
def K.OUT_CANCEL (i : Nat) : Nat := (0x0410 + 1 * i) * 256 + 13
/-- OUT_LATE (OD 0x0410+.0E, 05_chassis_time_triggers.md). -/
def K.OUT_LATE (i : Nat) : Nat := (0x0410 + 1 * i) * 256 + 14
/-- OUT_DROPPED (OD 0x0410+.0F, 05_chassis_time_triggers.md). -/
def K.OUT_DROPPED (i : Nat) : Nat := (0x0410 + 1 * i) * 256 + 15
/-- CT_NOW (OD 0x0400.01, 05_chassis_time_triggers.md). -/
def K.CT_NOW : Nat := 0x40001
/-- CT_LOAD (OD 0x0400.02, 05_chassis_time_triggers.md). -/
def K.CT_LOAD : Nat := 0x40002
/-- CT_LOAD_MODE (OD 0x0400.03, 05_chassis_time_triggers.md). -/
def K.CT_LOAD_MODE : Nat := 0x40003
/-- CT_STATE (OD 0x0400.04, 05_chassis_time_triggers.md). -/
def K.CT_STATE : Nat := 0x40004
/-- REF_SEL (OD 0x0400.05, 05_chassis_time_triggers.md). -/
def K.REF_SEL : Nat := 0x40005
/-- SYNC_ENABLE (OD 0x0400.06, 05_chassis_time_triggers.md). -/
def K.SYNC_ENABLE : Nat := 0x40006
/-- SYNC_PERIOD (OD 0x0400.07, 05_chassis_time_triggers.md). -/
def K.SYNC_PERIOD : Nat := 0x40007
/-- SYNC_MISSES (OD 0x0400.08, 05_chassis_time_triggers.md). -/
def K.SYNC_MISSES : Nat := 0x40008
/-- SLEW_OFFSET (OD 0x0400.09, 05_chassis_time_triggers.md). -/
def K.SLEW_OFFSET : Nat := 0x40009
/-- TIME_MSG_PORTS_LO (OD 0x0400.0A, 05_chassis_time_triggers.md). -/
def K.TIME_MSG_PORTS_LO : Nat := 0x4000a
/-- TIME_MSG_PORTS_HI (OD 0x0400.0B, 05_chassis_time_triggers.md). -/
def K.TIME_MSG_PORTS_HI : Nat := 0x4000b
/-- TFENCE_WAIT (OD 0x0400.0C, 05_chassis_time_triggers.md). -/
def K.TFENCE_WAIT : Nat := 0x4000c
/-- CT_LOADS (OD 0x0400.0D, 05_chassis_time_triggers.md). -/
def K.CT_LOADS : Nat := 0x4000d
/-- LOAD_PENDING (OD 0x0400.0E, 05_chassis_time_triggers.md). -/
def K.LOAD_PENDING : Nat := 0x4000e
/-- TIME_MSG_INTERVAL (OD 0x0400.0F, 05_chassis_time_triggers.md). -/
def K.TIME_MSG_INTERVAL : Nat := 0x4000f
/-- TIME_MSG_SKIPPED (OD 0x0400.10, 05_chassis_time_triggers.md). -/
def K.TIME_MSG_SKIPPED : Nat := 0x40010
/-- PS_PORTS_LO (OD 0x0440+.01, 05_chassis_time_triggers.md). -/
def K.PS_PORTS_LO (i : Nat) : Nat := (0x0440 + 1 * i) * 256 + 1
/-- PS_PORTS_HI (OD 0x0440+.02, 05_chassis_time_triggers.md). -/
def K.PS_PORTS_HI (i : Nat) : Nat := (0x0440 + 1 * i) * 256 + 2
/-- PS_HUB (OD 0x0440+.03, 05_chassis_time_triggers.md). -/
def K.PS_HUB (i : Nat) : Nat := (0x0440 + 1 * i) * 256 + 3
/-- FRZ_SHADOW_TARGET (OD 0x2A00+.01, 05_chassis_time_triggers.md). -/
def K.FRZ_SHADOW_TARGET (i : Nat) : Nat := (0x2A00 + 1 * i) * 256 + 1
/-- FRZ_SHADOW_OFFSET (OD 0x2A00+.02, 05_chassis_time_triggers.md). -/
def K.FRZ_SHADOW_OFFSET (i : Nat) : Nat := (0x2A00 + 1 * i) * 256 + 2
/-- FRZ_LINE (OD 0x2A00+.03, 05_chassis_time_triggers.md). -/
def K.FRZ_LINE (i : Nat) : Nat := (0x2A00 + 1 * i) * 256 + 3
/-- FRZ_EDGE (OD 0x2A00+.04, 05_chassis_time_triggers.md). -/
def K.FRZ_EDGE (i : Nat) : Nat := (0x2A00 + 1 * i) * 256 + 4
/-- FRZ_LAG (OD 0x2A00+.05, 05_chassis_time_triggers.md). -/
def K.FRZ_LAG (i : Nat) : Nat := (0x2A00 + 1 * i) * 256 + 5
/-- FRZ_RATE (OD 0x2A00+.06, 05_chassis_time_triggers.md). -/
def K.FRZ_RATE (i : Nat) : Nat := (0x2A00 + 1 * i) * 256 + 6
/-- FRZ_ARM (OD 0x2A00+.07, 05_chassis_time_triggers.md). -/
def K.FRZ_ARM (i : Nat) : Nat := (0x2A00 + 1 * i) * 256 + 7
/-- FRZ_RELEASE (OD 0x2A00+.08, 05_chassis_time_triggers.md). -/
def K.FRZ_RELEASE (i : Nat) : Nat := (0x2A00 + 1 * i) * 256 + 8
/-- FRZ_STATE (OD 0x2A00+.09, 05_chassis_time_triggers.md). -/
def K.FRZ_STATE (i : Nat) : Nat := (0x2A00 + 1 * i) * 256 + 9
/-- FRZ_CT (OD 0x2A00+.0A, 05_chassis_time_triggers.md). -/
def K.FRZ_CT (i : Nat) : Nat := (0x2A00 + 1 * i) * 256 + 10
/-- FRZ_TRIG_CT (OD 0x2A00+.0B, 05_chassis_time_triggers.md). -/
def K.FRZ_TRIG_CT (i : Nat) : Nat := (0x2A00 + 1 * i) * 256 + 11
/-- FRZ_COPIED (OD 0x2A00+.0C, 05_chassis_time_triggers.md). -/
def K.FRZ_COPIED (i : Nat) : Nat := (0x2A00 + 1 * i) * 256 + 12
/-- FRZ_CBW (OD 0x2A00+.0D, 05_chassis_time_triggers.md). -/
def K.FRZ_CBW (i : Nat) : Nat := (0x2A00 + 1 * i) * 256 + 13
/-- FRZ_LATE_OLD (OD 0x2A00+.0E, 05_chassis_time_triggers.md). -/
def K.FRZ_LATE_OLD (i : Nat) : Nat := (0x2A00 + 1 * i) * 256 + 14
/-- FRZ_REFUSAL (OD 0x2A00+.0F, 05_chassis_time_triggers.md). -/
def K.FRZ_REFUSAL (i : Nat) : Nat := (0x2A00 + 1 * i) * 256 + 15
/-- FRZ_COMMIT_REFUSAL (OD 0x2A80.01, 05_chassis_time_triggers.md). -/
def K.FRZ_COMMIT_REFUSAL : Nat := 0x2a8001
/-- OVH (OD 0x2010.01, 06_traffic_classes.md). -/
def K.OVH : Nat := 0x201001
/-- CROWN_WEIGHT (OD 0x2010.02, 06_traffic_classes.md). -/
def K.CROWN_WEIGHT : Nat := 0x201002
/-- SC_WEIGHT (OD 0x2010.03, 06_traffic_classes.md). -/
def K.SC_WEIGHT : Nat := 0x201003
/-- DM_WEIGHT (OD 0x2010.04, 06_traffic_classes.md). -/
def K.DM_WEIGHT : Nat := 0x201004
/-- BRIM_WEIGHT (OD 0x2010.05, 06_traffic_classes.md). -/
def K.BRIM_WEIGHT : Nat := 0x201005
/-- FLOW_OVERFLOWS (OD 0x2010.06, 06_traffic_classes.md). -/
def K.FLOW_OVERFLOWS : Nat := 0x201006
/-- TRAFFIC_REFUSAL (OD 0x2010.07, 06_traffic_classes.md). -/
def K.TRAFFIC_REFUSAL : Nat := 0x201007
/-- CW_COH (OD 0x2200+.01, 06_traffic_classes.md). -/
def K.CW_COH (i : Nat) : Nat := (0x2200 + 1 * i) * 256 + 1
/-- CW_BULK (OD 0x2200+.02, 06_traffic_classes.md). -/
def K.CW_BULK (i : Nat) : Nat := (0x2200 + 1 * i) * 256 + 2
/-- CW_VIEW (OD 0x2200+.03, 06_traffic_classes.md). -/
def K.CW_VIEW (i : Nat) : Nat := (0x2200 + 1 * i) * 256 + 3
/-- FW_COH (OD 0x2200+.04, 06_traffic_classes.md). -/
def K.FW_COH (i : Nat) : Nat := (0x2200 + 1 * i) * 256 + 4
/-- FW_BULK (OD 0x2200+.05, 06_traffic_classes.md). -/
def K.FW_BULK (i : Nat) : Nat := (0x2200 + 1 * i) * 256 + 5
/-- FW_VIEW (OD 0x2200+.06, 06_traffic_classes.md). -/
def K.FW_VIEW (i : Nat) : Nat := (0x2200 + 1 * i) * 256 + 6
/-- POL_ENABLE (OD 0x2200+.07, 06_traffic_classes.md). -/
def K.POL_ENABLE (i : Nat) : Nat := (0x2200 + 1 * i) * 256 + 7
/-- POL_CIR (OD 0x2200+.08, 06_traffic_classes.md). -/
def K.POL_CIR (i : Nat) : Nat := (0x2200 + 1 * i) * 256 + 8
/-- POL_PIR (OD 0x2200+.09, 06_traffic_classes.md). -/
def K.POL_PIR (i : Nat) : Nat := (0x2200 + 1 * i) * 256 + 9
/-- POL_CBS (OD 0x2200+.0A, 06_traffic_classes.md). -/
def K.POL_CBS (i : Nat) : Nat := (0x2200 + 1 * i) * 256 + 10
/-- POL_PBS (OD 0x2200+.0B, 06_traffic_classes.md). -/
def K.POL_PBS (i : Nat) : Nat := (0x2200 + 1 * i) * 256 + 11
/-- GREEN_PKTS (OD 0x2200+.0C, 06_traffic_classes.md). -/
def K.GREEN_PKTS (i : Nat) : Nat := (0x2200 + 1 * i) * 256 + 12
/-- YELLOW_PKTS (OD 0x2200+.0D, 06_traffic_classes.md). -/
def K.YELLOW_PKTS (i : Nat) : Nat := (0x2200 + 1 * i) * 256 + 13
/-- RED_PKTS (OD 0x2200+.0E, 06_traffic_classes.md). -/
def K.RED_PKTS (i : Nat) : Nat := (0x2200 + 1 * i) * 256 + 14
/-- RED_DEMOTED_CELLS (OD 0x2200+.0F, 06_traffic_classes.md). -/
def K.RED_DEMOTED_CELLS (i : Nat) : Nat := (0x2200 + 1 * i) * 256 + 15
/-- RED_VIEW_DROP_PKTS (OD 0x2200+.10, 06_traffic_classes.md). -/
def K.RED_VIEW_DROP_PKTS (i : Nat) : Nat := (0x2200 + 1 * i) * 256 + 16
/-- TX_SYS (OD 0x2200+.11, 06_traffic_classes.md). -/
def K.TX_SYS (i : Nat) : Nat := (0x2200 + 1 * i) * 256 + 17
/-- TX_COH (OD 0x2200+.12, 06_traffic_classes.md). -/
def K.TX_COH (i : Nat) : Nat := (0x2200 + 1 * i) * 256 + 18
/-- TX_BULK (OD 0x2200+.13, 06_traffic_classes.md). -/
def K.TX_BULK (i : Nat) : Nat := (0x2200 + 1 * i) * 256 + 19
/-- TX_VIEW (OD 0x2200+.14, 06_traffic_classes.md). -/
def K.TX_VIEW (i : Nat) : Nat := (0x2200 + 1 * i) * 256 + 20
/-- SHP_PROFILE (OD 0x2280+.01–, 06_traffic_classes.md). -/
def K.SHP_PROFILE (i j : Nat) : Nat := (0x2280 + 1 * i) * 256 + 1 + j
/-- SHP_HOLD_TICKS (OD 0x2280+.41, 06_traffic_classes.md). -/
def K.SHP_HOLD_TICKS (i : Nat) : Nat := (0x2280 + 1 * i) * 256 + 65
/-- SHP_COMMITTED_BYTES (OD 0x2280+.42, 06_traffic_classes.md). -/
def K.SHP_COMMITTED_BYTES (i : Nat) : Nat := (0x2280 + 1 * i) * 256 + 66
/-- SHP_CIR (OD 0x22C0+.01, 06_traffic_classes.md). -/
def K.SHP_CIR (i : Nat) : Nat := (0x22C0 + 1 * i) * 256 + 1
/-- SHP_PIR (OD 0x22C0+.02, 06_traffic_classes.md). -/
def K.SHP_PIR (i : Nat) : Nat := (0x22C0 + 1 * i) * 256 + 2
/-- SHP_CBS (OD 0x22C0+.03, 06_traffic_classes.md). -/
def K.SHP_CBS (i : Nat) : Nat := (0x22C0 + 1 * i) * 256 + 3
/-- SHP_PBS (OD 0x22C0+.04, 06_traffic_classes.md). -/
def K.SHP_PBS (i : Nat) : Nat := (0x22C0 + 1 * i) * 256 + 4
/-- ROLE (OD 0x100C+.01, 07_binding_hotplug.md). -/
def K.ROLE (i : Nat) : Nat := (0x100C + 16 * i) * 256 + 1
/-- AGENT (OD 0x100C+.02, 07_binding_hotplug.md). -/
def K.AGENT (i : Nat) : Nat := (0x100C + 16 * i) * 256 + 2
/-- POOL (OD 0x100C+.03, 07_binding_hotplug.md). -/
def K.POOL (i : Nat) : Nat := (0x100C + 16 * i) * 256 + 3
/-- SLOT (OD 0x100C+.04, 07_binding_hotplug.md). -/
def K.SLOT (i : Nat) : Nat := (0x100C + 16 * i) * 256 + 4
/-- HP_OWNER (OD 0x100C+.05, 07_binding_hotplug.md). -/
def K.HP_OWNER (i : Nat) : Nat := (0x100C + 16 * i) * 256 + 5
/-- HP_ATTN (OD 0x100C+.06, 07_binding_hotplug.md). -/
def K.HP_ATTN (i : Nat) : Nat := (0x100C + 16 * i) * 256 + 6
/-- HP_SURPRISE (OD 0x100C+.07, 07_binding_hotplug.md). -/
def K.HP_SURPRISE (i : Nat) : Nat := (0x100C + 16 * i) * 256 + 7
/-- PERST_DELAY (OD 0x100C+.08, 07_binding_hotplug.md). -/
def K.PERST_DELAY (i : Nat) : Nat := (0x100C + 16 * i) * 256 + 8
/-- PERST_TO_OFF (OD 0x100C+.09, 07_binding_hotplug.md). -/
def K.PERST_TO_OFF (i : Nat) : Nat := (0x100C + 16 * i) * 256 + 9
/-- PRSNT_DEBOUNCE (OD 0x100C+.0A, 07_binding_hotplug.md). -/
def K.PRSNT_DEBOUNCE (i : Nat) : Nat := (0x100C + 16 * i) * 256 + 10
/-- RSP_TIMEOUT (OD 0x100C+.0B, 07_binding_hotplug.md). -/
def K.RSP_TIMEOUT (i : Nat) : Nat := (0x100C + 16 * i) * 256 + 11
/-- PORT_STATE (OD 0x100C+.0C, 07_binding_hotplug.md). -/
def K.PORT_STATE (i : Nat) : Nat := (0x100C + 16 * i) * 256 + 12
/-- AGENT_KIND (OD 0x100C+.0D, 07_binding_hotplug.md). -/
def K.AGENT_KIND (i : Nat) : Nat := (0x100C + 16 * i) * 256 + 13
/-- LD_COUNT (OD 0x100C+.0E, 07_binding_hotplug.md). -/
def K.LD_COUNT (i : Nat) : Nat := (0x100C + 16 * i) * 256 + 14
/-- PORT_SERIAL (OD 0x100C+.0F, 07_binding_hotplug.md). -/
def K.PORT_SERIAL (i : Nat) : Nat := (0x100C + 16 * i) * 256 + 15
/-- PORT_REFUSAL (OD 0x100C+.10, 07_binding_hotplug.md). -/
def K.PORT_REFUSAL (i : Nat) : Nat := (0x100C + 16 * i) * 256 + 16
/-- DECODE_MISSES (OD 0x100C+.11, 07_binding_hotplug.md). -/
def K.DECODE_MISSES (i : Nat) : Nat := (0x100C + 16 * i) * 256 + 17
/-- LOST_WRITES (OD 0x100C+.12, 07_binding_hotplug.md). -/
def K.LOST_WRITES (i : Nat) : Nat := (0x100C + 16 * i) * 256 + 18
/-- POISONED_READS (OD 0x100C+.13, 07_binding_hotplug.md). -/
def K.POISONED_READS (i : Nat) : Nat := (0x100C + 16 * i) * 256 + 19
/-- INDICATORS (OD 0x100C+.14, 07_binding_hotplug.md). -/
def K.INDICATORS (i : Nat) : Nat := (0x100C + 16 * i) * 256 + 20
/-- VCS_STATE (OD 0x2380+.01, 07_binding_hotplug.md). -/
def K.VCS_STATE (i : Nat) : Nat := (0x2380 + 1 * i) * 256 + 1
/-- HOST_PORTS (OD 0x2380+.02, 07_binding_hotplug.md). -/
def K.HOST_PORTS (i : Nat) : Nat := (0x2380 + 1 * i) * 256 + 2
/-- HOST_DOWN_RESET (OD 0x2380+.03, 07_binding_hotplug.md). -/
def K.HOST_DOWN_RESET (i : Nat) : Nat := (0x2380 + 1 * i) * 256 + 3
/-- PEER_HDM (OD 0x2380+.04, 07_binding_hotplug.md). -/
def K.PEER_HDM (i : Nat) : Nat := (0x2380 + 1 * i) * 256 + 4
/-- CACHE_DEVICES (OD 0x2380+.05, 07_binding_hotplug.md). -/
def K.CACHE_DEVICES (i : Nat) : Nat := (0x2380 + 1 * i) * 256 + 5
/-- DEC_COMMITTED (OD 0x2380+.06, 07_binding_hotplug.md). -/
def K.DEC_COMMITTED (i : Nat) : Nat := (0x2380 + 1 * i) * 256 + 6
/-- CAP_EXTENTS (OD 0x2380+.07, 07_binding_hotplug.md). -/
def K.CAP_EXTENTS (i : Nat) : Nat := (0x2380 + 1 * i) * 256 + 7
/-- VPPB_BINDING (OD 0x2380+.20–, 07_binding_hotplug.md). -/
def K.VPPB_BINDING (i j : Nat) : Nat := (0x2380 + 1 * i) * 256 + 32 + j
/-- BIND_CMD (OD 0x23C0.01, 07_binding_hotplug.md). -/
def K.BIND_CMD : Nat := 0x23c001
/-- BIND_STATE (OD 0x23C0.02, 07_binding_hotplug.md). -/
def K.BIND_STATE : Nat := 0x23c002
/-- BIND_RESULT (OD 0x23C0.03, 07_binding_hotplug.md). -/
def K.BIND_RESULT : Nat := 0x23c003
/-- BIND_TAG (OD 0x23C0.04, 07_binding_hotplug.md). -/
def K.BIND_TAG : Nat := 0x23c004
/-- UNBIND_TIMEOUT (OD 0x23C0.05, 07_binding_hotplug.md). -/
def K.UNBIND_TIMEOUT : Nat := 0x23c005
/-- EXTENT_CMD (OD 0x23C0.06, 07_binding_hotplug.md). -/
def K.EXTENT_CMD : Nat := 0x23c006
/-- EXTENT_STATE (OD 0x23C0.07, 07_binding_hotplug.md). -/
def K.EXTENT_STATE : Nat := 0x23c007
/-- EXTENT_RESULT (OD 0x23C0.08, 07_binding_hotplug.md). -/
def K.EXTENT_RESULT : Nat := 0x23c008
/-- EXTENT_TAG (OD 0x23C0.09, 07_binding_hotplug.md). -/
def K.EXTENT_TAG : Nat := 0x23c009
/-- EXTENT_TIMEOUT (OD 0x23C0.0A, 07_binding_hotplug.md). -/
def K.EXTENT_TIMEOUT : Nat := 0x23c00a
/-- EXTENTS_FREE (OD 0x23C0.0B, 07_binding_hotplug.md). -/
def K.EXTENTS_FREE : Nat := 0x23c00b
/-- PORT_WIDTH (OD 0x1000+.01, 08_ports_lanes.md). -/
def K.PORT_WIDTH (i : Nat) : Nat := (0x1000 + 16 * i) * 256 + 1
/-- RATE_MAX (OD 0x1000+.02, 08_ports_lanes.md). -/
def K.RATE_MAX (i : Nat) : Nat := (0x1000 + 16 * i) * 256 + 2
/-- FLIT_MODE (OD 0x1000+.03, 08_ports_lanes.md). -/
def K.FLIT_MODE (i : Nat) : Nat := (0x1000 + 16 * i) * 256 + 3
/-- CXL_ENABLE (OD 0x1000+.04, 08_ports_lanes.md). -/
def K.CXL_ENABLE (i : Nat) : Nat := (0x1000 + 16 * i) * 256 + 4
/-- CLOCK_MODE (OD 0x1000+.05, 08_ports_lanes.md). -/
def K.CLOCK_MODE (i : Nat) : Nat := (0x1000 + 16 * i) * 256 + 5
/-- EQ_BYPASS (OD 0x1000+.06, 08_ports_lanes.md). -/
def K.EQ_BYPASS (i : Nat) : Nat := (0x1000 + 16 * i) * 256 + 6
/-- EQ_PRESETS (OD 0x1000+.07, 08_ports_lanes.md). -/
def K.EQ_PRESETS (i : Nat) : Nat := (0x1000 + 16 * i) * 256 + 7
/-- L1_ALLOW (OD 0x1000+.08, 08_ports_lanes.md). -/
def K.L1_ALLOW (i : Nat) : Nat := (0x1000 + 16 * i) * 256 + 8
/-- L0P_ALLOW (OD 0x1000+.09, 08_ports_lanes.md). -/
def K.L0P_ALLOW (i : Nat) : Nat := (0x1000 + 16 * i) * 256 + 9
/-- LINK_IDE (OD 0x1000+.0A, 08_ports_lanes.md). -/
def K.LINK_IDE (i : Nat) : Nat := (0x1000 + 16 * i) * 256 + 10
/-- CXL_IDE_MODE (OD 0x1000+.0B, 08_ports_lanes.md). -/
def K.CXL_IDE_MODE (i : Nat) : Nat := (0x1000 + 16 * i) * 256 + 11
/-- LANE_IDLE (OD 0x1000+.0C, 08_ports_lanes.md). -/
def K.LANE_IDLE (i : Nat) : Nat := (0x1000 + 16 * i) * 256 + 12
/-- LINK_ENABLE (OD 0x1000+.0D, 08_ports_lanes.md). -/
def K.LINK_ENABLE (i : Nat) : Nat := (0x1000 + 16 * i) * 256 + 13
/-- LINK_RETRAIN (OD 0x1000+.0E, 08_ports_lanes.md). -/
def K.LINK_RETRAIN (i : Nat) : Nat := (0x1000 + 16 * i) * 256 + 14
/-- GANG_REFUSAL (OD 0x1000+.0F, 08_ports_lanes.md). -/
def K.GANG_REFUSAL (i : Nat) : Nat := (0x1000 + 16 * i) * 256 + 15
/-- LINK_UP (OD 0x1001+.01, 08_ports_lanes.md). -/
def K.LINK_UP (i : Nat) : Nat := (0x1001 + 16 * i) * 256 + 1
/-- LINK_WIDTH (OD 0x1001+.02, 08_ports_lanes.md). -/
def K.LINK_WIDTH (i : Nat) : Nat := (0x1001 + 16 * i) * 256 + 2
/-- LINK_RATE (OD 0x1001+.03, 08_ports_lanes.md). -/
def K.LINK_RATE (i : Nat) : Nat := (0x1001 + 16 * i) * 256 + 3
/-- FLIT_ACTIVE (OD 0x1001+.04, 08_ports_lanes.md). -/
def K.FLIT_ACTIVE (i : Nat) : Nat := (0x1001 + 16 * i) * 256 + 4
/-- PROTOCOL (OD 0x1001+.05, 08_ports_lanes.md). -/
def K.PROTOCOL (i : Nat) : Nat := (0x1001 + 16 * i) * 256 + 5
/-- DEGRADED (OD 0x1001+.06, 08_ports_lanes.md). -/
def K.DEGRADED (i : Nat) : Nat := (0x1001 + 16 * i) * 256 + 6
/-- LTSSM_STATE (OD 0x1001+.07, 08_ports_lanes.md). -/
def K.LTSSM_STATE (i : Nat) : Nat := (0x1001 + 16 * i) * 256 + 7
/-- TRAIN_TIME (OD 0x1001+.08, 08_ports_lanes.md). -/
def K.TRAIN_TIME (i : Nat) : Nat := (0x1001 + 16 * i) * 256 + 8
/-- RECOVERIES (OD 0x1001+.09, 08_ports_lanes.md). -/
def K.RECOVERIES (i : Nat) : Nat := (0x1001 + 16 * i) * 256 + 9
/-- FEC_CORRECTED (OD 0x1001+.0A, 08_ports_lanes.md). -/
def K.FEC_CORRECTED (i : Nat) : Nat := (0x1001 + 16 * i) * 256 + 10
/-- FLITS_UNCORRECTABLE (OD 0x1001+.0B, 08_ports_lanes.md). -/
def K.FLITS_UNCORRECTABLE (i : Nat) : Nat := (0x1001 + 16 * i) * 256 + 11
/-- REPLAYS (OD 0x1001+.0C, 08_ports_lanes.md). -/
def K.REPLAYS (i : Nat) : Nat := (0x1001 + 16 * i) * 256 + 12
/-- LINK_DOWNS (OD 0x1001+.0D, 08_ports_lanes.md). -/
def K.LINK_DOWNS (i : Nat) : Nat := (0x1001 + 16 * i) * 256 + 13
/-- LANE_STATUS (OD 0x1001+.10–, 08_ports_lanes.md). -/
def K.LANE_STATUS (i j : Nat) : Nat := (0x1001 + 16 * i) * 256 + 16 + j
/-- EYE_CMD (OD 0x1002+.01, 08_ports_lanes.md). -/
def K.EYE_CMD (i : Nat) : Nat := (0x1002 + 16 * i) * 256 + 1
/-- EYE_STATE (OD 0x1002+.02, 08_ports_lanes.md). -/
def K.EYE_STATE (i : Nat) : Nat := (0x1002 + 16 * i) * 256 + 2
/-- EYE_RESULT (OD 0x1002+.03, 08_ports_lanes.md). -/
def K.EYE_RESULT (i : Nat) : Nat := (0x1002 + 16 * i) * 256 + 3
/-- EYE_RECORD (OD 0x1002+.04, 08_ports_lanes.md). -/
def K.EYE_RECORD (i : Nat) : Nat := (0x1002 + 16 * i) * 256 + 4
/-- ISOLATE (OD 0x1810+.01, 09_seam_links.md). -/
def K.ISOLATE (i : Nat) : Nat := (0x1810 + 1 * i) * 256 + 1
/-- HEALTHY (OD 0x1810+.02, 09_seam_links.md). -/
def K.HEALTHY (i : Nat) : Nat := (0x1810 + 1 * i) * 256 + 2
/-- RETRAIN_NOW (OD 0x1810+.03, 09_seam_links.md). -/
def K.RETRAIN_NOW (i : Nat) : Nat := (0x1810 + 1 * i) * 256 + 3
/-- RETRAINS (OD 0x1810+.04, 09_seam_links.md). -/
def K.RETRAINS (i : Nat) : Nat := (0x1810 + 1 * i) * 256 + 4
/-- LEAK_RETRAINS (OD 0x1810+.05, 09_seam_links.md). -/
def K.LEAK_RETRAINS (i : Nat) : Nat := (0x1810 + 1 * i) * 256 + 5
/-- SHORTFALL_UP (OD 0x1810+.06, 09_seam_links.md). -/
def K.SHORTFALL_UP (i : Nat) : Nat := (0x1810 + 1 * i) * 256 + 6
/-- SHORTFALL_DN (OD 0x1810+.07, 09_seam_links.md). -/
def K.SHORTFALL_DN (i : Nat) : Nat := (0x1810 + 1 * i) * 256 + 7
/-- UNITS_REPLAYED (OD 0x1810+.08, 09_seam_links.md). -/
def K.UNITS_REPLAYED (i : Nat) : Nat := (0x1810 + 1 * i) * 256 + 8
/-- CRC_ERRORS (OD 0x1810+.09, 09_seam_links.md). -/
def K.CRC_ERRORS (i : Nat) : Nat := (0x1810 + 1 * i) * 256 + 9
/-- DUP_DISCARDS (OD 0x1810+.0A, 09_seam_links.md). -/
def K.DUP_DISCARDS (i : Nat) : Nat := (0x1810 + 1 * i) * 256 + 10
/-- HOLD_TICKS (OD 0x1810+.0B, 09_seam_links.md). -/
def K.HOLD_TICKS (i : Nat) : Nat := (0x1810 + 1 * i) * 256 + 11
/-- REORDER_HIGH_WATER (OD 0x1810+.0C, 09_seam_links.md). -/
def K.REORDER_HIGH_WATER (i : Nat) : Nat := (0x1810 + 1 * i) * 256 + 12
/-- CYCLE_STEP (OD 0x1810+.0D, 09_seam_links.md). -/
def K.CYCLE_STEP (i : Nat) : Nat := (0x1810 + 1 * i) * 256 + 13
/-- STRAND_STATUS (OD 0x1810+.10–, 09_seam_links.md). -/
def K.STRAND_STATUS (i j : Nat) : Nat := (0x1810 + 1 * i) * 256 + 16 + j
/-- SLICE_CMD (OD 0x3000.01, 10_data_movers.md). -/
def K.SLICE_CMD : Nat := 0x300001
/-- SLICE_STATE (OD 0x3000.02, 10_data_movers.md). -/
def K.SLICE_STATE : Nat := 0x300002
/-- SLICE_RESULT (OD 0x3000.03, 10_data_movers.md). -/
def K.SLICE_RESULT : Nat := 0x300003
/-- SLICE_TAG (OD 0x3000.04, 10_data_movers.md). -/
def K.SLICE_TAG : Nat := 0x300004
/-- SLICES_IN_USE (OD 0x3000.05, 10_data_movers.md). -/
def K.SLICES_IN_USE : Nat := 0x300005
/-- DESC_ENTRIES_FREE (OD 0x3000.06, 10_data_movers.md). -/
def K.DESC_ENTRIES_FREE : Nat := 0x300006
/-- QUEUES_FREE (OD 0x3000.07, 10_data_movers.md). -/
def K.QUEUES_FREE : Nat := 0x300007
/-- EVAC_CMD (OD 0x3000.08, 10_data_movers.md). -/
def K.EVAC_CMD : Nat := 0x300008
/-- EVAC_STATE (OD 0x3000.09, 10_data_movers.md). -/
def K.EVAC_STATE : Nat := 0x300009
/-- EVAC_RESULT (OD 0x3000.0A, 10_data_movers.md). -/
def K.EVAC_RESULT : Nat := 0x30000a
/-- EVAC_DONE_EXTENTS (OD 0x3000.0B, 10_data_movers.md). -/
def K.EVAC_DONE_EXTENTS : Nat := 0x30000b
/-- EVAC_TAG (OD 0x3000.0C, 10_data_movers.md). -/
def K.EVAC_TAG : Nat := 0x30000c
/-- SLICE_SEL (OD 0x3000.10, 10_data_movers.md). -/
def K.SLICE_SEL : Nat := 0x300010
/-- SEL_STATE (OD 0x3000.11, 10_data_movers.md). -/
def K.SEL_STATE : Nat := 0x300011
/-- SEL_OWNER (OD 0x3000.12, 10_data_movers.md). -/
def K.SEL_OWNER : Nat := 0x300012
/-- SEL_PENDING (OD 0x3000.13, 10_data_movers.md). -/
def K.SEL_PENDING : Nat := 0x300013
/-- SEL_BYTES (OD 0x3000.14, 10_data_movers.md). -/
def K.SEL_BYTES : Nat := 0x300014
/-- SEL_FAULTS (OD 0x3000.15, 10_data_movers.md). -/
def K.SEL_FAULTS : Nat := 0x300015
/-- PORTAL_DISCARDS (OD 0x3000.16, 10_data_movers.md). -/
def K.PORTAL_DISCARDS : Nat := 0x300016
/-- RING_GAP_BYTES (OD 0x3000.17, 10_data_movers.md). -/
def K.RING_GAP_BYTES : Nat := 0x300017
/-- ENG_BYTES (OD 0x3010+.01, 10_data_movers.md). -/
def K.ENG_BYTES (i : Nat) : Nat := (0x3010 + 1 * i) * 256 + 1
/-- ENG_SLICES (OD 0x3010+.02, 10_data_movers.md). -/
def K.ENG_SLICES (i : Nat) : Nat := (0x3010 + 1 * i) * 256 + 2
/-- ENG_RINGS (OD 0x3010+.03, 10_data_movers.md). -/
def K.ENG_RINGS (i : Nat) : Nat := (0x3010 + 1 * i) * 256 + 3
/-- ENG_READS_HIGH_WATER (OD 0x3010+.04, 10_data_movers.md). -/
def K.ENG_READS_HIGH_WATER (i : Nat) : Nat := (0x3010 + 1 * i) * 256 + 4
/-- ENG_PREEMPTS (OD 0x3010+.05, 10_data_movers.md). -/
def K.ENG_PREEMPTS (i : Nat) : Nat := (0x3010 + 1 * i) * 256 + 5
/-- ENG_FAULTS (OD 0x3010+.06, 10_data_movers.md). -/
def K.ENG_FAULTS (i : Nat) : Nat := (0x3010 + 1 * i) * 256 + 6
/-- GUARD_EPOCH (OD 0x3800.01, 11_access_guards.md). -/
def K.GUARD_EPOCH : Nat := 0x380001
/-- FM_HOST (OD 0x3800.02, 11_access_guards.md). -/
def K.FM_HOST : Nat := 0x380002
/-- GUARD_PUBLISH (OD 0x3800.03, 11_access_guards.md). -/
def K.GUARD_PUBLISH : Nat := 0x380003
/-- PUBLISH_STATE (OD 0x3800.04, 11_access_guards.md). -/
def K.PUBLISH_STATE : Nat := 0x380004
/-- PUBLISH_REFUSAL (OD 0x3800.05, 11_access_guards.md). -/
def K.PUBLISH_REFUSAL : Nat := 0x380005
/-- GUARD_SYNC (OD 0x3800.06, 11_access_guards.md). -/
def K.GUARD_SYNC : Nat := 0x380006
/-- SYNC_STATE (OD 0x3800.07, 11_access_guards.md). -/
def K.SYNC_STATE : Nat := 0x380007
/-- SYNC_EPOCH (OD 0x3800.08, 11_access_guards.md). -/
def K.SYNC_EPOCH : Nat := 0x380008
/-- SYNC_TIMEOUT (OD 0x3800.09, 11_access_guards.md). -/
def K.SYNC_TIMEOUT : Nat := 0x380009
/-- OLDER_ACCESSES (OD 0x3800.0A, 11_access_guards.md). -/
def K.OLDER_ACCESSES : Nat := 0x38000a
/-- TAG_CMD (OD 0x3800.10, 11_access_guards.md). -/
def K.TAG_CMD : Nat := 0x380010
/-- TAG_CMD_STATE (OD 0x3800.11, 11_access_guards.md). -/
def K.TAG_CMD_STATE : Nat := 0x380011
/-- TAG_RESULT (OD 0x3800.12, 11_access_guards.md). -/
def K.TAG_RESULT : Nat := 0x380012
/-- TAG_CMD_TAG (OD 0x3800.13, 11_access_guards.md). -/
def K.TAG_CMD_TAG : Nat := 0x380013
/-- TAGCACHE_MISSES (OD 0x3800.14, 11_access_guards.md). -/
def K.TAGCACHE_MISSES : Nat := 0x380014
/-- TAG_LOST_GRANULES (OD 0x3800.15, 11_access_guards.md). -/
def K.TAG_LOST_GRANULES : Nat := 0x380015
/-- SLICE_RGN_CMD (OD 0x3800.20, 11_access_guards.md). -/
def K.SLICE_RGN_CMD : Nat := 0x380020
/-- RGN_RESULT (OD 0x3800.21, 11_access_guards.md). -/
def K.RGN_RESULT : Nat := 0x380021
/-- REGION (OD 0x3810+.01–, 11_access_guards.md). -/
def K.REGION (i j : Nat) : Nat := (0x3810 + 1 * i) * 256 + 1 + j
/-- GUARD_ENABLE (OD 0x3810+.11, 11_access_guards.md). -/
def K.GUARD_ENABLE (i : Nat) : Nat := (0x3810 + 1 * i) * 256 + 17
/-- GUARD_FAULTS (OD 0x100D+.01, 11_access_guards.md). -/
def K.GUARD_FAULTS (i : Nat) : Nat := (0x100D + 16 * i) * 256 + 1
/-- TAG_FAULTS (OD 0x100D+.02, 11_access_guards.md). -/
def K.TAG_FAULTS (i : Nat) : Nat := (0x100D + 16 * i) * 256 + 2
/-- TAG_WAITS (OD 0x100D+.03, 11_access_guards.md). -/
def K.TAG_WAITS (i : Nat) : Nat := (0x100D + 16 * i) * 256 + 3
/-- TAG_ENABLE (OD 0x3880+.01, 11_access_guards.md). -/
def K.TAG_ENABLE (i : Nat) : Nat := (0x3880 + 1 * i) * 256 + 1
/-- TAG_OFFSET (OD 0x3880+.02, 11_access_guards.md). -/
def K.TAG_OFFSET (i : Nat) : Nat := (0x3880 + 1 * i) * 256 + 2
/-- TAG_STATE (OD 0x3880+.03, 11_access_guards.md). -/
def K.TAG_STATE (i : Nat) : Nat := (0x3880 + 1 * i) * 256 + 3
/-- VBUS_A_MV (OD 0x5000.01, 12_slot_power.md). -/
def K.VBUS_A_MV : Nat := 0x500001
/-- VBUS_B_MV (OD 0x5000.02, 12_slot_power.md). -/
def K.VBUS_B_MV : Nat := 0x500002
/-- VBUS_WARN_LEVEL (OD 0x5000.03, 12_slot_power.md). -/
def K.VBUS_WARN_LEVEL : Nat := 0x500003
/-- GPF_ENABLE (OD 0x5000.04, 12_slot_power.md). -/
def K.GPF_ENABLE : Nat := 0x500004
/-- GPF_HOST_WAIT (OD 0x5000.05, 12_slot_power.md). -/
def K.GPF_HOST_WAIT : Nat := 0x500005
/-- WARN_STATE (OD 0x5000.06, 12_slot_power.md). -/
def K.WARN_STATE : Nat := 0x500006
/-- POWER_WARNINGS (OD 0x5000.07, 12_slot_power.md). -/
def K.POWER_WARNINGS : Nat := 0x500007
/-- FEED_A_MV (OD 0x5000.08, 12_slot_power.md). -/
def K.FEED_A_MV : Nat := 0x500008
/-- FEED_B_MV (OD 0x5000.09, 12_slot_power.md). -/
def K.FEED_B_MV : Nat := 0x500009
/-- VBUS_ORING (OD 0x5000.0A, 12_slot_power.md). -/
def K.VBUS_ORING : Nat := 0x50000a
/-- HK_MW (OD 0x5000.0B, 12_slot_power.md). -/
def K.HK_MW : Nat := 0x50000b
/-- SLOT_REFUSAL (OD 0x5000.0C, 12_slot_power.md). -/
def K.SLOT_REFUSAL : Nat := 0x50000c
/-- RAIL_RETRY_MAX (OD 0x5001.01, 12_slot_power.md). -/
def K.RAIL_RETRY_MAX : Nat := 0x500101
/-- RAIL_RESTART (OD 0x5001.02, 12_slot_power.md). -/
def K.RAIL_RESTART : Nat := 0x500102
/-- RAIL_SEQ_STATE (OD 0x5001.03, 12_slot_power.md). -/
def K.RAIL_SEQ_STATE : Nat := 0x500103
/-- RAIL_ADDR (OD 0x5002+.01, 12_slot_power.md). -/
def K.RAIL_ADDR (i : Nat) : Nat := (0x5002 + 1 * i) * 256 + 1
/-- RAIL_TRIM_MV (OD 0x5002+.02, 12_slot_power.md). -/
def K.RAIL_TRIM_MV (i : Nat) : Nat := (0x5002 + 1 * i) * 256 + 2
/-- RAIL_STATE (OD 0x5002+.03, 12_slot_power.md). -/
def K.RAIL_STATE (i : Nat) : Nat := (0x5002 + 1 * i) * 256 + 3
/-- RAIL_VOUT_MV (OD 0x5002+.04, 12_slot_power.md). -/
def K.RAIL_VOUT_MV (i : Nat) : Nat := (0x5002 + 1 * i) * 256 + 4
/-- RAIL_IOUT_MA (OD 0x5002+.05, 12_slot_power.md). -/
def K.RAIL_IOUT_MA (i : Nat) : Nat := (0x5002 + 1 * i) * 256 + 5
/-- RAIL_TEMP_MC (OD 0x5002+.06, 12_slot_power.md). -/
def K.RAIL_TEMP_MC (i : Nat) : Nat := (0x5002 + 1 * i) * 256 + 6
/-- RAIL_FAULTS (OD 0x5002+.07, 12_slot_power.md). -/
def K.RAIL_FAULTS (i : Nat) : Nat := (0x5002 + 1 * i) * 256 + 7
/-- RAIL_STATUS (OD 0x5002+.08, 12_slot_power.md). -/
def K.RAIL_STATUS (i : Nat) : Nat := (0x5002 + 1 * i) * 256 + 8
/-- SLOT_CMD (OD 0x5010+.01, 12_slot_power.md). -/
def K.SLOT_CMD (i : Nat) : Nat := (0x5010 + 1 * i) * 256 + 1
/-- SLOT_STATE (OD 0x5010+.02, 12_slot_power.md). -/
def K.SLOT_STATE (i : Nat) : Nat := (0x5010 + 1 * i) * 256 + 2
/-- LIMIT_MA (OD 0x5010+.03, 12_slot_power.md). -/
def K.LIMIT_MA (i : Nat) : Nat := (0x5010 + 1 * i) * 256 + 3
/-- SHUNT_UOHM (OD 0x5010+.04, 12_slot_power.md). -/
def K.SHUNT_UOHM (i : Nat) : Nat := (0x5010 + 1 * i) * 256 + 4
/-- RAMP_RATE (OD 0x5010+.05, 12_slot_power.md). -/
def K.RAMP_RATE (i : Nat) : Nat := (0x5010 + 1 * i) * 256 + 5
/-- RAMP_TIMEOUT (OD 0x5010+.06, 12_slot_power.md). -/
def K.RAMP_TIMEOUT (i : Nat) : Nat := (0x5010 + 1 * i) * 256 + 6
/-- FAULT_TIME (OD 0x5010+.07, 12_slot_power.md). -/
def K.FAULT_TIME (i : Nat) : Nat := (0x5010 + 1 * i) * 256 + 7
/-- WARN_LEVEL (OD 0x5010+.08, 12_slot_power.md). -/
def K.WARN_LEVEL (i : Nat) : Nat := (0x5010 + 1 * i) * 256 + 8
/-- UV_OFF (OD 0x5010+.09, 12_slot_power.md). -/
def K.UV_OFF (i : Nat) : Nat := (0x5010 + 1 * i) * 256 + 9
/-- DSCHG_TIME (OD 0x5010+.0A, 12_slot_power.md). -/
def K.DSCHG_TIME (i : Nat) : Nat := (0x5010 + 1 * i) * 256 + 10
/-- PRSNT_IGNORE (OD 0x5010+.0B, 12_slot_power.md). -/
def K.PRSNT_IGNORE (i : Nat) : Nat := (0x5010 + 1 * i) * 256 + 11
/-- GPF_ON_WARN (OD 0x5010+.0C, 12_slot_power.md). -/
def K.GPF_ON_WARN (i : Nat) : Nat := (0x5010 + 1 * i) * 256 + 12
/-- SLOT_PWR_LIMIT_W (OD 0x5010+.0D, 12_slot_power.md). -/
def K.SLOT_PWR_LIMIT_W (i : Nat) : Nat := (0x5010 + 1 * i) * 256 + 13
/-- FORCE_OFF (OD 0x5010+.0E, 12_slot_power.md). -/
def K.FORCE_OFF (i : Nat) : Nat := (0x5010 + 1 * i) * 256 + 14
/-- CHAN_RESET (OD 0x5010+.0F, 12_slot_power.md). -/
def K.CHAN_RESET (i : Nat) : Nat := (0x5010 + 1 * i) * 256 + 15
/-- LOCKOUT_CLEAR (OD 0x5010+.10, 12_slot_power.md). -/
def K.LOCKOUT_CLEAR (i : Nat) : Nat := (0x5010 + 1 * i) * 256 + 16
/-- AUTO_ON (OD 0x5010+.11, 12_slot_power.md). -/
def K.AUTO_ON (i : Nat) : Nat := (0x5010 + 1 * i) * 256 + 17
/-- V_OUT_MV (OD 0x5010+.12, 12_slot_power.md). -/
def K.V_OUT_MV (i : Nat) : Nat := (0x5010 + 1 * i) * 256 + 18
/-- V_NODE_MV (OD 0x5010+.13, 12_slot_power.md). -/
def K.V_NODE_MV (i : Nat) : Nat := (0x5010 + 1 * i) * 256 + 19
/-- I_OUT_MA (OD 0x5010+.14, 12_slot_power.md). -/
def K.I_OUT_MA (i : Nat) : Nat := (0x5010 + 1 * i) * 256 + 20
/-- SLOT_FLAGS (OD 0x5010+.15, 12_slot_power.md). -/
def K.SLOT_FLAGS (i : Nat) : Nat := (0x5010 + 1 * i) * 256 + 21
/-- LAST_CAUSE (OD 0x5010+.16, 12_slot_power.md). -/
def K.LAST_CAUSE (i : Nat) : Nat := (0x5010 + 1 * i) * 256 + 22
/-- TRIPS (OD 0x5010+.17, 12_slot_power.md). -/
def K.TRIPS (i : Nat) : Nat := (0x5010 + 1 * i) * 256 + 23
/-- SWITCHOVERS (OD 0x5010+.18, 12_slot_power.md). -/
def K.SWITCHOVERS (i : Nat) : Nat := (0x5010 + 1 * i) * 256 + 24
/-- CMD_REFUSAL (OD 0x5010+.19, 12_slot_power.md). -/
def K.CMD_REFUSAL (i : Nat) : Nat := (0x5010 + 1 * i) * 256 + 25
/-- EVT_STATUS (OD 0x4000+.01, 13_events_faults.md). -/
def K.EVT_STATUS (i : Nat) : Nat := (0x4000 + 1 * i) * 256 + 1
/-- EVT_ACK (OD 0x4000+.02, 13_events_faults.md). -/
def K.EVT_ACK (i : Nat) : Nat := (0x4000 + 1 * i) * 256 + 2
/-- EVT_CLEAR (OD 0x4000+.03, 13_events_faults.md). -/
def K.EVT_CLEAR (i : Nat) : Nat := (0x4000 + 1 * i) * 256 + 3
/-- EVT_COUNT (OD 0x4000+.04, 13_events_faults.md). -/
def K.EVT_COUNT (i : Nat) : Nat := (0x4000 + 1 * i) * 256 + 4
/-- EVT_RECORD (OD 0x4000+.05, 13_events_faults.md). -/
def K.EVT_RECORD (i : Nat) : Nat := (0x4000 + 1 * i) * 256 + 5
/-- EVT_ROUTE (OD 0x4000+.06, 13_events_faults.md). -/
def K.EVT_ROUTE (i : Nat) : Nat := (0x4000 + 1 * i) * 256 + 6
/-- ESC_TICKS (OD 0x4000+.07, 13_events_faults.md). -/
def K.ESC_TICKS (i : Nat) : Nat := (0x4000 + 1 * i) * 256 + 7
/-- ESC_CEIL (OD 0x4000+.08, 13_events_faults.md). -/
def K.ESC_CEIL (i : Nat) : Nat := (0x4000 + 1 * i) * 256 + 8
/-- EVT_INJ (OD 0x4000+.09, 13_events_faults.md). -/
def K.EVT_INJ (i : Nat) : Nat := (0x4000 + 1 * i) * 256 + 9
/-- EMCY_DROPPED (OD 0x424C.10, 13_events_faults.md). -/
def K.EMCY_DROPPED : Nat := 0x424c10
/-- SAFE_STATE (OD 0x424D.10, 13_events_faults.md). -/
def K.SAFE_STATE : Nat := 0x424d10
/-- SAFE_EXIT (OD 0x424D.11, 13_events_faults.md). -/
def K.SAFE_EXIT : Nat := 0x424d11
/-- HUB_FATAL_ACTION (OD 0x424D.12, 13_events_faults.md). -/
def K.HUB_FATAL_ACTION : Nat := 0x424d12
/-- FATAL_RESTART_MAX (OD 0x424D.13, 13_events_faults.md). -/
def K.FATAL_RESTART_MAX : Nat := 0x424d13
/-- VENDOR (OD 0x0100.01, 14_management.md). -/
def K.VENDOR : Nat := 0x10001
/-- PRODUCT (OD 0x0100.02, 14_management.md). -/
def K.PRODUCT : Nat := 0x10002
/-- SERIAL (OD 0x0100.03, 14_management.md). -/
def K.SERIAL : Nat := 0x10003
/-- PCI_VENDOR (OD 0x0100.04, 14_management.md). -/
def K.PCI_VENDOR : Nat := 0x10004
/-- PCI_DEVICE (OD 0x0100.05, 14_management.md). -/
def K.PCI_DEVICE : Nat := 0x10005
/-- STEPPING (OD 0x0100.06, 14_management.md). -/
def K.STEPPING : Nat := 0x10006
/-- UPTIME (OD 0x0100.07, 14_management.md). -/
def K.UPTIME : Nat := 0x10007
/-- FEAT_DEVICE (OD 0x0101.01, 14_management.md). -/
def K.FEAT_DEVICE : Nat := 0x10101
/-- FEAT_REQUEST (OD 0x0101.02, 14_management.md). -/
def K.FEAT_REQUEST : Nat := 0x10102
/-- FEAT_SESSION (OD 0x0101.03, 14_management.md). -/
def K.FEAT_SESSION : Nat := 0x10103
/-- SESSION_ROLE (OD 0x0102.01, 14_management.md). -/
def K.SESSION_ROLE : Nat := 0x10201
/-- SESSION_ID (OD 0x0102.02, 14_management.md). -/
def K.SESSION_ID : Nat := 0x10202
/-- SESSIONS_OPEN (OD 0x0102.03, 14_management.md). -/
def K.SESSIONS_OPEN : Nat := 0x10203
/-- SESSION_IDLE (OD 0x0102.04, 14_management.md). -/
def K.SESSION_IDLE : Nat := 0x10204
/-- DRAFT_VIEW (OD 0x0102.05, 14_management.md). -/
def K.DRAFT_VIEW : Nat := 0x10205
/-- NODE_ADDR (OD 0x0110.01, 14_management.md). -/
def K.NODE_ADDR : Nat := 0x11001
/-- ADDR_MODE (OD 0x0110.02, 14_management.md). -/
def K.ADDR_MODE : Nat := 0x11002
/-- GA_PINS (OD 0x0110.03, 14_management.md). -/
def K.GA_PINS : Nat := 0x11003
/-- CAN_STATE (OD 0x0110.04, 14_management.md). -/
def K.CAN_STATE : Nat := 0x11004
/-- TEC (OD 0x0110.05, 14_management.md). -/
def K.TEC : Nat := 0x11005
/-- REC (OD 0x0110.06, 14_management.md). -/
def K.REC : Nat := 0x11006
/-- BUS_OFFS (OD 0x0110.07, 14_management.md). -/
def K.BUS_OFFS : Nat := 0x11007
/-- FRAMES_RX (OD 0x0110.08, 14_management.md). -/
def K.FRAMES_RX : Nat := 0x11008
/-- FRAMES_TX (OD 0x0110.09, 14_management.md). -/
def K.FRAMES_TX : Nat := 0x11009
/-- ABORTS_SENT (OD 0x0110.0A, 14_management.md). -/
def K.ABORTS_SENT : Nat := 0x1100a
/-- NTF_OBJECT (OD 0x0120+.01, 14_management.md). -/
def K.NTF_OBJECT (i : Nat) : Nat := (0x0120 + 1 * i) * 256 + 1
/-- NTF_DEST (OD 0x0120+.02, 14_management.md). -/
def K.NTF_DEST (i : Nat) : Nat := (0x0120 + 1 * i) * 256 + 2
/-- NTF_PERIOD (OD 0x0120+.03, 14_management.md). -/
def K.NTF_PERIOD (i : Nat) : Nat := (0x0120 + 1 * i) * 256 + 3
/-- NTF_ON_CHANGE (OD 0x0120+.04, 14_management.md). -/
def K.NTF_ON_CHANGE (i : Nat) : Nat := (0x0120 + 1 * i) * 256 + 4
/-- GEN_ACTIVE (OD 0x0300.01, 14_management.md). -/
def K.GEN_ACTIVE : Nat := 0x30001
/-- GEN_STATE (OD 0x0300.02, 14_management.md). -/
def K.GEN_STATE : Nat := 0x30002
/-- GEN_PREV (OD 0x0300.03, 14_management.md). -/
def K.GEN_PREV : Nat := 0x30003
/-- DRAFT_STATE (OD 0x0300.04, 14_management.md). -/
def K.DRAFT_STATE : Nat := 0x30004
/-- DRAFT_OWNER (OD 0x0300.05, 14_management.md). -/
def K.DRAFT_OWNER : Nat := 0x30005
/-- DRAFT_CHANGES (OD 0x0300.06, 14_management.md). -/
def K.DRAFT_CHANGES : Nat := 0x30006
/-- GEN_COMMIT (OD 0x0300.07, 14_management.md). -/
def K.GEN_COMMIT : Nat := 0x30007
/-- GEN_CONFIRM (OD 0x0300.08, 14_management.md). -/
def K.GEN_CONFIRM : Nat := 0x30008
/-- GEN_ROLLBACK (OD 0x0300.09, 14_management.md). -/
def K.GEN_ROLLBACK : Nat := 0x30009
/-- DRAFT_DISCARD (OD 0x0300.0A, 14_management.md). -/
def K.DRAFT_DISCARD : Nat := 0x3000a
/-- CONFIRM_TIME (OD 0x0300.0B, 14_management.md). -/
def K.CONFIRM_TIME : Nat := 0x3000b
/-- DRAFT_IDLE (OD 0x0300.0C, 14_management.md). -/
def K.DRAFT_IDLE : Nat := 0x3000c
/-- GEN_CT (OD 0x0300.0D, 14_management.md). -/
def K.GEN_CT : Nat := 0x3000d
/-- GEN_LAST_ABORT (OD 0x0300.0E, 14_management.md). -/
def K.GEN_LAST_ABORT : Nat := 0x3000e
/-- GEN_ROLLBACKS (OD 0x0300.0F, 14_management.md). -/
def K.GEN_ROLLBACKS : Nat := 0x3000f
/-- PREV_KEPT (OD 0x0300.10, 14_management.md). -/
def K.PREV_KEPT : Nat := 0x30010
/-- LC_STATE (OD 0x0200.01, 15_lifecycle_firmware.md). -/
def K.LC_STATE : Nat := 0x20001
/-- LC_ADVANCE (OD 0x0200.02, 15_lifecycle_firmware.md). -/
def K.LC_ADVANCE : Nat := 0x20002
/-- LC_CHALLENGE (OD 0x0200.03, 15_lifecycle_firmware.md). -/
def K.LC_CHALLENGE : Nat := 0x20003
/-- LC_TOKEN (OD 0x0200.04, 15_lifecycle_firmware.md). -/
def K.LC_TOKEN : Nat := 0x20004
/-- LC_SCRAP (OD 0x0200.05, 15_lifecycle_firmware.md). -/
def K.LC_SCRAP : Nat := 0x20005
/-- LC_REFUSAL (OD 0x0200.06, 15_lifecycle_firmware.md). -/
def K.LC_REFUSAL : Nat := 0x20006
/-- VROOT (OD 0x0200.07, 15_lifecycle_firmware.md). -/
def K.VROOT : Nat := 0x20007
/-- VROOT_REVOKE0 (OD 0x0200.08, 15_lifecycle_firmware.md). -/
def K.VROOT_REVOKE0 : Nat := 0x20008
/-- JTAG_OPEN (OD 0x0200.09, 15_lifecycle_firmware.md). -/
def K.JTAG_OPEN : Nat := 0x20009
/-- LC_FLAGS (OD 0x0200.0A, 15_lifecycle_firmware.md). -/
def K.LC_FLAGS : Nat := 0x2000a
/-- AUTH_CHALLENGE (OD 0x0210.01, 15_lifecycle_firmware.md). -/
def K.AUTH_CHALLENGE : Nat := 0x21001
/-- AUTH_RESPONSE (OD 0x0210.02, 15_lifecycle_firmware.md). -/
def K.AUTH_RESPONSE : Nat := 0x21002
/-- AUTH_FAILURES (OD 0x0210.03, 15_lifecycle_firmware.md). -/
def K.AUTH_FAILURES : Nat := 0x21003
/-- CUST_KEY_HASH (OD 0x0210.04, 15_lifecycle_firmware.md). -/
def K.CUST_KEY_HASH : Nat := 0x21004
/-- ATTEST_NONCE (OD 0x0220.01, 15_lifecycle_firmware.md). -/
def K.ATTEST_NONCE : Nat := 0x22001
/-- ATTEST_STATE (OD 0x0220.02, 15_lifecycle_firmware.md). -/
def K.ATTEST_STATE : Nat := 0x22002
/-- ATTEST_REPORT (OD 0x0220.03, 15_lifecycle_firmware.md). -/
def K.ATTEST_REPORT : Nat := 0x22003
/-- DEVKEY_PUB (OD 0x0220.04, 15_lifecycle_firmware.md). -/
def K.DEVKEY_PUB : Nat := 0x22004
/-- DEVKEY_CERT (OD 0x0220.05, 15_lifecycle_firmware.md). -/
def K.DEVKEY_CERT : Nat := 0x22005
/-- DEVKEY_GEN (OD 0x0220.06, 15_lifecycle_firmware.md). -/
def K.DEVKEY_GEN : Nat := 0x22006
/-- SIG_NEXT (OD 0x0220.07, 15_lifecycle_firmware.md). -/
def K.SIG_NEXT : Nat := 0x22007
/-- SIG_LEFT (OD 0x0220.08, 15_lifecycle_firmware.md). -/
def K.SIG_LEFT : Nat := 0x22008
/-- FW_INSTALL (OD 0x6000.01, 15_lifecycle_firmware.md). -/
def K.FW_INSTALL : Nat := 0x600001
/-- FW_STATE (OD 0x6000.02, 15_lifecycle_firmware.md). -/
def K.FW_STATE : Nat := 0x600002
/-- FW_RESULT (OD 0x6000.03, 15_lifecycle_firmware.md). -/
def K.FW_RESULT : Nat := 0x600003
/-- FW_PART_NOW (OD 0x6000.04, 15_lifecycle_firmware.md). -/
def K.FW_PART_NOW : Nat := 0x600004
/-- FW_REJECT (OD 0x6000.05, 15_lifecycle_firmware.md). -/
def K.FW_REJECT : Nat := 0x600005
/-- FW_DISCARD (OD 0x6000.06, 15_lifecycle_firmware.md). -/
def K.FW_DISCARD : Nat := 0x600006
/-- FW_FALLBACKS (OD 0x6000.07, 15_lifecycle_firmware.md). -/
def K.FW_FALLBACKS : Nat := 0x600007
/-- ACTIVE_VERSION (OD 0x6010+.01, 15_lifecycle_firmware.md). -/
def K.ACTIVE_VERSION (i : Nat) : Nat := (0x6010 + 1 * i) * 256 + 1
/-- ACTIVE_SV (OD 0x6010+.02, 15_lifecycle_firmware.md). -/
def K.ACTIVE_SV (i : Nat) : Nat := (0x6010 + 1 * i) * 256 + 2
/-- SV_FUSE (OD 0x6010+.03, 15_lifecycle_firmware.md). -/
def K.SV_FUSE (i : Nat) : Nat := (0x6010 + 1 * i) * 256 + 3
/-- PART_STATE (OD 0x6010+.04, 15_lifecycle_firmware.md). -/
def K.PART_STATE (i : Nat) : Nat := (0x6010 + 1 * i) * 256 + 4
/-- STAGED_VERSION (OD 0x6010+.05, 15_lifecycle_firmware.md). -/
def K.STAGED_VERSION (i : Nat) : Nat := (0x6010 + 1 * i) * 256 + 5
/-- PREV_VERSION (OD 0x6010+.06, 15_lifecycle_firmware.md). -/
def K.PREV_VERSION (i : Nat) : Nat := (0x6010 + 1 * i) * 256 + 6
/-- COMPAT (OD 0x6010+.07, 15_lifecycle_firmware.md). -/
def K.COMPAT (i : Nat) : Nat := (0x6010 + 1 * i) * 256 + 7
/-- HDR_HASH (OD 0x6010+.08, 15_lifecycle_firmware.md). -/
def K.HDR_HASH (i : Nat) : Nat := (0x6010 + 1 * i) * 256 + 8
/-- PROBATION_LEFT (OD 0x6010+.09, 15_lifecycle_firmware.md). -/
def K.PROBATION_LEFT (i : Nat) : Nat := (0x6010 + 1 * i) * 256 + 9
/-- APPLET_VERSION (OD 0x6030+.01, 15_lifecycle_firmware.md). -/
def K.APPLET_VERSION (i : Nat) : Nat := (0x6030 + 1 * i) * 256 + 1
/-- APPLET_HASH (OD 0x6030+.02, 15_lifecycle_firmware.md). -/
def K.APPLET_HASH (i : Nat) : Nat := (0x6030 + 1 * i) * 256 + 2
/-- APPLET_STATE (OD 0x6030+.03, 15_lifecycle_firmware.md). -/
def K.APPLET_STATE (i : Nat) : Nat := (0x6030 + 1 * i) * 256 + 3
/-- APPLET_REMOVE (OD 0x6030+.04, 15_lifecycle_firmware.md). -/
def K.APPLET_REMOVE (i : Nat) : Nat := (0x6030 + 1 * i) * 256 + 4
/-- START_PHASE (OD 0x0150.01, 16_startup_electrical.md). -/
def K.START_PHASE : Nat := 0x15001
/-- CORE_READY (OD 0x0150.02, 16_startup_electrical.md). -/
def K.CORE_READY : Nat := 0x15002
/-- T_CORE_READY (OD 0x0150.03, 16_startup_electrical.md). -/
def K.T_CORE_READY : Nat := 0x15003
/-- T_PORTS_READY (OD 0x0150.04, 16_startup_electrical.md). -/
def K.T_PORTS_READY : Nat := 0x15004
/-- LAST_RESET (OD 0x0150.05, 16_startup_electrical.md). -/
def K.LAST_RESET : Nat := 0x15005
/-- POR_COUNT (OD 0x0150.06, 16_startup_electrical.md). -/
def K.POR_COUNT : Nat := 0x15006
/-- HUB_RESETS (OD 0x0150.07, 16_startup_electrical.md). -/
def K.HUB_RESETS : Nat := 0x15007
/-- RESET_HUB (OD 0x0150.08, 16_startup_electrical.md). -/
def K.RESET_HUB : Nat := 0x15008
/-- RESET_HK (OD 0x0150.09, 16_startup_electrical.md). -/
def K.RESET_HK : Nat := 0x15009
/-- IDCODE (OD 0x0150.0A, 16_startup_electrical.md). -/
def K.IDCODE : Nat := 0x1500a
/-- TJ_HUB (OD 0x5008.01, 16_startup_electrical.md). -/
def K.TJ_HUB : Nat := 0x500801
/-- TJ_TILE (OD 0x5008.02–, 16_startup_electrical.md). -/
def K.TJ_TILE (j : Nat) : Nat := 0x500802 + j
/-- TJ_SPC (OD 0x5008.06–, 16_startup_electrical.md). -/
def K.TJ_SPC (j : Nat) : Nat := 0x500806 + j
/-- TJ_WARN (OD 0x5008.08, 16_startup_electrical.md). -/
def K.TJ_WARN : Nat := 0x500808
/-- TJ_PEAK (OD 0x5008.09, 16_startup_electrical.md). -/
def K.TJ_PEAK : Nat := 0x500809
/-- THERM_SHUTDOWNS (OD 0x5008.0A, 16_startup_electrical.md). -/
def K.THERM_SHUTDOWNS : Nat := 0x50080a

/-- Part 0 of the object tables, in the order of the chapters. -/
def odRows0 : List OdRow :=
  [⟨"CLASS_MAP_VIEW", 0x1003, 16, 96, 1, 1, .u 4, .rws, .const 0, .bits 0xFF, .tile, 2⟩,
   ⟨"CLASS_MAP_OVERRIDES", 0x1003, 16, 96, 2, 1, .u 8, .ro, .const 0, .any, .tile, 2⟩,
   ⟨"LIM_SYS", 0x2100, 1, 96, 1, 1, .u 4, .rws, .const 256, .rng 64 1024, .tile, 2⟩,
   ⟨"LIM_COH", 0x2100, 1, 96, 2, 1, .u 4, .rws, .const 2048, .rng 256 16384, .tile, 2⟩,
   ⟨"LIM_BULK", 0x2100, 1, 96, 3, 1, .u 4, .rws, .const 4096, .rng 256 16384, .tile, 2⟩,
   ⟨"LIM_VIEW", 0x2100, 1, 96, 4, 1, .u 4, .rws, .const 1792, .rng 0 16384, .tile, 2⟩,
   ⟨"PLANK_MODE", 0x2000, 1, 1, 1, 1, .u 1, .ro, .const 0, .any, .hub, 2⟩,
   ⟨"FORCE_FULLING", 0x2000, 1, 1, 2, 1, .bool, .rws, .const 0, .rng 0 1, .hub, 2⟩,
   ⟨"MATCH_SELFTEST", 0x2000, 1, 1, 3, 1, .u 1, .ro, .const 0, .any, .hub, 2⟩,
   ⟨"MODE_CHANGES", 0x2000, 1, 1, 4, 1, .u 4, .ro, .const 0, .any, .hub, 2⟩,
   ⟨"GRANT_CONFLICTS", 0x2000, 1, 1, 5, 1, .u 4, .ro, .const 0, .any, .hub, 2⟩,
   ⟨"MCAST_SYS_SLOTS", 0x2000, 1, 1, 6, 1, .u 2, .rws, .const 1024, .rng 256 4096, .hub, 2⟩,
   ⟨"MCAST_HIGH_WATER", 0x2000, 1, 1, 7, 1, .u 2, .ro, .const 0, .any, .hub, 2⟩,
   ⟨"RESEQ_RESERVED_USES", 0x2000, 1, 1, 8, 1, .u 8, .ro, .const 0, .any, .hub, 2⟩,
   ⟨"HDR_ERRORS", 0x2000, 1, 1, 9, 1, .u 4, .ro, .const 0, .any, .hub, 2⟩,
   ⟨"OCC", 0x2100, 1, 96, 5, 4, .u 4, .ro, .const 0, .any, .tile, 2⟩,
   ⟨"VIEW_DROP_CELLS", 0x2100, 1, 96, 9, 1, .u 8, .ro, .const 0, .any, .tile, 2⟩,
   ⟨"VIEW_DROP_PKTS", 0x2100, 1, 96, 10, 1, .u 8, .ro, .const 0, .any, .tile, 2⟩,
   ⟨"BP_TICKS", 0x2100, 1, 96, 11, 1, .u 8, .ro, .const 0, .any, .tile, 2⟩,
   ⟨"FLUSHED_CELLS", 0x2100, 1, 96, 12, 1, .u 8, .ro, .const 0, .any, .tile, 2⟩,
   ⟨"WIN_ENABLE", 0x2900, 1, 16, 1, 1, .bool, .rws, .const 0, .rng 0 1, .hub, 2⟩,
   ⟨"WIN_SIZE", 0x2900, 1, 16, 2, 1, .u 8, .rws, .const 0, .mult 1073741824 4398046511104, .hub, 2⟩,
   ⟨"PRIMARY_TARGET", 0x2900, 1, 16, 3, 1, .u 1, .rws, .const 0, .rng 0 63, .hub, 2⟩,
   ⟨"PRIMARY_OFFSET", 0x2900, 1, 16, 4, 1, .u 8, .rws, .const 0, .mult 1073741824 18446744073709551615, .hub, 2⟩,
   ⟨"DIR_OFFSET", 0x2900, 1, 16, 5, 1, .u 8, .rws, .const 0, .mult 67108864 18446744073709551615, .hub, 2⟩,
   ⟨"MIRROR", 0x2900, 1, 16, 6, 1, .bool, .rws, .const 0, .rng 0 1, .hub, 2⟩,
   ⟨"MIRROR_TARGET", 0x2900, 1, 16, 7, 1, .u 1, .rws, .const 0, .rng 0 63, .hub, 2⟩,
   ⟨"MIRROR_OFFSET", 0x2900, 1, 16, 8, 1, .u 8, .rws, .const 0, .mult 1073741824 18446744073709551615, .hub, 2⟩,
   ⟨"MIRROR_DIR_OFFSET", 0x2900, 1, 16, 9, 1, .u 8, .rws, .const 0, .mult 67108864 18446744073709551615, .hub, 2⟩,
   ⟨"READ_REPLICA", 0x2900, 1, 16, 10, 1, .u 1, .rws, .const 0, .rng 0 1, .hub, 2⟩,
   ⟨"HOSTS", 0x2900, 1, 16, 11, 1, .u 8, .rws, .const 0, .any, .hub, 2⟩,
   ⟨"SNOOP_TIMEOUT", 0x2900, 1, 16, 12, 1, .u 4, .rws, .const 1000, .rng 100 100000, .hub, 2⟩,
   ⟨"STATE", 0x2900, 1, 16, 13, 1, .u 1, .ro, .const 0, .any, .hub, 2⟩,
   ⟨"FWD_HITS", 0x2900, 1, 16, 14, 1, .u 8, .ro, .const 0, .any, .hub, 2⟩,
   ⟨"FWD_MISSES", 0x2900, 1, 16, 15, 1, .u 8, .ro, .const 0, .any, .hub, 2⟩,
   ⟨"BISNP_SENT", 0x2900, 1, 16, 16, 1, .u 8, .ro, .const 0, .any, .hub, 2⟩,
   ⟨"POISONED_LINES", 0x2900, 1, 16, 17, 1, .u 4, .ro, .const 0, .any, .hub, 2⟩,
   ⟨"FAILOVERS", 0x2900, 1, 16, 18, 1, .u 4, .ro, .const 0, .any, .hub, 2⟩,
   ⟨"RESYNC_DONE", 0x2900, 1, 16, 19, 1, .u 8, .ro, .const 0, .any, .hub, 2⟩,
   ⟨"RESYNC_START", 0x2900, 1, 16, 20, 1, .bool, .wo, .const 0, .rng 1 1, .hub, 2⟩]

/-- Part 1 of the object tables, in the order of the chapters. -/
def odRows1 : List OdRow :=
  [⟨"WIN_TOTAL", 0x2800, 1, 1, 1, 1, .u 8, .ro, .const 0, .any, .hub, 2⟩,
   ⟨"SWEEP_RATE", 0x2800, 1, 1, 2, 1, .u 1, .rws, .const 32, .rng 4 64, .hub, 2⟩,
   ⟨"DEPART_PENDING", 0x2800, 1, 1, 3, 1, .u 8, .ro, .const 0, .any, .hub, 2⟩,
   ⟨"TRACKER_IN_USE", 0x2800, 1, 1, 4, 1, .u 2, .ro, .const 0, .any, .hub, 2⟩,
   ⟨"TRACKER_HIGH_WATER", 0x2800, 1, 1, 5, 1, .u 2, .ro, .const 0, .any, .hub, 2⟩,
   ⟨"DIRCACHE_LOOKUPS", 0x2800, 1, 1, 6, 1, .u 8, .ro, .const 0, .any, .hub, 2⟩,
   ⟨"DIRCACHE_MISSES", 0x2800, 1, 1, 7, 1, .u 8, .ro, .const 0, .any, .hub, 2⟩,
   ⟨"DIR_REPAIRS", 0x2800, 1, 1, 8, 1, .u 4, .ro, .const 0, .any, .hub, 2⟩,
   ⟨"QUEUE_DEPTH_MAX", 0x2800, 1, 1, 9, 1, .u 1, .ro, .const 0, .any, .hub, 2⟩,
   ⟨"LAST_REFUSAL", 0x2800, 1, 1, 15, 1, .u 1, .ro, .const 0, .any, .hub, 2⟩,
   ⟨"FENCE_TIMEOUT", 0x2300, 1, 1, 1, 1, .u 4, .rws, .const 10000, .rng 100 1000000, .hub, 2⟩,
   ⟨"FENCES_DONE", 0x2300, 1, 1, 2, 1, .u 8, .ro, .const 0, .any, .hub, 2⟩,
   ⟨"FENCES_TIMED_OUT", 0x2300, 1, 1, 3, 1, .u 4, .ro, .const 0, .any, .hub, 2⟩,
   ⟨"FENCES_REFUSED", 0x2300, 1, 1, 4, 1, .u 4, .ro, .const 0, .any, .hub, 2⟩,
   ⟨"DOORBELLS_DISCARDED", 0x2300, 1, 1, 5, 1, .u 4, .ro, .const 0, .any, .hub, 2⟩,
   ⟨"FENCE_HIGH_WATER", 0x2300, 1, 1, 6, 1, .u 2, .ro, .const 0, .any, .hub, 2⟩,
   ⟨"FENCES_ABANDONED", 0x2300, 1, 1, 7, 1, .u 4, .ro, .const 0, .any, .hub, 2⟩,
   ⟨"FENCE_BASE", 0x2340, 1, 64, 1, 1, .u 8, .rws, .const 0, .mult 4096 18446744073709551615, .hub, 2⟩,
   ⟨"FENCE_ENABLE", 0x2340, 1, 64, 2, 1, .bool, .rws, .const 0, .rng 0 1, .hub, 2⟩,
   ⟨"LINE_DIR", 0x0410, 1, 40, 1, 1, .u 1, .rws, .const 0, .rng 0 1, .hub, 2⟩,
   ⟨"IN_EDGE", 0x0410, 1, 40, 2, 1, .u 1, .rws, .const 1, .rng 0 3, .hub, 2⟩,
   ⟨"IN_FILTER", 0x0410, 1, 40, 3, 1, .u 1, .rws, .const 0, .rng 0 31, .hub, 2⟩,
   ⟨"IN_HOLDOFF", 0x0410, 1, 40, 4, 1, .u 2, .rws, .const 100, .rng 10 65535, .hub, 2⟩,
   ⟨"BCAST", 0x0410, 1, 40, 5, 1, .bool, .rws, .const 0, .rng 0 1, .hub, 2⟩,
   ⟨"LAST_STAMP", 0x0410, 1, 40, 6, 1, .u 8, .ro, .const 0, .any, .hub, 2⟩,
   ⟨"EDGE_COUNT", 0x0410, 1, 40, 7, 1, .u 8, .ro, .const 0, .any, .hub, 2⟩,
   ⟨"MERGED_COUNT", 0x0410, 1, 40, 8, 1, .u 4, .ro, .const 0, .any, .hub, 2⟩,
   ⟨"MSG_OVERRUN", 0x0410, 1, 40, 9, 1, .u 4, .ro, .const 0, .any, .hub, 2⟩,
   ⟨"OUT_AT", 0x0410, 1, 40, 10, 1, .u 8, .wo, .const 0, .any, .hub, 2⟩,
   ⟨"OUT_WIDTH", 0x0410, 1, 40, 11, 1, .u 4, .rws, .const 100, .rng 8 1000000, .hub, 2⟩,
   ⟨"OUT_PENDING", 0x0410, 1, 40, 12, 1, .u 1, .ro, .const 0, .any, .hub, 2⟩,
   ⟨"OUT_CANCEL", 0x0410, 1, 40, 13, 1, .bool, .wo, .const 0, .rng 1 1, .hub, 2⟩,
   ⟨"OUT_LATE", 0x0410, 1, 40, 14, 1, .u 4, .ro, .const 0, .any, .hub, 2⟩,
   ⟨"OUT_DROPPED", 0x0410, 1, 40, 15, 1, .u 4, .ro, .const 0, .any, .hub, 2⟩,
   ⟨"CT_NOW", 0x0400, 1, 1, 1, 1, .u 8, .ro, .const 0, .any, .hub, 2⟩,
   ⟨"CT_LOAD", 0x0400, 1, 1, 2, 1, .u 8, .wo, .const 0, .any, .hub, 2⟩,
   ⟨"CT_LOAD_MODE", 0x0400, 1, 1, 3, 1, .u 1, .rws, .const 0, .rng 0 1, .hub, 2⟩,
   ⟨"CT_STATE", 0x0400, 1, 1, 4, 1, .u 1, .ro, .const 0, .any, .hub, 2⟩,
   ⟨"REF_SEL", 0x0400, 1, 1, 5, 1, .u 1, .rws, .const 0, .rng 0 1, .hub, 2⟩,
   ⟨"SYNC_ENABLE", 0x0400, 1, 1, 6, 1, .bool, .rws, .const 1, .rng 0 1, .hub, 2⟩]

/-- Part 2 of the object tables, in the order of the chapters. -/
def odRows2 : List OdRow :=
  [⟨"SYNC_PERIOD", 0x0400, 1, 1, 7, 1, .u 4, .rws, .const 100, .rng 1 1000000, .hub, 2⟩,
   ⟨"SYNC_MISSES", 0x0400, 1, 1, 8, 1, .u 4, .ro, .const 0, .any, .hub, 2⟩,
   ⟨"SLEW_OFFSET", 0x0400, 1, 1, 9, 1, .i32, .ro, .const 0, .any, .hub, 2⟩,
   ⟨"TIME_MSG_PORTS_LO", 0x0400, 1, 1, 10, 1, .u 8, .rws, .const 0, .any, .hub, 2⟩,
   ⟨"TIME_MSG_PORTS_HI", 0x0400, 1, 1, 11, 1, .u 4, .rws, .const 0, .any, .hub, 2⟩,
   ⟨"TFENCE_WAIT", 0x0400, 1, 1, 12, 1, .u 4, .rws, .const 10000, .rng 1 3600000, .hub, 2⟩,
   ⟨"CT_LOADS", 0x0400, 1, 1, 13, 1, .u 4, .ro, .const 0, .any, .hub, 2⟩,
   ⟨"LOAD_PENDING", 0x0400, 1, 1, 14, 1, .bool, .ro, .const 0, .any, .hub, 2⟩,
   ⟨"TIME_MSG_INTERVAL", 0x0400, 1, 1, 15, 1, .u 4, .rws, .const 1000, .rng 1 60000, .hub, 2⟩,
   ⟨"TIME_MSG_SKIPPED", 0x0400, 1, 1, 16, 1, .u 4, .ro, .const 0, .any, .hub, 2⟩,
   ⟨"PS_PORTS_LO", 0x0440, 1, 16, 1, 1, .u 8, .rws, .const 0, .any, .hub, 2⟩,
   ⟨"PS_PORTS_HI", 0x0440, 1, 16, 2, 1, .u 4, .rws, .const 0, .any, .hub, 2⟩,
   ⟨"PS_HUB", 0x0440, 1, 16, 3, 1, .u 4, .rws, .const 0, .bits 0xFFFFF, .hub, 2⟩,
   ⟨"FRZ_SHADOW_TARGET", 0x2A00, 1, 16, 1, 1, .u 1, .rws, .const 0, .rng 0 63, .hub, 2⟩,
   ⟨"FRZ_SHADOW_OFFSET", 0x2A00, 1, 16, 2, 1, .u 8, .rws, .const 0, .mult 1073741824 18446744073709551615, .hub, 2⟩,
   ⟨"FRZ_LINE", 0x2A00, 1, 16, 3, 1, .u 1, .rws, .const 0, .rng 0 39, .hub, 2⟩,
   ⟨"FRZ_EDGE", 0x2A00, 1, 16, 4, 1, .u 1, .rws, .const 1, .rng 1 3, .hub, 2⟩,
   ⟨"FRZ_LAG", 0x2A00, 1, 16, 5, 1, .u 2, .rws, .const 24, .rng 24 4095, .hub, 2⟩,
   ⟨"FRZ_RATE", 0x2A00, 1, 16, 6, 1, .u 1, .rws, .const 16, .rng 4 32, .hub, 2⟩,
   ⟨"FRZ_ARM", 0x2A00, 1, 16, 7, 1, .bool, .wo, .const 0, .rng 1 1, .hub, 2⟩,
   ⟨"FRZ_RELEASE", 0x2A00, 1, 16, 8, 1, .bool, .wo, .const 0, .rng 1 1, .hub, 2⟩,
   ⟨"FRZ_STATE", 0x2A00, 1, 16, 9, 1, .u 1, .ro, .const 0, .any, .hub, 2⟩,
   ⟨"FRZ_CT", 0x2A00, 1, 16, 10, 1, .u 8, .ro, .const 0, .any, .hub, 2⟩,
   ⟨"FRZ_TRIG_CT", 0x2A00, 1, 16, 11, 1, .u 8, .ro, .const 0, .any, .hub, 2⟩,
   ⟨"FRZ_COPIED", 0x2A00, 1, 16, 12, 1, .u 8, .ro, .const 0, .any, .hub, 2⟩,
   ⟨"FRZ_CBW", 0x2A00, 1, 16, 13, 1, .u 8, .ro, .const 0, .any, .hub, 2⟩,
   ⟨"FRZ_LATE_OLD", 0x2A00, 1, 16, 14, 1, .u 8, .ro, .const 0, .any, .hub, 2⟩,
   ⟨"FRZ_REFUSAL", 0x2A00, 1, 16, 15, 1, .u 1, .ro, .const 0, .any, .hub, 2⟩,
   ⟨"FRZ_COMMIT_REFUSAL", 0x2A80, 1, 1, 1, 1, .u 1, .ro, .const 0, .any, .hub, 2⟩,
   ⟨"OVH", 0x2010, 1, 1, 1, 1, .u 1, .rws, .const 18, .rng 0 63, .hub, 2⟩,
   ⟨"CROWN_WEIGHT", 0x2010, 1, 1, 2, 1, .u 1, .rws, .const 64, .rng 1 255, .hub, 2⟩,
   ⟨"SC_WEIGHT", 0x2010, 1, 1, 3, 1, .u 1, .rws, .const 8, .rng 1 255, .hub, 2⟩,
   ⟨"DM_WEIGHT", 0x2010, 1, 1, 4, 1, .u 1, .rws, .const 16, .rng 1 255, .hub, 2⟩,
   ⟨"BRIM_WEIGHT", 0x2010, 1, 1, 5, 1, .u 1, .rws, .const 32, .rng 1 255, .hub, 2⟩,
   ⟨"FLOW_OVERFLOWS", 0x2010, 1, 1, 6, 1, .u 8, .ro, .const 0, .any, .hub, 2⟩,
   ⟨"TRAFFIC_REFUSAL", 0x2010, 1, 1, 7, 1, .u 1, .ro, .const 0, .any, .hub, 2⟩,
   ⟨"CW_COH", 0x2200, 1, 96, 1, 1, .u 1, .rws, .const 64, .rng 1 255, .hub, 2⟩,
   ⟨"CW_BULK", 0x2200, 1, 96, 2, 1, .u 1, .rws, .const 32, .rng 1 255, .hub, 2⟩,
   ⟨"CW_VIEW", 0x2200, 1, 96, 3, 1, .u 1, .rws, .const 8, .rng 1 255, .hub, 2⟩,
   ⟨"FW_COH", 0x2200, 1, 96, 4, 1, .u 1, .rws, .const 16, .rng 1 255, .hub, 2⟩]

/-- Part 3 of the object tables, in the order of the chapters. -/
def odRows3 : List OdRow :=
  [⟨"FW_BULK", 0x2200, 1, 96, 5, 1, .u 1, .rws, .const 16, .rng 1 255, .hub, 2⟩,
   ⟨"FW_VIEW", 0x2200, 1, 96, 6, 1, .u 1, .rws, .const 16, .rng 1 255, .hub, 2⟩,
   ⟨"POL_ENABLE", 0x2200, 1, 96, 7, 1, .bool, .rws, .const 0, .rng 0 1, .hub, 2⟩,
   ⟨"POL_CIR", 0x2200, 1, 96, 8, 1, .u 4, .rws, .const 32000, .rng 0 128000, .hub, 2⟩,
   ⟨"POL_PIR", 0x2200, 1, 96, 9, 1, .u 4, .rws, .const 64000, .rng 1 128000, .hub, 2⟩,
   ⟨"POL_CBS", 0x2200, 1, 96, 10, 1, .u 4, .rws, .const 262144, .rng 4096 16777216, .hub, 2⟩,
   ⟨"POL_PBS", 0x2200, 1, 96, 11, 1, .u 4, .rws, .const 524288, .rng 4096 16777216, .hub, 2⟩,
   ⟨"GREEN_PKTS", 0x2200, 1, 96, 12, 1, .u 8, .ro, .const 0, .any, .tile, 2⟩,
   ⟨"YELLOW_PKTS", 0x2200, 1, 96, 13, 1, .u 8, .ro, .const 0, .any, .tile, 2⟩,
   ⟨"RED_PKTS", 0x2200, 1, 96, 14, 1, .u 8, .ro, .const 0, .any, .tile, 2⟩,
   ⟨"RED_DEMOTED_CELLS", 0x2200, 1, 96, 15, 1, .u 8, .ro, .const 0, .any, .tile, 2⟩,
   ⟨"RED_VIEW_DROP_PKTS", 0x2200, 1, 96, 16, 1, .u 8, .ro, .const 0, .any, .tile, 2⟩,
   ⟨"TX_SYS", 0x2200, 1, 96, 17, 1, .u 8, .ro, .const 0, .any, .tile, 2⟩,
   ⟨"TX_COH", 0x2200, 1, 96, 18, 1, .u 8, .ro, .const 0, .any, .tile, 2⟩,
   ⟨"TX_BULK", 0x2200, 1, 96, 19, 1, .u 8, .ro, .const 0, .any, .tile, 2⟩,
   ⟨"TX_VIEW", 0x2200, 1, 96, 20, 1, .u 8, .ro, .const 0, .any, .tile, 2⟩,
   ⟨"SHP_PROFILE", 0x2280, 1, 64, 1, 64, .u 1, .rws, .const 0, .rng 0 63, .hub, 2⟩,
   ⟨"SHP_HOLD_TICKS", 0x2280, 1, 64, 65, 1, .u 8, .ro, .const 0, .any, .hub, 2⟩,
   ⟨"SHP_COMMITTED_BYTES", 0x2280, 1, 64, 66, 1, .u 8, .ro, .const 0, .any, .hub, 2⟩,
   ⟨"SHP_CIR", 0x22C1, 1, 63, 1, 1, .u 4, .rws, .const 0, .rng 0 128000, .hub, 2⟩,
   ⟨"SHP_PIR", 0x22C1, 1, 63, 2, 1, .u 4, .rws, .const 1000, .rng 1 128000, .hub, 2⟩,
   ⟨"SHP_CBS", 0x22C1, 1, 63, 3, 1, .u 4, .rws, .const 65536, .rng 4096 16777216, .hub, 2⟩,
   ⟨"SHP_PBS", 0x22C1, 1, 63, 4, 1, .u 4, .rws, .const 131072, .rng 4096 16777216, .hub, 2⟩,
   ⟨"ROLE", 0x100C, 16, 96, 1, 1, .u 1, .rw, .const 0, .rng 0 3, .island, 2⟩,
   ⟨"AGENT", 0x100C, 16, 96, 2, 1, .u 1, .rw, .const 0, .rng 0 63, .island, 2⟩,
   ⟨"POOL", 0x100C, 16, 96, 3, 1, .bool, .rw, .const 0, .rng 0 1, .island, 2⟩,
   ⟨"SLOT", 0x100C, 16, 96, 4, 1, .u 1, .rw, .const 255, .rngOr 23 255, .island, 2⟩,
   ⟨"HP_OWNER", 0x100C, 16, 96, 5, 1, .u 1, .rw, .const 0, .rng 0 1, .island, 2⟩,
   ⟨"HP_ATTN", 0x100C, 16, 96, 6, 1, .bool, .rw, .const 0, .rng 0 1, .island, 2⟩,
   ⟨"HP_SURPRISE", 0x100C, 16, 96, 7, 1, .bool, .rw, .const 1, .rng 0 1, .island, 2⟩,
   ⟨"PERST_DELAY", 0x100C, 16, 96, 8, 1, .u 4, .rw, .const 100, .rng 100 1000, .island, 2⟩,
   ⟨"PERST_TO_OFF", 0x100C, 16, 96, 9, 1, .u 4, .rw, .const 100, .rng 10 100000, .island, 2⟩,
   ⟨"PRSNT_DEBOUNCE", 0x100C, 16, 96, 10, 1, .u 4, .rw, .const 1000, .rng 100 100000, .island, 2⟩,
   ⟨"RSP_TIMEOUT", 0x100C, 16, 96, 11, 1, .u 4, .rw, .const 10000, .rng 100 1000000, .island, 2⟩,
   ⟨"PORT_STATE", 0x100C, 16, 96, 12, 1, .u 1, .ro, .const 0, .any, .island, 2⟩,
   ⟨"AGENT_KIND", 0x100C, 16, 96, 13, 1, .u 1, .ro, .const 0, .any, .tile, 2⟩,
   ⟨"LD_COUNT", 0x100C, 16, 96, 14, 1, .u 1, .ro, .const 0, .any, .tile, 2⟩,
   ⟨"PORT_SERIAL", 0x100C, 16, 96, 15, 1, .u 8, .ro, .const 0, .any, .island, 2⟩,
   ⟨"PORT_REFUSAL", 0x100C, 16, 96, 16, 1, .u 1, .ro, .const 0, .any, .island, 2⟩,
   ⟨"DECODE_MISSES", 0x100C, 16, 96, 17, 1, .u 8, .ro, .const 0, .any, .tile, 2⟩]

/-- Part 4 of the object tables, in the order of the chapters. -/
def odRows4 : List OdRow :=
  [⟨"LOST_WRITES", 0x100C, 16, 96, 18, 1, .u 8, .ro, .const 0, .any, .tile, 2⟩,
   ⟨"POISONED_READS", 0x100C, 16, 96, 19, 1, .u 8, .ro, .const 0, .any, .tile, 2⟩,
   ⟨"INDICATORS", 0x100C, 16, 96, 20, 1, .u 1, .ro, .const 0, .any, .island, 2⟩,
   ⟨"VCS_STATE", 0x2380, 1, 64, 1, 1, .u 1, .ro, .const 0, .any, .hub, 2⟩,
   ⟨"HOST_PORTS", 0x2380, 1, 64, 2, 1, .u 2, .ro, .const 65535, .any, .hub, 2⟩,
   ⟨"HOST_DOWN_RESET", 0x2380, 1, 64, 3, 1, .u 1, .rws, .const 0, .rng 0 1, .hub, 2⟩,
   ⟨"PEER_HDM", 0x2380, 1, 64, 4, 1, .bool, .rws, .const 1, .rng 0 1, .hub, 2⟩,
   ⟨"CACHE_DEVICES", 0x2380, 1, 64, 5, 1, .u 1, .ro, .const 0, .any, .hub, 2⟩,
   ⟨"DEC_COMMITTED", 0x2380, 1, 64, 6, 1, .u 4, .ro, .const 0, .any, .hub, 2⟩,
   ⟨"CAP_EXTENTS", 0x2380, 1, 64, 7, 1, .u 2, .ro, .const 0, .any, .hub, 2⟩,
   ⟨"VPPB_BINDING", 0x2380, 1, 64, 32, 32, .u 4, .ro, .const 0, .any, .hub, 2⟩,
   ⟨"BIND_CMD", 0x23C0, 1, 1, 1, 1, .octets 8, .wo, .const 0, .any, .hub, 2⟩,
   ⟨"BIND_STATE", 0x23C0, 1, 1, 2, 1, .u 1, .ro, .const 0, .any, .hub, 2⟩,
   ⟨"BIND_RESULT", 0x23C0, 1, 1, 3, 1, .u 1, .ro, .const 0, .any, .hub, 2⟩,
   ⟨"BIND_TAG", 0x23C0, 1, 1, 4, 1, .u 2, .ro, .const 0, .any, .hub, 2⟩,
   ⟨"UNBIND_TIMEOUT", 0x23C0, 1, 1, 5, 1, .u 4, .rws, .const 30000, .rng 1000 600000, .hub, 2⟩,
   ⟨"EXTENT_CMD", 0x23C0, 1, 1, 6, 1, .octets 16, .wo, .const 0, .any, .hub, 2⟩,
   ⟨"EXTENT_STATE", 0x23C0, 1, 1, 7, 1, .u 1, .ro, .const 0, .any, .hub, 2⟩,
   ⟨"EXTENT_RESULT", 0x23C0, 1, 1, 8, 1, .u 1, .ro, .const 0, .any, .hub, 2⟩,
   ⟨"EXTENT_TAG", 0x23C0, 1, 1, 9, 1, .u 2, .ro, .const 0, .any, .hub, 2⟩,
   ⟨"EXTENT_TIMEOUT", 0x23C0, 1, 1, 10, 1, .u 4, .rws, .const 10000, .rng 100 600000, .hub, 2⟩,
   ⟨"EXTENTS_FREE", 0x23C0, 1, 1, 11, 1, .u 2, .ro, .const 0, .any, .hub, 2⟩,
   ⟨"PORT_WIDTH", 0x1000, 16, 96, 1, 1, .u 1, .rws, .const 4, .oneOf [1, 2, 4, 8, 16], .island, 2⟩,
   ⟨"RATE_MAX", 0x1000, 16, 96, 2, 1, .u 1, .rws, .const 6, .rng 1 6, .island, 2⟩,
   ⟨"FLIT_MODE", 0x1000, 16, 96, 3, 1, .u 1, .rws, .const 1, .rng 0 2, .island, 2⟩,
   ⟨"CXL_ENABLE", 0x1000, 16, 96, 4, 1, .bool, .rws, .const 1, .rng 0 1, .island, 2⟩,
   ⟨"CLOCK_MODE", 0x1000, 16, 96, 5, 1, .u 1, .rws, .const 0, .rng 0 2, .island, 2⟩,
   ⟨"EQ_BYPASS", 0x1000, 16, 96, 6, 1, .bool, .rws, .const 1, .rng 0 1, .island, 2⟩,
   ⟨"EQ_PRESETS", 0x1000, 16, 96, 7, 1, .u 2, .rws, .const 18568, .nibbles 4 0 10, .island, 2⟩,
   ⟨"L1_ALLOW", 0x1000, 16, 96, 8, 1, .bool, .rws, .const 0, .rng 0 1, .island, 2⟩,
   ⟨"L0P_ALLOW", 0x1000, 16, 96, 9, 1, .bool, .rws, .const 0, .rng 0 1, .island, 2⟩,
   ⟨"LINK_IDE", 0x1000, 16, 96, 10, 1, .bool, .rws, .const 0, .rng 0 1, .island, 2⟩,
   ⟨"CXL_IDE_MODE", 0x1000, 16, 96, 11, 1, .u 1, .rws, .const 0, .rng 0 2, .island, 2⟩,
   ⟨"LANE_IDLE", 0x1000, 16, 96, 12, 1, .u 1, .rws, .const 0, .rng 0 1, .island, 2⟩,
   ⟨"LINK_ENABLE", 0x1000, 16, 96, 13, 1, .bool, .rw, .const 1, .rng 0 1, .island, 2⟩,
   ⟨"LINK_RETRAIN", 0x1000, 16, 96, 14, 1, .bool, .wo, .const 0, .rng 1 1, .island, 2⟩,
   ⟨"GANG_REFUSAL", 0x1000, 16, 96, 15, 1, .u 1, .ro, .const 0, .any, .island, 2⟩,
   ⟨"LINK_UP", 0x1001, 16, 96, 1, 1, .bool, .ro, .const 0, .any, .tile, 2⟩,
   ⟨"LINK_WIDTH", 0x1001, 16, 96, 2, 1, .u 1, .ro, .const 0, .any, .tile, 2⟩,
   ⟨"LINK_RATE", 0x1001, 16, 96, 3, 1, .u 1, .ro, .const 0, .any, .tile, 2⟩]

/-- Part 5 of the object tables, in the order of the chapters. -/
def odRows5 : List OdRow :=
  [⟨"FLIT_ACTIVE", 0x1001, 16, 96, 4, 1, .u 1, .ro, .const 0, .any, .tile, 2⟩,
   ⟨"PROTOCOL", 0x1001, 16, 96, 5, 1, .u 1, .ro, .const 0, .any, .tile, 2⟩,
   ⟨"DEGRADED", 0x1001, 16, 96, 6, 1, .u 4, .ro, .const 0, .any, .tile, 2⟩,
   ⟨"LTSSM_STATE", 0x1001, 16, 96, 7, 1, .u 1, .ro, .const 0, .any, .tile, 2⟩,
   ⟨"TRAIN_TIME", 0x1001, 16, 96, 8, 1, .u 4, .ro, .const 0, .any, .tile, 2⟩,
   ⟨"RECOVERIES", 0x1001, 16, 96, 9, 1, .u 4, .ro, .const 0, .any, .tile, 2⟩,
   ⟨"FEC_CORRECTED", 0x1001, 16, 96, 10, 1, .u 8, .ro, .const 0, .any, .tile, 2⟩,
   ⟨"FLITS_UNCORRECTABLE", 0x1001, 16, 96, 11, 1, .u 8, .ro, .const 0, .any, .tile, 2⟩,
   ⟨"REPLAYS", 0x1001, 16, 96, 12, 1, .u 8, .ro, .const 0, .any, .tile, 2⟩,
   ⟨"LINK_DOWNS", 0x1001, 16, 96, 13, 1, .u 4, .ro, .const 0, .any, .tile, 2⟩,
   ⟨"LANE_STATUS", 0x1001, 16, 96, 16, 4, .u 4, .ro, .const 0, .any, .tile, 2⟩,
   ⟨"EYE_CMD", 0x1002, 16, 96, 1, 1, .octets 16, .wo, .const 0, .any, .tile, 2⟩,
   ⟨"EYE_STATE", 0x1002, 16, 96, 2, 1, .u 1, .ro, .const 0, .any, .tile, 2⟩,
   ⟨"EYE_RESULT", 0x1002, 16, 96, 3, 1, .u 1, .ro, .const 0, .any, .tile, 2⟩,
   ⟨"EYE_RECORD", 0x1002, 16, 96, 4, 1, .octets 16416, .ro, .const 0, .any, .tile, 2⟩,
   ⟨"ISOLATE", 0x1810, 1, 4, 1, 1, .bool, .rw, .const 0, .rng 0 1, .hub, 2⟩,
   ⟨"HEALTHY", 0x1810, 1, 4, 2, 1, .bool, .ro, .const 0, .any, .hub, 2⟩,
   ⟨"RETRAIN_NOW", 0x1810, 1, 4, 3, 1, .bool, .wo, .const 0, .rng 1 1, .hub, 2⟩,
   ⟨"RETRAINS", 0x1810, 1, 4, 4, 1, .u 4, .ro, .const 0, .any, .hub, 2⟩,
   ⟨"LEAK_RETRAINS", 0x1810, 1, 4, 5, 1, .u 4, .ro, .const 0, .any, .hub, 2⟩,
   ⟨"SHORTFALL_UP", 0x1810, 1, 4, 6, 1, .u 1, .ro, .const 0, .any, .hub, 2⟩,
   ⟨"SHORTFALL_DN", 0x1810, 1, 4, 7, 1, .u 1, .ro, .const 0, .any, .hub, 2⟩,
   ⟨"UNITS_REPLAYED", 0x1810, 1, 4, 8, 1, .u 8, .ro, .const 0, .any, .hub, 2⟩,
   ⟨"CRC_ERRORS", 0x1810, 1, 4, 9, 1, .u 8, .ro, .const 0, .any, .hub, 2⟩,
   ⟨"DUP_DISCARDS", 0x1810, 1, 4, 10, 1, .u 8, .ro, .const 0, .any, .hub, 2⟩,
   ⟨"HOLD_TICKS", 0x1810, 1, 4, 11, 1, .u 8, .ro, .const 0, .any, .hub, 2⟩,
   ⟨"REORDER_HIGH_WATER", 0x1810, 1, 4, 12, 1, .u 2, .ro, .const 0, .any, .hub, 2⟩,
   ⟨"CYCLE_STEP", 0x1810, 1, 4, 13, 1, .i32, .ro, .const 0, .any, .hub, 2⟩,
   ⟨"STRAND_STATUS", 0x1810, 1, 4, 16, 18, .u 4, .ro, .const 0, .any, .hub, 2⟩,
   ⟨"SLICE_CMD", 0x3000, 1, 1, 1, 1, .octets 64, .wo, .const 0, .any, .hub, 2⟩,
   ⟨"SLICE_STATE", 0x3000, 1, 1, 2, 1, .u 1, .ro, .const 0, .any, .hub, 2⟩,
   ⟨"SLICE_RESULT", 0x3000, 1, 1, 3, 1, .u 1, .ro, .const 0, .any, .hub, 2⟩,
   ⟨"SLICE_TAG", 0x3000, 1, 1, 4, 1, .u 2, .ro, .const 0, .any, .hub, 2⟩,
   ⟨"SLICES_IN_USE", 0x3000, 1, 1, 5, 1, .u 2, .ro, .const 0, .any, .hub, 2⟩,
   ⟨"DESC_ENTRIES_FREE", 0x3000, 1, 1, 6, 1, .u 4, .ro, .const 131072, .any, .hub, 2⟩,
   ⟨"QUEUES_FREE", 0x3000, 1, 1, 7, 1, .u 2, .ro, .const 4096, .any, .hub, 2⟩,
   ⟨"EVAC_CMD", 0x3000, 1, 1, 8, 1, .octets 16, .wo, .const 0, .any, .hub, 2⟩,
   ⟨"EVAC_STATE", 0x3000, 1, 1, 9, 1, .u 1, .ro, .const 0, .any, .hub, 2⟩,
   ⟨"EVAC_RESULT", 0x3000, 1, 1, 10, 1, .u 1, .ro, .const 0, .any, .hub, 2⟩,
   ⟨"EVAC_DONE_EXTENTS", 0x3000, 1, 1, 11, 1, .u 2, .ro, .const 0, .any, .hub, 2⟩]

/-- Part 6 of the object tables, in the order of the chapters. -/
def odRows6 : List OdRow :=
  [⟨"EVAC_TAG", 0x3000, 1, 1, 12, 1, .u 2, .ro, .const 0, .any, .hub, 2⟩,
   ⟨"SLICE_SEL", 0x3000, 1, 1, 16, 1, .u 2, .rw, .const 0, .rng 0 2047, .hub, 2⟩,
   ⟨"SEL_STATE", 0x3000, 1, 1, 17, 1, .u 1, .ro, .const 0, .any, .hub, 2⟩,
   ⟨"SEL_OWNER", 0x3000, 1, 1, 18, 1, .u 4, .ro, .const 0, .any, .hub, 2⟩,
   ⟨"SEL_PENDING", 0x3000, 1, 1, 19, 1, .u 2, .ro, .const 0, .any, .hub, 2⟩,
   ⟨"SEL_BYTES", 0x3000, 1, 1, 20, 1, .u 8, .ro, .const 0, .any, .hub, 2⟩,
   ⟨"SEL_FAULTS", 0x3000, 1, 1, 21, 1, .u 4, .ro, .const 0, .any, .hub, 2⟩,
   ⟨"PORTAL_DISCARDS", 0x3000, 1, 1, 22, 1, .u 4, .ro, .const 0, .any, .hub, 2⟩,
   ⟨"RING_GAP_BYTES", 0x3000, 1, 1, 23, 1, .u 8, .ro, .const 0, .any, .hub, 2⟩,
   ⟨"ENG_BYTES", 0x3010, 1, 16, 1, 1, .u 8, .ro, .const 0, .any, .hub, 2⟩,
   ⟨"ENG_SLICES", 0x3010, 1, 16, 2, 1, .u 2, .ro, .const 0, .any, .hub, 2⟩,
   ⟨"ENG_RINGS", 0x3010, 1, 16, 3, 1, .u 1, .ro, .const 0, .any, .hub, 2⟩,
   ⟨"ENG_READS_HIGH_WATER", 0x3010, 1, 16, 4, 1, .u 2, .ro, .const 0, .any, .hub, 2⟩,
   ⟨"ENG_PREEMPTS", 0x3010, 1, 16, 5, 1, .u 8, .ro, .const 0, .any, .hub, 2⟩,
   ⟨"ENG_FAULTS", 0x3010, 1, 16, 6, 1, .u 4, .ro, .const 0, .any, .hub, 2⟩,
   ⟨"GUARD_EPOCH", 0x3800, 1, 1, 1, 1, .u 4, .ro, .const 0, .any, .hub, 2⟩,
   ⟨"FM_HOST", 0x3800, 1, 1, 2, 1, .u 1, .rws, .const 255, .rngOr 63 255, .hub, 2⟩,
   ⟨"GUARD_PUBLISH", 0x3800, 1, 1, 3, 1, .bool, .wo, .const 0, .rng 1 1, .hub, 2⟩,
   ⟨"PUBLISH_STATE", 0x3800, 1, 1, 4, 1, .u 1, .ro, .const 0, .any, .hub, 2⟩,
   ⟨"PUBLISH_REFUSAL", 0x3800, 1, 1, 5, 1, .u 1, .ro, .const 0, .any, .hub, 2⟩,
   ⟨"GUARD_SYNC", 0x3800, 1, 1, 6, 1, .bool, .wo, .const 0, .rng 1 1, .hub, 2⟩,
   ⟨"SYNC_STATE", 0x3800, 1, 1, 7, 1, .u 1, .ro, .const 0, .any, .hub, 2⟩,
   ⟨"SYNC_EPOCH", 0x3800, 1, 1, 8, 1, .u 4, .ro, .const 0, .any, .hub, 2⟩,
   ⟨"SYNC_TIMEOUT", 0x3800, 1, 1, 9, 1, .u 4, .rws, .const 100000, .rng 100 10000000, .hub, 2⟩,
   ⟨"OLDER_ACCESSES", 0x3800, 1, 1, 10, 1, .u 4, .ro, .const 0, .any, .hub, 2⟩,
   ⟨"TAG_CMD", 0x3800, 1, 1, 16, 1, .octets 16, .wo, .const 0, .any, .hub, 2⟩,
   ⟨"TAG_CMD_STATE", 0x3800, 1, 1, 17, 1, .u 1, .ro, .const 0, .any, .hub, 2⟩,
   ⟨"TAG_RESULT", 0x3800, 1, 1, 18, 1, .u 1, .ro, .const 0, .any, .hub, 2⟩,
   ⟨"TAG_CMD_TAG", 0x3800, 1, 1, 19, 1, .u 2, .ro, .const 0, .any, .hub, 2⟩,
   ⟨"TAGCACHE_MISSES", 0x3800, 1, 1, 20, 1, .u 8, .ro, .const 0, .any, .hub, 2⟩,
   ⟨"TAG_LOST_GRANULES", 0x3800, 1, 1, 21, 1, .u 4, .ro, .const 0, .any, .hub, 2⟩,
   ⟨"SLICE_RGN_CMD", 0x3800, 1, 1, 32, 1, .octets 24, .wo, .const 0, .any, .hub, 2⟩,
   ⟨"RGN_RESULT", 0x3800, 1, 1, 33, 1, .u 1, .ro, .const 0, .any, .hub, 2⟩,
   ⟨"REGION", 0x3810, 1, 96, 1, 16, .octets 16, .rws, .const 0, .region, .hub, 2⟩,
   ⟨"GUARD_ENABLE", 0x3810, 1, 96, 17, 1, .bool, .rws, .const 0, .rng 0 1, .hub, 2⟩,
   ⟨"GUARD_FAULTS", 0x100D, 16, 96, 1, 1, .u 8, .ro, .const 0, .any, .tile, 2⟩,
   ⟨"TAG_FAULTS", 0x100D, 16, 96, 2, 1, .u 8, .ro, .const 0, .any, .tile, 2⟩,
   ⟨"TAG_WAITS", 0x100D, 16, 96, 3, 1, .u 8, .ro, .const 0, .any, .tile, 2⟩,
   ⟨"TAG_ENABLE", 0x3880, 1, 64, 1, 1, .bool, .rws, .const 0, .rng 0 1, .hub, 2⟩,
   ⟨"TAG_OFFSET", 0x3880, 1, 64, 2, 1, .u 8, .rws, .const 0, .mult 67108864 18446744073709551615, .hub, 2⟩]

/-- Part 7 of the object tables, in the order of the chapters. -/
def odRows7 : List OdRow :=
  [⟨"TAG_STATE", 0x3880, 1, 64, 3, 1, .u 1, .ro, .const 0, .any, .hub, 2⟩,
   ⟨"VBUS_A_MV", 0x5000, 1, 1, 1, 1, .u 4, .ro, .const 0, .any, .island, 2⟩,
   ⟨"VBUS_B_MV", 0x5000, 1, 1, 2, 1, .u 4, .ro, .const 0, .any, .island, 2⟩,
   ⟨"VBUS_WARN_LEVEL", 0x5000, 1, 1, 3, 1, .u 4, .rws, .const 38000, .rng 32000 60000, .island, 2⟩,
   ⟨"GPF_ENABLE", 0x5000, 1, 1, 4, 1, .bool, .rws, .const 1, .rng 0 1, .island, 2⟩,
   ⟨"GPF_HOST_WAIT", 0x5000, 1, 1, 5, 1, .u 4, .rws, .const 500, .rng 10 100000, .island, 2⟩,
   ⟨"WARN_STATE", 0x5000, 1, 1, 6, 1, .u 1, .ro, .const 0, .any, .island, 2⟩,
   ⟨"POWER_WARNINGS", 0x5000, 1, 1, 7, 1, .u 4, .ro, .const 0, .any, .island, 2⟩,
   ⟨"FEED_A_MV", 0x5000, 1, 1, 8, 1, .u 4, .ro, .const 0, .any, .island, 2⟩,
   ⟨"FEED_B_MV", 0x5000, 1, 1, 9, 1, .u 4, .ro, .const 0, .any, .island, 2⟩,
   ⟨"VBUS_ORING", 0x5000, 1, 1, 10, 1, .u 4, .ro, .const 0, .any, .island, 2⟩,
   ⟨"HK_MW", 0x5000, 1, 1, 11, 1, .u 4, .ro, .const 0, .any, .island, 2⟩,
   ⟨"SLOT_REFUSAL", 0x5000, 1, 1, 12, 1, .u 1, .ro, .const 0, .any, .island, 2⟩,
   ⟨"RAIL_RETRY_MAX", 0x5001, 1, 1, 1, 1, .u 1, .rws, .const 3, .rng 0 10, .island, 2⟩,
   ⟨"RAIL_RESTART", 0x5001, 1, 1, 2, 1, .bool, .wo, .const 0, .rng 1 1, .island, 2⟩,
   ⟨"RAIL_SEQ_STATE", 0x5001, 1, 1, 3, 1, .u 1, .ro, .const 0, .any, .island, 2⟩,
   ⟨"RAIL_ADDR", 0x5002, 1, 4, 1, 1, .u 1, .rws, .plusIx 0x40, .rng 8 119, .island, 2⟩,
   ⟨"RAIL_TRIM_MV", 0x5002, 1, 4, 2, 1, .i32, .rws, .const 0, .srng 30 30, .island, 2⟩,
   ⟨"RAIL_STATE", 0x5002, 1, 4, 3, 1, .u 1, .ro, .const 0, .any, .island, 2⟩,
   ⟨"RAIL_VOUT_MV", 0x5002, 1, 4, 4, 1, .u 4, .ro, .const 0, .any, .island, 2⟩,
   ⟨"RAIL_IOUT_MA", 0x5002, 1, 4, 5, 1, .u 4, .ro, .const 0, .any, .island, 2⟩,
   ⟨"RAIL_TEMP_MC", 0x5002, 1, 4, 6, 1, .i32, .ro, .const 0, .any, .island, 2⟩,
   ⟨"RAIL_FAULTS", 0x5002, 1, 4, 7, 1, .u 4, .ro, .const 0, .any, .island, 2⟩,
   ⟨"RAIL_STATUS", 0x5002, 1, 4, 8, 1, .u 2, .ro, .const 0, .any, .island, 2⟩,
   ⟨"SLOT_CMD", 0x5010, 1, 24, 1, 1, .u 1, .wo, .const 0, .rng 0 1, .companion, 2⟩,
   ⟨"SLOT_STATE", 0x5010, 1, 24, 2, 1, .u 1, .ro, .const 0, .any, .companion, 2⟩,
   ⟨"LIMIT_MA", 0x5010, 1, 24, 3, 1, .u 4, .rws, .const 3000, .rng 1000 20000, .companion, 2⟩,
   ⟨"SHUNT_UOHM", 0x5010, 1, 24, 4, 1, .u 4, .rws, .const 2000, .rng 250 10000, .companion, 2⟩,
   ⟨"RAMP_RATE", 0x5010, 1, 24, 5, 1, .u 2, .rws, .const 4000, .rng 500 20000, .companion, 2⟩,
   ⟨"RAMP_TIMEOUT", 0x5010, 1, 24, 6, 1, .u 2, .rws, .const 40, .rng 5 200, .companion, 2⟩,
   ⟨"FAULT_TIME", 0x5010, 1, 24, 7, 1, .u 4, .rws, .const 2000, .rng 100 50000, .companion, 2⟩,
   ⟨"WARN_LEVEL", 0x5010, 1, 24, 8, 1, .u 4, .rws, .const 38000, .rng 32000 60000, .companion, 2⟩,
   ⟨"UV_OFF", 0x5010, 1, 24, 9, 1, .u 4, .rws, .const 33000, .rng 30000 35000, .companion, 2⟩,
   ⟨"DSCHG_TIME", 0x5010, 1, 24, 10, 1, .u 2, .rws, .const 50, .rng 5 500, .companion, 2⟩,
   ⟨"PRSNT_IGNORE", 0x5010, 1, 24, 11, 1, .bool, .rws, .const 0, .rng 0 1, .companion, 2⟩,
   ⟨"GPF_ON_WARN", 0x5010, 1, 24, 12, 1, .bool, .rws, .const 1, .rng 0 1, .companion, 2⟩,
   ⟨"SLOT_PWR_LIMIT_W", 0x5010, 1, 24, 13, 1, .u 2, .rws, .const 150, .rng 0 1500, .companion, 2⟩,
   ⟨"FORCE_OFF", 0x5010, 1, 24, 14, 1, .bool, .wo, .const 0, .rng 1 1, .companion, 2⟩,
   ⟨"CHAN_RESET", 0x5010, 1, 24, 15, 1, .bool, .wo, .const 0, .rng 1 1, .companion, 2⟩,
   ⟨"LOCKOUT_CLEAR", 0x5010, 1, 24, 16, 1, .bool, .wo, .const 0, .rng 1 1, .companion, 1⟩]

/-- Part 8 of the object tables, in the order of the chapters. -/
def odRows8 : List OdRow :=
  [⟨"AUTO_ON", 0x5010, 1, 24, 17, 1, .bool, .rws, .const 0, .rng 0 1, .companion, 2⟩,
   ⟨"V_OUT_MV", 0x5010, 1, 24, 18, 1, .u 4, .ro, .const 0, .any, .companion, 2⟩,
   ⟨"V_NODE_MV", 0x5010, 1, 24, 19, 1, .u 4, .ro, .const 0, .any, .companion, 2⟩,
   ⟨"I_OUT_MA", 0x5010, 1, 24, 20, 1, .u 4, .ro, .const 0, .any, .companion, 2⟩,
   ⟨"SLOT_FLAGS", 0x5010, 1, 24, 21, 1, .u 4, .ro, .const 0, .any, .companion, 2⟩,
   ⟨"LAST_CAUSE", 0x5010, 1, 24, 22, 1, .u 1, .ro, .const 0, .any, .companion, 2⟩,
   ⟨"TRIPS", 0x5010, 1, 24, 23, 1, .u 4, .ro, .const 0, .any, .companion, 2⟩,
   ⟨"SWITCHOVERS", 0x5010, 1, 24, 24, 1, .u 4, .ro, .const 0, .any, .companion, 2⟩,
   ⟨"CMD_REFUSAL", 0x5010, 1, 24, 25, 1, .u 1, .ro, .const 0, .any, .companion, 2⟩,
   ⟨"EVT_STATUS", 0x4000, 1, 640, 1, 1, .u 4, .ro, .const 0, .any, .event, 2⟩,
   ⟨"EVT_ACK", 0x4000, 1, 640, 2, 1, .bool, .wo, .const 0, .rng 1 1, .event, 2⟩,
   ⟨"EVT_CLEAR", 0x4000, 1, 640, 3, 1, .bool, .wo, .const 0, .rng 1 1, .event, 2⟩,
   ⟨"EVT_COUNT", 0x4000, 1, 640, 4, 1, .u 4, .ro, .const 0, .any, .event, 2⟩,
   ⟨"EVT_RECORD", 0x4000, 1, 640, 5, 1, .octets 32, .ro, .const 0, .any, .event, 2⟩,
   ⟨"EVT_ROUTE", 0x4000, 1, 640, 6, 1, .u 4, .rws, .const 7, .bits 0x3F07, .event, 2⟩,
   ⟨"ESC_TICKS", 0x4000, 1, 640, 7, 1, .u 2, .rws, .const 100, .rng 10 65535, .event, 2⟩,
   ⟨"ESC_CEIL", 0x4000, 1, 640, 8, 1, .u 1, .rws, .const 33, .nibbles 2 1 4, .event, 2⟩,
   ⟨"EVT_INJ", 0x4000, 1, 640, 9, 1, .u 4, .rw, .const 0, .any, .event, 2⟩,
   ⟨"EMCY_DROPPED", 0x424C, 1, 1, 16, 1, .u 4, .ro, .const 0, .any, .island, 2⟩,
   ⟨"SAFE_STATE", 0x424D, 1, 1, 16, 1, .bool, .ro, .const 0, .any, .island, 2⟩,
   ⟨"SAFE_EXIT", 0x424D, 1, 1, 17, 1, .bool, .wo, .const 0, .rng 1 1, .island, 2⟩,
   ⟨"HUB_FATAL_ACTION", 0x424D, 1, 1, 18, 1, .u 1, .rws, .const 0, .rng 0 1, .island, 2⟩,
   ⟨"FATAL_RESTART_MAX", 0x424D, 1, 1, 19, 1, .u 1, .rws, .const 3, .rng 0 10, .island, 2⟩,
   ⟨"VENDOR", 0x0100, 1, 1, 1, 1, .string 16, .ro, .const 111524755437907, .any, .island, 2⟩,
   ⟨"PRODUCT", 0x0100, 1, 1, 2, 1, .string 16, .ro, .const 14130056816052299, .any, .island, 2⟩,
   ⟨"SERIAL", 0x0100, 1, 1, 3, 1, .u 8, .ro, .const 0, .any, .island, 2⟩,
   ⟨"PCI_VENDOR", 0x0100, 1, 1, 4, 1, .u 2, .ro, .const 7546, .any, .island, 2⟩,
   ⟨"PCI_DEVICE", 0x0100, 1, 1, 5, 1, .u 2, .ro, .const 38450, .any, .island, 2⟩,
   ⟨"STEPPING", 0x0100, 1, 1, 6, 1, .u 1, .ro, .const 16, .any, .island, 2⟩,
   ⟨"UPTIME", 0x0100, 1, 1, 7, 1, .u 8, .ro, .const 0, .any, .island, 2⟩,
   ⟨"FEAT_DEVICE", 0x0101, 1, 1, 1, 1, .u 8, .ro, .const 2047, .any, .island, 2⟩,
   ⟨"FEAT_REQUEST", 0x0101, 1, 1, 2, 1, .u 8, .wo, .const 0, .any, .island, 2⟩,
   ⟨"FEAT_SESSION", 0x0101, 1, 1, 3, 1, .u 8, .ro, .const 1, .any, .island, 2⟩,
   ⟨"SESSION_ROLE", 0x0102, 1, 1, 1, 1, .u 1, .ro, .const 0, .any, .island, 2⟩,
   ⟨"SESSION_ID", 0x0102, 1, 1, 2, 1, .u 4, .ro, .const 0, .any, .island, 2⟩,
   ⟨"SESSIONS_OPEN", 0x0102, 1, 1, 3, 1, .u 1, .ro, .const 0, .any, .island, 2⟩,
   ⟨"SESSION_IDLE", 0x0102, 1, 1, 4, 1, .u 4, .rw, .const 60, .rng 10 3600, .island, 2⟩,
   ⟨"DRAFT_VIEW", 0x0102, 1, 1, 5, 1, .bool, .rw, .const 0, .rng 0 1, .island, 2⟩,
   ⟨"NODE_ADDR", 0x0110, 1, 1, 1, 1, .u 1, .ro, .const 0, .any, .island, 2⟩,
   ⟨"ADDR_MODE", 0x0110, 1, 1, 2, 1, .u 1, .ro, .const 0, .any, .island, 2⟩]

/-- Part 9 of the object tables, in the order of the chapters. -/
def odRows9 : List OdRow :=
  [⟨"GA_PINS", 0x0110, 1, 1, 3, 1, .u 1, .ro, .const 0, .any, .island, 2⟩,
   ⟨"CAN_STATE", 0x0110, 1, 1, 4, 1, .u 1, .ro, .const 0, .any, .island, 2⟩,
   ⟨"TEC", 0x0110, 1, 1, 5, 1, .u 1, .ro, .const 0, .any, .island, 2⟩,
   ⟨"REC", 0x0110, 1, 1, 6, 1, .u 1, .ro, .const 0, .any, .island, 2⟩,
   ⟨"BUS_OFFS", 0x0110, 1, 1, 7, 1, .u 4, .ro, .const 0, .any, .island, 2⟩,
   ⟨"FRAMES_RX", 0x0110, 1, 1, 8, 1, .u 8, .ro, .const 0, .any, .island, 2⟩,
   ⟨"FRAMES_TX", 0x0110, 1, 1, 9, 1, .u 8, .ro, .const 0, .any, .island, 2⟩,
   ⟨"ABORTS_SENT", 0x0110, 1, 1, 10, 1, .u 4, .ro, .const 0, .any, .island, 2⟩,
   ⟨"NTF_OBJECT", 0x0120, 1, 32, 1, 1, .u 4, .rw, .const 0, .any, .island, 2⟩,
   ⟨"NTF_DEST", 0x0120, 1, 32, 2, 1, .u 1, .rw, .const 1, .rng 1 127, .island, 2⟩,
   ⟨"NTF_PERIOD", 0x0120, 1, 32, 3, 1, .u 4, .rw, .const 1000, .rng 1 60000, .island, 2⟩,
   ⟨"NTF_ON_CHANGE", 0x0120, 1, 32, 4, 1, .bool, .rw, .const 1, .rng 0 1, .island, 2⟩,
   ⟨"GEN_ACTIVE", 0x0300, 1, 1, 1, 1, .u 4, .ro, .const 0, .any, .island, 2⟩,
   ⟨"GEN_STATE", 0x0300, 1, 1, 2, 1, .u 1, .ro, .const 0, .any, .island, 2⟩,
   ⟨"GEN_PREV", 0x0300, 1, 1, 3, 1, .u 4, .ro, .const 0, .any, .island, 2⟩,
   ⟨"DRAFT_STATE", 0x0300, 1, 1, 4, 1, .u 1, .ro, .const 0, .any, .island, 2⟩,
   ⟨"DRAFT_OWNER", 0x0300, 1, 1, 5, 1, .u 4, .ro, .const 0, .any, .island, 2⟩,
   ⟨"DRAFT_CHANGES", 0x0300, 1, 1, 6, 1, .u 2, .ro, .const 0, .any, .island, 2⟩,
   ⟨"GEN_COMMIT", 0x0300, 1, 1, 7, 1, .bool, .wo, .const 0, .rng 1 1, .island, 2⟩,
   ⟨"GEN_CONFIRM", 0x0300, 1, 1, 8, 1, .bool, .wo, .const 0, .rng 1 1, .island, 2⟩,
   ⟨"GEN_ROLLBACK", 0x0300, 1, 1, 9, 1, .bool, .wo, .const 0, .rng 1 1, .island, 2⟩,
   ⟨"DRAFT_DISCARD", 0x0300, 1, 1, 10, 1, .bool, .wo, .const 0, .rng 1 1, .island, 2⟩,
   ⟨"CONFIRM_TIME", 0x0300, 1, 1, 11, 1, .u 4, .rw, .const 30000, .rng 1000 3600000, .island, 2⟩,
   ⟨"DRAFT_IDLE", 0x0300, 1, 1, 12, 1, .u 4, .rw, .const 300, .rng 10 86400, .island, 2⟩,
   ⟨"GEN_CT", 0x0300, 1, 1, 13, 1, .u 8, .ro, .const 0, .any, .island, 2⟩,
   ⟨"GEN_LAST_ABORT", 0x0300, 1, 1, 14, 1, .u 2, .ro, .const 0, .any, .island, 2⟩,
   ⟨"GEN_ROLLBACKS", 0x0300, 1, 1, 15, 1, .u 4, .ro, .const 0, .any, .island, 2⟩,
   ⟨"PREV_KEPT", 0x0300, 1, 1, 16, 1, .bool, .ro, .const 0, .any, .island, 2⟩,
   ⟨"LC_STATE", 0x0200, 1, 1, 1, 1, .u 1, .ro, .const 0, .any, .island, 2⟩,
   ⟨"LC_ADVANCE", 0x0200, 1, 1, 2, 1, .u 1, .wo, .const 0, .rng 1 2, .island, 2⟩,
   ⟨"LC_CHALLENGE", 0x0200, 1, 1, 3, 1, .octets 32, .ro, .const 0, .any, .island, 2⟩,
   ⟨"LC_TOKEN", 0x0200, 1, 1, 4, 1, .octets 3088, .wo, .const 0, .any, .island, 2⟩,
   ⟨"LC_SCRAP", 0x0200, 1, 1, 5, 1, .u 8, .wo, .const 0, .any, .island, 2⟩,
   ⟨"LC_REFUSAL", 0x0200, 1, 1, 6, 1, .u 1, .ro, .const 0, .any, .island, 2⟩,
   ⟨"VROOT", 0x0200, 1, 1, 7, 1, .u 4, .ro, .const 0, .any, .island, 2⟩,
   ⟨"VROOT_REVOKE0", 0x0200, 1, 1, 8, 1, .bool, .wo, .const 0, .rng 1 1, .island, 2⟩,
   ⟨"JTAG_OPEN", 0x0200, 1, 1, 9, 1, .bool, .wo, .const 0, .rng 1 1, .island, 2⟩,
   ⟨"LC_FLAGS", 0x0200, 1, 1, 10, 1, .u 4, .ro, .const 0, .any, .island, 2⟩,
   ⟨"AUTH_CHALLENGE", 0x0210, 1, 1, 1, 1, .octets 32, .ro, .const 0, .any, .island, 2⟩,
   ⟨"AUTH_RESPONSE", 0x0210, 1, 1, 2, 1, .octets 3088, .wo, .const 0, .any, .island, 2⟩]

/-- Part 10 of the object tables, in the order of the chapters. -/
def odRows10 : List OdRow :=
  [⟨"AUTH_FAILURES", 0x0210, 1, 1, 3, 1, .u 4, .ro, .const 0, .any, .island, 2⟩,
   ⟨"CUST_KEY_HASH", 0x0210, 1, 1, 4, 1, .octets 32, .rw, .const 0, .any, .island, 2⟩,
   ⟨"ATTEST_NONCE", 0x0220, 1, 1, 1, 1, .octets 32, .wo, .const 0, .any, .island, 2⟩,
   ⟨"ATTEST_STATE", 0x0220, 1, 1, 2, 1, .u 1, .ro, .const 0, .any, .island, 2⟩,
   ⟨"ATTEST_REPORT", 0x0220, 1, 1, 3, 1, .octets 3636, .ro, .const 0, .any, .island, 2⟩,
   ⟨"DEVKEY_PUB", 0x0220, 1, 1, 4, 1, .octets 60, .ro, .const 0, .any, .island, 2⟩,
   ⟨"DEVKEY_CERT", 0x0220, 1, 1, 5, 1, .octets 3092, .rw, .const 0, .any, .island, 2⟩,
   ⟨"DEVKEY_GEN", 0x0220, 1, 1, 6, 1, .bool, .wo, .const 0, .rng 1 1, .island, 3⟩,
   ⟨"SIG_NEXT", 0x0220, 1, 1, 7, 1, .u 4, .ro, .const 0, .any, .island, 2⟩,
   ⟨"SIG_LEFT", 0x0220, 1, 1, 8, 1, .u 4, .ro, .const 33554432, .any, .island, 2⟩,
   ⟨"FW_INSTALL", 0x6000, 1, 1, 1, 1, .u 1, .wo, .const 0, .rng 1 255, .island, 2⟩,
   ⟨"FW_STATE", 0x6000, 1, 1, 2, 1, .u 1, .ro, .const 0, .any, .island, 2⟩,
   ⟨"FW_RESULT", 0x6000, 1, 1, 3, 1, .u 1, .ro, .const 0, .any, .island, 2⟩,
   ⟨"FW_PART_NOW", 0x6000, 1, 1, 4, 1, .u 1, .ro, .const 0, .any, .island, 2⟩,
   ⟨"FW_REJECT", 0x6000, 1, 1, 5, 1, .bool, .wo, .const 0, .rng 1 1, .island, 2⟩,
   ⟨"FW_DISCARD", 0x6000, 1, 1, 6, 1, .u 1, .wo, .const 0, .rng 1 255, .island, 2⟩,
   ⟨"FW_FALLBACKS", 0x6000, 1, 1, 7, 1, .u 4, .ro, .const 0, .any, .island, 2⟩,
   ⟨"ACTIVE_VERSION", 0x6011, 1, 6, 1, 1, .u 4, .ro, .const 0, .any, .island, 2⟩,
   ⟨"ACTIVE_SV", 0x6011, 1, 6, 2, 1, .u 2, .ro, .const 0, .any, .island, 2⟩,
   ⟨"SV_FUSE", 0x6011, 1, 6, 3, 1, .u 1, .ro, .const 0, .any, .island, 2⟩,
   ⟨"PART_STATE", 0x6011, 1, 6, 4, 1, .u 1, .ro, .const 0, .any, .island, 2⟩,
   ⟨"STAGED_VERSION", 0x6011, 1, 6, 5, 1, .u 4, .ro, .const 0, .any, .island, 2⟩,
   ⟨"PREV_VERSION", 0x6011, 1, 6, 6, 1, .u 4, .ro, .const 0, .any, .island, 2⟩,
   ⟨"COMPAT", 0x6011, 1, 6, 7, 1, .octets 16, .ro, .const 0, .any, .island, 2⟩,
   ⟨"HDR_HASH", 0x6011, 1, 6, 8, 1, .octets 32, .ro, .const 0, .any, .island, 2⟩,
   ⟨"PROBATION_LEFT", 0x6011, 1, 6, 9, 1, .u 4, .ro, .const 0, .any, .island, 2⟩,
   ⟨"APPLET_VERSION", 0x6030, 1, 8, 1, 1, .u 4, .ro, .const 0, .any, .island, 2⟩,
   ⟨"APPLET_HASH", 0x6030, 1, 8, 2, 1, .octets 32, .ro, .const 0, .any, .island, 2⟩,
   ⟨"APPLET_STATE", 0x6030, 1, 8, 3, 1, .u 1, .ro, .const 0, .any, .island, 2⟩,
   ⟨"APPLET_REMOVE", 0x6030, 1, 8, 4, 1, .bool, .wo, .const 0, .rng 1 1, .island, 2⟩,
   ⟨"START_PHASE", 0x0150, 1, 1, 1, 1, .u 1, .ro, .const 0, .any, .island, 2⟩,
   ⟨"CORE_READY", 0x0150, 1, 1, 2, 1, .bool, .ro, .const 0, .any, .island, 2⟩,
   ⟨"T_CORE_READY", 0x0150, 1, 1, 3, 1, .u 4, .ro, .const 0, .any, .island, 2⟩,
   ⟨"T_PORTS_READY", 0x0150, 1, 1, 4, 1, .u 4, .ro, .const 0, .any, .island, 2⟩,
   ⟨"LAST_RESET", 0x0150, 1, 1, 5, 1, .u 1, .ro, .const 1, .any, .island, 2⟩,
   ⟨"POR_COUNT", 0x0150, 1, 1, 6, 1, .u 4, .ro, .const 0, .any, .island, 2⟩,
   ⟨"HUB_RESETS", 0x0150, 1, 1, 7, 1, .u 4, .ro, .const 0, .any, .island, 2⟩,
   ⟨"RESET_HUB", 0x0150, 1, 1, 8, 1, .bool, .wo, .const 0, .rng 1 1, .island, 2⟩,
   ⟨"RESET_HK", 0x0150, 1, 1, 9, 1, .bool, .wo, .const 0, .rng 1 1, .island, 2⟩,
   ⟨"IDCODE", 0x0150, 1, 1, 10, 1, .u 4, .ro, .const 0, .any, .island, 2⟩]

/-- Part 11 of the object tables, in the order of the chapters. -/
def odRows11 : List OdRow :=
  [⟨"TJ_HUB", 0x5008, 1, 1, 1, 1, .i32, .ro, .const 0, .any, .island, 2⟩,
   ⟨"TJ_TILE", 0x5008, 1, 1, 2, 4, .i32, .ro, .const 0, .any, .island, 2⟩,
   ⟨"TJ_SPC", 0x5008, 1, 1, 6, 2, .i32, .ro, .const 0, .any, .island, 2⟩,
   ⟨"TJ_WARN", 0x5008, 1, 1, 8, 1, .u 4, .rws, .const 118000, .rng 80000 123000, .island, 2⟩,
   ⟨"TJ_PEAK", 0x5008, 1, 1, 9, 1, .i32, .ro, .const 0, .any, .island, 2⟩,
   ⟨"THERM_SHUTDOWNS", 0x5008, 1, 1, 10, 1, .u 4, .ro, .const 0, .any, .island, 2⟩]

/-- Every object table of the spec. -/
def odTable : List OdRow :=
  odRows0 ++ odRows1 ++ odRows2 ++ odRows3 ++ odRows4 ++ odRows5 ++ odRows6 ++ odRows7 ++ odRows8 ++ odRows9 ++ odRows10 ++ odRows11

/-- The row covers the object `key`. -/
def OdRow.covers (r : OdRow) (key : Nat) : Bool :=
  let ix := key / 256
  let sb := key % 256
  decide (r.base ≤ ix) && decide ((ix - r.base) % r.stride = 0) && decide ((ix - r.base) / r.stride < r.count)
    && decide (r.sub ≤ sb) && decide (sb < r.sub + r.subs)

/-- The object's row, none where no chapter defines it (R486). -/
def odRow? (key : Nat) : Option OdRow := odTable.find? (·.covers key)

/-- The value an object of this row has where nothing else has been set: its Default column. -/
def OdRow.default (r : OdRow) (key : Nat) : Nat :=
  match r.dflt with
  | .const v => v
  | .plusIx v => v + (key / 256 - r.base) / r.stride

/-- An object's default; 0 for a key that is no object. -/
def odDefault (key : Nat) : Nat :=
  match odRow? key with
  | some r => r.default key
  | none => 0

/-- Bytes of a value of the type (R8). -/
def OdType.bytes : OdType → Nat
  | .u n => n
  | .i32 => 4
  | .bool => 1
  | .octets n => n
  | .string n => n

/-- Fit a value to the object's width: a counter wraps at its width. -/
def odFit (key v : Nat) : Nat :=
  match odRow? key with
  | some r => v % 2 ^ (8 * r.type.bytes)
  | none => v

end Sys2Proof.Machine
end

