-- ==== Sys2Proof/Machine/Blocks.lean ====
section
/-!
DEFINITION. The blocks that State is made of, chapter by chapter. Every field's default is its value after reset.
-/
namespace Sys2Proof.Machine

/-! ### Events (13_events_faults.md) -/

/-- What a clear lifted, kept through the FCLK cycle in which it was accepted: a fault of the block in that cycle wins, and
the clear counts as refused (R456). -/
structure Lifted where
  cls     : Nat
  step    : Nat
  cause   : Bool
  pending : Bool
  contain : Bool
  isolate : Bool
  ferValid : Bool
  timer   : Option Nat
deriving DecidableEq, Repr, Inhabited

/-- One event block: EVT_BLKnnn (R444), with the model's own marks of what the ladder has done. Codes are the
spec's: `cls` 0 none, 1 correctable, 2 contained, 3 fatal; `step` 0 to 4. -/
structure EvtBlock where
  pending     : Bool := false
  cls         : Nat := 0
  cause       : Bool := false
  requal      : Bool := false
  clrRefused  : Bool := false
  ferValid    : Bool := false
  more        : Bool := false
  unreach     : Bool := false
  step        : Nat := 0
  lastSyn     : Nat := 0
  count       : Nat := 0
  /-- ticks left; none while the timer is stopped (R452); when it started, in ps, and the tick that counted it last (R4) -/
  timer       : Option Nat := none
  timerAt     : Nat := 0
  counted     : Nat := 0
  /-- the first-error record, 256 bits (R446) -/
  fer         : Nat := 0
  /-- CHK, MODE, DONE, DENIED, BIT, BIT2, TWO as EVT_BLKnnn_INJ lays them out (R462) -/
  inj         : Nat := 0
  /-- the contain and isolate actions of R453 stand -/
  contain     : Bool := false
  isolate     : Bool := false
  /-- when the clear was accepted, in ps, and the tick it fell in (R451); what it lifted (R456) -/
  clearedAt   : Nat := 0
  clearedTick : Nat := 0
  lifted      : Option Lifted := none
  /-- raised, stepped or left its class since the last item 4 (R457): when first and when last, in ps -/
  changed     : Bool := false
  changedAt   : Nat := 0
  changeLast  : Nat := 0
  /-- bits of STAT that a hardware event set in the FCLK cycle of `hotAt` (R7); bit 3: a fault was raised -/
  hot         : Nat := 0
  hotAt       : Nat := 0
  /-- CT of the latest raise (R460) -/
  raiseCt     : Nat := 0
  /-- MASTER of the latest raise (R460) -/
  raiseMaster : Nat := 0
  /-- gathered by item 4: a delivery is owed (R457) -/
  owed        : Bool := false
deriving DecidableEq, Repr, Inhabited

/-- Events, delivery and the safe state (R440-R465). -/
structure Events where
  blk        : KMap EvtBlock := []
  /-- MSI-X table entries of both functions of a VCS's upstream port, and pending bits of vectors that are not open (R458, R461); keys
  as `msixKey` gives -/
  msix       : KMap Nat := []
  msixPend   : KMap Bool := []
  /-- emergency bodies queued, oldest first, at most 64 (R460) -/
  emcy       : List Nat := []
  /-- COUNT byte of emergency frames (R477) -/
  emcyCount  : Nat := 0
  safe       : Bool := false
  /-- times of hub fatal restarts, in ps, newest first (R454) -/
  restarts   : List Nat := []
deriving DecidableEq, Repr, Inhabited

/-! ### Management node (14_management.md) and blobs (R529, R530) -/

/-- A blob of a service-port session (R529, R530). -/
structure Blob where
  kind   : Nat
  total  : Nat
  crc    : Nat
  data   : List Byte := []
  /-- BLOB_STATUS state: 1 receiving, 2 verifying, 3 accepted, 4 refused -/
  state  : Nat := 1
  reason : Nat := 0
  lastAt : Nat := 0
deriving DecidableEq, Repr, Inhabited

/-- A management session (R466-R469). -/
structure Session where
  /-- the role of R508: 0 host scope, 1 operator, 2 integrator, 3 maker -/
  role      : Nat := 1
  /-- the role was gained by R523 -/
  gained    : Bool := false
  feat      : Nat := 1
  draftView : Bool := false
  /-- AUTH_CHALLENGE, 32 bytes -/
  challenge : Nat := 0
  attState  : Nat := 0
  attNonce  : Nat := 0
  attReport : Nat := 0
  /-- time of the last frame or request, in ps -/
  lastAt    : Nat := 0
  /-- SEQ of the last request and the kept response (R507) -/
  lastSeq   : Nat := 0
  kept      : Option (List Nat) := none
  blob      : Option Blob := none
deriving DecidableEq, Repr, Inhabited

/-- A segmented transfer with one peer (R476). -/
structure Seg where
  write   : Bool
  key     : Nat
  txn     : Nat
  size    : Nat
  crc     : Nat
  /-- write: bytes received in order; read: the snapshot still to send from the block's start -/
  data    : List Byte := []
  /-- write: last SEQ received in order in this block; read: last SEQ sent in this block -/
  seq     : Nat := 0
  last    : Bool := false
  /-- time of the last frame of the transfer, in ps -/
  lastAt  : Nat := 0
  /-- a SEG_ACK is owed (R476) -/
  ackDue  : Bool := false
deriving DecidableEq, Repr, Inhabited

/-- The CAN node's address machine (R478-R480). -/
inductive AddrPhase where
  | none | listening | held | retryWait
deriving DecidableEq, Repr, Inhabited

/-- Sessions, the CAN node, transfers and subscriptions. -/
structure Mgmt where
  sess       : KMap (Option Session) := []
  /-- number given to the last service-port session (R505) -/
  lastSvc    : Nat := 0
  phase      : AddrPhase := .none
  candidate  : Nat := 0
  /-- candidates contested in this round (R479) -/
  contested  : Nat := 0
  addrAt     : Nat := 0
  /-- GA[4:0] and GAP as the pins stand now -/
  gaPins     : Nat := 0x3F
  /-- the dynamic address kept in flash, 0 none -/
  savedAddr  : Nat := 0
  seg        : KMap (Option Seg) := []
  /-- subscription k: value last sent (R509) -/
  lastSent   : KMap (Option Nat) := []
  /-- mailbox response message limit per VCS (R500) -/
  respLimit  : KMap Nat := []
  /-- doorbell interrupt enabled in the Mailbox Control of a VCS (R499) -/
  doorbellInt : KMap Bool := []
  svcLinkUp  : Bool := false
  /-- frames the service port discarded (R504) and frames of illegal FUNC (R472) -/
  svcDiscard : Nat := 0
  badFunc    : Nat := 0
deriving DecidableEq, Repr, Inhabited

/-- Configuration generations (R491-R498): maps from object key to value. -/
structure Gen where
  active     : KMap Nat := []
  prev       : KMap Nat := []
  draft      : KMap Nat := []
  committed  : KMap Nat := []
  /-- kept in flash (R485, R497): contents, number, kept previous contents, its number, PREV_KEPT -/
  flash      : KMap Nat := []
  flashNum   : Nat := 0
  flashPrev  : KMap Nat := []
  flashPrevNum : Nat := 0
  flashKept  : Bool := false
  /-- objects staged in the draft -/
  staged     : List Nat := []
  commitDue  : Bool := false
  rollbackDue : Bool := false
  /-- number of the tick in which the commit or rollback became ready: it is published in a later one (R33, R496) -/
  readyTick  : Nat := 0
  confirmAt  : Nat := 0
  draftAt    : Nat := 0
  /-- a generation was published since the data path's latest release (R548) -/
  published  : Bool := false
  /-- contents of generations that were active before, by number: requests in flight end under theirs (R21) -/
  old        : KMap (Option (KMap Nat)) := []
  /-- when the active generation was published, in ps, and the number of the one before it (R32, R51) -/
  switched   : Option (Nat × Nat) := none
  /-- generation under which the present operation runs; none for the active one (R21) -/
  cur        : Option Nat := none
deriving DecidableEq, Repr, Inhabited

/-! ### Life cycle and firmware (15_lifecycle_firmware.md), start-up (16_startup_electrical.md) -/

/-- An image in a bank or slot (R524). -/
structure Image where
  part        : Nat := 0
  version     : Nat := 0
  sv          : Nat := 0
  lcMask      : Nat := 0x1F
  serialBind  : Nat := 0
  probationMs : Nat := 0
  compat      : List (Nat × Nat) := []
  hdrHash     : Nat := 0
  /-- the 512 header bytes of an applet (R542) -/
  hdr         : Nat := 0
  /-- payload of a ROOTKEY image, 64 bytes; 0 for the others -/
  payload     : Nat := 0
  /-- the bank passes R527 when the ROM reads it -/
  good        : Bool := true
deriving DecidableEq, Repr, Inhabited

/-- A firmware part with its two banks (R525). -/
structure Part where
  active    : Option Image := none
  other     : Option Image := none
  /-- the other bank holds a staged image, not the previous one -/
  staged    : Bool := false
  probEnd   : Option Nat := none
  confirmCt : Nat := 0
deriving DecidableEq, Repr, Inhabited

/-- Fuses (R512, R520, R528, R539). -/
structure Fuses where
  lc         : Nat := 0x03
  serial     : Nat := 1
  vroot0     : Option Nat := some 0
  vroot1     : Option Nat := none
  revoked0   : Bool := false
  /-- device key: public key, 60 bytes -/
  devPub     : Option Nat := none
  seedRead   : Bool := true
  trees      : Nat := 0
  /-- blown thermometer bits of part k at key k -/
  sv         : KMap Nat := []
deriving DecidableEq, Repr, Inhabited

/-- A signing-state record in flash (R539). -/
structure SigRec where
  seqNo : Nat
  t     : Nat
  limit : Nat
deriving DecidableEq, Repr, Inhabited

/-- Life cycle, keys, firmware. -/
structure Life where
  fuses      : Fuses := {}
  /-- JTAG_OPEN was accepted; by a maker session in RETURNED (R517) -/
  jtagScan   : Bool := false
  jtagDebug  : Bool := false
  /-- the TAP's instruction (R514) -/
  tap        : TapInstr := .idcode
  /-- the boundary register's latch, one cell per pin, in the order of R555 (R556) -/
  boundary   : BitVec 97 := 0
  eraseDone  : Bool := false
  lcChallenge : Nat := 0
  custKeyOk  : Bool := true
  cert       : Nat := 0
  certHeld   : Bool := false
  /-- signing (R539, R540) -/
  recA       : Option SigRec := none
  recB       : Option SigRec := none
  sigT       : Nat := 0
  sigB       : Nat := 0
  sigLimit   : Nat := 0
  sigOff     : Bool := false
  lastReport : Option Nat := none
  signing    : Option Nat := none
  /-- firmware -/
  parts      : KMap Part := []
  applets    : KMap (Option Image) := []
  /-- APPLET_STATE: 0 empty, 1 staged, 2 loaded, 3 stopped by fault -/
  appState   : KMap Nat := []
  rootkey    : Option Image := none
  /-- parts still to install, in order, and the part swapping now -/
  toInstall  : List Nat := []
  swapping   : Option Nat := none
  installAt  : Nat := 0
  /-- the service cores are held, and will restart with the image that is now active (R525) -/
  svcRestart : Bool := false
deriving DecidableEq, Repr, Inhabited

/-- Resets and the start-up (R547-R552), references (R29). -/
structure Startup where
  porHeld    : Bool := true
  hkHeld     : Bool := false
  hkPinLow   : Bool := false
  /-- hub warm reset is held; the causes that still stand, as codes of LAST_RESET (R550) -/
  hubIn      : Bool := false
  hubCauses  : List Nat := []
  /-- the data-path dies have been released since the last power-on or housekeeping reset -/
  released   : Bool := false
  /-- tiles held in reset by ISOLATE or by the ladder -/
  tileHeld   : KMap Bool := []
  /-- when each was last entered, in ps -/
  tileAt     : KMap Nat := []
  recovery   : Bool := false
  relAt      : Nat := 0
  refPresent : Bool := false
  holdover   : Bool := false
  thermal    : Bool := false
  /-- companions over temperature -/
  hotSpc     : KMap Bool := []
  warnTemp   : Bool := false
  faultN     : Bool := false
deriving DecidableEq, Repr, Inhabited

/-! ### Supply and slots (12_slot_power.md) -/

/-- Slot states (R410), with the spec's numbers as their order. -/
inductive SlotState where
  | off | ramp | on | tripped | supplyWait | lockout
deriving DecidableEq, Repr, Inhabited

/-- The self-test of a slot channel (R421). -/
inductive SelfTest where
  | none | running | passed | failed
deriving DecidableEq, Repr, Inhabited

/-- One slot (R409-R422, R430-R439). Times are in ps. -/
structure Slot where
  state      : SlotState := .off
  cmdOn      : Bool := false
  /-- an accepted on command waits in OFF for the output to fall below 2.5 V (R420) -/
  onWaits    : Bool := false
  timerOn    : Bool := false
  pg         : Bool := false
  warn       : Bool := false
  perst      : Bool := true
  /-- PERST_Nnn is to be released then (R260) -/
  perstAt    : Option Nat := none
  /-- a managed removal will command the slot off then (R261) -/
  offDueAt   : Option Nat := none
  prsntKnown : Bool := false
  prsnt      : Bool := false
  feedA      : Bool := false
  feedB      : Bool := false
  feedAGood  : Bool := false
  feedBGood  : Bool := false
  redLost    : Bool := false
  selftest   : SelfTest := .none
  discharging : Bool := false
  /-- the pass-FET watch runs (R419) -/
  watch      : Bool := false
  /-- a trip whose failure check is pending (R418): its cause -/
  tripCheck  : Nat := 0
  /-- when an off command last took the slot OFF, for the same-cycle rule of R422 -/
  offAt      : Option Nat := none
  /-- host-owned slot: Power Controller Control off must be written before on (R263, R430) -/
  hostLatch  : Bool := false
  /-- lockout record in flash (R421) -/
  lockRec    : Bool := false
  /-- the current stood above LIMIT_MA when last measured -/
  tripSeen   : Bool := false
  warnSeen   : Bool := false
  /-- when each was last set, in ps (R7) -/
  tripAt     : Nat := 0
  warnAt     : Nat := 0
  rampAt     : Nat := 0
  /-- RAMP_TIMEOUT in force at the entry to RAMP, in ms (R437) -/
  rampLim    : Nat := 0
  /-- start of the fault timer, in ps -/
  timerAt    : Nat := 0
  /-- AUTO_ON of R432 is still to be decided: presence was not known yet -/
  autoDue    : Bool := false
  enteredAt  : Nat := 0
deriving DecidableEq, Repr, Inhabited

/-- One input of VBUS (R403). -/
inductive OrFet where
  | off | conducting | offReverse | offOver
deriving DecidableEq, Repr, Inhabited

/-- One core rail (R406, R407). -/
structure Rail where
  /-- OPERATION on was the last command -/
  on        : Bool := false
  /-- started, not yet up -/
  startedAt : Nat := 0
  upAt      : Nat := 0
  offAt     : Nat := 0
  /-- times of its faults in ps, newest first -/
  faults    : List Nat := []
  asked     : Bool := false
  nacks     : Nat := 0
  /-- PMBus address and trim in mV that the latest sequencing took (R434) -/
  addr      : Nat := 0
  trim      : Int := 0
deriving DecidableEq, Repr, Inhabited

/-- Global persistent flush (R164, R428). -/
structure Gpf where
  running   : Bool := false
  startedAt : Nat := 0
  /-- hosts that have sent their own Phase 2 request; targets forwarded to; targets completed -/
  phase2    : List Nat := []
  forwarded : List Nat := []
  completed : List Nat := []
  waitOver  : Bool := false
  /-- when the timeouts of a target's port end, in ps (R428) -/
  limit     : KMap (Option Nat) := []
deriving DecidableEq, Repr, Inhabited

/-- A warning stamped in the open window (R426): asserted or cleared, its source (slot, 24 for VBUS), its stamp, CT_STATE then,
and whether it starts a flush (R428). -/
structure WarnEv where
  clear : Bool
  src   : Nat
  stamp : Nat
  state : Nat
  gpf   : Bool := false
deriving DecidableEq, Repr, Inhabited

/-- Supply, rails, slots, power warnings. -/
structure Power where
  slot      : KMap Slot := []
  inA       : OrFet := .off
  inB       : OrFet := .off
  /-- VBUS_OR fell through 33.0 V and has not recovered (R404) -/
  below33   : Bool := false
  vbusWarn  : Bool := false
  rail      : KMap Rail := []
  /-- the island is turning the rails off (R408) -/
  turningOff : Bool := false
  retryAt   : Option Nat := none
  /-- RAIL_RETRY_MAX as the latest sequencing took it (R434) -/
  retryMax  : Nat := 3
  dieRelAt  : Option Nat := none
  /-- when the open message-build window opened (R426) -/
  winAt     : Nat := 0
  /-- warnings of the open message-build window, oldest first (R426); slots that stand as sources (R424) -/
  win       : List WarnEv := []
  srcSlots  : Nat := 0
  warnSeq   : Nat := 0
  gpf       : Gpf := {}
  /-- event records the companions hold for the island while it is in reset (R432) -/
  spcHeld   : KMap (List (Nat × Nat)) := []
  spcOver   : KMap Nat := []
deriving DecidableEq, Repr, Inhabited

/-! ### Chassis time, triggers, freeze (05_chassis_time_triggers.md) -/

/-- A scheduled output pulse (R181): CT_AT, width, whether it has begun. -/
structure Pulse where
  at_   : Nat
  width : Nat
  begun : Bool := false
deriving DecidableEq, Repr, Inhabited

/-- One trigger line (R175). -/
structure Line where
  level     : Bool := false
  /-- when it was last stamped, in ps -/
  lastAt    : Nat := 0
  /-- end of the holdoff in ps, none when not held off -/
  holdEnd   : Option Nat := none
  pulses    : List Pulse := []
deriving DecidableEq, Repr, Inhabited

/-- A stamped edge waiting in the message-build window (R78). -/
structure WinEdge where
  line  : Nat
  rise  : Bool
  stamp : Nat
  state : Nat
deriving DecidableEq, Repr, Inhabited

/-- Chassis time, sync, lines and message building. -/
structure TimeSt where
  /-- FCLK cycles are 625 ps; start of the current tick in ps, its length L in cycles, CT at its boundary (R166) -/
  tickStart  : Nat := 0
  tickLen    : Nat := 1600
  ctBase     : Nat := 0
  /-- tick boundaries passed since power-on -/
  ticks      : Nat := 0
  /-- the tick engine's state check fails at the next boundary (R34) -/
  stateBad   : Bool := false
  /-- the current tick is an overrun: its items are skipped, item 7 among them (R34) -/
  overrun    : Bool := false
  /-- items of the current tick already published, 0 to 6 (R31, R32) -/
  item       : Nat := 6
  /-- a faulty engine starts only so many items in this tick, and its last one ends so many cycles after the tick (R34) -/
  slow       : Option (Nat × Nat) := none
  /-- cycles by which this tick's items start late (R34) -/
  late       : Nat := 0
  /-- CT has been loaded since the hatband's reset (R167) -/
  loaded     : Bool := false
  /-- REF100 has been present since the hatband's reset (R167) -/
  refSeen    : Bool := false
  /-- CT_LOAD waits for its load edge (R168) -/
  load       : Option Nat := none
  /-- when CT_LOAD was last accepted, in ps -/
  loadAt     : Nat := 0
  /-- first sync edge seen since the hatband's reset (R172) -/
  synced     : Bool := false
  /-- time of the last accepted sync edge in ps, and of the last sync edge or miss -/
  lastSync   : Nat := 0
  lastEdge   : Nat := 0
  /-- the latest far edges, newest first, at most two, each with whether it was used (R173): the phase error as it would be had
  the slew not moved the ticks -/
  far        : List (Int × Bool) := []
  /-- ps by which the slew has lengthened ticks since the hatband's reset (R173) -/
  slewed     : Int := 0
  /-- number of the tick boundary against which the last accepted sync edge was measured (R173) -/
  syncTick   : Nat := 0
  /-- a run without reference and sync was too long to tell whole sync periods apart (R173) -/
  unresolved : Bool := false
  /-- slewing: cycles still to add or take away, in ps; ticks since the last changed tick -/
  slewLeft   : Int := 0
  slewCount  : Nat := 0
  line       : KMap Line := []
  /-- edges collected in the open build window, oldest first, and its opening in ps -/
  win        : List WinEdge := []
  winAt      : Nat := 0
  msgSeq     : Nat := 0
  timeSeq    : Nat := 0
  /-- time messages that are due (R180) -/
  timeDue    : Nat := 0
  /-- those that were due before the latest boundary (R180, for a load at that boundary) -/
  timeWas    : Nat := 0
  /-- the 64 waiting places: messages waiting for tile broadcast slots, oldest first, with the tiles still to take
  each: tiles, code, payload (R178) -/
  waiting    : List (List Nat × Bcast) := []
  /-- the two places for power warnings: asserted and cleared (R178) -/
  warnWait   : List (List Nat × Bcast) := []
  /-- telemetry snapshot bank (R31 item 5) -/
  snapshot   : KMap Nat := []
  snapCt     : Nat := 0
  /-- since when FCLK has run without REF100, in ps; none while it runs from REF100 (R173) -/
  xtalSince  : Option Nat := some 0
deriving DecidableEq, Repr, Inhabited

/-- A window's freeze (R192-R200). -/
structure Freeze where
  we        : Bool := false
  /-- when it was armed, in ps (R195) -/
  armedAt   : Nat := 0
  point     : Option Nat := none
  /-- next line of the sweep -/
  sweep     : Nat := 0
  sweepOn   : Bool := false
  /-- shadow writes not acknowledged -/
  shadowOut : Nat := 0
deriving DecidableEq, Repr, Inhabited

/-! ### Cells, queues, plank (02_plank_switching.md) and scheduling (06_traffic_classes.md) -/

/-- What leaves the device. -/
inductive OutKind where
  /-- answer to an object access: session, transaction, abort, detail, size, value -/
  | answer
  /-- a CAN FD frame to dst: FUNC, SRC, TXN, then its data bytes -/
  | can
  /-- a service-port response: session, SEQ, OP, STATUS, then its payload -/
  | svc
  /-- a mailbox output: VCS, return code, then its payload -/
  | mailbox
  /-- a cell's payload leaves a port: port, class, source, SEQ -/
  | flit
  /-- a broadcast leaves a port: port, code, payload -/
  | bcast
  /-- an answer to a request: port, tag, requester, status, data -/
  | completion
  /-- a request goes to a memory target, end device or host: id, port, write, address, bytes, data -/
  | request
  /-- BISnp: host, window, line, kind -/
  | snoop
  /-- BIConflictAck: host, window, line -/
  | conflictAck
  /-- MSI-X: host, function, vector -/
  | msix
  /-- a CXL event record to a host: kind, fields -/
  | eventRecord
  /-- GPF to a memory target: phase, target -/
  | gpf
  /-- a PMBus command: rail, code, value -/
  | pmbus
  /-- the TAP: 0 the data register that was shifted out, 1 the pins that EXTEST drives -/
  | tap
  /-- AER or DPC message upstream: host, vPPB, code -/
  | aer
  /-- attention or other vPPB hot-plug interrupt: host, vPPB, status -/
  | hotplug
  /-- an answer to a CSR read: master or session, value -/
  | csr
  /-- a message to a target or card: Set_Slot_Power_Limit and the like -/
  | card
  /-- an answer of a capacity LD's mailbox: host, return code (R246) -/
  | ldMailbox
deriving DecidableEq, Repr, Inhabited

/-- One message that left the device. -/
structure Out where
  kind : OutKind
  dst  : Nat
  args : List Nat
deriving DecidableEq, Repr, Inhabited

/-- A cell waiting at the agent merge, with its flow (R208, R209). -/
structure MergeCell where
  flow : Nat
  cell : Cell
  /-- when its agent presented it, in ps (R212) -/
  since : Nat := 0
  /-- the (engine, host) flow of a data mover's cell, in whichever slot it is served (R209) -/
  own : Nat := 0
deriving DecidableEq, Repr, Inhabited

/-- A multicast store slot (R71, R72). -/
structure McSlot where
  cell : Cell
  refs : Nat
deriving DecidableEq, Repr, Inhabited

/-- A tile broadcast slot (R74). -/
structure BSlot where
  msg   : Bcast
  ports : List Nat
  /-- order of landing (R78) -/
  order : Nat := 0
deriving DecidableEq, Repr, Inhabited

/-- One flow of a fair-queueing scheduler (R208, R209). -/
structure Flow where
  start   : Nat := 0
  finish  : Nat := 0
  backlog : Nat := 0
deriving DecidableEq, Repr, Inhabited

/-- A flow scheduler or class level (R208). -/
structure Sched where
  v     : Nat := 0
  flows : KMap Flow := []
deriving DecidableEq, Repr, Inhabited

/-- A shaper pair's buckets, signed, in metered bytes (R219, R223). -/
structure Shaper where
  c    : Int := 0
  p    : Int := 0
  held : Bool := false
  live : Bool := false
deriving DecidableEq, Repr, Inhabited

/-- A policer's buckets, in metered bytes (R224). -/
structure Policer where
  tc : Int := 0
  tp : Int := 0
  live : Bool := false
deriving DecidableEq, Repr, Inhabited

/-- A flow being resequenced at an output (R68-R70): next SEQ and the cells held. `gone` are SEQs of its cells that a check
discarded on the way: no other cell waits for them (R40). -/
structure Reseq where
  next : Nat := 0
  gone : List Nat := []
  /-- the flow has been seen since the last reset -/
  live : Bool := false
  held : KMap (Option Cell) := []
deriving DecidableEq, Repr, Inhabited

/-- The cell path on the tiles and the hub. Queue keys: plank input or output * 4 + class number, or
(input * 96 + egress) * 4 + class for VOQs. -/
structure Plank where
  voq       : KMap (List Cell) := []
  /-- forwarding pointer per input and class (R41) -/
  fwdPtr    : KMap Nat := []
  landing   : KMap (List Cell) := []
  /-- cells of a VOQ forwarded and not yet granted, by VOQ key (R41) -/
  fwd       : KMap Nat := []
  egress    : KMap (List Cell) := []
  /-- matcher pointers gptr[o][c], aptr[i][c] (R53) -/
  gptr      : KMap Nat := []
  aptr      : KMap Nat := []
  /-- fulling store: (k * 96 + o) * 4 + class (R58) -/
  full      : KMap (Option Cell) := []
  pair      : Nat := 0
  inPtr     : KMap Nat := []
  outPtr    : KMap Nat := []
  /-- last cause of a mode change, PLK_MODE_STAT LAST_CAUSE; CONFLICT (R61) -/
  lastCause : Nat := 1
  /-- when the latest matcher self-test started, in ps (R451) -/
  selfAt    : Nat := 0
  conflict  : Bool := false
  /-- when the checker last fired, in ps (R7) -/
  conflictAt : Nat := 0
  /-- reorder credits in use: general and reserved per output and class (R68) -/
  reorder   : KMap Nat := []
  reorderR  : KMap Nat := []
  reseq     : KMap Reseq := []
  seqCtr    : KMap Nat := []
  rotate    : KMap Nat := []
  mcast     : KMap (Option McSlot) := []
  /-- tile broadcast slots: tile * 16 + slot (R74) -/
  bslot     : KMap (Option BSlot) := []
  bOrder    : Nat := 0
  /-- cells waiting at the agent merge: port * 4 + class (R42, R212) -/
  merge     : KMap (List MergeCell) := []
  sched     : KMap Sched := []
  cls       : KMap Sched := []
  shaper    : KMap Shaper := []
  /-- hosts of which a pair has been held in this tick (R229) -/
  heldIn    : List Nat := []
  policer   : KMap Policer := []
  /-- packets being discarded after a header failure, by stage (0 landing, 1 egress tile) and flow (R40) -/
  dropping  : KMap Bool := []
  /-- cells of the packet under way seen and expected, by stage and flow (R40 check 0x04) -/
  pkt       : KMap (Nat × Nat) := []
  /-- SEQs of the first and last cell of packets that land over several inputs, by flow (R40 check 0x04) -/
  span      : KMap (List (Nat × Nat)) := []
  /-- cells reserved by credits advertised and not used, as far as the port's free cells do not cover them: port * 4 + class
  (R46, R50) -/
  adv       : KMap Nat := []
  /-- window requests of a port whose cells wait at the tile for the crown's intake: packet number and cells (R46, R317) -/
  toCrown   : KMap (List (Nat × List Cell)) := []
  /-- what leaves a port with the last cell of a packet, by the packet's number -/
  msg       : KMap (Option Out) := []
  nextPkt   : Nat := 1
  /-- plank input that the next brim forward of a tile uses (R43) -/
  brimRot   : KMap Nat := []
deriving DecidableEq, Repr, Inhabited

/-! ### Outstanding requests, the crown (03_crown_coherence.md), fences and cores (04_ordering_fences.md) -/

/-- What an outstanding request at a target is for. -/
inductive Purpose where
  /-- a host's or end device's own request, answered at its port -/
  | port
  /-- a crown access for window, line: a read, a write or its mirror, a repair, a copy -/
  | crown
  /-- a write that the crown issued to the shadow -/
  | shadow
  /-- a chunk read or write of a slice -/
  | mover
  /-- a service core's private access -/
  | core
  /-- the zero-length read behind posted writes (R136) -/
  | flush
  /-- a write of the device's own: a record, an interrupt -/
  | agent
  /-- a write of a slice's state record (R361) -/
  | save
  /-- one line of an end device's request that decoded to HDM (R243); `w` is the request it belongs to, 0 none -/
  | part
deriving DecidableEq, Repr, Inhabited

/-- One request outstanding at a memory target, end device or host (R265, R267, R395). -/
structure Txn where
  purpose  : Purpose
  /-- master that made it (R448), and its port or 0xFF -/
  master   : Nat
  port     : Nat
  /-- fence agent key (R134); the default is no agent's -/
  agent    : Nat := 0x100000000
  dest     : Nat
  write    : Bool
  posted   : Bool := false
  nonPosted : Bool := false
  cls      : Cls := .bulk
  addr     : Nat
  bytes    : Nat
  data     : Nat := 0
  tag      : Nat := 0
  rid      : Nat := 0
  pasid    : Option Nat := none
  gepoch   : Nat := 0
  /-- it counts under its guard epoch still (R395) -/
  counted  : Bool := true
  /-- CT when it completed step 4 or entered its flow -/
  ct       : Nat := 0
  /-- host whose VCS decoded it and the vPPB, when one did -/
  vcs      : Nat := 0xFF
  vppb     : Nat := 0xFF
  /-- bound, in ps, of RSP_TIMEOUT (R267); none when it has none -/
  deadline : Option Nat := none
  /-- crown: window, line, replica (0 primary, 1 mirror), step within the entry; mover: slice -/
  w        : Nat := 0
  line     : Nat := 0
  replica  : Nat := 0
  step     : Nat := 0
  /-- protocol of a port's own request: 0 CXL.mem, 1 CXL.io, 2 CXL.cache D2H, 3 CXL.cache H2D -/
  proto    : Nat := 0
  /-- number of the generation that decoded it (R21) -/
  gen      : Nat := 0
  /-- a core's request: its address in the core's view (R161) -/
  view     : Nat := 0
  /-- port that a fence record names for a window-line write (R137) -/
  blame    : Nat := 0xFF
deriving DecidableEq, Repr, Inhabited

/-- STATE of a directory entry (R84). -/
inductive DirState where
  | i | s | sf | x
deriving DecidableEq, Repr, Inhabited

/-- A directory entry, with the fields of R84; HOSTS as its 18 bits. -/
structure DirEntry where
  state  : DirState := .i
  brim   : Nat := 0
  fwd    : Nat := 0
  hmode  : Nat := 0
  hosts  : Nat := 0
  epoch  : Bool := false
  poison : Bool := false
  /-- bits [31:29], as memory returned them -/
  rsv    : Nat := 0
deriving DecidableEq, Repr, Inhabited

/-- What a line-queue entry asks for (the kinds of R90; `wr` is WrO or WrN by the owner), and the internal agent's
work. -/
inductive LineOp where
  | rdS | rdA | rdI | invS | invA | invI | wr | evict
  /-- R112; R119; the freeze's copy (R199); the poisoning of a departed owner's line (R122) -/
  | repair | resync | frz | poison
deriving DecidableEq, Repr, Inhabited

/-- How far an entry has come (R91, R92): waiting, reading the directory, snooping, reading brims or memory, invalidating
brims, copying before a write, writing, filling a brim; `together`: served with the head before it (R106). -/
inductive Stage where
  | waiting | dir | snoop | brimOwn | brimFwd | mem | inv | copy | write | fill | together
deriving DecidableEq, Repr, Inhabited

/-- A snoop that is unanswered: host, kind (0 Cur, 1 Data, 2 Inv), time sent in ps. -/
structure Snoop where
  host : Nat
  kind : Nat
  at_  : Nat := 0
deriving DecidableEq, Repr, Inhabited

/-- A host's write served within a snooping entry (R101): its request, data and byte enables. -/
structure Writeback where
  txn  : Nat
  data : Nat
  mask : Nat
  partial_ : Bool
  ct   : Nat := 0
deriving DecidableEq, Repr, Inhabited

/-- An entry of a line queue: one crown tracker entry (R105, R106). -/
structure LineEntry where
  op       : LineOp
  /-- requester: host number for a host, 0x100 + master for a hub agent -/
  who      : Nat
  /-- request number -/
  tag      : Nat := 0
  /-- port and tile it came in on, 0xFF for a hub agent -/
  port     : Nat := 0xFF
  tile     : Nat := 0xFF
  data     : Nat := 0
  mask     : Nat := 0
  partial_ : Bool := false
  /-- MetaValue of a write: 0 Invalid, 1 Shared, 2 Any -/
  msv      : Nat := 0
  gepoch   : Nat := 0
  /-- CT at step 4, or at the entry to the agent's flow (R196) -/
  ct       : Nat := 0
  /-- false when the requester has departed: it gains nothing (R121) -/
  gains    : Bool := true
  stage    : Stage := .waiting
  /-- snoops to send and sent -/
  toSnoop  : List Snoop := []
  snoops   : List Snoop := []
  /-- hosts that answered BIRspS; BIRspE was answered -/
  kept     : List Nat := []
  keptE    : Bool := false
  /-- tiles with a command of this entry unacknowledged (R95) -/
  brims    : List Nat := []
  /-- brim copies still to invalidate -/
  toInv    : List Nat := []
  /-- memory requests outstanding, and those of the writeback -/
  mem      : List Nat := []
  wbMem    : List Nat := []
  /-- a write of the writeback under way has ended in error -/
  wbBad    : Bool := false
  /-- read data so far -/
  got      : Option Nat := none
  bad      : Bool := false
  retried  : Bool := false
  /-- a full line written back within the entry (R92 source 1) -/
  wb       : Option Nat := none
  /-- writebacks being performed, first first -/
  wbs      : List Writeback := []
  /-- the requester's data has been sent by a brim cache; the line is in its tile's brim cache, or on its way there (R96) -/
  sent     : Bool := false
  placed   : Bool := false
  /-- the write or the write-through has been issued -/
  issued   : Bool := false
  /-- a core's STCOND: it is performed while the crown's tag stands (R157) -/
  cond     : Bool := false
  /-- number of the generation that decoded it (R21) -/
  gen      : Nat := 0
  /-- entries behind it that are served together with it (R106) -/
  group    : Nat := 0
  /-- when its header reached the crown, in ps, and from where: a tile, or 4 for the hub agents (R105) -/
  at_      : Nat := 0
  src      : Nat := 4
  /-- the internal agent's own work at this line, that its repair or poisoning goes before (R105, R112) -/
  after_   : List LineOp := []
deriving DecidableEq, Repr, Inhabited

/-- A window request on its way to the crown: from a tile or the agent merge. -/
structure CrownReq where
  w     : Nat
  line  : Nat
  entry : LineEntry
  /-- cells it takes in the crown's intake (R317) -/
  cells : Nat := 1
deriving DecidableEq, Repr, Inhabited

/-- A brim command (R43, R94) and its acknowledgement. -/
inductive BrimKind where
  | fill | read | inv
deriving DecidableEq, Repr, Inhabited

/-- A command to a tile's brim cache: a READ sends the line to the requester `tag` at a port, or to the crown. -/
structure BrimCmd where
  tile : Nat
  kind : BrimKind
  w    : Nat
  line : Nat
  data : Nat := 0
  port : Nat := 0xFF
  tag  : Nat := 0
  gen  : Nat := 0
deriving DecidableEq, Repr, Inhabited

/-- A line that tile `src`'s brim cache forwards to a host at a port of `tile`; `fill`: it fills that tile's brim cache on
the way (R96). -/
structure Carry where
  src  : Nat
  tile : Nat
  port : Nat
  w    : Nat
  line : Nat
  data : Nat
  fill : Bool
deriving DecidableEq, Repr, Inhabited

/-- A BIConflictAck that follows a completion still on its way: host, window, line, packet (R102). -/
structure LateAck where
  host : Nat
  w    : Nat
  line : Nat
  pkt  : Nat
deriving DecidableEq, Repr, Inhabited

/-- A brim cache's acknowledgement: done, with the line that a READ found, or MISS. -/
structure BrimAck where
  tile : Nat
  kind : BrimKind
  w    : Nat
  line : Nat
  miss : Bool := false
  data : Nat := 0
deriving DecidableEq, Repr, Inhabited

/-- Run state of one window beside its objects (R82, R119, R121). -/
structure Window where
  /-- resync position in lines -/
  resyncAt : Nat := 0
  returning : Option Nat := none
  /-- replica 0 (primary) and 1 (mirror) are live -/
  live0    : Bool := false
  live1    : Bool := false
  frz      : Freeze := {}
deriving DecidableEq, Repr, Inhabited

/-- The crown. Directory keys are window * 2^36 + line; brim keys add tile * 2^40. -/
structure Crown where
  win       : KMap Window := []
  /-- in-memory entries -/
  dir       : KMap DirEntry := []
  /-- directory-cache copies that differ from the in-memory entry (R110) -/
  cached    : KMap (Option DirEntry) := []
  /-- sectors in the directory cache: window * 2^32 + sector -/
  sector    : KMap Bool := []
  /-- unsupported CXL.mem requests of hosts (R80) -/
  unsupported : Nat := 0
  /-- requests on a seam toward the crown, by packet number; then at the crown, by source -/
  coming    : KMap (Option CrownReq) := []
  inbound   : KMap (List CrownReq) := []
  queue     : KMap (List LineEntry) := []
  brim      : KMap (Option Nat) := []
  /-- commands that wait for a credit of a tile's brim intake: tile * 2, and + 1 for INV (R22, R317, R321); on its seam, by
  packet number; in its intake -/
  brimWait  : KMap (List BrimCmd) := []
  brimOn    : KMap (Option BrimCmd) := []
  brimCmd   : KMap (List BrimCmd) := []
  brimAck   : List BrimAck := []
  /-- lines forwarded from tile to tile, by packet number (R96) -/
  carry     : KMap (Option Carry) := []
  lateAck   : List LateAck := []
  /-- port + 1 on which a host of two ports last got a completion for a line: host * 2^40 + the line's key (R102) -/
  doneAt    : KMap Nat := []
  /-- second requests of an agent for a line, oldest first (R105) -/
  heldUp    : List CrownReq := []
  /-- tracker entries in use: per host, hub agents, per port (R108) -/
  perHost   : KMap Nat := []
  hub       : Nat := 0
  perPort   : KMap Nat := []
  /-- snoops outstanding per host (R100) -/
  snoops    : KMap Nat := []
  /-- departure markers still out (R120): the host when its last port went down, 64 + host * 16 + window when a commit took it from
  the window's HOSTS. Requests of smaller numbers are ahead of the marker. -/
  leaving   : KMap (Option Nat) := []
  /-- directory sectors that the departure sweep must still pass for a host and a window: host * 16 + window; the window it passes,
  and its place in each (R123) -/
  departed  : KMap Nat := []
  sweepW    : Nat := 0
  sweepAt   : KMap Nat := []
  scrubAt   : Nat := 0
  tagScrub  : Nat := 0
  /-- reservation tag per core: window and line (R154) -/
  resTag    : KMap (Option (Nat × Nat)) := []
deriving DecidableEq, Repr, Inhabited

/-- Fence kinds (R132, R143, R150, R185). -/
inductive FenceKind where
  | fabric | trigger | slice | barSys
deriving DecidableEq, Repr, Inhabited

/-- An outstanding fence (R131-R143, R185-R191). -/
structure Fence where
  kind      : FenceKind
  agent     : Nat
  token     : Nat := 0
  recAddr   : Nat := 0
  /-- port of the doorbell, or 0xFF; requester -/
  port      : Nat := 0xFF
  rid       : Nat := 0
  seq       : Nat := 0
  /-- outstanding covered writes, by request number -/
  waits     : List Nat := []
  error     : Bool := false
  first     : Nat := 0xFF
  ended     : Bool := false
  deadline  : Option Nat := none
  /-- trigger fences -/
  line      : Nat := 0
  edge      : Nat := 0
  pset      : Nat := 0
  lag       : Nat := 0
  /-- when the doorbell armed it, in ps (R188) -/
  armedAt   : Nat := 0
  /-- while the edge is not known: writes that ended in error, with their CT and port, and the CT of VIEW drops (R188, R191) -/
  errs      : List (Nat × Nat) := []
  dropCts   : List Nat := []
  ctTrig    : Option Nat := none
  edgeSeen  : Nat := 0
  ctState   : Nat := 0
  pointDone : Bool := false
  psDrops   : Nat := 0
  /-- slice fence: descriptors queued before the doorbell, still to finish -/
  descs     : List Nat := []
  /-- how and when it ended, while its record waits for earlier ones (R139) -/
  status    : Nat := 0
  ctDone    : Nat := 0
deriving DecidableEq, Repr, Inhabited

/-- A buffered store (R148). -/
structure BufStore where
  id    : Nat
  addr  : Nat
  bytes : Nat
  data  : Nat
  fabric : Bool
deriving DecidableEq, Repr, Inhabited

/-- A held reservation: granule address; fabric or cluster (R155). -/
structure Resv where
  granule : Nat
  fabric  : Bool
  w       : Nat := 0
  line    : Nat := 0
deriving DecidableEq, Repr, Inhabited

/-- A service core (R145-R165) with its region unit (R402). -/
structure SvcCore where
  buf       : List BufStore := []
  loads     : Nat := 0
  /-- loads of cluster memory that have not been performed: address, bytes (R147) -/
  late      : List (Nat × Nat) := []
  resv      : Option Resv := none
  /-- a LDRES of a window line that the crown has not served: its reservation, and whether the core would still hold it (R154, R158) -/
  resPend   : Option (Resv × Bool) := none
  /-- value last loaded or condition last returned, as the core's destination register took it -/
  rd        : Nat := 0
  /-- in supervisor mode (R385) -/
  sup       : Bool := true
  /-- accesses faulted or took an alignment exception: latest cause -/
  except    : Nat := 0
  asyncWerr : Bool := false
  barTimeout : Bool := false
  /-- when each was last set, in ps (R7) -/
  werrAt    : Nat := 0
  barAt     : Nat := 0
  /-- barrier being waited for: 0 none, 1 BAR.CORE, 2 BAR.CLU, 3 BAR.SYS -/
  bar       : Nat := 0
  /-- region words: 4 * region + word, staged; and loaded regions (R402) -/
  word      : KMap Nat := []
  region    : KMap Nat := []
  /-- RGN_BAD of each region's ATTR register -/
  rgnBadMap : KMap Bool := []
  unreach   : Bool := false
deriving DecidableEq, Repr, Inhabited

/-- Fences, outstanding requests and the service cluster. -/
structure Order where
  txn       : KMap (Option Txn) := []
  nextTxn   : Nat := 1
  fence     : KMap (Option Fence) := []
  nextFence : Nat := 1
  /-- VIEW drops per agent since its last record (R137) -/
  viewDrops : KMap Nat := []
  /-- first target + 1 of the writes of an agent that ended in error since its latest fence started (R136, R137) -/
  errSince  : KMap Nat := []
  core      : KMap SvcCore := []
  nextStore : Nat := 1
  /-- feed writes that end with a ring's write, by its number (R190) -/
  feeds     : KMap (List Nat) := []
  /-- cluster SRAM, 4 MiB; a byte nothing has written reads zero (R162) -/
  sram      : List Host.Cell := []
deriving DecidableEq, Repr, Inhabited

/-! ### Virtual switches, binding, hot plug (07_binding_hotplug.md); ports and lanes (08_ports_lanes.md) -/

/-- Link settings of a port (R300), as its last training took them (R284); before any, the defaults. `bypass` and `presets` are what
training offers and asks for. -/
structure LinkSet where
  rate    : Nat := 6
  flit    : Nat := 1
  cxl     : Bool := true
  clock   : Nat := 0
  bypass  : Bool := true
  presets : Nat := 0x4888
  l1      : Bool := false
  l0p     : Bool := false
  ide     : Bool := false
  cxlIde  : Nat := 0
  idle    : Nat := 0
deriving DecidableEq, Repr, Inhabited

/-- Binding kept for a port across power: serial number (R254, R268). -/
structure Port where
  /-- the link settings of its last training (R284) -/
  set        : LinkSet := {}
  /-- a link IDE stream ends at the port (R281) -/
  ide        : Bool := false
  /-- CXL.cachemem IDE ends at the port: 0 no, 1 skid, 2 containment (R281) -/
  cxlIde     : Nat := 0
  /-- serial kept with the binding in flash; none when nothing is kept -/
  keptSerial : Option Nat := none
  /-- the link is up at the Data Link Layer -/
  up         : Bool := false
  /-- looped back as follower (R292) -/
  looped     : Bool := false
  /-- in L1 -/
  inL1       : Bool := false
  /-- the partner is detected (R299) -/
  partner    : Bool := false
  /-- active members of the port, fixed by its last training (R276); none before one -/
  trained    : List Nat := []
  /-- equalisation results are kept (R283) -/
  eqKept     : Bool := false
  capGiB     : Nat := 0
  isDcd      : Bool := false
  biCredits  : Nat := 0
  /-- a port reset or isolation holds the link -/
  held       : Bool := false
deriving DecidableEq, Repr, Inhabited

/-- Slot registers of a vPPB (R258-R263) and its link view (R255). -/
structure Vppb where
  linkView  : Bool := false
  linkDis   : Bool := false
  /-- Power Controller Control: true is Off, as PCIe encodes it -/
  pwrOff    : Bool := true
  ind       : Nat := 0
  /-- Slot Status bits as PCIe numbers them: 0 attention button, 1 power fault, 3 presence changed, 4 command
  completed, 6 presence, 8 DLL state changed -/
  status    : Nat := 0
  ctl       : Nat := 0
  dpc       : Bool := false
  /-- DPC Completion Control (R265) -/
  dpcUr     : Bool := false
  dpcTrig   : Bool := false
  aer       : Nat := 0
  acs       : Nat := 0
  /-- bus numbers and Command register of the bridge, and Command register of the LD that the device presents behind it (R239) -/
  primary   : Nat := 0
  secondary : Nat := 0
  subordinate : Nat := 0
  command   : Nat := 0
  ldCommand : Nat := 0
  /-- Power Controller Control written while a power command is in progress (R259): off, or on -/
  cmdWait   : Option Bool := none
  /-- memory window and prefetchable window of the bridge: base and limit, as address / 2^20 -/
  memBase   : Nat := 0xFFF
  memLimit  : Nat := 0
  prefBase  : Nat := 0xFFF
  prefLimit : Nat := 0
  /-- GPF Phase 1 and Phase 2 control of the CXL Port GPF DVSEC (R428) -/
  gpf1      : Nat := 0
  gpf2      : Nat := 0
deriving DecidableEq, Repr, Inhabited

/-- Registers of a VCS's upstream switch port (R237, R239, R458): bus numbers, Command registers of functions 0 and 1, BAR 0 of
function 1, 0 not placed; BAR 0 of function 0 and BAR 2 of function 1, which hold the MSI-X tables, and the two MSI-X message controls. -/
structure Usp where
  primary     : Nat := 0
  secondary   : Nat := 0
  subordinate : Nat := 0
  command     : Nat := 0
  command1    : Nat := 0
  bar0        : Nat := 0
  tableBar0   : Nat := 0
  tableBar1   : Nat := 0
  msix0       : Nat := 0
  msix1       : Nat := 0
deriving DecidableEq, Repr, Inhabited

/-- An HDM decoder (R241, R244). -/
structure Hdm where
  set       : HdmSettings := { base := 0, size := 0, ways := 1, granularity := 256, targets := [], lock := false }
  committed : Bool := false
  err       : Bool := false
deriving DecidableEq, Repr, Inhabited

/-- Extent states (R246-R249). -/
inductive ExtState where
  | filling | offered | mapped | releasing | unmapped
deriving DecidableEq, Repr, Inhabited

/-- An extent: 1 GiB of a pool target granted to a host (R246). -/
structure Extent where
  vcs    : Nat
  /-- DPA_GIB -/
  dpa    : Nat
  target : Nat
  tgtGib : Nat
  tag    : Nat := 0
  state  : ExtState := .filling
  /-- evacuation: granules below the watermark have moved to `moveTo`, target and GiB (R364) -/
  mark   : Nat := 0
  moveTo : Option (Nat × Nat) := none
  /-- accesses decoded under a mapping that has ended: they hold the GiB out of the free set (R249) -/
  holders : List Nat := []
deriving DecidableEq, Repr, Inhabited

/-- A bind or unbind in progress (R252-R256). -/
structure BindOp where
  unbind   : Bool
  mode     : Nat
  host     : Nat
  vppb     : Nat
  port     : Nat
  ld       : Nat
  tag      : Nat
  deadline : Nat := 0
  ready    : Bool := false
deriving DecidableEq, Repr, Inhabited

/-- An extent command in progress (R247-R249). -/
structure ExtentOp where
  add      : Bool
  vcs      : Nat
  dpa      : Nat
  count    : Nat
  tag      : Nat
  /-- the zero-fill has ended and the host has been asked -/
  asked    : Bool := false
  deadline : Nat := 0
deriving DecidableEq, Repr, Inhabited

/-- Serial lane (R288-R291, R298). -/
structure Lane where
  /-- 0 OFF, 1 NAP, 2 STANDBY, 3 ACTIVE (R298) -/
  power   : Nat := 1
  polarity : Bool := false
  margin  : Bool := false
  /-- SDS_LANEnn_TEST, its error counter and user pattern (R290) -/
  test    : Nat := 0
  errs    : Nat := 0
  upatLo  : Nat := 0
  upatHi  : Nat := 0
  /-- it carries the port's link (LANE_STATUS bit 4); presets of its transmitter and of the partner -/
  on      : Bool := false
  txPreset : Nat := 0
  rxPreset : Nat := 0
deriving DecidableEq, Repr, Inhabited

/-- A running eye scan (R293-R297): its command, points in all, points finished, newest first, CT at its start. -/
structure Eye where
  cmd    : Nat
  total  : Nat := 0
  pts    : List Nat := []
  ctStart : Nat := 0
deriving DecidableEq, Repr, Inhabited

/-- Ports, virtual switches, extents. -/
structure Fabric where
  port    : KMap Port := []
  vppb    : KMap Vppb := []
  /-- binding of vPPB v of VCS n at n * 64 + v: kind, port, LD (R254): (kind, port, ld), kept in flash -/
  bind    : KMap (Option (Nat × Nat × Nat)) := []
  /-- what is bound at vPPB v of VCS n, at n * 64 + v, is a type-1 or type-2 device (R238) -/
  cacheDev : KMap Bool := []
  usp     : KMap Usp := []
  hdm     : KMap Hdm := []
  vcsUp   : KMap Bool := []
  /-- BAR 2 of a VCS's upstream port: base of its 2,048 doorbell pages, 0 not placed (R347) -/
  bar2    : KMap Nat := []
  /-- Cache ID Route Table of VCS n at n * 16 + id: vPPB + 1, 0 no route (R238) -/
  cacheRoute : KMap Nat := []
  extents : List Extent := []
  bindOp  : Option BindOp := none
  extOp   : Option ExtentOp := none
  lane    : KMap Lane := []
  eye     : KMap (Option Eye) := []
  /-- ports whose training, or whose LINK_RETRAIN, waits for the restart of the tile processors (R525) -/
  waitTrain   : List Nat := []
  waitRetrain : List Nat := []
deriving DecidableEq, Repr, Inhabited

/-! ### Seam links (09_seam_links.md). Directions: key seam * 2 + d, d 0 up (tile to hub), 1 down. -/

/-- A unit in the replay buffer: its SEQ, items and credit returns, launch time, strand (R310-R315). -/
structure Sent where
  seq    : Nat
  items  : List Item
  cr0    : Nat × Nat
  cr1    : Nat × Nat
  at_    : Nat
  strand : Nat
deriving DecidableEq, Repr, Inhabited

/-- A unit in the reorder buffer: its items and credit returns (R313, R318). -/
structure Stored where
  items : List Item
  cr0   : Nat × Nat
  cr1   : Nat × Nat
deriving DecidableEq, Repr, Inhabited

/-- A CHECK waiting to be evaluated: EMPTY, AS_OF, RET_THRU (R319). -/
structure CheckInfo where
  empty   : Nat
  asOf    : Nat
  retThru : Nat
deriving DecidableEq, Repr, Inhabited

/-- One direction of a seam's data strands. -/
structure SeamDir where
  nextSeq  : Nat := 0
  replay   : List Sent := []
  /-- SEQs to launch again, first first (R315) -/
  resend   : List Nat := []
  /-- items waiting, oldest first -/
  ready    : List Item := []
  /-- per strand: last SEQ launched on it since its last training -/
  lastOn   : KMap (Option Nat) := []
  /-- credits the sender has taken and not got back, per pool -/
  credit   : KMap Nat := []
  /-- receiver: next SEQ to deliver, units stored out of order, marks -/
  nextDel  : Nat := 0
  store    : KMap (Option Stored) := []
  ackDue   : Bool := false
  nakDue   : Option Nat := none
  /-- cells in each pool; beyond the allotment they stand in the reserve (R322) -/
  pool     : KMap Nat := []
  /-- returns pending per pool -/
  ret      : KMap Nat := []
  check    : Option CheckInfo := none
deriving DecidableEq, Repr, Inhabited

/-- A strand's status (R330-R332, R338): 0 down, 1 training, 2 up, 3 retraining. -/
structure Strand where
  status  : Nat := 0
  upAt    : Nat := 0
  /-- when the last good unit came, and the last launch -/
  lastAt  : Nat := 0
  sentAt  : Nat := 0
  spare   : Nat := 0
  bad     : List Nat := []
  /-- control units received, and the numbers of those in which a wire erred (R329) -/
  ctl     : Nat := 0
  wireErr : KMap (List Nat) := []
  downs   : List Nat := []
  stopped : Bool := false
  /-- a strand stopped for its bad wires has its wires checked afresh (R329) -/
  retest  : Bool := false
  injOnce : Bool := false
  injAll  : Bool := false
  kaHold  : Bool := false
  wire    : Nat := 0x7F
deriving DecidableEq, Repr, Inhabited

/-- A direction of the timing strand (R321, R325, R326). -/
structure Timing where
  nextRx  : Nat := 0
  /-- what waits for the strand or is on it, oldest first -/
  ready   : List FlitBody := []
  nakDue  : Bool := false
  /-- receiver: flits stored out of order, by FSEQ (R326) -/
  store   : KMap (Option FlitBody) := []
  /-- cumulative counts received in CREDIT flits, per pool -/
  credit  : KMap Nat := []
deriving DecidableEq, Repr, Inhabited

/-- One seam beside its objects. -/
structure Seam where
  /-- when the last strand of its first training came up (R335) -/
  trainedAt  : Nat := 0
  retrainDue : Bool := false
  /-- the tick of the decision, and that the retrain starts without waiting for a boundary (R320, R324) -/
  dueTick    : Nat := 0
  atOnce     : Bool := false
  /-- the retrain is for a credit shortfall (R320, R322) -/
  leak       : Bool := false
  retraining : Bool := false
  /-- CT that the tile took from its last TICK flit (R327) -/
  tileCt     : Nat := 0
  /-- INJ_DENIED of the hub's and of the tile's SEAM_DIAG -/
  deniedHub  : Bool := false
  deniedTile : Bool := false
  /-- LAST_NAK of the up and of the down direction's sender -/
  nakUp      : Nat := 0
  nakDown    : Nat := 0
deriving DecidableEq, Repr, Inhabited

/-- The four seams. -/
structure Seams where
  dir    : KMap SeamDir := []
  strand : KMap Strand := []
  timing : KMap Timing := []
  seam   : KMap Seam := []
deriving DecidableEq, Repr, Inhabited

/-! ### Data movers (10_data_movers.md), access guards (11_access_guards.md) -/

/-- Slice states (R342), in the order of their numbers. -/
inductive SliceState where
  | free | active | freezing | frozen
deriving DecidableEq, Repr, Inhabited

/-- A queued descriptor: its 64 bytes, its queue (R349), and a number of the model's own. -/
structure Desc where
  id    : Nat := 0
  raw   : Nat
  queue : Nat
deriving DecidableEq, Repr, Inhabited

/-- A descriptor that has started (R352-R358). Offsets count in its stream. -/
structure ActiveDesc where
  desc    : Desc
  /-- source and destination pieces: address, bytes -/
  src     : List (Nat × Nat) := []
  dst     : List (Nat × Nat) := []
  total   : Nat := 0
  /-- bytes of chunks issued, and of chunks whose writes have been issued -/
  issued  : Nat := 0
  wrote   : Nat := 0
  /-- requests outstanding -/
  reads   : List Nat := []
  writes  : List Nat := []
  crc     : Nat := 0
  /-- guard epoch of the check of R352 -/
  epoch   : Nat := 0
  /-- reason of R351, R353 or R358, 0 none; where the lowest fault lies: start of its chunk, stream offset, address -/
  reason  : Nat := 0
  bad     : Nat := 0
  badOff  : Nat := 0
  faultAddr : Nat := 0
  /-- read data returned and not yet used, by offset -/
  stash   : KMap (Option (List Nat)) := []
deriving DecidableEq, Repr, Inhabited

/-- A write, or the part of one, in the open block of a ring: CT at its step 4, payload offset of its first byte, and its
request's number when its last byte lies in the block (R190, R202). -/
structure Mark where
  ct  : Nat
  off : Nat
  id  : Option Nat
deriving DecidableEq, Repr, Inhabited

/-- A capture ring of a slice (R366-R369). -/
structure Ring where
  base    : Nat := 0
  blocks  : Nat := 0
  feed    : Nat := 0
  feedLog : Nat := 12
  port    : Nat := 0
  rid     : Nat := 0
  mask    : Nat := 0
  flushUs : Nat := 0
  /-- open block: payload bytes so far, and when the first came, in ps -/
  data    : List Nat := []
  firstAt : Nat := 0
  /-- writes in the open block, in order -/
  marks   : List Mark := []
  /-- edges of mask lines since the last byte of the previous block: line, stamp (R202, R204) -/
  edges   : List (Nat × Nat) := []
  /-- bytes lost since the previous written block, and in all -/
  gapBytes : Nat := 0
  lost    : Nat := 0
  /-- block count S (R368) and the consumer's next block (R369) -/
  seq     : Nat := 0
  cons    : Nat := 0
  /-- the feeding port has gone down: the open block is to be closed (R368) -/
  closeDue : Bool := false
deriving DecidableEq, Repr, Inhabited

/-- One slice (R341-R362). -/
structure Slice where
  state    : SliceState := .free
  host     : Nat := 0
  kind     : Nat := 0
  engine   : Nat := 0
  pasid    : Option Nat := none
  prio     : Nat := 0
  weight   : Nat := 1
  queues   : Nat := 0
  qsize    : Nat := 0
  pend     : List Desc := []
  active   : Option ActiveDesc := none
  /-- descriptors that have issued their last write and have not finished, oldest first (R355) -/
  ending   : List ActiveDesc := []
  /-- a restored active descriptor that has not started again: it, RESUME, CRC_PART, ENTRY, ENTRY_OFF (R362) -/
  resume   : Option (Desc × Nat × Nat × Nat × Nat) := none
  /-- queue whose turn is next (R355) -/
  turn     : Nat := 0
  /-- last finished descriptor of each queue succeeded -/
  lastOk   : KMap Bool := []
  finished : Nat := 0
  bytes    : Nat := 0
  faults   : Nat := 0
  discards : Nat := 0
  deficit  : Nat := 0
  ring     : Option Ring := none
  staged   : KMap Nat := []
  regions  : KMap Nat := []
  /-- CT at which it became FROZEN (R361) -/
  ctFrozen : Nat := 0
deriving DecidableEq, Repr, Inhabited

/-- A SAVE in progress (R361): its writes that the target has not acknowledged. -/
structure SaveOp where
  waits : List Nat
  bad   : Bool := false
deriving DecidableEq, Repr, Inhabited

/-- A request on its way: its port, VCS and vPPB, whether a host sent it, its colour. -/
structure Ingress where
  p      : Nat
  n      : Nat
  v      : Nat
  host   : Bool
  colour : Colour
  req    : Req
deriving DecidableEq, Repr, Inhabited

/-- An evacuation (R363, R364). -/
structure Evac where
  src    : Nat
  dst    : Nat
  engine : Nat
  /-- the granule of the source that is held, as address / 4096, and the number that the first request behind the hold gets (R364) -/
  hold   : Option (Nat × Nat) := none
deriving DecidableEq, Repr, Inhabited

/-- Data movers. -/
structure Movers where
  slice   : KMap Slice := []
  save    : Option SaveOp := none
  evac    : Option Evac := none
  /-- requests that the ingress tiles hold at step 4 for a granule that moves, oldest first (R364) -/
  held    : List Ingress := []
  running : KMap (Option Nat) := []
  nextDesc : Nat := 1
  reads   : KMap Nat := []
  rr      : KMap Nat := []
deriving DecidableEq, Repr, Inhabited

/-- A guard publication waiting for a new epoch (R393, R394): which kinds are due. -/
structure Guard where
  epoch    : Nat := 0
  /-- accesses in flight under each GEPOCH value modulo 16 (R395) -/
  counts   : KMap Nat := []
  /-- pending publications: the tick in which each change became ready (R393) -/
  genAt    : Option Nat := none
  sliceAt  : Option Nat := none
  tagAt    : Option Nat := none
  syncAt   : Option Nat := none
  /-- colour of granule g of target m at m * 2^33 + g; 0 by default (R378) -/
  tag      : KMap Nat := []
  /-- a tag command being written, as its 16 bytes (R382) -/
  tagCmd   : Option Nat := none
  /-- tags that checks still use until the publication (R383) -/
  tagOld   : KMap (Option Nat) := []
  tagLost  : KMap Bool := []
  /-- target whose store is being filled for the first time (R381) -/
  filling  : KMap Bool := []
  /-- tag lines in the hub's cache; in a tile's at tile * 2^40 (R380) -/
  hubCache : KMap Bool := []
  tileCache : KMap Bool := []
deriving DecidableEq, Repr, Inhabited

end Sys2Proof.Machine
end

