-- ==== Sys2Proof/Machine/State.lean ====
section
/-!
DEFINITION. The state of the KH-9632, as plain data; the reasons a step can stop; the state after reset.
-/
namespace Sys2Proof.Machine

/-- The machine. -/
structure State where
  /-- model time in ps (the model's own field) -/
  now   : Nat := 0
  /-- the model's own field: how many free values have been taken -/
  freeIx : Nat := 0
  /-- values of RO and RW objects that differ from their defaults -/
  od    : KMap Nat := []
  /-- CSRs that are not another name of a field below: die * 2^32 + offset -/
  csr   : KMap Nat := []
  ev    : Events := {}
  mg    : Mgmt := {}
  gen   : Gen := {}
  life  : Life := {}
  st    : Startup := {}
  pw    : Power := {}
  tm    : TimeSt := {}
  pl    : Plank := {}
  cr    : Crown := {}
  ord   : Order := {}
  fab   : Fabric := {}
  seams : Seams := {}
  mv    : Movers := {}
  gd    : Guard := {}
  /-- what has left the device, newest first (the model's own field) -/
  out   : List Out := []
  /-- commands waiting, first in first out (the model's own field) -/
  pending : List Instr := []
deriving DecidableEq, Repr

/-- Reasons for a machine to stop with a fault. The spec gives every command an effect or a refusal of its own,
carried in the next state, so there is none. -/
inductive Fault where
deriving DecidableEq, Repr

/-- Reasons for a command to have no meaning. -/
inductive Refusal where
  /-- Raised by the dispatcher for a row that has no meaning in the model. Safe: the machine stops. -/
  | notModelled (mnemonic : String)
deriving DecidableEq, Repr

/-- Image of a part as the model assumes it at reset: it speaks revision 1 of the part's interfaces (R526). -/
def resetImage (k : Nat) : Image :=
  let speaks := fun (j : Nat) =>
    match k, j with
    | 1, 0 | 2, 0 | 2, 1 | 2, 2 | 3, 1 | 3, 3 | 3, 4 | 4, 3 | 4, 5 | 4, 7 | 5, 2 | 5, 4 | 5, 5 | 5, 6 | 6, 6 => true
    | _, _ => false
  { part := k, version := 0x01000000, compat := (List.range 8).map (fun j => if speaks j then (1, 1) else (0, 0)) }

/-- The machine right after reset: power-on reset is asserted, everything is at its default, memory and queues
list nothing. -/
def State.reset : State :=
  { life := { fuses := { devPub := some 1, trees := 1 }, certHeld := true,
              recA := some { seqNo := 1, t := 0, limit := 32 }, sigLimit := 32,
              parts := [(1, { active := some (resetImage 1) }), (2, { active := some (resetImage 2) }),
                        (3, { active := some (resetImage 3) }), (4, { active := some (resetImage 4) }),
                        (5, { active := some (resetImage 5) }), (6, { active := some (resetImage 6) })] } }

end Sys2Proof.Machine
end

