-- ==== Sys2Proof/Machine/Operands.lean ====
section
/-!
DEFINITION. Operand forms: fields of words and records, byte strings, and the CRCs (R2, R3, R39, R202, R350).
-/
namespace Sys2Proof.Machine

/-- Bits [hi:lo] of a number (R2). -/
def bits (v hi lo : Nat) : Nat := v / 2 ^ lo % 2 ^ (hi + 1 - lo)

/-- Bit `i` of a number. -/
def bit (v i : Nat) : Bool := v / 2 ^ i % 2 == 1

/-- A Bool as a bit. -/
def b2n (b : Bool) : Nat := if b then 1 else 0

/-- Number with bit `i` set to `b`. -/
def setBit (v i : Nat) (b : Bool) : Nat :=
  if bit v i == b then v else if b then v + 2 ^ i else v - 2 ^ i

/-- How many of the low `n` bits are set. -/
def popCount (n v : Nat) : Nat := ((List.range n).filter (bit v)).length

/-- The numbers of the set bits among the low `n`. -/
def bitList (n v : Nat) : List Nat := (List.range n).filter (bit v)

/-- A little-endian number from bytes (R3). -/
def leNat : List Byte → Nat
  | [] => 0
  | b :: bs => b.toNat + 256 * leNat bs

/-- `n` bytes of a number, least significant first (R3). -/
def toBytes : Nat → Nat → List Byte
  | 0, _ => []
  | n + 1, v => BitVec.ofNat 8 v :: toBytes n (v / 256)

/-- `n` bytes of a byte string from offset `k`, as a number. -/
def leAt (bs : List Byte) (k n : Nat) : Nat := leNat ((bs.drop k).take n)

/-- Bytes `k` to `k + n - 1`. -/
def bytesAt (bs : List Byte) (k n : Nat) : List Byte := (bs.drop k).take n

/-- Every byte from `k` for `n` is zero. -/
def zeroAt (bs : List Byte) (k n : Nat) : Bool := (bytesAt bs k n).all (· == 0)

/-- Fields of given byte sizes laid one after the other, the first lowest (R3). -/
def packLE : List (Nat × Nat) → Nat
  | [] => 0
  | (v, n) :: fs => v % 2 ^ (8 * n) + 2 ^ (8 * n) * packLE fs

/-- A signed value as a word of `w` bits. -/
def toSigned (w : Nat) (v : Int) : Nat := (v % (2 ^ w : Int)).toNat

/-- A word of `w` bits as a signed value. -/
def ofSigned (w v : Nat) : Int := if v < 2 ^ (w - 1) then (v : Int) else (v : Int) - (2 ^ w : Int)

/-- One step of a reflected 32-bit CRC. -/
def crcBits (poly : BitVec 32) : Nat → BitVec 32 → BitVec 32
  | 0, c => c
  | n + 1, c => crcBits poly n (if c.getLsbD 0 then (c >>> 1) ^^^ poly else c >>> 1)

/-- A reflected 32-bit CRC register run over bytes. -/
def crcRun (poly : BitVec 32) : BitVec 32 → List Byte → BitVec 32
  | c, [] => c
  | c, b :: bs => crcRun poly (crcBits poly 8 (c ^^^ b.zeroExtend 32)) bs

/-- CRC-32 of R202: polynomial 0x04C1_1DB7, reflected, final inversion. -/
def crc32 (bs : List Byte) : Nat := (~~~ (crcRun 0xEDB88320#32 0xFFFFFFFF#32 bs)).toNat

/-- CRC-32C register of R350 (polynomial 0x1EDC_6F41, reflected) from a seed; the caller inverts at the end. -/
def crc32c (seed : Nat) (bs : List Byte) : Nat := (crcRun 0x82F63B78#32 (BitVec.ofNat 32 seed) bs).toNat

/-- CRC-16 of R39 over the low `n` bits, most significant first: polynomial 0x1021, initial 0xFFFF. -/
def crc16 : Nat → Nat → Nat → Nat
  | 0, _, c => c
  | n + 1, v, c =>
    let top := bit c 15 != bit v n
    let c' := c * 2 % 65536
    crc16 n v (if top then Nat.xor c' 0x1021 else c')

/-- The class's number in cell headers and queue keys (R39). -/
def clsNum : Cls → Nat
  | .sys => 0
  | .coh => 1
  | .bulk => 2
  | .view => 3

/-- Class of a number. -/
def clsOf : Nat → Cls
  | 0 => .sys
  | 1 => .coh
  | 2 => .bulk
  | _ => .view

/-- Every class. -/
def clsAll : List Cls := [.sys, .coh, .bulk, .view]

/-- Slot states by their number (R410). -/
def SlotState.num : SlotState → Nat
  | .off => 0 | .ramp => 1 | .on => 2 | .tripped => 3 | .supplyWait => 4 | .lockout => 5

/-- The 8-byte number of a pair of indices. -/
def key2 (i n j : Nat) : Nat := i * n + j

/-- Rotate a list left by `n`: the order in which a pointer makes a scheduler look (R41, R53, R58). -/
def rotateFrom {α : Type} (n : Nat) (l : List α) : List α := l.drop n ++ l.take n

/-- Numbers below `n`, beginning at `k` and wrapping. -/
def fromPtr (n k : Nat) : List Nat := rotateFrom (k % n) (List.range n)

end Sys2Proof.Machine
end

