-- ==== Sys2Proof/Machine/Ops.lean ====
section
/-!
DEFINITION. The named operations over objects, time, outputs, free values and event blocks that every family uses.
-/
namespace Sys2Proof.Machine

/-! ### Objects -/

/-- Value of an RO or RW object. -/
def State.o (s : State) (key : Nat) : Nat := KMap.get (odDefault key) s.od key

/-- Set an RO or RW object. -/
def State.setO (s : State) (key v : Nat) : State :=
  { s with od := KMap.set (odDefault key) s.od key v }

/-- Count on an object; a counter wraps at its width. -/
def State.addO (s : State) (key n : Nat) : State := s.setO key (odFit key (s.o key + n))

/-- Count one. -/
def State.incO (s : State) (key : Nat) : State := s.addO key 1

/-- Keep a high-water mark. -/
def State.maxO (s : State) (key v : Nat) : State := if s.o key < v then s.setO key v else s

/-- Value of an RWS object in the active generation (R9). -/
def State.c (s : State) (key : Nat) : Nat := KMap.get (odDefault key) s.gen.active key

/-- A BOOL RWS object in the active generation. -/
def State.cB (s : State) (key : Nat) : Bool := s.c key == 1

/-- Value of an RWS object in a set of generation contents. -/
def cfgOf (g : KMap Nat) (key : Nat) : Nat := KMap.get (odDefault key) g key

/-- Number of the generation under which the present operation runs (R21). -/
def State.genNum (s : State) : Nat := s.gen.cur.getD (s.o K.GEN_ACTIVE)

/-- Contents of generation n: the present one's, or those kept of an earlier one (R21). -/
def State.genOf (s : State) (n : Nat) : KMap Nat :=
  if n == s.genNum then s.gen.active else (KMap.get none s.gen.old n).getD s.gen.active

/-- Run an operation under generation n (R21). -/
def State.under (s : State) (n : Nat) (f : State → State) : State :=
  let t := f { s with gen := { s.gen with active := s.genOf n, cur := some n,
                                          old := KMap.set none s.gen.old s.genNum (some s.gen.active) } }
  { t with gen := { t.gen with active := s.gen.active, cur := s.gen.cur, old := s.gen.old } }

/-- Value of a CSR with no other home. -/
def State.csrAt (s : State) (die off : Nat) : Nat := KMap.get 0 s.csr (die * 2 ^ 32 + off)

/-- Set such a CSR. -/
def State.setCsr (s : State) (die off v : Nat) : State :=
  { s with csr := KMap.set 0 s.csr (die * 2 ^ 32 + off) v }

/-! ### Outputs, free values -/

/-- Send a message out of the device. -/
def State.emit (s : State) (k : OutKind) (dst : Nat) (args : List Nat) : State :=
  { s with out := { kind := k, dst := dst, args := args } :: s.out }

/-- The next free value (the spec leaves it open). -/
def State.freeVal (s : State) : Nat := (Config.freeValue s.freeIx).toNat

/-- The machine after a free value has been taken. -/
def State.freeNext (s : State) : State := { s with freeIx := s.freeIx + 1 }

/-- The next 32 bytes of the entropy source. -/
def State.entropyVal (s : State) : Nat := (Config.entropy s.freeIx).toNat

/-! ### Time (R4, R30, R166) -/

/-- Run a decode or an admission decision: in the publication cycle of a generation the one before it is still in use (R21,
R32, R51). -/
def State.decoded (s : State) (f : State → State) : State :=
  match s.gen.switched with
  | some x => if x.1 / Config.fclk == s.now / Config.fclk then s.under x.2 f else f s
  | none => f s

/-- Time moves to `t` when that is later. -/
def State.advance (s : State) (t : Nat) : State := if s.now < t then { s with now := t } else s

/-- Two moments lie in one FCLK cycle (R4, R7). -/
def sameCycle (a b : Nat) : Bool := a / Config.fclk == b / Config.fclk

/-- FCLK cycle within the current tick, at most its last (R166). -/
def State.cycle (s : State) : Nat := min ((s.now - s.tm.tickStart) / Config.fclk) (s.tm.tickLen - 1)

/-- CT of the current cycle (R166). -/
def State.ct (s : State) : Nat := (s.tm.ctBase + s.cycle * 1000 / s.tm.tickLen) % 2 ^ 64

/-- CT of a moment `t` ps in the current tick or before it, by the CT rate of whole nanoseconds. -/
def State.ctAt (s : State) (t : Nat) : Nat :=
  if s.tm.tickStart ≤ t then
    (s.tm.ctBase + min ((t - s.tm.tickStart) / Config.fclk) (s.tm.tickLen - 1) * 1000 / s.tm.tickLen) % 2 ^ 64
  else (s.tm.ctBase + 2 ^ 64 - (s.tm.tickStart - t + 999) / 1000) % 2 ^ 64

/-- CT_STATE (R167) from the loaded mark, REF_SEL, the reference and the sync. -/
def State.ctState (s : State) : Nat :=
  if !s.tm.loaded then 0
  else if s.c K.REF_SEL == 1 then 4
  else if !s.st.refPresent then (if s.tm.refSeen then 2 else 4)
  else if s.st.holdover then 2
  else if s.cB K.SYNC_ENABLE && decide (2000 < s.tm.slewLeft.natAbs) then 3
  else 1

/-! ### The tick list (R31, R32, R34) -/

/-- Latest finish of item k of R31, in cycles from the boundary. DESIGN CHOICE: each item starts at its latest start and takes
its maximum, so it publishes there (R32). -/
def itemEnd (k : Nat) : Nat :=
  match k with
  | 1 => 160 | 2 => 288 | 3 => 592 | 4 => 656 | 5 => 848 | 6 => 944 | _ => 1072

/-- The publication cycle of item k of this tick, in ps (R32, R34). -/
def State.itemAt (s : State) (k : Nat) : Nat := s.tm.tickStart + (itemEnd k + s.tm.late) * Config.fclk

/-- Item k starts in this tick: the engine is not so slow that it is skipped (R34). -/
def State.itemRuns (s : State) (k : Nat) : Bool :=
  match s.tm.slow with
  | none => true
  | some x => decide (k ≤ x.1)

/-- Item k of this tick has published before the present cycle and its effect is still to be taken (R32: an operation of the
publication cycle uses the state from before it). The last item that a slow engine starts publishes after the tick (R34). -/
def State.itemDue (s : State) (k : Nat) : Bool :=
  decide (s.tm.item < k) && (match s.tm.slow with | none => true | some x => decide (k < x.1))
    && decide (s.itemAt k + Config.fclk ≤ s.now)

/-! ### Where things are (R440, R506) -/

/-- Master ID of an engine (R448). -/
def engineMaster (e : Nat) : Nat := 0x60 + e

/-- Die of a port's tile. -/
def tileOf (p : Nat) : Nat := p / 24

/-- Die that holds event block n (R440, R442): 0-3 tiles, 4 hub, 5 SPC0, 6 SPC1, 7 island. -/
def blockDie (n : Nat) : Nat :=
  if n < 384 then n / 96
  else if n < 456 then (if (n - 384) % 2 == 0 then 4 else (n - 384) / 18)
  else if n < 528 then (if n - 456 < 36 then 5 else 6)
  else if 574 ≤ n && n < 578 then n - 574
  else if 578 ≤ n && n < 582 then n - 578
  else if 582 ≤ n && n < 586 then n - 582
  else if n == 589 || 600 ≤ n then 7
  else 4

/-- Reserved sources are never raised (R442). -/
def blockReserved (n : Nat) : Bool := (590 ≤ n && n < 600) || 620 ≤ n

/-- The hub is held in reset: power-on, housekeeping or hub warm reset, or not yet released (R550). -/
def State.hubHeld (s : State) : Bool :=
  s.st.porHeld || s.st.hkHeld || s.st.hubIn || !s.st.released

/-- Tile t is held in reset. -/
def State.tileHeld (s : State) (t : Nat) : Bool := s.hubHeld || KMap.get false s.st.tileHeld t

/-- The island runs. -/
def State.islandUp (s : State) : Bool := !s.st.porHeld && !s.st.hkHeld

/-- The housekeeping processor takes commands for the companions: the island runs and its HK image is not swapping (R432, R525). -/
def State.hkServes (s : State) : Bool := s.islandUp && s.life.swapping ≠ some 5

/-- The seam of tile t carries traffic: some data strand is up in each direction and its timing strand is up (R330,
R331). -/
def State.strandOf (s : State) (sm d k : Nat) : Strand := KMap.get {} s.seams.strand ((sm * 2 + d) * 9 + k)

/-- Update one strand. -/
def State.updStrand (s : State) (sm d k : Nat) (f : Strand → Strand) : State :=
  { s with seams := { s.seams with strand := KMap.upd {} s.seams.strand ((sm * 2 + d) * 9 + k) f } }

/-- Data strands up in a direction, as a list; a strand that retrains is up (R323, R333). -/
def State.strandsUp (s : State) (sm d : Nat) : List Nat :=
  (List.range 8).filter (fun k => decide (2 ≤ (s.strandOf sm d k).status))

/-- The seam can carry traffic both ways. -/
def State.seamUp (s : State) (sm : Nat) : Bool :=
  !(s.strandsUp sm 0).isEmpty && !(s.strandsUp sm 1).isEmpty
    && (s.strandOf sm 0 8).status == 2 && (s.strandOf sm 1 8).status == 2

/-- A die answers CSR and object accesses (R18, R484). -/
def State.dieUp (s : State) (die : Nat) : Bool :=
  if die < 4 then !s.tileHeld die && s.seamUp die
  else if die == 4 then !s.hubHeld
  else if die == 7 then s.islandUp
  else !s.st.porHeld

/-! ### Event blocks (R440-R452) -/

/-- Where a fault came from: MASTER, ACCESS, ADDR, DETAIL of its record (R446). -/
structure Src where
  master : Nat := 0xFF
  access : Nat := 0
  addr   : Option Nat := none
  detail : Nat := 0
deriving DecidableEq, Repr, Inhabited

/-- Block n. -/
def State.blk (s : State) (n : Nat) : EvtBlock := KMap.get {} s.ev.blk n

/-- Replace block n. -/
def State.setBlk (s : State) (n : Nat) (b : EvtBlock) : State :=
  { s with ev := { s.ev with blk := KMap.set {} s.ev.blk n b } }

/-- The first-error record (R446). -/
def packFer (s : State) (n cls code : Nat) (src : Src) : Nat :=
  (src.addr.getD 0) % 2 ^ 64 + s.ct * 2 ^ 64 + src.master % 256 * 2 ^ 128 + src.access % 256 * 2 ^ 136
    + cls % 4 * 2 ^ 144 + b2n src.addr.isSome * 2 ^ 146 + s.ctState * 2 ^ 147
    + b2n (decide (5 ≤ blockDie n)) * 2 ^ 150 + code % 256 * 2 ^ 160 + src.detail % 2 ^ 88 * 2 ^ 168

/-- Ceiling of the ladder for a held class (R452, ESC_CEIL). -/
def State.ceiling (s : State) (n cls : Nat) : Nat :=
  if cls == 2 then bits (s.c (K.ESC_CEIL n)) 7 4 else bits (s.c (K.ESC_CEIL n)) 3 0

/-- A hardware event sets bit `i` of STAT now: a write of 1 in the same FCLK cycle does not clear it (R7). -/
def EvtBlock.heat (b : EvtBlock) (i now : Nat) : EvtBlock :=
  { b with hot := setBit (if sameCycle b.hotAt now then b.hot else 0) i true, hotAt := now }

/-- Bit `i` of STAT was set by a hardware event in the present cycle (R7). -/
def EvtBlock.isHot (b : EvtBlock) (i now : Nat) : Bool := sameCycle b.hotAt now && bit b.hot i

/-- A change that item 4 has to gather (R457). -/
def EvtBlock.mark (b : EvtBlock) (now : Nat) : EvtBlock :=
  { b with changed := true, changedAt := if b.changed then b.changedAt else now, changeLast := now }

/-- Record capture by R447. Of two faults of one class in one cycle the record holds the one of the lower code; bit 10 of `hot` says
that the record was taken in this cycle. -/
def EvtBlock.capture (b : EvtBlock) (heldCls cls : Nat) (fer now : Nat) : EvtBlock :=
  let lower := cls == heldCls && b.isHot 10 now && decide (bits fer 167 160 < bits b.fer 167 160)
  if !b.ferValid then { (b.heat 7 now).heat 10 now with ferValid := true, fer := fer }
  else if heldCls < cls || lower then { (b.heat 8 now).heat 10 now with more := true, fer := fer }
  else { b.heat 8 now with more := true }

/-- A fault in the FCLK cycle of an accepted clear wins: what the clear lifted stands again, and the clear is refused (R456).
The record that the clear released is kept. -/
def EvtBlock.unclear (b : EvtBlock) (now : Nat) : EvtBlock :=
  match b.lifted with
  | none => b
  | some l =>
    if sameCycle b.clearedAt now then
      { b with cls := l.cls, step := l.step, cause := l.cause, pending := b.pending || l.pending, contain := l.contain,
               isolate := l.isolate, ferValid := l.ferValid, timer := l.timer, requal := false, clrRefused := true, lifted := none }
    else { b with lifted := none }

/-- The block's part of a raise (R445, R447, R452): no action on the rest of the machine. `cls` 0 is an informational
raise; `lasting` says that the condition still stands (CAUSE). -/
def EvtBlock.raise (b : EvtBlock) (cls code fer esc ceil : Nat) (lasting : Bool) (ct master now : Nat) : EvtBlock :=
  let b := { (b.mark now).heat 0 now with pending := true, count := min (b.count + 1) 0xFFFFFFFF, lastSyn := code,
                                          raiseCt := ct, raiseMaster := master }
  if cls == 0 then b
  else
    let b := (b.unclear now).heat 3 now
    let old := b.cls
    -- class of the fault that the record explains
    let b := b.capture (bits b.fer 145 144) cls fer now
    let b := { b with cls := max old cls, cause := if old < cls then lasting else if old == cls then b.cause || lasting else b.cause }
    -- a fault during requalification fails it: STEP 1 and a fresh timer (R450, R456)
    let fresh := b.requal
    let b := { b with requal := false }
    if cls == 3 then { b with step := max b.step 3, timer := none }
    else
      let b := { b with step := if fresh then 1 else max b.step 1, timer := if fresh then none else b.timer }
      if 1 < ceil && b.step < ceil then
        match b.timer with
        | none => { b with timer := some esc, timerAt := now }
        | some t => if old < cls then { b with timer := some esc, timerAt := now } else { b with timer := some t }
      else b

/-- A raise, without the fatal action of R454 (see `State.raise`). -/
def State.raiseCore (s : State) (n cls code : Nat) (lasting : Bool := false) (src : Src := {}) : State :=
  if blockReserved n then s
  else
    let b := s.blk n
    s.setBlk n (b.raise cls code (packFer s n cls code src) (s.c (K.ESC_TICKS n)) (s.ceiling n (max b.cls cls))
      lasting s.ct src.master s.now)

/-- A lasting condition has ended: CAUSE reads 0. -/
def State.causeEnds (s : State) (n : Nat) : State := s.setBlk n { s.blk n with cause := false }

/-- FCLK runs from REF100 (R29, R167). -/
def State.fromRef (s : State) : Bool := s.st.refPresent && !s.st.holdover && s.c K.REF_SEL == 0

/-- Limit of R173 beyond which whole sync periods cannot be told apart: SYNC_PERIOD * 25,000, in ps. -/
def State.unresolvedLimit (s : State) : Nat := s.c K.SYNC_PERIOD * 25000 * Config.us

/-- The hatband has now run too long without REF100 and without an accepted sync edge (R173). -/
def State.ranTooLong (s : State) : Bool :=
  match s.tm.xtalSince with
  | some t => decide (max t s.tm.lastSync + s.unresolvedLimit < s.now)
  | none => false

/-- The source of FCLK is noted: since when it is XTAL; when it returns to REF100, whether it was too long (R173). -/
def State.noteRef (s : State) : State :=
  { s with tm := { s.tm with xtalSince := if s.fromRef then none else some (s.tm.xtalSince.getD s.now)
                             unresolved := s.tm.unresolved || (s.fromRef && s.ranTooLong) } }

/-- Change of CT_STATE: E549 code 0x01 is raised (R184). Run after every change of what it depends on. -/
def State.updCtState (s : State) : State :=
  if s.ctState == s.o K.CT_STATE then s.noteRef
  else (s.noteRef.setO K.CT_STATE s.ctState).raiseCore 549 0 1

/-! ### Check-bit inversion (R462, R463) -/

/-- An armed injection of checker `chk` of block n takes effect on the next check value: 0 none, 1 one bit, 2 two
bits; once mode is used up. -/
def State.injFire (s : State) (n chk : Nat) : Nat × State :=
  let v := (s.blk n).inj
  if bits v 2 0 == chk && (bits v 4 3 == 1 || bits v 4 3 == 2) then
    let kind := if bit v 22 then 2 else 1
    if bits v 4 3 == 1 then
      (kind, s.setBlk n { s.blk n with inj := v - 2 ^ 3 + (if bit v 5 then 0 else 2 ^ 5) })
    else (kind, s)
  else (0, s)

/-! ### Ports and links that every family reads -/

/-- Port p beside its objects. -/
def State.port (s : State) (p : Nat) : Port := KMap.get {} s.fab.port p

/-- Update port p. -/
def State.updPort (s : State) (p : Nat) (f : Port → Port) : State :=
  { s with fab := { s.fab with port := KMap.upd {} s.fab.port p f } }

/-- Lanes of a ganged port at its configured width: quads a ×8 or ×16 port takes (R272). -/
def State.quads (s : State) (p : Nat) : Nat :=
  let w := s.c (K.PORT_WIDTH p)
  if w == 16 then 4 else if w == 8 then 2 else 1

/-- Port p is a member of a wider port that starts below it. -/
def State.isMember (s : State) (p : Nat) : Bool :=
  (List.range 3).any (fun i => decide (i + 1 ≤ p % 4) && decide (i + 1 < s.quads (p - (i + 1))))

/-- The lowest member of the port that quad p belongs to. -/
def State.lead (s : State) (p : Nat) : Nat :=
  match (List.range 3).find? (fun i => decide (i + 1 ≤ p % 4) && decide (i + 1 < s.quads (p - (i + 1)))) with
  | some i => p - (i + 1)
  | none => p

/-- The link of port p is up. -/
def State.linkUp (s : State) (p : Nat) : Bool := s.o (K.LINK_UP p) == 1

/-- Slot s beside its objects. -/
def State.slot (s : State) (n : Nat) : Slot := KMap.get {} s.pw.slot n

/-- Update slot n. -/
def State.updSlot (s : State) (n : Nat) (f : Slot → Slot) : State :=
  { s with pw := { s.pw with slot := KMap.upd {} s.pw.slot n f } }

/-- vPPB v of VCS n. -/
def State.vppb (s : State) (n v : Nat) : Vppb := KMap.get {} s.fab.vppb (n * 64 + v)

/-- Update a vPPB. -/
def State.updVppb (s : State) (n v : Nat) (f : Vppb → Vppb) : State :=
  { s with fab := { s.fab with vppb := KMap.upd {} s.fab.vppb (n * 64 + v) f } }

/-- Binding of vPPB v of VCS n: kind, port, LD. -/
def State.binding (s : State) (n v : Nat) : Option (Nat × Nat × Nat) := KMap.get none s.fab.bind (n * 64 + v)

/-- Ports with ROLE r and AGENT a, lowest first. -/
def State.portsOf (s : State) (r a : Nat) : List Nat :=
  (List.range 96).filter (fun p => s.o (K.ROLE p) == r && s.o (K.AGENT p) == a)

/-- A session by number. -/
def State.sess? (s : State) (sid : Nat) : Option Session := KMap.get none s.mg.sess sid

/-- The session has an image blob in transfer (R530). -/
def Session.imageOpen (x : Session) : Bool :=
  match x.blob with
  | some b => b.kind == 0 && (b.state == 1 || b.state == 2)
  | none => false

/-- Update an open session. -/
def State.updSess (s : State) (sid : Nat) (f : Session → Session) : State :=
  { s with mg := { s.mg with sess := KMap.upd none s.mg.sess sid (Option.map f) } }

/-- An answer of the object dictionary: abort code and DETAIL, 0 for success (R490). -/
structure OdAns where
  abort  : Nat := 0
  detail : Nat := 0
deriving DecidableEq, Repr, Inhabited

/-- Success. -/
def odOk : OdAns := {}

/-- Refused with an abort code. -/
def odNo (code : Nat) (detail : Nat := 0) : OdAns := { abort := code, detail := detail }

/-- Insert a number into a rising list. -/
def insertNat (a : Nat) : List Nat → List Nat
  | [] => [a]
  | b :: l => if a < b then a :: b :: l else if a = b then b :: l else b :: insertNat a l

end Sys2Proof.Machine
end

