-- ==== Sys2Proof/Machine/PortDown.lean ====
section
/-!
DEFINITION. Ending requests, fences and queues: what happens when a port, a target or a host is lost (R75, R118,
R120, R142, R239, R262-R268).
-/
namespace Sys2Proof.Machine

/-! ### Agents of fences (R134) -/

/-- Fence agent of a host. -/
def agentHost (n : Nat) : Nat := n
/-- Fence agent of an end device: port and requester. -/
def agentDev (p rid : Nat) : Nat := 0x1000000 + p * 65536 + rid
/-- Fence agent of a slice. -/
def agentSlice (n : Nat) : Nat := 0x10000000 + n
/-- Fence agent of a service core (R150). -/
def agentCore (n : Nat) : Nat := 0x20000000 + n

/-- A request by number. -/
def State.txn? (s : State) (id : Nat) : Option Txn := KMap.get none s.ord.txn id

/-- Update a service core. -/
def State.updCore (s : State) (c : Nat) (f : SvcCore → SvcCore) : State :=
  { s with ord := { s.ord with core := KMap.upd {} s.ord.core c f } }

/-- A service core. -/
def State.coreAt (s : State) (c : Nat) : SvcCore := KMap.get {} s.ord.core c

/-- Count of accesses under a guard epoch (R395), one more or one less. -/
def State.gepochCount (s : State) (e : Nat) (up : Bool) : State :=
  { s with gd := { s.gd with counts := KMap.upd 0 s.gd.counts (e % 16) (fun n => if up then n + 1 else n - 1) } }

/-- A slice. -/
def State.slice (s : State) (n : Nat) : Slice := KMap.get {} s.mv.slice n

/-- Update a slice. -/
def State.updSlice (s : State) (n : Nat) (f : Slice → Slice) : State :=
  { s with mv := { s.mv with slice := KMap.upd {} s.mv.slice n f } }

/-! ### Ending one request -/

/-- A covered write made at `ct` has ended in error at a port (R136, R137); a trigger fence whose edge is not known keeps it (R188). -/
def Fence.fail (ct port : Nat) (f : Fence) : Fence :=
  if f.kind = .trigger && f.ctTrig.isNone then { f with errs := f.errs ++ [(ct, port)] }
  else { f with error := true, first := if f.error then f.first else port }

/-- A covered write has ended for every fence that waits for it (R136, R137). -/
def Fence.writeEnded (id ct port : Nat) (ok : Bool) (f : Fence) : Fence :=
  if f.waits.contains id then
    let f := { f with waits := f.waits.filter (· ≠ id) }
    if ok then f else f.fail ct port
  else f

/-- Port that a fence record names for a write (R137). DEDUCED: for a window line, the port of a replica's target that erred, or of the first
live one. -/
def Txn.named (t : Txn) : Nat := if t.dest < 96 then t.dest else t.blame

/-- A write of an agent has ended in error: the agent's next fence tells it (R136). -/
def State.noteError (s : State) (agent port : Nat) : State :=
  { s with ord := { s.ord with errSince := KMap.upd 0 s.ord.errSince agent (fun n => if n == 0 then port + 1 else n) } }

/-- Apply to every fence outstanding. -/
def State.mapFences (s : State) (g : Fence → Fence) : State :=
  { s with ord := { s.ord with fence := KMap.mapVals none (fun _ f => f.map g) s.ord.fence } }

/-- Address of stream offset `o` in a list of pieces (address, bytes). -/
def pieceAddr : List (Nat × Nat) → Nat → Nat
  | [], o => o
  | (a, n) :: l, o => if o < n then a + o else pieceAddr l (o - n)

/-- A fault of a descriptor at stream offset `off`, in the chunk that starts at `chunk`: the lowest one counts (R358). -/
def ActiveDesc.fault (a : ActiveDesc) (reason chunk off addr : Nat) : ActiveDesc :=
  if a.reason ≠ 0 && a.badOff ≤ off then a
  else { a with reason := reason, bad := chunk, badOff := off, faultAddr := addr }

/-- The engine's view of a chunk request that ended (R354, R358): a failed one faults the descriptor. -/
def ActiveDesc.reqEnded (id : Nat) (write : Bool) (ok : Bool) (reason chunk off : Nat) (a : ActiveDesc) : ActiveDesc :=
  if !(if write then a.writes else a.reads).contains id then a
  else
    let a := { a with reads := if write then a.reads else a.reads.filter (· ≠ id),
                      writes := if write then a.writes.filter (· ≠ id) else a.writes }
    if ok then a else a.fault reason chunk off (pieceAddr (if write then a.dst else a.src) off)

/-- A feed write ends with the ring write that holds its last byte (R190). -/
def State.endFeed (s : State) (ok : Bool) (port id : Nat) : State :=
  match s.txn? id with
  | none => s
  | some t =>
    let s : State := { s with ord := { s.ord with txn := KMap.set none s.ord.txn id none } }
    let s := if t.counted then s.gepochCount t.gepoch false else s
    (if ok then s else s.noteError t.agent port).mapFences (Fence.writeEnded id t.ct port ok)

/-- A write of a SAVE is acknowledged; with the last one the command is done (R361). DEDUCED: with a target lost on the way it is
refused with reason 0x08. -/
def State.saveEnded (s : State) (id : Nat) (ok : Bool) : State :=
  match s.mv.save with
  | none => s
  | some c =>
    let c := { c with waits := c.waits.filter (· ≠ id), bad := c.bad || !ok }
    if !c.waits.isEmpty then { s with mv := { s.mv with save := some c } }
    else
      let s : State := { s with mv := { s.mv with save := none } }
      if c.bad then (s.setO K.SLICE_STATE 3).setO K.SLICE_RESULT 8 else (s.setO K.SLICE_STATE 2).setO K.SLICE_RESULT 0

/-- Take the request off the tables: guard count, fences, the core's ASYNC_WERR (R161), the engine. -/
def State.endTxn (s : State) (id : Nat) (ok : Bool) (reason : Nat := 0x14) : State :=
  match s.txn? id with
  | none => s
  | some t =>
    let s := { s with ord := { s.ord with txn := KMap.set none s.ord.txn id none } }
    let s := if t.counted then s.gepochCount t.gepoch false else s
    let s := if t.write then (if ok then s else s.noteError t.agent t.named).mapFences (Fence.writeEnded id t.ct t.named ok) else s
    match t.purpose with
    | .core =>
      let c := t.master - 0x70
      if t.write then
        if ok then s
        else (s.updCore c (fun k => { k with asyncWerr := true, werrAt := s.now })).raiseCore (568 + c) 1 2 false
               { master := t.master, access := 2, addr := some t.view }
      else s.updCore c (fun k => { k with loads := k.loads - 1 })
    | .mover =>
      let f := ActiveDesc.reqEnded id t.write ok reason t.line t.step
      let s := s.updSlice t.w (fun sl => { sl with active := sl.active.map f, ending := sl.ending.map f })
      if t.write then s
      else { s with mv := { s.mv with reads := KMap.upd 0 s.mv.reads (t.master - 0x60) (· - 1) } }
    | .save => s.saveEnded id ok
    | .agent =>
      let l := KMap.get [] s.ord.feeds id
      let s : State := { s with ord := { s.ord with feeds := KMap.set [] s.ord.feeds id [] } }
      l.foldl (fun (s : State) f => s.endFeed ok t.dest f) s
    | _ => s

/-- Answer a request at its port: status 0 good, 1 poison, 2 Completer Abort, 3 Unsupported Request, 4 GO-Err. -/
def State.answer (s : State) (p tag rid status data : Nat) : State :=
  if s.linkUp p then s.emit .completion p [tag, rid, status, data] else s

/-- An access to a host or an end device has been transmitted: it ends for its guard epoch (R395). An access to a memory
target has a bound and ends with its answer. -/
def State.transmitted (s : State) (id : Nat) : State :=
  match s.txn? id with
  | none => s
  | some t =>
    if !t.counted || t.deadline.isSome then s
    else
      ({ s with ord := { s.ord with txn := KMap.set none s.ord.txn id (some { t with counted := false }) } } : State).gepochCount
        t.gepoch false

/-- Status of a port's non-posted request that its destination will not answer: `np`, but GO-Err for D2H (R265) and RspIHitI,
status 5, for an H2D snoop. -/
def Txn.failCode (t : Txn) (np : Nat) : Nat := if t.proto == 2 then 4 else if t.proto == 3 then 5 else np

/-- One line of an end device's request to HDM has ended (R243): the last one answers the request, poisoned when one was bad. -/
def State.partEnded (s : State) (t : Txn) (ok : Bool) (data : Nat) : State :=
  match s.txn? t.w with
  | none => s
  | some u =>
    let u := { u with data := u.data + data % 2 ^ (8 * t.bytes) * 2 ^ (8 * t.step), step := u.step - 1,
                      replica := if ok then u.replica else 1 }
    let s : State := { s with ord := { s.ord with txn := KMap.set none s.ord.txn t.w (some u) } }
    if u.step == 0 then (s.answer u.port u.tag u.rid (if u.replica == 0 then 0 else 1) u.data).endTxn t.w true else s

/-- End a request because its target was lost (R265), by the row for its kind. `silent`: at the reset of the target's tile a write's
requester gets no completion (R163). -/
def State.loseTxn (s : State) (id : Nat) (silent : Bool := false) : State :=
  match s.txn? id with
  | none => s
  | some t =>
    match t.purpose with
    | .part => (s.endTxn id false).partEnded t false 0
    | .port =>
      if silent && t.write then s.endTxn id false
      else
      let s := s.endTxn id (!t.write)
      let host := s.o (K.ROLE t.dest) == 1
      let dpc := t.vcs ≠ 0xFF && (s.vppb t.vcs t.vppb).dpc
      if t.nonPosted then
        s.answer t.port t.tag t.rid (t.failCode (if host || !dpc || (s.vppb t.vcs t.vppb).dpcUr then 3 else 2)) 0
      else if t.posted then (if host then s.incO (K.LOST_WRITES t.port) else s)
      else if t.write then (s.incO (K.LOST_WRITES t.dest)).answer t.port t.tag t.rid 0 0
      else if t.bytes == 0 then s.answer t.port t.tag t.rid 0 0
      else (s.incO (K.POISONED_READS t.dest)).answer t.port t.tag t.rid 1 0
    | .mover => s.endTxn id false (if t.write then 0x14 else 0x13)
    | _ => s.endTxn id false

/-- Every request number outstanding that meets a condition. -/
def State.txnsWhere (s : State) (f : Txn → Bool) : List Nat :=
  (s.ord.txn.filter (fun e => match e.2 with | some t => f t | none => false)).map (·.1)

/-! ### The seams' pools (R317) -/

/-- A direction of a seam. -/
def State.sdir (s : State) (sm d : Nat) : SeamDir := KMap.get {} s.seams.dir (sm * 2 + d)

/-- Update a direction of a seam. -/
def State.updSdir (s : State) (sm d : Nat) (f : SeamDir → SeamDir) : State :=
  { s with seams := { s.seams with dir := KMap.upd {} s.seams.dir (sm * 2 + d) f } }

/-- A direction of a timing strand. -/
def State.timing (s : State) (sm d : Nat) : Timing := KMap.get {} s.seams.timing (sm * 2 + d)

/-- Update a direction of a timing strand. -/
def State.updTiming (s : State) (sm d : Nat) (f : Timing → Timing) : State :=
  { s with seams := { s.seams with timing := KMap.upd {} s.seams.timing (sm * 2 + d) f } }

/-- Data-strand pool of a class at tile-local input or output j (R317). -/
def poolOf (j : Nat) (cls : Cls) : Nat :=
  match cls with
  | .sys => 127
  | .coh => j
  | .bulk => 24 + j
  | .view => 48 + j

/-- Allotment of a data-strand pool (R317). -/
def allotment (d pool : Nat) : Nat :=
  if d == 0 then
    if pool < 24 then 16 else if pool < 48 then 24 else if pool < 72 then 16 else if pool < 74 then 512 else 0
  else if pool < 72 then 32 else if pool == 72 then 256 else 0

/-- A cell leaves its pool: the credit goes back with the next unit of the other direction (R317, R318). -/
def State.poolLeave (s : State) (sm d pool : Nat) : State :=
  s.updSdir sm d (fun x => { x with pool := KMap.upd 0 x.pool pool (· - 1), ret := KMap.upd 0 x.ret pool (· + 1) })

/-! ### Cells of a lost port (R75) -/

/-- Cells held in a keyed store, and how many of them leave for egress p. -/
def cellsFor (p : Nat) (m : KMap (List Cell)) : Nat :=
  (m.map (fun e => (e.2.filter (fun c => c.egress == p)).length)).sum

/-- The store without the cells that leave for egress p. -/
def cellsNotFor (p : Nat) (m : KMap (List Cell)) : KMap (List Cell) :=
  KMap.mapVals [] (fun _ l => l.filter (fun c => c.egress ≠ p)) m

/-- Give up one multicast reference; the slot is free at zero (R72). -/
def McSlot.unref : Option McSlot → Option McSlot
  | some x => if x.refs ≤ 1 then none else some { x with refs := x.refs - 1 }
  | none => none

/-- Give up the reference of port p on a broadcast slot; the slot is free at zero (R74). -/
def BSlot.unref (p : Nat) : Option BSlot → Option BSlot
  | some b =>
    let left := b.ports.filter (· ≠ p)
    if left.isEmpty then none else some { b with ports := left }
  | none => none

/-- A store of single cells without the cells of egress p. -/
def slotsNotFor (p : Nat) (m : KMap (Option Cell)) : KMap (Option Cell) :=
  m.filter (fun e => match e.2 with | some c => c.egress ≠ p | none => true)

/-- The cell path without the cells of egress port p, whose plank outputs are `outs` (R75). -/
def Plank.flush (pl : Plank) (p : Nat) (outs : List Nat) : Plank :=
  let mine := fun (k : Nat) => outs.contains (k / 4)
  let ptrs := ((KMap.keep mine pl.egress).map (fun e => e.2.filter (·.mcast))).flatten
    ++ ((KMap.keep mine pl.merge).map (fun e => (e.2.map (·.cell)).filter (·.mcast))).flatten
  { pl with
    voq := cellsNotFor p pl.voq
    landing := cellsNotFor p pl.landing
    fwd := KMap.keep (fun k => k / 4 % 96 ≠ p) pl.fwd
    full := slotsNotFor p pl.full
    mcast := ptrs.foldl (fun m c => KMap.upd none m c.mcidx McSlot.unref) pl.mcast
    egress := KMap.keep (fun k => !mine k) pl.egress
    reseq := KMap.keep (fun k => k / 4 % 96 ≠ p) pl.reseq
    merge := KMap.keep (fun k => !mine k) pl.merge
    sched := KMap.keep (fun k => !mine k) pl.sched
    cls := KMap.keep (· ≠ p) pl.cls
    reorder := KMap.keep (fun k => !mine k) pl.reorder
    reorderR := KMap.keep (fun k => !mine k) pl.reorderR
    adv := KMap.keep (fun k => !mine k) pl.adv
    bslot := KMap.mapVals none (fun _ b => BSlot.unref p b) pl.bslot }

/-- Cells that the flush of egress port p discards. -/
def Plank.flushed (pl : Plank) (p : Nat) (outs : List Nat) : Nat :=
  let mine := fun (k : Nat) => outs.contains (k / 4)
  cellsFor p pl.voq + cellsFor p pl.landing + (pl.full.length - (slotsNotFor p pl.full).length)
    + ((KMap.keep mine pl.egress).map (fun e => e.2.length)).sum
    + ((KMap.keep (fun k => k / 4 % 96 == p) pl.reseq).map (fun e => e.2.held.length)).sum
    + ((KMap.keep mine pl.merge).map (fun e => e.2.length)).sum

/-- The landing pools' seam credits of the cells that leave for egress p go back (R317). -/
def State.freeLanding (s : State) (p : Nat) : State :=
  s.pl.landing.foldl (fun (s : State) e =>
    if e.1 % 4 == 0 then s
    else (e.2.filter (fun c => c.egress == p)).foldl (fun (s : State) c =>
      s.poolLeave (e.1 / 4 / 24) 0 (poolOf (e.1 / 4 % 24) c.cls)) s) s

/-- The flush of an egress port: VOQs, landing stores, fulling store, egress queues, resequencers, multicast
pointers and tile broadcast references; the cells are counted (R75). -/
def State.flushEgress (s : State) (p : Nat) : State :=
  let outs := (List.range (s.quads p)).map (p + ·)
  let cr : Crown := { s.cr with carry := s.cr.carry.filter (fun e => match e.2 with | some x => x.port ≠ p | none => false) }
  ({ s.freeLanding p with pl := s.pl.flush p outs, cr := cr } : State).addO (K.FLUSHED_CELLS p) (s.pl.flushed p outs)

/-! ### Fences, windows, hosts -/

/-- A fence with a doorbell that `f` picks; a core barrier has none. -/
def abandons (f : Fence → Bool) : Option Fence → Bool
  | some x => f x && decide (x.kind ≠ FenceKind.barSys)
  | none => false

/-- Abandon every outstanding fence of the agents that `f` picks (R142). -/
def State.abandonFences (s : State) (f : Fence → Bool) : State :=
  ({ s with ord := { s.ord with fence := s.ord.fence.filter (fun e => !abandons f e.2) } } : State).addO
    K.FENCES_ABANDONED (s.ord.fence.filter (fun e => abandons f e.2)).length

/-- Run state of window w. -/
def State.win (s : State) (w : Nat) : Window := KMap.get {} s.cr.win w

/-- Update window w. -/
def State.updWin (s : State) (w : Nat) (f : Window → Window) : State :=
  { s with cr := { s.cr with win := KMap.upd {} s.cr.win w f } }

/-- The reservation tags at the crown that `hit` picks, by core, are lost. -/
def State.loseTags (s : State) (hit : Nat → Bool) : State :=
  let f := fun (c : Nat) (x : SvcCore) =>
    if hit c && (match x.resv with | some r => r.fabric | none => false) then { x with resv := none } else x
  { s with cr := { s.cr with resTag := KMap.keep (fun c => !hit c) s.cr.resTag }, ord := { s.ord with core := KMap.mapVals {} f s.ord.core } }

/-- A reservation that a core has asked for in window w is lost. -/
def SvcCore.unpend (x : SvcCore) (w : Nat) : SvcCore :=
  match x.resPend with
  | some r => if r.1.w == w then { x with resPend := none } else x
  | none => x

/-- A window has left ACTIVE, DEGRADED and RESYNC: reservations in it are lost (R156). -/
def State.dropWindowTags (s : State) (w : Nat) : State :=
  let s : State := { s with ord := { s.ord with core := KMap.mapVals {} (fun _ (x : SvcCore) => x.unpend w) s.ord.core } }
  s.loseTags (fun c => match KMap.get none s.cr.resTag c with | some x => x.1 == w | none => false)

/-- A window's STATE changes: E(532+w) code 0x01 (R442), and E531 when it fails. -/
def State.setWinState (s : State) (w st : Nat) : State :=
  if s.o (K.STATE w) == st then s
  else
    let s := (s.setO (K.STATE w) st).raiseCore (532 + w) 0 1
    let s := if 2 ≤ st && st ≤ 4 then s else s.dropWindowTags w
    if st == 5 then s.raiseCore 531 2 4 true { master := 0x78 } else s

/-- A freeze becomes FAILED (R200): copies stop, the sweep goes on. -/
def State.failFreeze (s : State) (w : Nat) : State :=
  if s.o (K.FRZ_STATE w) == 2 || s.o (K.FRZ_STATE w) == 1 then
    (s.setO (K.FRZ_STATE w) 4).raiseCore (532 + w) 0 3
  else s

/-- The target named by an object is held by port p. -/
def State.targetPort (s : State) (m : Nat) : Option Nat := (s.portsOf 2 m).head?

/-- An evacuation from or to a lost target ends FAILED (R365). -/
def State.failEvac (s : State) (m : Nat) : State :=
  match s.mv.evac with
  | none => s
  | some e => if e.src == m || e.dst == m then ({ s with mv := { s.mv with evac := none } } : State).setO K.EVAC_STATE 4 else s

/-- Loss of memory target m for the windows (R118) and freezes (R200). STATE: 0 DISABLED, 1 INITIALISING, 2 ACTIVE,
3 DEGRADED, 4 RESYNC, 5 FAILED (R82). -/
def State.loseTarget (s : State) (m : Nat) : State :=
  let s := s.failEvac m
  (List.range 16).foldl (fun s w =>
    let s := if (s.o (K.FRZ_STATE w) == 1 || s.o (K.FRZ_STATE w) == 2) && s.c (K.FRZ_SHADOW_TARGET w) == m
      then s.failFreeze w else s
    if s.cB (K.WIN_ENABLE w) && s.o (K.STATE w) ≠ 0 && s.o (K.STATE w) ≠ 5 then
      let v := s.win w
      let l0 := v.live0 && s.c (K.PRIMARY_TARGET w) ≠ m
      let l1 := v.live1 && s.c (K.MIRROR_TARGET w) ≠ m
      -- a resync loses the replica that it brings back (R119)
      let back := match v.returning with
        | some r => (if r == 0 then s.c (K.PRIMARY_TARGET w) else s.c (K.MIRROR_TARGET w)) == m
        | none => false
      if l0 == v.live0 && l1 == v.live1 && !back then s
      else
        let s := s.updWin w (fun v => { v with live0 := l0, live1 := l1, returning := none, resyncAt := 0 })
        if !l0 && !l1 then (s.setWinState w 5).failFreeze w
        else s.setWinState w 3
    else s) s

/-- Hosts of a window: bits of HOSTS. -/
def State.winHosts (s : State) (w : Nat) : List Nat := bitList 64 (s.c (K.HOSTS w))

/-- Host n has any port with its link up. -/
def State.hostUp (s : State) (n : Nat) : Bool := (s.portsOf 1 n).any s.linkUp

/-- VCS n is up (R236). -/
def State.isVcsUp (s : State) (n : Nat) : Bool := KMap.get false s.fab.vcsUp n

/-- FW_STATE once an image blob in transfer is given up (R530, R546): idle again. -/
def State.imageGone (s : State) : State :=
  if s.o K.FW_STATE == 1 || s.o K.FW_STATE == 2 then s.setO K.FW_STATE 0 else s

/-- Close a session: its role, features, draft and blob go (R467, R492, R530). -/
def State.closeSession (s : State) (sid : Nat) : State :=
  let s := match s.sess? sid with
    | some x => if x.imageOpen then s.imageGone else s
    | none => s
  let s := { s with mg := { s.mg with sess := KMap.set none s.mg.sess sid none, seg := KMap.set none s.mg.seg sid none } }
  if s.o K.DRAFT_STATE == 1 && s.o K.DRAFT_OWNER == sid then
    (((({ s with gen := { s.gen with draft := [], staged := [] } } : State).setO K.DRAFT_STATE 0).setO
      K.DRAFT_OWNER 0).setO K.DRAFT_CHANGES 0)
  else s

/-- SESSION_ID of VCS n's mailbox session (R508). -/
def sidMailbox (n : Nat) : Nat := 2 + n * 256
/-- SESSION_ID of a CAN FD peer. -/
def sidCan (node : Nat) : Nat := 1 + node * 256
/-- SESSION_ID of a service-port session. -/
def sidSvc (k : Nat) : Nat := 3 + k * 256

/-- A vPPB after its switch's upstream link has gone down: what the manager made of it stays (R239). -/
def Vppb.afterHostDown (b : Vppb) : Vppb :=
  { linkView := b.linkView, status := b.status, pwrOff := b.pwrOff, ind := b.ind }

/-- Slot n is powered. -/
def State.slotPowered (s : State) (n : Nat) : Bool := (s.slot n).state = .ramp || (s.slot n).state = .on

/-- Change the extents of a host's DPA blocks. -/
def State.mapExtents (s : State) (n dpa count : Nat) (g : Extent → Option Extent) : State :=
  { s with fab := { s.fab with extents := s.fab.extents.filterMap (fun x =>
      if x.vcs == n && dpa ≤ x.dpa && x.dpa < dpa + count then g x else some x) } }

/-- Drop the offered extents of a command: they return to the free set. -/
def State.dropOffered (s : State) (o : ExtentOp) : State :=
  s.mapExtents o.vcs o.dpa o.count (fun x => if x.state = .offered || x.state = .filling then none else some x)

/-- EXTENT_STATE and the command's end. -/
def State.extEnd (s : State) (st : Nat) : State := ({ s with fab := { s.fab with extOp := none } } : State).setO K.EXTENT_STATE st

/-- The last port of host n goes down while an add for it runs: nothing is mapped, and it ends as timed out (R248). -/
def State.addLost (s : State) (n : Nat) : State :=
  match s.fab.extOp with
  | none => s
  | some o => if o.add && o.vcs == n then (s.dropOffered o).extEnd 4 else s

/-- The last port of host n has gone down: VCS n returns to the reset state of a switch whose upstream link is down;
bindings and extents are kept (R239). -/
def State.vcsDown (s : State) (n : Nat) : State :=
  let f : Fabric := { s.fab with
    vcsUp := KMap.set false s.fab.vcsUp n false
    hdm := KMap.keep (fun k => k / 64 ≠ n) s.fab.hdm
    usp := KMap.keep (· ≠ n) s.fab.usp
    bar2 := KMap.keep (· ≠ n) s.fab.bar2
    cacheRoute := KMap.keep (fun k => k / 16 ≠ n) s.fab.cacheRoute
    vppb := KMap.mapVals {} (fun k b => if k / 64 == n then b.afterHostDown else b) s.fab.vppb }
  let s := { s with
    fab := f
    ev := { s.ev with msix := KMap.keep (fun k => k / 8192 ≠ n) s.ev.msix, msixPend := KMap.keep (fun k => k / 8192 ≠ n) s.ev.msixPend }
    mg := { s.mg with doorbellInt := KMap.keep (· ≠ n) s.mg.doorbellInt } }
  -- Power Controller Control reads the slot's actual state
  let s := (List.range 32).foldl (fun s v =>
    match s.binding n v with
    | none => s
    | some (kind, p, ld) =>
      let s := if s.o (K.SLOT p) < 24 then
          s.updVppb n v (fun b => { b with pwrOff := !s.slotPowered (s.o (K.SLOT p)) }) else s
      if s.c (K.HOST_DOWN_RESET n) == 1 && s.linkUp p then s.emit .card p (if kind == 2 then [4, n, v, ld] else [3, n, v]) else s) s
  (s.addLost n).setO (K.DEC_COMMITTED n) 0 |>.closeSession (sidMailbox n)

/-- Host n departs (R120, R121): its marker goes behind its last request at each tile; here it starts with the
marker owed, and every fence of the host is abandoned. -/
def State.departHost (s : State) (n : Nat) : State :=
  ({ s with cr := { s.cr with leaving := KMap.upd none s.cr.leaving n (fun x => some (x.getD s.ord.nextTxn)) },
            ord := { s.ord with errSince := KMap.set 0 s.ord.errSince (agentHost n) 0 } } : State).abandonFences
    (fun f => f.agent == agentHost n)

/-- Every vPPB that binds port p: (VCS, vPPB). -/
def State.boundIn (s : State) (p : Nat) : List (Nat × Nat) :=
  (s.fab.bind.filter (fun e => match e.2 with | some (_, q, _) => q == p | none => false)).map
    (fun e => (e.1 / 64, e.1 % 64))

/-- Lanes of port p as lane numbers, at its configured width. -/
def State.lanesOf (s : State) (p : Nat) : List Nat := (List.range (4 * s.quads p)).map (· + 4 * p)

/-- Set the power state of the lanes of port p: 0 OFF, 1 NAP, 2 STANDBY, 3 ACTIVE (R298). -/
def State.setLanes (s : State) (ls : List Nat) (st : Nat) : State :=
  { s with fab := { s.fab with lane := ls.foldl (fun m l => KMap.upd {} m l (fun x => { x with power := st })) s.fab.lane } }

/-- Idle lanes of a DOWN or UNCLAIMED port: NAP, or OFF when LANE_IDLE was 1 at its last training (R299, R284). -/
def State.idleLanes (s : State) (p : Nat) : State :=
  s.setLanes (s.lanesOf p) (if (s.port p).set.idle == 1 then 0 else 1)

/-- The eye-scan record of R296. -/
def eyeRecord (e : Eye) (status rate ctEnd : Nat) : Nat :=
  let hdr := e.cmd / 2 ^ 80 % 2 ^ 16 + status * 2 ^ 16 + e.cmd % 4 * 2 ^ 24 + e.cmd / 2 ^ 8 % 4 * 2 ^ 26
    + e.cmd / 2 ^ 16 % 2 ^ 54 * 2 ^ 32 + rate * 2 ^ 88 + e.pts.length * 2 ^ 96 + e.ctStart * 2 ^ 128 + ctEnd * 2 ^ 192
  e.pts.reverse.zipIdx.foldl (fun v x => v + x.1 * 2 ^ (256 + 32 * x.2)) hdr

/-- The scan of quad q ends, complete (0) or aborted: the record keeps the points finished (R296, R297). -/
def State.endEye (s : State) (q status : Nat) : State :=
  match KMap.get none s.fab.eye q with
  | none => s
  | some e =>
    let s := s.setO (K.EYE_RECORD q) (eyeRecord e status (s.o (K.LINK_RATE (s.lead q))) s.ct)
    ({ s with fab := { s.fab with eye := KMap.set none s.fab.eye q none } } : State).setO (K.EYE_STATE q) 2

/-- Scans on the quads of port p end. -/
def State.endEyes (s : State) (p status : Nat) : State :=
  (List.range (s.quads p)).foldl (fun (s : State) i => s.endEye (p + i) status) s

/-- The link of port p leaves L0: its status objects read a link that is down (R285). -/
def State.linkDown (s : State) (p ltssm : Nat) : State :=
  let s := s.endEyes p 4
  let ls := (s.lanesOf p).foldl (fun m l => KMap.upd {} m l (fun (x : Lane) => { x with on := false, margin := false })) s.fab.lane
  let s : State := { s with fab := { s.fab with lane := ls } }
  let s := (((((s.setO (K.LINK_UP p) 0).setO (K.LINK_WIDTH p) 0).setO (K.LINK_RATE p) 0).setO (K.FLIT_ACTIVE p) 0).setO
    (K.PROTOCOL p) 0).setO (K.LTSSM_STATE p) ltssm
  (s.updPort p (fun q => { q with up := false, inL1 := false, looped := false, eqKept := false, ide := false, cxlIde := 0 })).idleLanes p

/-- End everything outstanding toward or from port p (R75, R265, R266), and what the loss means for its agent. DESIGN CHOICE: a host keeps its
fences while one of its ports is up, and when a commit takes it out of a window's HOSTS: R142 says 'the agent departs, or its port goes down',
and a host of two ports has not departed (R120). DEDUCED: an end
device's posted writes that completed step 4 are carried on; its other requests end, since nothing can take their answers. -/
def State.endForPort (s : State) (p : Nat) (silent : Bool) : State :=
  -- requests sent to the lost agent
  let s := (s.txnsWhere (fun t => t.dest == p)).foldl (fun (s : State) id => s.loseTxn id silent) s
  -- requests of a lost end device
  let s := if s.o (K.ROLE p) == 3 then
      (s.txnsWhere (fun t => t.purpose = .port && t.port == p && !t.posted)).foldl (fun (s : State) id => s.endTxn id true) s
    else s
  let s := s.flushEgress p
  -- rings that the port feeds close their open block (R368)
  let s : State := { s with mv := { s.mv with slice := KMap.mapVals {} (fun _ (x : Slice) =>
    { x with ring := x.ring.map (fun r => { r with closeDue := r.closeDue || r.port == p }) }) s.mv.slice } }
  let role := s.o (K.ROLE p)
  let agent := s.o (K.AGENT p)
  if role == 1 then
    if s.hostUp agent then s
    else
      -- posted and non-posted requests of end devices toward the host are among `dest = p` above
      (s.departHost agent).vcsDown agent
  else if role == 2 then s.loseTarget agent
  else if role == 3 then s.abandonFences (fun f => f.port == p && 0x1000000 ≤ f.agent && f.agent < 0x10000000)
  else s

/-- Why a port goes down. -/
inductive DownWhy where
  /-- R262: surprise loss; the port enters LOST when it was IN_USE -/
  | surprise
  /-- managed removal, unbind: the port enters DOWN -/
  | managed
  /-- LINK_ENABLE false -/
  | disabled
  /-- port reset, Physical Port Control: LOST with bindings kept when it was IN_USE or UNBINDING (R502) -/
  | reset
  /-- the reset of its tile: as a port reset, but writes in flight toward it get no completion (R163) -/
  | tile
deriving DecidableEq, Repr, Inhabited

/-- The vPPB view of a lost link (R262 step 2): Data Link Layer State Changed, AER, DPC. -/
def State.vppbsLinkDown (s : State) (p : Nat) (surprise : Bool) : State :=
  (s.boundIn p).foldl (fun s nv =>
    let (n, v) := nv
    let b := s.vppb n v
    let s := s.updVppb n v (fun b => { b with linkView := false, status := setBit b.status 8 true })
    let s := if surprise && s.o (K.HP_SURPRISE p) == 0 then
        s.updVppb n v (fun b => { b with aer := setBit b.aer 5 true }) else s
    let s := if surprise && b.dpc then
        (s.updVppb n v (fun b => { b with dpcTrig := true })).emit .aer n [v, 0x100] else s
    s.emit .hotplug n [v, setBit b.status 8 true]) s

/-- Port p goes down (R262, R264). Nothing happens to a port that is already down. -/
def State.portDown (s : State) (p : Nat) (why : DownWhy) : State :=
  let wasUp := s.linkUp p
  let st := s.o (K.PORT_STATE p)
  if !wasUp && why ≠ .disabled && why ≠ .managed then
    if (why == .reset || why == .tile) && 3 ≤ st then s.setO (K.PORT_STATE p) 5 else s
  else if !wasUp then (s.linkDown p 7).setO (K.PORT_STATE p) (if st == 0 then 0 else 1)
  else
    let s := s.linkDown p (if why == .disabled || why == .managed then 7 else 0)
    let s := s.incO (K.LINK_DOWNS p)
    let s := match why with
      | .surprise => s.raiseCore (4 * p) 2 6 false { master := p }
      | _ => s.raiseCore (4 * p) 0 2
    let s := s.vppbsLinkDown p (decide (why = .surprise))
    let st' := if st == 0 then 0
      else if why == .surprise || why == .reset || why == .tile then (if 3 ≤ st then 5 else 1)
      else 1
    (s.setO (K.PORT_STATE p) st').endForPort p (why == .tile)

end Sys2Proof.Machine
end

