-- ==== Sys2Proof/Machine/Resets.lean ====
section
/-!
DEFINITION. Reset domains (R550, R551), what each resets and keeps (R171, R397, R432, R456, R485), the entry to fulling
mode (R61), and the raise of an event with its fatal action (R445, R454, R455).
-/
namespace Sys2Proof.Machine

/-! ### The plank's entry to fulling (R61) -/

/-- A seam is healthy, or its tile is isolated by the manager: the seam condition of R61. -/
def State.seamsOk (s : State) : Bool :=
  (List.range 4).all (fun t => s.o (K.HEALTHY t) == 1 || s.o (K.ISOLATE t) == 1)

/-- Fulling starts at s = 0 with a new matcher self-test; a drain toward carding is cancelled (R61, R63).
Causes: 1 reset, 2 tile recovery, 3 grant conflict, 4 forced, 5 seam not healthy. DESIGN CHOICE: a cancelled drain counts as an entry
to fulling (MODE_CHANGES, LAST_CAUSE, pair counter): mode 2 is one of its own, and stage 1 starts again; R63 does not say. -/
def State.enterFulling (s : State) (cause : Nat) : State :=
  if s.hubHeld then s
  else if s.o K.PLANK_MODE == 0 && cause ≠ 1 then s
  else
    let s := { s with pl := { s.pl with pair := 0, lastCause := cause, selfAt := s.now } }
    let s := ((s.setO K.PLANK_MODE 0).setO K.MATCH_SELFTEST 1).setO K.CORE_READY 0
    if cause == 1 then s else s.incO K.MODE_CHANGES

/-! ### Object values lost at a reset (R485) -/

/-- Values that a reset of the hub keeps although they live there: window STATE and the departures that follow
(R113), freeze states (R171), the guard epoch and what tag stores are in use (R397), TICKS since power-on. -/
def keptAtHubReset (key : Nat) : Bool :=
  let ix := key / 256
  let sb := key % 256
  (0x2900 ≤ ix && ix < 0x2910 && sb == 0x0D) || (0x2A00 ≤ ix && ix < 0x2A10 && sb == 9) || key == K.GUARD_EPOCH
    || (0x3880 ≤ ix && ix < 0x38C0 && sb == 3)
    || (0x1810 ≤ ix && ix < 0x1814 && sb == 1)

/-- The tile that an RO object of a tile belongs to. -/
def tileOfKey (key : Nat) : Nat :=
  let ix := key / 256
  if ix < 0x2000 then (ix - 0x1000) / 16 / 24 else if ix < 0x2200 then (ix - 0x2100) / 24 else (ix - 0x2200) / 24

/-- RO value that a reset of these dies sets to its default. -/
def lostAt (hub : Bool) (tile : Nat → Bool) (island companion : Bool) (key : Nat) : Bool :=
  match odRow? key with
  | none => true
  | some r =>
    if r.access ≠ .ro then false
    else match r.home with
      | .hub => hub && !keptAtHubReset key
      | .tile => tile (tileOfKey key)
      | .island => island && key ≠ K.POR_COUNT && key ≠ K.THERM_SHUTDOWNS
      | .companion => companion
      | .event => false

/-- Clear the objects that a reset sets to default. -/
def State.clearObjects (s : State) (hub : Bool) (tile : Nat → Bool) (island companion : Bool) : State :=
  { s with od := s.od.filter (fun e => !lostAt hub tile island companion e.1) }

/-! ### Tile reset -/

/-- A lane after its tile's reset: its registers of R290 at their reset values. -/
def Lane.afterReset (x : Lane) : Lane := { power := x.power }

/-- Ports of tile t go down by a reset. -/
def State.portsReset (s : State) (t : Nat) : State :=
  (List.range 24).foldl (fun s i => s.portDown (24 * t + i) .tile) s

/-- A strand after a reset: the record of spares used and bad wires stays (R336); one stopped for its wires has them checked afresh
(R329). -/
def Strand.afterReset (x : Strand) : Strand := { spare := x.spare, bad := x.bad, retest := x.retest || decide (3 ≤ x.bad.length) }

/-- Clear all state of seam t but the record of spares and bad wires (R336). -/
def State.clearSeam (s : State) (t : Nat) : State :=
  let q := s.seams
  let fresh := fun (k : Nat) (x : Strand) => if k / 18 == t then x.afterReset else x
  { s with seams := { dir := KMap.keep (fun k => k / 2 ≠ t) q.dir, timing := KMap.keep (fun k => k / 2 ≠ t) q.timing,
                      seam := KMap.keep (fun k => k ≠ t) q.seam, strand := KMap.mapVals {} fresh q.strand } }

/-! ### Colour tags (R378, R383, R397) -/

/-- Target of a replica. -/
def State.replicaTarget (s : State) (w r : Nat) : Nat := if r == 0 then s.c (K.PRIMARY_TARGET w) else s.c (K.MIRROR_TARGET w)

/-- Offset of a replica's data on its target. -/
def State.replicaOffset (s : State) (w r : Nat) : Nat := if r == 0 then s.c (K.PRIMARY_OFFSET w) else s.c (K.MIRROR_OFFSET w)

/-- Write tag v to granule g of target m (R383). -/
def State.setTag (s : State) (m g v : Nat) : State :=
  let k := m * 2 ^ 33 + g
  { s with gd := { s.gd with tag := KMap.set 0 s.gd.tag k v, tagLost := KMap.set false s.gd.tagLost k false } }

/-- First granules and targets that a tag command writes: every live replica of a window (R383). -/
def State.tagPlaces (s : State) (v : Nat) : List (Nat × Nat) :=
  let t := bits v 13 8
  let f := bits v 97 64
  if !bit v 0 then [(t, f)]
  else
    let x := s.win t
    (if x.live0 then [(s.replicaTarget t 0, s.replicaOffset t 0 / 4096 + f)] else [])
      ++ (if x.live1 then [(s.replicaTarget t 1, s.replicaOffset t 1 / 4096 + f)] else [])

/-- The tag command that a hub warm reset abandons (R397): the tags written by then, of its first granules, stay written; how many those
are is a free value. -/
def State.dropTagCmd (s : State) : State :=
  match s.gd.tagCmd with
  | none => s
  | some v =>
    if s.gd.tagAt.isSome then s
    else (s.tagPlaces v).foldl (fun (s : State) e => (List.range (s.freeVal % (bits v 58 32 + 1))).foldl
      (fun (s : State) i => s.setTag e.1 (e.2 + i) (bits v 19 16)) s.freeNext) s

/-- The body of a tile reset (R550): ports, cell buffers, brim cache, seam, event blocks and counters of the tile. -/
def State.tileResetBody (s : State) (t : Nat) : State :=
  let s := s.portsReset t
  let s := s.clearSeam t
  let other := fun (k : Nat) => k / 4 / 24 ≠ t
  let pl : Plank := { s.pl with
    voq := KMap.keep (fun k => other (k / 96)) s.pl.voq, rotate := KMap.keep (fun k => k / 4 / 24 ≠ t) s.pl.rotate,
    fwdPtr := KMap.keep other s.pl.fwdPtr, bslot := KMap.keep (fun k => k / 16 ≠ t) s.pl.bslot,
    seqCtr := KMap.keep (fun k => k / 4 / 96 / 24 ≠ t) s.pl.seqCtr,
    reseq := KMap.keep (fun k => k / 4 % 96 / 24 ≠ t && k / 4 / 96 / 24 ≠ t) s.pl.reseq
    toCrown := KMap.keep (fun k => k / 24 ≠ t) s.pl.toCrown, adv := KMap.keep other s.pl.adv
    span := KMap.keep (fun k => k / 4 / 96 / 24 ≠ t) s.pl.span }
  let cr : Crown := { s.cr with
    brim := KMap.keep (fun k => k / 2 ^ 40 ≠ t) s.cr.brim, brimCmd := KMap.keep (· ≠ t) s.cr.brimCmd
    brimWait := KMap.keep (fun k => k / 2 ≠ t) s.cr.brimWait
    brimOn := s.cr.brimOn.filter (fun e => match e.2 with | some c => c.tile ≠ t | none => false)
    carry := s.cr.carry.filter (fun e => match e.2 with | some c => c.tile ≠ t && c.src ≠ t | none => false)
    inbound := KMap.keep (· ≠ t) s.cr.inbound
    coming := s.cr.coming.filter (fun e => match e.2 with | some r => r.entry.tile ≠ t | none => false) }
  let fab : Fabric := { s.fab with lane := KMap.mapVals {} (fun l (x : Lane) => if l / 96 == t then x.afterReset else x) s.fab.lane
                                   eye := KMap.keep (fun q => q / 24 ≠ t) s.fab.eye }
  let s := { s with pl := pl, cr := cr, fab := fab, csr := KMap.keep (fun k => k / 2 ^ 32 ≠ t) s.csr, gd := { s.gd with tileCache := KMap.keep (fun k => k / 2 ^ 40 ≠ t) s.gd.tileCache },
                    ev := { s.ev with blk := KMap.keep (fun n => blockDie n ≠ t) s.ev.blk } }
  (s.clearObjects false (· == t) false false).setO (K.HEALTHY t) 0

/-- Tile t enters reset (R335, R453). A larger domain that is held swallows it (R551). -/
def State.tileReset (s : State) (t : Nat) : State :=
  if s.hubHeld then s
  else
    let s := s.tileResetBody t
    let s := { s with st := { s.st with tileHeld := KMap.set false s.st.tileHeld t true, tileAt := KMap.set 0 s.st.tileAt t s.now } }
    s.enterFulling 2

/-! ### Hub warm reset and larger -/

/-- A line after a hatband reset: only its level stays. -/
def Line.released (l : Line) : Line := { level := l.level }

/-- A window after a hub warm reset: what is live, its WE and the place of a sweep stay (R113, R200); a
resync begins again (R119). -/
def Window.afterHubReset (v : Window) : Window := { v with resyncAt := 0, frz := { we := v.frz.we, sweep := v.frz.sweep, sweepOn := v.frz.sweepOn } }

/-- The hatband returns to reset (R171): scheduled outputs cancelled, freezes ARMED become IDLE, COPYING FAILED. -/
def State.hatbandReset (s : State) : State :=
  let s := { s with tm := { ticks := s.tm.ticks, tickStart := s.now, line := KMap.mapVals {} (fun _ => Line.released) s.tm.line } }
  (List.range 16).foldl (fun s w =>
    if s.o (K.FRZ_STATE w) == 1 then s.setO (K.FRZ_STATE w) 0
    else if s.o (K.FRZ_STATE w) == 2 then s.setO (K.FRZ_STATE w) 4 else s) s

/-- A source of the device power warning stands (R404, R424). -/
def State.warnStands (s : State) : Bool := s.pw.vbusWarn || s.pw.srcSlots ≠ 0

/-- WARN_STATE: 2 flush running, 1 a warning stands, else 0. -/
def State.updWarn (s : State) : State :=
  s.setO K.WARN_STATE (if s.pw.gpf.running then 2 else if s.warnStands then 1 else 0)

/-- A mapped extent after a hub warm reset: it keeps the mapping last published (R365). -/
def Extent.settled (x : Extent) : Extent := { x with state := .mapped, holders := [] }

/-- Directory sectors of window w: 16 entries each (R84, R110). -/
def State.dirSectors (s : State) (w : Nat) : Nat := s.c (K.WIN_SIZE w) / 1024

/-- Every host that a window names, with the sectors that the sweep passes for it: all of them depart at a hub warm reset (R113). -/
def State.boundHosts (s : State) : KMap Nat :=
  (List.range 64).flatMap (fun h => ((List.range 16).filter (fun w => s.o (K.STATE w) ≠ 0 && bit (s.c (K.HOSTS w)) h)).map
    (fun w => (h * 16 + w, max 1 (s.dirSectors w))))

/-- A slice after a hub warm reset: its staged region set returns to its active set (R397). DESIGN CHOICE: the rest of it
stays. -/
def Slice.settled (x : Slice) : Slice := { x with staged := x.regions }

/-- Windows keep STATE and their live replicas at a hub warm reset, whatever the ports' going down did to them, and their freezes
have not been lost with a target (R113, R171). -/
def State.windowsOf (s old : State) : State :=
  (List.range 16).foldl (fun (s : State) w => (s.setO (K.STATE w) (old.o (K.STATE w))).setO (K.FRZ_STATE w) (old.o (K.FRZ_STATE w)))
    { s with cr := { s.cr with win := old.cr.win } }

/-- Everything that the hub and the tiles lose at a hub warm reset: queues, trackers, caches, fences, stores still
buffered (R162), counters (R485), event blocks (R456). Windows, the directory in memory, bindings, extents, colour tags
and the cluster SRAM stay. -/
def State.hubResetBody (s : State) : State :=
  let hosts := ((List.range 16).filter (fun w => s.o (K.STATE w) ≠ 0)).foldl (fun m w => Nat.lor m (s.c (K.HOSTS w))) 0
  let departed := s.boundHosts
  let s := ((List.range 4).foldl (fun s t => s.tileResetBody t) s).windowsOf s
  let s := (List.range 64).foldl (fun s n => if s.isVcsUp n then s.vcsDown n else s) s
  -- the requests of slices that the reset loses end in error
  let s := (s.txnsWhere (fun t => decide (t.purpose = .mover))).foldl (fun (s : State) id => s.loseTxn id) s
  let cr : Crown := { win := KMap.mapVals {} (fun _ => Window.afterHubReset) s.cr.win, dir := s.cr.dir, departed := departed }
  let ord : Order := { nextTxn := s.ord.nextTxn, nextFence := s.ord.nextFence, nextStore := s.ord.nextStore, sram := s.ord.sram }
  let s := s.dropTagCmd
  let gd : Guard := { epoch := s.gd.epoch, tag := s.gd.tag, tagLost := s.gd.tagLost, filling := s.gd.filling }
  let fab : Fabric := { s.fab with
    bindOp := none, extOp := none, eye := []
    extents := (s.fab.extents.filter (fun x => x.state = .mapped || x.state = .releasing)).map Extent.settled }
  let s := { s with
    pl := {}, cr := cr, ord := ord, gd := gd, mv := { slice := KMap.mapVals {} (fun _ => Slice.settled) s.mv.slice }, fab := fab
    ev := { s.ev with blk := KMap.keep (fun n => decide (5 ≤ blockDie n)) s.ev.blk, msix := [], msixPend := [] }
    gen := { s.gen with published := false, old := [], switched := none, cur := none }
    csr := KMap.keep (fun k => decide (5 * 2 ^ 32 ≤ k)) s.csr }
  let s := s.hatbandReset
  let s := s.clearObjects true (fun _ => true) false false
  -- the hatband's build window and a running flush go with the hub
  let s := ({ s with pw := { s.pw with win := [], warnSeq := 0, gpf := {} } } : State).updWarn
  ((s.setO K.DEPART_PENDING hosts).setO K.CORE_READY 0).setO K.START_PHASE 7

/-- Assert hub warm reset for a cause of LAST_RESET; `stands` when the cause goes on standing. Two causes are one
reset; a larger domain that is held swallows it, but for a cause that still stands at the release (R551). -/
def State.hubReset (s : State) (cause : Nat) (stands : Bool := false) : State :=
  if s.st.porHeld || s.st.hkHeld then
    if stands then { s with st := { s.st with hubCauses := cause :: s.st.hubCauses.filter (· ≠ cause) } } else s
  else
    let causes := if stands then cause :: s.st.hubCauses.filter (· ≠ cause) else s.st.hubCauses
    if s.st.hubIn || !s.st.released then
      { s with st := { s.st with hubIn := true, hubCauses := causes, faultN := true } }
    else
      let s := s.hubResetBody
      let s := { s with st := { s.st with hubIn := true, hubCauses := causes, faultN := true, relAt := s.now } }
      (s.setO K.LAST_RESET cause).incO K.HUB_RESETS

/-- A standing cause of hub warm reset ends (R550); the release is a step of its own. -/
def State.hubCauseEnds (s : State) (cause : Nat) : State :=
  { s with st := { s.st with hubCauses := s.st.hubCauses.filter (· ≠ cause) } }

/-- A companion's block as the island goes into reset: its escalation timer pauses with what is left of it (R456). -/
def EvtBlock.pause (b : EvtBlock) (now : Nat) : EvtBlock :=
  { b with timer := b.timer.map (fun t => t - (now - b.timerAt) / Config.us), timerAt := now }

/-- The island has returned: the timers of the companions' blocks go on (R456). -/
def State.resumeTimers (s : State) : State :=
  { s with ev := { s.ev with blk := s.ev.blk.map (fun (e : Nat × EvtBlock) =>
      (e.1, if 456 ≤ e.1 && e.1 < 528 && e.2.timer.isSome then { e.2 with timerAt := s.now } else e.2)) } }

/-- The island's part of a housekeeping reset: sessions, transfers, drafts and RO values go; RW values and the confirmed
generation come back from flash (R485, R497). -/
def State.islandReset (s : State) (companion : Bool) : State :=
  let s := { s with
    mg := { gaPins := s.mg.gaPins, savedAddr := s.mg.savedAddr }
    gen := { active := s.gen.flash, prev := s.gen.flashPrev, flash := s.gen.flash, flashNum := s.gen.flashNum,
             flashPrev := s.gen.flashPrev, flashPrevNum := s.gen.flashPrevNum, flashKept := s.gen.flashKept }
    ev := { blk := (KMap.keep (fun n => !companion && 456 ≤ n && n < 528) s.ev.blk).map (fun (e : Nat × EvtBlock) => (e.1, e.2.pause s.now)) }
    gd := { tag := s.gd.tag, tagLost := s.gd.tagLost }
    life := { s.life with jtagScan := false, jtagDebug := false, signing := none,
                          lcChallenge := s.entropyVal }
    tm := { s.tm with ticks := s.tm.ticks } }
  let s := s.freeNext
  let s := s.clearObjects true (fun _ => true) true companion
  let s := (List.range 16).foldl (fun s w =>
    let frz := s.o (K.FRZ_STATE w)
    let s := (s.setO (K.STATE w) 0).setO (K.FRZ_STATE w) (if frz == 2 || frz == 4 then 4 else 0)
    s.updWin w (fun _ => {})) s
  let s := { s with cr := {}, mv := {}, ord := { s.ord with sram := [] } }
  let s := ((s.setO K.GUARD_EPOCH 0).setO K.GEN_ACTIVE s.gen.flashNum).setO K.DEPART_PENDING 0
  let s := (s.setO K.PREV_KEPT (b2n s.gen.flashKept)).setO K.GEN_PREV s.gen.flashPrevNum
  s.setO K.START_PHASE 0

/-- Housekeeping reset for a cause (R550): the island, the hub and all tiles; slot power stays (R432). -/
def State.hkReset (s : State) (cause : Nat) : State :=
  if s.st.porHeld then s
  else
    let s := (if s.st.released && !s.st.hubIn then s.hubResetBody else s).islandReset false
    let s := { s with st := { s.st with hkHeld := true, hubIn := false, hubCauses := [], released := false, tileHeld := [],
                                        recovery := false, thermal := false, faultN := true, relAt := s.now },
                      pw := { s.pw with turningOff := false, retryAt := none, dieRelAt := none } }
    s.setO K.LAST_RESET cause

/-- A slot after a power-on reset: the lockout record in flash stays (R421, R432). -/
def Slot.afterPor (x : Slot) : Slot := { lockRec := x.lockRec }

/-- Power-on reset (R550, R404): nothing but flash and fuses is kept; every slot gate off, every PERST asserted. -/
def State.porReset (s : State) : State :=
  let s := (if s.st.released && !s.st.hubIn then s.hubResetBody else s).islandReset true
  let pw : Power := { slot := KMap.mapVals {} (fun _ => Slot.afterPor) s.pw.slot }
  let tm : TimeSt := { line := KMap.mapVals {} (fun _ => Line.released) s.tm.line, tickStart := s.now }
  let s := { s with st := { refPresent := s.st.refPresent }, pw := pw, seams := {}, csr := [], tm := tm }
  s.setO K.LAST_RESET 1

/-! ### The safe state and fatal actions -/

/-- The island holds the hub and every tile in hub warm reset; E589 code 0x01 (R455). One entry however many blocks
reach it (R456). -/
def State.enterSafe (s : State) : State :=
  if s.ev.safe then s
  else
    let s := ({ s with ev := { s.ev with safe := true } } : State).hubReset 0x13 true
    let s := (s.setO K.SAFE_STATE 1).setO K.START_PHASE 8
    let s := s.raiseCore 589 3 1 true { master := 0x90 }
    s.setBlk 589 { s.blk 589 with step := 4 }

/-- Hub fatal restarts of the last 10 minutes (R454). -/
def State.recentRestarts (s : State) : Nat :=
  (s.ev.restarts.filter (fun t => s.now < t + 600 * 1000 * Config.ms)).length

/-- The fatal action of a block in the cycle of its raise (R453, R454): a tile block resets its tile, an island block
the island, a hub block the hub, or the safe state is entered. -/
def State.fatalAction (s : State) (n : Nat) : State :=
  let die := blockDie n
  if die < 4 then s.tileReset die
  else if die == 7 then (if n == 589 then s else s.hkReset 5)
  else if die == 4 then
    let fer := (s.blk n).fer
    if s.c K.HUB_FATAL_ACTION == 1 || s.c K.FATAL_RESTART_MAX ≤ s.recentRestarts then s.enterSafe
    else
      let s := { s with ev := { s.ev with restarts := s.now :: s.ev.restarts } }
      let s := s.raiseCore 589 0 2
      let s := s.setBlk 589 { s.blk 589 with ferValid := true, fer := fer % 2 ^ 168 + n % 1024 * 2 ^ 168 }
      s.hubReset 0x12
  else s

/-- A raise with everything it brings (R445, R454). -/
def State.raise (s : State) (n cls code : Nat) (lasting : Bool := false) (src : Src := {}) : State :=
  let s' := s.raiseCore n cls code lasting src
  if cls == 3 && !blockReserved n && !(456 ≤ n && n < 528) then s'.fatalAction n else s'

/-- A memory whose ECC checker `chk` of block n is inverted is read (R462, R463): one bit is corrected and reported with a
correctable code, two bits with an uncorrectable one. Whether the data was unusable, and the state after it. -/
def State.ecc (s : State) (n chk one two cls : Nat) : Bool × State :=
  match s.injFire n chk with
  | (0, s) => (false, s)
  | (1, s) => (false, s.raise n 1 one)
  | (_, s) => (true, s.raise n cls two)

end Sys2Proof.Machine
end

