-- ==== Sys2Proof/Machine/Cells.lean ====
section
/-!
DEFINITION. Cells and their headers (R39, R40, R308), packets, the seam's credit pools (R317, R321), flows and fair
queueing (R205-R217), the egress queues and what leaves a port.
-/
namespace Sys2Proof.Machine

/-! ### Cell headers (R39) -/

/-- The reserved bits of a header in their places (R39). -/
def rsvBits (r : Nat) : Nat :=
  bits r 0 0 * 2 ^ 7 + bits r 1 1 * 2 ^ 15 + bits r 2 2 * 2 ^ 23 + bits r 3 3 * 2 ^ 31 + bits r 6 4 * 2 ^ 69 + bits r 34 7 * 2 ^ 84

/-- Header bits [111:0]. -/
def cellHeader (c : Cell) : Nat :=
  clsNum c.cls + c.colourCode % 4 * 2 ^ 2 + b2n c.sop * 2 ^ 4 + b2n c.eop * 2 ^ 5 + b2n c.mcast * 2 ^ 6
    + c.source % 128 * 2 ^ 8 + c.egress % 128 * 2 ^ 16 + c.bytes % 128 * 2 ^ 24 + c.seq % 65536 * 2 ^ 32
    + c.pktCells % 128 * 2 ^ 48 + b2n c.reseq * 2 ^ 55 + c.mcidx % 8192 * 2 ^ 56 + c.gen % 256 * 2 ^ 72
    + c.gepoch % 16 * 2 ^ 80 + rsvBits c.rsv

/-- HCRC of a header (R39). -/
def cellCrc (c : Cell) : Nat := crc16 112 (cellHeader c) 0xFFFF

/-- The cell with the HCRC of its header. -/
def cellSeal (c : Cell) : Cell := { c with hcrc := cellCrc c }

/-- Code of a policer colour. -/
def colourNum : Colour → Nat
  | .green => 0
  | .yellow => 1
  | .red => 2

/-- A SOURCE that exists: a claimed port or an agent of R39's list. -/
def State.sourceOk (s : State) (src : Nat) : Bool :=
  if src < 96 then s.o (K.ROLE src) ≠ 0
  else decide (src < 0x74) || src == 0x78 || src == 0x7A || decide (0x7C ≤ src)

/-- Cells of a packet of this many bytes. -/
def packetCells (bytes : Nat) : Nat := max 1 ((bytes + 63) / 64)

/-- Flow of a cell: source, logical egress, class ("Order"). -/
def flowKey (src egress c : Nat) : Nat := (src * 96 + egress) * 4 + c

/-- Flow of a cell. -/
def cellFlow (c : Cell) : Nat := flowKey c.source c.egress (clsNum c.cls)

/-- The first check of R39 that a header fails, with its syndrome (R40). DEDUCED: EGRESS other than zero in a multicast copy counts
under 0x03, MCIDX other than zero in any other cell under 0x05. SEQ is checked by the resequencer, the packet's
length by `packetStep`. -/
def State.headerFails (s : State) (c : Cell) (inverted : Bool) : Option Nat :=
  if inverted || c.hcrc ≠ cellCrc c then some 1
  else if c.bytes == 0 || 64 < c.bytes || (!c.eop && c.bytes ≠ 64) then some 2
  else if !s.sourceOk c.source || 96 ≤ c.egress || (if c.mcast then c.egress ≠ 0 else s.o (K.ROLE c.egress) == 0) then some 3
  else if (c.sop && (c.pktCells == 0 || 68 < c.pktCells)) || (!c.sop && c.pktCells ≠ 0) then some 4
  else if c.rsv ≠ 0 || c.colourCode == 3 || (!c.mcast && c.mcidx ≠ 0) then some 5
  else none

/-- Count a cell of its packet: false when the packet ends after another number of cells than PKT_CELLS (R40 0x04). -/
def packetStep (p : Nat × Nat) (c : Cell) : Bool × (Nat × Nat) :=
  let q := if c.sop then (1, c.pktCells) else (p.1 + 1, p.2)
  (if c.eop then q.1 == q.2 else q.1 < q.2 || q.2 == 0, q)

/-- A packet cut into cells. -/
def cutPacket (c : Cell) (bytes data : Nat) : List Cell :=
  let n := packetCells bytes
  (List.range n).map (fun i =>
    { c with sop := i == 0, eop := i + 1 == n, bytes := if i + 1 == n then max 1 (bytes - 64 * i) else 64,
             pktCells := if i == 0 then n else 0, data := data / 2 ^ (512 * i) % 2 ^ 512 })

/-- A blank cell of a class, source and egress. -/
def blankCell (cls : Cls) (src egress : Nat) : Cell :=
  { cls := cls, colourCode := 0, sop := true, eop := true, mcast := false, source := src, egress := egress, bytes := 1,
    seq := 0, pktCells := 1, reseq := false, mcidx := 0, gen := 0, gepoch := 0, rsv := 0, hcrc := 0, data := 0,
    committed := false, req := 0, credit := 0, lim := cls }

/-! ### Ports and plank outputs -/

/-- Plank inputs and outputs of logical port p: those of the members that its last training made active (R276). -/
def State.members (s : State) (p : Nat) : List Nat :=
  let l := (List.range (s.quads p)).map (p + ·)
  let a := (s.port p).trained
  if a.isEmpty then l else l.filter (fun i => a.contains i)

/-- A ganged port. -/
def State.ganged (s : State) (p : Nat) : Bool := decide (1 < s.quads p)

/-! ### Seam credits (R317, R321) -/

/-- Credits the sender holds for a pool. -/
def State.creditsHeld (s : State) (sm d pool : Nat) : Nat := allotment d pool - KMap.get 0 (s.sdir sm d).credit pool

/-- Put an item on a seam's data strands: a credit is taken (R317). -/
def State.seamSend (s : State) (sm d pool : Nat) (it : Item) : State :=
  s.updSdir sm d (fun x => { x with ready := x.ready ++ [it], credit := KMap.upd 0 x.credit pool (· + 1) })

/-- Credits left for SYS cells or broadcasts on a timing strand (R321): pool o below 24 has 8, pool 32 has 16, pool 33
has 32. What waits for the strand and what stands in the pool hold them. -/
def timingAllotment (pool : Nat) : Nat := if pool < 24 then 8 else if pool == 32 then 16 else if pool == 33 then 32 else 0

/-- Waiting bodies of a timing strand that need pool `pool`; a SYS item of DEST 32 is an INV command's. -/
def timingWaits (x : Timing) (pool : Nat) : Nat :=
  (x.ready.filter (fun b => match b with
    | .sys it => if it.dest == 32 then pool == 33 else it.dest == pool
    | .bcast _ => pool == 32
    | _ => false)).length

/-! ### Metered length and flows (R205-R209) -/

/-- Metered length of a cell (R205). -/
def State.metered (s : State) (c : Cell) : Nat := c.bytes + s.c K.OVH

/-- Flow of a plank source or fixed slot: the SOURCE code; a dynamic data-mover flow is 0x100 + engine * 64 + host. -/
def dmFlow (e h : Nat) : Nat := 0x100 + e * 64 + h

/-- Weight of a flow in class c (R208). -/
def State.flowWeight (s : State) (f : Nat) (cls : Cls) : Nat :=
  if f < 96 then
    match cls with
    | .coh => s.c (K.FW_COH (s.lead f))
    | .bulk => s.c (K.FW_BULK (s.lead f))
    | _ => s.c (K.FW_VIEW (s.lead f))
  else if 0x7C ≤ f && f < 0x80 then s.c K.BRIM_WEIGHT
  else if f == 0x78 then s.c K.CROWN_WEIGHT
  else if 0x70 ≤ f && f < 0x74 then s.c K.SC_WEIGHT
  else s.c K.DM_WEIGHT

/-- Class weight at egress port q (R213). -/
def State.classWeight (s : State) (q : Nat) (cls : Cls) : Nat :=
  match cls with
  | .coh => s.c (K.CW_COH q)
  | .bulk => s.c (K.CW_BULK q)
  | _ => s.c (K.CW_VIEW q)

/-- Rank of a flow for equal tags (R212, R214): crown, brims, cores, engines with hosts ascending, then ports. -/
def flowRank (f : Nat) : Nat :=
  if f == 0x78 then 0
  else if 0x70 ≤ f && f < 0x74 then 10 + f
  else if 0x60 ≤ f && f < 0x70 then 1000 + (f - 0x60) * 100
  else if 0x100 ≤ f then 1001 + (f - 0x100) / 64 * 100 + (f - 0x100) % 64
  else 10000 + f

/-- `a` is below `b` as serial numbers of 32 bits (R210). -/
def below (a b : Nat) : Bool := decide (2 ^ 31 ≤ (a + 2 ^ 32 - b % 2 ^ 32) % 2 ^ 32)

/-- The later of two tags. -/
def tagMax (a b : Nat) : Nat := if below a b then b else a

/-- The earlier of two tags. -/
def tagMin (a b : Nat) : Nat := if below b a then b else a

/-- Round up. -/
def ceilDiv (a b : Nat) : Nat := if b == 0 then 0 else (a + b - 1) / b

/-! ### The flow level (R210) -/

/-- Landed cells of plank flow f toward egress port q, over all its inputs. -/
def State.landedOf (s : State) (q : Nat) (cls : Cls) (f : Nat) : List Cell :=
  (s.pl.landing.filter (fun e => e.1 % 4 == clsNum cls)).flatMap
    (fun e => e.2.filter (fun c => c.egress == q && c.source == f))

/-- Cells of agent flow f at the merge of port q. -/
def State.waitingOf (s : State) (q : Nat) (cls : Cls) (f : Nat) : List Cell :=
  ((KMap.get [] s.pl.merge (q * 4 + clsNum cls)).filter (·.flow == f)).map (·.cell)

/-- A plank flow: a port or a brim cache. -/
def plankFlow (f : Nat) : Bool := decide (f < 96) || (decide (0x7C ≤ f) && decide (f < 0x80))

/-- The cell with the lowest SEQ, as serial numbers of 16 bits. -/
def lowestSeq : List Cell → Option Cell
  | [] => none
  | c :: cs =>
    match lowestSeq cs with
    | none => some c
    | some d => if (c.seq + 65536 - d.seq % 65536) % 65536 < 32768 && c.seq ≠ d.seq then some d else some c

/-- Head of a flow (R210). -/
def State.headOf (s : State) (q : Nat) (cls : Cls) (f : Nat) : Option Cell :=
  if plankFlow f then lowestSeq (s.landedOf q cls f) else (s.waitingOf q cls f).head?

/-- The scheduler of egress port q and a class. -/
def State.sched (s : State) (q : Nat) (cls : Cls) : Sched := KMap.get {} s.pl.sched (q * 4 + clsNum cls)

/-- Update a scheduler. -/
def State.setSched (s : State) (q : Nat) (cls : Cls) (x : Sched) : State :=
  { s with pl := { s.pl with sched := KMap.set {} s.pl.sched (q * 4 + clsNum cls) x } }

/-- Weight that charges a cell: 1 for a red cell (R210, R225). -/
def State.wt (s : State) (f : Nat) (cls : Cls) (c : Cell) : Nat :=
  if c.colourCode == 2 then 1 else s.flowWeight f cls

/-- A cell joins flow f: the flow becomes backlogged when it had none (R210 on_backlogged). SYS has no tags (R207). -/
def State.joinFlow (s : State) (q : Nat) (cls : Cls) (f : Nat) (c : Cell) : State :=
  if cls = .sys then s
  else
    let x := s.sched q cls
    let g := KMap.get {} x.flows f
    let g' : Flow := if g.backlog == 0 then
        let st := tagMax g.finish x.v
        { start := st, finish := (st + ceilDiv (s.metered c * 256) (s.wt f cls c)) % 2 ^ 32, backlog := 1 }
      else { g with backlog := g.backlog + 1 }
    s.setSched q cls { x with flows := KMap.set {} x.flows f g' }

/-- Sum of the weights of the backlogged flows. -/
def State.weightSum (s : State) (cls : Cls) (x : Sched) : Nat :=
  ((x.flows.filter (fun e => 0 < e.2.backlog)).map (fun e => s.flowWeight e.1 cls)).sum

/-- Least start tag over the backlogged flows. -/
def minStart (x : Sched) : Option Nat :=
  (x.flows.filter (fun e => 0 < e.2.backlog)).foldl
    (fun m e => some (match m with | none => e.2.start | some v => tagMin v e.2.start)) none

/-- The head `c` of flow f is granted or admitted (R210 on_charge); it has left its store already. -/
def State.chargeFlow (s : State) (q : Nat) (cls : Cls) (f : Nat) (c : Cell) : State :=
  if cls = .sys then s
  else
    let x := s.sched q cls
    let g := KMap.get {} x.flows f
    let step := (x.v + ceilDiv (s.metered c * 256) (s.weightSum cls x)) % 2 ^ 32
    let v := match minStart x with | none => step | some m => tagMax step m
    let g' : Flow := match s.headOf q cls f with
      | some h => { start := g.finish, finish := (g.finish + ceilDiv (s.metered h * 256) (s.wt f cls h)) % 2 ^ 32,
                    backlog := g.backlog - 1 }
      | none => { g with backlog := 0 }
    let s := s.setSched q cls { v := v, flows := KMap.set {} x.flows f g' }
    if c.colourCode == 2 && cls ≠ .view && f < 96 then s.incO (K.RED_DEMOTED_CELLS (s.lead f)) else s

/-- A flow is eligible (R210). -/
def State.eligible (s : State) (q : Nat) (cls : Cls) (f : Nat) : Bool :=
  let x := s.sched q cls
  let g := KMap.get {} x.flows f
  decide (0 < g.backlog) && (!below x.v g.start || (match s.headOf q cls f with | some h => h.committed | none => false))

/-- The flow with the smallest tag of a kind; equal tags by rank. -/
def bestFlow (tag : Flow → Nat) : List (Nat × Flow) → Option (Nat × Flow)
  | [] => none
  | e :: es =>
    match bestFlow tag es with
    | none => some e
    | some d =>
      if below (tag d.2) (tag e.2) || (tag d.2 == tag e.2 && decide (flowRank d.1 < flowRank e.1)) then some d else some e

/-- The flow that is served next at (q, class) among those `pick` takes: the eligible one with the smallest F, else the
backlogged one with the smallest S (R212, R214). -/
def State.nextFlow (s : State) (q : Nat) (cls : Cls) (pick : Nat → Bool) : Option Nat :=
  let l := (s.sched q cls).flows.filter (fun e => decide (0 < e.2.backlog) && pick e.1)
  match bestFlow (·.finish) (l.filter (fun e => s.eligible q cls e.1)) with
  | some e => some e.1
  | none => (bestFlow (·.start) l).map (·.1)

/-! ### Egress queues and the class level (R42, R213) -/

/-- Egress queue of plank output o and a class. -/
def State.equeue (s : State) (o : Nat) (cls : Cls) : List Cell := KMap.get [] s.pl.egress (o * 4 + clsNum cls)

/-- The queue has room (R55). -/
def State.eroom (s : State) (o : Nat) (cls : Cls) : Bool := decide ((s.equeue o cls).length < 64)

/-- Cells of a class queued for logical port q, over its outputs. -/
def State.queuedAt (s : State) (q : Nat) (cls : Cls) : Nat := ((s.members q).map (fun o => (s.equeue o cls).length)).sum

/-- The class level of port q. -/
def State.clsLevel (s : State) (q : Nat) : Sched := KMap.get {} s.pl.cls q

/-- Finish tag that class `cls` takes with a head of metered length L (R213). -/
def State.classFinish (s : State) (q : Nat) (cls : Cls) (len : Nat) : Nat :=
  let x := s.clsLevel q
  (tagMax (KMap.get {} x.flows (clsNum cls)).finish x.v + ceilDiv (len * 256) (s.classWeight q cls)) % 2 ^ 32

/-- Set a class's finish tag. -/
def State.setClassFinish (s : State) (q : Nat) (cls : Cls) (cf : Nat) : State :=
  let x := s.clsLevel q
  let x : Sched := { x with flows := KMap.upd {} x.flows (clsNum cls) (fun g => { g with finish := cf }) }
  { s with pl := { s.pl with cls := KMap.set {} s.pl.cls q x } }

/-- The cell that a queue entry stands for: a multicast pointer's stored copy. -/
def State.realCell (s : State) (q : Nat) (c : Cell) : Cell :=
  if c.mcast then
    match KMap.get none s.pl.mcast c.mcidx with
    | some m => cellSeal { m.cell with mcast := false, mcidx := 0, egress := q, req := c.req, seq := c.seq, reseq := c.reseq }
    | none => c
  else c

/-- A cell enters an egress queue; its class takes a finish tag when it was empty (R213). -/
def State.enqueue (s : State) (o : Nat) (c : Cell) : State :=
  let q := s.lead o
  let s := if c.cls ≠ .sys && s.queuedAt q c.cls == 0 then
      s.setClassFinish q c.cls (s.classFinish q c.cls (s.metered (s.realCell q c))) else s
  { s with pl := { s.pl with egress := KMap.upd [] s.pl.egress (o * 4 + clsNum c.cls) (· ++ [c]) } }

/-! ### What leaves a port -/

/-- A cell leaves port p: with its packet's last cell the packet's message leaves (R20, R64). -/
def State.leavePort (s : State) (p : Nat) (c : Cell) : State :=
  if !s.linkUp p then s
  else
    let s := s.emit .flit p [clsNum c.cls, c.source, c.seq, c.bytes]
    if c.eop then
      match KMap.get none s.pl.msg c.req with
      | some m =>
        let s : State := { s with out := m :: s.out, pl := { s.pl with msg := KMap.set none s.pl.msg c.req none } }
        if m.kind = .request then s.transmitted (m.args.headD 0) else s
      | none => s
    else s

/-- Register a packet: its number, and the message that leaves with its last cell. -/
def State.newPacket (s : State) (m : Out) : Nat × State :=
  (s.pl.nextPkt, { s with pl := { s.pl with msg := KMap.set none s.pl.msg s.pl.nextPkt (some m), nextPkt := s.pl.nextPkt + 1 } })

/-- SEQ of a flow's next cell (R64). -/
def State.takeSeq (s : State) (k : Nat) : Nat × State :=
  let n := KMap.get 0 s.pl.seqCtr k
  let r := KMap.get {} s.pl.reseq k
  let pl : Plank := { s.pl with seqCtr := KMap.set 0 s.pl.seqCtr k ((n + 1) % 65536),
                                reseq := if r.live then s.pl.reseq else KMap.set {} s.pl.reseq k { r with live := true, next := n } }
  (n, { s with pl := pl })

/-- Dynamic data-mover flows in use at a scheduler. -/
def dynamicFlows (x : Sched) : Nat := (x.flows.filter (fun e => decide (0x100 ≤ e.1) && decide (0 < e.2.backlog))).length

/-- Flow of an agent's packet by its own name: a data mover's is one per engine and host (R208). -/
def ownFlow (src host : Nat) : Nat := if 0x60 ≤ src && src < 0x70 then dmFlow (src - 0x60) host else src

/-- Slot in which an agent's packet is served (R209): a data-mover flow that becomes backlogged takes a dynamic slot or, when none is
free, its engine's fixed one; it keeps it until it empties. True when a fixed slot is taken so. -/
def State.agentFlow (s : State) (q : Nat) (cls : Cls) (src host : Nat) : Nat × Bool :=
  let f := ownFlow src host
  match (KMap.get [] s.pl.merge (q * 4 + clsNum cls)).find? (·.own == f) with
  | some m => (m.flow, false)
  | none => if f == src || dynamicFlows (s.sched q cls) < 71 then (f, false) else (src, true)

/-- A presented cell among the cells that wait at a merge: behind them all, but a SYS cell goes ahead of those presented in the
same FCLK cycle by agents of a later rank (R212). -/
def mergePut (m : MergeCell) : List MergeCell → List MergeCell
  | [] => [m]
  | x :: l =>
    if m.cell.cls = .sys && sameCycle x.since m.since && decide (flowRank m.flow < flowRank x.flow) then m :: x :: l
    else x :: mergePut m l

/-- An agent's cell of flow f is presented at the merge of port q (R212). -/
def State.present (s : State) (q : Nat) (cls : Cls) (f own : Nat) (c : Cell) : State :=
  let m : MergeCell := { flow := f, cell := c, since := s.now, own := own }
  let pl : Plank := { s.pl with merge := KMap.upd [] s.pl.merge (q * 4 + clsNum cls) (mergePut m) }
  ({ s with pl := pl } : State).joinFlow q cls f c

/-- A hub agent presents a packet at the merge of port q (R42): `host` names the host of a data mover's slice. Nothing is
presented to a port whose link is down. -/
def State.agentSend (s : State) (src host : Nat) (cls : Cls) (q bytes data : Nat) (m : Out) : State :=
  if !s.linkUp q then s
  else
    let r := s.newPacket m
    let fl := r.2.agentFlow q cls src host
    let s := if fl.2 then r.2.incO K.FLOW_OVERFLOWS else r.2
    let c0 : Cell := { blankCell cls src q with req := r.1, gen := s.genNum % 256, gepoch := s.gd.epoch % 16 }
    (cutPacket c0 bytes data).foldl (fun (s : State) c => s.present q cls fl.1 (ownFlow src host) c) s

/-- The port by which a message of the device goes to host h: the lower-numbered live one (R100). -/
def State.hostPort (s : State) (h : Nat) : Option Nat := (s.portsOf 1 h).find? s.linkUp

end Sys2Proof.Machine
end

