-- ==== Sys2Proof/Machine/SlotOps.lean ====
section
/-!
DEFINITION. The slot state machine's shared operations (R410, R411, R417, R419, R430, R450) and the start of link
training (R282).
-/
namespace Sys2Proof.Machine

/-- A slot enters a state with its gate off: PG deasserted, timer stopped, discharge on for DSCHG_TIME, the watch not
yet running (R410, R417, R419). PERST_Nnn is asserted with it, as reset and power stay together. -/
def Slot.gateOff (x : Slot) (st : SlotState) (now : Nat) : Slot :=
  { x with state := st, pg := false, timerOn := false, discharging := true, watch := false, onWaits := false,
           enteredAt := now, perst := true, perstAt := none }

/-- A block leaves its class with its record released and its actions lifted (R450, R447). -/
def EvtBlock.leave (b : EvtBlock) (now : Nat) : EvtBlock :=
  { b.mark now with cls := 0, cause := false, pending := false, requal := false, ferValid := false, step := 0, timer := none,
                    contain := false, isolate := false }

/-- The slot's fuse-trip event leaves its class: an off command cleared the trip (R433, R450). -/
def State.clearTrip (s : State) (n : Nat) : State :=
  if (s.blk (456 + 3 * n)).cls == 2 then s.setBlk (456 + 3 * n) ((s.blk (456 + 3 * n)).leave s.now) else s

/-- An off command (SLOT_CMD off, FORCE_OFF, Power Controller Control off) or loss of presence takes the slot to OFF
(R411); in LOCKOUT it does nothing. `cause` is written to LAST_CAUSE when it is not 0. -/
def State.slotOff (s : State) (n cause : Nat) : State :=
  let x := s.slot n
  if x.state = .lockout then s
  else
    let s := if x.state = .tripped then s.clearTrip n else s
    let s := if x.state = .off then s.updSlot n (fun x => { x with cmdOn := false, onWaits := false })
      else
        let ran := x.state = .ramp || x.state = .on
        -- a gate that was off already stays watched (R419)
        s.updSlot n (fun x => { x.gateOff .off s.now with cmdOn := false, watch := x.watch, offAt := if ran then some s.now else none })
    if cause == 0 then s else s.setO (K.LAST_CAUSE n) cause

/-- The port that names slot n, if one does. -/
def State.slotPort (s : State) (n : Nat) : Option Nat :=
  (List.range 96).find? (fun p => s.o (K.SLOT p) == n && s.o (K.ROLE p) ≠ 0)

/-- The vPPB through which a host owns the slot of port p (R257). -/
def State.ownerOf (s : State) (p : Nat) : Option (Nat × Nat) :=
  match s.boundIn p with
  | [nv] =>
    if s.o (K.HP_OWNER p) == 1 && (s.o (K.ROLE p) == 3 || (s.o (K.ROLE p) == 2 && s.o (K.POOL p) == 0 && s.o (K.AGENT_KIND p) ≠ 3))
    then some nv else none
  | _ => none

/-- The vPPB through which a host owns slot n. -/
def State.slotOwner (s : State) (n : Nat) : Option (Nat × Nat) :=
  match s.slotPort n with
  | some p => s.ownerOf p
  | none => none

/-- Slot n's vPPBs set a Slot Status bit (R258, R262). -/
def State.slotStatus (s : State) (n b : Nat) : State :=
  match s.slotPort n with
  | none => s
  | some p =>
    (s.boundIn p).foldl (fun s nv =>
      (s.updVppb nv.1 nv.2 (fun v => { v with status := setBit v.status b true })).emit .hotplug nv.1
        [nv.2, setBit (s.vppb nv.1 nv.2).status b true]) s

/-- A power fault of slot n: Power Fault Detected, the port down by surprise, and the host must write off and on
(R263). -/
def State.powerFault (s : State) (n : Nat) : State :=
  let s := s.slotStatus n 1
  let s := if (s.slotOwner n).isSome then s.updSlot n (fun x => { x with hostLatch := true }) else s
  match s.slotPort n with
  | some p => s.portDown p .surprise
  | none => s

/-! ### On and off, and the power commands of a host (R257-R261, R263) -/

/-- The slot may be commanded on: a card is present after debounce, or presence is ignored (R420). -/
def State.slotPresent (s : State) (n : Nat) : Bool :=
  ((s.slot n).prsntKnown && (s.slot n).prsnt) || s.cB (K.PRSNT_IGNORE n)

/-- Slot n's companion is over temperature (R563). -/
def State.slotHot (s : State) (n : Nat) : Bool := KMap.get false s.st.hotSpc (if n < 12 then 0 else 1)

/-- An on command is accepted (R420): in OFF it waits for the output to be below 2.5 V (RAMP_START), in SUPPLY_WAIT it
only sets CMD_ON; in other states nothing happens. -/
def State.slotOn (s : State) (n : Nat) : State :=
  match (s.slot n).state with
  | .off => s.updSlot n (fun x => { x with cmdOn := true, onWaits := true })
  | .supplyWait => s.updSlot n (fun x => { x with cmdOn := true })
  | _ => s

/-- A power command of slot n is in progress (R259): until PERST is released, or the removal has commanded the slot off. -/
def State.powerBusy (s : State) (n : Nat) : Bool :=
  let x := s.slot n
  decide (n < 24) && (x.onWaits || x.state = .ramp || (x.state = .on && x.perst) || x.offDueAt.isSome)

/-- Set Slot Status bits of a vPPB and tell the host. -/
def State.vppbStatus (s : State) (n v : Nat) (bs : List Nat) : State :=
  let st := bs.foldl (fun x b => setBit x b true) (s.vppb n v).status
  (s.updVppb n v (fun b => { b with status := st })).emit .hotplug n [v, st]

/-- A mode 0 or 1 unbind of this vPPB has been waiting for what has happened now (R255, R263). -/
def State.unbindReady (s : State) (n v : Nat) (modes : List Nat) : State :=
  match s.fab.bindOp with
  | some b => if b.unbind && b.host == n && b.vppb == v && modes.contains b.mode then
      { s with fab := { s.fab with bindOp := some { b with ready := true } } } else s
  | none => s

/-- Power Controller Control of a vPPB takes effect (R260, R261, R263): Command Completed is set when it is accepted. -/
def State.powerCommand (s : State) (n v p sl : Nat) (off : Bool) : State :=
  let s := (s.updVppb n v (fun b => { b with pwrOff := off })).vppbStatus n v [4]
  if off then
    let s := s.updSlot sl (fun x => { x with hostLatch := false })
    let s := s.portDown p .managed
    if s.slotPowered sl then
      s.updSlot sl (fun x => { x with perst := true, perstAt := none, offDueAt := some (s.now + s.o (K.PERST_TO_OFF p) * Config.us) })
    else (s.slotOff sl 0).unbindReady n v [0, 1]
  else if (s.slot sl).hostLatch || !(s.slotPresent sl) || s.slotHot sl then s
  else s.slotOn sl

/-- A host writes Power Controller Control (R257, R259): behind a command in progress it waits, and the last write decides; it waits
for the island too (R432). -/
def State.powerWrite (s : State) (n v : Nat) (off : Bool) : State :=
  match s.binding n v with
  | none => s
  | some (_, p, _) =>
    let sl := s.o (K.SLOT p)
    if s.ownerOf p ≠ some (n, v) || 24 ≤ sl then s
    else if s.powerBusy sl || !s.hkServes then s.updVppb n v (fun b => { b with cmdWait := some off })
    else s.powerCommand n v p sl off

/-- A power command of slot n has ended: one that waits is applied. -/
def State.powerNext (s : State) (sl : Nat) : State :=
  match if s.powerBusy sl || !s.hkServes then none else s.slotOwner sl, s.slotPort sl with
  | some (n, v), some p =>
    match (s.vppb n v).cmdWait with
    | none => s
    | some off => (s.updVppb n v (fun b => { b with cmdWait := none })).powerCommand n v p sl off
  | _, _ => s

/-- FORCE_OFF (R430): off whoever owns the slot, with cause 0x08; a host owner must write off and on again. -/
def State.forceOff (s : State) (n : Nat) : State :=
  let s := s.slotOff n 8
  (if (s.slotOwner n).isSome then (s.slotStatus n 1).updSlot n (fun x => { x with hostLatch := true }) else s).powerNext n

/-- Port p is held isolated by a class of one of its four blocks (R453, R454). -/
def State.portIsolated (s : State) (p : Nat) : Bool :=
  (List.range 4).any (fun i => (s.blk (4 * p + i)).isolate)

/-- Port p is contained: it admits nothing new (R453 step 2). -/
def State.portContained (s : State) (p : Nat) : Bool :=
  (List.range 4).any (fun i => (s.blk (4 * p + i)).contain || (s.blk (4 * p + i)).isolate)

/-- PERST_Nnn of the slot that powers port p is asserted. -/
def State.inPerst (s : State) (p : Nat) : Bool :=
  decide (s.o (K.SLOT p) < 24) && (s.slot (s.o (K.SLOT p))).perst

/-- Training may run: the hub runs with its images, the tile is up, LINK_ENABLE is true, nothing isolates the port,
and its card is out of reset (R282, R547 step 12). -/
def State.mayTrain (s : State) (p : Nat) : Bool :=
  !s.tileHeld (tileOf p) && s.o (K.LINK_ENABLE p) == 1 && !s.portIsolated p && !s.inPerst p && s.gen.published
    && !s.isMember p

/-- The link settings that the active generation gives port p. -/
def State.linkSet (s : State) (p : Nat) : LinkSet :=
  { rate := s.c (K.RATE_MAX p), flit := s.c (K.FLIT_MODE p), cxl := s.cB (K.CXL_ENABLE p), clock := s.c (K.CLOCK_MODE p)
    bypass := s.cB (K.EQ_BYPASS p), presets := s.c (K.EQ_PRESETS p), l1 := s.cB (K.L1_ALLOW p), l0p := s.cB (K.L0P_ALLOW p)
    ide := s.cB (K.LINK_IDE p), cxlIde := s.c (K.CXL_IDE_MODE p), idle := s.c (K.LANE_IDLE p) }

/-- Preset that equalisation first requests of the partner at a rate (R283, R300). -/
def LinkSet.preset (x : LinkSet) (rate : Nat) : Nat := if rate < 3 then 0 else x.presets / 16 ^ (rate - 3) % 16

/-- A training of port p takes the settings in force, and equalises from the initial presets, at last those of its highest rate (R283,
R284). -/
def State.beginTraining (s : State) (p : Nat) : State :=
  let x := s.linkSet p
  let s := s.updPort p (fun q => { q with set := x, eqKept := false })
  { s with fab := { s.fab with
      lane := (s.lanesOf p).foldl (fun m l => KMap.upd {} m l (fun y => { y with rxPreset := x.preset x.rate })) s.fab.lane } }

/-- The tile processors restart with a new TILE image (R525). -/
def State.tilesRestart (s : State) : Bool := s.life.swapping == some 2

/-- Training starts (R282): the LTSSM leaves Detect and the lanes become ACTIVE (R299). It waits while the tile processors restart
(R525). -/
def State.startTraining (s : State) (p : Nat) : State :=
  if s.mayTrain p && !s.linkUp p then
    if s.tilesRestart then { s with fab := { s.fab with waitTrain := insertNat p s.fab.waitTrain } } else
    let s := ((s.setO (K.LTSSM_STATE p) 1).setLanes (s.lanesOf p) 3).beginTraining p
    s.updPort p (fun q => { q with held := false })
  else s

/-- The link enters Recovery (R286): its scans end. -/
def State.enterRecovery (s : State) (p : Nat) : State :=
  ((s.endEyes p 3).setO (K.LTSSM_STATE p) 4).incO (K.RECOVERIES p)

/-- A retrain begins (R284): through Recovery when the link is up, without going down. -/
def State.retrain (s : State) (p : Nat) : State :=
  if (s.port p).up then (s.enterRecovery p).beginTraining p else s.startTraining p

/-- The tile processors have restarted: what waited for them begins (R525). -/
def State.tilesBack (s : State) : State :=
  let f := s.fab
  let s : State := { s with fab := { f with waitTrain := [], waitRetrain := [] } }
  f.waitRetrain.foldl State.retrain (f.waitTrain.foldl State.startTraining s)

end Sys2Proof.Machine
end

