-- ==== Sys2Proof/Machine/CsrGate.lean ====
section
/-!
DEFINITION. The gate of every CSR access (R6, R18, R439, R443, R444, R506) and the answers to object writes.
-/
namespace Sys2Proof.Machine

/-- Die and offset of an event block's registers (R444). -/
def evtOffset (n : Nat) : Nat := 0x01800000 + 0x40 * n

/-- The block whose status records an access to an unreachable die: the core's own (R18, R443). A service-port session
has no block of its own: the service port's is used. -/
def csrBlock : CsrVia → Nat
  | .core c => 568 + c.val
  | .service _ => 611

/-- Master ID of the issuer (R448). -/
def csrMaster : CsrVia → Nat
  | .core c => 0x70 + c.val
  | .service _ => 0x90

/-- The issuer may reach the die: a core runs and reaches the data-path dies only, the companions and the island are
reached over the service port (R439); a session needs the maker role (R506). -/
def State.csrAllowed (s : State) (via : CsrVia) (die : Nat) : Bool :=
  match via with
  | .core c => !s.hubHeld && !(s.blk (568 + c.val)).contain && decide (die < 5)
  | .service sid => s.islandUp && (match s.sess? sid with | some x => x.role == 3 | none => false)

/-- Offset of SEAM_DIAG in its window: its STRAND field is kept there. -/
def diagOffset (sm d : Nat) : Nat := if d == 0 then 0x00600000 else 0x00600000 + 0x1000 * sm

/-- A die's own block. DESIGN CHOICE: the tile's (E582 + t), the tick engine's (E529), the companion's (E612, E613), the
housekeeping processor's (E600). -/
def dieBlock (die : Nat) : Nat :=
  if die < 4 then 582 + die else if die == 4 then 529 else if die == 5 then 612 else if die == 6 then 613 else 600

/-- The block of the strand that SEAM_DIAG selects, of the sender of direction d; strand 0 when it selects none. -/
def State.diagBlock (s : State) (die sm d : Nat) : Nat :=
  let k := s.csrAt die (diagOffset sm d)
  384 + 18 * sm + 2 * (if k < 9 then k else 0) + d

/-- The block that owns the register at an offset, for an access that breaks R6 (R443). The spec names it for event blocks and the
cores' registers only. DESIGN CHOICE: SEAM_DIAG belongs to the strand it selects, a lane to its port's E(4p), PLK_MODE_STAT to the
plank, SPC_SLOTnn_STAT to its slot's E(456+3s); an offset without a register, and an EVT offset whose block is reserved or stands
in another die, belongs to the die's own block. -/
def State.csrOwner (s : State) (die off : Nat) : Nat :=
  if 0x01800000 ≤ off && off < 0x01800000 + 0x40 * 640 then
    let n := (off - 0x01800000) / 0x40
    if blockDie n == die && !blockReserved n then n else dieBlock die
  else if die < 4 then
    (if 0x00600000 ≤ off && off < 0x00600004 then s.diagBlock die die 0
     else if 0x01000000 ≤ off && off < 0x01000000 + 0x20 * 96 then 4 * (24 * die + (off - 0x01000000) / 0x20 / 4)
     else dieBlock die)
  else if die == 4 then
    (if 0x00801000 ≤ off && off < 0x00801800 then 568 + (off - 0x00801000) / 0x200
     else if 0x00800000 ≤ off && off < 0x00800400 then 568 + (off - 0x00800000) / 0x100
     else if 0x00400000 ≤ off && off < 0x00400004 then 528
     else if 0x00600000 ≤ off && off < 0x00604000 && off % 0x1000 < 4 then s.diagBlock 4 ((off - 0x00600000) / 0x1000) 1
     else dieBlock die)
  else if die < 7 && 0x1000 ≤ off && off < 0x1000 + 0x40 * 12 then 456 + 3 * ((die - 5) * 12 + (off - 0x1000) / 0x40)
  else dieBlock die

/-- An access to a die that is held in reset or cut off: it has no effect and the issuer's block sets UNREACH
(R18). -/
def State.csrUnreach (s : State) (via : CsrVia) : State :=
  s.setBlk (csrBlock via) { (s.blk (csrBlock via)).heat 9 s.now with unreach := true }

/-- Run the effect of a well-formed CSR write to a reachable die. -/
def State.csrDo (s : State) (via : CsrVia) (die : Nat) (f : State → State) : State :=
  if !s.csrAllowed via die then s
  else if !s.dieUp die then s.csrUnreach via
  else f s

/-- Answer an object access to its session (R490). -/
def State.answerOd (s : State) (sid : Nat) (a : OdAns) : State := s.emit .answer sid [a.abort, a.detail]

end Sys2Proof.Machine
end

