-- ==== Sys2Proof/Machine/Events.lean ====
section
/-!
DEFINITION. Event sources: leaving a class, requalification, escalation, delivery, acknowledgement, check-bit
inversion (R450-R462).
-/
namespace Sys2Proof.Machine

/-! ### Leaving a class -/

/-- Kind of a block for the ladder (R453). -/
inductive BlockKind where
  | port (p : Nat)
  | strand (sm k d : Nat)
  | slot (n : Nat)
  | brim (t : Nat)
  | cellTile (t : Nat)
  | engine (e : Nat)
  | core (c : Nat)
  | hub
  | island
deriving DecidableEq, Repr, Inhabited

/-- Kind of block n. -/
def blockKind (n : Nat) : BlockKind :=
  if n < 384 then .port (n / 4)
  else if n < 456 then .strand ((n - 384) / 18) ((n - 384) % 18 / 2) ((n - 384) % 2)
  else if n < 528 then .slot ((n - 456) / 3)
  else if 552 ≤ n && n < 568 then .engine (n - 552)
  else if 568 ≤ n && n < 572 then .core (n - 568)
  else if 574 ≤ n && n < 578 then .brim (n - 574)
  else if 578 ≤ n && n < 582 then .cellTile (n - 578)
  else if 582 ≤ n && n < 586 then .cellTile (n - 582)
  else if n == 589 || 600 ≤ n then .island
  else .hub

/-- After a clear was accepted: an isolated port trains again (R450), and the plank's requalification needs a matcher
self-test started after the clear (R451, R62). DEDUCED: the clear starts it. -/
def State.afterLift (s : State) (n : Nat) : State :=
  match blockKind n with
  | .port p => s.startTraining p
  | .hub => if n == 528 then ({ s with pl := { s.pl with selfAt := s.now } } : State).setO K.MATCH_SELFTEST 1 else s
  | _ => s

/-- What a clear lifts (R456). -/
def EvtBlock.lift (b : EvtBlock) : Lifted :=
  { cls := b.cls, step := b.step, cause := b.cause, pending := b.pending, contain := b.contain, isolate := b.isolate,
    ferValid := b.ferValid, timer := b.timer }

/-- CLR or EVT_CLEAR on block n (R450): the new state and whether it was accepted. -/
def State.clearBlock (s : State) (n : Nat) : Bool × State :=
  let b := s.blk n
  -- a fault of the block in this cycle wins (R456)
  let fault := b.isHot 3 s.now
  if b.cls == 0 then (true, s)
  else if b.cls == 1 && !fault then
    (true, s.setBlk n { b.leave s.now with clearedAt := s.now, clearedTick := s.tm.ticks, lifted := some b.lift })
  else if b.cls == 2 && !fault && !b.cause && !(456 ≤ n && n < 528 && (n - 456) % 3 < 2) then
    (true, (s.setBlk n { b with contain := false, isolate := false, step := 0, pending := false, requal := true, timer := none,
                                clearedAt := s.now, clearedTick := s.tm.ticks, lifted := some b.lift }).afterLift n)
  else (false, s.setBlk n { b with clrRefused := true })

/-- The condition of R451 by which block n requalifies. -/
def State.requalified (s : State) (n : Nat) : Bool :=
  let b := s.blk n
  match blockKind n with
  | .port p => s.linkUp p || s.o (K.LINK_ENABLE p) == 0 || (s.o (K.PORT_STATE p) ≤ 1 && !(s.port p).partner)
  | .strand sm k d =>
    let x := s.strandOf sm d k
    decide (2 ≤ x.status) && decide (x.upAt + Config.ms ≤ s.now)
  | _ =>
    if n == 528 then s.o K.MATCH_SELFTEST == 2 && decide (b.clearedAt ≤ s.pl.selfAt)
    else if 532 ≤ n && n < 548 then s.o (K.STATE (n - 532)) == 2 || s.o (K.STATE (n - 532)) == 0
    else if 5 ≤ blockDie n then decide (b.clearedAt + 16 * Config.us ≤ s.now)
    else decide (b.clearedTick + 16 ≤ s.tm.ticks)

/-- Limit of R451 in ps; none for windows. -/
def requalLimit (n : Nat) : Option Nat :=
  match blockKind n with
  | .port _ => some (1000 * Config.ms)
  | .strand _ _ _ => some (10 * Config.ms)
  | _ => if n == 528 then some (40 * Config.us) else if 532 ≤ n && n < 548 then none else some (17 * Config.tickPs)

/-- A test for requalification (R451): it passes, it fails at its limit, or it goes on. -/
def State.requalifyCheck (s : State) (n : Nat) : State :=
  let b := s.blk n
  if !b.requal then s
  else if s.requalified n then
    s.setBlk n { b.mark s.now with requal := false, cls := 0, cause := false, ferValid := false, step := 0 }
  else match requalLimit n with
    | none => s
    | some l =>
      if s.now ≤ b.clearedAt + l then s
      else s.raise n b.cls (if b.ferValid then bits b.fer 167 160 else b.lastSyn)

/-- REQUALIFY_CHECK (R451). -/
def execRequalifyCheck (n : EventIx) (s : State) : Host.Outcome State Fault Refusal := .next (s.requalifyCheck n)

/-! ### Escalation -/

/-- Step 2 of the ladder: contain (R453). -/
def State.containAction (s : State) (n : Nat) : State :=
  let s' := s.setBlk n { s.blk n with contain := true }
  match blockKind n with
  | .port p =>
    (s.boundIn p).foldl (fun s nv =>
      if (s.vppb nv.1 nv.2).dpc then
        (s.updVppb nv.1 nv.2 (fun v => { v with dpcTrig := true })).emit .aer nv.1 [nv.2, 0x100]
      else s) s'
  | .strand sm k d => s'.updStrand sm d k (fun x => { x with status := 0 })
  | .slot k => s'.forceOff k
  | .core c => s'.updCore c (fun k => { region := k.region, word := k.word })
  | .brim _ | .engine _ => s'
  | _ => s

/-- Step 3 of the ladder: isolate (R453). -/
def State.isolateAction (s : State) (n : Nat) : State :=
  let s' := s.setBlk n { s.blk n with isolate := true }
  match blockKind n with
  | .port p => s'.portDown p .reset
  | .strand sm _ _ => s'.tileReset sm
  | .cellTile t => s'.tileReset t
  | _ => s

/-- The escalation timer of block n expires: the next step is taken and the timer starts again (R452). -/
def State.escalate (s : State) (n : Nat) : State :=
  let b := s.blk n
  if b.timer = none || !b.pending then s
  else
    let ceil := s.ceiling n b.cls
    if ceil ≤ b.step then s.setBlk n { b with timer := none }
    else
      let st := b.step + 1
      let s := s.setBlk n { b.mark s.now with step := st, timer := if st < ceil then some (s.c (K.ESC_TICKS n)) else none,
                                              timerAt := s.now }
      if st == 2 then s.containAction n
      else if st == 3 then s.isolateAction n
      else if st == 4 then s.enterSafe
      else s

/-- The timer of block n in item 6 (R452): it counts the boundary of this tick when it started before it (R4), once a tick. While
the seam of its tile is down a tile block's timer does not run (R456). -/
def State.tickTimer (s : State) (n : Nat) : State :=
  let b := s.blk n
  match b.timer with
  | none => s
  | some t =>
    if s.tm.tickStart ≤ b.timerAt || b.counted == s.tm.ticks || !b.pending || s.ceiling n b.cls ≤ b.step || 5 ≤ blockDie n
        || (decide (blockDie n < 4) && !s.seamUp (blockDie n)) then s
    else
      let s := s.setBlk n { b with counted := s.tm.ticks, timer := some (t - 1) }
      if 1 < t then s else s.escalate n

/-- ESCALATION_TIMER_EXPIRY (R452). A hub or tile block's timer is counted at tick boundaries, and the step is taken in item 6
of the tick at whose boundary the last one is counted (R4): time moves to its publication cycle. An island's or companion's
timer is advanced every 1 µs from its start (R456); it runs while the island does. -/
def execEscalationTimerExpiry (n : EventIx) (s : State) : Host.Outcome State Fault Refusal :=
  let b := s.blk n
  .next (match b.timer with
    | none => s
    | some t =>
      if 5 ≤ blockDie n then (if s.islandUp then (s.advance (b.timerAt + t * Config.us)).escalate n else s)
      else if s.hubHeld || s.tm.overrun || t ≠ 1 || !s.itemRuns 6 then s
      else (s.advance (s.itemAt 6)).tickTimer n)

/-! ### Routing and delivery -/

/-- Extents granted on a target to hosts. -/
def State.grantees (s : State) (m : Nat) : List Nat := (s.fab.extents.filter (fun x => x.target == m)).map (·.vcs)

/-- Hosts with an enabled window on target m. -/
def State.windowHostsOn (s : State) (m : Nat) : List Nat :=
  ((List.range 16).filter (fun w => s.cB (K.WIN_ENABLE w) && (s.c (K.PRIMARY_TARGET w) == m
    || (s.cB (K.MIRROR w) && s.c (K.MIRROR_TARGET w) == m)))).flatMap s.winHosts

/-- Hosts that an event concerns (R459). -/
def State.concerned (s : State) (n : Nat) : List Nat :=
  if n < 384 then
    let p := n / 4
    let own := if s.o (K.ROLE p) == 1 then [s.o (K.AGENT p)] else []
    let pool := if s.o (K.ROLE p) == 2 && s.o (K.POOL p) == 1 then
      s.windowHostsOn (s.o (K.AGENT p)) ++ s.grantees (s.o (K.AGENT p)) else []
    own ++ (s.boundIn p).map (·.1) ++ pool
  else if 532 ≤ n && n < 548 then s.winHosts (n - 532)
  else []

/-- Hosts to which an event goes by MSI-X (R459), each once. -/
def State.routedHosts (s : State) (n : Nat) : List Nat :=
  let r := s.c (K.EVT_ROUTE n)
  let fm := if bit r 0 && s.c K.FM_HOST < 64 then [s.c K.FM_HOST] else []
  let co := if bit r 1 then s.concerned n else []
  (fm ++ co).eraseDups

/-- An emergency's 16-byte body (R460). -/
def emcyBody (n : Nat) (b : EvtBlock) : Nat :=
  n + b.cls * 2 ^ 16 + b.step * 2 ^ 18 + b.lastSyn * 2 ^ 24 + b.raiseMaster * 2 ^ 32
    + min b.count 0xFFFFFF * 2 ^ 40 + b.raiseCt * 2 ^ 64

/-- Queue an emergency: 64 places, the newest is dropped when they are full (R460). -/
def State.queueEmcy (s : State) (body : Nat) : State :=
  if s.ev.emcy.length < 64 then { s with ev := { s.ev with emcy := s.ev.emcy ++ [body] } }
  else (s.incO K.EMCY_DROPPED).raiseCore 588 1 1

/-! ### MSI-X (R458, R461) -/

/-- Number of an MSI-X vector: of function `fn` of host h's upstream switch port. -/
def msixKey (h fn e : Nat) : Nat := (h * 2 + fn) * 4096 + e

/-- Vectors of a function: 2,048 for slices (R461), 64 for events (R458). -/
def msixSize (fn : Nat) : Nat := if fn == 0 then 2048 else 64

/-- A table entry: address [63:0], data [95:64], mask [96]. PRESUMED: as PCIe has it, masked at reset. -/
def State.msixEntry (s : State) (h fn e : Nat) : Nat := KMap.get (2 ^ 96) s.ev.msix (msixKey h fn e)

/-- Message control of a function: function mask [14], enable [15]. -/
def State.msixControl (s : State) (h fn : Nat) : Nat :=
  let u := KMap.get {} s.fab.usp h
  if fn == 0 then u.msix0 else u.msix1

/-- The vector may send: MSI-X is enabled, and neither the function nor the vector is masked. -/
def State.msixOpen (s : State) (h fn e : Nat) : Bool :=
  bit (s.msixControl h fn) 15 && !bit (s.msixControl h fn) 14 && !bit (s.msixEntry h fn e) 96

/-- The posted write of a vector, an agent's of the hub: the event function's (source 0x7A) of class SYS (R24, R458), a slice's engine's of
its BULK flow, behind the record (R461). -/
def State.msixEmit (s : State) (h fn e : Nat) : State :=
  match s.hostPort h with
  | none => s
  | some q =>
    let x := s.msixEntry h fn e
    let m : Out := { kind := .msix, dst := h, args := [fn, e, x % 2 ^ 64, bits x 95 64] }
    if fn == 0 then s.agentSend (engineMaster (KMap.get {} s.mv.slice e).engine) h .bulk q 20 0 m
    else s.agentSend 0x7A h .sys q 20 0 m

/-- A vector is raised: it is sent, or sets its pending bit as PCIe specifies. -/
def State.msixRaise (s : State) (h fn e : Nat) : State :=
  if s.msixOpen h fn e then s.msixEmit h fn e
  else { s with ev := { s.ev with msixPend := KMap.set false s.ev.msixPend (msixKey h fn e) true } }

/-- Pending vectors of a function that have been opened are sent. -/
def State.msixFlush (s : State) (h fn : Nat) : State :=
  (s.ev.msixPend.filter (fun e => e.1 / 4096 == h * 2 + fn)).foldl (fun (s : State) e =>
    if s.msixOpen h fn (e.1 % 4096) then
      ({ s with ev := { s.ev with msixPend := KMap.set false s.ev.msixPend e.1 false } } : State).msixEmit h fn (e.1 % 4096)
    else s) s

/-- `size` bytes `old` that begin at `base`, with `bytes` bytes of data written from `off` on. -/
def patchBytes (old base size off bytes data : Nat) : Nat :=
  ((List.range size).map (fun i =>
    (if off ≤ base + i && base + i < off + bytes then data / 256 ^ (base + i - off) % 256 else old / 256 ^ i % 256) * 256 ^ i)).sum

/-- Entry e of a function's MSI-X table takes a value. -/
def State.setMsix (s : State) (h fn e v : Nat) : State :=
  { s with ev := { s.ev with msix := KMap.set (2 ^ 96) s.ev.msix (msixKey h fn e) v } }

/-- A write of a function's MSI-X table, which stands at offset 0 of its BAR. -/
def State.msixWrite (s : State) (h fn off bytes data : Nat) : State :=
  let es := ((List.range ((off + bytes - 1) / 16 - off / 16 + 1)).map (off / 16 + ·)).filter (fun e => decide (e < msixSize fn))
  let s := es.foldl (fun (s : State) e => s.setMsix h fn e (patchBytes (s.msixEntry h fn e) (16 * e) 16 off bytes data % 2 ^ 97)) s
  s.msixFlush h fn

/-- A read of the BAR of a function's MSI-X table: the table, and behind it its pending bits. -/
def State.msixRead (s : State) (h fn off bytes : Nat) : Nat :=
  let pba := 16 * msixSize fn
  ((List.range bytes).map (fun i =>
    let a := off + i
    let b := if a < pba then s.msixEntry h fn (a / 16) / 256 ^ (a % 16) % 256
      else ((List.range 8).map (fun j => let e := (a - pba) * 8 + j
        b2n (decide (e < msixSize fn) && KMap.get false s.ev.msixPend (msixKey h fn e)) * 2 ^ j)).sum
    b * 256 ^ i)).sum

/-- A write of a function's message control. -/
def State.msixSetControl (s : State) (h fn w : Nat) : State :=
  let v := Nat.land w 0xC000
  let s : State := { s with fab := { s.fab with usp := KMap.upd {} s.fab.usp h (fun u =>
    if fn == 0 then { u with msix0 := v } else { u with msix1 := v }) } }
  s.msixFlush h fn

/-- One MSI-X message of function 1 to a host (R24, R458); refused by routing when the host's VCS is not up (E588 code 0x02). -/
def State.sendMsix (s : State) (h vec : Nat) : State :=
  if !s.isVcsUp h then s.raiseCore 588 1 2 else s.msixRaise h 1 vec

/-- Item 4 gathers a block whose change came before its publication cycle `at_` (R32, R457); a later change waits for the
next tick. -/
def EvtBlock.gather (b : EvtBlock) (at_ : Nat) : EvtBlock :=
  if b.changed && decide (b.changedAt < at_) && !sameCycle b.changedAt at_ then
    if b.changeLast < at_ && !sameCycle b.changeLast at_ then { b with changed := false, owed := true }
    else { b with changedAt := b.changeLast, owed := true }
  else b

/-- The hub sees block n: its tile's seam carries traffic (R456). -/
def State.blockSeen (s : State) (n : Nat) : Bool := decide (4 ≤ blockDie n) || s.seamUp (blockDie n)

/-- Item 4 of the tick: gather every changed block (R457). -/
def State.gather (s : State) : State :=
  { s with ev := { s.ev with blk := s.ev.blk.map (fun e => (e.1, if s.blockSeen e.1 then e.2.gather (s.itemAt 4) else e.2)) } }

/-- An event of source n goes out: its MSI-X messages and its emergency (R457-R460). -/
def State.sendEvent (s : State) (n body : Nat) : State :=
  let r := s.c (K.EVT_ROUTE n)
  let s := if s.hubHeld then s else (s.routedHosts n).foldl (fun s h => s.sendMsix h (bits r 13 8)) s
  if bit r 2 then s.queueEmcy body else s

/-- Delivery of a gathered change of source n (R457). -/
def State.deliver (s : State) (n : Nat) : State :=
  let b := s.blk n
  if !b.owed then s else (s.setBlk n { b with owed := false }).sendEvent n (emcyBody n b)

/-- A companion holds an event record for the island, which is in reset: up to 32, the later ones are counted (R432). -/
def State.holdRecord (s : State) (n : Nat) : State :=
  let c := (n - 456) / 36
  let l := KMap.get [] s.pw.spcHeld c
  let b := s.blk n
  let s := s.setBlk n { b with changed := false, owed := false }
  if l.length < 32 then
    { s with pw := { s.pw with spcHeld := KMap.set [] s.pw.spcHeld c (l ++ [(n, emcyBody n b)]) } }
  else { s with pw := { s.pw with spcOver := KMap.upd 0 s.pw.spcOver c (· + 1) } }

/-- The island has returned and takes the records that the companions held; an overflow raises E612 or E613 code 0x03
(R432, R442). -/
def State.giveRecords (s : State) : State :=
  (List.range 2).foldl (fun (s : State) c =>
    let l := KMap.get [] s.pw.spcHeld c
    let lost := KMap.get 0 s.pw.spcOver c
    let s : State := { s with pw := { s.pw with spcHeld := KMap.set [] s.pw.spcHeld c [],
                                                spcOver := KMap.set 0 s.pw.spcOver c 0 } }
    let s := l.foldl (fun (s : State) e => s.sendEvent e.1 e.2) s
    if lost == 0 then s else s.raiseCore (612 + c) 1 3 false { master := 0x91 + c }) s

/-- EVENT_DELIVER (R457): an island or companion block is gathered by the island itself, so its change is taken too; while
the island is in reset a companion holds the record (R432). -/
def execEventDeliver (n : EventIx) (s : State) : Host.Outcome State Fault Refusal :=
  let b := s.blk n
  if 5 ≤ blockDie n && !s.hkServes then
    .next (if 456 ≤ n.val && n.val < 528 && (b.changed || b.owed) then s.holdRecord n else s)
  else
    let s := if 5 ≤ blockDie n && b.changed then s.setBlk n { b with changed := false, owed := true }
      else if s.itemDue 4 && !s.tm.overrun && s.blockSeen n then s.setBlk n (b.gather (s.itemAt 4)) else s
    .next (s.deliver n)

/-- EMCY (R477): the oldest queued emergency leaves once the node holds an address and is not bus off. -/
def execEmcy (s : State) : Host.Outcome State Fault Refusal :=
  match s.ev.emcy with
  | [] => .next s
  | body :: rest =>
    if s.o K.NODE_ADDR == 0 || s.o K.CAN_STATE == 2 || !s.islandUp then .next s
    else
      let n := (s.ev.emcyCount + 1) % 64
      let s := { s with ev := { s.ev with emcy := rest, emcyCount := s.ev.emcyCount + 1 } }
      .next ((s.emit .can 0 (1 :: s.o K.NODE_ADDR :: n :: (toBytes 16 body).map (·.toNat))).incO K.FRAMES_TX)

/-! ### Acknowledgement -/

/-- A block that is acknowledged: PENDING clears and the timer stops (R452). A raise in the same FCLK cycle keeps PENDING, and
the timer starts afresh (R7, R456). -/
def EvtBlock.ack (b : EvtBlock) (esc now : Nat) : EvtBlock :=
  if b.isHot 0 now then { b with timer := b.timer.map (fun _ => esc), timerAt := now }
  else { b with pending := false, timer := none }

/-- Acknowledge block n. A step that item 6 has taken in an earlier cycle, or takes in this one, is not prevented (R456). -/
def State.ackBlock (s : State) (n : Nat) : State :=
  let s := if s.tm.item < 6 && !s.tm.overrun && !s.hubHeld && s.itemRuns 6 && decide (s.itemAt 6 < s.now + Config.fclk) then s.tickTimer n
    else s
  s.setBlk n ((s.blk n).ack (s.c (K.ESC_TICKS n)) s.now)

/-- PENDING_ACK (R452): PENDING written 1 in EVT_BLKnnn_STAT. -/
def execPendingAck (via : CsrVia) (n : EventIx) (s : State) : Host.Outcome State Fault Refusal :=
  .next (s.csrDo via (blockDie n) (fun s => s.ackBlock n))

/-- EVT_ACK's own rule. -/
def ownEvtAck (n : Nat) (s : State) : OdAns × State := (odOk, s.ackBlock n)

/-- EVT_CLEAR's own rule: a clear that R450 does not allow is refused with 0x0501. -/
def ownEvtClear (n : Nat) (s : State) : OdAns × State :=
  let r := s.clearBlock n
  (if r.1 then odOk else odNo 0x0501, r.2)

/-- The host of VCS n acknowledges the sources of a map that are routed to it (R452, R458). -/
def State.ackMap (s : State) (n map : Nat) : State :=
  (bitList 640 map).foldl (fun s e => if (s.routedHosts e).contains n then s.ackBlock e else s) s

/-- ACK_MAP_WRITE (R458): a 1 for a source routed to the writing host acknowledges it. -/
def execAckMapWrite (h : HostIx) (map : BitVec 640) (s : State) : Host.Outcome State Fault Refusal :=
  .next (if s.isVcsUp h then s.ackMap h map.toNat else s)

/-- CLR written 1 in EVT_BLKnnn_STAT (R450). -/
def execClr (via : CsrVia) (n : EventIx) (s : State) : Host.Outcome State Fault Refusal :=
  .next (s.csrDo via (blockDie n) (fun s => (s.clearBlock n).2))

/-- FER_VALID written 1 releases the record (R447), unless the record was taken in this cycle (R7). -/
def execFerValidRelease (via : CsrVia) (n : EventIx) (s : State) : Host.Outcome State Fault Refusal :=
  .next (s.csrDo via (blockDie n) (fun s =>
    s.setBlk n { s.blk n with ferValid := (s.blk n).ferValid && (s.blk n).isHot 7 s.now }))

/-- SAFE_EXIT's own rule (R455). -/
def ownSafeExit (s : State) : OdAns × State :=
  if !s.ev.safe then (odNo 0x0501, s)
  else
    let s := { s with ev := { s.ev with safe := false } }
    (odOk, (((s.setO K.SAFE_STATE 0).setO K.START_PHASE 7).causeEnds 589).hubCauseEnds 0x13)

/-! ### Check-bit inversion (R462, R463) -/

/-- Fault injection is open in the life-cycle states BLANK, PROVISIONED and RETURNED (R514). -/
def State.lcState (s : State) : Nat :=
  let f := s.life.fuses.lc
  if f == 0x00 then 0 else if f == 0x03 then 1 else if f == 0x0F then 2 else if f == 0x3F then 3 else 4

/-- Injection may act now. -/
def State.injOpen (s : State) : Bool := s.lcState == 0 || s.lcState == 1 || s.lcState == 3

/-- Checkers that block n has (R463): their number. -/
def checkers (n : Nat) : Nat :=
  match blockKind n with
  | .port _ => if n % 4 == 1 then 2 else if n % 4 == 0 then 0 else 1
  | .strand _ _ _ => 2
  | .engine _ | .core _ => 2
  | .brim _ => 1
  | .cellTile _ => if n < 582 then 1 else 0
  | .slot _ | .island => 0
  | .hub => if n == 528 || n == 530 || n == 548 then 2 else if n == 529 || n == 572 || n == 573 then 1 else 0

/-- Fields of EVT_BLKnnn_INJ that a write sets: CHK, MODE, BIT, BIT2, TWO. -/
def injMask : Nat := 0x7F3F1F

/-- The tick engine's state check fails at the next boundary when its checker 0 is armed: handled at the boundary. A
strand's CHK 0 is the same control as INJ_ONCE and INJ_PERSIST of SEAM_DIAG (R463). -/
def State.injMirror (s : State) (n mode : Nat) : State :=
  match blockKind n with
  | .strand sm k d => s.updStrand sm d k (fun x => { x with injOnce := mode == 1, injAll := mode == 2 })
  | _ => s

/-- A write of EVT_BLKnnn_INJ (R462): DONE is read-only. DESIGN CHOICE: a write that arms an injection returns DONE to 0, since
what DONE then tells of is still to come; the spec does not say when it returns. A refused write of MODE leaves the fields
as they were. -/
def State.injWrite (s : State) (n v : Nat) : State :=
  if blockReserved n then s
  else
    let b := s.blk n
    let mode := bits v 4 3
    let denied := if bit v 6 then false else bit b.inj 6
    let refuse := mode ≠ 0 && (!s.injOpen || checkers n ≤ bits v 2 0 || mode == 3)
    if refuse then s.setBlk n { b with inj := setBit b.inj 6 true }
    else
      let keep := Nat.land v injMask
      let s := s.setBlk n { b with inj := setBit (setBit keep 6 denied) 5 (mode == 0 && bit b.inj 5) }
      if bits v 2 0 == 0 then s.injMirror n mode else s

/-- EVT_INJ (R462): a write of the injection register. -/
def execEvtInj (via : CsrVia) (n : EventIx) (value : Word32) (s : State) : Host.Outcome State Fault Refusal :=
  .next (s.csrDo via (blockDie n) (fun s => s.injWrite n value.toNat))

/-! ### EVT_BLKnnn_STAT as read (R444) -/

/-- The status word of block n. -/
def EvtBlock.stat (b : EvtBlock) : Nat :=
  b2n b.pending + b.cls * 2 + b2n b.cause * 8 + b2n b.requal * 32 + b2n b.clrRefused * 64 + b2n b.ferValid * 128
    + b2n b.more * 256 + b2n b.unreach * 512 + b.step * 1024 + b.lastSyn * 65536

/-- A write of the status word (R444, R450, R452): W1C bits, but those that hardware sets in the same cycle (R7), and CLR. -/
def State.statWrite (s : State) (n v : Nat) : State :=
  let s := if bit v 0 then s.ackBlock n else s
  let b := s.blk n
  let keeps := fun (i : Nat) => !bit v i || b.isHot i s.now
  let s := s.setBlk n { b with clrRefused := b.clrRefused && !bit v 6, ferValid := b.ferValid && keeps 7,
                               more := b.more && keeps 8, unreach := b.unreach && keeps 9 }
  if bit v 4 then (s.clearBlock n).2 else s

end Sys2Proof.Machine
end

