-- ==== Sys2Proof/Machine/OdChain.lean ====
section
/-!
DEFINITION. Sessions and the checks of an object access (R466-R469, R481-R492, R565): every write of an object, on
whatever path it comes, runs the one chain here and then the object's own rule.
-/
namespace Sys2Proof.Machine

/-! ### Sessions -/

/-- Path of a session: 1 CAN FD, 2 mailbox, 3 service port (R508). -/
def sidPath (sid : Nat) : Nat := sid % 256

/-- Node address, VCS or number of a session. -/
def sidOf (sid : Nat) : Nat := sid / 256 % 65536

/-- CUST_KEY_HASH as roles see it: a record that failed its HMAC counts as absent in PROVISIONED (R522). -/
def State.custKeySet (s : State) : Bool := s.o K.CUST_KEY_HASH ≠ 0 && s.life.custKeyOk

/-- Starting role (R467). -/
def State.startRole (s : State) (sid : Nat) : Nat :=
  if sidPath sid == 2 then
    if sidOf sid == s.c K.FM_HOST then (if s.lcState == 1 || s.lcState == 2 then 2 else 1) else 0
  else if s.lcState == 1 && !s.custKeySet then 2 else 1

/-- Open a session with its starting role and a fresh challenge (R467, R487, R518). -/
def State.openSession (s : State) (sid : Nat) : State :=
  let x : Session := { role := s.startRole sid, challenge := s.entropyVal, lastAt := s.now }
  ({ s with mg := { s.mg with sess := KMap.set none s.mg.sess sid (some x) } } : State).freeNext

/-- Sessions open on one path. -/
def State.sessionsOn (s : State) (path : Nat) : List (Nat × Session) :=
  s.mg.sess.filterMap (fun e => if sidPath e.1 == path then e.2.map (fun x => (e.1, x)) else none)

/-- The CAN FD session that has been idle longest. -/
def longestIdle : List (Nat × Session) → Option (Nat × Session)
  | [] => none
  | e :: es =>
    match longestIdle es with
    | none => some e
    | some f => if f.2.lastAt < e.2.lastAt then some f else some e

/-- The CAN FD session of a peer, opened by its first frame; at 64 open sessions the longest idle one is displaced
when it has been idle for 1 s, else nothing is opened (R466). -/
def State.canSession (s : State) (node : Nat) : Option State :=
  match s.sess? (sidCan node) with
  | some _ => some s
  | none =>
    if (s.sessionsOn 1).length < 64 then some (s.openSession (sidCan node))
    else match longestIdle (s.sessionsOn 1) with
      | some e => if e.2.lastAt + 1000 * Config.ms ≤ s.now then some ((s.closeSession e.1).openSession (sidCan node)) else none
      | none => none

/-- The island serves its paths: it runs, is not in recovery (R537), and its HK image is not swapping (R525). -/
def State.islandServes (s : State) : Bool := s.islandUp && !s.st.recovery && s.life.swapping ≠ some 5

/-- CAN frames addressed to the device reach it: it holds an address and is not bus off (R466, R479). -/
def State.canServes (s : State) : Bool := s.islandServes && s.o K.NODE_ADDR ≠ 0 && s.o K.CAN_STATE ≠ 2

/-- The service port is open: in every state but SCRAPPED (R504, R514). -/
def State.svcServes (s : State) : Bool := s.islandUp && s.lcState ≠ 4 && s.life.swapping ≠ some 5

/-- What becomes of a request that names a session. -/
inductive SessStatus where
  /-- no path delivers it -/
  | silent
  /-- 64 CAN FD sessions are open: ABORT 0x0502 -/
  | busy
  | ready (s : State)

/-- The session of a request, opened when a CAN FD peer's first frame needs it, with its idle time restarted. -/
def State.sessionFor (s : State) (sid : Nat) : SessStatus :=
  if sidPath sid == 1 then
    if !s.canServes then .silent
    else match s.canSession (sidOf sid) with
      | none => .busy
      | some s' => .ready (s'.updSess sid (fun x => { x with lastAt := s.now }))
  else if sidPath sid == 3 && !s.svcServes then .silent
  else if !s.islandServes then .silent
  else match s.sess? sid with
    | none => .silent
    | some _ => .ready (s.updSess sid (fun x => { x with lastAt := s.now }))

/-- A session's record; the closed session's is the default. -/
def State.session (s : State) (sid : Nat) : Session := (s.sess? sid).getD {}

/-- A session's role. -/
def State.role (s : State) (sid : Nat) : Nat := (s.session sid).role

/-! ### The checks of R481 -/

/-- Feature bit of an index range (R486); 63 for an index outside every range. -/
def featBit (ix : Nat) : Nat :=
  if 0x0100 ≤ ix && ix < 0x0400 then 0
  else if 0x0400 ≤ ix && ix < 0x0500 then 7
  else if 0x1000 ≤ ix && ix < 0x1600 then 3
  else if 0x1800 ≤ ix && ix < 0x1900 then 4
  else if 0x2000 ≤ ix && ix < 0x2400 then 5
  else if 0x2800 ≤ ix && ix < 0x2C00 then 6
  else if 0x3000 ≤ ix && ix < 0x3400 then 8
  else if 0x3800 ≤ ix && ix < 0x3900 then 9
  else if 0x4000 ≤ ix && ix < 0x4280 then 0
  else if 0x5000 ≤ ix && ix < 0x5100 then 10
  else if 0x6000 ≤ ix && ix < 0x6100 then 0
  else 63

/-- Objects with a value of their own for each session (R469, R508, R544, R545). -/
def perSession (key : Nat) : Bool :=
  key == K.FEAT_REQUEST || key == K.FEAT_SESSION || key == K.SESSION_ROLE || key == K.SESSION_ID || key == K.DRAFT_VIEW
    || key == K.AUTH_CHALLENGE || key == K.AUTH_RESPONSE || key == K.ATTEST_NONCE || key == K.ATTEST_STATE
    || key == K.ATTEST_REPORT

/-- The event source of an EVT object, by its index. -/
def evtOfKey (key : Nat) : Nat := key / 256 - 0x4000

/-- A key is EVT_ACK of some source. -/
def isEvtAck (key : Nat) : Bool := decide (0x4000 ≤ key / 256) && decide (key / 256 < 0x4280) && key % 256 == 2

/-- The role and scope permit a write (R565, R468). -/
def State.mayWrite (s : State) (sid : Nat) (r : OdRow) (key : Nat) : Bool :=
  let role := s.role sid
  if perSession key then true
  else if role == 0 then isEvtAck key && (s.routedHosts (evtOfKey key)).contains (sidOf sid)
  else if isEvtAck key then true
  else decide (r.role ≤ role)

/-- The port of a port object's index. -/
def portOfIx (ix : Nat) : Nat := (ix - 0x1000) / 16

/-- A read that a host-scope session may make (R468). -/
def State.hostScopeReads (s : State) (n key : Nat) : Bool :=
  let ix := key / 256
  if 0x0100 ≤ ix && ix < 0x0200 then true
  else if key == K.CT_NOW || key == K.CT_STATE then true
  else if ix == 0x2340 + n || ix == 0x2380 + n then true
  else if 0x1000 ≤ ix && ix < 0x1600 && (ix % 16 == 1 || ix % 16 == 0xC) then
    (s.boundIn (portOfIx ix)).any (fun nv => nv.1 == n)
  else if 0x4000 ≤ ix && ix < 0x4280 then (s.routedHosts (ix - 0x4000)).contains n
  else false

/-- The role and scope permit a read (R565, R468). -/
def State.mayRead (s : State) (sid key : Nat) : Bool :=
  if perSession key then true
  else if s.role sid == 0 then s.hostScopeReads (sidOf sid) key
  else true

/-- The life-cycle state permits the write (R514, R517, R522, R538, R545): slot on commands in SCRAPPED, JTAG_OPEN in
PROVISIONED and SCRAPPED, CUST_KEY_HASH outside PROVISIONED, the device key and its certificate outside BLANK. -/
def State.lcPermits (s : State) (key v : Nat) : Bool :=
  let lc := s.lcState
  if key == K.JTAG_OPEN then lc ≠ 1 && lc ≠ 4
  else if key == K.CUST_KEY_HASH then lc == 1
  else if key == K.DEVKEY_CERT || key == K.DEVKEY_GEN then lc == 0
  else if 0x5010 ≤ key / 256 && key / 256 < 0x5028 && key % 256 == 1 then !(lc == 4 && v == 1)
  else true

/-- Where an object's value can be reached (R484): its die runs and its seam is up. -/
def State.reachable (s : State) (r : OdRow) (key : Nat) : Bool :=
  match r.home with
  | .island => true
  | .companion => true
  | .hub => !s.hubHeld
  | .tile => s.dieUp (tileOfKey key)
  | .event => decide (5 ≤ blockDie (evtOfKey key)) || s.dieUp (blockDie (evtOfKey key))

/-- Checks 1 to 4 of R481 for a write: what a SEG_INIT runs (R482). -/
def State.writeEarly (s : State) (sid key v : Nat) : OdAns ⊕ OdRow :=
  match odRow? key with
  | none => .inl (odNo 0x0101)
  | some r =>
    if !bit (s.session sid).feat (featBit (key / 256)) then .inl (odNo 0x0101)
    else if r.access = .ro then .inl (odNo 0x0201)
    else if !s.mayWrite sid r key then .inl (odNo 0x0401)
    else if !s.lcPermits key v then .inl (odNo 0x0402)
    else .inr r

/-! ### Regions (R373, R374), as 128-bit words -/

/-- R, W or X of a region. -/
def rgnRead (r : Nat) : Bool := bit r 1
def rgnWrite (r : Nat) : Bool := bit r 2
def rgnExec (r : Nat) : Bool := bit r 3
/-- Memory type of a core's region: 0 Fabric, 1 Cluster, 2 Device. -/
def rgnType (r : Nat) : Nat := bits r 5 4
/-- Key that tags must equal, none without TAG_CHECK. -/
def rgnKey (r : Nat) : Option Nat := if bit r 7 then some (bits r 11 8) else none
/-- Range of a region: start and length. -/
def rgnRange (r : Nat) : Nat × Nat := (r / 2 ^ 64, 2 ^ bits r 17 12)

/-- A region that R374 accepts; `core` for a core unit. -/
def regionOk (core : Bool) (r : Nat) : Bool :=
  if bit r 0 then
    decide (12 ≤ bits r 17 12) && decide (bits r 17 12 ≤ 45) && (r / 2 ^ 64) % 2 ^ bits r 17 12 == 0
      && !(bit r 7 && bits r 11 8 == 15) && bits r 63 18 == 0 && rgnType r ≠ 3
      && (core || (!rgnExec r && rgnType r == 0 && !bit r 6))
  else r == 0

/-! ### Values -/

/-- The value lies in the object's Range column. -/
def OdCheck.holds (c : OdCheck) (bytes v : Nat) : Bool :=
  match c with
  | .any => true
  | .bits _ => true
  | .rng lo hi => decide (lo ≤ v) && decide (v ≤ hi)
  | .srng neg hi => decide (-(neg : Int) ≤ ofSigned (8 * bytes) v) && decide (ofSigned (8 * bytes) v ≤ (hi : Int))
  | .oneOf l => l.contains v
  | .mult unit top => v % unit == 0 && decide (v ≤ top)
  | .rngOr hi also => decide (v ≤ hi) || v == also
  | .nibbles n lo hi => (List.range n).all (fun i => decide (lo ≤ v / 16 ^ i % 16) && decide (v / 16 ^ i % 16 ≤ hi))
  | .region => regionOk false v

/-- No reserved bit is set. -/
def OdCheck.clean (c : OdCheck) (v : Nat) : Bool :=
  match c with
  | .bits m => Nat.lor v m == m
  | .region => v / 2 ^ 18 % 2 ^ 46 == 0
  | _ => true

/-- The length suits the type: exactly its size, a string may be shorter (R474, R501). -/
def OdType.lengthOk (t : OdType) (len : Nat) : Bool :=
  match t with
  | .string n => decide (1 ≤ len) && decide (len ≤ n)
  | t => len == t.bytes

/-- Checks 5 to 7 of R481; a BOOL other than 0x00 and 0x01 is out of range. -/
def OdRow.late (r : OdRow) (len v : Nat) : Option OdAns :=
  if !r.type.lengthOk len then some (odNo 0x0301)
  else if !r.check.clean v then some (odNo 0x0303)
  else if !r.check.holds r.type.bytes v || (r.type == OdType.bool && 1 < v) then some (odNo 0x0302)
  else none

/-- A write of a WO object or of an event's register needs the die that holds it (R484); RW and RWS values are held by
the island. -/
def State.writeReach (s : State) (r : OdRow) (key : Nat) : Bool :=
  if r.access = .wo || r.home = .event then s.reachable r key else true

/-- Stage an RWS write into the draft, which the first such write opens (R492). -/
def State.stage (s : State) (sid key v : Nat) : OdAns × State :=
  if s.o K.DRAFT_STATE == 1 && s.o K.DRAFT_OWNER ≠ sid then (odNo 0x0603, s)
  else
    let base := if s.o K.DRAFT_STATE == 1 then s.gen.draft
      else if s.gen.commitDue then s.gen.committed else s.gen.active
    let staged := if s.gen.staged.contains key then s.gen.staged else key :: s.gen.staged
    let g : Gen := { s.gen with draft := KMap.set (odDefault key) base key v, staged := staged, draftAt := s.now }
    (odOk, ((({ s with gen := g } : State).setO K.DRAFT_STATE 1).setO K.DRAFT_OWNER sid).setO K.DRAFT_CHANGES
      (staged.length % 65536))

/-- The whole chain of R481 for a write, ending in the object's own rule; an RWS object is staged. -/
def State.odWrite (s : State) (sid key len v : Nat) (own : State → OdAns × State) : OdAns × State :=
  match s.writeEarly sid key v with
  | .inl a => (a, s)
  | .inr r =>
    match r.late len v with
    | some a => (a, s)
    | none =>
      if r.home = .event && blockReserved (evtOfKey key) then (odNo 0x0302, s)
      else if !s.writeReach r key then (odNo 0x0503, s)
      else if r.access = .rws then s.stage sid key v
      else own s

/-- An object write as one command: its session is found or opened, the chain is run, and the answer leaves. -/
def State.odCommand (s : State) (sid key len v : Nat) (own : State → OdAns × State) : State :=
  match s.sessionFor sid with
  | .silent => s
  | .busy => s.answerOd sid (odNo 0x0502)
  | .ready s =>
    let r := s.odWrite sid key len v own
    r.2.answerOd sid r.1

/-- The object's own rule of a plain RW object: it takes effect when written (R9, R492). -/
def State.ownPlain (s : State) (key v : Nat) : OdAns × State := (odOk, s.setO key v)

/-! ### Event objects -/

/-- EVT_ACK (R452): a write of the object. -/
def execEvtAck (sess : SessRef) (n : EventIx) (v : Byte) (s : State) : Host.Outcome State Fault Refusal :=
  .next (s.odCommand sess (K.EVT_ACK n) 1 v.toNat (ownEvtAck n))

/-- EVT_CLEAR (R450): a write of the object. -/
def execEvtClear (sess : SessRef) (n : EventIx) (v : Byte) (s : State) : Host.Outcome State Fault Refusal :=
  .next (s.odCommand sess (K.EVT_CLEAR n) 1 v.toNat (ownEvtClear n))

/-- SAFE_EXIT (R455): a write of the object. -/
def execSafeExit (sess : SessRef) (v : Byte) (s : State) : Host.Outcome State Fault Refusal :=
  .next (s.odCommand sess K.SAFE_EXIT 1 v.toNat ownSafeExit)

end Sys2Proof.Machine
end

