-- ==== Sys2Proof/Machine/Broadcast.lean ====
section
/-!
DEFINITION. Trigger, time and power-warning broadcasts: waiting places, tile broadcast slots (R74, R78, R178).
-/
namespace Sys2Proof.Machine

/-- Ports of tile t that a broadcast addresses: code 1 trigger, 2 time, 3 power warning (R74). -/
def State.bcastPorts (s : State) (t code : Nat) : List Nat :=
  ((List.range 24).map (· + 24 * t)).filter (fun p =>
    s.linkUp p &&
      (if code == 3 then s.o (K.ROLE p) == 1
       else if code == 2 then (if p < 64 then bit (s.c K.TIME_MSG_PORTS_LO) p else bit (s.c K.TIME_MSG_PORTS_HI) (p - 64))
       else s.o (K.ROLE p) ≠ 0))

/-- A free broadcast slot of tile t. -/
def State.freeBslot (s : State) (t : Nat) : Option Nat :=
  (List.range 16).find? (fun i => KMap.get none s.pl.bslot (t * 16 + i) = none)

/-- A copy lands in tile t: with no port addressed it is released in the same cycle (R74). -/
def State.landBcast (s : State) (t : Nat) (m : Bcast) : State :=
  let ports := s.bcastPorts t m.code
  if ports.isEmpty then s
  else match s.freeBslot t with
    | none => s
    | some i =>
      { s with pl := { s.pl with bslot := KMap.set none s.pl.bslot (t * 16 + i) (some { msg := m, ports := ports, order := s.pl.bOrder }),
                                 bOrder := s.pl.bOrder + 1 } }

/-- Free broadcast slots of tile t. -/
def State.freeSlots (s : State) (t : Nat) : Nat :=
  ((List.range 16).filter (fun i => decide (KMap.get none s.pl.bslot (t * 16 + i) = none))).length

/-- Tile t can take a copy now: its timing strand is up and the strand has a broadcast credit (R321). -/
def State.tileTakesBcast (s : State) (t : Nat) : Bool :=
  (s.strandOf t 1 8).status == 2 && decide (timingWaits (s.timing t 1) 32 < s.freeSlots t)

/-- Broadcasts go ahead of every SYS flit that waits (R326). -/
def pushBcast (m : Bcast) : List FlitBody → List FlitBody
  | .bcast a :: l => .bcast a :: pushBcast m l
  | l => .bcast m :: l

/-- Send one waiting message toward the tiles that can take it; the tiles still to take it. A tile held in reset has no
port to address. -/
def State.sendBcast (s : State) (ts : List Nat) (m : Bcast) : List Nat × State :=
  ts.foldl (fun (acc : List Nat × State) t =>
    if acc.2.tileHeld t then acc
    else if acc.2.tileTakesBcast t then (acc.1, acc.2.updTiming t 1 (fun x => { x with ready := pushBcast m x.ready }))
    else (acc.1 ++ [t], acc.2)) ([], s)

/-- Send the messages of a waiting list, oldest first; a message keeps its place until every tile has taken it. -/
def drainList (s : State) : List (List Nat × Bcast) → List (List Nat × Bcast) × State
  | [] => ([], s)
  | (ts, m) :: rest =>
    let r := s.sendBcast ts m
    let q := drainList r.2 rest
    (if r.1.isEmpty then q.1 else (r.1, m) :: q.1, q.2)

/-- Send what waits: power warnings first, then the 64 places in order. -/
def State.drainBcast (s : State) : State :=
  let a := drainList s s.tm.warnWait
  let b := drainList a.2 a.2.tm.waiting
  { b.2 with tm := { b.2.tm with warnWait := a.1, waiting := b.1 } }

/-- The hatband has a place for another trigger or time message (R178). -/
def State.bcastRoom (s : State) : Bool := decide (s.tm.waiting.length < 64)

/-- Queue a trigger or time message for every tile and send what can be sent. -/
def State.broadcast (s : State) (m : Bcast) : State :=
  ({ s with tm := { s.tm with waiting := s.tm.waiting ++ [([0, 1, 2, 3], m)] } } : State).drainBcast

end Sys2Proof.Machine
end

