-- ==== Sys2Proof/Machine/Supply.lean ====
section
/-!
DEFINITION. The island's supply: the ORing of VBUS, the core rails over PMBus, and temperatures (R403-R408, R434,
R563, R564).
-/
namespace Sys2Proof.Machine

/-- Records of the island carry its master (R448). -/
def island : Src := { master := 0x90 }

/-! ### ORing (R403) -/

/-- Set the ORing FET of an input, A or B. -/
def State.setOring (s : State) (b : Bool) (x : OrFet) : State :=
  if b then { s with pw := { s.pw with inB := x } } else { s with pw := { s.pw with inA := x } }

/-- ORing FET of an input. -/
def State.oring (s : State) (b : Bool) : OrFet := if b then s.pw.inB else s.pw.inA

/-- VBUS_REVERSE_TURN_OFF (R403): VBUS_OR stands above the input. -/
def execVbusReverseTurnOff (b : Bool) (s : State) : Host.Outcome State Fault Refusal :=
  if s.oring b = .conducting then
    .next ((s.setOring b .offReverse).raise (602 + b2n b) 1 1 false island)
  else .next s

/-- VBUS_OVERVOLTAGE_OFF (R403): the input stood above 80.0 V for 1 µs. -/
def execVbusOvervoltageOff (b : Bool) (s : State) : Host.Outcome State Fault Refusal :=
  if s.oring b = .offOver then .next s
  else .next ((s.setOring b .offOver).raise (602 + b2n b) 1 2 false island)

/-- VBUS_ORING_ON (R403): the input has recovered. -/
def execVbusOringOn (b : Bool) (s : State) : Host.Outcome State Fault Refusal := .next (s.setOring b .conducting)

/-! ### Core rails (R405-R408) -/

/-- Rail r beside its objects. -/
def State.rail (s : State) (r : Nat) : Rail := KMap.get {} s.pw.rail r

/-- Update rail r. -/
def State.updRail (s : State) (r : Nat) (f : Rail → Rail) : State :=
  { s with pw := { s.pw with rail := KMap.upd {} s.pw.rail r f } }

/-- A PMBus transaction with the regulator of rail r: command code and its data (R405). -/
def State.pmbus (s : State) (r code v : Nat) : State :=
  let a := (s.rail r).addr
  s.emit .pmbus (if a == 0 then s.c (K.RAIL_ADDR r) else a) [code, v]

/-- Nominal voltage of rail r in mV (R406). -/
def railNominal : Nat → Nat
  | 0 => 750
  | 1 => 850
  | 2 => 800
  | _ => 1800

/-- Set voltage of rail r: nominal plus its trim (R405). -/
def State.railSet (s : State) (r : Nat) : Int := (railNominal r : Int) + (s.rail r).trim

/-- Rails that are commanded on, highest first. -/
def State.railsOn (s : State) : List Nat := [3, 2, 1, 0].filter (fun r => (s.rail r).on)

/-- Turn one rail off: OPERATION off (R408). A rail in fault reads fault until its next start. -/
def State.railOff (s : State) (r : Nat) : State :=
  let s := s.pmbus r 0x01 0
  let s := s.updRail r (fun x => { x with on := false, offAt := s.now })
  if s.o (K.RAIL_STATE r) == 3 then s else s.setO (K.RAIL_STATE r) 0

/-- Begin to turn the rails off in reverse order (R408): the last one at once, the others step by step. -/
def State.turnRailsOff (s : State) : State :=
  let s := match s.railsOn with
    | r :: _ => s.railOff r
    | [] => s
  ({ s with pw := { s.pw with turningOff := !s.railsOn.isEmpty, retryAt := none, dieRelAt := none } } : State).setO
    K.RAIL_SEQ_STATE 0

/-- Sequence the rails (R406): rails still on are turned off first. The sequencing takes the rail objects of the active generation
(R434). -/
def State.startRails (s : State) : State :=
  if s.pw.below33 || s.st.thermal || s.st.porHeld then s
  else
    let s := if s.railsOn.isEmpty then s else s.turnRailsOff
    let s := [0, 1, 2, 3].foldl (fun (s : State) r =>
      s.updRail r (fun x => { x with addr := s.c (K.RAIL_ADDR r), trim := ofSigned 32 (s.c (K.RAIL_TRIM_MV r)) })) s
    let s : State := { s with pw := { s.pw with retryMax := s.c K.RAIL_RETRY_MAX } }
    (s.setO K.RAIL_SEQ_STATE 1).setO K.START_PHASE 2

/-- Faults of the rails in the last 10 minutes (R407). -/
def State.recentRailFaults (s : State) : Nat :=
  ((List.range 4).map (fun r => ((s.rail r).faults.filter (fun t => s.now < t + 600 * 1000 * Config.ms)).length)).sum

/-- A rail fault (R407): recorded, hub warm reset, rails off, and a retry after 100 ms unless the retries are used up.
DEDUCED: the fatal class of code 0x02 holds the rails stopped, and brings no housekeeping reset. -/
def State.railFaultAct (s : State) (r status : Nat) : State :=
  let s := s.raise (605 + r) 2 1 true island
  let s := (s.incO (K.RAIL_FAULTS r)).setO (K.RAIL_STATUS r) (status % 65536)
  let s := (s.updRail r (fun x => { x with faults := s.now :: x.faults, nacks := 0 })).setO (K.RAIL_STATE r) 3
  let s := (s.pmbus r 0x03 0).hubReset 0x11 true
  let s := s.turnRailsOff
  if s.pw.retryMax ≤ s.recentRailFaults then
    (s.setO K.RAIL_SEQ_STATE 3).raiseCore (605 + r) 3 2 true island
  else { s with pw := { s.pw with retryAt := some (s.now + 100 * Config.ms) } }

/-- RAIL_START (R406): rail r is commanded on 0.5 ms after the rail before it is up. CAPABILITY and VOUT_MODE are read
once, ON_OFF_CONFIG is set, and VOUT_COMMAND carries the set voltage in mV. -/
def execRailStart (r : Fin 4) (s : State) : Host.Outcome State Fault Refusal :=
  if s.o K.RAIL_SEQ_STATE ≠ 1 || s.pw.turningOff || (s.rail r).on || !s.islandUp
      || !(r.val == 0 || s.o (K.RAIL_STATE (r - 1)) == 2) then .next s
  else
    let s := if r.val == 0 then s else s.advance ((s.rail (r - 1)).upAt + Config.ms / 2)
    let s := if (s.rail r).asked then s else (s.pmbus r 0x19 0).pmbus r 0x20 0
    let mv := s.railSet r
    let s := (((s.pmbus r 0x03 0).pmbus r 0x02 0).pmbus r 0x21 (toSigned 16 mv)).pmbus r 0x01 1
    let s := s.updRail r (fun x => { x with on := true, asked := true, startedAt := s.now })
    .next (s.setO (K.RAIL_STATE r) 1)

/-- RAIL_UP (R406): the rail has read within ±3 % for 100 µs. -/
def execRailUp (r : Fin 4) (s : State) : Host.Outcome State Fault Refusal :=
  if s.o (K.RAIL_STATE r) ≠ 1 || !(s.rail r).on then .next s
  else
    let s := ((s.updRail r (fun x => { x with upAt := s.now })).setO (K.RAIL_STATE r) 2).causeEnds (605 + r)
    if r.val == 3 then
      .next (({ s with pw := { s.pw with dieRelAt := some (s.now + Config.ms) } } : State).setO K.RAIL_SEQ_STATE 2)
    else .next s

/-- RAIL_START_TIMEOUT (R406): the rail is not up 20 ms after its OPERATION write. The STATUS_WORD that is recorded then
is not given: a free value. -/
def execRailStartTimeout (r : Fin 4) (s : State) : Host.Outcome State Fault Refusal :=
  if s.o (K.RAIL_STATE r) ≠ 1 || !(s.rail r).on then .next s
  else
    let s := s.advance ((s.rail r).startedAt + 20 * Config.ms)
    .next (s.freeNext.railFaultAct r s.freeVal)

/-- RAIL_FAULT (R407): a running rail faults. -/
def execRailFault (r : Fin 4) (status : BitVec 16) (s : State) : Host.Outcome State Fault Refusal :=
  if s.o (K.RAIL_STATE r) ≠ 2 then .next s else .next (s.railFaultAct r status.toNat)

/-- RAIL_OFF_STEP (R408): the next rail is turned off. -/
def execRailOffStep (r : Fin 4) (s : State) : Host.Outcome State Fault Refusal :=
  if !s.pw.turningOff || s.railsOn.head? ≠ some r.val then .next s
  else
    let s := s.railOff r
    .next { s with pw := { s.pw with turningOff := !s.railsOn.isEmpty } }

/-- RAIL_RETRY (R407): 100 ms after a rail fault. -/
def execRailRetry (s : State) : Host.Outcome State Fault Refusal :=
  match s.pw.retryAt with
  | none => .next s
  | some t =>
    let s := s.advance t
    let s := (s.hubCauseEnds 0x11)
    .next ({ s with pw := { s.pw with retryAt := none } } : State).startRails

/-- RAIL_RESTART's own rule (R407): it acts only while RAIL_SEQ_STATE is 3. -/
def ownRailRestart (s : State) : OdAns × State :=
  if s.o K.RAIL_SEQ_STATE == 3 then (odOk, (s.hubCauseEnds 0x11).startRails) else (odNo 0x0501, s)

/-- RAIL_RESTART (R407). -/
def execRailRestart (sess : SessRef) (v : Byte) (s : State) : Host.Outcome State Fault Refusal :=
  .next (s.odCommand sess K.RAIL_RESTART 1 v.toNat ownRailRestart)

/-- STATUS_WORD reports one of the bits of R407: VOUT 15, IOUT/POUT 14, OFF 6, TEMPERATURE 2, CML 1. PRESUMED: the bit
numbers of the PMBus standard. -/
def railStatusBad (status : Nat) : Bool := bit status 15 || bit status 14 || bit status 6 || bit status 2 || bit status 1

/-- PMBUS_POLL (R405): status and telemetry of rail r are read, or the regulator does not acknowledge. -/
def execPmbusPoll (r : Fin 4) (ack : Bool) (status : BitVec 16) (mv : Nat) (ma : Nat) (mc : Int) (s : State) :
    Host.Outcome State Fault Refusal :=
  if !s.islandServes then .next s
  else
    let s := s.pmbus r 0x79 0
    if !ack then
      let s := (s.raise 609 1 1 false island).updRail r (fun x => { x with nacks := x.nacks + 1 })
      if 3 ≤ (s.rail r).nacks && s.o (K.RAIL_STATE r) == 2 then .next (s.railFaultAct r status.toNat) else .next s
    else
      let s := s.updRail r (fun x => { x with nacks := 0 })
      let s := (((s.pmbus r 0x8B 0).pmbus r 0x8C 0).pmbus r 0x8D 0)
      let s := ((s.setO (K.RAIL_VOUT_MV r) (mv % 2 ^ 32)).setO (K.RAIL_IOUT_MA r) (ma % 2 ^ 32)).setO (K.RAIL_TEMP_MC r)
        (toSigned 32 mc)
      if s.o (K.RAIL_STATE r) == 2 && railStatusBad status.toNat then .next (s.railFaultAct r status.toNat) else .next s

/-! ### Levels of VBUS_OR (R404) -/

/-- VBUS_BELOW_33 (R404): hub warm reset, and the rails go off. -/
def execVbusBelow33 (s : State) : Host.Outcome State Fault Refusal :=
  if s.st.porHeld || s.pw.below33 then .next s
  else
    let s := ({ s with pw := { s.pw with below33 := true } } : State).raise 604 2 3 false island
    .next (s.hubReset 0x10 true).turnRailsOff

/-- VBUS_RECOVER_36 (R404): the rails are sequenced again and the reset's cause has ended. -/
def execVbusRecover36 (s : State) : Host.Outcome State Fault Refusal :=
  if !s.pw.below33 then .next s
  else .next ((({ s with pw := { s.pw with below33 := false } } : State).hubCauseEnds 0x10).startRails)

/-- VBUS_BELOW_31 (R404): power-on reset is asserted. -/
def execVbusBelow31 (s : State) : Host.Outcome State Fault Refusal :=
  if s.st.porHeld then .next s else .next s.porReset

/-! ### Temperatures (R563) -/

/-- Object of die k's junction temperature: hub, T0-T3, SPC0, SPC1. -/
def tjKey (k : Nat) : Nat := K.TJ_HUB + k

/-- Highest of a list of temperatures. -/
def hottest (mc : List Int) : Int := mc.foldl max (-273150)

/-- TEMPERATURE_POLL (R563, R564): the seven sensors are read. -/
def execTemperaturePoll (mc : List Int) (s : State) : Host.Outcome State Fault Refusal :=
  if !s.islandServes || mc.isEmpty then .next s
  else
    let mc := mc.take 7
    let s := (List.range mc.length).foldl (fun s k => s.setO (tjKey k) (toSigned 32 (mc.getD k 0))) s
    let top := hottest mc
    let s := if ofSigned 32 (s.o K.TJ_PEAK) < top then s.setO K.TJ_PEAK (toSigned 32 top) else s
    let lim : Int := (s.c K.TJ_WARN : Int)
    if !s.st.warnTemp && lim < top then
      .next (({ s with st := { s.st with warnTemp := true } } : State).raise 617 0 1 false island)
    else if s.st.warnTemp && top + 2000 ≤ lim then
      .next (({ s with st := { s.st with warnTemp := false } } : State).raise 617 0 2 false island)
    else .next s

/-- THERMAL_SHUTDOWN (R563): hub or a tile at 135 °C for 10 µs. -/
def execThermalShutdown (s : State) : Host.Outcome State Fault Refusal :=
  if s.st.thermal || !s.islandUp then .next s
  else
    let s := (({ s with st := { s.st with thermal := true } } : State).incO K.THERM_SHUTDOWNS).raise 618 2 1 false island
    .next (s.hubReset 0x06 true).turnRailsOff

/-- THERMAL_RECOVERY (R563): every hub and tile sensor has been below 110 °C for 1 s; start-up runs from step 5. -/
def execThermalRecovery (s : State) : Host.Outcome State Fault Refusal :=
  if !s.st.thermal then .next s
  else .next ((({ s with st := { s.st with thermal := false } } : State).hubCauseEnds 0x06).startRails)

/-- COMPANION_OVER_TEMPERATURE (R563): every slot of the companion goes to OFF. -/
def execCompanionOverTemperature (b : Bool) (s : State) : Host.Outcome State Fault Refusal :=
  let s := (List.range 12).foldl (fun s i => s.slotOff (12 * b2n b + i) 8) s
  .next { s with st := { s.st with hotSpc := KMap.set false s.st.hotSpc (b2n b) true } }

/-- COMPANION_TEMPERATURE_RECOVER (R563): on commands are allowed again. -/
def execCompanionTemperatureRecover (b : Bool) (s : State) : Host.Outcome State Fault Refusal :=
  .next { s with st := { s.st with hotSpc := KMap.set false s.st.hotSpc (b2n b) false } }

/-- SPC_OSCILLATOR_OUT_OF_RANGE (R442, R445): the lasting condition begins or ends. -/
def execSpcOscillatorOutOfRange (b : Bool) (bad : Bool) (s : State) : Host.Outcome State Fault Refusal :=
  if bad then .next (s.raise (612 + b2n b) 2 2 true { master := 0x91 + b2n b })
  else .next (s.causeEnds (612 + b2n b))

end Sys2Proof.Machine
end

