-- ==== Sys2Proof/Machine/Slots.lean ====
section
/-!
DEFINITION. The slots: on and off commands, ramp, limit, trips, watch, lockout, feeds (R409-R425, R430-R439).
-/
namespace Sys2Proof.Machine

/-- Master of slot n's companion (R448). -/
def spcOf (n : Nat) : Src := { master := if n < 12 then 0x91 else 0x92 }

/-! ### On and off -/

/-- Refuse a slot command: 0x0501 with its reason in CMD_REFUSAL (R436). -/
def State.slotRefuse (s : State) (n reason : Nat) : OdAns × State := (odNo 0x0501 reason, s.setO (K.CMD_REFUSAL n) reason)

/-- SLOT_CMD's own rule (R420, R436). -/
def ownSlotCmd (n v : Nat) (s : State) : OdAns × State :=
  let st := (s.slot n).state
  if (s.slotOwner n).isSome then s.slotRefuse n 1
  else if st = .lockout then s.slotRefuse n 2
  else if v == 0 then (odOk, s.slotOff n 0)
  else if st = .tripped then s.slotRefuse n 3
  else if !s.slotPresent n then s.slotRefuse n 4
  else if s.slotHot n then s.slotRefuse n 7
  else (odOk, s.slotOn n)

/-- SLOT_CMD_ON (R420): SLOT_CMD written 1. -/
def execSlotCmdOn (sess : SessRef) (n : SlotIx) (s : State) : Host.Outcome State Fault Refusal :=
  .next (s.odCommand sess (K.SLOT_CMD n) 1 1 (ownSlotCmd n 1))

/-- SLOT_CMD_OFF (R411): SLOT_CMD written 0. -/
def execSlotCmdOff (sess : SessRef) (n : SlotIx) (s : State) : Host.Outcome State Fault Refusal :=
  .next (s.odCommand sess (K.SLOT_CMD n) 1 0 (ownSlotCmd n 0))

/-- FORCE_OFF's own rule (R430). -/
def ownForceOff (n : Nat) (s : State) : OdAns × State := (odOk, s.forceOff n)

/-- FORCE_OFF (R430). -/
def execForceOff (sess : SessRef) (n : SlotIx) (v : Byte) (s : State) : Host.Outcome State Fault Refusal :=
  .next (s.odCommand sess (K.FORCE_OFF n) 1 v.toNat (ownForceOff n))

/-! ### Ramp -/

/-- Entry to RAMP (R411, R437). -/
def State.enterRamp (s : State) (n : Nat) : State :=
  s.updSlot n (fun x => { x with state := .ramp, onWaits := false, discharging := false, watch := false, tripCheck := 0,
                                 offAt := none, rampAt := s.now, enteredAt := s.now, rampLim := s.c (K.RAMP_TIMEOUT n) })

/-- RAMP_START (R412, R420): gate drive starts once the output, `mv`, is below 2.5 V. -/
def execRampStart (n : SlotIx) (mv : Nat) (s : State) : Host.Outcome State Fault Refusal :=
  let s := s.setO (K.V_OUT_MV n) (mv % 2 ^ 32)
  if (s.slot n).state = .off && (s.slot n).onWaits && mv < 2500 then .next (s.enterRamp n) else .next s

/-- PERST_DELAY of the port that names the slot; the object's default where none does. -/
def State.perstDelay (s : State) (n : Nat) : Nat :=
  match s.slotPort n with
  | some p => s.o (K.PERST_DELAY p)
  | none => 100

/-- GATE_FULLY_ON (R416, R417): PG_Nnn is asserted and the slot enters ON unless the fault timer runs. -/
def execGateFullyOn (n : SlotIx) (mv : Nat) (s : State) : Host.Outcome State Fault Refusal :=
  let s := s.setO (K.V_OUT_MV n) (mv % 2 ^ 32)
  let x := s.slot n
  if x.state = .ramp && !x.timerOn then
    .next (s.updSlot n (fun x => { x with state := .on, pg := true, enteredAt := s.now,
                                          perstAt := some (s.now + s.perstDelay n * Config.ms) }))
  else .next s

/-! ### Limit and trips -/

/-- The fault timer starts (R413). In the slot-controller cycle in which the gate was declared fully on, the fault wins: PG_Nnn is withheld
and the slot is in RAMP (R422). -/
def Slot.startTimer (x : Slot) (now : Nat) : Slot :=
  let x := if x.state = .on && decide (now < x.enteredAt + 50000) then { x with state := .ramp, pg := false, perstAt := none } else x
  { x with timerOn := true, timerAt := now }

/-- A published LIMIT_MA lies below the current: the fault timer starts in that cycle (R422, R437). -/
def State.limitPublished (s : State) (n : Nat) : State :=
  let x := s.slot n
  if (x.state = .ramp || x.state = .on) && !x.timerOn && decide (s.c (K.LIMIT_MA n) < s.o (K.I_OUT_MA n)) then
    s.updSlot n (fun x => x.startTimer s.now)
  else s

/-- CURRENT_LIMIT_ENTER (R413): the current exceeds LIMIT_MA, and the fault timer starts. -/
def execCurrentLimitEnter (n : SlotIx) (ma : Nat) (s : State) : Host.Outcome State Fault Refusal :=
  let s := s.setO (K.I_OUT_MA n) (ma % 2 ^ 32)
  let x := s.slot n
  if (x.state = .ramp || x.state = .on) && !x.timerOn && s.c (K.LIMIT_MA n) < ma then
    .next (s.updSlot n (fun x => x.startTimer s.now))
  else .next s

/-- FAULT_TIMER_STOP (R413): the current has stayed below 0.95 × LIMIT_MA for 10 µs. -/
def execFaultTimerStop (n : SlotIx) (ma : Nat) (s : State) : Host.Outcome State Fault Refusal :=
  let s := s.setO (K.I_OUT_MA n) (ma % 2 ^ 32)
  if (s.slot n).timerOn && ma * 100 < s.c (K.LIMIT_MA n) * 95 then
    .next (s.updSlot n (fun x => { x with timerOn := false }))
  else .next s

/-- What every trip records: the event, TRIPS, LAST_CAUSE, and the check that follows it (R418, R433). -/
def State.tripRecord (s : State) (n cause : Nat) : State :=
  let s := (s.updSlot n (fun x => { x with tripCheck := cause, tripSeen := true, tripAt := s.now })).raise (456 + 3 * n) 2 cause false (spcOf n)
  (s.incO (K.TRIPS n)).setO (K.LAST_CAUSE n) cause

/-- The slot trips (R411, R413, R414): into TRIPPED from RAMP or ON; in the 50 ns cycle of an off command the trip is
recorded, the slot stays OFF, and the off counts as the clearing write (R422). -/
def State.trip (s : State) (n cause : Nat) : State :=
  let x := s.slot n
  if x.state = .ramp || x.state = .on then
    let s := s.updSlot n (fun x => { x.gateOff .tripped s.now with cmdOn := false })
    ((s.tripRecord n cause).powerFault n).powerNext n
  else if x.state = .off && (match x.offAt with | some t => decide (s.now < t + 50000) | none => false) then
    let s := (s.tripRecord n cause).clearTrip n
    (s.powerFault n).updSlot n (fun x => { x with offAt := none, hostLatch := false })
  else s

/-- FAULT_TIMER_EXPIRY (R413): the fault timer reaches FAULT_TIME. -/
def execFaultTimerExpiry (n : SlotIx) (s : State) : Host.Outcome State Fault Refusal :=
  let x := s.slot n
  if x.timerOn then .next ((s.advance (x.timerAt + s.c (K.FAULT_TIME n) * Config.us)).trip n 1)
  else if x.state = .off then .next (s.trip n 1)
  else .next s

/-- FAST_TRIP (R414): the current crosses 2.5 × LIMIT_MA. -/
def execFastTrip (n : SlotIx) (s : State) : Host.Outcome State Fault Refusal := .next (s.trip n 2)

/-- RAMP_TIMEOUT (R411): the ramp has lasted too long. -/
def execRampTimeout (n : SlotIx) (s : State) : Host.Outcome State Fault Refusal :=
  let x := s.slot n
  if x.state = .ramp then .next ((s.advance (x.rampAt + x.rampLim * Config.ms)).trip n 3) else .next s

/-- Entry to LOCKOUT (R411, R418, R419, R421): both feed paths off, the record kept in flash. -/
def State.lockout (s : State) (n cause : Nat) : State :=
  let s := s.updSlot n (fun x => { x.gateOff .lockout s.now with cmdOn := false, feedA := false, feedB := false,
                                                                  lockRec := true, selftest := .none, tripCheck := 0 })
  (((s.raise (457 + 3 * n) 3 cause false (spcOf n)).setO (K.LAST_CAUSE n) cause).powerFault n).powerNext n

/-- TRIP_FAILURE (R418): the current persists after a trip. -/
def execTripFailure (n : SlotIx) (s : State) : Host.Outcome State Fault Refusal :=
  let x := s.slot n
  if x.tripCheck ≠ 0 && (x.state = .tripped || x.state = .off) then .next (s.lockout n 7) else .next s

/-- PASS_FET_WATCH_FIRE (R419): the output stays above 2.5 V while the slot is off. -/
def execPassFetWatchFire (n : SlotIx) (s : State) : Host.Outcome State Fault Refusal :=
  let x := s.slot n
  if x.watch && (x.state = .off || x.state = .tripped || x.state = .supplyWait) then .next (s.lockout n 6) else .next s

/-- DISCHARGE_END (R410, R419): DSCHG_TIME after the gate was turned off, the discharge FET turns off and the watch
runs. -/
def execDischargeEnd (n : SlotIx) (s : State) : Host.Outcome State Fault Refusal :=
  let x := s.slot n
  if x.discharging && x.state ≠ .lockout then
    .next ((s.advance (x.enteredAt + s.c (K.DSCHG_TIME n) * Config.ms)).updSlot n
      (fun x => { x with discharging := false, watch := true }))
  else .next s

/-! ### Supply of a slot -/

/-- SUPPLY_OUT_OF_RANGE (R411): the node is below UV_OFF or above 78 V. -/
def execSupplyOutOfRange (n : SlotIx) (high : Bool) (s : State) : Host.Outcome State Fault Refusal :=
  let x := s.slot n
  if x.state = .ramp || x.state = .on then
    let s := s.updSlot n (fun x => x.gateOff .supplyWait s.now)
    .next (((s.raise (458 + 3 * n) 1 0x14 false (spcOf n)).setO (K.LAST_CAUSE n) (if high then 5 else 4)).powerNext n)
  else .next s

/-- SUPPLY_RETURN (R411): the node has been in range for 10 ms with CMD_ON set. -/
def execSupplyReturn (n : SlotIx) (s : State) : Host.Outcome State Fault Refusal :=
  let x := s.slot n
  if x.state = .supplyWait && x.cmdOn then .next (s.enterRamp n) else .next s

/-- FEED_SWITCHOVER (R409): path B or A turns off for reverse current, the other carries the slot. -/
def execFeedSwitchover (n : SlotIx) (b : Bool) (s : State) : Host.Outcome State Fault Refusal :=
  if (s.slot n).state = .lockout then .next s
  else .next ((s.updSlot n (fun x => { x with feedA := b, feedB := !b })).incO (K.SWITCHOVERS n))

/-- REDUNDANCY_LOST (R425): one feed has stayed below 36.0 V for 1 ms while the other is good. -/
def execRedundancyLost (n : SlotIx) (b : Bool) (s : State) : Host.Outcome State Fault Refusal :=
  if (s.slot n).redLost then .next s
  else
    let s := s.updSlot n (fun x => { x with redLost := true, feedAGood := b, feedBGood := !b })
    .next (s.raise (458 + 3 * n) 1 0x12 false (spcOf n))

/-- REDUNDANCY_REGAINED (R425): both feeds have stood at 36.0 V for 1 ms. -/
def execRedundancyRegained (n : SlotIx) (s : State) : Host.Outcome State Fault Refusal :=
  if !(s.slot n).redLost then .next s
  else
    let s := s.updSlot n (fun x => { x with redLost := false, feedAGood := true, feedBGood := true })
    .next (s.raise (458 + 3 * n) 1 0x13 false (spcOf n))

/-! ### Lockout (R421) -/

/-- CHAN_RESET's own rule (R421, R432, R436). -/
def ownChanReset (n : Nat) (s : State) : OdAns × State :=
  match (s.slot n).state with
  | .ramp | .on | .supplyWait => s.slotRefuse n 5
  | _ => (odOk, s.updSlot n (fun x => { x with selftest := .running }))

/-- CHAN_RESET (R421). -/
def execChanReset (sess : SessRef) (n : SlotIx) (v : Byte) (s : State) : Host.Outcome State Fault Refusal :=
  .next (s.odCommand sess (K.CHAN_RESET n) 1 v.toNat (ownChanReset n))

/-- CHANNEL_SELFTEST_DONE (R421): the running self-test reports. -/
def execChannelSelftestDone (n : SlotIx) (pass : Bool) (s : State) : Host.Outcome State Fault Refusal :=
  if (s.slot n).selftest = .running then
    .next (s.updSlot n (fun x => { x with selftest := if pass then .passed else .failed }))
  else .next s

/-- LOCKOUT_CLEAR's own rule (R421, R436): the slot enters OFF with its feed paths back, the watch runs at once, and the
pass-FET fault's class is left. -/
def ownLockoutClear (n : Nat) (s : State) : OdAns × State :=
  let x := s.slot n
  if x.state ≠ .lockout || x.selftest ≠ .passed then s.slotRefuse n 6
  else
    let s := s.updSlot n (fun x => { x with state := .off, feedA := x.feedAGood, feedB := x.feedBGood, lockRec := false,
                                            watch := true, discharging := true, enteredAt := s.now, selftest := .none })
    (odOk, s.setBlk (457 + 3 * n) ((s.blk (457 + 3 * n)).leave s.now))

/-- LOCKOUT_CLEAR (R421). -/
def execLockoutClear (sess : SessRef) (n : SlotIx) (v : Byte) (s : State) : Host.Outcome State Fault Refusal :=
  .next (s.odCommand sess (K.LOCKOUT_CLEAR n) 1 v.toNat (ownLockoutClear n))

/-! ### Presence and AUTO_ON -/

/-- AUTO_ON of a slot is decided once, when presence is known and the island runs (R432). -/
def State.autoOn (s : State) (n : Nat) : State :=
  let x := s.slot n
  if x.autoDue && x.prsntKnown && s.islandServes then
    let s := s.updSlot n (fun x => { x with autoDue := false })
    if s.cB (K.AUTO_ON n) && x.prsnt && s.lcState ≠ 4 && !s.slotHot n then s.slotOn n else s
  else s

/-- PRSNT_DEBOUNCE of the port that names the slot, in ps; the object's default where none does. -/
def State.debounce (s : State) (n : Nat) : Nat :=
  (match s.slotPort n with | some p => s.o (K.PRSNT_DEBOUNCE p) | none => 1000) * Config.us

/-- PRESENCE_CHANGE (R258, R262, R432): PRSNT_Nnn, at its level since `at_`, has held it for PRSNT_DEBOUNCE. With presence lost, the
port goes down by surprise and the slot is commanded off, whoever owns it. -/
def execPresenceChange (n : SlotIx) (edge : PresenceEdge) (s : State) : Host.Outcome State Fault Refusal :=
  let s := s.advance (edge.at_ + s.debounce n)
  let x := s.slot n
  if x.prsntKnown && x.prsnt == edge.present then .next s
  else
    let s := s.updSlot n (fun x => { x with prsntKnown := true, prsnt := edge.present })
    let s := match s.slotPort n with
      | none => s
      | some p => (s.boundIn p).foldl (fun (s : State) (nv : Nat × Nat) =>
          s.updVppb nv.1 nv.2 (fun v => { v with status := setBit v.status 6 edge.present })) s
    let s := if x.prsntKnown || edge.present then s.slotStatus n 3 else s
    if edge.present then .next (s.autoOn n)
    else if x.state = .ramp || x.state = .on || x.state = .supplyWait then
      let s := match s.slotPort n with
        | some p => s.portDown p .surprise
        | none => s
      .next ((s.slotOff n 9).powerNext n)
    else .next ((s.updSlot n (fun x => { x with onWaits := false, cmdOn := false })).autoOn n)

/-! ### Status words (R435, R439) -/

/-- SLOT_FLAGS (R435). -/
def State.slotFlags (s : State) (n : Nat) : Nat :=
  let x := s.slot n
  b2n x.pg + b2n x.warn * 2 + b2n x.timerOn * 4 + b2n x.feedA * 8 + b2n x.feedB * 16 + b2n x.feedAGood * 32
    + b2n x.feedBGood * 64 + b2n (x.prsntKnown && x.prsnt) * 128 + b2n x.discharging * 256
    + b2n (x.selftest = .passed) * 512 + b2n (s.slotOwner n).isSome * 1024 + b2n x.cmdOn * 2048
    + b2n (x.selftest = .failed) * 4096

/-- SPC_SLOTnn_STAT (R439). -/
def State.spcStat (s : State) (n : Nat) : Nat :=
  let x := s.slot n
  x.state.num + b2n x.pg * 8 + b2n x.warn * 16 + b2n x.timerOn * 32 + b2n x.feedA * 64 + b2n x.feedB * 128
    + b2n (x.prsntKnown && x.prsnt) * 256 + s.o (K.LAST_CAUSE n) * 65536 + b2n x.tripSeen * 2 ^ 24 + b2n x.warnSeen * 2 ^ 25
    + b2n (x.state = .lockout) * 2 ^ 26

/-- A write of SPC_SLOTnn_STAT: TRIP_SEEN and WARN_SEEN are W1C (R439, R7). -/
def State.spcStatWrite (s : State) (n v : Nat) : State :=
  s.updSlot n (fun x => { x with
    tripSeen := x.tripSeen && (!bit v 24 || sameCycle x.tripAt s.now),
    warnSeen := x.warnSeen && (!bit v 25 || sameCycle x.warnAt s.now) })

end Sys2Proof.Machine
end

