-- ==== Sys2Proof/Machine/Firmware.lean ====
section
/-!
DEFINITION. Images, staging, installation, probation and fallback (R524-R537, R546).
-/
namespace Sys2Proof.Machine

/-! ### Parts and images -/

/-- Part k. -/
def State.part (s : State) (k : Nat) : Part := KMap.get {} s.life.parts k

/-- Update part k. -/
def State.updPart (s : State) (k : Nat) (f : Part → Part) : State :=
  { s with life := { s.life with parts := KMap.upd {} s.life.parts k f } }

/-- SV_FUSE of part k. -/
def State.svFuse (s : State) (k : Nat) : Nat := KMap.get 0 s.life.fuses.sv k

/-- The image in applet slot a. -/
def State.applet (s : State) (a : Nat) : Option Image := KMap.get none s.life.applets a

/-- APPLET_STATE of slot a. -/
def State.appletState (s : State) (a : Nat) : Nat := KMap.get 0 s.life.appState a

/-- Put an image and a state into applet slot a. -/
def State.setApplet (s : State) (a : Nat) (i : Option Image) (st : Nat) : State :=
  { s with life := { s.life with applets := KMap.set none s.life.applets a i, appState := KMap.set 0 s.life.appState a st } }

/-- The image may run: its bank verifies, the state is in LC_MASK, and its security version is not below the fuses
(R527, R528, R536). -/
def State.mayRun (s : State) (k : Nat) (i : Image) : Bool :=
  i.good && bit i.lcMask s.lcState && decide (s.svFuse k ≤ i.sv) && (i.serialBind == 0 || i.serialBind == s.life.fuses.serial)

/-- Interfaces and the two parts that speak each (R526). -/
def interfaces : List (Nat × Nat × Nat) :=
  [(0, 1, 2), (1, 2, 3), (2, 2, 5), (3, 3, 4), (4, 3, 5), (5, 4, 5), (6, 5, 6), (7, 4, 7)]

/-- Part k speaks interface j. -/
def speaks (k j : Nat) : Bool := interfaces.any (fun e => e.1 == j && (e.2.1 == k || e.2.2 == k))

/-- An image's own COMPAT suits R526: 1 ≤ LO ≤ HI on its interfaces, zero on the others. -/
def Image.compatOk (i : Image) : Bool :=
  (List.range 8).all (fun j =>
    let r := i.compat.getD j (0, 0)
    if speaks i.part j then decide (1 ≤ r.1) && decide (r.1 ≤ r.2) else r.1 == 0 && r.2 == 0)

/-- Two images overlap on interface j. -/
def overlap (a b : Image) (j : Nat) : Bool :=
  let x := a.compat.getD j (0, 0)
  let y := b.compat.getD j (0, 0)
  decide (max x.1 y.1 ≤ min x.2 y.2)

/-- A set of running images, with the loaded applets, is compatible (R526). -/
def compatibleSet (img : Nat → Option Image) (applets : List Image) : Bool :=
  interfaces.all (fun e =>
    if e.1 == 7 then
      match img 4 with
      | none => true
      | some a => applets.all (fun b => overlap a b 7)
    else match img e.2.1, img e.2.2 with
      | some a, some b => overlap a b e.1
      | _, _ => true)

/-! ### Staging (R524, R527, R530) -/

/-- Payload limit of a part (R525). -/
def payloadLimit : Nat → Nat
  | 1 => 1048576
  | 2 => 2097152
  | 3 => 2097152
  | 4 => 4194304
  | 5 => 2097152
  | 6 => 65536
  | 7 => 1048576
  | _ => 64

/-- A byte is printable ASCII, or zero as padding of a STRING. -/
def printable (b : Byte) : Bool := b == 0 || (decide (0x20 ≤ b.toNat) && decide (b.toNat ≤ 0x7E))

/-- COMPAT of a header: pairs of LO and HI. -/
def headerCompat (h : List Byte) : List (Nat × Nat) :=
  (List.range 8).map (fun j => (leAt h (64 + 2 * j) 1, leAt h (65 + 2 * j) 1))

/-- The image that a header describes, with its payload's bytes for a ROOTKEY image. -/
def parseImage (h payload : List Byte) : Image :=
  { part := leAt h 6 1, version := leAt h 8 4, sv := leAt h 12 2, lcMask := leAt h 14 1, probationMs := leAt h 20 4,
    serialBind := leAt h 24 8, compat := headerCompat h, hdrHash := (Config.sha256 (h.take 512)).toNat,
    hdr := if leAt h 6 1 == 7 then leNat (h.take 512) else 0,
    payload := if leAt h 6 1 == 8 then leNat (payload.take 64) else 0, good := true }

/-- Someone is busy with firmware: an installation runs, or a part is on probation. -/
def State.installing (s : State) : Bool := s.life.swapping.isSome || !s.life.toInstall.isEmpty
def State.onProbation (s : State) (k : Nat) : Bool := (s.part k).probEnd.isSome
def State.anyProbation (s : State) : Bool := (List.range 9).any s.onProbation

/-- A free applet slot, lowest first (R530). -/
def State.freeApplet (s : State) : Option Nat := (List.range 8).find? (fun a => s.appletState a == 0)

/-- The header's reserved fields are zero (R524). -/
def headerReservedOk (h : List Byte) : Bool :=
  leAt h 14 1 < 32 && zeroAt h 15 1 && zeroAt h 84 44 && zeroAt h 220 292 && (bytesAt h 188 32).all printable

/-- The header's checks, in the order of the reasons of R527; `total` is the blob's TOTAL. -/
def State.headerReason (s : State) (h : List Byte) (total : Nat) : Nat :=
  let i := parseImage h []
  let signer := leAt h 7 1
  let size := leAt h 16 4
  if bytesAt h 0 4 ≠ [0x4B, 0x48, 0x49, 0x4D] || leAt h 4 2 ≠ 1 then 1
  else if !headerReservedOk h then 2
  else if i.part == 0 || 8 < i.part || (s.st.recovery && i.part ≠ 5)
      || !(signer == 0 || (signer == 1 && i.part ≠ 8) || (signer == 2 && i.part == 7)) then 3
  else if i.part ≠ 8 && (size == 0 || size % 64 ≠ 0 || payloadLimit i.part < size) then 4
  else if total ≠ 3476 + size || leAt h 80 4 ≠ 2964 then 4
  else if !bit i.lcMask s.lcState || !(i.serialBind == 0 || i.serialBind == s.life.fuses.serial) then 7
  else if 32 < i.sv || (7 ≤ i.part && i.sv ≠ 0) || i.sv < s.svFuse i.part then 8
  else if !i.compatOk then 9
  else if s.installing || s.onProbation i.part || (i.part == 7 && s.onProbation 4) then 10
  else if (if 7 ≤ i.part then i.probationMs ≠ 0 else i.probationMs < 1000 || 600000 < i.probationMs) then 11
  else if i.part == 7 && s.freeApplet.isNone then 12
  else if i.part == 8 && (s.life.fuses.vroot1.isSome || size ≠ 64) then 13
  else 0

/-- Hash fused for a signer: vendor slot 0 or 1, or the customer key; none where it cannot verify (R520). -/
def State.keyHash (s : State) (signer : Nat) : Option Nat :=
  if signer == 0 then (if s.life.fuses.revoked0 then none else s.life.fuses.vroot0)
  else if signer == 1 then s.life.fuses.vroot1
  else if s.custKeySet then some (s.o K.CUST_KEY_HASH) else none

/-- A signature verifies by R519 and R520. -/
def State.verifies (s : State) (signer : Nat) (msg pub sig : List Byte) : Bool :=
  match s.keyHash signer with
  | none => false
  | some h => pub.length == 60 && sig.length == 2964 && (Config.sha256 pub).toNat == h && Config.hssVerify msg pub sig

/-- The signature stage (R527): the header alone is signed. -/
def State.imageSigned (s : State) (d : List Byte) : Bool :=
  s.verifies (leAt d 7 1) (d.take 512) (bytesAt d 128 60) (bytesAt d 512 2964)

/-- FW_STATE moves only while no installation and no probation holds it. -/
def State.setFwState (s : State) (v : Nat) : State :=
  if s.installing || s.anyProbation then s else s.setO K.FW_STATE v

/-- An image is refused: reason, E616 code 0x02 (R527, R543). -/
def State.refuseImage (s : State) (reason : Nat) : State :=
  ((s.setO K.FW_RESULT reason).setFwState 6).raise 616 1 2 false island

/-- Checks on the whole blob of KIND 0; the first failing reason, 0 for none (R527). -/
def State.imageReason (s : State) (d : List Byte) (total : Nat) : Nat :=
  let r := s.headerReason d total
  if r ≠ 0 then r
  else if !s.imageSigned d then 5
  else
    let payload := d.drop 3476
    if (Config.sha256 payload).toNat ≠ leAt d 32 32 then 6
    else if leAt d 6 1 == 8 && !zeroAt payload 32 32 then 13
    else 0

/-- The bank that an image is written to loses what it held, once the image's header and signature have passed: it is
empty until the whole image has passed (R527). -/
def State.dropBank (s : State) (k : Nat) : State :=
  if 1 ≤ k && k ≤ 6 then s.updPart k (fun p => { p with other := none, staged := false })
  else if k == 8 then { s with life := { s.life with rootkey := none } }
  else s

/-- Stage a verified image (R530). -/
def State.stageImage (s : State) (d : List Byte) : State :=
  let i := parseImage d (d.drop 3476)
  let s := if i.part ≤ 6 then s.updPart i.part (fun p => { p with other := some i, staged := true })
    else if i.part == 7 then
      match s.freeApplet with
      | some a => s.setApplet a (some i) 1
      | none => s
    else { s with life := { s.life with rootkey := some i } }
  ((s.setO K.FW_RESULT 0).setFwState 0).raise 616 0 1 false island

/-! ### Installation (R531, R532) -/

/-- Parts in the order in which they install. -/
def installOrder : List Nat := [1, 2, 3, 4, 5, 6, 7]

/-- Something is staged for bit k − 1 of FW_INSTALL. -/
def State.stagedFor (s : State) (k : Nat) : Bool :=
  if k ≤ 6 then (s.part k).staged
  else if k == 7 then (List.range 8).any (fun a => s.appletState a == 1)
  else s.life.rootkey.isSome

/-- Images running now, as the compatibility check sees them. -/
def State.running (s : State) (k : Nat) : Option Image := (s.part k).active

/-- Loaded applets, in slot order. -/
def State.loadedApplets (s : State) : List Image :=
  ((List.range 8).filter (fun a => s.appletState a == 2)).filterMap s.applet

/-- Applets staged and named. -/
def State.stagedApplets (s : State) : List Image :=
  ((List.range 8).filter (fun a => s.appletState a == 1)).filterMap s.applet

/-- Every intermediate set is compatible as the named parts install in order (R531). -/
def State.chainOk (s : State) (named : List Nat) : Bool :=
  let rec go : List Nat → (Nat → Option Image) → Bool
    | [], _ => true
    | k :: ks, img =>
      if k == 7 then compatibleSet img (s.loadedApplets ++ s.stagedApplets) && go ks img
      else
        let img' := fun j => if j == k then (s.part k).other else img j
        compatibleSet img' s.loadedApplets && go ks img'
  go named s.running

/-- Every session closes, as the HK image swaps (R525). -/
def State.closeAll (s : State) : State := (s.mg.sess.map (·.1)).foldl State.closeSession s

/-- Nothing swaps any more. The tile processors that restarted go on (R525). -/
def State.swapEnds (s : State) : State :=
  let back := s.tilesRestart
  let s : State := { s with life := { s.life with swapping := none } }
  if back then s.tilesBack else s

/-- Start the next part of the installation, or finish it. The service cores are held from the start of their swap. -/
def State.installNext (s : State) : State :=
  match s.life.toInstall with
  | [] => (s.setO K.FW_STATE 5).setO K.FW_PART_NOW 0
  | k :: ks =>
    let s := { s with life := { s.life with toInstall := ks } }
    if k == 7 then
      let s := (List.range 8).foldl (fun (s : State) a => if s.appletState a == 1 then s.setApplet a (s.applet a) 2 else s) s
      let s := { s with life := { s.life with toInstall := [] } }
      ((s.setO K.FW_STATE 5).setO K.FW_PART_NOW 0).raise 616 0 4 false island
    else
      let s := { s with life := { s.life with swapping := some k, svcRestart := s.life.svcRestart || k == 4 } }
      let s := (s.setO K.FW_STATE 3).setO K.FW_PART_NOW k
      if k == 5 then s.closeAll else s

/-- Refuse FW_INSTALL: 0x0504 with the reason (R531). -/
def State.fwRefuse (s : State) (reason : Nat) : OdAns × State :=
  (odNo 0x0504 reason, s.setO K.FW_RESULT reason)

/-- FW_INSTALL's own rule (R531). The spec gives no reason for a bit with nothing staged: a free value. -/
def ownFwInstall (v : Nat) (s : State) : OdAns × State :=
  let named := (List.range 8).filterMap (fun i => if bit v i then some (i + 1) else none)
  if named.any (fun k => !s.stagedFor k) then s.freeNext.fwRefuse (s.freeVal % 256)
  else if s.installing || named.any s.onProbation || s.o K.GEN_STATE ≠ 0 then s.fwRefuse 10
  else if named.contains 8 && named ≠ [8] then s.fwRefuse 10
  else if named.contains 3 && ((List.range 16).any (fun w => s.o (K.STATE w) == 1 || s.o (K.STATE w) == 4 || s.o (K.FRZ_STATE w) == 2)
      || s.o K.DEPART_PENDING ≠ 0) then s.fwRefuse 10
  else if named.contains 6 && (List.range 24).any (fun n => (s.slot n).state = .ramp) then s.fwRefuse 10
  else if named == [8] then
    if s.life.fuses.vroot1.isSome then s.fwRefuse 13
    else (odOk, ((({ s with life := { s.life with swapping := some 8, installAt := s.now } } : State).setO K.FW_STATE 3).setO
      K.FW_PART_NOW 8).setO K.FW_RESULT 0)
  else if !s.chainOk named then s.fwRefuse 9
  else
    let s := { s with life := { s.life with toInstall := named, installAt := s.now } }
    (odOk, (s.setO K.FW_RESULT 0).installNext)

/-- FW_INSTALL (R531). -/
def execFwInstall (sess : SessRef) (v : Byte) (s : State) : Host.Outcome State Fault Refusal :=
  .next (s.odCommand sess K.FW_INSTALL 1 v.toNat (ownFwInstall v.toNat))

/-! ### Fallback (R533) -/

/-- Part k falls back to its previous image; the later parts of the installation are abandoned with their staged images
kept. A probationary HK image that the ROM started has no previous image: its fallback is recovery (R537). -/
def State.fallBack (s : State) (k : Nat) : State :=
  let p := s.part k
  let prev := match p.other with
    | some i => if !p.staged && s.mayRun k i then some i else none
    | none => none
  let s := s.updPart k (fun p => { p with active := prev, other := if p.staged then p.other else none, probEnd := none })
  let s := ({ s with life := { s.life with toInstall := [], svcRestart := s.life.svcRestart || k == 4 } } : State).swapEnds
  let s := ((s.setO K.FW_STATE 7).setO K.FW_PART_NOW 0).incO K.FW_FALLBACKS
  let s := (s.setO (K.PART_STATE k) 0).raise 616 2 5 false island
  match prev with
  | some _ => if k == 5 then s.closeAll else s
  | none =>
    let s := (s.setO (K.PART_STATE k) 2).raise 616 2 6 false island
    if k == 5 then
      let s := (List.range 24).foldl (fun (s : State) n => s.slotOff n 0) s
      (({ s with st := { s.st with recovery := true } } : State).setO K.START_PHASE 9).closeAll
    else s

/-- A part whose new image never started everywhere: the staged image is given up, the old one runs on. -/
def State.giveUpStaged (s : State) (k : Nat) : State :=
  (s.updPart k (fun p => { p with staged := false, other := p.active })).fallBack k

/-- PART_SWAP_COMPLETE (R532): the part being swapped runs its new image on probation. SERDES and TILE finish only when
every tile has swapped, so with every seam up (R535). Number 0 stands for part 8, the ROOTKEY image: its fuses read
back (R531). -/
def execPartSwapComplete (k : Fin 8) (ok : Bool) (s : State) : Host.Outcome State Fault Refusal :=
  let k := if k.val == 0 then 8 else k.val
  if s.life.swapping ≠ some k then .next s
  else if k == 8 then
    let s := s.swapEnds.setO K.FW_PART_NOW 0
    if ok then
      let hash := match s.life.rootkey with
        | some i => i.payload % 2 ^ 256
        | none => 0
      let s := { s with life := { s.life with rootkey := none, fuses := { s.life.fuses with vroot1 := some hash } } }
      .next ((s.setO K.FW_STATE 5).raise 616 0 4 false island)
    else .next ((s.setO K.FW_STATE 6).raise 616 2 6 false island)
  else if !ok then .next (s.giveUpStaged k)
  else if k ≤ 2 && (List.range 4).any (fun t => s.tileHeld t || !s.seamUp t) then .next s
  else
    let old := (s.part k).active
    let s := s.updPart k (fun p => { p with active := p.other, other := old, staged := false,
                                            probEnd := some (s.now + (p.other.getD {}).probationMs * Config.ms) })
    let s := s.swapEnds
    -- what the companions held, and the power commands that waited (R432, R525)
    let s := if k == 5 then (List.range 24).foldl (fun (s : State) n => s.powerNext n) s.giveRecords else s
    .next (((s.setO (K.PART_STATE k) 1).setO K.FW_STATE 4).raise 616 0 3 false island)

/-- Confirm the image of part k: the fuses follow its security version, and the next part starts (R528, R532). -/
def State.confirmPart (s : State) (k : Nat) : State :=
  let sv := ((s.part k).active.getD {}).sv
  let s := s.updPart k (fun p => { p with probEnd := none, confirmCt := s.ct })
  let f : Fuses := { s.life.fuses with sv := KMap.set 0 s.life.fuses.sv k (max (s.svFuse k) sv) }
  let s := { s with life := { s.life with fuses := f } }
  ((s.setO (K.PART_STATE k) 0).raise 616 0 4 false island).installNext

/-- IMAGE_HEALTH_REPORT (R532, R533): a report in the island cycle in which the window ends, or later, comes too late
(R535). -/
def execImageHealthReport (k : Fin 8) (healthy : Bool) (s : State) : Host.Outcome State Fault Refusal :=
  match (s.part k).probEnd with
  | none => .next s
  | some t => .next (if healthy && s.now < t then s.confirmPart k else s.fallBack k)

/-- PROBATION_EXPIRY (R533): the window ends unconfirmed. -/
def execProbationExpiry (k : Fin 8) (s : State) : Host.Outcome State Fault Refusal :=
  match (s.part k).probEnd with
  | none => .next s
  | some t => .next ((s.advance t).fallBack k)

/-- FW_REJECT's own rule (R533): the part on probation falls back. DEDUCED: with none on probation the state does not
permit the write. -/
def ownFwReject (s : State) : OdAns × State :=
  match (List.range 9).find? s.onProbation with
  | none => (odNo 0x0501, s)
  | some k => (odOk, s.fallBack k)

/-- FW_REJECT (R533). -/
def execFwReject (sess : SessRef) (v : Byte) (s : State) : Host.Outcome State Fault Refusal :=
  .next (s.odCommand sess K.FW_REJECT 1 v.toNat ownFwReject)

/-- FW_DISCARD's own rule (R546): the staged images named are discarded. -/
def ownFwDiscard (v : Nat) (s : State) : OdAns × State :=
  if s.installing then (odNo 0x0501, s)
  else
    let s := (List.range 6).foldl (fun (s : State) i =>
      if bit v i && (s.part (i + 1)).staged then s.updPart (i + 1) (fun p => { p with other := none, staged := false }) else s) s
    let s := if bit v 6 then (List.range 8).foldl (fun (s : State) a => if s.appletState a == 1 then s.setApplet a none 0 else s) s else s
    (odOk, if bit v 7 then { s with life := { s.life with rootkey := none } } else s)

/-- FW_DISCARD (R546). -/
def execFwDiscard (sess : SessRef) (v : Byte) (s : State) : Host.Outcome State Fault Refusal :=
  .next (s.odCommand sess K.FW_DISCARD 1 v.toNat (ownFwDiscard v.toNat))

/-- APPLET_REMOVE's own rule (R546): the applet is stopped and erased. -/
def ownAppletRemove (a : Nat) (s : State) : OdAns × State := (odOk, s.setApplet a none 0)

/-- APPLET_REMOVE (R546). -/
def execAppletRemove (sess : SessRef) (slot : Fin 8) (v : Byte) (s : State) : Host.Outcome State Fault Refusal :=
  .next (s.odCommand sess (K.APPLET_REMOVE slot) 1 v.toNat (ownAppletRemove slot))

/-- TILE_SWAP_DEADLINE (R535): ten seconds after FW_INSTALL, a SERDES or TILE part that has not swapped on every tile
falls back. -/
def execTileSwapDeadline (s : State) : Host.Outcome State Fault Refusal :=
  match s.life.swapping with
  | some k =>
    if k == 1 || k == 2 then
      .next ((s.advance (s.life.installAt + 10000 * Config.ms)).giveUpStaged k)
    else .next s
  | none => .next s

/-! ### Resets and probation (R534) -/

/-- Fallback of every part in a list that is on probation. -/
def State.fallBackAll (s : State) (ks : List Nat) : State :=
  ks.foldl (fun s k => if s.onProbation k then s.fallBack k else s) s

end Sys2Proof.Machine
end

