-- ==== Sys2Proof/Machine/LifeCycle.lean ====
section
/-!
DEFINITION. Life-cycle states, keys, authentication, the TAP, the device key and attestation (R512-R523, R538-R545).
-/
namespace Sys2Proof.Machine

/-! ### Roles of open sessions (R467, R514, R522) -/

/-- A gained role is one that the state still allows: maker in BLANK and RETURNED, integrator in PROVISIONED and FIELD. -/
def State.gainedOk (s : State) (role : Nat) : Bool :=
  if role == 3 then s.lcState == 0 || s.lcState == 3 else s.lcState == 1 || s.lcState == 2

/-- Every open session holds the starting role of its standing now, or the higher role it gained while the state still
allows that. DEDUCED: R467 gives the role a session holds, not only the one it opens with. -/
def State.regrade (s : State) : State :=
  let f := fun (sid : Nat) (x : Option Session) =>
    x.map (fun x => if x.gained && s.gainedOk x.role then x else { x with role := s.startRole sid, gained := false })
  { s with mg := { s.mg with sess := KMap.mapVals none f s.mg.sess } }

/-! ### Tokens and responses (R518) -/

/-- What the two 3,088-byte messages share: magic, reserved fields, serial number, challenge, and a signature by the key
that KEY names. -/
def State.tokenOk (s : State) (d : List Byte) (magic : List Byte) (challenge session : Nat) : Bool :=
  let key := leAt d 5 1
  d.length == 3088 && bytesAt d 0 4 == magic && zeroAt d 6 2 && zeroAt d 52 12 && leAt d 8 8 == s.life.fuses.serial
    && leAt d 16 32 == challenge && leAt d 48 4 == session && decide (key ≤ 2)
    && s.verifies (if key == 0 then 2 else key - 1) (d.take 64) (bytesAt d 64 60) (bytesAt d 124 2964)

/-- AUTH_RESPONSE's own rule (R523): the session gains the role, or the refusal is counted; the challenge is replaced
either way. -/
def ownAuthResponse (sid : Nat) (d : List Byte) (s : State) : OdAns × State :=
  let x := s.session sid
  let target := leAt d 4 1
  let key := leAt d 5 1
  let ok := s.tokenOk d [0x4B, 0x48, 0x41, 0x55] x.challenge sid
    && ((target == 2 && key == 0) || (target == 3 && (key == 1 || key == 2) && sidPath sid == 3)) && s.gainedOk target
  let s' := (s.updSess sid (fun x => { x with challenge := s.entropyVal })).freeNext
  if ok then (odOk, s'.updSess sid (fun x => { x with role := max x.role target, gained := true }))
  else (odNo 0x0504, (s'.incO K.AUTH_FAILURES).raise 615 1 2 false island)

/-- AUTH_RESPONSE (R523). -/
def execAuthResponse (sess : SessRef) (response : List Byte) (s : State) : Host.Outcome State Fault Refusal :=
  .next (s.odCommand sess K.AUTH_RESPONSE response.length (leNat response) (ownAuthResponse sess response))

/-! ### Life-cycle transitions (R512-R516) -/

/-- Fuse pattern of a state (R512). -/
def lcPattern : Nat → Nat
  | 0 => 0x00
  | 1 => 0x03
  | 2 => 0x0F
  | 3 => 0x3F
  | _ => 0xFF

/-- A refused transition: 0x0501 with its reason in LC_REFUSAL (R515). -/
def State.lcRefuse (s : State) (reason : Nat) : OdAns × State := (odNo 0x0501 reason, s.setO K.LC_REFUSAL reason)

/-- A blob, an installation or a probation is in progress (R515). -/
def State.fwBusy (s : State) : Bool :=
  s.installing || s.anyProbation
    || s.mg.sess.any (fun e => match e.2 with
        | some x => (match x.blob with | some b => b.state == 1 || b.state == 2 | none => false)
        | none => false)

/-- Reason 3 or 4 of R515, 0 where neither holds. -/
def State.lcBlocked (s : State) : Nat := if s.fwBusy then 3 else if s.o K.GEN_STATE ≠ 0 then 4 else 0

/-- Erasure of customer material (R516): RW values, generations, applets, bindings and the saved address; lockout and
signing records stay. -/
def State.erase (s : State) : State :=
  let kept := fun (key : Nat) => match odRow? key with
    | some r => r.access ≠ .rw
    | none => true
  { s with od := KMap.keep kept s.od, gen := {},
           fab := { s.fab with bind := [], port := KMap.mapVals {} (fun _ p => { p with keptSerial := none }) s.fab.port },
           mg := { s.mg with savedAddr := 0 },
           life := { s.life with applets := [], appState := [], eraseDone := true, custKeyOk := true } }

/-! ### What the TAP has open (R514) -/

/-- The boundary-scan instructions are open. -/
def State.scanOpen (s : State) : Bool := s.lcState ≤ 1 || s.lcState == 3 || (s.lcState == 2 && s.life.jtagScan)

/-- Internal debug is open. -/
def State.debugOpen (s : State) : Bool := s.lcState == 0 || (s.lcState == 3 && s.life.jtagDebug)

/-- An instruction is open in this state (R514). -/
def State.tapOpen (s : State) : TapInstr → Bool
  | .bypass => true
  | .idcode => s.lcState ≠ 4
  | .sample | .extest => s.scanOpen
  | .internalDebug => s.debugOpen

/-- The TAP returns to Test-Logic-Reset when its instruction has closed (R514): IDCODE is loaded, or BYPASS where IDCODE is closed too. -/
def State.closeTap (s : State) : State :=
  if s.tapOpen s.life.tap then s
  else { s with life := { s.life with tap := if s.tapOpen .idcode then .idcode else .bypass } }

/-! ### Gates and transitions (R514-R516) -/

/-- The gates of a new state: roles, injection, the TAP, the service port, slots (R514). -/
def State.lcGates (s : State) : State :=
  let s := s.regrade
  let s := if s.injOpen then s
    else
      let s : State := { s with ev := { s.ev with blk := KMap.mapVals {} (fun _ (b : EvtBlock) =>
        { b with inj := b.inj - bits b.inj 4 3 * 8 }) s.ev.blk } }
      { s with seams := { s.seams with strand := KMap.mapVals {} (fun _ (x : Strand) =>
        { x with injOnce := false, injAll := false, kaHold := false, wire := 0x7F }) s.seams.strand } }
  let s : State := ({ s with life := { s.life with jtagScan := false, jtagDebug := false } } : State).closeTap
  if s.lcState == 4 then
    let s := (s.sessionsOn 3).foldl (fun (s : State) e => s.closeSession e.1) s
    (List.range 24).foldl (fun (s : State) n => s.slotOff n 0) s
  else s

/-- A transition is made (R515, R516): the fuses are blown, the gates apply, and an entry to RETURNED or SCRAPPED
erases and ends in a housekeeping reset. -/
def State.lcMove (s : State) (target : Nat) : State :=
  let s := { s with life := { s.life with fuses := { s.life.fuses with lc := lcPattern target } } }
  let s := s.lcGates
  if target ≤ 2 then s.raise 615 0 1 false island
  else
    let s := if target == 4 then { s with life := { s.life with fuses := { s.life.fuses with seedRead := false } } } else s
    (s.erase.hkReset 7).raise 615 0 1 false island

/-- LC_ADVANCE's own rule (R515). -/
def ownLcAdvance (sid v : Nat) (s : State) : OdAns × State :=
  if v == 1 then
    if s.lcState ≠ 0 then s.lcRefuse 1
    else if s.role sid ≠ 3 then (odNo 0x0401, s)
    else if !s.life.certHeld then s.lcRefuse 2
    else if s.lcBlocked ≠ 0 then s.lcRefuse s.lcBlocked
    else (odOk, s.lcMove 1)
  else if s.lcState ≠ 1 then s.lcRefuse 1
  else if s.lcBlocked ≠ 0 then s.lcRefuse s.lcBlocked
  else (odOk, s.lcMove 2)

/-- LC_ADVANCE (R515). -/
def execLcAdvance (sess : SessRef) (v : Byte) (s : State) : Host.Outcome State Fault Refusal :=
  .next (s.odCommand sess K.LC_ADVANCE 1 v.toNat (ownLcAdvance sess v.toNat))

/-- LC_TOKEN's own rule (R515, R518): the challenge is replaced once the token has used it. -/
def ownLcToken (d : List Byte) (s : State) : OdAns × State :=
  if s.lcState ≠ 1 && s.lcState ≠ 2 then s.lcRefuse 1
  else if s.lcBlocked ≠ 0 then s.lcRefuse s.lcBlocked
  else
    let ok := s.tokenOk d [0x4B, 0x48, 0x52, 0x54] s.life.lcChallenge 0 && leAt d 4 1 == 3 && leAt d 5 1 ≠ 0
    let s' := ({ s with life := { s.life with lcChallenge := s.entropyVal } } : State).freeNext
    if ok then (odOk, s'.lcMove 3) else s'.lcRefuse 5

/-- LC_TOKEN (R515). -/
def execLcToken (sess : SessRef) (token : List Byte) (s : State) : Host.Outcome State Fault Refusal :=
  .next (s.odCommand sess K.LC_TOKEN token.length (leNat token) (ownLcToken token))

/-- LC_SCRAP's own rule (R515). -/
def ownLcScrap (sid v : Nat) (s : State) : OdAns × State :=
  if s.lcState == 4 then s.lcRefuse 1
  else if (s.lcState == 0 || s.lcState == 3) && s.role sid ≠ 3 then (odNo 0x0401, s)
  else if s.lcBlocked ≠ 0 then s.lcRefuse s.lcBlocked
  else if v ≠ s.life.fuses.serial then s.lcRefuse 6
  else (odOk, s.lcMove 4)

/-- LC_SCRAP (R515). -/
def execLcScrap (sess : SessRef) (v : Word64) (s : State) : Host.Outcome State Fault Refusal :=
  .next (s.odCommand sess K.LC_SCRAP 8 v.toNat (ownLcScrap sess v.toNat))

/-- VROOT_REVOKE0's own rule (R521). -/
def ownVrootRevoke0 (s : State) : OdAns × State :=
  if s.life.fuses.vroot1.isNone then (odNo 0x0501, s)
  else (odOk, { s with life := { s.life with fuses := { s.life.fuses with revoked0 := true } } })

/-- VROOT_REVOKE0 (R521). -/
def execVrootRevoke0 (sess : SessRef) (v : Byte) (s : State) : Host.Outcome State Fault Refusal :=
  .next (s.odCommand sess K.VROOT_REVOKE0 1 v.toNat ownVrootRevoke0)

/-- CUST_KEY_HASH's own rule (R522). -/
def ownCustKeyHash (v : Nat) (s : State) : OdAns × State :=
  (odOk, (({ s with life := { s.life with custKeyOk := true } } : State).setO K.CUST_KEY_HASH v).regrade)

/-- CUST_KEY_HASH (R522). -/
def execCustKeyHash (sess : SessRef) (v : BitVec 256) (s : State) : Host.Outcome State Fault Refusal :=
  .next (s.odCommand sess K.CUST_KEY_HASH 32 v.toNat (ownCustKeyHash v.toNat))

/-! ### The TAP (R514, R517) -/

/-- JTAG_OPEN's own rule (R517): what R514 names for the state and the writer's role. -/
def ownJtagOpen (sid : Nat) (s : State) : OdAns × State :=
  if s.lcState == 2 then (odOk, { s with life := { s.life with jtagScan := true } })
  else if s.lcState == 3 && s.role sid == 3 then (odOk, { s with life := { s.life with jtagDebug := true } })
  else (odOk, s)

/-- JTAG_OPEN (R517). -/
def execJtagOpen (sess : SessRef) (v : Byte) (s : State) : Host.Outcome State Fault Refusal :=
  .next (s.odCommand sess K.JTAG_OPEN 1 v.toNat (ownJtagOpen sess))

/-- IDCODE (R552). -/
def idcode : Nat := 1 * 2 ^ 28 + 0x9632 * 2 ^ 12 + Config.manufacturer.toNat * 2 + 1

/-- JTAG_TAP_ACCESS (R514, R552, R556): an open instruction is loaded, and the data register it selects is shifted once: `tdi` goes in
and what was captured comes out. SAMPLE/PRELOAD captures the pins and loads the boundary register's latch; EXTEST drives the pins from the
latch, before and after the shift. An instruction that is closed does not act, and the TAP keeps what it had. PRESUMED: what the
instructions do, from IEEE 1149.1. DESIGN CHOICE: one cell per pin, in the order of R555, those of the TAP among them. -/
def execJtagTapAccess (scan : TapScan) (s : State) : Host.Outcome State Fault Refusal :=
  if !s.tapOpen scan.instr || s.st.porHeld then .next s
  else
    let latch := s.life.boundary.toNat
    let s : State := { s with life := { s.life with tap := scan.instr } }
    match scan.instr with
    | .bypass => .next (s.emit .tap 0 [0])
    | .idcode => .next (s.emit .tap 0 [idcode])
    | .sample => .next (({ s with life := { s.life with boundary := scan.tdi } } : State).emit .tap 0 [scan.pins.toNat])
    | .extest =>
      let s := (s.emit .tap 1 [latch]).emit .tap 0 [scan.pins.toNat]
      .next (({ s with life := { s.life with boundary := scan.tdi } } : State).emit .tap 1 [scan.tdi.toNat])
    | .internalDebug => .next s

/-! ### Device key and certificate (R538, R545) -/

/-- DEVKEY_GEN's own rule (R545): once, in BLANK. -/
def ownDevkeyGen (s : State) : OdAns × State :=
  if s.life.fuses.devPub.isSome then (odNo 0x0501, s)
  else
    let pub := (Config.devPublic s.freeIx).toNat
    let l : Life := { s.life with fuses := { s.life.fuses with devPub := some pub, trees := max 1 s.life.fuses.trees },
                                  recA := some { seqNo := 1, t := 0, limit := 32 }, recB := none, sigT := 0, sigB := 0,
                                  sigLimit := 32, sigOff := false }
    (odOk, ({ s with life := l } : State).freeNext)

/-- DEVKEY_GEN (R545). -/
def execDevkeyGen (sess : SessRef) (v : Byte) (s : State) : Host.Outcome State Fault Refusal :=
  .next (s.odCommand sess K.DEVKEY_GEN 1 v.toNat ownDevkeyGen)

/-- A certificate matches this device and verifies against its vendor slot (R538). -/
def State.certOk (s : State) (d : List Byte) : Bool :=
  let slot := leAt d 76 1
  d.length == 3092 && bytesAt d 0 4 == [0x4B, 0x48, 0x44, 0x43] && leAt d 4 2 == 1 && zeroAt d 6 2 && zeroAt d 77 51
    && leAt d 8 8 == s.life.fuses.serial && s.life.fuses.devPub == some (leAt d 16 60) && decide (slot ≤ 1)
    && (match s.keyHash slot with
        | some h => Config.hssVerify (d.take 128) (Config.rootKey h) (bytesAt d 128 2964)
        | none => false)

/-- DEVKEY_CERT's own rule (R538): a maker session, in BLANK. -/
def ownDevkeyCert (sid : Nat) (d : List Byte) (s : State) : OdAns × State :=
  if s.role sid ≠ 3 then (odNo 0x0401, s)
  else if s.certOk d then (odOk, { s with life := { s.life with cert := leNat d, certHeld := true } })
  else (odNo 0x0504, s)

/-- DEVKEY_CERT (R538). -/
def execDevkeyCert (sess : SessRef) (cert : List Byte) (s : State) : Host.Outcome State Fault Refusal :=
  .next (s.odCommand sess K.DEVKEY_CERT cert.length (leNat cert) (ownDevkeyCert sess cert))

/-! ### Signing state and attestation (R539-R542) -/

/-- Indices left (R545): 32,768 × 1,024 in all. -/
def State.sigNext (s : State) : Nat := 32768 * s.life.sigT + s.life.sigB

/-- Every index is used or burned. -/
def State.sigExhausted (s : State) : Bool := decide (33554432 ≤ s.sigNext)

/-- Signing is available: a key, its seed readable, the state consistent, an index left. -/
def State.sigReady (s : State) : Bool :=
  s.life.fuses.devPub.isSome && s.life.fuses.seedRead && !s.life.sigOff && !s.sigExhausted

/-- Write the signing record that is not the newest, with a new sequence number (R539). -/
def Life.record (l : Life) (t limit : Nat) : Life :=
  match l.recA, l.recB with
  | some a, some b =>
    if a.seqNo < b.seqNo then { l with recA := some { seqNo := b.seqNo + 1, t := t, limit := limit } }
    else { l with recB := some { seqNo := a.seqNo + 1, t := t, limit := limit } }
  | some a, none => { l with recB := some { seqNo := a.seqNo + 1, t := t, limit := limit } }
  | none, some b => { l with recA := some { seqNo := b.seqNo + 1, t := t, limit := limit } }
  | none, none => { l with recA := some { seqNo := 1, t := t, limit := limit } }

/-- Make the next index usable: when b has reached B the record moves on by 32, and at 32,768 the next tree begins with
its fuse blown first (R539). -/
def Life.reserve (l : Life) : Life :=
  if l.sigB < l.sigLimit then l
  else if 32768 < l.sigLimit + 32 then
    let l := { l with fuses := { l.fuses with trees := l.fuses.trees + 1 } }
    { (l.record (l.sigT + 1) 32) with sigT := l.sigT + 1, sigB := 0, sigLimit := 32 }
  else { (l.record l.sigT (l.sigLimit + 32)) with sigLimit := l.sigLimit + 32 }

/-- Attestation is open in this state (R514). -/
def State.attestOpen (s : State) : Bool := s.lcState ≠ 4 && (s.lcState ≠ 0 || s.life.certHeld)

/-- ATTEST_NONCE's own rule (R541): refused as busy within 20 s, and while signing is disabled or used up. -/
def ownAttestNonce (sid nonce : Nat) (s : State) : OdAns × State :=
  let soon := match s.life.lastReport with
    | some t => decide (s.now < t + 20000 * Config.ms)
    | none => false
  if !s.attestOpen then (odNo 0x0402, s)
  else if !s.sigReady || soon || s.life.signing.isSome then (odNo 0x0502, s)
  else
    let s := { s with life := { s.life with signing := some sid, lastReport := some s.now } }
    (odOk, s.updSess sid (fun x => { x with attNonce := nonce, attState := 1 }))

/-- ATTEST_NONCE (R541). -/
def execAttestNonce (sess : SessRef) (nonce : BitVec 256) (s : State) : Host.Outcome State Fault Refusal :=
  .next (s.odCommand sess K.ATTEST_NONCE 32 nonce.toNat (ownAttestNonce sess nonce.toNat))

/-- Hash of the vendor slot in use: slot 1 once slot 0 is revoked. -/
def State.vrootInUse (s : State) : Nat :=
  if s.life.fuses.revoked0 then s.life.fuses.vroot1.getD 0 else s.life.fuses.vroot0.getD 0

/-- PART_STATE, version, security version, header hash and confirmation of part k, 48 bytes (R542). -/
def State.partRecord (s : State) (k : Nat) : Nat :=
  let i := (s.part k).active.getD {}
  packLE [(i.version, 4), (i.sv, 2), (s.o (K.PART_STATE k), 1), (0, 1), (i.hdrHash, 32), ((s.part k).confirmCt, 8)]

/-- SHA-256 over the headers of the loaded applets, zero when none (R542). -/
def State.appletHash (s : State) : Nat :=
  let l := s.loadedApplets
  if l.isEmpty then 0 else (Config.sha256 (l.flatMap (fun i => toBytes 512 i.hdr))).toNat

/-- The 512-byte body of a report (R542). -/
def State.reportBody (s : State) (nonce index : Nat) : Nat :=
  packLE ([(0x5441484B, 4), (1, 2), (s.lcState, 1), (0, 1), (s.life.fuses.serial, 8), (nonce, 32), (s.ct, 8), (s.ctState, 1),
    (0, 3), (s.o K.GEN_ACTIVE, 4), ((Config.genHash s.gen.active).toNat, 32), (s.vrootInUse, 32), (s.o K.CUST_KEY_HASH, 32)]
    ++ (List.range 6).map (fun k => (s.partRecord (k + 1), 48)) ++ [(index, 4), (s.appletHash, 32), (0, 28)])

/-- ATTEST_REPORT_READY (R541, R542): the engine signs with the next index, and the session's report is written. Where signing has become
disabled since the request, the request is refused: ATTEST_STATE 3 (R545). -/
def execAttestReportReady (sess : SessRef) (s : State) : Host.Outcome State Fault Refusal :=
  if s.life.signing ≠ some sess then .next s
  else if !s.sigReady || !s.attestOpen then
    .next (({ s with life := { s.life with signing := none } } : State).updSess sess (fun x => { x with attState := 3 }))
  else
    let l := s.life.reserve
    let index := 32768 * l.sigT + l.sigB
    let body := s.reportBody (s.session sess).attNonce index
    let report := body + 2 ^ 4096 * (Config.hssSign index body).toNat
    let s := { s with life := { l with sigB := l.sigB + 1, signing := none } }
    let s := s.updSess sess (fun x => { x with attState := 2, attReport := report })
    .next (if s.sigExhausted then s.raise 615 2 6 false island else s)

/-- The signing state at boot (R540): from the valid record with the higher sequence number, and the fuse count. -/
def State.sigBoot (s : State) : State :=
  let newest := match s.life.recA, s.life.recB with
    | some a, some b => if a.seqNo < b.seqNo then some b else some a
    | some a, none => some a
    | none, b => b
  if s.life.fuses.devPub.isNone then s
  else match newest with
  | none => ({ s with life := { s.life with sigOff := true } } : State).raise 615 2 5 false island
  | some r =>
    if s.life.fuses.trees == r.t + 1 then
      { s with life := { s.life with sigT := r.t, sigB := r.limit, sigLimit := r.limit, sigOff := false } }
    else if s.life.fuses.trees == r.t + 2 then
      let l := s.life.record (r.t + 1) 32
      { s with life := { l with sigT := r.t + 1, sigB := 0, sigLimit := 32, sigOff := false } }
    else ({ s with life := { s.life with sigOff := true } } : State).raise 615 2 5 false island

/-- LC_FLAGS (R544). -/
def State.lcFlags (s : State) : Nat :=
  b2n s.scanOpen + b2n s.debugOpen * 2 + b2n s.injOpen * 4 + b2n (s.lcState ≠ 4) * 8
    + b2n (s.lcState == 0 || s.lcState == 3) * 16 + b2n ((s.lcState == 3 || s.lcState == 4) && !s.life.eraseDone) * 32
    + b2n s.sigReady * 64

end Sys2Proof.Machine
end

