-- ==== Sys2Proof/Machine/Startup.lean ====
section
/-!
DEFINITION. Start-up and the release of the reset domains (R478, R479, R513, R536, R547-R552).
-/
namespace Sys2Proof.Machine

/-! ### CAN frames and the node address -/

/-- Send a CAN FD frame: function, destination, source, transaction and data (R471, R472). -/
def State.canFrom (s : State) (func dst src txn : Nat) (data : List Byte) : State :=
  (s.emit .can dst (func :: src :: txn :: data.map (·.toNat))).incO K.FRAMES_TX

/-- Send a frame from the node's own address. -/
def State.canSend (s : State) (func dst txn : Nat) (data : List Byte) : State := s.canFrom func dst (s.o K.NODE_ADDR) txn data

/-- Send ADDR_CLAIM for the candidate and listen for 250 ms (R479 step 2). -/
def State.claim (s : State) (candidate : Nat) : State :=
  ({ s with mg := { s.mg with phase := .listening, candidate := candidate, addrAt := s.now + 250 * Config.ms } } : State).canFrom
    2 0 candidate 0 (toBytes 8 s.life.fuses.serial)

/-- First candidate of a dynamic address (R479 step 1). -/
def State.firstCandidate (s : State) : Nat :=
  if s.mg.savedAddr ≠ 0 then s.mg.savedAddr else 1 + s.life.fuses.serial % 95

/-- The next candidate, wrapping within 0x01-0x5F (R479 step 3). -/
def nextCandidate (c : Nat) : Nat := if 0x5F ≤ c then 1 else c + 1

/-- Take the address that the sampled pins give, or start the dynamic claim (R478, R479). -/
def State.takeAddress (s : State) (ga : Nat) : State :=
  let s := s.setO K.GA_PINS ga
  let g := ga % 32
  if popCount 6 ga % 2 == 1 && 1 ≤ g then
    (({ s with mg := { s.mg with phase := .held } } : State).setO K.NODE_ADDR (0x60 + g)).setO K.ADDR_MODE 1
  else (({ s with mg := { s.mg with contested := 0 } } : State).setO K.ADDR_MODE 2).claim s.firstCandidate

/-! ### The boot ROM (R513, R536) -/

/-- Fuse patterns of the transitions of R515: from, to. -/
def lcMoves : List (Nat × Nat) :=
  [(0x00, 0x03), (0x03, 0x0F), (0x03, 0x3F), (0x0F, 0x3F), (0x00, 0xFF), (0x03, 0xFF), (0x0F, 0xFF), (0x3F, 0xFF)]

/-- A pattern is an interrupted transition from `a` to `b` (R513). -/
def lcInterrupted (pat a b : Nat) : Bool :=
  Nat.land pat a == a && Nat.land pat b == pat
    && (List.range 9).any (fun i => pat - a == (b - a) / 2 ^ i * 2 ^ i) && pat ≠ a && pat ≠ b

/-- The pattern that the ROM completes an interrupted transition to; none where the pattern is inconsistent. -/
def lcRepair (pat : Nat) : Option Nat :=
  if [0x00, 0x03, 0x0F, 0x3F, 0xFF].contains pat then some pat
  else (lcMoves.find? (fun m => lcInterrupted pat m.1 m.2)).map (·.2)

/-- The ROM reads LC_FUSE (R513) and repeats an unfinished erasure (R516). -/
def State.romFuses (s : State) : State :=
  let s := match lcRepair s.life.fuses.lc with
    | some p => { s with life := { s.life with fuses := { s.life.fuses with lc := p } } }
    | none => s.raiseCore 615 3 3 false island
  if (s.lcState == 3 || s.lcState == 4) && !s.life.eraseDone then (s.erase.raise 615 0 7 false island) else s

/-- The ROM starts an HK image: the active bank's, else the other bank's, else recovery (R536, R537). -/
def State.romImage (s : State) : State :=
  let p := s.part 5
  let ok := fun (i : Option Image) => match i with
    | some i => s.mayRun 5 i
    | none => false
  if ok p.active then s
  else if ok p.other && !p.staged then
    (s.updPart 5 (fun p => { p with active := p.other, other := none })).raise 601 2 1 false island
  else
    let s := (({ s with st := { s.st with recovery := true } } : State).setO K.START_PHASE 9).raise 601 2 2 false island
    (List.range 24).foldl (fun (s : State) n => s.slotOff n 0) s

/-- Ports with a role come up DOWN; those with a kept binding LOST, with their serial number (R254). -/
def State.restorePorts (s : State) : State :=
  (List.range 96).foldl (fun (s : State) p =>
    if s.o (K.ROLE p) == 0 then s
    else if !(s.boundIn p).isEmpty then (s.setO (K.PORT_STATE p) 5).setO (K.PORT_SERIAL p) ((s.port p).keptSerial.getD 0)
    else s.setO (K.PORT_STATE p) 1) s

/-- The data path may not start: recovery, SCRAPPED. -/
def State.noDataPath (s : State) : Bool := s.st.recovery || s.lcState == 4

/-- The HK image starts (R547 steps 2 to 5). `cold` after a power-on reset. -/
def State.bootImage (s : State) (cold : Bool) : State :=
  let s := s.restorePorts.giveRecords
  let s := if cold then
      (List.range 24).foldl (fun (s : State) n => s.updSlot n (fun x =>
        { x with state := if x.lockRec then .lockout else .off, autoDue := true, feedA := !x.lockRec, feedB := !x.lockRec,
                 feedAGood := true, feedBGood := true, discharging := true, enteredAt := s.now })) s
    else s
  let s := (s.sigBoot).takeAddress s.mg.gaPins
  let s := (List.range 24).foldl (fun (s : State) n => s.autoOn n) s
  if s.lcState == 4 then s
  else if s.railsOn.length == 4 && (List.range 4).all (fun r => decide ((s.rail r).startedAt ≤ (s.rail r).upAt)) then
    let s := (List.range 4).foldl (fun (s : State) r => s.setO (K.RAIL_STATE r) 2) s
    ({ s with pw := { s.pw with dieRelAt := some (s.now + Config.ms) } } : State).setO K.RAIL_SEQ_STATE 2
  else s.startRails

/-- The island boots (R547 steps 1 to 5). `cold` after a power-on reset. -/
def State.boot (s : State) (cold : Bool) : State :=
  let s := s.romFuses
  let s := (s.fallBackAll [1, 2, 3, 4, 5, 6]).romImage
  let s := ({ s with st := { s.st with relAt := s.now } } : State).updWarn
  if s.st.recovery then s else s.bootImage cold

/-- POWER_ON_RESET_RELEASE (R547): VBUS_OR has stood at 33.0 V for 1 ms; GA and GAP are sampled. -/
def execPowerOnResetRelease (ga : BitVec 6) (s : State) : Host.Outcome State Fault Refusal :=
  if !s.st.porHeld then .next s
  else
    let s : State := { s with st := { s.st with porHeld := false }, mg := { s.mg with gaPins := ga.toNat }, tm := { s.tm with ticks := 0 } }
    .next (((s.incO K.POR_COUNT).setO K.LAST_RESET 1).boot true)

/-! ### Readiness (R548) -/

/-- CORE_READY as R548 defines it. -/
def State.coreReadyNow (s : State) : Bool :=
  !s.hubHeld && s.o K.PLANK_MODE == 1 && s.gen.published
    && [1, 2, 3, 4].all (fun k => (s.part k).active.isSome && s.o (K.PART_STATE k) ≠ 2)

/-- Keep CORE_READY; the time to it is measured when it becomes true. -/
def State.updCoreReady (s : State) : State :=
  let r := s.coreReadyNow
  if r == (s.o K.CORE_READY == 1) then s
  else if r then
    let s := (s.setO K.CORE_READY 1).setO K.T_CORE_READY ((s.now - s.st.relAt) / Config.ms % 2 ^ 32)
    if s.o K.START_PHASE ≤ 4 || s.o K.START_PHASE == 7 then s.setO K.START_PHASE 5 else s
  else s.setO K.CORE_READY 0

/-- Every port that is claimed, enabled and has a partner has its link up. -/
def State.portsReadyNow (s : State) : Bool :=
  (List.range 96).all (fun p => s.o (K.ROLE p) == 0 || s.o (K.LINK_ENABLE p) == 0 || !(s.port p).partner || s.linkUp p)

/-- Ports become ready after the core (R548). -/
def State.updPortsReady (s : State) : State :=
  if s.o K.START_PHASE == 5 && s.portsReadyNow then
    (s.setO K.START_PHASE 6).setO K.T_PORTS_READY ((s.now - s.st.relAt) / Config.ms % 2 ^ 32)
  else s

/-! ### Release of the hub and of a tile -/

/-- The strands of seam t begin to train (R335, R547 step 8). -/
def State.seamTrains (s : State) (t : Nat) : State :=
  (List.range 2).foldl (fun (s : State) d => (List.range 9).foldl (fun (s : State) k =>
    s.updStrand t d k (fun x => if x.stopped then x else { x with status := 1, upAt := s.now, lastAt := s.now })) s) s

/-- The hub may be released: no cause stands, the rails are up, the state lets the data path run. -/
def State.mayReleaseHub (s : State) : Bool :=
  (s.st.hubIn || !s.st.released) && s.st.hubCauses.isEmpty && s.islandUp && s.o K.RAIL_SEQ_STATE == 2 && !s.noDataPath
    && !s.ev.safe && s.pw.dieRelAt.isNone

/-- The hub and the tiles are released (R547 steps 6 to 8): ticks run, the hatband is in its reset state, the plank is in
fulling mode, the seams train, the parts of the data path that were on probation fall back (R534). -/
def State.hubRelease (s : State) : State :=
  let s := s.fallBackAll [1, 2, 3, 4]
  let held := (List.range 4).filter (fun t => s.o (K.ISOLATE t) == 1)
  let s := { s with
    st := { s.st with hubIn := false, released := true, relAt := s.now, faultN := false,
                      tileHeld := held.map (fun t => (t, true)) }
    tm := { s.tm with tickStart := s.now, tickLen := 1600, refSeen := s.st.refPresent,
                      xtalSince := if s.fromRef then none else some s.now } }
  let s := ((s.setO K.START_PHASE 3).setO K.T_CORE_READY 0).setO K.T_PORTS_READY 0
  let s := s.enterFulling 1
  ((List.range 4).filter (fun t => !held.contains t)).foldl State.seamTrains s

/-- DATA_PATH_RELEASE (R406): 1 ms after VDDIO is up. -/
def execDataPathRelease (s : State) : Host.Outcome State Fault Refusal :=
  match s.pw.dieRelAt with
  | none => .next s
  | some t =>
    let s := s.advance t
    let s := { s with pw := { s.pw with dieRelAt := none } }
    .next (if s.mayReleaseHub then s.hubRelease else s)

/-- When a tile that is held has been in reset for the 10 µs that R550 asks for. -/
def State.tileFree (s : State) (t : Nat) : Nat := KMap.get 0 s.st.tileAt t + 10 * Config.us

/-- A tile is released (R335, R550): its seam trains, and a SERDES or TILE image on probation falls back (R534). -/
def State.tileRelease (s : State) (t : Nat) : State :=
  let s := { s with st := { s.st with tileHeld := KMap.set false s.st.tileHeld t false } }
  (s.fallBackAll [1, 2]).seamTrains t

/-- Blocks of port p leave a fatal class at the port's reset (R454). -/
def State.portFatalEnds (s : State) (p : Nat) : State :=
  (List.range 4).foldl (fun (s : State) i =>
    let b := s.blk (4 * p + i)
    if b.cls == 3 then s.setBlk (4 * p + i) (b.leave s.now) else s) s

/-- A cause of hub warm reset that still stands at the release of a larger domain is reported (R551). -/
def State.reportCause (s : State) : State :=
  match s.st.hubCauses with
  | cause :: _ => s.setO K.LAST_RESET cause
  | [] => s

/-- The island is released from its reset, and boots (R547, R550). -/
def State.hkRelease (s : State) : State :=
  (({ s with st := { s.st with hkHeld := false, hkPinLow := false } } : State).resumeTimers.boot false).reportCause

/-- RESET_RELEASE (R550): a held domain is released once nothing holds it, 10 µs after it was entered at the earliest. -/
def execResetRelease (dom : ResetDomain) (s : State) : Host.Outcome State Fault Refusal :=
  match dom with
  | .housekeeping =>
    if !s.st.hkHeld then .next s
    else .next (s.advance (s.st.relAt + 10 * Config.us)).hkRelease
  | .hub =>
    if s.st.hubIn && s.mayReleaseHub then .next (s.advance (s.st.relAt + 10 * Config.us)).hubRelease else .next s
  | .tile t =>
    if s.hubHeld || !KMap.get false s.st.tileHeld t || s.o (K.ISOLATE t) == 1 then .next s
    else .next ((s.advance (s.tileFree t)).tileRelease t)
  | .port p =>
    if s.tileHeld (tileOf p) || s.o (K.LINK_ENABLE p) == 0 then .next s
    else .next ((s.portFatalEnds p).startTraining p)

/-! ### Resets asked for -/

/-- An object write whose effect comes after its answer has left (R552). -/
def State.odCommandThen (s : State) (sid key len v : Nat) (own : State → OdAns) (after : State → State) : State :=
  match s.sessionFor sid with
  | .silent => s
  | .busy => s.answerOd sid (odNo 0x0502)
  | .ready s =>
    let r := s.odWrite sid key len v (fun s => (own s, s))
    let s := r.2.answerOd sid r.1
    if r.1.abort == 0 then after s else s

/-- RESET_HK (R550): answered first, then the housekeeping reset. -/
def execResetHk (sess : SessRef) (v : Byte) (s : State) : Host.Outcome State Fault Refusal :=
  .next (s.odCommandThen sess K.RESET_HK 1 v.toNat (fun _ => odOk) (fun s => s.hkReset 3))

/-- RESET_HUB is refused while a flush runs (R551). -/
def ownResetHub (s : State) : OdAns := if s.o K.WARN_STATE == 2 then odNo 0x0501 else odOk

/-- RESET_HUB (R551): hub warm reset. -/
def execResetHub (sess : SessRef) (v : Byte) (s : State) : Host.Outcome State Fault Refusal :=
  .next (s.odCommandThen sess K.RESET_HUB 1 v.toNat ownResetHub (fun s => s.hubReset 0x14))

/-- HK_RST_N (R550): low for 1 µs; the pins that the release will sample. -/
def execHkRstN (ga : BitVec 6) (s : State) : Host.Outcome State Fault Refusal :=
  if s.st.porHeld then .next s
  else
    let s : State := { s with mg := { s.mg with gaPins := ga.toNat } }
    let s := s.hkReset 2
    .next { s with st := { s.st with hkPinLow := true } }

/-- HK_WATCHDOG (R550): the island's watchdog expires. -/
def execHkWatchdog (s : State) : Host.Outcome State Fault Refusal :=
  if !s.islandUp then .next s else .next ((s.raiseCore 600 3 2 false island).hkReset 4)

/-- SERVICE_PORT_LINK_CHANGE (R442): E611. -/
def execServicePortLinkChange (up : Bool) (s : State) : Host.Outcome State Fault Refusal :=
  if s.mg.svcLinkUp == up || !s.islandUp then .next s
  else .next (({ s with mg := { s.mg with svcLinkUp := up } } : State).raise 611 0 (if up then 2 else 1) false island)

end Sys2Proof.Machine
end

