-- ==== Sys2Proof/Machine/Plank.lean ====
section
/-!
DEFINITION. The plank: forwarding to the landing store, shapers, the matcher of carding mode, fulling mode and the
change between them, the agent merge and the egress pick (R41-R75, R205-R223).
-/
namespace Sys2Proof.Machine

/-! ### Shapers (R218-R223) and policers (R224) -/

/-- Pair of a VOQ's input and egress ports (R218): host * 64 + target. -/
def State.pairOf (s : State) (i q : Nat) : Option Nat :=
  let a := s.lead i
  if s.o (K.ROLE a) == 1 && s.o (K.ROLE q) == 2 then some (s.o (K.AGENT a) * 64 + s.o (K.AGENT q))
  else if s.o (K.ROLE a) == 2 && s.o (K.ROLE q) == 1 then some (s.o (K.AGENT q) * 64 + s.o (K.AGENT a))
  else none

/-- Profile of a pair; 0 unshaped. -/
def State.profile (s : State) (pr : Nat) : Nat := s.c (K.SHP_PROFILE (pr / 64) (pr % 64))

/-- A committed bucket that a rate of 0 keeps at 0 (R223). -/
def committedSize (cir cbs : Nat) (v : Int) : Int := if cir == 0 then 0 else min v (cbs : Int)

/-- Buckets of a pair: full where nothing has been charged since they were set (R223). -/
def State.shaper (s : State) (pr : Nat) : Shaper :=
  let x := KMap.get {} s.pl.shaper pr
  if x.live then x
  else
    let k := s.profile pr
    { c := committedSize (s.c (K.SHP_CIR k)) (s.c (K.SHP_CBS k)) (s.c (K.SHP_CBS k)), p := s.c (K.SHP_PBS k), live := true }

/-- Set a pair's buckets. -/
def State.setShaper (s : State) (pr : Nat) (x : Shaper) : State :=
  { s with pl := { s.pl with shaper := KMap.set {} s.pl.shaper pr x } }

/-- A landing cell of a shaped pair is charged (R219); the cell as marked. -/
def State.shaperCharge (s : State) (i : Nat) (c : Cell) : Cell × State :=
  match if c.cls = .bulk then s.pairOf i c.egress else none with
  | none => (c, s)
  | some pr =>
    if s.profile pr == 0 then (c, s)
    else
      let x := s.shaper pr
      let n := s.metered c
      let mark := decide (0 < x.c)
      let p := x.p - n
      let s := s.setShaper pr { x with c := if mark then x.c - n else x.c, p := p, held := x.held || decide (p ≤ 0) }
      let s : State := if 0 < p then s else { s with pl := { s.pl with heldIn := (pr / 64 :: s.pl.heldIn).eraseDups } }
      ({ c with committed := mark }, if mark then s.addO (K.SHP_COMMITTED_BYTES (pr / 64)) n else s)

/-- A VOQ is held by its pair's shaper (R219, R220). -/
def State.voqHeld (s : State) (i q : Nat) (cls : Cls) : Bool :=
  match if cls = .bulk then s.pairOf i q else none with
  | none => false
  | some pr => s.profile pr ≠ 0 && (s.shaper pr).held

/-- Buckets of a port's policer: full where nothing has been charged since they were set (R224). -/
def State.policer (s : State) (p : Nat) : Policer :=
  let x := KMap.get {} s.pl.policer p
  if x.live then x
  else { tc := committedSize (s.c (K.POL_CIR p)) (s.c (K.POL_CBS p)) (s.c (K.POL_CBS p)), tp := s.c (K.POL_PBS p), live := true }

/-- Set a port's policer. -/
def State.setPolicer (s : State) (p : Nat) (x : Policer) : State :=
  { s with pl := { s.pl with policer := KMap.set {} s.pl.policer p x } }

/-- The colour of a request of metered length L (R224). -/
def State.police (s : State) (p len : Nat) : Colour × State :=
  if !s.cB (K.POL_ENABLE p) then (.green, s.incO (K.GREEN_PKTS p))
  else
    let x := s.policer p
    if x.tp < len then (.red, (s.setPolicer p x).incO (K.RED_PKTS p))
    else if x.tc < len then (.yellow, (s.setPolicer p { x with tp := x.tp - len }).incO (K.YELLOW_PKTS p))
    else (.green, (s.setPolicer p { x with tp := x.tp - len, tc := x.tc - len }).incO (K.GREEN_PKTS p))

/-- Refresh of one pair (R219). -/
def State.refreshShaper (s : State) (pr : Nat) (x : Shaper) : Shaper :=
  let k := s.profile pr
  let p := min (x.p + s.c (K.SHP_PIR k)) (s.c (K.SHP_PBS k))
  { x with c := committedSize (s.c (K.SHP_CIR k)) (s.c (K.SHP_CBS k)) (x.c + s.c (K.SHP_CIR k)), p := p,
           held := x.held && decide (p ≤ 0) }

/-- Refresh of one policer (R224). -/
def State.refreshPolicer (s : State) (p : Nat) (x : Policer) : Policer :=
  { x with tc := committedSize (s.c (K.POL_CIR p)) (s.c (K.POL_CBS p)) (x.tc + s.c (K.POL_CIR p)),
           tp := min (x.tp + s.c (K.POL_PIR p)) (s.c (K.POL_PBS p)) }

/-- Hosts with a pair held now. -/
def State.heldHosts (s : State) : List Nat := ((s.pl.shaper.filter (fun e => e.2.held)).map (fun e => e.1 / 64)).eraseDups

/-- The tick ends: it counts for every host of which a pair was held in it, and those held on start the next one so (R229). -/
def State.countHolds (s : State) : State :=
  let s := s.pl.heldIn.foldl (fun (s : State) h => s.incO (K.SHP_HOLD_TICKS h)) s
  { s with pl := { s.pl with heldIn := s.heldHosts } }

/-- Item 1 of the tick: every bucket is refreshed and held VOQs whose peak bucket is positive are released (R219,
R224). -/
def State.tickBuckets (s : State) : State :=
  { s with pl := { s.pl with shaper := KMap.mapVals {} s.refreshShaper s.pl.shaper,
                             policer := KMap.mapVals {} s.refreshPolicer s.pl.policer } }

/-- The buckets as they stand now: item 1 of this tick, when it has published (R32). -/
def State.freshTokens (s : State) : State :=
  if s.tm.item == 0 && s.itemDue 1 && !s.tm.overrun && !s.hubHeld then
    let s := s.tickBuckets
    { s with tm := { s.tm with item := 1 } }
  else s

/-- A flow less the virtual time (R215). -/
def renormFlow (v : Nat) (g : Flow) : Flow :=
  if g.backlog == 0 then {}
  else { g with start := (g.start + 2 ^ 32 - v) % 2 ^ 32, finish := (g.finish + 2 ^ 32 - v) % 2 ^ 32 }

/-- A scheduler less its virtual time (R215). -/
def renormSched (x : Sched) : Sched := { v := 0, flows := KMap.mapVals {} (fun _ g => renormFlow x.v g) x.flows }

/-- A port's class level less its virtual time (R215). -/
def State.renormClass (s : State) (q : Nat) (x : Sched) : Sched :=
  { v := 0, flows := KMap.mapVals {} (fun k g =>
      if s.queuedAt q (clsOf k) == 0 then {} else { g with finish := (g.finish + 2 ^ 32 - x.v) % 2 ^ 32 }) x.flows }

/-- Item 2 of the tick (R215). -/
def State.tickRenorm (s : State) : State :=
  { s with pl := { s.pl with sched := KMap.mapVals {} (fun _ x => renormSched x) s.pl.sched,
                             cls := KMap.mapVals {} s.renormClass s.pl.cls } }

/-! ### Forwarding to the landing store (R41) -/

/-- Key of VOQ (i, q, class). -/
def voqKey (i q : Nat) (cls : Cls) : Nat := (i * 96 + q) * 4 + clsNum cls

/-- VOQ i, q, class. -/
def State.voq (s : State) (i q : Nat) (cls : Cls) : List Cell := KMap.get [] s.pl.voq (voqKey i q cls)

/-! ### Limits and credits (R44-R50, R108) -/

/-- Limit of a class at a port: the sum over the members of a ganged port (R45). -/
def State.limit (s : State) (p : Nat) (cls : Cls) : Nat :=
  ((List.range (s.quads p)).map (fun i => s.c (match cls with
    | .sys => K.LIM_SYS (p + i) | .coh => K.LIM_COH (p + i) | .bulk => K.LIM_BULK (p + i) | .view => K.LIM_VIEW (p + i)))).sum

/-- Cells of port p that count against a class's limit: in VOQs, and waiting at the tile for the crown's intake (R46). DEDUCED: a
packet keeps the cells that its credits reserved, so a CXL.mem or CXL.cache packet counts against COH wherever it decodes. -/
def State.occ (s : State) (p : Nat) (cls : Cls) : Nat :=
  (s.pl.voq.map (fun e => (e.2.filter (fun c => c.source == p && c.lim = cls)).length)).sum
    + (if cls = .coh then ((KMap.get [] s.pl.toCrown p).map (fun e => e.2.length)).sum else 0)

/-- Entries above the reserved ones of every host and of the hub agents (R108). -/
def State.sharedUsed (s : State) : Nat := ((s.cr.perHost.map (fun e => e.2 - 64)).sum) + (s.cr.hub - 1024)

/-- A tracker entry is available for a requester. -/
def State.trackerFree (s : State) (e : LineEntry) : Bool :=
  if e.who < 64 then
    (decide (KMap.get 0 s.cr.perHost e.who < 64) || decide (s.sharedUsed < 11264)) && decide (KMap.get 0 s.cr.perPort e.port < 512)
  else decide (s.cr.hub < 1024) || decide (s.sharedUsed < 11264)

/-- A host's port withholds COH credits: no tracker entry is left for it (R108). -/
def State.cohHeld (s : State) (p : Nat) : Bool :=
  s.o (K.ROLE p) == 1
    && (!(decide (KMap.get 0 s.cr.perHost (s.o (K.AGENT p)) < 64) || decide (s.sharedUsed < 11264)) || decide (512 ≤ KMap.get 0 s.cr.perPort p))

/-- Cells reserved by credits that port p has advertised and that are not used (R46). DESIGN CHOICE: the port advertises all it may:
the limit less the margin of 3 cells and what is occupied. Credits once given stay valid (R50). -/
def State.advertised (s : State) (p : Nat) (cls : Cls) : Nat :=
  let given := KMap.get 0 s.pl.adv (p * 4 + clsNum cls)
  if cls = .coh && s.cohHeld p then given else max given (s.limit p cls - 3 - s.occ p cls)

/-- What port p has advertised in a class becomes `n` cells. -/
def State.setAdv (s : State) (p : Nat) (cls : Cls) (n : Nat) : State :=
  { s with pl := { s.pl with adv := KMap.set 0 s.pl.adv (p * 4 + clsNum cls) n } }

/-- Cells that a packet's credits reserve: one for its header and one for each 64 bytes of its data (R46). -/
def reserved (bytes hdr : Nat) : Nat := 1 + (bytes - hdr + 63) / 64

/-- Admit a packet at port p for egress port q: its cells go to VOQs and count against `lim`, the n-th one of a ganged port to its n-th member in rotation
(R64, R67). -/
def State.admitPkt (s : State) (p q : Nat) (cls lim : Cls) (colour : Colour) (bytes data : Nat) (m : Out) : State :=
  let r := s.newPacket m
  let c0 : Cell := { blankCell cls p q with lim := lim, req := r.1, colourCode := colourNum colour, gen := s.genNum % 256, gepoch := s.gd.epoch % 16 }
  (cutPacket c0 bytes data).foldl (fun (s : State) c =>
    let k := s.takeSeq (flowKey p q (clsNum cls))
    let s := k.2
    let l := s.members p
    let n := KMap.get 0 s.pl.rotate p
    let i := (l[n % max 1 l.length]?).getD p
    let c := cellSeal { c with seq := k.1 }
    { s with pl := { s.pl with voq := KMap.upd [] s.pl.voq (voqKey i q cls) (· ++ [c]), rotate := KMap.set 0 s.pl.rotate p ((n + 1) % 4294967296) } }) r.2

/-- Window requests that wait at port p's tile go up the seam in order, as the crown's intake has credits (R41, R317). -/
def State.pushCrown (s : State) (p : Nat) : Nat → State
  | 0 => s
  | fuel + 1 =>
    match KMap.get [] s.pl.toCrown p with
    | [] => s
    | e :: rest =>
      if s.creditsHeld (p / 24) 0 72 < e.2.length then s
      else
        let s : State := { s with pl := { s.pl with toCrown := KMap.set [] s.pl.toCrown p rest } }
        (e.2.foldl (fun (s : State) c => s.seamSend (p / 24) 0 72 { cell := c, dest := 32 }) s).pushCrown p fuel

/-- The item of `l` whose number comes first at or after `ptr`, cyclically below `n`. -/
def firstFrom (n ptr : Nat) (l : List Nat) : Option Nat :=
  l.foldl (fun (m : Option Nat) x => match m with
    | none => some x
    | some y => if (x + n - ptr % n) % n < (y + n - ptr % n) % n then some x else some y) none

/-- VOQ (i, q, class) may forward its head: two landed at most, a credit, no hold. -/
def State.canForward (s : State) (i q : Nat) (cls : Cls) : Bool :=
  !(s.voq i q cls).isEmpty && decide (KMap.get 0 s.pl.fwd (voqKey i q cls) < 2) && !s.voqHeld i q cls
    && (if cls = .sys then decide (timingWaits (s.timing (i / 24) 0) (i % 24) < 8)
        else decide (0 < s.creditsHeld (i / 24) 0 (poolOf (i % 24) cls)))

/-- Numbers (port-major, COH, BULK, VIEW) of the VOQs of input i that may forward. -/
def State.forwardable (s : State) (i : Nat) : List Nat :=
  s.pl.voq.filterMap (fun e =>
    if e.1 / 4 / 96 == i && 0 < e.1 % 4 && s.canForward i (e.1 / 4 % 96) (clsOf (e.1 % 4)) then
      some (e.1 / 4 % 96 * 3 + (e.1 % 4 - 1)) else none)

/-- Egress ports of the SYS VOQs of input i that may forward. -/
def State.forwardableSys (s : State) (i : Nat) : List Nat :=
  s.pl.voq.filterMap (fun e =>
    if e.1 / 4 / 96 == i && e.1 % 4 == 0 && s.canForward i (e.1 / 4 % 96) .sys then some (e.1 / 4 % 96) else none)

/-- The request behind a discarded packet ends (R40): a non-posted one with Completer Abort; a CXL read poisoned; a
posted write in error. -/
def State.killRequest (s : State) (id : Nat) : State :=
  match s.txn? id with
  | none => s
  | some t =>
    let s := s.endTxn id false
    if t.purpose = .port then
      if t.nonPosted then s.answer t.port t.tag t.rid (t.failCode 2) 0
      else if t.posted then s
      else s.answer t.port t.tag t.rid (if t.write then 0 else 1) 0
    else s

/-- Number of the request that a packet's message carries. -/
def State.requestOf (s : State) (pkt : Nat) : Nat :=
  match KMap.get none s.pl.msg pkt with
  | some m => if m.kind = .request then m.args.headD 0 else 0
  | none => 0

/-! ### Lines that brim caches forward (R94, R96, R102) -/

/-- Key of a line's entry. -/
def dirKey (w line : Nat) : Nat := w * 2 ^ 36 + line

/-- Sets and ways of a brim cache. -/
def brimSets : Nat := 24576
/-- Brim key of a line. -/
def brimKey (t w line : Nat) : Nat := t * 2 ^ 40 + dirKey w line

/-- Lines of a tile's brim cache in a line's set. PRESUMED: the set is the line's number modulo 24,576. -/
def State.brimSet (s : State) (t line : Nat) : List Nat :=
  (s.cr.brim.map (·.1)).filter (fun k => k / 2 ^ 40 == t && k % 2 ^ 36 % brimSets == line % brimSets)

/-- A line goes into tile t's brim cache. PRESUMED: a full set gives up its first listed line, for the not-recently-used one. -/
def State.brimPut (s : State) (t w line data : Nat) : State :=
  let k := brimKey t w line
  let l := s.brimSet t line
  let m := if 16 ≤ l.length && !l.contains k then KMap.set none s.cr.brim (l.headD 0) none else s.cr.brim
  { s with cr := { s.cr with brim := KMap.set none m k (some data) } }

/-- Port on which a host of two ports last got a completion for a line. -/
def State.lastDone (s : State) (h w line : Nat) : Option Nat :=
  match KMap.get 0 s.cr.doneAt (h * 2 ^ 40 + dirKey w line) with
  | 0 => none
  | p + 1 => some p

/-- BIConflictAck to host h: by the port of its last completion for the line, else by that of a snoop (R102). -/
def State.ackConflict (s : State) (h w line : Nat) : State :=
  match ((s.lastDone h w line).filter s.linkUp).or (s.hostPort h) with
  | none => s
  | some p => s.agentSend 0x78 0 .coh p 16 0 { kind := .conflictAck, dst := h, args := [h, w, line] }

/-- The BIConflictAcks that no completion precedes any more (R102). -/
def State.sendLateAcks (s : State) : State :=
  (s.cr.lateAck.filter (fun a => KMap.get none s.cr.carry a.pkt = none)).foldl (fun (s : State) a =>
    ({ s with cr := { s.cr with lateAck := s.cr.lateAck.erase a } } : State).ackConflict a.host a.w a.line) s

/-- The last cell of a packet reaches the egress tile: a forwarded line fills its brim cache, and the tile acknowledges it as it does a
FILL (R94 to R96). -/
def State.carried (s : State) (pkt : Nat) : State :=
  match KMap.get none s.cr.carry pkt with
  | none => s
  | some x =>
    let s : State := { s with cr := { s.cr with carry := KMap.set none s.cr.carry pkt none } }
    let s : State := if x.fill then
        let s := s.brimPut x.tile x.w x.line x.data
        { s with cr := { s.cr with brimAck := s.cr.brimAck ++ [{ tile := x.tile, kind := .fill, w := x.w, line := x.line }] } }
      else s
    s.sendLateAcks

/-! ### Header failures (R40) -/

/-- Stage 0 is the landing store, stage 1 the egress tile. -/
def stageKey (stage flow : Nat) : Nat := stage * 2 ^ 20 + flow

/-- Distance of SEQ `q` ahead of `n`, modulo 65,536 (R69). -/
def seqAhead (q n : Nat) : Nat := (q + 65536 - n % 65536) % 65536

/-- A cell of a flow is discarded on its way: the resequencer does not wait for its SEQ (R40). -/
def Reseq.lose (q : Nat) (r : Reseq) : Reseq :=
  if seqAhead q r.next ≤ 32767 && !r.gone.contains q then { r with gone := r.gone ++ [q] } else r

/-- Mark a cell's SEQ as discarded in its flow. -/
def State.loseSeq (s : State) (c : Cell) : State :=
  { s with pl := { s.pl with reseq := KMap.upd {} s.pl.reseq (cellFlow c) (Reseq.lose c.seq) } }

/-- A cell and the rest of its packet are discarded at a stage; its request ends (R40). -/
def State.discardCell (s : State) (stage : Nat) (c : Cell) : State :=
  let s : State := { s with pl := { s.pl with dropping := KMap.set false s.pl.dropping (stageKey stage (cellFlow c)) (!c.eop) },
                            cr := { s.cr with carry := KMap.set none s.cr.carry c.req none } }
  ((s.loseSeq c).incO K.HDR_ERRORS).killRequest (s.requestOf c.req)

/-- A cell fails a check at a stage (R40): it and the rest of its packet are discarded, a contained fault of the plank is
recorded. -/
def State.headerFault (s : State) (stage syn : Nat) (c : Cell) : State :=
  (s.raise 528 2 syn false { master := if c.source < 96 then c.source else 0x80 }).discardCell stage c

/-- The rest of a discarded packet. -/
def State.isDropping (s : State) (stage : Nat) (c : Cell) : Bool := KMap.get false s.pl.dropping (stageKey stage (cellFlow c)) && !c.sop

/-- Discard one more cell of such a packet. -/
def State.dropRest (s : State) (stage : Nat) (c : Cell) : State :=
  ({ s with pl := { s.pl with dropping := KMap.set false s.pl.dropping (stageKey stage (cellFlow c)) (!c.eop) } } : State).loseSeq c

/-- Count a cell of its packet at a stage; false when the length is wrong. -/
def State.packetCount (s : State) (stage : Nat) (c : Cell) : Bool × State :=
  let k := stageKey stage (cellFlow c)
  let r := packetStep (KMap.get (0, 0) s.pl.pkt k) c
  (r.1, { s with pl := { s.pl with pkt := KMap.set (0, 0) s.pl.pkt k (if c.eop then (0, 0) else r.2) } })

/-- Check a cell's packet by SEQ where its cells land over several inputs (R40 0x04): its last cell is the one that PKT_CELLS of
its first cell says. A cell that lands ahead of its packet's first one is left to the egress tile. -/
def State.spanCheck (s : State) (c : Cell) : Bool × State :=
  let k := cellFlow c
  let l := KMap.get [] s.pl.span k
  let put := fun (m : List (Nat × Nat)) => ({ s with pl := { s.pl with span := KMap.set [] s.pl.span k m } } : State)
  let last := (c.seq + c.pktCells + 65535) % 65536
  if c.sop then (c.eop == (last == c.seq), if c.eop then s else put ((c.seq, last) :: l.take 256))
  else match l.find? (fun x => decide (seqAhead c.seq x.1 ≤ seqAhead x.2 x.1)) with
    | none => (true, s)
    | some x => (c.eop == (c.seq == x.2), if c.eop then put (l.filter (· ≠ x)) else s)

/-! ### The egress tile: broadcasts, resequencer and transmission (R39, R40, R65, R68-R70, R74, R78) -/

/-- The oldest broadcast that port p still has to send, trigger and power-warning messages first (R78): slot and
message. -/
def State.nextBcast (s : State) (p : Nat) : Option (Nat × BSlot) :=
  let mine := s.pl.bslot.filterMap (fun e => match e.2 with
    | some b => if e.1 / 16 == tileOf p && b.ports.contains p then some (e.1, b) else none
    | none => none)
  let oldest := fun (l : List (Nat × BSlot)) => l.foldl (fun (m : Option (Nat × BSlot)) e =>
    match m with | none => some e | some d => if e.2.order < d.2.order then some e else some d) none
  match oldest (mine.filter (fun e => e.2.msg.code ≠ 2)) with
  | some e => some e
  | none => oldest mine

/-- Bytes of a broadcast's payload (R179, R180, R427). -/
def bcastBytes (code : Nat) : Nat := if code == 2 then 16 else 24

/-- What stands before the payload of a broadcast message (R178): a PCIe message with data, routed to the receiver (0x74), its
length in doublewords, vendor-defined Type 1 (0x7F), the vendor ID, and the code in the first byte of the vendor-defined header.
PRESUMED: the PCIe codes. -/
def vdmHeader (code : Nat) : List Nat := [0x74, bcastBytes code / 4, 0x7F, 0x1D7A, code]

/-- Port p transmits a broadcast copy, one cell of SYS in its counter (R228); the slot is released with its last reference
(R74). -/
def State.sendSlot (s : State) (p : Nat) (e : Nat × BSlot) : State :=
  (({ s with pl := { s.pl with bslot := KMap.upd none s.pl.bslot e.1 (BSlot.unref p) } } : State).addO (K.TX_SYS p)
    (16 + bcastBytes e.2.msg.code + s.c K.OVH)).emit .bcast p (vdmHeader e.2.msg.code ++ [e.2.msg.payload])

/-- Trigger and power-warning messages that wait at port p go ahead of a SYS cell (R78). -/
def State.sendUrgent (s : State) (p : Nat) : State :=
  (List.range 16).foldl (fun (s : State) _ => match s.nextBcast p with
    | some e => if e.2.msg.code ≠ 2 then s.sendSlot p e else s
    | none => s) s

/-- A released cell returns its credit. -/
def State.giveReorder (s : State) (c : Cell) : State :=
  if c.credit == 0 then s
  else
    let k := (c.credit - 1) / 2 * 4 + clsNum c.cls
    if c.credit % 2 == 1 then { s with pl := { s.pl with reorder := KMap.upd 0 s.pl.reorder k (· - 1) } }
    else { s with pl := { s.pl with reorderR := KMap.upd 0 s.pl.reorderR k (· - 1) } }

/-- A cell is released toward the flit builder of its port: the packet's length is checked (R40 0x04). A cell of a port whose link is
down is flushed (R75). -/
def State.release (s : State) (c : Cell) : State :=
  let s := s.giveReorder c
  if !s.linkUp c.egress then s.incO (K.FLUSHED_CELLS c.egress)
  else
    let r := s.packetCount 1 c
    if !r.1 then r.2.headerFault 1 4 c
    else
      let s := (if c.cls = .sys then r.2.sendUrgent c.egress else r.2).leavePort c.egress c
      if c.eop then s.carried c.req else s

/-- Release the held cells of flow k that follow in order, passing over discarded ones: at most `fuel` steps. -/
def State.releaseHeld (s : State) (k : Nat) : Nat → State
  | 0 => s
  | fuel + 1 =>
    let r := KMap.get {} s.pl.reseq k
    let put := fun (r : Reseq) => ({ s with pl := { s.pl with reseq := KMap.set {} s.pl.reseq k r } } : State)
    if r.gone.contains r.next then
      (put { r with next := (r.next + 1) % 65536, gone := r.gone.filter (· ≠ r.next) }).releaseHeld k fuel
    else match KMap.get none r.held r.next with
      | none => s
      | some c =>
        ((put { r with next := (r.next + 1) % 65536, held := KMap.set none r.held r.next none }).release c).releaseHeld k fuel

/-- Flow k goes on as far as its cells are there. -/
def State.releaseFlow (s : State) (k : Nat) : State :=
  let r := KMap.get {} s.pl.reseq k
  s.releaseHeld k (r.held.length + r.gone.length)

/-- A cell of a resequenced flow arrives (R68, R69). -/
def State.resequence (s : State) (c : Cell) : State :=
  let k := cellFlow c
  let r := KMap.get {} s.pl.reseq k
  let next := if r.live then r.next else c.seq
  let dist := seqAhead c.seq next
  let put := fun (r : Reseq) => ({ s with pl := { s.pl with reseq := KMap.set {} s.pl.reseq k r } } : State)
  if dist == 0 then ((put { r with live := true, next := (next + 1) % 65536 }).release c).releaseFlow k
  else if dist ≤ 32767 then put { r with live := true, next := next, held := KMap.set none r.held c.seq (some c) }
  else (s.headerFault 1 6 c).giveReorder c

/-- A cell arrives at the egress tile: checked again (R39, R40), resequenced when it carries RESEQ (R66). -/
def State.arriveEgress (s : State) (c : Cell) : State :=
  if s.isDropping 1 c then ((s.dropRest 1 c).giveReorder c).releaseFlow (cellFlow c)
  else match s.headerFails c false with
    | some syn => ((s.headerFault 1 syn c).giveReorder c).releaseFlow (cellFlow c)
    | none =>
      if c.reseq then s.resequence c
      else
        let k := cellFlow c
        let r := KMap.get {} s.pl.reseq k
        let r' : Reseq := { r with live := true, next := (c.seq + 1) % 65536,
                                   gone := r.gone.filter (fun q => decide (seqAhead q (c.seq + 1) ≤ 32767)) }
        (({ s with pl := { s.pl with reseq := KMap.set {} s.pl.reseq k r' } } : State).release c).releaseFlow k

/-! ### Landing (R40, R41) -/

/-- A cell of a VOQ has left the landing store: its place counts no more (R41), its credit returns (R317). -/
def State.landingLeft (s : State) (i : Nat) (c : Cell) : State :=
  let s : State := { s with pl := { s.pl with fwd := KMap.upd 0 s.pl.fwd (voqKey i c.egress c.cls) (· - 1) } }
  if c.cls = .sys then s else s.poolLeave (i / 24) 0 (poolOf (i % 24) c.cls)

/-- A cell is discarded at the landing store of input i, and its flow goes on (R40). -/
def State.unland (s : State) (i : Nat) (c : Cell) : State := (s.landingLeft i c).releaseFlow (cellFlow c)

/-- A cell arrives at the landing store of input i: checked (R39, R40), charged by a shaper (R219), counted by its flow
(R209). A cell for a port whose link is down is flushed (R75). -/
def State.land (s : State) (i : Nat) (c : Cell) : State :=
  let inj := s.injFire 528 0
  let e := inj.2.ecc 573 0 1 2 2
  let s := e.2
  if s.isDropping 0 c then (s.dropRest 0 c).unland i c
  else if e.1 then (s.discardCell 0 c).unland i c
  else match s.headerFails c (inj.1 ≠ 0) with
    | some syn => (s.headerFault 0 syn c).unland i c
    | none =>
      let r := if c.reseq || s.ganged c.source then s.spanCheck c else s.packetCount 0 c
      if !r.1 then (r.2.headerFault 0 4 c).unland i c
      else if !s.linkUp c.egress then (r.2.incO (K.FLUSHED_CELLS c.egress)).landingLeft i c
      else
        let m := r.2.shaperCharge i c
        let s : State := { m.2 with pl := { m.2.pl with landing := KMap.upd [] m.2.pl.landing (i * 4 + clsNum c.cls) (· ++ [m.1]) } }
        s.joinFlow c.egress c.cls c.source m.1

/-- An uncorrectable error of the cell buffer at cell c: it and its packet's later cells leave the VOQs, and its request ends (R40,
R442). -/
def State.losePacket (s : State) (c : Cell) : State :=
  let mine := fun (d : Cell) => d.req == c.req && d.source == c.source && seqAhead d.seq c.seq ≤ 32767
  let gone := s.pl.voq.flatMap (fun e => e.2.filter mine)
  let s : State := { s with pl := { s.pl with voq := KMap.mapVals [] (fun _ l => l.filter (fun d => !mine d)) s.pl.voq } }
  ((gone.foldl State.loseSeq s).addO K.HDR_ERRORS gone.length).killRequest (s.requestOf c.req)

/-- The head of a VOQ goes onto its seam (R41). An uncorrectable error of the cell buffer discards its packet as R40 does
(R442). -/
def State.forwardVoq (s : State) (i q : Nat) (cls : Cls) : State :=
  match s.voq i q cls with
  | [] => s
  | c :: rest =>
    let k := voqKey i q cls
    let r := s.ecc (578 + i / 24) 0 1 2 2
    if r.1 then (r.2.losePacket c).releaseFlow (cellFlow c)
    else
    let s := r.2
    let s : State := { s with pl := { s.pl with voq := KMap.set [] s.pl.voq k rest, fwd := KMap.upd 0 s.pl.fwd k (· + 1) } }
    let it : Item := { cell := c, dest := i % 24 }
    if cls = .sys then s.updTiming (i / 24) 0 (fun x => { x with ready := x.ready ++ [.sys it] })
    else s.seamSend (i / 24) 0 (poolOf (i % 24) cls) it

/-- TILE_FORWARD_TO_LANDING (R41): the port's window requests go to the crown's intake; of its VOQs, SYS ones come first, then the
(port, class) pointer. -/
def execTileForwardToLanding (i : PortIx) (s : State) : Host.Outcome State Fault Refusal :=
  if s.tileHeld (tileOf i) then .next s
  else
    let s := s.pushCrown i (KMap.get [] s.pl.toCrown i.val).length
    let setPtr := fun (s : State) (j v : Nat) => ({ s with pl := { s.pl with fwdPtr := KMap.set 0 s.pl.fwdPtr (i.val * 4 + j) v } } : State)
    match firstFrom 96 (KMap.get 0 s.pl.fwdPtr (i.val * 4)) (s.forwardableSys i) with
    | some q => .next (setPtr (s.forwardVoq i q .sys) 0 ((q + 1) % 96))
    | none =>
      match firstFrom 288 (KMap.get 0 s.pl.fwdPtr (i.val * 4 + 1)) (s.forwardable i) with
      | some n => .next (setPtr (s.forwardVoq i (n / 3) (clsOf (n % 3 + 1))) 1 ((n + 1) % 288))
      | none => .next s

/-- The oldest landed cell of VOQ (i, q, class). -/
def State.oldestLanded (s : State) (i q : Nat) (cls : Cls) : Option Cell :=
  (KMap.get [] s.pl.landing (i * 4 + clsNum cls)).find? (·.egress == q)

/-- Remove the oldest landed cell of VOQ (i, q, class). -/
def dropFirst (q : Nat) : List Cell → List Cell
  | [] => []
  | c :: cs => if c.egress == q then cs else c :: dropFirst q cs

/-! ### Resequencing (R66, R68) -/

/-- Cells of a flow that have not been granted: in VOQs, landed, or on a seam. -/
def State.ungranted (s : State) (k : Nat) : List Cell :=
  let mine := fun (c : Cell) => cellFlow c == k
  (s.pl.voq.flatMap (fun e => e.2.filter mine)) ++ (s.pl.landing.flatMap (fun e => e.2.filter mine))
    ++ (s.seams.dir.flatMap (fun e => if e.1 % 2 == 0 then
        ((e.2.ready ++ e.2.replay.flatMap (·.items)).map (·.cell)).filter mine else []))

/-- A cell of this flow must be resequenced (R66). -/
def State.mustReseq (s : State) (c : Cell) (fulling : Bool) : Bool :=
  fulling || c.reseq || decide (0x7C ≤ c.source) || s.ganged c.source || s.ganged c.egress

/-- Reorder credit that a cell may take at output o (R68): none needed 0, general 1, reserved 2. -/
def State.reorderCredit (s : State) (o : Nat) (c : Cell) (fulling : Bool) : Option Nat :=
  if !s.mustReseq c fulling then some 0
  else
    let k := o * 4 + clsNum c.cls
    if KMap.get 0 s.pl.reorder k < 224 then some 1
    else if KMap.get 0 s.pl.reorderR k < 32 && (match lowestSeq (s.ungranted (cellFlow c)) with
        | some l => l.seq == c.seq | none => true) then some 2
    else none

/-- The cell with the credit it takes; RESEQ changes the HCRC. -/
def State.takeReorder (s : State) (o : Nat) (c : Cell) (r : Nat) : Cell × State :=
  let k := o * 4 + clsNum c.cls
  if r == 0 then (c, s)
  else
    let c := cellSeal { c with reseq := true, credit := 2 * o + r }
    if r == 1 then (c, { s with pl := { s.pl with reorder := KMap.upd 0 s.pl.reorder k (· + 1) } })
    else (c, ({ s with pl := { s.pl with reorderR := KMap.upd 0 s.pl.reorderR k (· + 1) } } : State).incO K.RESEQ_RESERVED_USES)

/-- The oldest landed cell of VOQ (i, lead o, class) leaves the landing store for output o, with its credit taken and
its flow charged. -/
def State.takeLanded (s : State) (i o : Nat) (cls : Cls) (fulling : Bool) : Option (Cell × State) :=
  let q := s.lead o
  match s.oldestLanded i q cls with
  | none => none
  | some c =>
    match s.reorderCredit o c fulling with
    | none => none
    | some r =>
      let s : State := { s with pl := { s.pl with landing := KMap.upd [] s.pl.landing (i * 4 + clsNum cls) (dropFirst q) } }
      let s := (s.landingLeft i c).chargeFlow q cls c.source c
      some (s.takeReorder o { c with committed := false } r)

/-! ### Carding mode (R52-R56) -/

/-- A transfer of a slot: input, output, class. -/
structure Xfer where
  i   : Nat
  o   : Nat
  cls : Cls
deriving DecidableEq, Repr, Inhabited

/-- Requests of the slot (R52 stage 1). -/
def State.requests (s : State) : List Xfer :=
  s.pl.landing.flatMap (fun e =>
    let i := e.1 / 4
    let cls := clsOf (e.1 % 4)
    ((e.2.map (·.egress)).eraseDups).flatMap (fun q => (s.members q).filterMap (fun o =>
      match s.oldestLanded i q cls with
      | none => none
      | some c => if s.eroom o cls && (s.reorderCredit o c false).isSome then some { i := i, o := o, cls := cls } else none)))

/-- A class has landed cells for egress port q. -/
def State.anyLanded (s : State) (q : Nat) (cls : Cls) : Bool :=
  s.pl.landing.any (fun e => e.1 % 4 == clsNum cls && e.2.any (fun c => c.egress == q))

/-- Class hint of output o (R214): of the classes with landed or queued cells. -/
def State.hint (s : State) (o : Nat) : Cls :=
  let q := s.lead o
  let tag := fun (cls : Cls) =>
    if s.queuedAt q cls ≠ 0 then some (KMap.get {} (s.clsLevel q).flows (clsNum cls)).finish
    else match if s.anyLanded q cls then s.nextFlow q cls (fun _ => true) else none with
      | none => none
      | some f => (s.headOf q cls f).map (fun c => s.classFinish q cls (s.metered c))
  let best := [Cls.coh, .bulk, .view].foldl (fun (m : Option (Cls × Nat)) cls =>
    if !s.eroom o cls then m
    else match tag cls, m with
      | none, _ => m
      | some t, none => some (cls, t)
      | some t, some (d, u) => if below t u then some (cls, t) else some (d, u)) none
  match best with
  | some (cls, _) => cls
  | none => .bulk

/-- COH, BULK and VIEW from a class on, cyclically. -/
def classesFrom : Cls → List Cls
  | .bulk => [.bulk, .view, .coh]
  | .view => [.view, .coh, .bulk]
  | _ => [.coh, .bulk, .view]

/-- elig(o, c)[i] (R211): the flow of the head landed cell is eligible. -/
def State.elig (s : State) (x : Xfer) : Bool :=
  x.cls = .sys || (match s.oldestLanded x.i (s.lead x.o) x.cls with
    | some c => s.eligible (s.lead x.o) x.cls c.source
    | none => false)

/-- The grant of an unmatched output (R52): SYS, else the first class from the hint on with an eligible request, else
with any request; the first input at or after the pointer. -/
def State.grant (s : State) (gptr : KMap Nat) (rs : List Xfer) (o : Nat) : Option Xfer :=
  let mine := rs.filter (·.o == o)
  let el := mine.filter s.elig
  let pick := fun (l : List Xfer) => (if mine.any (·.cls = .sys) then [Cls.sys] else classesFrom (s.hint o)).find?
    (fun c => l.any (·.cls = c))
  match (match pick el with | some c => some (c, el) | none => (pick mine).map (fun c => (c, mine))) with
  | none => none
  | some (c, l) =>
    (firstFrom 96 (KMap.get 0 gptr (o * 4 + clsNum c)) ((l.filter (·.cls = c)).map (·.i))).map (fun i => { i := i, o := o, cls := c })

/-- The accept of an input over its grants (R52): SYS, else the class whose first granting output is nearest its
pointer. -/
def acceptOf (aptr : KMap Nat) (i : Nat) (gs : List Xfer) : Option Xfer :=
  let first := fun (c : Cls) => firstFrom 96 (KMap.get 0 aptr (i * 4 + clsNum c)) ((gs.filter (·.cls = c)).map (·.o))
  match first .sys with
  | some o => some { i := i, o := o, cls := .sys }
  | none =>
    let best := [Cls.coh, .bulk, .view].foldl (fun (m : Option (Xfer × Nat)) c =>
      match first c, m with
      | none, _ => m
      | some o, none => some ({ i := i, o := o, cls := c }, (o + 96 - KMap.get 0 aptr (i * 4 + clsNum c)) % 96)
      | some o, some (x, d) =>
        let e := (o + 96 - KMap.get 0 aptr (i * 4 + clsNum c)) % 96
        if e < d then some ({ i := i, o := o, cls := c }, e) else some (x, d)) none
    best.map (·.1)

/-- One iteration: grants over the unmatched, then accepts. -/
def State.iteration (s : State) (rs : List Xfer) (done : List Xfer) : List Xfer :=
  let rs := rs.filter (fun r => !done.any (fun d => d.i == r.i || d.o == r.o))
  let gs := ((rs.map (·.o)).eraseDups).filterMap (s.grant s.pl.gptr rs)
  ((gs.map (·.i)).eraseDups).filterMap (fun i => acceptOf s.pl.aptr i (gs.filter (·.i == i)))

/-- Advance the pointers of a first-iteration accept (R53). -/
def State.advancePtrs (s : State) (x : Xfer) : State :=
  { s with pl := { s.pl with gptr := KMap.set 0 s.pl.gptr (x.o * 4 + clsNum x.cls) ((x.i + 1) % 96),
                             aptr := KMap.set 0 s.pl.aptr (x.i * 4 + clsNum x.cls) ((x.o + 1) % 96) } }

/-- The matching of a slot, with the pointers moved by its first iteration (R52-R54). -/
def State.matching (s : State) : List Xfer × State :=
  let rs := s.requests
  let m1 := s.iteration rs []
  let m2 := m1 ++ s.iteration rs m1
  let m3 := m2 ++ s.iteration rs m2
  (m3, m1.foldl State.advancePtrs s)

/-- A granted cell crosses the plank (R52). -/
def State.crossPlank (s : State) (x : Xfer) : State :=
  if !s.eroom x.o x.cls then s
  else match s.takeLanded x.i x.o x.cls false with
    | none => s
    | some (c, s) => s.enqueue x.o c

/-- Two transfers of the slot name the same input or output as x. -/
def conflicts (l : List Xfer) (x : Xfer) : Bool :=
  decide (1 < (l.filter (·.i == x.i)).length) || decide (1 < (l.filter (·.o == x.o)).length)

/-- The grant-conflict checker fires (R56). -/
def State.conflictFires (s : State) : State :=
  let s : State := { s with pl := { s.pl with conflict := true, conflictAt := s.now } }
  ((s.incO K.GRANT_CONFLICTS).raise 528 2 7 false { master := 0x80 }).enterFulling 3

/-- CARDING_MATCH_SLOT (R52-R56): one slot; `extra` are transfers that a faulty matcher adds to its own. DESIGN CHOICE: pointers
that the slot's first iteration moved stay moved when the checker cancels a transfer: R56 undoes its grant only. -/
def execCardingMatchSlot (extra : List (PortIx × PortIx × Cls)) (s : State) : Host.Outcome State Fault Refusal :=
  if s.o K.PLANK_MODE ≠ 1 || s.hubHeld then .next s
  else
    let inj := s.injFire 528 1
    let m := inj.2.matching
    let extra : List Xfer := extra.map (fun e => { i := e.1.val, o := e.2.1.val, cls := e.2.2 })
    let bad := if inj.1 ≠ 0 then m.1.take 1 else []
    let all := m.1 ++ extra ++ bad
    let s := (all.filter (fun x => !conflicts all x)).foldl State.crossPlank m.2
    .next (if all.any (conflicts all) || inj.1 ≠ 0 then s.conflictFires else s)

/-! ### Fulling mode (R57-R59) -/

/-- Key of slot (k, o, class) of the fulling store. -/
def fullKey (k o : Nat) (cls : Cls) : Nat := (k * 96 + o) * 4 + clsNum cls

/-- Numbers (output * 3 + class) of the landed cells of input i that may go to intermediate k, for the classes of
`sys` or the others (R58). -/
def State.stage1Choices (s : State) (i k : Nat) (sys : Bool) : List Nat :=
  (if sys then [Cls.sys] else [Cls.coh, .bulk, .view]).flatMap (fun cls =>
    (((KMap.get [] s.pl.landing (i * 4 + clsNum cls)).map (·.egress)).eraseDups).flatMap (fun q =>
      (s.members q).filterMap (fun o =>
        match s.oldestLanded i q cls with
        | none => none
        | some c =>
          if KMap.get none s.pl.full (fullKey k o cls) = none && (s.reorderCredit o c true).isSome then
            some (if sys then o else o * 3 + (clsNum cls - 1)) else none)))

/-- Input i sends landed cell (o, class) to intermediate k. -/
def State.toIntermediate (s : State) (i k o : Nat) (cls : Cls) : State :=
  match s.takeLanded i o cls true with
  | none => s
  | some (c, s) => { s with pl := { s.pl with full := KMap.set none s.pl.full (fullKey k o cls) (some c) } }

/-- Stage 1 of one input (R58). -/
def State.stage1 (s : State) (i : Nat) : State :=
  let k := (i + s.pl.pair) % 96
  let setPtr := fun (s : State) (j v : Nat) => ({ s with pl := { s.pl with inPtr := KMap.set 0 s.pl.inPtr (i * 2 + j) v } } : State)
  match firstFrom 96 (KMap.get 0 s.pl.inPtr (i * 2)) (s.stage1Choices i k true) with
  | some o => setPtr (s.toIntermediate i k o .sys) 0 ((o + 1) % 96)
  | none =>
    match firstFrom 288 (KMap.get 0 s.pl.inPtr (i * 2 + 1)) (s.stage1Choices i k false) with
    | some n => setPtr (s.toIntermediate i k (n / 3) (clsOf (n % 3 + 1))) 1 ((n + 1) % 288)
    | none => s

/-- FULLING_STAGE_1 (R57, R58): every input meets its intermediate of the pair. -/
def execFullingStage1 (s : State) : Host.Outcome State Fault Refusal :=
  if s.o K.PLANK_MODE ≠ 0 || s.hubHeld then .next s else .next ((List.range 96).foldl State.stage1 s)

/-- Stage 2 of one intermediate (R59); a class whose egress queue is full is passed over. -/
def State.stage2 (s : State) (k : Nat) : State :=
  let o := (k + s.pl.pair) % 96
  let ready := fun (cls : Cls) => (KMap.get none s.pl.full (fullKey k o cls)).isSome && s.eroom o cls
  let send := fun (s : State) (cls : Cls) =>
    match KMap.get none s.pl.full (fullKey k o cls) with
    | none => s
    | some c => ({ s with pl := { s.pl with full := KMap.set none s.pl.full (fullKey k o cls) none } } : State).enqueue o c
  if ready .sys then send s .sys
  else
    match firstFrom 3 (KMap.get 0 s.pl.outPtr (k * 96 + o)) ((List.range 3).filter (fun j => ready (clsOf (j + 1)))) with
    | none => s
    | some j =>
      let s := send s (clsOf (j + 1))
      { s with pl := { s.pl with outPtr := KMap.set 0 s.pl.outPtr (k * 96 + o) ((j + 1) % 3) } }

/-- FULLING_STAGE_2 (R57, R59): every intermediate meets its output; the pair counter advances. It goes on while the
plank drains toward carding (R61). -/
def execFullingStage2 (s : State) : Host.Outcome State Fault Refusal :=
  if s.o K.PLANK_MODE == 1 || s.hubHeld then .next s
  else
    let s := (List.range 96).foldl State.stage2 s
    .next { s with pl := { s.pl with pair := (s.pl.pair + 1) % 96 } }

/-! ### Changing mode (R61-R63) -/

/-- START_DRAIN_TO_CARDING (R61): at a tick boundary where the three conditions hold, stage 1 stops. -/
def execStartDrainToCarding (s : State) : Host.Outcome State Fault Refusal :=
  if s.hubHeld || s.o K.PLANK_MODE ≠ 0 || !s.seamsOk || s.o K.MATCH_SELFTEST ≠ 2 || s.cB K.FORCE_FULLING then .next s
  else .next (s.setO K.PLANK_MODE 2)

/-- CARDING_START (R61): the first tick boundary after the fulling store has emptied. -/
def execCardingStart (s : State) : Host.Outcome State Fault Refusal :=
  if s.hubHeld || s.o K.PLANK_MODE ≠ 2 || !s.pl.full.isEmpty then .next s
  else
    let s := if s.o K.START_PHASE == 3 then s.setO K.START_PHASE 4 else s
    .next ((s.setO K.PLANK_MODE 1).updCoreReady.updPortsReady)

/-- MATCHER_SELFTEST_DONE (R62). -/
def execMatcherSelftestDone (pass : Bool) (s : State) : Host.Outcome State Fault Refusal :=
  if s.hubHeld || s.o K.MATCH_SELFTEST ≠ 1 then .next s
  else if pass then .next (s.setO K.MATCH_SELFTEST 2)
  else .next ((s.setO K.MATCH_SELFTEST 3).raise 528 2 8 false { master := 0x80 })

/-! ### The agent merge (R42, R212) -/

/-- The first output of a port with room in a class. -/
def State.outputWithRoom (s : State) (q : Nat) (cls : Cls) : Option Nat := (s.members q).find? (fun o => s.eroom o cls)

/-- Remove the first waiting cell of a flow. -/
def dropFlow (f : Nat) : List MergeCell → List MergeCell
  | [] => []
  | m :: ms => if m.flow == f then ms else m :: dropFlow f ms

/-- Admit the head cell of agent flow f at (q, class) to an egress queue: it takes its SEQ here. DESIGN CHOICE: a cell for a ganged
port, which is resequenced (R66), takes its reorder credit here, as a plank cell does at its grant, and waits while there is none:
R68 speaks of grants and stage-1 transfers only. -/
def State.admitAgent (s : State) (q o : Nat) (cls : Cls) (f : Nat) (c : Cell) : State :=
  match s.reorderCredit o c false with
  | none => s
  | some cr =>
    let s : State := { s with pl := { s.pl with merge := KMap.upd [] s.pl.merge (q * 4 + clsNum cls) (dropFlow f) } }
    let s := s.chargeFlow q cls f c
    let r := s.takeSeq (flowKey c.source q (clsNum cls))
    let t := r.2.takeReorder o { c with seq := r.1 } cr
    t.2.enqueue o (cellSeal t.1)

/-- AGENT_MERGE_ADMIT (R42, R212): SYS cells in the order they were presented; else the eligible agent flow with the
smallest F, else the backlogged one with the smallest S. -/
def execAgentMergeAdmit (p : PortIx) (cls : Cls) (s : State) : Host.Outcome State Fault Refusal :=
  if s.hubHeld then .next s
  else match s.outputWithRoom p cls with
    | none => .next s
    | some o =>
      let waiting := KMap.get [] s.pl.merge (p.val * 4 + clsNum cls)
      if cls = .sys then
        match waiting with
        | [] => .next s
        | m :: _ => .next (s.admitAgent p o cls m.flow m.cell)
      else match s.nextFlow p cls (fun f => !plankFlow f) with
        | none => .next s
        | some f =>
          match waiting.find? (·.flow == f) with
          | none => .next s
          | some m => .next (s.admitAgent p o cls f m.cell)

/-! ### The egress pick (R72, R74, R78, R213) -/

/-- The output of port q whose queue of a class is not empty and whose staging has a credit. -/
def State.outputToPick (s : State) (q : Nat) (cls : Cls) : Option Nat :=
  (s.members q).find? (fun o => !(s.equeue o cls).isEmpty &&
    (if cls = .sys then decide (timingWaits (s.timing (o / 24) 1) (o % 24) < 8)
     else decide (0 < s.creditsHeld (o / 24) 1 (poolOf (o % 24) cls))))

/-- Count metered bytes sent (R228). -/
def State.countTx (s : State) (q : Nat) (c : Cell) : State :=
  match c.cls with
  | .sys => s.addO (K.TX_SYS q) (s.metered c)
  | .coh => s.addO (K.TX_COH q) (s.metered c)
  | .bulk => s.addO (K.TX_BULK q) (s.metered c)
  | .view => s.addO (K.TX_VIEW q) (s.metered c)

/-- The head cell of output o's queue of a class goes down the seam; a multicast pointer becomes a unicast cell and gives
up its reference (R72, R308). -/
def State.dequeue (s : State) (q o : Nat) (cls : Cls) : State :=
  match s.equeue o cls with
  | [] => s
  | c :: rest =>
    let real := s.realCell q c
    let s : State := { s with pl := { s.pl with egress := KMap.set [] s.pl.egress (o * 4 + clsNum cls) rest,
                                                mcast := if c.mcast then KMap.upd none s.pl.mcast c.mcidx McSlot.unref else s.pl.mcast } }
    let s := s.countTx q real
    let it : Item := { cell := real, dest := o % 24 }
    if cls = .sys then s.updTiming (o / 24) 1 (fun x => { x with ready := x.ready ++ [.sys it] })
    else s.seamSend (o / 24) 1 (poolOf (o % 24) cls) it

/-- The class level after a cell of class `cls` was taken (R213). -/
def State.afterPick (s : State) (q : Nat) (cls : Cls) : State :=
  let x := s.clsLevel q
  let cf := (KMap.get {} x.flows (clsNum cls)).finish
  let s : State := { s with pl := { s.pl with cls := KMap.set {} s.pl.cls q { x with v := cf } } }
  match ((s.members q).flatMap (fun o => s.equeue o cls)).head? with
  | none => s
  | some c => s.setClassFinish q cls ((cf + ceilDiv (s.metered (s.realCell q c) * 256) (s.classWeight q cls)) % 2 ^ 32)

/-- The non-SYS class to send next: smallest CF among those with a cell and a staging credit; ties COH, BULK, VIEW. -/
def State.pickClass (s : State) (q : Nat) : Option Cls :=
  let x := s.clsLevel q
  ([Cls.coh, .bulk, .view].foldl (fun (m : Option (Cls × Nat)) cls =>
    if (s.outputToPick q cls).isNone then m
    else
      let t := (KMap.get {} x.flows (clsNum cls)).finish
      match m with
      | none => some (cls, t)
      | some (d, u) => if below t u then some (cls, t) else some (d, u)) none).map (·.1)

/-- EGRESS_CLASS_PICK (R213, R74, R78): a tile broadcast first, then SYS, then the class with the smallest finish
tag. -/
def execEgressClassPick (p : PortIx) (s : State) : Host.Outcome State Fault Refusal :=
  if s.hubHeld || !s.linkUp p then .next s
  else
  let s := s.freshTokens
  match s.nextBcast p with
    | some e => .next (s.sendSlot p e)
    | none =>
      match s.outputToPick p .sys with
      | some o => .next (s.dequeue p o .sys)
      | none =>
        match s.pickClass p with
        | none => .next s
        | some cls =>
          match s.outputToPick p cls with
          | none => .next s
          | some o => .next ((s.dequeue p o cls).afterPick p cls)

end Sys2Proof.Machine
end

