-- ==== Sys2Proof/Machine/Route.lean ====
section
/-!
DEFINITION. Where an address goes: HDM decoders, bridge windows, apertures, extents (R131, R241-R246, R347, R366), and
which ranges of a pool target are taken (R82, R250, R377).
-/
namespace Sys2Proof.Machine

/-! ### Memory targets and their ranges -/

/-- Bytes of a GiB. -/
def gibBytes : Nat := 2 ^ 30

/-- Pool target m in READY or IN_USE: it counts as bound (R240). -/
def State.poolBound (s : State) (m : Nat) : Bool :=
  match s.targetPort m with
  | none => false
  | some p => s.o (K.POOL p) == 1 && s.o (K.AGENT_KIND p) == 2 && (s.o (K.PORT_STATE p) == 2 || s.o (K.PORT_STATE p) == 3)

/-- Capacity of target m in GiB. -/
def State.capGiB (s : State) (m : Nat) : Nat :=
  match s.targetPort m with
  | none => 0
  | some p => (s.port p).capGiB

/-- Two ranges (start, length) rangesMeet. -/
def rangesMeet (a b : Nat × Nat) : Bool := decide (a.1 < b.1 + b.2) && decide (b.1 < a.1 + a.2)

/-- Bytes of target m's colour-tag region: one byte for two granules, rounded up to 4 KiB (R377). -/
def State.tagBytes (s : State) (m : Nat) : Nat := (s.capGiB m * 131072 + 4095) / 4096 * 4096

/-- Colour-tag region of target m in a generation. -/
def State.tagRegion (s : State) (g : KMap Nat) (m : Nat) : List (Nat × Nat) :=
  if cfgOf g (K.TAG_ENABLE m) == 1 then [(cfgOf g (K.TAG_OFFSET m), s.tagBytes m)] else []

/-- Window data and directory regions of window w in a generation: target, start, length (R81). -/
def winRegions (g : KMap Nat) (w : Nat) : List (Nat × Nat × Nat) :=
  if cfgOf g (K.WIN_ENABLE w) ≠ 1 then []
  else
    let n := cfgOf g (K.WIN_SIZE w)
    let pr := cfgOf g (K.PRIMARY_TARGET w)
    let mi := cfgOf g (K.MIRROR_TARGET w)
    [(pr, cfgOf g (K.PRIMARY_OFFSET w), n), (pr, cfgOf g (K.DIR_OFFSET w), n / 16)]
      ++ (if cfgOf g (K.MIRROR w) == 1 then
            [(mi, cfgOf g (K.MIRROR_OFFSET w), n), (mi, cfgOf g (K.MIRROR_DIR_OFFSET w), n / 16)] else [])

/-- Window data and directories on target m in a generation. -/
def winRangesOn (g : KMap Nat) (m : Nat) : List (Nat × Nat) :=
  (List.range 16).flatMap (fun w => ((winRegions g w).filter (fun r => r.1 == m)).map (·.2))

/-- Shadow region of window w in a generation (R193). -/
def shadowOf (g : KMap Nat) (w : Nat) : Nat × Nat × Nat :=
  (cfgOf g (K.FRZ_SHADOW_TARGET w), cfgOf g (K.FRZ_SHADOW_OFFSET w), cfgOf g (K.WIN_SIZE w))

/-- Shadows on target m of freezes whose state meets a condition. -/
def State.shadowsOn (s : State) (m : Nat) (f : Nat → Bool) : List (Nat × Nat) :=
  ((List.range 16).filter (fun w => f (s.o (K.FRZ_STATE w)) && (shadowOf s.gen.active w).1 == m)).map
    (fun w => (shadowOf s.gen.active w).2)

/-- GiBs of target m that extents hold, with the destinations of moves. -/
def State.extentGibs (s : State) (m : Nat) : List Nat :=
  s.fab.extents.flatMap (fun x => (if x.target == m then [x.tgtGib] else [])
    ++ (match x.moveTo with | some (t, g) => if t == m then [g] else [] | none => []))

/-- Ranges of target m that an extent may not touch (R82 reason 0x05, R247 reason 0x05): windows, tags, shadows of freezes
that are not IDLE. -/
def State.ownRanges (s : State) (m : Nat) : List (Nat × Nat) :=
  winRangesOn s.gen.active m ++ s.tagRegion s.gen.active m ++ s.shadowsOn m (· ≠ 0)

/-- Every range of target m in use. -/
def State.usedRanges (s : State) (m : Nat) : List (Nat × Nat) :=
  s.ownRanges m ++ (s.extentGibs m).map (fun g => (g * gibBytes, gibBytes))

/-- GiB g of target m is in the free set (R250). -/
def State.gibFree (s : State) (m g : Nat) : Bool :=
  s.poolBound m && decide (g < s.capGiB m) && !(s.usedRanges m).any (rangesMeet (g * gibBytes, gibBytes))

/-- Free GiBs of target m, lowest first. -/
def State.freeGibs (s : State) (m : Nat) : List Nat := (List.range (s.capGiB m)).filter (s.gibFree m)

/-- EXTENTS_FREE (R250). -/
def State.extentsFree (s : State) : Nat := ((List.range 64).map (fun m => (s.freeGibs m).length)).sum

/-! ### Destinations -/

/-- Where a request goes (R242, R243). -/
inductive Dest where
  /-- the fence aperture, at an offset -/
  | fence (off : Nat)
  /-- the doorbell page of a slice -/
  | portal (sl off : Nat)
  /-- a ring's feed aperture -/
  | feed (sl : Nat)
  /-- BAR 0 of the management function, at an offset -/
  | mgmt (off : Nat)
  /-- the MSI-X table of a function of the upstream port, at an offset -/
  | msix (fn off : Nat)
  /-- line of a shared window -/
  | window (w line : Nat)
  /-- an extent on a pool target -/
  | pool (m dpa : Nat)
  /-- what is bound at a vPPB: port, LD, VCS and vPPB -/
  | bound (port ld n v : Nat)
  /-- the host of VCS n -/
  | host (n : Nat)
  /-- answered by R245 -/
  | miss
deriving DecidableEq, Repr, Inhabited

/-- An HDM decoder: 0-31 the upstream port's, 32-47 a window LD's own, 48 the capacity LD's own (R241, R244). -/
def State.hdm (s : State) (n ix : Nat) : Hdm := KMap.get {} s.fab.hdm (n * 64 + ix)

/-- The decoder covers the address. -/
def Hdm.covers (d : Hdm) (a : Nat) : Bool := d.committed && decide (d.set.base ≤ a) && decide (a < d.set.base + d.set.size)

/-- The binding at a vPPB as a destination: none, LOST, MISMATCH or a port whose link is down is answered by R245. -/
def State.boundDest (s : State) (n v : Nat) : Dest :=
  match s.binding n v with
  | none => .miss
  | some (_, p, ld) => if s.linkUp p && !(s.vppb n v).linkDis && (s.o (K.PORT_STATE p) == 3 || s.o (K.PORT_STATE p) == 4) then .bound p ld n v else .miss

/-- Bytes of the DPA space of the device's own LD at vPPB v: a window's size, or the dynamic-capacity region (R79, R244, R246). -/
def State.ldSize (s : State) (v : Nat) : Nat := if v < 48 then s.c (K.WIN_SIZE (v - 32)) else 512 * gibBytes

/-- DPA of an address at a device-presented LD, within its DPA space (R244). DEDUCED: the decoder has no DPA skip, so its base is DPA
0. -/
def State.ldDpa (s : State) (n v a : Nat) : Option Nat :=
  let d := s.hdm n v
  if d.covers a && a - d.set.base < s.ldSize v then some (a - d.set.base) else none

/-- The extent that maps a DPA of VCS n's capacity LD. -/
def State.extentAt (s : State) (n dpa : Nat) : Option Extent :=
  s.fab.extents.find? (fun x => x.vcs == n && x.dpa == dpa / gibBytes && (x.state = .mapped || x.state = .releasing))

/-- Place of an offset in an extent: behind the watermark it has moved (R364). -/
def Extent.place (x : Extent) (off : Nat) : Nat × Nat :=
  match x.moveTo with
  | some (t, g) => if off / 4096 < x.mark then (t, g * gibBytes + off) else (x.target, x.tgtGib * gibBytes + off)
  | none => (x.target, x.tgtGib * gibBytes + off)

/-- Destination of a DPA of the capacity LD. -/
def State.capacityDest (s : State) (n dpa : Nat) : Dest :=
  match s.extentAt n dpa with
  | none => .miss
  | some x =>
    let r := x.place (dpa % gibBytes)
    if s.poolBound r.1 then .pool r.1 r.2 else .miss

/-- Window w is presented to host n and takes requests. DESIGN CHOICE: a window that is DISABLED or INITIALISING answers
by R245. -/
def State.windowOpen (s : State) (w n : Nat) : Bool :=
  s.cB (K.WIN_ENABLE w) && bit (s.c (K.HOSTS w)) n && decide (2 ≤ s.o (K.STATE w))

/-- CXL.mem decode of an address in VCS n (R242, R244): none when no decoder matches. -/
def State.hdmDest (s : State) (n a : Nat) : Option Dest :=
  match (List.range 32).find? (fun ix => (s.hdm n ix).covers a) with
  | none => none
  | some ix =>
    let d := (s.hdm n ix).set
    let v := (d.targets[a / max 1 d.granularity % max 1 d.ways]?).getD 63
    some (
      if v < 32 then s.boundDest n v
      else if v < 48 then
        (if s.windowOpen (v - 32) n then
          match s.ldDpa n v a with
          | some dpa => .window (v - 32) (dpa / 64)
          | none => .miss
         else .miss)
      else match s.ldDpa n v a with
        | some dpa => s.capacityDest n dpa
        | none => .miss)

/-- Fence aperture of VCS n (R131). -/
def State.fenceRange (s : State) (n : Nat) : Nat × Nat := (s.c (K.FENCE_BASE n), if s.cB (K.FENCE_ENABLE n) then 4096 else 0)

/-- Doorbell pages of VCS n (R347). -/
def State.portalRange (s : State) (n : Nat) : Nat × Nat :=
  let b := KMap.get 0 s.fab.bar2 n
  (b, if b == 0 then 0 else 2 ^ 23)

/-- BAR 0 of the management function of VCS n (R458); empty where it is not placed. -/
def State.mgmtRange (s : State) (n : Nat) : Nat × Nat :=
  let b := (KMap.get {} s.fab.usp n).bar0
  (b, if b == 0 then 0 else 2 ^ 17)

/-- The BAR that holds the MSI-X table of a function (R458, R461); empty where it is not placed. -/
def State.tableRange (s : State) (n fn : Nat) : Nat × Nat :=
  let u := KMap.get {} s.fab.usp n
  let b := if fn == 0 then u.tableBar0 else u.tableBar1
  (b, if b == 0 then 0 else if fn == 0 then 2 ^ 16 else 2 ^ 12)

/-- Feed aperture of a ring (R366). -/
def Slice.feedRange (x : Slice) : Nat × Nat :=
  match x.ring with
  | some r => (r.feed, 2 ^ r.feedLog)
  | none => (0, 0)

/-- An address lies in a range. -/
def inRange (r : Nat × Nat) (a : Nat) : Bool := decide (r.1 ≤ a) && decide (a < r.1 + r.2)

/-- Rings of host n, with their numbers. -/
def State.ringsOf (s : State) (n : Nat) : List (Nat × Slice) :=
  s.mv.slice.filter (fun e => e.2.host == n && e.2.ring.isSome && e.2.state ≠ .free)

/-- Address in a vPPB's memory windows. -/
def Vppb.claims (b : Vppb) (a : Nat) : Bool :=
  (decide (b.memBase ≤ a / 2 ^ 20) && decide (a / 2 ^ 20 ≤ b.memLimit))
    || (decide (b.prefBase ≤ a / 2 ^ 20) && decide (a / 2 ^ 20 ≤ b.prefLimit))

/-- The vPPB whose memory window claims an address. -/
def State.claimingVppb (s : State) (n a : Nat) : Option Nat := (List.range 32).find? (fun v => (s.vppb n v).claims a)

/-- CXL.io memory decode of host n for one address (R242). -/
def State.hostIoDest (s : State) (n a : Nat) : Dest :=
  if inRange (s.fenceRange n) a then .fence (a - (s.fenceRange n).1)
  else if inRange (s.portalRange n) a then
    let off := a - (s.portalRange n).1
    .portal (off / 4096) (off % 4096)
  else if inRange (s.mgmtRange n) a then .mgmt (a - (s.mgmtRange n).1)
  else if inRange (s.tableRange n 0) a then .msix 0 (a - (s.tableRange n 0).1)
  else if inRange (s.tableRange n 1) a then .msix 1 (a - (s.tableRange n 1).1)
  else match s.claimingVppb n a with
    | some v => s.boundDest n v
    | none => .miss

/-- ACS P2P Request Redirect of a vPPB: bit 2 of ACS Control. -/
def Vppb.redirects (b : Vppb) : Bool := bit b.acs 2

/-- CXL.io memory decode of an end device at vPPB v of VCS n for one address (R243, R366). -/
def State.devIoDest (s : State) (n v a : Nat) : Dest :=
  if inRange (s.fenceRange n) a then .fence (a - (s.fenceRange n).1)
  else match (s.ringsOf n).find? (fun e => inRange e.2.feedRange a) with
    | some e => .feed e.1
    | none =>
      let open_ := !(s.vppb n v).redirects
      match if s.cB (K.PEER_HDM n) && open_ then s.hdmDest n a else none with
      | some d => d
      | none =>
        match if open_ then s.claimingVppb n a else none with
        | some u => if u == v then .host n else s.boundDest n u
        | none => .host n

/-- Same route: what a later byte of the request must share with its first (R242). -/
def Dest.sameRoute : Dest → Dest → Bool
  | .fence _, .fence _ => true
  | .portal a _, .portal b _ => a == b
  | .feed a, .feed b => a == b
  | .mgmt _, .mgmt _ => true
  | .msix a _, .msix b _ => a == b
  | .bound p _ n v, .bound q _ k u => p == q && n == k && v == u
  | .host a, .host b => a == b
  | .miss, .miss => true
  | .window _ _, .window _ _ | .window _ _, .pool _ _ | .pool _ _, .window _ _ | .pool _ _, .pool _ _ => true
  | .window _ _, .bound _ _ _ _ | .pool _ _, .bound _ _ _ _ | .bound _ _ _ _, .window _ _ | .bound _ _ _ _, .pool _ _ => true
  | _, _ => false

/-- A destination that HDM decoders give: it is reached line by line (R243). -/
def Dest.isMem : Dest → Bool
  | .window _ _ | .pool _ _ => true
  | _ => false

/-- A shared window. -/
def Dest.isWindow : Dest → Bool
  | .window _ _ => true
  | _ => false

/-- Port that a request leaves by. -/
def State.destPort (s : State) : Dest → Nat
  | .pool m _ => (s.targetPort m).getD 0xFF
  | .bound p _ _ _ => p
  | .host n => ((s.portsOf 1 n).find? s.linkUp).getD 0xFF
  | _ => 0xFF

/-! ### Virtual switch of a port -/

/-- The VCS of a port and the vPPB at which it stands: a host's own (vPPB 63), or that of an end device's binding. -/
def State.vcsOf (s : State) (p : Nat) : Option (Nat × Nat) :=
  if s.o (K.ROLE p) == 1 then some (s.o (K.AGENT p), 63)
  else if s.o (K.ROLE p) == 3 then (s.boundIn p).head?
  else none

/-! ### HDM decoder commit (R241, R244, R346) -/

/-- Settings within the options of R241. -/
def hdmFits (h : HdmSettings) (ix : Nat) : Bool :=
  let aligned := h.base % 2 ^ 28 == 0 && h.size % 2 ^ 28 == 0 && decide (0 < h.size) && decide (h.base + h.size ≤ 2 ^ 64)
  let gran := [256, 512, 1024, 2048, 4096, 8192, 16384].contains h.granularity
  if 32 ≤ ix then aligned && h.ways == 1
  else aligned && gran && [1, 2, 4, 8].contains h.ways && h.targets.length == h.ways
    && (h.targets.all (fun v => decide (v < 32) || v == 48)
        || (h.ways == 1 && h.targets.all (fun v => decide (32 ≤ v) && decide (v < 48))))

/-- Commit order (R241): every lower decoder is committed, and the base is at or above their limits; the limit is at or below the base
of every higher one that is committed. -/
def State.commitOrder (s : State) (n ix base size : Nat) : Bool :=
  if 32 ≤ ix then true
  else (List.range ix).all (fun j => let d := s.hdm n j; d.committed && decide (d.set.base + d.set.size ≤ base))
    && (List.range 32).all (fun j => decide (j ≤ ix) || !(s.hdm n j).committed || decide (base + size ≤ (s.hdm n j).set.base))

/-- What decoder ix names can take CXL.mem: a vPPB 0-31 with private memory, a type-2 device or no binding (R241). PRESUMED: the own
decoder of an LD does not exceed the LD's capacity, as CXL has it. -/
def State.hdmHolds (s : State) (n ix : Nat) (h : HdmSettings) : Bool :=
  if 32 ≤ ix then decide (h.size ≤ s.ldSize ix)
  else h.targets.all (fun v => match s.binding n v with
    | some (_, p, _) => decide (32 ≤ v) || s.o (K.ROLE p) == 2 || s.o (K.AGENT_KIND p) == 5
    | none => true)

/-- HDM_DECODER_COMMIT (R241, R346): a decoder that fails keeps Error Not Committed. A decoder committed with its lock set
stays. -/
def execHdmDecoderCommit (h : HostIx) (ix : Fin 49) (set : HdmSettings) (s : State) : Host.Outcome State Fault Refusal :=
  let n := h.val
  let d := s.hdm n ix.val
  if !s.isVcsUp n || (d.committed && d.set.lock) then .next s
  else
    let r := (set.base, set.size)
    let clash := decide (ix.val < 32) && (rangesMeet r (s.fenceRange n) || (s.ringsOf n).any (fun e => rangesMeet r e.2.feedRange))
    let ok := hdmFits set ix.val && s.commitOrder n ix.val set.base set.size && s.hdmHolds n ix.val set && !clash
    let x : Hdm := if ok then { set := set, committed := true, err := false } else { d with committed := false, err := true }
    let s : State := { s with fab := { s.fab with hdm := KMap.set {} s.fab.hdm (n * 64 + ix.val) x } }
    .next (if ix.val < 32 then s.setO (K.DEC_COMMITTED n) (setBit (s.o (K.DEC_COMMITTED n)) ix.val ok) else s)

end Sys2Proof.Machine
end

