-- ==== Sys2Proof/Machine/Guards.lean ====
section
/-!
DEFINITION. Access guards: regions, colour tags, the check of an access, epochs, publications and guard sync (R372-R402).
-/
namespace Sys2Proof.Machine

/-! ### Regions (R375, R376) -/

/-- Governing region of a byte: the matching one with the lowest index (R375). -/
def governing (rs : List Nat) (a : Nat) : Option (Nat × Nat) :=
  (rs.zipIdx.find? (fun e => bit e.1 0 && inRange (rgnRange e.1) a)).map (fun e => (e.2, e.1))

/-- Addresses in a range at which the governing region may change: its start, and region ends within it. -/
def cutPoints (rs : List Nat) (a len : Nat) : List Nat :=
  ((rs.filter (fun r => bit r 0)).flatMap (fun r => [(rgnRange r).1, (rgnRange r).1 + (rgnRange r).2])).foldl
    (fun l x => if a < x && x < a + len then insertNat x l else l) [a]

/-- What an access needs (R376). -/
structure Needs where
  read  : Bool := false
  write : Bool := false
  exec  : Bool := false
  /-- user-mode code of a core -/
  user  : Bool := false
deriving DecidableEq, Repr, Inhabited

/-- The region allows the access's type. -/
def Needs.allowedBy (n : Needs) (r : Nat) : Bool :=
  (!n.read || rgnRead r) && (!n.write || rgnWrite r) && (!n.exec || rgnExec r)

/-- A refused access (R398): reason, region (31 for a miss or the default map), key, tag, first refused byte. -/
structure GFault where
  reason : Nat
  region : Nat := 31
  cross  : Bool := false
  dflt   : Bool := false
  key    : Nat := 0
  tag    : Nat := 0
  addr   : Nat := 0
deriving DecidableEq, Repr, Inhabited

/-- How one byte is governed. -/
structure Governs where
  region : Option (Nat × Nat)
  /-- the default map allows it -/
  dflt   : Bool
deriving DecidableEq, Repr, Inhabited

/-- What a check consults: its regions, the default map (none for a user master), protected ranges (R387), and the tag of
an address (none: unreadable). -/
structure GuardUnit where
  regs  : List Nat
  priv  : Bool
  dflt  : Needs → Nat → Bool := fun n _ => !n.exec
  prot  : Bool → Nat → Bool := fun _ _ => false
  tagAt : Nat → Option Nat

/-- First byte of a piece whose granule has a tag that differs from the key or is unreadable: reason, tag, address (R379, R384). An
interleave set changes its target at every 256 bytes at the most often (R241), so the piece is read at that step. -/
def tagFault (u : GuardUnit) (key a len : Nat) : Option (Nat × Nat × Nat) :=
  let n := (a + len - 1) / 256 - a / 256 + 1
  (List.range n).findSome? (fun i =>
    let g := max a ((a / 256 + i) * 256)
    match u.tagAt g with
    | none => some (5, 0, g)
    | some t => if t == key then none else some (4, t, g))

/-- The check of one piece that lies under one region or under the default map. -/
def pieceFault (u : GuardUnit) (n : Needs) (a len : Nat) : Option GFault :=
  match governing u.regs a with
  | none =>
    if u.prot false a then some { reason := 7, dflt := u.priv, addr := a }
    else if !u.priv then some { reason := 1, addr := a }
    else if u.dflt n a then none
    else some { reason := 2, dflt := true, addr := a }
  | some (k, r) =>
    let key := (rgnKey r).getD 0
    if u.prot true a then some { reason := 7, region := k, key := key, addr := a }
    else if !n.allowedBy r then some { reason := 2, region := k, key := key, addr := a }
    else if n.user && bit r 6 then some { reason := 3, region := k, key := key, addr := a }
    else match rgnKey r with
      | none => none
      | some key =>
        (tagFault u key a len).map (fun t => { reason := t.1, region := k, key := key, tag := t.2.1, addr := t.2.2 })

/-- Pieces of an access with the unit's own extra cuts. -/
def pieces (cuts : List Nat) (endA : Nat) : List (Nat × Nat) :=
  match cuts with
  | [] => []
  | [a] => [(a, endA - a)]
  | a :: b :: l => (a, b - a) :: pieces (b :: l) endA

/-- The check of an access (R389): every byte and granule, before any part is performed; a zero-length access is checked
as one byte. `extra` are further addresses at which the default map or a protected range begins or ends. -/
def guardCheck (u : GuardUnit) (n : Needs) (a len : Nat) (extra : List Nat := []) : Option GFault :=
  let len := max 1 len
  let cuts := extra.foldl (fun l x => if a < x && x < a + len then insertNat x l else l) (cutPoints u.regs a len)
  let under := (cuts.map (fun c => (governing u.regs c).map (·.1))).eraseDups
  ((pieces cuts (a + len)).findSome? (fun p => pieceFault u n p.1 p.2)).map
    (fun f => { f with cross := decide (1 < under.length) })

/-- Class of a guard fault (R398). -/
def guardClass (reason : Nat) : Nat := if reason == 5 then 2 else 1

/-- Syndrome of a guard fault above its reason: bits [63:8] of R398. -/
def State.guardDetail (s : State) (f : GFault) (a sl : Nat) : Nat :=
  (f.region % 32) + b2n f.cross * 2 ^ 5 + b2n f.dflt * 2 ^ 6 + f.key * 2 ^ 8 + f.tag * 2 ^ 12
    + s.gd.epoch % 16 * 2 ^ 16 + (f.addr - a) % 4096 * 2 ^ 24 + sl * 2 ^ 40

/-! ### Colour tags (R377-R384) -/

/-- Tag that checks use for a granule of target m (R378, R381, R383); none when it was lost (R384). -/
def State.tagOf (s : State) (m g : Nat) : Option Nat :=
  if !s.cB (K.TAG_ENABLE m) || KMap.get false s.gd.filling m then some 0
  else
    let k := m * 2 ^ 33 + g
    if KMap.get false s.gd.tagLost k then none
    else some ((KMap.get none s.gd.tagOld k).getD (KMap.get 0 s.gd.tag k))

/-- Replica of window w that serves reads: READ_REPLICA while both are live, else the survivor (R116, R118, R119). -/
def State.readReplica (s : State) (w : Nat) : Nat :=
  let v := s.win w
  let r := if s.cB (K.MIRROR w) then s.c (K.READ_REPLICA w) else 0
  if r == 0 then (if v.live0 || !v.live1 then 0 else 1) else (if v.live1 || !v.live0 then 1 else 0)

/-- Granule of a destination: target and DPA / 4096; none where memory has no tag store (R378, R379). -/
def State.granuleOf (s : State) : Dest → Option (Nat × Nat)
  | .window w line =>
    let r := s.readReplica w
    some (s.replicaTarget w r, (s.replicaOffset w r + line * 64) / 4096)
  | .pool m dpa => some (m, dpa / 4096)
  | _ => none

/-- Tag of a destination. -/
def State.tagAtDest (s : State) (d : Option Dest) : Option Nat :=
  match d.bind s.granuleOf with
  | none => some 0
  | some (m, g) => s.tagOf m g

/-- A cached tag line is looked up (R380): whether the tile missed, and the caches after it. DESIGN CHOICE: a cache that
is full drops its lowest line. -/
def State.tagLookup (s : State) (t : Nat) (d : Dest) : Bool × State :=
  match s.granuleOf d with
  | none => (false, s)
  | some (m, g) =>
    let line := m * 2 ^ 33 + g / 128
    let add := fun (c : KMap Bool) (k n : Nat) => (if n ≤ c.length then c.drop 1 else c).insert k true
    let hubMiss := !KMap.get false s.gd.hubCache line
    let s := if hubMiss then s.incO K.TAGCACHE_MISSES else s
    let tk := t * 2 ^ 40 + line
    let tileMiss := !KMap.get false s.gd.tileCache tk
    let gd := { s.gd with hubCache := if hubMiss then add s.gd.hubCache line 65536 else s.gd.hubCache,
                          tileCache := if tileMiss then add s.gd.tileCache tk 4096 else s.gd.tileCache }
    (tileMiss, { s with gd := gd })

/-- Write a tag for which checks keep the old one until the publication. -/
def State.setTagLater (s : State) (m g v : Nat) : State :=
  let k := m * 2 ^ 33 + g
  let old := match KMap.get none s.gd.tagOld k with | some t => t | none => KMap.get 0 s.gd.tag k
  ({ s with gd := { s.gd with tagOld := KMap.set none s.gd.tagOld k (some old) } } : State).setTag m g v

/-- The stores that hold the tag of granule g of target m: its own, and in a window the other live replica's (R384). -/
def State.tagStores (s : State) (m g : Nat) : List (Nat × Nat) :=
  (m, g) :: (List.range 16).flatMap (fun w =>
    let at_ := fun (r : Nat) => (s.replicaTarget w r, s.replicaOffset w r / 4096)
    let live := fun (r : Nat) => if r == 0 then (s.win w).live0 else (s.win w).live1
    (List.range 2).filterMap (fun r =>
      let (t, o) := at_ r
      if s.cB (K.WIN_ENABLE w) && s.cB (K.MIRROR w) && t == m && o ≤ g && g < o + s.c (K.WIN_SIZE w) / 4096 && live (1 - r) then
        some ((at_ (1 - r)).1, (at_ (1 - r)).2 + (g - o)) else none))

/-- Tag 0xF, lost, for a granule of a target. -/
def State.loseTag (s : State) (m g : Nat) : State :=
  let s := s.setTag m g 15
  { s with gd := { s.gd with tagLost := KMap.set false s.gd.tagLost (m * 2 ^ 33 + g) true } }

/-- A tag line is lost (R384): its 128 granules take tag 0xF in every live store and are counted; the hub records a contained fault. -/
def State.loseTagLine (s : State) (m line : Nat) : State :=
  let s := (List.range 128).foldl (fun (s : State) i =>
    (s.tagStores m (line * 128 + i)).foldl (fun (s : State) e => s.loseTag e.1 e.2) s) s
  (s.addO K.TAG_LOST_GRANULES 128).raise 548 2 2

/-- A tag line is read: inverted check bits of the hub's tag cache, or a tag-line check that fails (R384, R463). -/
def State.tagLineCheck (s : State) (m line : Nat) : State :=
  match s.injFire 548 0, s.injFire 548 1 with
  | (1, s), _ => s.raise 548 1 1
  | (2, s), _ => s.loseTagLine m line
  | _, (0, _) => s
  | _, (_, s) => s.loseTagLine m line

/-- The line of a destination's granule is read. -/
def State.tagLineAt (s : State) (d : Dest) : State :=
  match s.granuleOf d with
  | none => s
  | some (m, g) => s.tagLineCheck m (g / 128)

/-! ### The port guard (R385, R388) -/

/-- Ports of the fabric manager's host are privileged (R385). -/
def State.portPriv (s : State) (p : Nat) : Bool := s.o (K.ROLE p) == 1 && s.o (K.AGENT p) == s.c K.FM_HOST

/-- Check at port guard p in the view of VCS n. -/
def State.portGuard (s : State) (p n : Nat) (need : Needs) (a len : Nat) : Option GFault :=
  let p := s.lead p
  if !s.cB (K.GUARD_ENABLE p) then none
  else guardCheck { regs := (List.range 16).map (fun k => s.c (K.REGION p k)), priv := s.portPriv p,
                    tagAt := fun x => s.tagAtDest (s.hdmDest n x) } need a len

/-- Count and record a refusal of port guard p (R390): E(4p+3). -/
def State.portGuardFault (s : State) (p master access a : Nat) (f : GFault) : State :=
  let p := s.lead p
  let s := if f.reason == 4 || f.reason == 5 then s.incO (K.TAG_FAULTS p) else s.incO (K.GUARD_FAULTS p)
  s.raise (4 * p + 3) (guardClass f.reason) f.reason false
    { master := master, access := access, addr := some f.addr, detail := s.guardDetail f a 0 }

/-! ### Epochs (R392-R395) -/

/-- A publication pends that became ready in an earlier tick, or in this one. -/
def State.pendingEarlier (s : State) : Bool :=
  [s.gd.genAt, s.gd.sliceAt, s.gd.tagAt].any (fun x => match x with | some t => decide (t < s.tm.ticks) | none => false)
def State.pendingNow (s : State) : Bool :=
  [s.gd.genAt, s.gd.sliceAt, s.gd.tagAt].any (fun x => x == some s.tm.ticks)

/-- The value that a change accepted now will reuse is free, or shared with a publication already checked (R394). -/
def State.epochFree (s : State) : Bool :=
  s.pendingNow || KMap.get 0 s.gd.counts ((s.gd.epoch + 1 + b2n s.pendingEarlier) % 16) == 0

/-- No count stands for the value that the next epoch takes. -/
def State.nextEpochClear (s : State) : Bool := KMap.get 0 s.gd.counts ((s.gd.epoch + 1) % 16) == 0

/-- A change that became ready before this tick. -/
def State.dueNow (s : State) (x : Option Nat) : Bool := match x with | some t => decide (t < s.tm.ticks) | none => false

/-- Publish a new guard epoch with every change due (R393): staged slice sets and written tags take effect. -/
def State.publishEpoch (s : State) : State :=
  let e := (s.gd.epoch + 1) % 2 ^ 32
  let sl := s.dueNow s.gd.sliceAt
  let tg := s.dueNow s.gd.tagAt
  let gd := { s.gd with epoch := e, genAt := if s.dueNow s.gd.genAt then none else s.gd.genAt,
                        sliceAt := if sl then none else s.gd.sliceAt, tagAt := if tg then none else s.gd.tagAt,
                        tagOld := if tg then [] else s.gd.tagOld, tagCmd := if tg then none else s.gd.tagCmd }
  let mv := if sl then { s.mv with slice := KMap.mapVals {} (fun _ (x : Slice) => { x with regions := x.staged }) s.mv.slice } else s.mv
  let s := ({ s with gd := gd, mv := mv } : State).setO K.GUARD_EPOCH e
  let s := if sl then s.setO K.PUBLISH_STATE 2 else s
  if tg then s.setO K.TAG_CMD_STATE 2 else s

/-- Start a counted access under the current epoch (R395). -/
def State.countAccess (s : State) : State := s.gepochCount s.gd.epoch true

/-- Accesses of epochs older than epoch e of the newest `newer` epochs: the counts of every other value. -/
def State.olderThan (s : State) (e newer : Nat) : Nat :=
  ((List.range (15 - min 15 newer)).map (fun j => KMap.get 0 s.gd.counts ((e + 15 - j) % 16))).sum

/-- OLDER_ACCESSES (R399). -/
def State.olderAccesses (s : State) : Nat := s.olderThan s.gd.epoch 0

/-- GUARD_PUBLISH's own rule (R392, R394). -/
def ownGuardPublish (s : State) : OdAns × State :=
  if s.gd.sliceAt.isSome then (odOk, s)
  else if !s.epochFree then (odNo 0x0502 1, s.setO K.PUBLISH_REFUSAL 1)
  else (odOk, ((({ s with gd := { s.gd with sliceAt := some s.tm.ticks } } : State).setO K.PUBLISH_STATE 1).setO K.PUBLISH_REFUSAL 0))

/-- GUARD_PUBLISH (R392). -/
def execGuardPublish (sess : SessRef) (v : Byte) (s : State) : Host.Outcome State Fault Refusal :=
  .next (s.odCommand sess K.GUARD_PUBLISH 1 v.toNat ownGuardPublish)

/-- GUARD_SYNC's own rule (R396): it replaces a running sync. -/
def ownGuardSync (s : State) : OdAns × State :=
  (odOk, ((({ s with gd := { s.gd with syncAt := some s.now } } : State).setO K.SYNC_STATE 1).setO K.SYNC_EPOCH s.gd.epoch))

/-- GUARD_SYNC (R396). -/
def execGuardSync (sess : SessRef) (v : Byte) (s : State) : Host.Outcome State Fault Refusal :=
  .next (s.odCommand sess K.GUARD_SYNC 1 v.toNat ownGuardSync)

/-- Every count for an epoch older than the sync's is zero. -/
def State.syncHolds (s : State) : Bool :=
  let e := s.o K.SYNC_EPOCH
  s.olderThan e ((s.gd.epoch + 2 ^ 32 - e) % 2 ^ 32) == 0

/-- GUARD_SYNC_DONE (R396). -/
def execGuardSyncDone (s : State) : Host.Outcome State Fault Refusal :=
  .next (if s.o K.SYNC_STATE == 1 && s.syncHolds then
    ({ s with gd := { s.gd with syncAt := none } } : State).setO K.SYNC_STATE 2 else s)

/-- GUARD_SYNC_TIMEOUT (R396, E586). -/
def execGuardSyncTimeout (s : State) : Host.Outcome State Fault Refusal :=
  match s.gd.syncAt with
  | none => .next s
  | some t =>
    if s.o K.SYNC_STATE ≠ 1 then .next s
    else
      let s := s.advance (t + s.c K.SYNC_TIMEOUT * Config.us)
      .next (({ s with gd := { s.gd with syncAt := none } } : State).setO K.SYNC_STATE 3 |>.raise 586 1 1)

/-! ### Slice region sets (R392) -/

/-- SLICE_RGN_CMD's own rule. -/
def ownSliceRgnCmd (v : Nat) (s : State) : OdAns × State :=
  let sl := bits v 10 0
  let reason :=
    if bits v 15 11 ≠ 0 || bits v 63 20 ≠ 0 then 1
    else if (s.slice sl).state = .free then 2
    else if s.gd.sliceAt.isSome then 3
    else if !regionOk false (v / 2 ^ 64) then 4 else 0
  let s := s.setO K.RGN_RESULT reason
  if reason ≠ 0 then (odNo 0x0504 reason, s)
  else (odOk, s.updSlice sl (fun x => { x with staged := KMap.set 0 x.staged (bits v 19 16) (v / 2 ^ 64) }))

/-- SLICE_RGN_CMD (R392). -/
def execSliceRgnCmd (sess : SessRef) (cmd : BitVec 192) (s : State) : Host.Outcome State Fault Refusal :=
  .next (s.odCommand sess K.SLICE_RGN_CMD 24 cmd.toNat (ownSliceRgnCmd cmd.toNat))

/-! ### Tag commands (R382, R383) -/

/-- Reason for which a tag command is refused (R382); 0 none. -/
def State.tagRefusal (s : State) (v : Nat) : Nat :=
  let t := bits v 13 8
  let n := bits v 58 32
  let f := bits v 97 64
  let byWin := bit v 0
  if (byWin && 15 < t) || bits v 7 1 ≠ 0 || bits v 15 14 ≠ 0 || bits v 31 20 ≠ 0 || bits v 63 59 ≠ 0 || bits v 111 98 ≠ 0 then 1
  else if n == 0 || 0x4000000 < n then 2
  else if byWin && !(s.o (K.STATE t) == 2 || s.o (K.STATE t) == 3 || s.o (K.STATE t) == 4) then 3
  else if !byWin && !(s.poolBound t && s.o (K.TAG_STATE t) == 2) then 3
  else if byWin && s.c (K.WIN_SIZE t) < (f + n) * 4096 then 4
  else if !byWin && s.capGiB t * 262144 < f + n then 4
  else if !byWin && (winRangesOn s.gen.active t ++ s.tagRegion s.gen.active t).any (rangesMeet (f * 4096, n * 4096)) then 5
  else if s.o K.TAG_CMD_STATE == 1 || s.gd.sliceAt.isSome || s.gd.genAt.isSome || !s.epochFree then 6
  else 0

/-- TAG_CMD's own rule. -/
def ownTagCmd (v : Nat) (s : State) : OdAns × State :=
  let r := s.tagRefusal v
  if r ≠ 0 then (odNo (if r == 6 then 0x0502 else 0x0504) r, s.setO K.TAG_RESULT r)
  else
    let s := (s.setO K.TAG_RESULT 0).setO K.TAG_CMD_TAG (bits v 127 112)
    (odOk, ({ s with gd := { s.gd with tagCmd := some v } } : State).setO K.TAG_CMD_STATE 1)

/-- TAG_CMD (R382). -/
def execTagCmd (sess : SessRef) (cmd : BitVec 128) (s : State) : Host.Outcome State Fault Refusal :=
  .next (s.odCommand sess K.TAG_CMD 16 cmd.toNat (ownTagCmd cmd.toNat))

/-- TAG_CMD_WRITTEN (R383): the new tags stand in the store; checks use the old ones until the publication of the next
tick. -/
def execTagCmdWritten (s : State) : Host.Outcome State Fault Refusal :=
  match s.gd.tagCmd with
  | none => .next s
  | some v =>
    if s.gd.tagAt.isSome then .next s
    else
      let s := (s.tagPlaces v).foldl (fun (s : State) e =>
        (List.range (bits v 58 32)).foldl (fun (s : State) i => s.setTagLater e.1 (e.2 + i) (bits v 19 16)) s) s
      .next { s with gd := { s.gd with tagAt := some s.tm.ticks } }

/-- TAG_FILL_COMPLETE (R381): the fill or the move of target m's store has ended. -/
def execTagFillComplete (m : TargetIx) (s : State) : Host.Outcome State Fault Refusal :=
  .next (if s.o (K.TAG_STATE m) ≠ 1 then s
    else ({ s with gd := { s.gd with filling := KMap.set false s.gd.filling m false } } : State).setO (K.TAG_STATE m) 2)

/-! ### Core region units (R385-R387, R402) -/

/-- Region k of core c as loaded. -/
def State.coreRegion (s : State) (c k : Nat) : Nat := KMap.get 0 (s.coreAt c).region k

/-- Register word `i` (0 ATTR, 1 RSV, 2 BASE_LO, 3 BASE_HI) of region k: the staged write, else the region's word. -/
def State.coreWord (s : State) (c k i : Nat) : Nat :=
  let x := s.coreAt c
  KMap.get (bits (KMap.get 0 x.region k) (32 * i + 31) (32 * i)) x.word (4 * k + i)

/-- A write of _ATTR, _RSV or _BASE_LO is held until _BASE_HI (R402). ATTR bit 30 is RGN_BAD, W1C. -/
def State.coreWordWrite (s : State) (c k i v : Nat) : State :=
  let s := if i == 0 && bit v 30 then s.updCore c (fun x => { x with rgnBadMap := KMap.set false x.rgnBadMap k false }) else s
  let v := if i == 0 then v % 2 ^ 30 + (if bit v 31 then 2 ^ 31 else 0) else v
  s.updCore c (fun x => { x with word := KMap.insert x.word (4 * k + i) v })

/-- The write of _BASE_HI: the four words are checked together by R374 (R402). -/
def State.coreRegionLoad (s : State) (c k hi : Nat) : State :=
  let r := s.coreWord c k 0 + s.coreWord c k 1 * 2 ^ 32 + s.coreWord c k 2 * 2 ^ 64 + hi % 2 ^ 32 * 2 ^ 96
  let clear := fun (x : SvcCore) => { x with word := KMap.keep (fun j => j / 4 ≠ k) x.word }
  if regionOk true r then
    s.updCore c (fun x => { clear x with region := KMap.set 0 x.region k r, rgnBadMap := KMap.set false x.rgnBadMap k false })
  else s.updCore c (fun x => { clear x with rgnBadMap := KMap.set false x.rgnBadMap k true })

/-- The issuer may write core c's unit: supervisor code on the core itself, or a maker session (R402). -/
def State.mayWriteUnit (s : State) (via : CsrVia) (c : Nat) : Bool :=
  match via with
  | .core d => d.val == c && (s.coreAt c).sup
  | .service _ => true

/-- A write of a region unit that R402 does not allow has no effect and records a fault of the core's block. -/
def State.unitWrite (s : State) (via : CsrVia) (c : Nat) (f : State → State) : State :=
  if s.mayWriteUnit via c then f s
  else s.raise (568 + c) 1 1 false { master := csrMaster via, access := 0x0C }

/-- CORE_REGION_BASE_HI (R402): the write of _BASE_HI of region k. -/
def execCoreRegionBaseHi (via : CsrVia) (c : CoreIx) (k : Fin 16) (value : Word32) (s : State) :
    Host.Outcome State Fault Refusal :=
  .next (s.csrDo via 4 (fun s => s.unitWrite via c.val (fun s => s.coreRegionLoad c.val k.val value.toNat)))

/-- Ranges of the service-core map (R386). -/
inductive CoreSpace where
  | sram (a : Nat)
  | csr (die off : Nat)
  | window (w off : Nat)
  | raw (m dpa : Nat)
  | nowhere
deriving DecidableEq, Repr, Inhabited

/-- Place of an address in the service-core map (R386). -/
def coreSpace (a : Nat) : CoreSpace :=
  if a < 0x400000 then .sram a
  else if 0x10000000 ≤ a && a < 0x10000000 + 5 * 0x2000000 then .csr ((a - 0x10000000) / 0x2000000) ((a - 0x10000000) % 0x2000000)
  else if 0x8000000000000 ≤ a && a < 0x8000000000000 + 16 * 2 ^ 42 then .window ((a - 0x8000000000000) / 2 ^ 42) (a % 2 ^ 42)
  else if 0x10000000000000 ≤ a && a < 0x10000000000000 + 64 * 2 ^ 45 then
    .raw ((a - 0x10000000000000) / 2 ^ 45) (a % 2 ^ 45)
  else .nowhere

/-- Memory type of the default map (R385). -/
def CoreSpace.type : CoreSpace → Nat
  | .sram _ => 1
  | .csr _ _ => 2
  | _ => 0

/-- A raw access touches a range that R387 protects; a FROZEN shadow is open to a region that the manager maps. -/
def State.rawProtected (s : State) (m dpa : Nat) (mapped : Bool) : Bool :=
  (winRangesOn s.gen.active m ++ s.tagRegion s.gen.active m
    ++ s.shadowsOn m (fun st => st ≠ 0 && !(st == 3 && mapped))).any (fun r => inRange r dpa)

/-- Tag of an address in the service-core map (R379). -/
def State.coreTag (s : State) (a : Nat) : Option Nat :=
  match coreSpace a with
  | .window w off => s.tagAtDest (some (.window w (off / 64)))
  | .raw m dpa => s.tagOf m (dpa / 4096)
  | _ => some 0

/-- Regions of core c. -/
def State.coreRegions (s : State) (c : Nat) : List Nat := (List.range 16).map (s.coreRegion c)

/-- The unit of core c. -/
def State.coreUnit (s : State) (c : Nat) : GuardUnit :=
  { regs := s.coreRegions c, priv := (s.coreAt c).sup,
    dflt := fun n a => match coreSpace a with | .sram _ => true | .nowhere => false | _ => !n.exec,
    prot := fun mapped a => match coreSpace a with | .raw m dpa => s.rawProtected m dpa mapped | _ => false,
    tagAt := s.coreTag }

/-- Memory type that governs a byte of a core's access. -/
def State.coreType (s : State) (c a : Nat) : Nat :=
  match governing (s.coreRegions c) a with
  | some (_, r) => rgnType r
  | none => (coreSpace a).type

/-- The check of a core's access (R376, R386, R391): at most 8 bytes, byte by byte. -/
def State.coreCheck (s : State) (c : Nat) (n : Needs) (a len : Nat) : Option GFault :=
  let n := { n with user := !(s.coreAt c).sup }
  match (List.range len).find? (fun i => coreSpace (a + i) = .nowhere) with
  | some i => some { reason := 8, addr := a + i }
  | none =>
    match guardCheck (s.coreUnit c) n a len ((List.range len).map (a + ·)) with
    | some f => some f
    | none =>
      match (List.range len).find? (fun i => s.coreType c (a + i) ≠ s.coreType c a) with
      | some i => some { reason := 6, cross := true, addr := a + i }
      | none => none

/-! ### Engine region units -/

/-- The check of a slice's access (R372): user master, the slice's own set, tags by its host's decode. -/
def State.sliceCheck (s : State) (sl : Nat) (n : Needs) (a len : Nat) : Option GFault :=
  let x := s.slice sl
  guardCheck { regs := (List.range 16).map (fun k => KMap.get 0 x.regions k), priv := false,
               tagAt := fun b => s.tagAtDest (s.hdmDest x.host b) } n a len

end Sys2Proof.Machine
end

