-- ==== Sys2Proof/Machine/HubReq.lean ====
section
/-!
DEFINITION. Requests: creating one, the fences that cover it, sending a hub agent's request to its destination, and what
an answer does for each purpose (R24, R42, R128, R135, R136, R188, R243, R267, R395).
-/
namespace Sys2Proof.Machine

/-! ### Covered writes (R135, R188) -/

/-- Master m is a participant of set k in the active generation (R187). -/
def State.participant (s : State) (k m : Nat) : Bool :=
  if m < 64 then bit (s.c (K.PS_PORTS_LO k)) m
  else if m < 96 then bit (s.c (K.PS_PORTS_HI k)) (m - 64)
  else if 0x60 ≤ m && m < 0x70 then bit (s.c (K.PS_HUB k)) (m - 0x60)
  else if 0x70 ≤ m && m < 0x74 then bit (s.c (K.PS_HUB k)) (16 + (m - 0x70))
  else false

/-- Point P of a trigger fence once its edge is known (R188). -/
def Fence.point (f : Fence) : Option Nat := f.ctTrig.map (· + f.lag)

/-- A write made at `ct` by master `m` is before the fence's point, as far as it is known. -/
def State.beforePoint (s : State) (f : Fence) (m ct : Nat) : Bool :=
  f.kind = .trigger && !f.ended && s.participant f.pset m
    && (match f.point with | none => true | some p => decide (ct < p))

/-- A new write joins the fences that cover it: trigger fences of its participant, slice fences of its descriptor. -/
def State.coverWrite (s : State) (id m ct desc : Nat) : State :=
  s.mapFences (fun f =>
    if s.beforePoint f m ct || (f.kind = .slice && !f.ended && desc ≠ 0 && f.descs.contains desc) then
      { f with waits := f.waits ++ [id] }
    else f)

/-- A write of an agent is rejected at step 4: it ends in error for the trigger fences that cover it, and the agent's next fence tells it
(R136, FIRST_TARGET 0xFE). -/
def State.rejectWrite (s : State) (m agent : Nat) : State :=
  (s.noteError agent 0xFE).mapFences (fun f => if s.beforePoint f m s.ct then f.fail s.ct 0xFE else f)

/-- A VIEW packet of master m is dropped: counted by the trigger fences that cover it (R191). -/
def State.coverDrop (s : State) (m : Nat) : State :=
  s.mapFences (fun f =>
    if !s.beforePoint f m s.ct then f
    else if f.ctTrig.isNone then { f with dropCts := f.dropCts ++ [s.ct] } else { f with psDrops := f.psDrops + 1 })

/-! ### Requests -/

/-- Enter a request; it counts under its epoch unless a core made it (R395). -/
def State.newTxn (s : State) (t : Txn) (desc : Nat := 0) : Nat × State :=
  let id := s.ord.nextTxn
  let t := { t with ct := s.ct, gepoch := s.gd.epoch, gen := s.genNum, counted := t.counted && !(0x70 ≤ t.master && t.master ≤ 0x73) }
  let s : State := { s with ord := { s.ord with txn := KMap.set none s.ord.txn id (some t), nextTxn := id + 1 } }
  let s := if t.counted then s.countAccess else s
  (id, if t.write then s.coverWrite id t.master t.ct desc else s)

/-- RSP_TIMEOUT bound of a CXL.mem request at a target's port (R267). -/
def State.rspBound (s : State) (p : Nat) : Option Nat := some (s.now + s.o (K.RSP_TIMEOUT p) * Config.us)

/-- The request as it leaves for its target: number, port, write, address, bytes, data, and its PASID when it carries one. -/
def requestMsg (id q : Nat) (t : Txn) : Out :=
  { kind := .request, dst := q, args := [id, q, b2n t.write, t.addr, t.bytes, t.data] ++ t.pasid.toList }

/-- Bytes of a request's packet: a 16-byte header and the write's data. -/
def requestBytes (t : Txn) : Nat := 16 + (if t.write then t.bytes else 0)

/-- A hub agent's line request joins those waiting at the crown (R90, R105). -/
def State.toCrown (s : State) (w line : Nat) (e : LineEntry) : State :=
  { s with cr := { s.cr with inbound := KMap.upd [] s.cr.inbound 4 (· ++ [{ w := w, line := line, entry := e, cells := 0 }]) } }

/-- Line entry of a hub agent's request (R90): any read is an RdI, any write a WrN; a write that is not the whole line
carries byte enables. DESIGN CHOICE: an end device's line requests count as an agent of their own for each port (R105 names hosts, engines,
cores and the internal agent only), so a queue could hold more than 85 entries. -/
def State.hubEntry (s : State) (id : Nat) (t : Txn) : LineEntry :=
  let off := t.addr % 64
  { op := if t.write then .wr else .rdI, who := 0x100 + t.master, tag := id, ct := s.ct, gepoch := s.gd.epoch, gen := t.gen,
    data := t.data * 2 ^ (8 * off), mask := (2 ^ t.bytes - 1) * 2 ^ off, partial_ := t.write && t.bytes ≠ 64 }

/-- A CXL.mem destination behind port q: a memory target or a type-2 device's HDM; elsewhere a write is posted. -/
def State.isMemPort (s : State) (q : Nat) : Bool := s.o (K.ROLE q) == 2 || s.o (K.AGENT_KIND q) == 5

/-- The zero-length read that follows a posted write in its flow and ends it for the fences (R136). -/
def State.flushRead (s : State) (id q : Nat) (t : Txn) (src host : Nat) : State :=
  let f : Txn := { t with purpose := .flush, write := false, posted := false, nonPosted := true, bytes := 0, data := 0, w := id,
                          dest := q, deadline := none, counted := false }
  let r := s.newTxn f
  r.2.agentSend src host t.cls q (requestBytes f) 0 (requestMsg r.1 q f)

/-- Port of a window's first live replica (R137). -/
def State.windowPort (s : State) (w : Nat) : Nat := (s.targetPort (s.replicaTarget w (if (s.win w).live0 then 0 else 1))).getD 0xFF

/-- A hub agent's request goes where it decodes (R42, R90): its number and the state. A destination that cannot be reached
ends it in error at once. -/
def State.hubIssue (s : State) (d : Dest) (t : Txn) (src host : Nat) (desc : Nat := 0) : Nat × State :=
  match d with
  | .window w line =>
    let r := s.newTxn { t with blame := s.windowPort w } desc
    (r.1, r.2.toCrown w line (r.2.hubEntry r.1 t))
  | .pool _ _ | .bound _ _ _ _ | .host _ =>
    let q := s.destPort d
    let mem := s.isMemPort q
    let addr := match d with | .pool _ dpa => dpa | _ => t.addr
    let r := s.newTxn { t with dest := q, addr := addr, deadline := if mem then s.rspBound q else none } desc
    if q < 96 && s.linkUp q then
      let s := r.2.agentSend src host t.cls q (requestBytes t) t.data (requestMsg r.1 q { t with addr := addr })
      (r.1, if t.write && !mem then s.flushRead r.1 q t src host else s)
    else (r.1, r.2.endTxn r.1 false (if t.write then 0x14 else 0x13))
  | _ =>
    let r := s.newTxn t desc
    (r.1, r.2.endTxn r.1 false 0x15)

end Sys2Proof.Machine
end

