-- ==== Sys2Proof/Machine/Chunks.lean ====
section
/-!
DEFINITION. A slice's requests and its chunks: cutting them, issuing them, putting read data together, and writing it in order
(R343, R354, R355, R358).
-/
namespace Sys2Proof.Machine

/-! ### Requests of a slice (R343) -/

/-- Destination of an address in a slice's view (R343): its host's HDM decoders, else the host itself; no route where nothing can
be reached there (R358 reason 0x15). -/
def State.sliceDest (s : State) (x : Slice) (a : Nat) : Dest :=
  match (s.hdmDest x.host a).getD (.host x.host) with
  | .window w line => .window w line
  | d =>
    let q := s.destPort d
    if q < 96 && s.linkUp q then d else .miss

/-- Cut a range at the multiples of `u`: addresses and bytes. -/
def cutAt (u a n : Nat) : List (Nat × Nat) :=
  if n == 0 then []
  else (List.range ((a + n - 1) / u - a / u + 1)).map (fun i =>
    let lo := max a ((a / u + i) * u)
    (lo, min (a + n) ((a / u + i + 1) * u) - lo))

/-- Requests that an engine makes of a range (R354): up to 256 bytes each, a line at a time in a window. DESIGN CHOICE: they are cut
at 256-byte addresses. -/
def State.moverCut (s : State) (x : Slice) (a n : Nat) : List (Nat × Nat) :=
  match s.sliceDest x a with
  | .window _ _ => cutAt 64 a n
  | _ => cutAt 256 a n

/-- Count bytes that a slice has written (SEL_BYTES, ENG_BYTES). -/
def State.countBytes (s : State) (sl n : Nat) : State :=
  let e := (s.slice sl).engine
  (s.updSlice sl (fun x => { x with bytes := (x.bytes + n) % 2 ^ 64 })).addO (K.ENG_BYTES e) n

/-- Bytes of a list of numbers. -/
def asBytes (l : List Nat) : List Byte := l.map (BitVec.ofNat 8)

/-- A chunk read's data is kept until the chunk is whole (R354); that of a chunk at or behind a fault is discarded (R358). -/
def ActiveDesc.keep (id chunk off : Nat) (d : List Nat) (a : ActiveDesc) : ActiveDesc :=
  if a.reads.contains id && (a.reason == 0 || decide (chunk < a.bad)) then { a with stash := KMap.set none a.stash off (some d) } else a

/-- Bytes of a number, least significant first. -/
def natBytes (n v : Nat) : List Nat := (toBytes n v).map (·.toNat)

/-! ### Chunks (R354) -/

/-- Bytes left of the piece in which an offset lies. -/
def pieceLeft : List (Nat × Nat) → Nat → Option Nat
  | [], _ => none
  | (_, n) :: l, o => if o < n then some (n - o) else pieceLeft l (o - n)

/-- Bytes of the chunk at stream offset o (R354). -/
def ActiveDesc.chunkLen (a : ActiveDesc) (o : Nat) : Nat :=
  let base := if a.dst.isEmpty then a.src else a.dst
  let left := 4096 - pieceAddr base o % 4096
  min left (min ((pieceLeft a.src o).getD left) (min ((pieceLeft a.dst o).getD left) (a.total - o)))

/-- Update the active descriptor of a slice. -/
def State.updActive (s : State) (sl : Nat) (f : ActiveDesc → ActiveDesc) : State :=
  s.updSlice sl (fun x => { x with active := x.active.map f })

/-- One read or write of a chunk (R343, R354): its number is noted before it leaves, so that an immediate end finds it. No route
is reason 0x15. -/
def State.moverIssue (s : State) (sl : Nat) (desc chunk off addr n : Nat) (write : Bool) (data : Nat) : State :=
  let x := s.slice sl
  match s.sliceDest x addr with
  | .miss => s.updActive sl (fun a => a.fault 0x15 chunk off addr)
  | d =>
    let id := s.ord.nextTxn
    let s := s.updActive sl (fun a => if write then { a with writes := a.writes ++ [id] } else { a with reads := a.reads ++ [id] })
    let s := if write then s.countBytes sl n
      else
        let s : State := { s with mv := { s.mv with reads := KMap.upd 0 s.mv.reads x.engine (· + 1) } }
        s.maxO (K.ENG_READS_HIGH_WATER x.engine) (KMap.get 0 s.mv.reads x.engine)
    let t : Txn := { purpose := .mover, master := engineMaster x.engine, port := 0xFF, agent := agentSlice sl, dest := 0xFF, write := write,
                     addr := addr, bytes := n, data := data, w := sl, line := chunk, step := off, pasid := x.pasid }
    (s.hubIssue d t (engineMaster x.engine) x.host desc).2

/-- The writes of the chunk at offset o (R354), from its bytes. -/
def State.chunkWrites (s : State) (sl : Nat) (a : ActiveDesc) (o : Nat) (data : List Nat) : State :=
  let base := pieceAddr a.dst o
  (s.moverCut (s.slice sl) base data.length).foldl (fun (s : State) (c : Nat × Nat) =>
    let k := c.1 - base
    s.moverIssue sl a.desc.id o (o + k) c.1 c.2 true (leNat (asBytes ((data.drop k).take c.2)))) s

/-- The bytes from stream offset o to `hi` as reads have brought them; none while one is missing. -/
def gatherBytes (st : KMap (Option (List Nat))) (hi : Nat) : Nat → Nat → Option (List Nat)
  | 0, _ => none
  | n + 1, o =>
    if hi ≤ o then some []
    else match KMap.get none st o with
      | none => none
      | some l => if l.isEmpty then none else (gatherBytes st hi n (o + l.length)).map (l ++ ·)

/-- Chunks whose read data is whole issue their writes in order (R354); a CRC takes them into its register (R350). -/
def State.pumpChunks (s : State) (sl : Nat) : Nat → State
  | 0 => s
  | n + 1 =>
    match (s.slice sl).active with
    | none => s
    | some a =>
      if a.issued ≤ a.wrote || (a.reason ≠ 0 && decide (a.bad ≤ a.wrote)) then s
      else
        let o := a.wrote
        let len := a.chunkLen o
        match gatherBytes a.stash (o + len) 65 o with
        | none => s
        | some bs =>
          let crc := if bits a.desc.raw 7 0 == 5 then crc32c a.crc (asBytes bs) else a.crc
          let s := s.updActive sl (fun a => { a with wrote := o + len, crc := crc, stash := KMap.keep (fun k => decide (o + len ≤ k)) a.stash })
          let s := if bits a.desc.raw 7 0 == 5 then s else s.chunkWrites sl a o bs
          s.pumpChunks sl n

/-- A descriptor has issued its last write (R355): the whole stream, or every chunk below its fault (R358). -/
def ActiveDesc.complete (a : ActiveDesc) : Bool :=
  if a.reason ≠ 0 then decide (a.bad ≤ a.wrote) else a.wrote == a.total

/-- A descriptor that has issued its last write makes room for the next (R355). -/
def Slice.settle (x : Slice) : Slice :=
  match x.active with
  | some a => if a.complete then { x with active := none, ending := x.ending ++ [a] } else x
  | none => x

/-- The same for slice sl of the machine. -/
def State.settleSlice (s : State) (sl : Nat) : State := s.updSlice sl Slice.settle

end Sys2Proof.Machine
end

