-- ==== Sys2Proof/Machine/Answers.lean ====
section
/-!
DEFINITION. What an answer to a hub agent's request does for each purpose (R107, R136, R161, R243, R354).
-/
namespace Sys2Proof.Machine

/-! ### Answers to hub agents' requests -/

/-- A core's load returns: `bytes` at byte `step` of a value of `line` bytes. -/
def loadInto (rd : Nat) (t : Txn) (data : Nat) : Nat :=
  let lo := 2 ^ (8 * t.step)
  let hi := 2 ^ (8 * (t.step + t.bytes))
  if t.bytes == t.line then data % 2 ^ (8 * t.bytes)
  else (rd % lo + data % 2 ^ (8 * t.bytes) * lo + rd / hi * hi) % 2 ^ (8 * t.line)

/-- TAG that marks an instruction fetch among a core's requests (the model's own): its data goes to no register. -/
def fetchTag : Nat := 1

/-- Status of an answer that goes back to a port: 0 good, 1 poison, 2 Completer Abort, 6 an uncorrectable error and 7 an error that the
target reported; the target's own completion is passed back as it is (R128). -/
def answerCode (t : Txn) (st : MemStatus) : Nat :=
  match st with
  | .ok => 0
  | .poison => 1
  | .uncorrectable => if t.nonPosted then 2 else 6
  | .error => if t.nonPosted then 2 else 7

/-- The answer of a port's request comes in at the port that served it and crosses the plank to the requester as BULK (R24), under
the generation of its request (R21). -/
def State.sendBack (s : State) (t : Txn) (code data : Nat) : State :=
  if !s.linkUp t.port || 96 ≤ t.dest then s.answer t.port t.tag t.rid code data
  else s.under t.gen (fun s => s.admitPkt t.dest t.port .bulk (if t.proto == 1 then .bulk else .coh) .green
    (16 + (if t.write then 0 else t.bytes)) data { kind := .completion, dst := t.port, args := [t.tag, t.rid, code, data] })

/-- A request ends with an answer: what it does for its purpose. Crown accesses are the crown's own. -/
def State.hubAnswer (s : State) (id : Nat) (st : MemStatus) (data : Nat) : State :=
  match s.txn? id with
  | none => s
  | some t =>
    let ok := st = .ok
    match t.purpose with
    | .mover =>
      if t.write then (s.endTxn id ok 0x14).settleSlice t.w
      else
        let s := if ok then s.updSlice t.w (fun x => { x with active := x.active.map (ActiveDesc.keep id t.line t.step (natBytes t.bytes data)) }) else s
        ((s.endTxn id ok (if st = .poison then 0x12 else 0x13)).pumpChunks t.w 257).settleSlice t.w
    | .core =>
      let s := if t.write || t.tag == fetchTag then s else s.updCore (t.master - 0x70) (fun k => { k with rd := loadInto k.rd t data })
      let s := if t.write || ok then s
        else s.raise (568 + (t.master - 0x70)) 1 1 false { master := t.master, access := 1, addr := some t.view }
      s.endTxn id (ok || !t.write)
    | .part =>
      (s.endTxn id ok).partEnded t ok data
    | .port =>
      let s := s.endTxn id (ok || !t.write)
      if t.posted then s else s.sendBack t (answerCode t st) data
    | .flush =>
      -- the zero-length read behind a posted write: any completion ends the write (R136)
      (s.endTxn id true).endTxn t.w true
    | _ => s.endTxn id ok

end Sys2Proof.Machine
end

