-- ==== Sys2Proof/Machine/Time.lean ====
section
/-!
DEFINITION. Chassis time, sync and slew, trigger lines, trigger and time messages, scheduled outputs
(R29, R166-R184, R188 step 1, R195).
-/
namespace Sys2Proof.Machine

/-- The hatband as a fault's source (R448). -/
def hatband : Src := { master := 0x7A }

/-! ### Reference and chassis time -/

/-- REF100_LOSS (R29): holdover on XTAL; CT and the tick go on. -/
def execRef100Loss (s : State) : Host.Outcome State Fault Refusal :=
  let s : State := { s with st := { s.st with refPresent := false, holdover := true } }
  .next (if s.hubHeld then s else s.updCtState)

/-- REF100_RETURN (R29): present for 1 ms; the hatband returns to it and slews, it never steps. -/
def execRef100Return (s : State) : Host.Outcome State Fault Refusal :=
  let s : State := { s with st := { s.st with refPresent := true, holdover := false },
                            tm := { s.tm with refSeen := true } }
  .next (if s.hubHeld then s else s.updCtState)

/-- CT_LOAD's own rule (R168): a second write before the load edge replaces the first. -/
def ownCtLoad (v : Nat) (s : State) : OdAns × State :=
  (odOk, ({ s with tm := { s.tm with load := some v, loadAt := s.now } } : State).setO K.LOAD_PENDING 1)

/-- CT_LOAD (R168). -/
def execCtLoad (sess : SessRef) (v : Word64) (s : State) : Host.Outcome State Fault Refusal :=
  .next (s.odCommand sess K.CT_LOAD 8 v.toNat (ownCtLoad v.toNat))

/-- A trigger fence whose edge is stamped and whose point P is still ahead (R169). -/
def Fence.pointAhead (f : Fence) : Bool := f.kind = .trigger && f.ctTrig.isSome && !f.pointDone

/-- The load edge is postponed: a trigger fence or an armed freeze has an edge stamped and its point not reached
(R169). -/
def State.loadHeld (s : State) : Bool :=
  s.ord.fence.any (fun e => match e.2 with | some f => f.pointAhead | none => false)
    || (List.range 16).any (fun w => s.o (K.FRZ_STATE w) == 1 && (s.win w).frz.point.isSome)

/-- Line n. -/
def State.line (s : State) (n : Nat) : Line := KMap.get {} s.tm.line n

/-- Update line n. -/
def State.updLine (s : State) (n : Nat) (f : Line → Line) : State :=
  { s with tm := { s.tm with line := KMap.upd {} s.tm.line n f } }

/-- Line n with other pulses; OUT_PENDING follows. -/
def State.setPulses (s : State) (n : Nat) (ps : List Pulse) : State :=
  (s.updLine n (fun l => { l with pulses := ps })).setO (K.OUT_PENDING n) ps.length

/-- At a load, pulses of line n that have not begun are cancelled; one in progress ends when it would have ended
(R170). -/
def State.loadPulses (s : State) (shift : Nat) (n : Nat) : State :=
  let l := s.line n
  let gone := (l.pulses.filter (fun p => !p.begun)).length
  (s.setPulses n ((l.pulses.filter (·.begun)).map (fun p => { p with at_ := (p.at_ + shift) % 2 ^ 64 }))).addO
    (K.OUT_DROPPED n) gone

/-- The machine stands at, or in the tick after, a boundary at which the hatband expects a sync edge (R173). DEDUCED: this is the
boundary "aligned with the sync edge" of R168 and "on the sync edge" of R180; the edge itself may come a little later. Before the
first alignment there is none. -/
def State.onSyncEdge (s : State) : Bool := s.tm.synced && (s.tm.ticks - s.tm.syncTick) % s.c K.SYNC_PERIOD == 0

/-- The boundary may be a load edge (R168). -/
def State.loadAligned (s : State) : Bool := s.c K.CT_LOAD_MODE == 1 || !s.cB K.SYNC_ENABLE || s.onSyncEdge

/-- The due instant of time messages at a boundary with this CT (R180). -/
def State.timeDueAt (s : State) (ct : Nat) : Bool :=
  ct % (s.c K.TIME_MSG_INTERVAL * 1000000) == 0 && (s.c K.TIME_MSG_PORTS_LO ≠ 0 || s.c K.TIME_MSG_PORTS_HI ≠ 0)

/-- The load takes effect at the boundary where the machine stands (R168, R170, R180). -/
def State.loadEdge (s : State) (v : Nat) : State :=
  let shift := (v + 2 ^ 64 - s.tm.ctBase) % 2 ^ 64
  let s := (List.range 40).foldl (fun (s : State) n => s.loadPulses shift n) s
  let s : State := { s with tm := { s.tm with ctBase := v, load := none, loaded := true, timeDue := s.tm.timeWas + b2n (s.timeDueAt v) } }
  ((s.setO K.LOAD_PENDING 0).incO K.CT_LOADS).updCtState

/-- CT_LOAD_EDGE (R168-R170): the tick boundary where the machine stands, the first after the write that CT_LOAD_MODE allows, is the
load edge, unless it is postponed. -/
def execCtLoadEdge (s : State) : Host.Outcome State Fault Refusal :=
  match s.tm.load with
  | none => .next s
  | some v =>
    .next (if s.hubHeld || s.cycle ≠ 0 || s.loadHeld || !s.loadAligned || s.tm.tickStart ≤ s.tm.loadAt then s else s.loadEdge v)

/-! ### Sync (R172-R174) -/

/-- Length that aligns the tick in progress to a first sync edge `d` ps after its start (R172). An edge 1,600 cycles or more after
it is where the tick ends. DEDUCED: a tick cannot end on an edge that comes earlier in it, as no tick is shortened so far; it
then ends 1,600 cycles after the edge, so that the later edges, whole microseconds after it, find a boundary. -/
def alignLength (d : Nat) : Nat :=
  let c := d / Config.fclk
  if c < 1600 then 1600 + c else min c 3199

/-- Phase error in ps of an edge at `t`: the edge minus the nearest expected boundary (R173). -/
def State.phaseError (s : State) (t : Nat) : Int :=
  let p : Int := ((s.c K.SYNC_PERIOD * Config.us : Nat) : Int)
  let since : Int := (t : Int) - (s.tm.tickStart : Int)
    + (((s.tm.ticks - s.tm.syncTick) * Config.tickPs : Nat) : Int)
  let r := since % p
  if p < 2 * r then r - p else r

/-- A sync miss is counted and raises the hatband's event (R174, R184). -/
def State.syncMiss (s : State) : State := (s.incO K.SYNC_MISSES).raiseCore 549 1 2 false hatband

/-- Far edges that were not used are rejected, each a miss (R173). -/
def State.missFar (s : State) (l : List (Int × Bool)) : State :=
  (l.filter (fun x => !x.2)).foldl (fun (s : State) _ => s.syncMiss) s

/-- An accepted edge sets what is still to be slewed (R173). -/
def State.acceptSync (s : State) (t : Nat) (e : Int) : State :=
  let late := s.tm.unresolved || s.ranTooLong
  -- the boundary measured against, as a number of ticks from power-on
  let near := ((t : Int) - e - (s.tm.tickStart : Int)) / (Config.tickPs : Int) + (s.tm.ticks : Int)
  let s : State := { s with tm := { s.tm with lastSync := t, syncTick := near.toNat, unresolved := false,
                                              slewLeft := if e.natAbs ≤ 1000 then 0 else e } }
  if late then s.raiseCore 549 1 4 false hatband else s

/-- A sync edge after the first alignment (R173). DEDUCED: a far edge is known to be lone, and counted, when the next edge does not
agree with it; edges agree when they do so apart from what the slew has moved the ticks between them. -/
def State.measureSync (s : State) (t : Nat) : State :=
  let e := s.phaseError t
  let s := s.setO K.SLEW_OFFSET (toSigned 32 (Int.tdiv e 1000))
  let far := s.tm.far
  if e.natAbs ≤ 50000 then (({ s with tm := { s.tm with far := [] } } : State).missFar far).acceptSync t e
  else
    let q := e + s.tm.slewed
    let keep := far.takeWhile (fun x => decide ((q - x.1).natAbs ≤ 2000))
    let used := keep.length == 2
    let next := ((q, used) :: keep.map (fun x => (x.1, x.2 || used))).take 2
    let s := ({ s with tm := { s.tm with far := next } } : State).missFar (far.drop keep.length)
    if used then s.acceptSync t e else s

/-- SYNC_EDGE (R172, R173): an edge of CHSYNC at time `at_`. -/
def execSyncEdge (at_ : Nat) (s : State) : Host.Outcome State Fault Refusal :=
  if s.hubHeld || !s.cB K.SYNC_ENABLE then .next s
  else
    let s := s.advance at_
    let s : State := { s with tm := { s.tm with lastEdge := at_ } }
    if s.tm.synced then .next (s.measureSync at_).updCtState
    else
      -- the boundary that lies on the edge: the one that began this tick as the alignment moves it, or the one that ends it
      let n := if at_ - s.tm.tickStart < Config.tickPs then s.tm.ticks else s.tm.ticks + 1
      .next { s with tm := { s.tm with synced := true, tickLen := alignLength (at_ - s.tm.tickStart), lastSync := at_,
                                       syncTick := n, slewLeft := 0 } }

/-- SYNC_MISS (R174): no edge within SYNC_PERIOD + 1 µs of the last one. -/
def execSyncMiss (s : State) : Host.Outcome State Fault Refusal :=
  if s.hubHeld || !s.cB K.SYNC_ENABLE || !s.tm.synced then .next s
  else
    let s := s.advance (s.tm.lastEdge + (s.c K.SYNC_PERIOD + 1) * Config.us)
    .next ({ s with tm := { s.tm with lastEdge := s.now } } : State).syncMiss

/-! ### Stamps -/

/-- Edges that a two-bit selection takes: bit 0 assertions, bit 1 releases (R183, R185, R193). -/
def edgeTaken (sel : Nat) (rise : Bool) : Bool := if rise then bit sel 0 else bit sel 1

/-- The moment of chassis time `ct`, in ps: now when it has passed. -/
def State.psOf (s : State) (ct : Nat) : Nat := if s.ct < ct then s.now + (ct - s.ct) * 1000 else s.now

/-- A covered write of a trigger fence is one with a step-4 CT before P (R188). -/
def State.coveredBy (s : State) (p : Nat) (id : Nat) : Bool :=
  match s.txn? id with
  | some t => decide (t.ct < p)
  | none => false

/-- A qualifying edge at `t` ps fixes CT_TRIG of an armed trigger fence (R188 steps 1 and 2): only writes made before P count for it; the
timeout runs from P (R189). -/
def State.armFence (s : State) (n : Nat) (rise : Bool) (stamp t : Nat) (f : Fence) : Fence :=
  if f.kind = .trigger && f.ctTrig.isNone && !f.ended && f.line == n && edgeTaken f.edge rise
      && decide (f.armedAt / Config.fclk ≤ t / Config.fclk) then
    let p := stamp + f.lag
    let errs := f.errs.filter (fun e => decide (e.1 < p))
    { f with ctTrig := some stamp, edgeSeen := if rise then 1 else 2, ctState := s.ctState,
             waits := f.waits.filter (s.coveredBy p), errs := [], dropCts := []
             error := !errs.isEmpty, first := (errs.head?.map (·.2)).getD 0xFF
             psDrops := (f.dropCts.filter (fun c => decide (c < p))).length
             deadline := some (s.psOf p + s.c K.FENCE_TIMEOUT * Config.us) }
  else f

/-- A qualifying edge fixes the freeze point of an armed freeze (R195). -/
def State.fireFreeze (s : State) (n : Nat) (rise : Bool) (stamp t : Nat) (w : Nat) : State :=
  let z := (s.win w).frz
  if s.o (K.FRZ_STATE w) == 1 && z.point.isNone && s.c (K.FRZ_LINE w) == n && edgeTaken (s.c (K.FRZ_EDGE w)) rise
      && decide (z.armedAt / Config.fclk ≤ t / Config.fclk) then
    let p := stamp + max (s.c (K.FRZ_LAG w)) (24 + s.c (K.IN_FILTER n))
    ((s.updWin w (fun v => { v with frz := { v.frz with point := some p } })).setO (K.FRZ_CT w)
      p).setO (K.FRZ_TRIG_CT w) stamp
  else s

/-- A capture ring notes an edge of a line in its trigger mask (R202). -/
def Slice.noteEdge (n stamp : Nat) (sl : Slice) : Slice :=
  { sl with ring := sl.ring.map (fun r => if bit r.mask n then { r with edges := r.edges ++ [(n, stamp)] } else r) }

/-- Trigger-message payload (R179). -/
def triggerPayload (win : List WinEdge) (seq : Nat) : Nat :=
  let lines := win.foldl (fun m e => setBit m e.line true) 0
  let level := win.foldl (fun m e => if e.rise then setBit m e.line true else m) 0
  let first := win.foldl (fun (a : Nat × Nat) e => if e.stamp < a.1 then (e.stamp, e.state) else a) (2 ^ 64, 0)
  lines + level * 2 ^ 40 + first.2 * 2 ^ 80 + seq % 2 ^ 32 * 2 ^ 96 + first.1 * 2 ^ 128

/-- The edges of the build window go in one message; with no waiting place they are counted (R178, R179). -/
def State.buildWindow (s : State) : State :=
  let win := s.tm.win
  let s : State := { s with tm := { s.tm with win := [] } }
  if win.isEmpty then s
  else if s.bcastRoom then
    let m : Bcast := { code := 1, payload := triggerPayload win s.tm.msgSeq }
    ({ s with tm := { s.tm with msgSeq := (s.tm.msgSeq + 1) % 2 ^ 32 } } : State).broadcast m
  else win.foldl (fun (s : State) e => (s.incO (K.MSG_OVERRUN e.line)).raiseCore 549 1 3 false hatband) s

/-- An edge of line n at time `t` is stamped (R175): the line's own record and holdoff, fences, freezes, rings, and the
message-build window (R178). -/
def State.stampEdge (s : State) (n : Nat) (rise : Bool) (t : Nat) : State :=
  let stamp := s.ctAt t
  let s := s.updLine n (fun l => { l with level := rise, lastAt := t, holdEnd := some (t + s.c (K.IN_HOLDOFF n) * 1000) })
  let s := (s.setO (K.LAST_STAMP n) stamp).incO (K.EDGE_COUNT n)
  let s := s.mapFences (s.armFence n rise stamp t)
  let s := (List.range 16).foldl (fun (s : State) w => s.fireFreeze n rise stamp t w) s
  let s : State := { s with mv := { s.mv with slice := KMap.mapVals {} (fun _ => Slice.noteEdge n stamp) s.mv.slice } }
  if s.cB (K.BCAST n) && edgeTaken (s.c (K.IN_EDGE n)) rise then
    let e : WinEdge := { line := n, rise := rise, stamp := stamp, state := s.ctState }
    -- an edge after the 6 cycles of the open window finds its message built (R78)
    let s := if s.tm.winAt + 6 * Config.fclk ≤ s.now then s.buildWindow else s
    { s with tm := { s.tm with winAt := if s.tm.win.isEmpty then s.now else s.tm.winAt, win := s.tm.win ++ [e] } }
  else s

/-- An edge of line n at the input: filtered, held off, or stamped (R175). `width` is the length of the pulse that the
edge begins; a pulse that the filter rejects is one command. -/
def State.edge (s : State) (n : Nat) (level : Bool) (t width : Nat) : State :=
  if s.hubHeld then s.updLine n (fun l => { l with level := level })
  else
    let s := s.advance t
    let l := s.line n
    if width < s.c (K.IN_FILTER n) * 1000 then s.addO (K.MERGED_COUNT n) 2
    else if (match l.holdEnd with | some h => decide (t < h) | none => false) then s.incO (K.MERGED_COUNT n)
    else if l.level == level then s
    else s.stampEdge n level t

/-- TRIG_EDGE (R175): line, the level after the edge, the moment it crossed the threshold and the pulse's width, in
ps. -/
def execTrigEdge (line : LineIx) (level : Bool) (at_ width : Nat) (s : State) : Host.Outcome State Fault Refusal :=
  .next (s.edge line level at_ width)

/-- HOLDOFF_END (R175): the level is sampled at the end of the holdoff and a change is stamped there. -/
def execHoldoffEnd (line : LineIx) (level : Bool) (s : State) : Host.Outcome State Fault Refusal :=
  match (s.line line).holdEnd with
  | none => .next s
  | some h =>
    if s.hubHeld then .next s
    else
      let s := (s.advance h).updLine line (fun l => { l with holdEnd := none })
      .next (if (s.line line).level == level then s else s.stampEdge line level h)

/-! ### Messages -/

/-- TRIGGER_MESSAGE_BUILD (R178, R179): 6 FCLK cycles after it opened, the build window goes out. -/
def execTriggerMessageBuild (s : State) : Host.Outcome State Fault Refusal :=
  if s.tm.win.isEmpty || s.hubHeld then .next s
  else .next (s.advance (s.tm.winAt + 6 * Config.fclk)).buildWindow

/-- TIME_MESSAGE_SEND (R180): the oldest message that is due is sent at the boundary where the machine stands, or skipped; while
SYNC_ENABLE is true it waits for a boundary on a sync edge. -/
def execTimeMessageSend (s : State) : Host.Outcome State Fault Refusal :=
  if s.tm.timeDue == 0 || s.hubHeld || (s.cB K.SYNC_ENABLE && !s.onSyncEdge) then .next s
  else
    let s : State := { s with tm := { s.tm with timeDue := s.tm.timeDue - 1, timeWas := s.tm.timeWas - 1 } }
    if s.bcastRoom then
      let m : Bcast := { code := 2, payload := s.tm.ctBase + s.ctState * 2 ^ 64 + s.tm.timeSeq * 2 ^ 96 }
      .next (({ s with tm := { s.tm with timeSeq := (s.tm.timeSeq + 1) % 2 ^ 32 } } : State).broadcast m)
    else .next (s.incO K.TIME_MSG_SKIPPED)

/-! ### Scheduled outputs -/

/-- Scheduled release of the latest pending pulse of a line, in CT. -/
def lastRelease (ps : List Pulse) : Option Nat :=
  ps.foldl (fun m p => some (max (m.getD 0) (p.at_ + p.width))) none

/-- OUT_AT's own rule (R181). -/
def ownOutAt (n v : Nat) (s : State) : OdAns × State :=
  let ps := (s.line n).pulses
  let early := decide (v < s.ct + 2000) || (match lastRelease ps with | some r => decide (v < r + 8) | none => false)
  if s.c (K.LINE_DIR n) == 0 || 8 ≤ ps.length then (odNo 0x0504, s)
  else if early then (odNo 0x0504, s.incO (K.OUT_LATE n))
  else (odOk, s.setPulses n (ps ++ [{ at_ := v, width := s.c (K.OUT_WIDTH n) }]))

/-- OUT_AT (R181). -/
def execOutAt (sess : SessRef) (line : LineIx) (v : Word64) (s : State) : Host.Outcome State Fault Refusal :=
  .next (s.odCommand sess (K.OUT_AT line) 8 v.toNat (ownOutAt line v.toNat))

/-- OUT_CANCEL's own rule (R181): pulses that have not begun are cancelled. -/
def ownOutCancel (n : Nat) (s : State) : OdAns × State :=
  (odOk, s.setPulses n ((s.line n).pulses.filter (·.begun)))

/-- OUT_CANCEL (R181). -/
def execOutCancel (sess : SessRef) (line : LineIx) (v : Byte) (s : State) : Host.Outcome State Fault Refusal :=
  .next (s.odCommand sess (K.OUT_CANCEL line) 1 v.toNat (ownOutCancel line))

/-- The first pending pulse begins. -/
def beginFirst : List Pulse → List Pulse
  | [] => []
  | p :: ps => { p with begun := true } :: ps

/-- PULSE_ASSERT (R182): the first pending pulse asserts its line at CT_AT; the edge is stamped like any other. -/
def execPulseAssert (line : LineIx) (s : State) : Host.Outcome State Fault Refusal :=
  match (s.line line).pulses with
  | [] => .next s
  | p :: _ =>
    if p.begun || s.hubHeld then .next s
    else
      let s := s.advance (s.psOf p.at_)
      let s := s.setPulses line (beginFirst (s.line line).pulses)
      .next (if s.c (K.LINE_DIR line) == 0 then s else s.edge line true s.now (p.width * 1000))

/-- PULSE_RELEASE (R182): OUT_WIDTH later the pulse ends: a STAR output is driven released; a TRIG driver turns off,
and the bus's own edge comes with TRIG_EDGE. -/
def execPulseRelease (line : LineIx) (s : State) : Host.Outcome State Fault Refusal :=
  match (s.line line).pulses with
  | [] => .next s
  | p :: ps =>
    if !p.begun || s.hubHeld then .next s
    else
      let s := (s.advance (s.psOf (p.at_ + p.width))).setPulses line ps
      let gap := match ps with | q :: _ => (q.at_ - (p.at_ + p.width)) * 1000 | [] => Config.ms
      .next (if line.val < 16 || s.c (K.LINE_DIR line) == 0 then s else s.edge line false s.now gap)

end Sys2Proof.Machine
end

