-- ==== Sys2Proof/Machine/Fences.lean ====
section
/-!
DEFINITION. Fabric, slice and trigger fences: doorbells, their ends, their records (R131-R143, R185-R191).
-/
namespace Sys2Proof.Machine

/-- Source of the writes that the fence logic issues: R39 names none for it. DESIGN CHOICE: the crown's. -/
def fenceSource : Nat := 0x78

/-- Destination of a record in the view of the fence's agent (R138): a host's or slice's by HDM decoders first, an end
device's by R243. A record reaches memory, a device or a host only. -/
def State.recordDest (s : State) (f : Fence) : Dest :=
  if 0x10000000 ≤ f.agent && f.agent < 0x20000000 then
    let h := (s.slice (f.agent - 0x10000000)).host
    (s.hdmDest h f.recAddr).getD (.host h)
  else match s.vcsOf f.port with
    | none => .miss
    | some (n, v) =>
      if f.agent < 0x1000000 then (s.hdmDest n f.recAddr).getD (s.hostIoDest n f.recAddr)
      else s.devIoDest n v f.recAddr

/-- Guard check of a record write, as if the agent had issued it (R138). -/
def State.recordCheck (s : State) (f : Fence) (len : Nat) : Option GFault :=
  if 0x10000000 ≤ f.agent && f.agent < 0x20000000 then s.sliceCheck (f.agent - 0x10000000) { write := true } f.recAddr len
  else match s.vcsOf f.port with
    | none => none
    | some (n, _) => s.portGuard f.port n { write := true } f.recAddr len

/-- Master ID of a fence's agent (R448). -/
def State.fenceMaster (s : State) (f : Fence) : Nat :=
  if 0x10000000 ≤ f.agent && f.agent < 0x20000000 then 0x60 + (s.slice (f.agent - 0x10000000)).engine else f.port

/-- Write a record of the fence's agent (R138): a BULK posted write through the agent merge; a record that the guard refuses
is not written. -/
def State.writeRecord (s : State) (f : Fence) (len data : Nat) : State :=
  match s.recordCheck f len with
  | some g =>
    let s := s.raise 550 1 2
    if 0x10000000 ≤ f.agent then s.raise (552 + (s.slice (f.agent - 0x10000000)).engine) 1 1
      false { master := s.fenceMaster f, access := 2, addr := some g.addr, detail := f.agent % 2048 }
    else s.portGuardFault f.port (s.fenceMaster f) 2 f.recAddr g
  | none =>
    let t : Txn := { purpose := .agent, master := 0x82, port := 0xFF, dest := 0xFF, write := true, posted := true,
                     addr := f.recAddr, bytes := len, data := data }
    (s.hubIssue (s.recordDest f) t fenceSource 0).2

/-- A record of the agent would be written: the guard lets it pass, and it has somewhere to go (R138, R144). -/
def State.recordGoes (s : State) (f : Fence) (len : Nat) : Bool :=
  (s.recordCheck f len).isNone && (match s.recordDest f with
    | .window _ _ => true
    | .pool m d => s.linkUp (s.destPort (.pool m d))
    | .bound a b c d => s.linkUp (s.destPort (.bound a b c d))
    | .host h => s.linkUp (s.destPort (.host h))
    | _ => false)

/-- Bits [127:0] of a record (R137). -/
def recordLow (token status first drops ct : Nat) : Nat :=
  packLE [(token, 2), (status, 1), (first, 1), (min drops 0xFFFFFFFF, 4), (ct, 8)]

/-- Bits [255:128] of a trigger fence's record (R191). -/
def recordHigh (f : Fence) : Nat :=
  (f.ctTrig.getD 0) % 2 ^ 64 + f.line % 64 * 2 ^ 64 + f.edgeSeen % 4 * 2 ^ 70 + f.ctState % 8 * 2 ^ 72
    + min f.psDrops 0xFFFFFFFF * 2 ^ 80

/-- VIEW drops of an agent since its previous record. -/
def State.drops (s : State) (a : Nat) : Nat := KMap.get 0 s.ord.viewDrops a

/-- A fence by number. -/
def State.fence? (s : State) (id : Nat) : Option Fence := KMap.get none s.ord.fence id

/-- Fences outstanding with a doorbell. -/
def State.fencesOut (s : State) : List (Nat × Fence) :=
  s.ord.fence.filterMap (fun e => match e.2 with | some f => if f.kind = .barSys then none else some (e.1, f) | none => none)

/-- Outstanding fences of an agent, in the order of their doorbells. -/
def State.fencesOf (s : State) (a : Nat) : List (Nat × Fence) := s.fencesOut.filter (fun e => e.2.agent == a)

/-- Write the record of an ended fence and free it (R137, R191). -/
def State.finishFence (s : State) (id : Nat) (f : Fence) : State :=
  let low := recordLow f.token f.status (if f.status == 1 || f.status == 2 then f.first else 0xFF) (s.drops f.agent) f.ctDone
  let clears := decide (f.status ≤ 2)
  let s : State := { s with ord := { s.ord with fence := KMap.set none s.ord.fence id none } }
  let s := if f.kind = .trigger then s.writeRecord f 32 (low + recordHigh f * 2 ^ 128) else s.writeRecord f 16 low
  let s := if clears then { s with ord := { s.ord with viewDrops := KMap.set 0 s.ord.viewDrops f.agent 0 } } else s
  if f.status ≤ 1 then s.incO K.FENCES_DONE else if f.status == 2 then s.incO K.FENCES_TIMED_OUT else s

/-- Records leave in the order of the doorbells: ended fences at the front of the agent's list write theirs (R139). -/
def State.finishInOrder (s : State) (a : Nat) : Nat → State
  | 0 => s
  | n + 1 =>
    match s.fencesOf a with
    | (id, f) :: _ => if f.ended then (s.finishFence id f).finishInOrder a n else s
    | [] => s

/-- A fence ends with a status (R136, R141, R189). DESIGN CHOICE: STATUS and CT_DONE are those of the moment at which its own writes have
ended or its time has run out, also when its record waits for an earlier fence's (R139). -/
def State.endFence (s : State) (id : Nat) (f : Fence) (status : Nat) : State :=
  let first := if f.error || status ≠ 2 then f.first
    else match f.waits.head? with
      | some w => (match s.txn? w with | some t => t.named | none => 0xFF)
      | none => 0xFF
  let f' := { f with ended := true, status := status, ctDone := s.ct, first := first, waits := [], descs := [] }
  let s : State := { s with ord := { s.ord with fence := KMap.set none s.ord.fence id (some f') } }
  s.finishInOrder f.agent 1024

/-- Every covered write has ended, and the point has come (R136, R188). -/
def State.fenceDone (s : State) (f : Fence) : Bool :=
  !f.ended && f.waits.isEmpty && f.descs.isEmpty
    && (f.kind ≠ .trigger || (match f.point with | some p => decide (p ≤ s.ct) | none => false))

/-- FENCE_END (R136, R137). -/
def execFenceEnd (id : Nat) (s : State) : Host.Outcome State Fault Refusal :=
  match s.fence? id with
  | none => .next s
  | some f => .next (if f.kind ≠ .barSys && s.fenceDone f then s.endFence id f (if f.error then 1 else 0) else s)

/-- FENCE_TIMEOUT (R141, R189): of a trigger fence only after its edge. A fence whose covered writes had all ended before is done. -/
def execFenceTimeout (id : Nat) (s : State) : Host.Outcome State Fault Refusal :=
  match s.fence? id with
  | none => .next s
  | some f =>
    match f.deadline with
    | none => .next s
    | some d =>
      if f.kind = .barSys || f.ended || (f.kind = .trigger && f.ctTrig.isNone) then .next s
      else if s.fenceDone f then .next (s.endFence id f (if f.error then 1 else 0))
      else .next (((s.advance d).endFence id f 2).raise 550 1 1)

/-- TFENCE_WAIT_EXPIRY (R189): NO_TRIGGER. -/
def execTfenceWaitExpiry (id : Nat) (s : State) : Host.Outcome State Fault Refusal :=
  match s.fence? id with
  | none => .next s
  | some f =>
    match f.deadline with
    | none => .next s
    | some d =>
      if f.kind ≠ .trigger || f.ended || f.ctTrig.isSome then .next s
      else .next ((s.advance d).endFence id { f with error := false } 5)

/-! ### Doorbells (R132-R135, R140, R185, R186) -/

/-- The doorbell is malformed (R133, R186). -/
def State.malformed (s : State) (w : Nat) : Bool :=
  let kind := bits w 83 80
  if kind == 0 then bits w 127 84 ≠ 0
  else if kind == 1 then
    let k := bits w 95 92
    decide (40 ≤ bits w 89 84) || bits w 91 90 == 0 || bits w 127 108 ≠ 0 || bits w 63 0 % 32 ≠ 0
      || (s.c (K.PS_PORTS_LO k) == 0 && s.c (K.PS_PORTS_HI k) == 0 && s.c (K.PS_HUB k) == 0)
  else true

/-- Writes outstanding that a fence covers at its doorbell (R135, R188). -/
def State.writesNow (s : State) (f : Fence) : List Nat :=
  s.txnsWhere (fun t => t.write && (if f.kind = .trigger then s.participant f.pset t.master else t.agent == f.agent))

/-- An edge already stamped at or after the doorbell arms a trigger fence at once (R188). -/
def State.armAtOnce (s : State) (f : Fence) : Fence :=
  let l := s.line f.line
  if f.kind = .trigger && 0 < s.o (K.EDGE_COUNT f.line) then s.armFence f.line l.level (s.o (K.LAST_STAMP f.line)) l.lastAt f
  else f

/-- A well-formed doorbell of an agent: a fence starts, with the errors of the agent's writes since its last one (DESIGN CHOICE: each error is told
by one fence; R135 has a fence cover every earlier write), or a MALFORMED or REFUSED record is written at once (R133,
R140). DEDUCED: neither waits for earlier records (R139 speaks of fences). -/
def State.ring (s : State) (agent port rid : Nat) (w : Nat) (descs : List Nat) : State :=
  let trig := bits w 83 80 == 1
  let f : Fence := { kind := if trig then .trigger else if descs.isEmpty && agent < 0x10000000 then .fabric else .slice,
                     agent := agent, token := bits w 79 64, recAddr := bits w 63 0, port := port, rid := rid, seq := s.ord.nextFence }
  let bad := s.malformed w
  let full := decide (8 ≤ (s.fencesOf agent).length) || decide (1024 ≤ s.fencesOut.length)
  if bad || full then
    let f := { f with kind := .fabric }
    (if s.recordGoes f 16 then s.incO K.FENCES_REFUSED else s).writeRecord f 16
      (recordLow f.token (if bad then 4 else 3) 0xFF (s.drops agent) s.ct)
  else
    let f := if trig then
        { f with line := bits w 89 84, edge := bits w 91 90, pset := bits w 95 92, lag := bits w 107 96, armedAt := s.now,
                 deadline := some (s.now + s.c K.TFENCE_WAIT * Config.ms) }
      else
        let e := KMap.get 0 s.ord.errSince agent
        { f with deadline := some (s.now + s.c K.FENCE_TIMEOUT * Config.us), descs := descs, error := e ≠ 0, first := if e == 0 then 0xFF else e - 1 }
    let f := s.armAtOnce { f with waits := s.writesNow f }
    let s : State := if trig then s else { s with ord := { s.ord with errSince := KMap.set 0 s.ord.errSince agent 0 } }
    let s : State := { s with ord := { s.ord with fence := KMap.set none s.ord.fence s.ord.nextFence (some f), nextFence := s.ord.nextFence + 1 } }
    s.maxO K.FENCE_HIGH_WATER s.fencesOut.length

/-- A write that R133 discards. -/
def State.discardDoorbell (s : State) (p : Nat) : State :=
  (s.incO K.DOORBELLS_DISCARDED).raise (4 * p + 2) 1 0x21 false { master := p, access := 2 }

/-- Agent of a doorbell written at port p (R134). -/
def State.doorbellAgent (s : State) (p rid n : Nat) : Nat := if s.o (K.ROLE p) == 1 then agentHost n else agentDev p rid

/-- A write to the fence aperture of VCS n by an agent at port p. -/
def State.apertureWrite (s : State) (p rid n off nbytes w : Nat) : State :=
  if nbytes ≠ 16 || off % 16 ≠ 0 || bits w 63 0 % 16 ≠ 0 then s.discardDoorbell p
  else s.ring (s.doorbellAgent p rid n) p rid w []

/-- FENCE_DOORBELL (R131-R135): a write to the fence aperture of the port's VCS; where there is none, no aperture
claims it. -/
def execFenceDoorbell (p : PortIx) (rid : BitVec 16) (offset : BitVec 12) (nbytes : Nat) (word : BitVec 128) (s : State) :
    Host.Outcome State Fault Refusal :=
  let q := s.lead p
  if !s.linkUp q then .next s
  else match s.vcsOf q with
    | none => .next s
    | some (n, _) =>
      if !s.cB (K.FENCE_ENABLE n) then .next s
      else .next (s.apertureWrite q rid.toNat n offset.toNat nbytes word.toNat)

end Sys2Proof.Machine
end

