-- ==== Sys2Proof/Machine/CoreMem.lean ====
section
/-!
DEFINITION. The service cores' memory: the cluster SRAM, store buffers, barriers, reservations (R145-R162).
-/
namespace Sys2Proof.Machine

/-! ### The cluster SRAM: a byte that nothing has written reads 0 (R162) -/

/-- The SRAM's canonical form: addresses strictly rising, no entry 0. -/
abbrev Memory.wf (m : List Host.Cell) : Prop := KMap.wf (fun _ => (0 : BitVec 8)) m = true

/-- One byte. -/
def Memory.byte (m : List Host.Cell) (a : Nat) : BitVec 8 := KMap.get 0 m a

/-- Write one byte, keeping the canonical form. -/
def Memory.setByte (m : List Host.Cell) (a : Nat) (v : BitVec 8) : List Host.Cell := KMap.set 0 m a v

/-- Read n bytes, least significant first (R3). -/
def Memory.read (m : List Host.Cell) (a : Nat) : Nat → Nat
  | 0 => 0
  | n + 1 => (Memory.byte m a).toNat + 256 * Memory.read m (a + 1) n

/-- Write n bytes of a number. -/
def Memory.write (m : List Host.Cell) (a : Nat) : Nat → Nat → List Host.Cell
  | 0, _ => m
  | n + 1, v => Memory.write (Memory.setByte m a (BitVec.ofNat 8 v)) (a + 1) n (v / 256)

/-! ### Reservations (R154-R156) -/

/-- Another agent has stored to granule g of the SRAM: reservations on it are lost; `but` is the storing core. -/
def State.dropCluster (s : State) (g but : Nat) : State :=
  let f := fun (c : Nat) (x : SvcCore) => match x.resv with
    | some r => if !r.fabric && r.granule == g && c ≠ but then { x with resv := none } else x
    | none => x
  { s with ord := { s.ord with core := KMap.mapVals {} f s.ord.core } }

/-- A window line was stored to, or granted in X: reservation tags on it are lost; `but` names the core that stored. -/
def State.dropTags (s : State) (w line but : Nat) : State :=
  s.loseTags (fun c => KMap.get none s.cr.resTag c == some (w, line) && c ≠ but)

/-- The crown has served an LDRES of core c: it keeps the tag, and the reservation is the core's unless an STCOND has used it up already
(R154, R158). -/
def State.tagTaken (s : State) (c w line : Nat) : State :=
  match (s.coreAt c).resPend with
  | none => s
  | some (r, held) =>
    if r.w ≠ w || r.line ≠ line then s
    else
      let s := s.updCore c (fun x => { x with resPend := none, resv := if held then some r else x.resv })
      { s with cr := { s.cr with resTag := KMap.set none s.cr.resTag c (some (w, line)) } }

/-- Core c gives up its reservation, or the one that it has asked for, and its tag at the crown. -/
def State.clearResv (s : State) (c : Nat) : State :=
  let s := s.updCore c (fun x => { x with resv := none, resPend := none })
  { s with cr := { s.cr with resTag := KMap.set none s.cr.resTag c none } }

/-! ### Stores (R148) -/

/-- The cluster SRAM as core c sees it: its own buffered stores are read early (R148). -/
def State.coreSram (s : State) (c : Nat) : List Host.Cell :=
  (s.coreAt c).buf.foldl (fun (m : List Host.Cell) b => if b.fabric then m else Memory.write m b.addr b.bytes b.data) s.ord.sram

/-- The first late load of core c gets its value (R147). -/
def State.performLoad (s : State) (c : Nat) : State :=
  match (s.coreAt c).late with
  | [] => s
  | (a, n) :: l =>
    let v := Memory.read (s.coreSram c) a n
    s.updCore c (fun x => { x with late := l, loads := x.loads - 1, rd := v })

/-- Every late load of core c gets its value: before a barrier ends, before an exception. -/
def State.performLoads (s : State) (c : Nat) : State := (List.range (s.coreAt c).late.length).foldl (fun (s : State) _ => s.performLoad c) s

/-- The late loads of core c that overlap an access are performed before it (R147). -/
def State.performOverlap (s : State) (c a n : Nat) : State :=
  if (s.coreAt c).late.any (fun e => decide (e.1 < a + n) && decide (a < e.1 + e.2)) then s.performLoads c else s

/-- Core c takes an exception or an interrupt (R156, R160): buffered stores stay; the reservation is lost; supervisor code
runs. Older loads have their values. -/
def State.coreException (s : State) (c cause : Nat) : State :=
  ((s.performLoads c).clearResv c).updCore c (fun x => { x with except := cause, sup := true })

/-- Two byte ranges overlap. -/
def BufStore.hits (b : BufStore) (a n : Nat) : Bool := decide (b.addr < a + n) && decide (a < b.addr + b.bytes)

/-- Bytes of a number, `n` from byte `k`. -/
def sliceBytes (v k n : Nat) : Nat := v / 2 ^ (8 * k) % 2 ^ (8 * n)

/-- Pieces of an access: the parts that lie in one aligned 8-byte word each (R151): offset and length. -/
def accessPieces (a n : Nat) : List (Nat × Nat) :=
  let first := min n (8 - a % 8)
  if first == n then [(0, n)] else [(0, first), (first, n - first)]

/-- Destination of a core's fabric access (R386, R90). -/
def coreDest (a : Nat) : Dest :=
  match coreSpace a with
  | .window w off => .window w (off / 64)
  | .raw m dpa => .pool m dpa
  | _ => .miss

/-- Issue a core's fabric access: its flow is the core's own (R208), its class COH for a window line, else BULK (R24). -/
def State.coreIssue (s : State) (c a n : Nat) (write : Bool) (data step total : Nat) (tag : Nat := 0) : State :=
  let d := coreDest a
  let cls : Cls := match d with | .window _ _ => .coh | _ => .bulk
  let t : Txn := { purpose := .core, master := 0x70 + c, port := 0xFF, agent := agentCore c, dest := 0xFF, write := write,
                   addr := a, bytes := n, data := data, cls := cls, step := step, line := total, tag := tag, view := a }
  (s.hubIssue d t (0x70 + c) 0).2

/-- A store leaves the buffer (R148): to the SRAM at one moment, or into the core's flow. A BAR.SYS that waits covers
it. -/
def State.performStore (s : State) (c : Nat) (b : BufStore) : State :=
  let s := s.updCore c (fun x => { x with buf := x.buf.filter (·.id ≠ b.id) })
  if b.fabric then
    (accessPieces b.addr b.bytes).foldl (fun (s : State) p =>
      let id := s.ord.nextTxn
      let s := s.coreIssue c (b.addr + p.1) p.2 true (sliceBytes b.data p.1 p.2) 0 b.bytes
      if (s.txn? id).isSome then
        s.mapFences (fun f => if f.kind = .barSys && f.agent == agentCore c then { f with waits := f.waits ++ [id] } else f)
      else s) s
  else
    let s : State := { s with ord := { s.ord with sram := Memory.write s.ord.sram b.addr b.bytes b.data } }
    (s.dropCluster (b.addr / 64) c).dropCluster ((b.addr + b.bytes - 1) / 64) c

/-- Every buffered store that overlaps a range leaves, oldest first. -/
def State.drainOverlap (s : State) (c a n : Nat) : State :=
  ((s.coreAt c).buf.filter (·.hits a n)).foldl (fun s b => s.performStore c b) s

/-- Every buffered store leaves, oldest first (R164 step 1). -/
def State.drainCore (s : State) (c : Nat) : State := (s.coreAt c).buf.foldl (fun s b => s.performStore c b) s

/-- STORE_BUFFER_RELEASE (R148): the store at a place of the buffer leaves; not before an older one that it overlaps
(R147). -/
def execStoreBufferRelease (c : CoreIx) (ix : Fin 32) (s : State) : Host.Outcome State Fault Refusal :=
  let buf := (s.coreAt c).buf
  match buf[ix.val]? with
  | none => .next s
  | some b => .next (if s.hubHeld || (buf.take ix.val).any (·.hits b.addr b.bytes) then s else s.performStore c b)

/-! ### Barriers (R149, R150) -/

/-- The BAR.SYS of core c, if one waits. -/
def State.barFence (s : State) (c : Nat) : Option (Nat × Fence) :=
  s.ord.fence.findSome? (fun e => match e.2 with
    | some f => if f.kind = .barSys && f.agent == agentCore c then some (e.1, f) else none
    | none => none)

/-- The condition of the barrier that core c waits for holds (R149). -/
def State.barHolds (s : State) (c : Nat) : Bool :=
  let x := s.coreAt c
  if x.bar == 0 then true
  else if x.bar == 1 then x.loads == 0
  else if x.bar == 2 then x.loads == 0 && x.buf.isEmpty
  else x.loads == 0 && x.buf.isEmpty && (match s.barFence c with | some e => e.2.waits.isEmpty | none => true)

/-- The barrier of core c ends. -/
def State.endBar (s : State) (c : Nat) : State :=
  let s : State := match s.barFence c with
    | some e => { s with ord := { s.ord with fence := KMap.set none s.ord.fence e.1 none } }
    | none => s
  s.updCore c (fun x => { x with bar := 0 })

/-- The barrier of core c ends if its condition holds. -/
def State.settleBar (s : State) (c : Nat) : State := if s.barHolds c then s.endBar c else s

/-- Core c runs, no swap of its image holds it (R525), and it waits for no barrier: its next access is performed. -/
def State.coreRuns (s : State) (c : Nat) : Bool :=
  !s.hubHeld && !(s.blk (568 + c)).contain && !s.life.svcRestart && (s.coreAt c).bar == 0

/-- The service cores have drained: no store is buffered and no load outstanding. -/
def State.coresDrained (s : State) : Bool :=
  [0, 1, 2, 3].all (fun c => (s.coreAt c).buf.isEmpty && (s.coreAt c).loads == 0) && (s.txnsWhere (fun t => decide (t.purpose = .core))).isEmpty

/-- Core c restarts: supervisor code runs, with no reservation and no barrier. DESIGN CHOICE: its region set stays, as R525 names only
the drain, the hold and the restart. -/
def State.restartCore (s : State) (c : Nat) : State :=
  ((s.endBar c).clearResv c).updCore c (fun x => { x with sup := true, rd := 0, except := 0, late := [], resPend := none })

/-- The cores that are held for a swap of their image drain as by BAR.SYS, and restart once the swap has ended (R525). -/
def State.settleSwap (s : State) : State :=
  if !s.life.svcRestart then s
  else
    let s := [0, 1, 2, 3].foldl (fun (s : State) c => (s.performLoads c).drainCore c) s
    if s.life.swapping == some 4 || !s.coresDrained then s
    else [0, 1, 2, 3].foldl State.restartCore { s with life := { s.life with svcRestart := false } }

/-- A barrier instruction: the core waits for its condition before any later access. -/
def State.startBar (s : State) (c k : Nat) : State :=
  let s := s.settleBar c
  if !s.coreRuns c then s
  else
    let s := (s.performLoads c).updCore c (fun x => { x with bar := k })
    let s : State := if k == 3 then
        let f : Fence := { kind := .barSys, agent := agentCore c, deadline := some (s.now + s.c K.FENCE_TIMEOUT * Config.us),
                           waits := s.txnsWhere (fun t => t.write && t.agent == agentCore c && t.purpose = .core) }
        { s with ord := { s.ord with fence := KMap.set none s.ord.fence s.ord.nextFence (some f), nextFence := s.ord.nextFence + 1 } }
      else s
    s.settleBar c

/-- BAR.CORE (R149). -/
def execBarCore (c : CoreIx) (s : State) : Host.Outcome State Fault Refusal := .next (s.startBar c 1)
/-- BAR.CLU (R149). -/
def execBarClu (c : CoreIx) (s : State) : Host.Outcome State Fault Refusal := .next (s.startBar c 2)
/-- BAR.SYS (R149, R150): a fabric fence of the core with no record. -/
def execBarSys (c : CoreIx) (s : State) : Host.Outcome State Fault Refusal := .next (s.startBar c 3)

/-- BAR_SYS_TIMEOUT (R150): the barrier ends with no guarantee, and execution continues. -/
def execBarSysTimeout (c : CoreIx) (s : State) : Host.Outcome State Fault Refusal :=
  let s := s.settleBar c
  match s.barFence c with
  | none => .next s
  | some e =>
    let s := (s.advance (e.2.deadline.getD s.now)).endBar c
    .next ((s.updCore c (fun x => { x with barTimeout := true, barAt := s.now })).raise (568 + c.val) 1 3 false { master := 0x70 + c.val })

/-- CORE_EXCEPTION (R160): an exception or interrupt of core c. -/
def execCoreException (c : CoreIx) (s : State) : Host.Outcome State Fault Refusal :=
  .next (if s.hubHeld then s else s.coreException c 0)

/-- SVC_COREn_MEMSTAT (R165). -/
def State.memStat (s : State) (c : Nat) : Nat :=
  let x := s.coreAt c
  b2n x.resv.isSome + b2n (match x.resv with | some r => r.fabric | none => false) * 2 + b2n x.asyncWerr * 16
    + b2n x.barTimeout * 32 + b2n x.buf.isEmpty * 64 + x.buf.length * 256

/-- A write of SVC_COREn_MEMSTAT: W1C bits 4 and 5, unless set in the same cycle (R7). -/
def State.memStatWrite (s : State) (c v : Nat) : State :=
  s.updCore c (fun x => { x with
    asyncWerr := x.asyncWerr && (!bit v 4 || sameCycle x.werrAt s.now),
    barTimeout := x.barTimeout && (!bit v 5 || sameCycle x.barAt s.now) })

end Sys2Proof.Machine
end

