-- ==== Sys2Proof/Machine/Directory.lean ====
section
/-!
DEFINITION. The crown's directory: entries, their legal forms and their changes (R84-R92, R110, R122), and the memory,
snoop and brim traffic that the crown originates (R73, R94, R100, R116).
-/
namespace Sys2Proof.Machine

/-! ### Entries -/

/-- The entry that the crown sees: the directory cache's copy, else the in-memory one (R111). -/
def State.dirEntry (s : State) (w line : Nat) : DirEntry :=
  (KMap.get none s.cr.cached (dirKey w line)).getD (KMap.get {} s.cr.dir (dirKey w line))

/-- Change an entry in the cache, or through to the in-memory directory (R110). -/
def State.setDir (s : State) (w line : Nat) (e : DirEntry) (through : Bool) : State :=
  let k := dirKey w line
  if through then
    { s with cr := { s.cr with dir := KMap.set {} s.cr.dir k e, cached := KMap.set none s.cr.cached k none } }
  else
    { s with cr := { s.cr with cached := KMap.set none s.cr.cached k (if e = KMap.get {} s.cr.dir k then none else some e) } }

/-- Distinct hosts in the three slots (R85). -/
def DirEntry.ptrs (e : DirEntry) : List Nat := [bits e.hosts 5 0, bits e.hosts 11 6, bits e.hosts 17 12].eraseDups

/-- Hosts that the entry names, exactly or by group (R84, R85). -/
def DirEntry.named (e : DirEntry) : List Nat :=
  if e.state = .i then []
  else if e.hmode == 0 then e.ptrs
  else (bitList 16 e.hosts).flatMap (fun g => (List.range 4).map (4 * g + ·))

/-- Owner of an entry in X. -/
def DirEntry.owner (e : DirEntry) : Nat := bits e.hosts 5 0

/-- HOSTS of one to three hosts: slots filled from slot 0, the rest repeat slot 0 (R85). -/
def packHosts (hs : List Nat) : Nat :=
  let a := hs.headD 0
  a + (hs[1]?).getD a * 64 + (hs[2]?).getD a * 4096

/-- Coarse vector of a list of hosts. -/
def coarseOf (hs : List Nat) : Nat := (hs.map (· / 4)).foldl (fun v g => setBit v g true) 0

/-- The entry in state I; the freeze epoch and the poison mark stay. -/
def DirEntry.toI (e : DirEntry) : DirEntry := { epoch := e.epoch, poison := e.poison }

/-- The entry in S, SF or X with these hosts by pointer. -/
def DirEntry.withHosts (e : DirEntry) (st : DirState) (hs : List Nat) (brim fwd : Nat) : DirEntry :=
  { e with state := st, hmode := 0, hosts := packHosts hs, brim := brim, fwd := fwd }

/-- Add a host (R88): a fourth one makes the entry coarse. -/
def DirEntry.addHost (e : DirEntry) (h : Nat) : DirEntry :=
  if e.hmode == 1 then { e with hosts := setBit e.hosts (h / 4) true }
  else if e.ptrs.contains h then e
  else if e.ptrs.length < 3 then { e with hosts := packHosts (e.ptrs ++ [h]) }
  else { e with state := .s, hmode := 1, fwd := 0, hosts := coarseOf (e.ptrs ++ [h]) }

/-- Remove a host of a pointer-mode entry (R89). -/
def DirEntry.dropHost (e : DirEntry) (h : Nat) : DirEntry :=
  let hs := e.ptrs.filter (· ≠ h)
  if !hs.isEmpty then { e with hosts := packHosts hs }
  else if e.brim ≠ 0 then { e with state := .s, hmode := 1, hosts := 0, fwd := 0 }
  else e.toI

/-- The forms of R86. DESIGN CHOICE: any three slot values name one to three hosts; a packing other than R85's (a repeat of a slot other
than slot 0) is not called illegal. -/
def DirEntry.legal (e : DirEntry) : Bool :=
  let form := match e.state with
    | .i => e.hmode == 0 && e.brim == 0 && e.fwd == 0 && e.hosts == 0
    | .s => e.fwd == 0 && decide (e.brim < 16)
        && (if e.hmode == 1 then decide (e.hosts < 65536) && !(e.brim == 0 && e.hosts == 0) else e.hmode == 0 && decide (e.hosts < 2 ^ 18))
    | .sf => e.hmode == 0 && decide (e.brim < 16) && decide (e.fwd < 4) && bit e.brim e.fwd && decide (e.hosts < 2 ^ 18)
    | .x => e.hmode == 0 && e.brim == 0 && e.fwd == 0 && e.hosts == packHosts [e.owner]
  form && !(e.poison && e.state = .sf) && e.rsv == 0

/-- Code of a state. -/
def DirState.num : DirState → Nat
  | .i => 0 | .s => 1 | .sf => 2 | .x => 3

/-- The 32-bit word of an entry (R84). -/
def DirEntry.word (e : DirEntry) : Nat :=
  e.state.num + e.brim * 4 + e.fwd * 64 + e.hmode * 256 + e.hosts * 512 + b2n e.epoch * 2 ^ 27 + b2n e.poison * 2 ^ 28
    + e.rsv * 2 ^ 29

/-- The entry that a 32-bit word holds (R84). -/
def DirEntry.ofWord (v : Nat) : DirEntry :=
  { state := match bits v 1 0 with | 0 => .i | 1 => .s | 2 => .sf | _ => .x
    brim := bits v 5 2, fwd := bits v 7 6, hmode := bits v 8 8, hosts := bits v 26 9, epoch := bit v 27, poison := bit v 28
    rsv := bits v 31 29 }

/-- The entry after a request of kind `op` has been served (R91). `kept` are the hosts that answered BIRspS, `keptE` that
the owner answered BIRspE; a requester that gains nothing counts as RdI (R121); a poisoned line is not filled (R124). -/
def DirEntry.after (d : DirEntry) (e : LineEntry) : DirEntry :=
  let r := e.who
  let t := e.tile
  let op := if e.gains then e.op else (match e.op with | .rdS | .rdA | .invS | .invA => .rdI | o => o)
  let clean := if e.partial_ then d else { d with poison := false }
  -- a shared grant to r on top of the named hosts
  let share := fun (x : DirEntry) =>
    let y := x.addHost r
    if d.poison then { y with state := .s, fwd := 0 }
    else if y.hmode == 1 then { y with state := .s, brim := setBit x.brim t true }
    else { y with state := .sf, brim := setBit x.brim t true, fwd := t }
  match op with
  | .rdS | .invS =>
    match d.state with
    | .i => share (d.withHosts .s [r] 0 0)
    | .s | .sf => share d
    | .x => if r == d.owner || e.kept.contains d.owner then share (d.withHosts .s [d.owner] 0 0) else share (d.withHosts .s [r] 0 0)
  | .rdA | .invA => if d.state = .x && d.owner == r then d else d.withHosts .x [r] 0 0
  | .rdI =>
    if d.state ≠ .x then d
    else if r == d.owner then d.toI
    else if e.keptE then d
    else if e.kept.contains d.owner then d.withHosts .s [d.owner] 0 0
    else d.toI
  | .invI => d.toI
  | .wr =>
    if d.state = .x && r == d.owner then
      if e.msv == 2 then clean else if e.msv == 1 then clean.withHosts .s [d.owner] 0 0 else clean.toI
    else clean.toI
  | .evict =>
    match d.state with
    | .i => d
    | .s | .sf => if d.hmode == 0 && d.ptrs.contains r then d.dropHost r else d
    | .x => if r == d.owner then d.toI else d
  | .repair => d.toI
  | .poison => { d.toI with poison := true }
  | .resync | .frz => d

/-! ### Hosts as the crown reaches them -/

/-- Port on which faults of host h are recorded. -/
def State.hostBlamePort (s : State) (h : Nat) : Nat := (s.hostPort h).getD ((s.portsOf 1 h).headD 0)

/-- Host h has departed from window w and the sweep is not complete (R121-R123). -/
def State.hasDeparted (s : State) (w h : Nat) : Bool := KMap.get 0 s.cr.departed (h * 16 + w) ≠ 0

/-- A departure from window w is pending (R112). -/
def State.departureDue (s : State) (w : Nat) : Bool := s.cr.departed.any (fun e => e.2 ≠ 0 && e.1 % 16 == w)

/-! ### Traffic of the crown -/

/-- Free slot of the multicast store in a class's share (R73). -/
def State.freeMcast (s : State) (cls : Cls) : Option Nat :=
  let n := s.c K.MCAST_SYS_SLOTS
  let free := fun (i : Nat) => (KMap.get none s.pl.mcast i).isNone
  if cls = .sys then (List.range n).find? free else ((List.range (8192 - n)).map (n + ·)).find? free

/-- The crown sends messages to ports: one goes through the merge as a packet, several as pointers to one stored copy
(R71, R73); none when no slot is free. Ports whose link is down get nothing. -/
def State.crownSend (s : State) (cls : Cls) (bytes data : Nat) (ms : List (Nat × Out)) : Option State :=
  let ms := ms.filter (fun e => s.linkUp e.1)
  match ms with
  | [] => some s
  | [(q, m)] => some (s.agentSend 0x78 0 cls q bytes data m)
  | _ =>
    match s.freeMcast cls with
    | none => none
    | some i =>
      let c0 := { blankCell cls 0x78 0 with bytes := min 64 bytes, data := data, gen := s.genNum % 256, gepoch := s.gd.epoch % 16 }
      let kept := cellSeal { c0 with mcast := true, mcidx := i }
      let pl : Plank := { s.pl with mcast := KMap.set none s.pl.mcast i (some { cell := kept, refs := ms.length }) }
      let s := ({ s with pl := pl } : State).maxO K.MCAST_HIGH_WATER pl.mcast.length
      some (ms.foldl (fun (s : State) e =>
        let r := s.newPacket e.2
        let c : Cell := { c0 with mcast := true, mcidx := i, egress := e.1, req := r.1 }
        r.2.present e.1 cls 0x78 0x78 c) s)

/-- Replicas that are live, and the one that a resync brings back (R119). -/
def State.liveReps (s : State) (w : Nat) : List Nat :=
  (if (s.win w).live0 then [0] else []) ++ (if (s.win w).live1 then [1] else [])
def State.writeReps (s : State) (w : Nat) : List Nat :=
  s.liveReps w ++ (match (s.win w).returning with | some r => if (s.liveReps w).contains r then [] else [r] | none => [])

/-- Start of a replica's directory region. -/
def State.dirOffset (s : State) (w r : Nat) : Nat := if r == 0 then s.c (K.DIR_OFFSET w) else s.c (K.MIRROR_DIR_OFFSET w)

/-- What a crown access is for (`step` of its request): data read, data write, directory write-through, directory read,
copy-before-write read, write of a writeback. -/
def CA.read : Nat := 0
def CA.write : Nat := 1
def CA.dirWrite : Nat := 2
def CA.dirRead : Nat := 3
def CA.copy : Nat := 4

/-- One memory request of the crown (R24: COH): its number, 0 when the target cannot be reached. -/
def State.crownTxn (s : State) (purpose : Purpose) (m : Nat) (t : Txn) (mask : Nat) : Nat × Option (Nat × Out) × State :=
  match (s.targetPort m).filter s.linkUp with
  | none => (0, none, s)
  | some q =>
    let t := { t with purpose := purpose, dest := q, deadline := s.rspBound q, counted := false }
    let r := s.newTxn t
    (r.1, some (q, { kind := .request, dst := q, args := [r.1, q, b2n t.write, t.addr, t.bytes, t.data, mask] }), r.2)

/-- A crown request to one replica for a line. -/
def crownReqTo (w line rep step addr : Nat) (write : Bool) (data : Nat) : Txn :=
  { purpose := .crown, master := 0x78, port := 0xFF, dest := 0xFF, write := write, cls := .coh, addr := addr, bytes := 64,
    data := data, w := w, line := line, replica := rep, step := step }

/-- Read a line, or its directory line, from a replica: the request's number, 0 when it cannot be reached. -/
def State.crownRead (s : State) (w line rep step : Nat) : Nat × State :=
  let addr := if step == CA.dirRead then s.dirOffset w rep + line / 16 * 64 else s.replicaOffset w rep + line * 64
  let r := s.crownTxn .crown (s.replicaTarget w rep) (crownReqTo w line rep step addr false 0) 0
  match r.2.1 with
  | none => (0, r.2.2)
  | some (q, m) => (r.1, r.2.2.agentSend 0x78 0 .coh q 16 0 m)

/-- Write to replicas (R116): numbers of the requests, or none when the multicast store has no slot free. `mask` 2^64 - 1 is
the whole line; `poison` marks the data poisoned. -/
def State.crownWrite (s : State) (w line step : Nat) (reps : List Nat) (data mask : Nat) (poison : Bool) :
    Option (List Nat × State) :=
  let go := reps.foldl (fun (a : List Nat × List (Nat × Out) × State) rep =>
    let addr := if step == CA.dirWrite then a.2.2.dirOffset w rep + line / 16 * 64 else a.2.2.replicaOffset w rep + line * 64
    let r := a.2.2.crownTxn .crown (a.2.2.replicaTarget w rep) (crownReqTo w line rep step addr true data) (mask + b2n poison * 2 ^ 64)
    match r.2.1 with
    | none => (a.1, a.2.1, r.2.2)
    | some m => (a.1 ++ [r.1], a.2.1 ++ [m], r.2.2)) ([], [], s)
  (go.2.2.crownSend .coh 80 data go.2.1).map (fun s => (go.1, s))

/-- One entry is written through to the directory of these replicas: its four bytes of the sector's line (R84, R110). -/
def State.throughEntry (s : State) (w line : Nat) (reps : List Nat) (d : DirEntry) : Option (List Nat × State) :=
  s.crownWrite w line CA.dirWrite reps (d.word * 2 ^ (32 * (line % 16))) (15 * 2 ^ (4 * (line % 16))) false

/-- The directory line of a sector as the crown has it: 16 entries (R84, R110). -/
def State.sectorData (s : State) (w n : Nat) : Nat :=
  ((List.range 16).map (fun i => (s.dirEntry w (n * 16 + i)).word * 2 ^ (32 * i))).sum

/-- A whole sector is written to the directory of these replicas (R110, R119). -/
def State.throughSector (s : State) (w n : Nat) (reps : List Nat) : Option (List Nat × State) :=
  s.crownWrite w (n * 16) CA.dirWrite reps (s.sectorData w n) (2 ^ 64 - 1) false

/-- A directory line has come from memory: its 16 entries are the in-memory ones (R84). -/
def State.sectorRead (s : State) (w n data : Nat) : State :=
  (List.range 16).foldl (fun (s : State) i =>
    { s with cr := { s.cr with dir := KMap.set {} s.cr.dir (dirKey w (n * 16 + i)) (DirEntry.ofWord (data / 2 ^ (32 * i) % 2 ^ 32)) } }) s

/-- The freeze of window w copies lines: COPYING (R197). -/
def State.copying (s : State) (w : Nat) : Bool := s.o (K.FRZ_STATE w) == 2

/-- Line is uncopied (R192). -/
def State.uncopied (s : State) (w : Nat) (d : DirEntry) : Bool := d.epoch ≠ (s.win w).frz.we

/-- Write a line to the shadow (R197); it is acknowledged on its own. -/
def State.shadowWrite (s : State) (w line data mask : Nat) (poison : Bool) : State :=
  let sh := shadowOf s.gen.active w
  let t := crownReqTo w line 0 CA.write (sh.2.1 + line * 64) true data
  let r := s.crownTxn .shadow sh.1 t (mask + b2n poison * 2 ^ 64)
  match r.2.1 with
  | none => s.failFreeze w
  | some (q, m) =>
    let s := r.2.2.agentSend 0x78 0 .coh q 80 data m
    s.updWin w (fun v => { v with frz := { v.frz with shadowOut := v.frz.shadowOut + 1 } })

/-- Tile t's brim intake has room for the next command: a seam credit of pool 72 for FILL and READ, which are COH, a place of the timing
strand's pool 33 for INV, which is SYS (R24, R317, R321). -/
def State.brimRoom (s : State) (t : Nat) (inv : Bool) : Bool :=
  if inv then decide (timingWaits (s.timing t 1) 33 + ((KMap.get [] s.cr.brimCmd t).filter (fun c => c.kind = .inv)).length < 32)
  else decide (0 < s.creditsHeld t 1 72)

/-- The cell of a command. PRESUMED: a FILL is the line's 64 bytes, READ and INV are 16 bytes. -/
def brimItem (n : Nat) (c : BrimCmd) : Item :=
  { cell := cellSeal { blankCell (if c.kind = .inv then .sys else .coh) 0x78 0 with
      bytes := if c.kind = .fill then 64 else 16, data := c.data, req := n, gen := c.gen % 256 }, dest := 32 }

/-- Commands that wait for tile t's brim intake go onto its seam as credits allow, each class on its own (R22). -/
def State.pushBrim (s : State) (t : Nat) (inv : Bool) : Nat → State
  | 0 => s
  | fuel + 1 =>
    match KMap.get [] s.cr.brimWait (t * 2 + b2n inv) with
    | [] => s
    | c :: rest =>
      if !s.brimRoom t inv then s
      else
        let n := s.pl.nextPkt
        let s : State := { s with pl := { s.pl with nextPkt := n + 1 },
                                  cr := { s.cr with brimWait := KMap.set [] s.cr.brimWait (t * 2 + b2n inv) rest,
                                                    brimOn := KMap.set none s.cr.brimOn n (some c) } }
        (if inv then s.updTiming t 1 (fun x => { x with ready := x.ready ++ [.sys (brimItem n c)] })
         else s.seamSend t 1 72 (brimItem n c)).pushBrim t inv fuel

/-- What waits for tile t's brim intake goes on as far as it can. -/
def State.pumpBrim (s : State) (t : Nat) : State :=
  let n := fun (inv : Bool) => (KMap.get [] s.cr.brimWait (t * 2 + b2n inv)).length
  (s.pushBrim t true (n true)).pushBrim t false (n false)

/-- Put a command to a tile's brim cache on its way (R94); a tile in reset takes none (R97). -/
def State.brimSend (s : State) (c : BrimCmd) : State :=
  if s.tileHeld c.tile then s
  else
    let k := c.tile * 2 + b2n (decide (c.kind = .inv))
    ({ s with cr := { s.cr with brimWait := KMap.upd [] s.cr.brimWait k (· ++ [{ c with gen := s.genNum }]) } } : State).pumpBrim c.tile

/-- A command reaches its tile's brim intake. -/
def State.brimIntake (s : State) (c : Cell) : State :=
  match KMap.get none s.cr.brimOn c.req with
  | none => s
  | some b =>
    { s with cr := { s.cr with brimOn := KMap.set none s.cr.brimOn c.req none, brimCmd := KMap.upd [] s.cr.brimCmd b.tile (· ++ [b]) } }

/-! ### Queues and trackers (R105, R108) -/

/-- Line queue. -/
def State.lineQ (s : State) (w line : Nat) : List LineEntry := KMap.get [] s.cr.queue (dirKey w line)

/-- Replace a line queue. -/
def State.setLineQ (s : State) (w line : Nat) (l : List LineEntry) : State :=
  { s with cr := { s.cr with queue := KMap.set [] s.cr.queue (dirKey w line) l } }

/-- Replace the head of a line queue. -/
def State.setHead (s : State) (w line : Nat) (e : LineEntry) : State := s.setLineQ w line (e :: (s.lineQ w line).tail)

/-- Tracker entries in use. -/
def State.trackersUsed (s : State) : Nat := (s.cr.perHost.map (·.2)).sum + s.cr.hub

/-- Take or free one tracker entry. -/
def State.track (s : State) (e : LineEntry) (take : Bool) : State :=
  let f := fun (n : Nat) => if take then n + 1 else n - 1
  let s : State :=
    if e.who < 64 then
      { s with cr := { s.cr with perHost := KMap.upd 0 s.cr.perHost e.who f, perPort := KMap.upd 0 s.cr.perPort e.port f } }
    else { s with cr := { s.cr with hub := f s.cr.hub } }
  (s.setO K.TRACKER_IN_USE s.trackersUsed).maxO K.TRACKER_HIGH_WATER s.trackersUsed

/-- `e` takes its place among entries that are not in service: behind those that came earlier, and behind those of the same FCLK cycle
from a lower tile; hub agents come after the tiles (R105). -/
def joinEntry (e : LineEntry) : List LineEntry → List LineEntry
  | [] => [e]
  | x :: l =>
    if x.stage = .waiting && sameCycle x.at_ e.at_ && decide (e.src < x.src) then e :: x :: l
    else x :: joinEntry e l

/-- A request joins its line's queue. -/
def State.joinQueue (s : State) (w line : Nat) (e : LineEntry) : State :=
  let s := s.setLineQ w line (joinEntry e (s.lineQ w line))
  s.maxO K.QUEUE_DEPTH_MAX (s.lineQ w line).length

/-- The first waiting request for a line whose agent has no entry left in its queue joins it (R105). -/
def State.promote (s : State) (w line : Nat) : State :=
  match s.cr.heldUp.find? (fun r => r.w == w && r.line == line && !(s.lineQ w line).any (fun e => e.who == r.entry.who)) with
  | none => s
  | some r => ({ s with cr := { s.cr with heldUp := s.cr.heldUp.erase r } } : State).joinQueue w line r.entry

/-- The head entry of a line's queue ends. -/
def State.popHead (s : State) (w line : Nat) : State :=
  match s.lineQ w line with
  | [] => s
  | e :: l => ((s.setLineQ w line l).track e false).promote w line

/-- Heads of the queue that were served together leave it: `n` of them. -/
def State.popHeads (s : State) (w line : Nat) : Nat → State
  | 0 => s
  | n + 1 => (s.popHead w line).popHeads w line n

/-- An entry of the crown's internal agent. -/
def internalEntry (s : State) (op : LineOp) : LineEntry := { op := op, who := 0x178, gen := s.genNum, at_ := s.now }

/-- The internal agent asks for a line: it takes its place in the queue, or waits for the agent's entry there to end (R105); none without a
tracker entry (R108). -/
def State.pushInternal (s : State) (w line : Nat) (op : LineOp) : Option State :=
  let e := internalEntry s op
  if !s.trackerFree e then none
  else
    let s := s.track e true
    some (if (s.lineQ w line).any (fun x => x.who == 0x178) then
        { s with cr := { s.cr with heldUp := s.cr.heldUp ++ [{ w := w, line := line, entry := e }] } }
      else s.joinQueue w line e)

/-- The internal agent must repair or poison a line before its head goes on. The head that is its own does so itself, and then what it
came for; another head waits behind a new entry, and an entry of the agent's further back waits for that one's end (R105, R112, R122). None
without a tracker entry. -/
def State.pushBefore (s : State) (w line : Nat) (op : LineOp) : Option State :=
  match s.lineQ w line with
  | [] => s.pushInternal w line op
  | e :: l =>
    if e.who == 0x178 then some (s.setHead w line { internalEntry s op with after_ := e.op :: e.after_ })
    else
      let n := internalEntry s op
      if !s.trackerFree n then none
      else
        let s := s.track n true
        let mine := l.filter (fun x => x.who == 0x178)
        let s : State := { s with cr := { s.cr with heldUp := s.cr.heldUp ++ mine.map (fun x => { w := w, line := line, entry := x }) } }
        some (s.setLineQ w line (n :: e :: l.filter (fun x => x.who ≠ 0x178)))

/-! ### The directory cache's sectors (R110) -/

/-- The dirty entries of a sector are written back to every live directory replica; none while the multicast store has no slot free. -/
def State.writeBackSector (s : State) (k : Nat) : Option State :=
  let w := k / 2 ^ 32
  let n := k % 2 ^ 32
  if (List.range 16).all (fun i => KMap.get none s.cr.cached (dirKey w (n * 16 + i)) = none) then some s
  else
    (s.throughSector w n (s.writeReps w)).map (fun r =>
      (List.range 16).foldl (fun (s : State) i =>
        match KMap.get none s.cr.cached (dirKey w (n * 16 + i)) with
        | some e => s.setDir w (n * 16 + i) e true
        | none => s) r.2)

/-- A sector that no line queue refers to. -/
def State.sectorIdle (s : State) (k : Nat) : Bool :=
  (List.range 16).all (fun i => (s.lineQ (k / 2 ^ 32) (k % 2 ^ 32 * 16 + i)).isEmpty)

/-- Bring a sector into the cache: 65,536 sets of 16 ways. PRESUMED: the set is the sector's number modulo 65,536, and the
lowest idle sector of a full set leaves, written back. None while no sector can leave. -/
def State.takeSector (s : State) (w line : Nat) : Option State :=
  let k := w * 2 ^ 32 + line / 16
  let put := fun (s : State) => ({ s with cr := { s.cr with sector := KMap.set false s.cr.sector k true } } : State)
  let ways := (s.cr.sector.map (·.1)).filter (fun j => j % 65536 == k % 65536)
  if KMap.get false s.cr.sector k then some s
  else if ways.length < 16 then some (put s)
  else match ways.find? s.sectorIdle with
    | none => none
    | some j => (s.writeBackSector j).map (fun s => put { s with cr := { s.cr with sector := KMap.set false s.cr.sector j false } })

end Sys2Proof.Machine
end

