-- ==== Sys2Proof/Machine/Crown.lean ====
section
/-!
DEFINITION. The crown at work: one line queue's head entry, from the directory lookup to its completion (R80, R90-R107,
R112, R116-R124, R156, R157, R197).
-/
namespace Sys2Proof.Machine

/-! ### What an entry is -/

/-- A host's request; others are hub agents' or the internal agent's. -/
def LineEntry.fromHost (e : LineEntry) : Bool := decide (e.who < 64)

/-- The entry reads the line for its requester. -/
def LineEntry.reads (e : LineEntry) : Bool := e.op = .rdS || e.op = .rdA || e.op = .rdI

/-- Service core of an entry, or none: 99. -/
def LineEntry.core (e : LineEntry) : Nat := if 0x170 ≤ e.who && e.who < 0x174 then e.who - 0x170 else 99

/-- Tile t has the line (R84). -/
def LineEntry.ownBrim (e : LineEntry) (d : DirEntry) : Bool := e.fromHost && decide (e.tile < 4) && bit d.brim e.tile

/-- Requests among these that are still outstanding: a lost target's are not (R118). -/
def State.alive (s : State) (ids : List Nat) : List Nat := ids.filter (fun i => (s.txn? i).isSome)

/-- A command for the line is on its way to tile t's brim cache, or a line for it or an acknowledgement of it on its way (R95). -/
def State.brimPending (s : State) (t w line : Nat) : Bool :=
  let mine := fun (c : BrimCmd) => c.tile == t && c.w == w && c.line == line
  (KMap.get [] s.cr.brimWait (t * 2)).any mine || (KMap.get [] s.cr.brimWait (t * 2 + 1)).any mine
    || s.cr.brimOn.any (fun e => match e.2 with | some c => mine c | none => false)
    || (KMap.get [] s.cr.brimCmd t).any mine
    || s.cr.carry.any (fun e => match e.2 with | some c => c.fill && c.tile == t && c.w == w && c.line == line | none => false)
    || s.cr.brimAck.any (fun a => a.tile == t && a.w == w && a.line == line)

/-- The kinds that are served together (R106). -/
def LineEntry.joins (e : LineEntry) : Bool :=
  match e.op with
  | .rdS | .rdI | .invS | .evict => true
  | _ => false

/-- The entry wants the line's data: to return it, or to fill its tile's brim cache (R91). -/
def LineEntry.wants (e : LineEntry) : Bool := e.reads || (e.op = .invS && e.fromHost)

/-- The head of a line's queue and the entries that are served together with it (R106). -/
def State.served (s : State) (w line : Nat) : List LineEntry :=
  match s.lineQ w line with
  | [] => []
  | e :: l => e :: l.take e.group

/-- The entry whose place the data is sought for: the first one served that wants it. -/
def State.seeker (s : State) (w line : Nat) (e : LineEntry) : LineEntry := ((s.served w line).find? LineEntry.wants).getD e

/-! ### Answers -/

/-- A host of two ports has got its completion for a line on port p (R102). -/
def State.noteDone (s : State) (h p w line : Nat) : State :=
  if (s.portsOf 1 h).length < 2 then s
  else { s with cr := { s.cr with doneAt := KMap.set 0 s.cr.doneAt (h * 2 ^ 40 + dirKey w line) (p + 1) } }

/-- The crown answers an entry's requester (R107): data with its grant (0 I, 1 S, 2 E), or Cmp without data. A departed host's response
is discarded (R121). `ok` is what fences see (R136). -/
def State.crownReply (s : State) (w line : Nat) (e : LineEntry) (st : MemStatus) (ok : Bool) (data grant : Nat) : State :=
  match s.txn? e.tag with
  | none => s
  | some t =>
    if e.fromHost then
      let m : Out := { kind := .completion, dst := e.port, args := [t.tag, t.rid, if st = .ok then 0 else 1, if e.reads then data else 0, grant] }
      let s := if e.gains && e.port < 96 then (s.agentSend 0x78 0 .coh e.port (if e.reads then 80 else 16) data m).noteDone e.who e.port w line else s
      s.endTxn e.tag ok
    else s.hubAnswer e.tag (if ok then st else .uncorrectable) (data / 2 ^ (8 * (t.addr % 64)))

/-- Grant of a served entry. -/
def LineEntry.grant (e : LineEntry) : Nat :=
  match e.op with
  | .rdS | .invS => 1
  | .rdA | .invA => 2
  | _ => 0

/-! ### The internal agent's own causes -/

/-- An entry that fails R86, or cannot be read: the line is repaired in its queue (R112). DESIGN CHOICE: of a sector that no live replica
delivered, the crown repairs the entry that it looked up, and takes the other 15 as it last wrote them. It waits while it has no tracker
entry or no place in the directory cache. -/
def State.askRepair (s : State) (w line code : Nat) (e : LineEntry) : Bool × State :=
  let d := s.dirEntry w line
  let wait := (false, s.setHead w line { e with stage := .waiting, mem := [], retried := false })
  match (s.setHead w line { e with stage := .waiting, mem := [], retried := false }).takeSector w line with
  | none => wait
  | some x =>
    match x.pushBefore w line .repair with
    | none => wait
    | some x => (true, (x.incO K.DIR_REPAIRS).raise 530 2 code false { master := 0x78, addr := some (line * 64), detail := d.word })

/-- The line is poisoned (R124): counted, recorded, its new entry, with POISON, written through to every live directory
replica. It waits while the multicast store has no slot free (R73). -/
def State.markPoison (s : State) (w line code master : Nat) (d' : DirEntry) : Option (State × List Nat) :=
  (s.throughEntry w line (s.writeReps w) d').map (fun r =>
    let s := (r.2.incO (K.POISONED_LINES w)).raise 531 2 code false { master := master, addr := some (line * 64) }
    ((s.setDir w line d' true).dropTags w line 99, r.1))

/-- A value that the spec leaves open: the data of a poisoned response. -/
def State.poisonData (s : State) : Nat × State := (s.freeVal, s.freeNext)

/-! ### Stages. Each answers whether the entry moved on -/

/-- The entry at the head ends, with those served together with it (R106); the next one starts with a command of its own. The internal
agent's head goes on with what it came for (R105). -/
def State.crownEnd (s : State) (w line : Nat) : Bool × State :=
  match s.lineQ w line with
  | [] => (false, s)
  | e :: _ =>
    match e.after_ with
    | op :: l => (false, s.setHead w line { internalEntry s op with after_ := l })
    | [] => (false, s.popHeads w line (e.group + 1))

/-- What an entry asks of the hosts and brims (R91, R112). `bound` are the hosts that can be snooped. -/
def LineEntry.plan (d : DirEntry) (bound : List Nat) (e : LineEntry) : LineEntry :=
  let others := (d.named.filter (fun h => bound.contains h && h ≠ e.who)).eraseDups
  let ask := fun (k : Nat) (hs : List Nat) => hs.map (fun h => ({ host := h, kind := k } : Snoop))
  let excl := match e.op with | .rdA | .invA | .invI | .wr => true | _ => false
  let r : List Snoop × List Nat :=
    if e.op = .repair then (ask 2 bound, [0, 1, 2, 3])
    else match d.state with
      | .i => ([], [])
      | .s | .sf => if excl then (ask 2 others, bitList 4 d.brim) else ([], [])
      | .x =>
        if excl then (ask 2 others, [])
        else match e.op with
          | .rdS | .invS => (ask 1 others, [])
          | .rdI => (ask 0 others, [])
          | _ => ([], [])
  { e with stage := .snoop, toSnoop := r.1, toInv := r.2, snoops := [], mem := [], retried := false, issued := false }

/-- The head is looked up in the state it now has: entries behind it join it when R106 lets them. -/
def State.gather106 (s : State) (w line : Nat) (e : LineEntry) (d : DirEntry) : State :=
  match s.lineQ w line with
  | [] => s
  | _ :: l =>
    let n := if e.joins && d.state ≠ .x then (l.takeWhile LineEntry.joins).length else 0
    s.setLineQ w line ({ e with group := n } :: ((l.take n).map (fun x => { x with stage := .together }) ++ l.drop n))

/-- The lookup (R86, R91, R122): an illegal entry is repaired, a departed owner's line poisoned, departed hosts removed. -/
def State.crownLookup (s : State) (w line : Nat) (e : LineEntry) : Bool × State :=
  match s.takeSector w line with
  | none => (false, s.setHead w line { e with stage := .waiting, mem := [], retried := false })
  | some s =>
    let d := s.dirEntry w line
    -- inverted check bits: of the directory cache (E530 code 0x03, or a read that cannot be corrected), of the entry (R463)
    let x := if e.op = .repair then (false, s) else s.ecc 530 0 3 2 2
    let y := if e.op = .repair then (0, x.2) else x.2.injFire 530 1
    let s := y.2
    if x.1 then s.askRepair w line 2 e
    else if e.op ≠ .repair && (!d.legal || y.1 ≠ 0) then s.askRepair w line 1 e
    else if e.op ≠ .repair && e.op ≠ .poison && d.state = .x && s.hasDeparted w d.owner then
      match (s.setHead w line { e with stage := .waiting, mem := [], retried := false }).pushBefore w line .poison with
      | none => (false, s.setHead w line { e with stage := .waiting, mem := [], retried := false })
      | some s => (true, s)
    else
      let d' := if e.op ≠ .repair && d.hmode == 0 && (d.state = .s || d.state = .sf) then
          (d.ptrs.filter (s.hasDeparted w)).foldl (fun (x : DirEntry) h => if x.hmode == 0 && x.state ≠ .i then x.dropHost h else x) d
        else d
      let s := if d' = d then s else s.setDir w line d' false
      let bound := (s.winHosts w).filter (fun h => !s.hasDeparted w h)
      (true, s.gather106 w line (e.plan d' bound) d')

/-- A directory read failed: the other live replica is read, else the line is repaired (R112). -/
def State.crownDirBad (s : State) (w line : Nat) (e : LineEntry) : Bool × State :=
  let other := 1 - s.readReplica w
  if e.retried || !(s.liveReps w).contains other then s.askRepair w line 2 e
  else
    let r := s.crownRead w line other CA.dirRead
    if r.1 == 0 then r.2.askRepair w line 2 e
    else (false, r.2.setHead w line { e with stage := .dir, mem := [r.1], retried := true })

/-- Service of the head entry begins (R91, R110, R118, R157). A sweep's entry sets EPOCH in a FAILED window too (R200). A repair needs no
directory read: its entry's contents are lost (R112). -/
def State.crownStart (s : State) (w line : Nat) (e : LineEntry) : Bool × State :=
  let st := s.o (K.STATE w)
  if e.cond && e.op = .wr && KMap.get none s.cr.resTag e.core ≠ some (w, line) then
    ((s.updCore e.core (fun c => { c with rd := 1 })).endTxn e.tag true).crownEnd w line
  else if st < 2 || st == 5 then
    let s := if e.op = .frz then s.setDir w line { s.dirEntry w line with epoch := (s.win w).frz.we } false else s
    let p := s.poisonData
    if e.reads then (p.2.crownReply w line e .poison true p.1 0).crownEnd w line
    else (s.crownReply w line e .ok (e.op ≠ .wr) 0 0).crownEnd w line
  else
    let s := s.incO K.DIRCACHE_LOOKUPS
    if KMap.get false s.cr.sector (w * 2 ^ 32 + line / 16) || e.op = .repair then s.crownLookup w line e
    else
      let s := s.incO K.DIRCACHE_MISSES
      let r := s.crownRead w line (s.readReplica w) CA.dirRead
      if r.1 == 0 then r.2.crownDirBad w line e
      else (false, r.2.setHead w line { e with stage := .dir, mem := [r.1] })

/-- An old write is made on the shadow too (R197): the freeze is COPYING and the write was tagged before its point. -/
def State.lateOld (s : State) (w line ct data mask : Nat) : State :=
  match (s.win w).frz.point with
  | some p => if s.copying w && ct < p then (s.shadowWrite w line data mask false).incO (K.FRZ_LATE_OLD w) else s
  | none => s

/-- A line's copy has been read (R197, R199): it goes to the shadow and the line becomes current. -/
def State.copyTaken (s : State) (w line data : Nat) (bad cbw : Bool) : State :=
  let s := (s.shadowWrite w line data (2 ^ 64 - 1) bad).dropTags w line 99
  let s := s.setDir w line { s.dirEntry w line with epoch := (s.win w).frz.we } false
  if cbw then s.incO (K.FRZ_CBW w) else s

/-- A copy must be made before a write (R197). -/
def State.mustCopy (s : State) (w line : Nat) : Bool := s.copying w && s.uncopied w (s.dirEntry w line)

/-- Ask for a line's copy: the request, or none when no replica can be reached, which writes poison (R200). -/
def State.askCopy (s : State) (w line : Nat) (cbw : Bool) : Option Nat × State :=
  let r := s.crownRead w line (s.readReplica w) CA.copy
  if r.1 == 0 then
    let p := r.2.poisonData
    (none, p.2.copyTaken w line p.1 true cbw)
  else (some r.1, r.2)

/-- The write of a snooped host is served within the entry (R101): copied before, written to every live replica, completed
with Cmp. A write that a replica's error ended is one in error for fences (R136). -/
def State.crownWriteback (s : State) (w line : Nat) (e : LineEntry) (b : Writeback) : Bool × State :=
  if !(s.alive e.wbMem).isEmpty then (false, s)
  else if e.issued then
    let s := match s.txn? b.txn with
      | none => s
      | some t =>
        let s := if t.port < 96 then
            (s.agentSend 0x78 0 .coh t.port 16 0 { kind := .completion, dst := t.port, args := [t.tag, t.rid, 0, 0, 0] }).noteDone (s.o (K.AGENT t.port)) t.port w line else s
        s.endTxn b.txn (!e.wbBad)
    let d := s.dirEntry w line
    let s := if b.partial_ || !d.poison then s else s.setDir w line { d with poison := false } false
    (true, s.setHead w line { e with wbs := e.wbs.tail, wbMem := [], wbBad := false, issued := false, retried := false,
                                     wb := if b.partial_ then none else some b.data })
  else if s.mustCopy w line then
    let r := s.askCopy w line true
    (r.1.isNone, r.2.setHead w line { e with wbMem := r.1.toList, retried := false })
  else
    match s.crownWrite w line CA.write (s.writeReps w) b.data b.mask false with
    | none => (false, s)
    | some r => (true, ((r.2.dropTags w line 99).lateOld w line b.ct b.data b.mask).setHead w line { e with wbMem := r.1, issued := true })

/-- The snoops that can be sent now: within 256 and the host's BI credits, to hosts with a live port (R100). -/
def State.sendable (s : State) (q : Snoop) : Bool :=
  match s.hostPort q.host with
  | none => false
  | some p => decide (KMap.get 0 s.cr.snoops q.host < min 256 (s.port p).biCredits)

/-- Count a snoop toward a host as outstanding, or not any more. -/
def State.countSnoop (s : State) (h : Nat) (up : Bool) : State :=
  { s with cr := { s.cr with snoops := KMap.upd 0 s.cr.snoops h (fun n => if up then n + 1 else n - 1) } }

/-- A host no snoop can reach and whose marker is not awaited. -/
def State.gone (s : State) (w h : Nat) : Bool := s.hasDeparted w h || (!s.hostUp h && (KMap.get none s.cr.leaving h).isNone)

/-- A brim cache sends this entry's data on itself: a host's read that is granted no more than S (R96). -/
def LineEntry.direct (e : LineEntry) : Bool := e.fromHost && e.reads && e.op ≠ .rdA && e.gains

/-- READ to a brim cache (R92, R96): for RdS and RdI of a host the tile sends the data on. -/
def State.crownBrimRead (s : State) (w line t : Nat) (e : LineEntry) (st : Stage) : Bool × State :=
  let k := s.seeker w line e
  let s := s.brimSend { tile := t, kind := .read, w := w, line := line, port := if k.direct then k.port else 0xFF, tag := k.tag }
  (!s.brimPending t w line, s.setHead w line { e with stage := st, brims := [t] })

/-- A read of the window's memory failed (R117): the other replica is read, or the line is poisoned. -/
def State.crownReadBad (s : State) (w line : Nat) (e : LineEntry) : Bool × State :=
  let other := 1 - s.readReplica w
  let r := if s.o (K.STATE w) == 2 && !e.retried && (s.liveReps w).contains other then s.crownRead w line other CA.read else (0, s)
  if r.1 ≠ 0 then (false, r.2.setHead w line { e with stage := .mem, mem := [r.1], retried := true })
  else
    let s := r.2
    let d := s.dirEntry w line
    match s.markPoison w line 2 0x78 { d with poison := true, state := if d.state = .sf then .s else d.state, fwd := 0 } with
    | none => (false, s.setHead w line { e with stage := .mem, mem := [], retried := false })
    | some m =>
      let p := m.1.poisonData
      (true, p.2.setHead w line { e with stage := .inv, mem := [], wbMem := e.wbMem ++ m.2, got := some p.1, bad := true })

/-- The line's data is sought in the order of R92. -/
def State.crownData (s : State) (w line : Nat) (e : LineEntry) : Bool × State :=
  let d := s.dirEntry w line
  let k := s.seeker w line e
  if !(k.wants || e.op = .resync) then (true, s.setHead w line { e with stage := .inv })
  else if d.poison && e.wb.isNone then
    let p := s.poisonData
    (true, p.2.setHead w line { e with stage := .inv, got := some p.1, bad := true })
  else match e.wb with
    | some v => (true, s.setHead w line { e with stage := .inv, got := some v })
    | none =>
      if k.ownBrim d then s.crownBrimRead w line k.tile e .brimOwn
      else if d.state = .sf && e.op ≠ .resync && (!k.fromHost || k.tile ≠ d.fwd) then s.crownBrimRead w line d.fwd e .brimFwd
      else
        let r := s.crownRead w line (s.readReplica w) CA.read
        if r.1 == 0 then r.2.crownReadBad w line e
        else (false, r.2.setHead w line { e with stage := .mem, mem := [r.1] })

/-- An owner in X that departed before it was snooped (R122): the line is poisoned before the entry goes on. -/
def State.unsnooped (s : State) (w line : Nat) (e : LineEntry) : Bool :=
  let d := s.dirEntry w line
  e.op ≠ .repair && e.op ≠ .poison && d.state = .x && e.toSnoop.any (fun q => q.host == d.owner) && s.hasDeparted w d.owner

/-- Snoops go out and are awaited; writes served within the entry come first (R100, R101). -/
def State.crownSnoops (s : State) (w line : Nat) (e : LineEntry) : Bool × State :=
  match e.wbs with
  | b :: _ => s.crownWriteback w line e b
  | [] =>
    if s.unsnooped w line e then
      match (s.setHead w line { e with stage := .waiting, toSnoop := [], toInv := [], group := 0 }).pushBefore w line .poison with
      | none => (false, s)
      | some s => (true, s)
    else
    let todo := e.toSnoop.filter (fun q => !s.gone w q.host)
    if todo.isEmpty then
      if e.snoops.isEmpty then s.crownData w line { e with toSnoop := [] } else (false, s.setHead w line { e with toSnoop := [] })
    else
      let go := todo.filter s.sendable
      let ms := go.filterMap (fun q => (s.hostPort q.host).map
        (fun p => (p, ({ kind := .snoop, dst := q.host, args := [q.host, w, line, q.kind] } : Out))))
      match if go.isEmpty then none else s.crownSend .sys 16 0 ms with
      | none => (false, s.setHead w line { e with toSnoop := todo })
      | some s =>
        let s := (go.foldl (fun (s : State) q => s.countSnoop q.host true) s).addO (K.BISNP_SENT w) go.length
        (true, s.setHead w line { e with toSnoop := todo.filter (fun q => !go.contains q),
                                         snoops := e.snoops ++ go.map (fun q => { q with at_ := s.now }) })

/-- A READ found nothing (R97): the tile's BRIM bit clears, and the next source is tried. DESIGN CHOICE: an SF entry whose forwarder
misses becomes S with FWD 0, which is what R86 allows of an entry with that bit clear; a fill, if one follows, makes it SF again. -/
def State.crownMiss (s : State) (w line t : Nat) (e : LineEntry) : Bool × State :=
  let d := s.dirEntry w line
  let b := setBit d.brim t false
  let d' := if d.state = .sf && d.fwd == t then { d with brim := b, state := .s, fwd := 0 } else { d with brim := b }
  let s := s.setDir w line d' false
  let s := if e.stage = .brimFwd then s.incO (K.FWD_MISSES w) else s
  s.crownData w line { e with brims := [] }

/-- A brim read is awaited; a tile in reset holds no line (R43, R97). -/
def State.crownBrimWait (s : State) (w line : Nat) (e : LineEntry) : Bool × State :=
  match e.brims with
  | t :: _ => if s.brimPending t w line then (false, s) else s.crownMiss w line t e
  | [] => (true, s.setHead w line { e with stage := .inv })

/-- Memory data is awaited; a read that was lost with its target is made again (R118). -/
def State.crownMemWait (s : State) (w line : Nat) (e : LineEntry) : Bool × State :=
  if !(s.alive e.mem).isEmpty then (false, s)
  else if e.got.isSome then (true, s.setHead w line { e with stage := .inv, mem := [] })
  else s.crownData w line { e with mem := [] }

/-- Brim copies are invalidated (R91) after the data has been read (R92). -/
def State.crownInv (s : State) (w line : Nat) (e : LineEntry) : Bool × State :=
  match e.toInv with
  | [] =>
    if e.brims.any (fun t => s.brimPending t w line) then (false, s)
    else (true, s.setHead w line { e with stage := .copy, brims := [], retried := false })
  | ts =>
    let s := ts.foldl (fun (s : State) t => s.brimSend { tile := t, kind := .inv, w := w, line := line }) s
    (true, s.setHead w line { e with toInv := [], brims := ts })

/-- Copy before write, and the sweep's own copy (R197, R199, R200). -/
def State.crownCopy (s : State) (w line : Nat) (e : LineEntry) : Bool × State :=
  let cbw := e.op = .wr || e.op = .poison || e.op = .repair
  if !(s.alive e.mem).isEmpty then (false, s)
  else if (cbw || e.op = .frz) && s.mustCopy w line then
    let r := s.askCopy w line cbw
    (r.1.isNone, r.2.setHead w line { e with mem := r.1.toList, stage := if r.1.isNone then .write else .copy })
  else
    let d := s.dirEntry w line
    let s := if e.op = .frz then s.setDir w line { d with epoch := (s.win w).frz.we } false else s
    (true, s.setHead w line { e with stage := .write, mem := [], issued := false })

/-- The writes of the entry, issued together: the line, the directory (R91, R107, R110, R116, R119, R122). -/
def State.crownIssue (s : State) (w line : Nat) (e : LineEntry) : Option (List Nat × State) :=
  let d := s.dirEntry w line
  let all := s.writeReps w
  match e.op with
  | .wr =>
    let s := (s.dropTags w line e.core).lateOld w line e.ct e.data e.mask
    s.crownWrite w line CA.write all e.data e.mask false
  | .rdA | .invA => if e.gains && !(d.state = .x && d.owner == e.who) then s.throughEntry w line all (d.after e) else some ([], s)
  | .poison =>
    match s.crownWrite w line CA.write all 0 (2 ^ 64 - 1) true with
    | none => none
    | some r => (r.2.markPoison w line 1 (s.hostBlamePort d.owner) { d.toI with poison := true }).map (fun m => (r.1 ++ m.2, m.1))
  | .repair =>
    if s.departureDue w then (s.markPoison w line 3 0x78 { d.toI with poison := true }).map (fun m => (m.2, m.1))
    else some ([], s.dropTags w line 99)
  | .resync =>
    let back := (s.win w).returning.toList
    match s.crownWrite w line CA.write back (e.got.getD 0) (2 ^ 64 - 1) e.bad with
    | none => none
    | some r =>
      let s := r.2.dropTags w line 99
      if line % 16 == 0 then (s.throughSector w (line / 16) back).map (fun q => (r.1 ++ q.1, q.2)) else some (r.1, s)
  | _ => some ([], s)

/-- A line has been copied to the returning replica (R119), with the colour tag of a granule whose first line it is (R383).
After the last line the window is ACTIVE. -/
def State.resyncCopied (s : State) (w line : Nat) : State :=
  match (s.win w).returning with
  | none => s
  | some r =>
    let m := s.replicaTarget w r
    let from_ := s.readReplica w
    let s := if line % 64 == 0 && s.cB (K.TAG_ENABLE m) then
        let g := (s.replicaOffset w r + line * 64) / 4096
        match s.tagOf (s.replicaTarget w from_) ((s.replicaOffset w from_ + line * 64) / 4096) with
        | some t => s.setTag m g t
        | none => s.loseTag m g
      else s
    let s := s.addO (K.RESYNC_DONE w) 64
    if s.o (K.RESYNC_DONE w) < s.c (K.WIN_SIZE w) then s
    else ((s.updWin w (fun v => { v with live0 := true, live1 := true, returning := none })).setWinState w 2).raise (532 + w) 0 4

/-- One served entry takes effect: the directory's next entry, the tags, the grant or completion (R91, R107, R157, R158). -/
def State.entryServed (s : State) (w line : Nat) (e : LineEntry) : State :=
  let d := s.dirEntry w line
  let excl := (e.op = .rdA || e.op = .invA) && e.gains
  let d' := d.after e
  let s := if d' = d then s else s.setDir w line d' (excl || e.op = .poison)
  let s := if excl then s.dropTags w line 99 else s
  let s : State := if e.cond && e.op = .wr then
      let s := s.updCore e.core (fun c => { c with rd := b2n e.bad })
      { s with cr := { s.cr with resTag := KMap.set none s.cr.resTag e.core none } }
    else if e.cond && e.op = .rdI then s.tagTaken e.core w line
    else s
  if e.sent then (s.endTxn e.tag true).noteDone e.who e.port w line
  else s.crownReply w line e (if e.reads && e.bad then .poison else .ok) (e.reads || !e.bad) (e.got.getD 0) e.grant

/-- Tile whose brim cache a served entry fills, with a line it has not got yet (R91, R124). -/
def LineEntry.fills (e : LineEntry) : Option Nat :=
  if (e.op = .rdS || e.op = .invS) && e.fromHost && e.gains && !e.bad && decide (e.tile < 4) && !e.placed && e.got.isSome then some e.tile
  else none

/-- The effect is complete: of the head and of the entries served with it, in queue order, all with the data that was read; then the
fills (R91, R95, R106, R107). -/
def State.crownFinish (s : State) (w line : Nat) (e : LineEntry) : Bool × State :=
  if !(s.alive e.wbMem).isEmpty then (false, s)
  else
    let all := e :: ((s.served w line).drop 1).map (fun x => { x with got := e.got, bad := e.bad })
    let s := all.foldl (fun (s : State) x => s.entryServed w line x) s
    let s := if e.op = .resync then s.resyncCopied w line else s
    let ts := (all.filterMap LineEntry.fills).eraseDups
    let s := ts.foldl (fun (s : State) t => s.brimSend { tile := t, kind := .fill, w := w, line := line, data := e.got.getD 0 }) s
    let wait := ((ts ++ (all.filter (·.placed)).map (·.tile)).eraseDups).filter (fun t => s.brimPending t w line)
    if wait.isEmpty then s.crownEnd w line else (false, s.setHead w line { e with stage := .fill, brims := wait })

/-- Writes are issued and awaited (R107). -/
def State.crownWrites (s : State) (w line : Nat) (e : LineEntry) : Bool × State :=
  if !e.issued then
    -- a departed owner's line is poisoned; a line that another entry has changed meanwhile is not
    let d := s.dirEntry w line
    if e.op = .poison && !(d.state = .x && (e.bad || s.hasDeparted w d.owner)) then s.crownEnd w line
    else match s.crownIssue w line e with
      | none => (false, s)
      | some r => (true, r.2.setHead w line { e with issued := true, mem := r.1 })
  else if !(s.alive e.mem).isEmpty then (false, s)
  else s.crownFinish w line e

/-- One move of the head entry of a line's queue. -/
def State.crownMove (s : State) (w line : Nat) : Bool × State :=
  match s.lineQ w line with
  | [] => (false, s)
  | e :: _ =>
    match e.stage with
    | .waiting => s.crownStart w line e
    | .dir => if (s.alive e.mem).isEmpty then s.crownDirBad w line { e with mem := [] } else (false, s)
    | .snoop => s.crownSnoops w line e
    | .brimOwn | .brimFwd => s.crownBrimWait w line e
    | .mem => s.crownMemWait w line e
    | .inv => s.crownInv w line e
    | .copy => s.crownCopy w line e
    | .write => s.crownWrites w line e
    | .together => (false, s)
    | .fill => if e.brims.any (fun t => s.brimPending t w line) then (false, s) else s.crownEnd w line

/-- The head entry goes on, `n` moves at most. -/
def State.crownLoop (s : State) (w line : Nat) : Nat → State
  | 0 => s
  | n + 1 =>
    let r := s.crownMove w line
    if r.1 then r.2.crownLoop w line n else r.2

/-- The head entry goes as far as it can without another event, under the generation that decoded it (R21). -/
def State.crownRun (s : State) (w line n : Nat) : State :=
  match s.lineQ w line with
  | [] => s
  | e :: _ => if e.gen == s.genNum then s.crownLoop w line n else s.under e.gen (fun s => s.crownLoop w line n)

/-- Moves that one event can bring about, at most. -/
def crownFuel : Nat := 64

/-- CROWN_ENTRY_SERVE (R91, R106): the head entry of a line's queue is served, with those that R106 serves together with it, or goes on
where it waited for a credit, a multicast slot, a tracker entry or a lost request. -/
def execCrownEntryServe (w : WinIx) (line : BitVec 36) (s : State) : Host.Outcome State Fault Refusal :=
  .next (if s.hubHeld then s
    else (((List.range 4).foldl (fun (s : State) t => s.pumpBrim t) s).sendLateAcks).crownRun w line.toNat crownFuel)

/-! ### Requests arrive (R101, R105, R108) -/

/-- The head of a line's queue snoops host h now. -/
def State.snooping (s : State) (w line h : Nat) : Bool :=
  match s.lineQ w line with
  | e :: _ => e.stage = .snoop && e.snoops.any (fun q => q.host == h)
  | [] => false

/-- A request of a source has reached the crown. -/
def State.takeInbound (s : State) (src : Nat) (r : CrownReq) : State :=
  let s : State := { s with cr := { s.cr with inbound := KMap.upd [] s.cr.inbound src (fun l => l.erase r) } }
  if src < 4 then (List.range r.cells).foldl (fun (s : State) _ => s.poolLeave src 0 72) s else s

/-- A departure marker of the request's host is ahead of it (R120). -/
def State.behindMarker (s : State) (r : CrownReq) : Bool :=
  r.entry.who < 64 && s.cr.leaving.any (fun e => match e.2 with
    | some n => (if e.1 < 64 then e.1 == r.entry.who else e.1 / 16 - 4 == r.entry.who && e.1 % 16 == r.w) && decide (n ≤ r.entry.tag)
    | none => false)

/-- The crown can take the request now: a write served within a snoop (R101), else one with a tracker entry and no marker ahead. -/
def State.takeable (s : State) (r : CrownReq) : Bool :=
  (r.entry.op = .wr && r.entry.who < 64 && s.snooping r.w r.line r.entry.who) || (s.trackerFree r.entry && !s.behindMarker r)

/-- CROWN_REQUEST_ARRIVE (R105): `src` is a tile, or 4 for the hub agents. A request without a tracker entry waits (R108), and holds up no other
requester; a write of a host that is being snooped for the line is served within the entry (R101). -/
def execCrownRequestArrive (src : Fin 5) (s : State) : Host.Outcome State Fault Refusal :=
  match (KMap.get [] s.cr.inbound src).find? s.takeable with
  | none => .next s
  | some r =>
    if s.hubHeld then .next s
    else if r.entry.op = .wr && r.entry.who < 64 && s.snooping r.w r.line r.entry.who then
      let s := s.takeInbound src r
      match s.lineQ r.w r.line with
      | [] => .next s
      | e :: _ =>
        let b : Writeback := { txn := r.entry.tag, data := r.entry.data, mask := r.entry.mask, partial_ := r.entry.partial_, ct := r.entry.ct }
        .next ((s.setHead r.w r.line { e with wbs := e.wbs ++ [b] }).crownRun r.w r.line crownFuel)
    else
      let s := (s.takeInbound src r).track r.entry true
      let r := { r with entry := { r.entry with at_ := s.now, src := src.val } }
      .next (if (s.lineQ r.w r.line).any (fun e => e.who == r.entry.who) then
          { s with cr := { s.cr with heldUp := s.cr.heldUp ++ [r] } }
        else s.joinQueue r.w r.line r.entry)

/-! ### Snoop responses (R102-R104) -/

/-- The snoop of the head entry to host h is answered (R91). -/
def State.snoopAnswered (s : State) (w line h : Nat) (rsp : BiRsp) : State :=
  match s.lineQ w line with
  | [] => s
  | e :: _ =>
    let e := { e with snoops := e.snoops.filter (fun q => q.host ≠ h), kept := if rsp = .s then h :: e.kept else e.kept,
                      keptE := e.keptE || rsp = .e }
    ((s.setHead w line e).countSnoop h false).crownRun w line crownFuel

/-- States that a snoop of a kind allows the host to keep (R103). -/
def snoopAllows (kind : Nat) (rsp : BiRsp) : Bool :=
  match rsp with
  | .i => true
  | .s => kind < 2
  | .e => kind == 0
  | .blk => false

/-- BIRSP_RECEIVE (R91, R103): a response that is Blk, unmatched or not allowed is a contained fault of the host's port and
counts as BIRspI. -/
def execBirspReceive (h : HostIx) (w : WinIx) (line : BitVec 36) (rsp : BiRsp) (s : State) : Host.Outcome State Fault Refusal :=
  if s.hubHeld then .next s
  else
    let p := s.hostBlamePort h
    let bad := fun (s : State) => s.raise (4 * p + 2) 2 0x22 false { master := p, access := 5, addr := some (line.toNat * 64) }
    match (s.lineQ w line.toNat).head?.bind (fun e => e.snoops.find? (fun q => q.host == h.val)) with
    | none => .next (bad s)
    | some q =>
      .next (if snoopAllows q.kind rsp then s.snoopAnswered w line.toNat h rsp else (bad s).snoopAnswered w line.toNat h .i)

/-- Packet of a line that is on its way to host h from a brim cache. -/
def State.carryTo (s : State) (h w line : Nat) : Option Nat :=
  s.cr.carry.findSome? (fun e => match e.2 with
    | some c => if c.w == w && c.line == line && s.o (K.AGENT c.port) == h then some e.1 else none
    | none => none)

/-- BICONFLICT_RECEIVE (R102): a request of the host that stands behind the snooping entry does not hold the BIConflictAck back; else it goes
behind the completion of the one ahead, on the same port. -/
def execBiconflictReceive (h : HostIx) (w : WinIx) (line : BitVec 36) (s : State) : Host.Outcome State Fault Refusal :=
  .next (if s.hubHeld then s
    else match s.carryTo h w line.toNat with
      | some k => { s with cr := { s.cr with lateAck := s.cr.lateAck ++ [{ host := h, w := w, line := line.toNat, pkt := k }] } }
      | none => s.ackConflict h w line.toNat)

/-- The owner of a snooped X line has gone without an answer: the line is poisoned before the entry goes on (R104, R121,
R122). -/
def State.ownerGone (s : State) (w line h : Nat) : State :=
  match s.lineQ w line with
  | [] => s
  | e :: _ =>
    let d := s.dirEntry w line
    if d.state = .x && d.owner == h && e.op ≠ .repair then
      let e := { e with stage := .waiting, snoops := [], toSnoop := [], toInv := [], wb := none, kept := [], keptE := false, issued := false }
      let s := (s.setHead w line e).countSnoop h false
      match s.pushBefore w line .poison with
      | none => s
      | some s =>
        let s := match s.lineQ w line with
          | x :: _ => s.setHead w line { x with bad := true, stage := .copy }
          | [] => s
        s.crownRun w line crownFuel
    else s.snoopAnswered w line h .i

/-- SNOOP_TIMEOUT (R104). -/
def execSnoopTimeout (h : HostIx) (w : WinIx) (line : BitVec 36) (s : State) : Host.Outcome State Fault Refusal :=
  match (s.lineQ w line.toNat).head?.bind (fun e => (e.snoops.find? (fun q => q.host == h.val)).map (fun q => (e.gen, q))) with
  | none => .next s
  | some (g, q) =>
    if s.hubHeld then .next s
    else
      let s := s.advance (q.at_ + cfgOf (s.genOf g) (K.SNOOP_TIMEOUT w) * Config.us)
      let p := s.hostBlamePort h
      let s := s.raise (4 * p + 2) 2 0x23 false { master := p, access := 5, addr := some (line.toNat * 64) }
      .next (((s.portDown p .surprise).departHost h).ownerGone w line.toNat h)

/-! ### Brim caches (R94-R99) -/

/-- The oldest command of a kind at a tile. -/
def State.brimNext (s : State) (t : Nat) (k : BrimKind) : Option BrimCmd :=
  if s.hubHeld || s.tileHeld t || !s.seamUp t then none else (KMap.get [] s.cr.brimCmd t).find? (fun c => c.kind = k)

/-- The tile has taken a command and answers; a FILL's or READ's place in the intake is free (R317). -/
def State.brimTaken (s : State) (t : Nat) (c : BrimCmd) (a : BrimAck) : State :=
  let s : State := { s with cr := { s.cr with brimCmd := KMap.upd [] s.cr.brimCmd t (fun l => l.erase c), brimAck := s.cr.brimAck ++ [a] } }
  (if c.kind = .inv then s else s.poolLeave t 1 72).pumpBrim t

/-- BRIM_FILL (R94, R95). -/
def execBrimFill (t : TileIx) (s : State) : Host.Outcome State Fault Refusal :=
  match s.brimNext t .fill with
  | none => .next s
  | some c => .next ((s.brimPut t c.w c.line c.data).brimTaken t c { tile := t, kind := .fill, w := c.w, line := c.line })

/-- A line that a brim cache sends on to a host (R43, R96): a COH packet of source 0x7C + tile in a VOQ of the tile's next plank
input, round robin over its 24. On the way it fills the brim cache of the host's tile when it is granted S (R91, R96). -/
def State.brimForward (s : State) (t : Nat) (c : BrimCmd) (fill : Bool) (data : Nat) (m : Out) : State :=
  let p := c.port
  if !s.linkUp p then s
  else
    let i := 24 * t + KMap.get 0 s.pl.brimRot t % 24
    let r := s.newPacket m
    let q := r.2.takeSeq (((0x7C + t) * 96 + p) * 4 + 1)
    let s := q.2
    let c0 : Cell := { blankCell .coh (0x7C + t) p with req := r.1, seq := q.1, gen := c.gen % 256, gepoch := s.gd.epoch % 16 }
    let cells := (cutPacket c0 80 data).zipIdx.map (fun e => cellSeal { e.1 with seq := (q.1 + e.2) % 65536 })
    let s := (List.range (cells.length - 1)).foldl (fun (s : State) _ => (s.takeSeq (((0x7C + t) * 96 + p) * 4 + 1)).2) s
    let pl : Plank := { s.pl with voq := KMap.upd [] s.pl.voq (voqKey i p .coh) (· ++ cells), brimRot := KMap.upd 0 s.pl.brimRot t (fun n => (n + 1) % 24) }
    let x : Carry := { src := t, tile := tileOf p, port := p, w := c.w, line := c.line, data := data, fill := fill && tileOf p ≠ t }
    { s with pl := pl, cr := { s.cr with carry := KMap.set none s.cr.carry r.1 (some x) } }

/-- BRIM_READ (R94, R96, R97): the line goes to its requester, or back to the crown. -/
def execBrimRead (t : TileIx) (s : State) : Host.Outcome State Fault Refusal :=
  match s.brimNext t .read with
  | none => .next s
  | some c =>
    let a : BrimAck := { tile := t, kind := .read, w := c.w, line := c.line }
    match KMap.get none s.cr.brim (brimKey t c.w c.line) with
    | none => .next (s.brimTaken t c { a with miss := true })
    | some v =>
      let r := s.ecc (574 + t.val) 0 1 2 2
      if r.1 then .next (r.2.brimTaken t c { a with miss := true })
      else
        let s := r.2.brimTaken t c { a with data := v }
        match if c.port < 96 then s.txn? c.tag else none with
        | none => .next s
        | some x =>
          let grant := match (s.served c.w c.line).find? (fun e => e.tag == c.tag) with | some e => e.grant | none => 0
          .next (s.brimForward t c (grant == 1) v { kind := .completion, dst := c.port, args := [x.tag, x.rid, 0, v, grant] })

/-- BRIM_INV (R94). -/
def execBrimInv (t : TileIx) (s : State) : Host.Outcome State Fault Refusal :=
  match s.brimNext t .inv with
  | none => .next s
  | some c =>
    .next (({ s with cr := { s.cr with brim := KMap.set none s.cr.brim (brimKey t c.w c.line) none } } : State).brimTaken t c
      { tile := t, kind := .inv, w := c.w, line := c.line })

/-- The data of a brim READ is the head's, and of the entries served with it; the tile has sent the seeker's on, which its own brim cache
holds, or will (R96). -/
def State.brimData (s : State) (w line : Nat) (e : LineEntry) (data : Nat) : State :=
  let k := s.seeker w line e
  let own := e.stage = .brimOwn
  let f := fun (x : LineEntry) => if x.tag == k.tag && x.who == k.who then
      { x with sent := k.direct, placed := own || (k.direct && x.op = .rdS) } else x
  let e' := { f e with stage := .inv, got := some data, brims := e.brims.tail }
  match s.lineQ w line with
  | [] => s
  | _ :: l => s.setLineQ w line (e' :: ((l.take e.group).map f ++ l.drop e.group))

/-- BRIM_ACK_RECEIVE (R95-R97): the oldest acknowledgement of a tile reaches the crown. -/
def execBrimAckReceive (t : TileIx) (s : State) : Host.Outcome State Fault Refusal :=
  match s.cr.brimAck.find? (fun a => a.tile == t.val) with
  | none => .next s
  | some a =>
    if s.hubHeld then .next s
    else
      let s : State := { s with cr := { s.cr with brimAck := s.cr.brimAck.erase a } }
      match s.lineQ a.w a.line with
      | [] => .next s
      | e :: _ =>
        if a.kind = .read && (e.stage = .brimOwn || e.stage = .brimFwd) && e.brims.contains t.val then
          if a.miss then
            let r := s.crownMiss a.w a.line t e
            .next (if r.1 then r.2.crownRun a.w a.line crownFuel else r.2)
          else
            let s := if e.stage = .brimFwd then s.incO (K.FWD_HITS a.w) else s
            .next ((s.brimData a.w a.line e a.data).crownRun a.w a.line crownFuel)
        else .next ((s.setHead a.w a.line { e with brims := e.brims.filter (· ≠ t.val) }).crownRun a.w a.line crownFuel)

/-! ### Memory answers (R107, R117, R161, R197, R200) -/

/-- The good data of a retried read goes back over the bad replica, and the failover is counted (R117). -/
def State.failover (s : State) (t : Txn) (data : Nat) : List Nat × State :=
  let s := (s.incO (K.FAILOVERS t.w)).raise (532 + t.w) 1 2 false { master := 0x78, addr := some (t.line * 64) }
  (s.crownWrite t.w t.line CA.write [1 - t.replica] data (2 ^ 64 - 1) false).getD ([], s)

/-- A read for a copy has been answered (R117, R197, R200): a bad one is made again at the other live replica, and written poisoned when
there is none. The requests that are now awaited for it, and the state. -/
def State.copyRead (s : State) (t : Txn) (e : LineEntry) (ok : Bool) (data : Nat) (cbw : Bool) : List Nat × State :=
  let other := 1 - t.replica
  let r := if !ok && !e.retried && (s.liveReps t.w).contains other then s.crownRead t.w t.line other CA.copy else (0, s)
  if r.1 ≠ 0 then ([r.1], r.2)
  else
    let f := if ok && e.retried && s.o (K.STATE t.w) == 2 then r.2.failover t data else ([], r.2)
    (f.1, f.2.copyTaken t.w t.line data (!ok) cbw)

/-- A fence names port p for a write of a window line that a replica has not taken (R137). -/
def State.blameAt (s : State) (id p : Nat) : State :=
  { s with ord := { s.ord with txn := KMap.upd none s.ord.txn id (fun t => t.map (fun t => { t with blame := p })) } }

/-- A crown access has been answered: what it does for its entry. -/
def State.crownAnswer (s : State) (id : Nat) (t : Txn) (st : MemStatus) (data : Nat) : State :=
  let ok := st = .ok
  let s := s.endTxn id true
  match s.lineQ t.w t.line with
  | [] => s
  | e :: _ =>
    let run := fun (s : State) => s.crownRun t.w t.line crownFuel
    let go := fun (r : Bool × State) => if r.1 then run r.2 else r.2
    if e.wbMem.contains id then
      let e := { e with wbMem := e.wbMem.filter (· ≠ id) }
      if t.step == CA.copy then
        let r := s.copyRead t e ok data true
        run (r.2.setHead t.w t.line { e with wbMem := e.wbMem ++ r.1, retried := true })
      else run (s.setHead t.w t.line { e with wbBad := e.wbBad || (!ok && t.step == CA.write) })
    else if !e.mem.contains id then s
    else
      let e := { e with mem := e.mem.filter (· ≠ id) }
      if t.step == CA.dirRead then
        go (if ok then (s.sectorRead t.w (t.line / 16) data).crownLookup t.w t.line e else s.crownDirBad t.w t.line e)
      else if t.step == CA.read then
        if !ok then go (s.crownReadBad t.w t.line e)
        else if !e.retried then run (s.setHead t.w t.line { e with got := some data })
        else
          let r := s.failover t data
          run (r.2.setHead t.w t.line { e with got := some data, wbMem := e.wbMem ++ r.1 })
      else if t.step == CA.copy then
        let again := !ok && !e.retried && (s.liveReps t.w).contains (1 - t.replica)
        let r := s.copyRead t e ok data (e.op ≠ .frz)
        if again && r.1 ≠ [] then r.2.setHead t.w t.line { e with mem := r.1, retried := true }
        else run (r.2.setHead t.w t.line { e with stage := .write, issued := false, wbMem := e.wbMem ++ r.1 })
      else
        let s := if !ok && e.op = .wr && 0x100 ≤ e.who then s.blameAt e.tag t.dest else s
        run (s.setHead t.w t.line { e with bad := e.bad || (!ok && e.op = .wr) })

/-- TARGET_RESPONSE_RECEIVE (R107, R267): a memory target answers request `id`. -/
def execTargetResponseReceive (id : Nat) (status : MemStatus) (data : BitVec 512) (s : State) : Host.Outcome State Fault Refusal :=
  match s.txn? id with
  | none => .next s
  | some t =>
    if s.hubHeld || t.deadline.isNone then .next s
    else match t.purpose with
      | .crown => .next (s.crownAnswer id t status data.toNat)
      | .shadow =>
        let s := (s.endTxn id true).updWin t.w (fun v => { v with frz := { v.frz with shadowOut := v.frz.shadowOut - 1 } })
        .next (if status = .ok then s else s.failFreeze t.w)
      | .mover => .next (if t.write then s.hubAnswer id status 0 else s)
      | _ => .next (s.hubAnswer id status data.toNat)

end Sys2Proof.Machine
end

