-- ==== Sys2Proof/Machine/Windows.lean ====
section
/-!
DEFINITION. Windows over time: initialisation, resync, departures, freezes (R81-R83, R115, R119-R123, R192-R201).
-/
namespace Sys2Proof.Machine

/-! ### Initialisation and resync -/

/-- Lines of window w. -/
def State.winLines (s : State) (w : Nat) : Nat := s.c (K.WIN_SIZE w) / 64

/-- WINDOW_INIT_COMPLETE (R83): the directory regions are written to zero, WE is 0, the window is ACTIVE. -/
def execWindowInitComplete (w : WinIx) (s : State) : Host.Outcome State Fault Refusal :=
  let mi := s.cB (K.MIRROR w)
  let bound := (s.targetPort (s.c (K.PRIMARY_TARGET w))).isSome && (!mi || (s.targetPort (s.c (K.MIRROR_TARGET w))).isSome)
  if s.hubHeld || s.o (K.STATE w) ≠ 1 || !bound then .next s
  else
    let cr : Crown := { s.cr with
      dir := KMap.keep (fun k => k / 2 ^ 36 ≠ w.val) s.cr.dir
      cached := KMap.keep (fun k => k / 2 ^ 36 ≠ w.val) s.cr.cached
      sector := KMap.keep (fun k => k / 2 ^ 32 ≠ w.val) s.cr.sector }
    .next ((({ s with cr := cr } : State).updWin w (fun _ => { live0 := true, live1 := mi })).setWinState w 2)

/-- The replica of a DEGRADED window that has been lost. -/
def State.lostReplica (s : State) (w : Nat) : Nat := if (s.win w).live0 then 1 else 0

/-- RESYNC_START's own rule (R119): out of range unless the window is DEGRADED. -/
def ownResyncStart (w : Nat) (s : State) : OdAns × State :=
  let r := s.lostReplica w
  if s.o (K.STATE w) ≠ 3 then (odNo 0x0302, s)
  else if !s.cB (K.MIRROR w) || !s.poolBound (s.replicaTarget w r) then (odNo 0x0501, s)
  else
    let s := s.updWin w (fun v => { v with returning := some r, resyncAt := 0 })
    (odOk, (s.setO (K.RESYNC_DONE w) 0).setWinState w 4)

/-- RESYNC_START (R119). -/
def execResyncStart (sess : SessRef) (w : WinIx) (v : Byte) (s : State) : Host.Outcome State Fault Refusal :=
  .next (s.odCommand sess (K.RESYNC_START w) 1 v.toNat (ownResyncStart w))

/-- An entry of the internal agent for this purpose stands in some queue of window w, or waits for one. -/
def State.internalAt (s : State) (w : Nat) (op : LineOp) : Bool :=
  s.cr.queue.any (fun e => e.1 / 2 ^ 36 == w && e.2.any (fun x => x.op = op || x.after_.contains op))
    || s.cr.heldUp.any (fun r => r.w == w && r.entry.op = op)

/-- RESYNC_LINE_COPY (R119): the next line's copy takes its place in the line's queue. -/
def execResyncLineCopy (w : WinIx) (s : State) : Host.Outcome State Fault Refusal :=
  let v := s.win w
  if s.hubHeld || s.o (K.STATE w) ≠ 4 || s.internalAt w .resync || s.winLines w ≤ v.resyncAt then .next s
  else match s.pushInternal w v.resyncAt .resync with
    | none => .next s
    | some s => .next ((s.updWin w (fun v => { v with resyncAt := v.resyncAt + 1 })).crownRun w v.resyncAt crownFuel)

/-! ### Departures -/

/-- Requests of host h with numbers below n are on their way to the crown: its marker is behind them (R120). -/
def State.requestsAhead (s : State) (h n : Nat) : Bool :=
  s.cr.coming.any (fun e => match e.2 with | some r => r.entry.who == h && decide (r.entry.tag < n) | none => false)
    || s.cr.inbound.any (fun e => e.2.any (fun r => r.entry.who == h && decide (r.entry.tag < n)))

/-- DEPART_PENDING follows the departures that are not complete. -/
def State.showDepartures (s : State) : State :=
  s.setO K.DEPART_PENDING (((s.cr.departed.map (fun e => e.1 / 16)).eraseDups.map (fun h => 2 ^ h)).sum)

/-- Entries of host h that are not in service leave the queues of the windows `f` picks, with their trackers; one in service
gains nothing; its snoop counts as answered BIRspI (R121). -/
def State.dropHostEntries (s : State) (h : Nat) (f : Nat → Bool) : State :=
  let keys := (s.cr.queue.filter (fun e => f (e.1 / 2 ^ 36))).map (·.1)
  let s := keys.foldl (fun (s : State) k =>
    let w := k / 2 ^ 36
    let line := k % 2 ^ 36
    let l := s.lineQ w line
    let gone := (l.filter (fun e => e.who == h && e.stage = .waiting)) ++ ((s.cr.heldUp.filter (fun r => r.w == w && r.line == line && r.entry.who == h)).map (·.entry))
    let s := gone.foldl (fun (s : State) e => (s.track e false).endTxn e.tag false) s
    let s : State := { s with cr := { s.cr with heldUp := s.cr.heldUp.filter (fun r => !(r.w == w && r.line == line && r.entry.who == h)) } }
    s.setLineQ w line ((l.filter (fun e => !(e.who == h && e.stage = .waiting))).map (fun e => if e.who == h then { e with gains := false } else e))) s
  keys.foldl (fun (s : State) k =>
    let w := k / 2 ^ 36
    let line := k % 2 ^ 36
    if s.snooping w line h then s.ownerGone w line h
    else match s.lineQ w line with
      | e :: _ => if e.toSnoop.any (fun q => q.host == h) then s.crownRun w line crownFuel else s
      | [] => s) s

/-- Host of a marker. -/
def markerHost (k : Nat) : Nat := if k < 64 then k else k / 16 - 4

/-- Windows that a marker's host departs: every one that presents itself to it, or the one whose HOSTS it has left. -/
def State.markerWindows (s : State) (k : Nat) : List Nat :=
  if k < 64 then (List.range 16).filter (fun w => s.o (K.STATE w) ≠ 0 && bit (s.c (K.HOSTS w)) k) else [k % 16]

/-- One departure, keyed as `leaving` is, reaches the crown (R121): the sweep owes it every sector of its windows. -/
def State.markerArrives (s : State) (k : Nat) : State :=
  let h := markerHost k
  let ws := s.markerWindows k
  let dep := ws.foldl (fun m w => KMap.set 0 m (h * 16 + w) (max 1 (s.dirSectors w))) s.cr.departed
  let s : State := { s with cr := { s.cr with leaving := KMap.set none s.cr.leaving k none, departed := dep } }
  s.showDepartures.dropHostEntries h (fun w => ws.contains w)

/-- DEPARTURE_MARKER_ARRIVE (R120, R121): the markers of host h that have no request of the host ahead of them. -/
def execDepartureMarkerArrive (h : HostIx) (s : State) : Host.Outcome State Fault Refusal :=
  if s.hubHeld then .next s
  else .next (((s.cr.leaving.filter (fun e => markerHost e.1 == h.val && (match e.2 with
    | some n => !s.requestsAhead h n
    | none => false))).map (·.1)).foldl State.markerArrives s)

/-- A line's entry names a departed host by pointer (R122). -/
def State.namesDeparted (s : State) (w line : Nat) : Bool :=
  let d := s.dirEntry w line
  d.hmode == 0 && d.state ≠ .i && d.ptrs.any (s.hasDeparted w)

/-- The sweep meets a line that names a departed host: it takes a queue entry (R122, R123), unless the internal agent has one there. -/
def State.sweepLine (s : State) (w line : Nat) : State :=
  if s.namesDeparted w line && !(s.lineQ w line).any (fun e => e.who == 0x178) then
    match s.pushInternal w line .poison with
    | none => s
    | some s => s.crownRun w line crownFuel
  else s

/-- The sweep has passed sector n of window w: its next place, and what it still owes. -/
def State.sweepPassed (s : State) (w n : Nat) : State :=
  let wrap := decide (s.dirSectors w ≤ n + 1)
  let cr : Crown := { s.cr with
    sweepW := if wrap then (w + 1) % 16 else w, sweepAt := KMap.set 0 s.cr.sweepAt w (if wrap then 0 else n + 1)
    departed := KMap.mapVals 0 (fun k n => if k % 16 == w then n - 1 else n) s.cr.departed }
  ({ s with cr := cr } : State).showDepartures

/-- DEPARTURE_SWEEP_STEP (R123): one sector of a window with a departure pending; the sweep stays there until no line of the sector names a
departed host. A departure is complete when the sweep has come round. DESIGN CHOICE: it passes a window's sectors to the end before it
takes up the next window, and it reads an entry as the crown last saw or wrote it. -/
def execDepartureSweepStep (s : State) : Host.Outcome State Fault Refusal :=
  if s.hubHeld || s.cr.departed.isEmpty then .next s
  else
    let w := ((fromPtr 16 s.cr.sweepW).find? s.departureDue).getD 0
    let n := KMap.get 0 s.cr.sweepAt w
    if s.o (K.STATE w) < 2 || s.o (K.STATE w) == 5 then .next (s.sweepPassed w n)
    else
      let s := (List.range 16).foldl (fun (s : State) i => s.sweepLine w (16 * n + i)) s
      .next (if (List.range 16).any (fun i => s.namesDeparted w (16 * n + i)) then s else s.sweepPassed w n)

/-! ### Freezes -/

/-- FRZ_STATE changes: E(532+w) code 0x03. -/
def State.setFrzState (s : State) (w st : Nat) : State := (s.setO (K.FRZ_STATE w) st).raise (532 + w) 0 3

/-- Window w names a shadow: its freeze is not IDLE, or its shadow objects are not at their defaults. DESIGN CHOICE: the spec
does not say which windows R201 checks; a window that was never given a shadow is not checked. -/
def State.shadowNamed (s : State) (g : KMap Nat) (w : Nat) : Bool :=
  s.o (K.FRZ_STATE w) ≠ 0 || cfgOf g (K.FRZ_SHADOW_TARGET w) ≠ 0 || cfgOf g (K.FRZ_SHADOW_OFFSET w) ≠ 0

/-- Reason of R201 for the shadow of window w in a generation, 0 when it passes; `armed` for one that is or becomes ARMED. -/
def State.shadowBad (s : State) (g : KMap Nat) (w : Nat) (armed : Bool) : Nat :=
  let sh := shadowOf g w
  let m := sh.1
  if sh.2.1 % gibBytes ≠ 0 || s.capGiB m * gibBytes < sh.2.1 + sh.2.2 || !s.poolBound m then 1
  else if (winRangesOn g m ++ s.tagRegion g m).any (rangesMeet sh.2) then 2
  else if (List.range 16).any (fun v => v ≠ w && cfgOf g (K.WIN_ENABLE v) == 1 && s.shadowNamed g v && (shadowOf g v).1 == m && rangesMeet (shadowOf g v).2 sh.2) then 2
  else if armed && ((s.extentGibs m).map (fun x => (x * gibBytes, gibBytes))).any (rangesMeet sh.2) then 2
  else 0

/-- Freezes that count toward the four of R194: ARMED, COPYING, or FAILED with the sweep running (R200). -/
def State.freezesRunning (s : State) : Nat :=
  ((List.range 16).filter (fun v => s.o (K.FRZ_STATE v) == 1 || s.o (K.FRZ_STATE v) == 2
    || (s.o (K.FRZ_STATE v) == 4 && (s.win v).frz.sweepOn))).length

/-- Reason why FRZ_ARM is refused (R194), 0 when it is not. -/
def State.armRefusal (s : State) (w : Nat) : Nat :=
  if s.o (K.STATE w) < 2 || s.o (K.STATE w) == 5 then 1
  else if 64 * gibBytes < s.c (K.WIN_SIZE w) then 2
  else if s.o (K.FRZ_STATE w) ≠ 0 then 3
  else if 4 ≤ s.freezesRunning then 4
  else if s.shadowBad s.gen.active w true ≠ 0 then 5
  else 0

/-- FRZ_ARM's own rule (R194). -/
def ownFrzArm (w : Nat) (s : State) : OdAns × State :=
  match s.armRefusal w with
  | 0 =>
    let s := s.updWin w (fun v => { v with frz := { we := v.frz.we, armedAt := s.now } })
    (odOk, s.setFrzState w 1)
  | r => (odNo 0x0504 r, s.setO (K.FRZ_REFUSAL w) r)

/-- FRZ_ARM (R194). -/
def execFrzArm (sess : SessRef) (w : WinIx) (v : Byte) (s : State) : Host.Outcome State Fault Refusal :=
  .next (s.odCommand sess (K.FRZ_ARM w) 1 v.toNat (ownFrzArm w))

/-- FRZ_RELEASE's own rule (R200). DESIGN CHOICE: in IDLE it is accepted and changes nothing. -/
def ownFrzRelease (w : Nat) (s : State) : OdAns × State :=
  let st := s.o (K.FRZ_STATE w)
  if st == 2 || (st == 4 && (s.win w).frz.sweepOn) then (odNo 0x0504 6, s.setO (K.FRZ_REFUSAL w) 6)
  else
    let s := s.updWin w (fun v => { v with frz := { we := v.frz.we } })
    (odOk, if st == 0 then s else s.setFrzState w 0)

/-- FRZ_RELEASE (R200). -/
def execFrzRelease (sess : SessRef) (w : WinIx) (v : Byte) (s : State) : Host.Outcome State Fault Refusal :=
  .next (s.odCommand sess (K.FRZ_RELEASE w) 1 v.toNat (ownFrzRelease w))

/-- FREEZE_POINT (R195): at the cycle whose CT is P, WE is inverted and the freeze copies. -/
def execFreezePoint (w : WinIx) (s : State) : Host.Outcome State Fault Refusal :=
  match (s.win w).frz.point with
  | none => .next s
  | some p =>
    if s.hubHeld || s.o (K.FRZ_STATE w) ≠ 1 || s.ct < p then .next s
    else
      let s := s.updWin w (fun v => { v with frz := { v.frz with we := !v.frz.we, sweep := 0, sweepOn := true, shadowOut := 0 } })
      .next ((s.setO (K.FRZ_COPIED w) 0).setFrzState w 2)

/-- The sweep has covered line n. -/
def State.sweepCovered (s : State) (w n : Nat) : State :=
  (s.updWin w (fun v => { v with frz := { v.frz with sweep := n + 1, sweepOn := decide (n + 1 < s.winLines w) } })).addO (K.FRZ_COPIED w) 64

/-- FREEZE_SWEEP_STEP (R199, R200): the sweep covers the next line; an uncopied one takes a queue entry. -/
def execFreezeSweepStep (w : WinIx) (s : State) : Host.Outcome State Fault Refusal :=
  let z := (s.win w).frz
  if s.hubHeld || !z.sweepOn || !(s.o (K.FRZ_STATE w) == 2 || s.o (K.FRZ_STATE w) == 4) || s.internalAt w .frz then .next s
  else if !s.uncopied w (s.dirEntry w z.sweep) then .next (s.sweepCovered w z.sweep)
  else match s.pushInternal w z.sweep .frz with
    | none => .next s
    | some s => .next ((s.sweepCovered w z.sweep).crownRun w z.sweep crownFuel)

/-- A write to window w made before its freeze point that has not been served (R196, R199). -/
def State.oldWrites (s : State) (w p : Nat) : Bool :=
  let old := fun (e : LineEntry) => e.op = .wr && decide (e.ct < p)
  let req := fun (r : CrownReq) => r.w == w && old r.entry
  s.cr.coming.any (fun e => match e.2 with | some r => req r | none => false) || s.cr.inbound.any (fun e => e.2.any req)
    || s.cr.heldUp.any req
    || s.cr.queue.any (fun e => e.1 / 2 ^ 36 == w && e.2.any (fun x => old x || x.wbs.any (fun b => decide (b.ct < p))))

/-- FREEZE_COMPLETE (R199): the sweep is over, every old write is served, every shadow write acknowledged. -/
def execFreezeComplete (w : WinIx) (s : State) : Host.Outcome State Fault Refusal :=
  let z := (s.win w).frz
  if s.hubHeld || s.o (K.FRZ_STATE w) ≠ 2 || z.sweepOn || z.shadowOut ≠ 0 || s.internalAt w .frz || s.oldWrites w (z.point.getD 0) then .next s
  else .next (s.setFrzState w 3)

end Sys2Proof.Machine
end

