-- ==== Sys2Proof/Machine/Ports.lean ====
section
/-!
DEFINITION. Links and lanes: training, its outcome, retrains, Recovery, L1 and L0p, loopback, margining, lane tests, eye scans
(R235, R272-R302).
-/
namespace Sys2Proof.Machine

/-! ### Training and its outcome -/

/-- A port's link is in training: Polling or Configuration, or Recovery for a retrain. -/
def State.inTraining (s : State) (p : Nat) : Bool :=
  [1, 2].contains (s.o (K.LTSSM_STATE p)) || (s.o (K.LTSSM_STATE p) == 4 && (s.port p).up)

/-- PARTNER_DETECT (R282, R299): a partner's receiver is found on a port whose idle lanes detect one. -/
def execPartnerDetect (p : PortIx) (s : State) : Host.Outcome State Fault Refusal :=
  if s.tileHeld (tileOf p) || s.isMember p then .next s
  else
    let s := s.updPort p (fun q => { q with partner := true })
    .next (if (KMap.get {} s.fab.lane (4 * p.val)).power == 0 then s else s.startTraining p)

/-- Physical lane of logical lane k of port p (R273). -/
def State.laneOf (s : State) (p k : Nat) (reversed : Bool) : Nat :=
  if reversed then 4 * p + s.c (K.PORT_WIDTH p) - 1 - k else 4 * p + k

/-- Members of port p that carry a lane of a link of width w (R276). -/
def State.activeMembers (s : State) (p w : Nat) (reversed : Bool) : List Nat :=
  (((List.range w).map (fun k => s.laneOf p k reversed / 4)).foldl (fun l i => insertNat i l) [])

/-- Lanes of a trained link (R298, R299, R301): those outside its width idle; the presets that equalisation chose are open. -/
def State.setTrainedLanes (s : State) (p : Nat) (i : LinkInfo) : State :=
  let live := (List.range i.width).map (fun k => s.laneOf p k i.reversed)
  let idle := (s.lanesOf p).filter (fun l => !live.contains l)
  let s := s.setLanes idle (if (s.port p).set.idle == 1 then 0 else 1)
  let v := s.freeVal
  let on := fun (m : KMap Lane) (l : Nat) => KMap.upd {} m l (fun (x : Lane) =>
    { x with power := 3, on := true, polarity := bit i.polarity (l - 4 * p), txPreset := v % 11, rxPreset := v / 16 % 11 })
  { s.freeNext with fab := { s.fab with lane := live.foldl on s.fab.lane } }

/-- Bits 0 to 2 of DEGRADED (R285). -/
def State.degradedBits (s : State) (p : Nat) (i : LinkInfo) : Nat :=
  b2n (decide (i.width < s.c (K.PORT_WIDTH p)) && decide (i.width < i.partWidth))
    + b2n (decide (i.rate < (s.port p).set.rate) && decide (i.rate < i.partRate)) * 2 + b2n i.reversed * 4

/-- DEGRADED takes a value; a change raises E(4p) with a code (R285, R278). -/
def State.setDegraded (s : State) (p v : Nat) : State :=
  let old := s.o (K.DEGRADED p)
  if old == v then s
  else (s.setO (K.DEGRADED p) v).raise (4 * p) (if bit v 3 && !bit old 3 then 1 else 0) (if bit v 3 && !bit old 3 then 4 else 3)

/-- The port carries no traffic because its link trained without CXL (R278). -/
def State.needsCxl (s : State) (p protocol : Nat) : Bool := (s.o (K.ROLE p) == 1 || s.o (K.ROLE p) == 2) && protocol ≠ 2

/-- Slot Power Limit of a slot (R431): value and scale. PRESUMED: the values of PCIe above 239 W are 0xF0 for 250 W and one
more for every 25 W, to 600 W. -/
def slotPowerLimit (w : Nat) : Nat × Nat :=
  if w ≤ 239 then (w, 0) else if w < 250 then (239, 0) else (0xF0 + (min w 600 - 250) / 25, 0)

/-- The vPPBs of port p send Set_Slot_Power_Limit (R431). -/
def State.sendPowerLimit (s : State) (p : Nat) : State :=
  let n := s.o (K.SLOT p)
  if n < 24 && !(s.boundIn p).isEmpty then
    let l := slotPowerLimit (s.c (K.SLOT_PWR_LIMIT_W n))
    s.emit .card p [5, l.1, l.2]
  else s

/-- The vPPBs that bind port p see its link active (R235, R258). -/
def State.vppbsLinkUp (s : State) (p : Nat) : State :=
  (s.boundIn p).foldl (fun (s : State) nv =>
    let b := s.vppb nv.1 nv.2
    if b.linkDis then s
    else
      let st := setBit (setBit b.status 8 true) 6 true
      (s.updVppb nv.1 nv.2 (fun v => { v with linkView := true, status := st })).emit .hotplug nv.1 [nv.2, st]) s

/-- State of a claimed port whose usable link is up (R233, R235): `accept` takes the present device as the same agent. -/
def State.settlePort (s : State) (p : Nat) (accept : Bool) : State :=
  let st := s.o (K.PORT_STATE p)
  let role := s.o (K.ROLE p)
  if role == 0 then s.setO (K.PORT_STATE p) 0
  else if !s.linkUp p then (if st == 2 || st == 3 then s.setO (K.PORT_STATE p) 1 else s)
  else
    -- a virtual switch is up while a port of its host has its link up, whatever the port's state (R236)
    let s : State := if role == 1 then { s with fab := { s.fab with vcsUp := KMap.set false s.fab.vcsUp (s.o (K.AGENT p)) true } } else s
    let serial := s.o (K.PORT_SERIAL p)
    let same := serial ≠ 0 && (s.port p).keptSerial == some serial
    if (st == 5 || st == 6) && !accept && !(st == 5 && same) then s.setO (K.PORT_STATE p) 6
    else if st == 4 then s.vppbsLinkUp p
    else
      let used := role == 1 || (role == 2 && s.o (K.POOL p) == 1 && s.o (K.AGENT_KIND p) == 2) || !(s.boundIn p).isEmpty
      let s := s.setO (K.PORT_STATE p) (if used then 3 else 2)
      let s := if used then s.updPort p (fun q => { q with keptSerial := if serial == 0 then none else some serial }) else s
      let cache := s.o (K.AGENT_KIND p) == 4 || s.o (K.AGENT_KIND p) == 5
      let s : State := { s with fab := { s.fab with cacheDev := (s.boundIn p).foldl (fun m nv => KMap.set false m (nv.1 * 64 + nv.2) cache) s.fab.cacheDev } }
      (s.vppbsLinkUp p).sendPowerLimit p

/-- Flit forms of a protocol at a rate (R277, R280): non-flit and PCIe flits for PCIe; for CXL 68-byte flits at 8, 16 and 32 GT/s, 256-byte
ones at 8 GT/s and above. -/
def flitForms (protocol rate flit : Nat) : Bool :=
  if protocol == 2 then (flit == 2 && 3 ≤ rate && rate ≤ 5) || ((flit == 3 || flit == 4) && 3 ≤ rate) else flit ≤ 1

/-- An outcome that the settings of the port's training and R277 allow. -/
def State.linkFits (s : State) (p : Nat) (i : LinkInfo) : Bool :=
  let x := (s.port p).set
  [1, 2, 4, 8, 16].contains i.width && i.width ≤ s.c (K.PORT_WIDTH p) && 1 ≤ i.rate && i.rate ≤ x.rate
    && (i.protocol == 1 || (i.protocol == 2 && x.cxl && 3 ≤ i.rate))
    && !(i.flit == 0 && (i.rate == 6 || x.flit == 2)) && !(x.flit == 0 && i.flit == 1 && i.rate < 6)
    && flitForms i.protocol i.rate i.flit

/-- Who runs the key exchange of the link IDE stream at port p (R281): 0 none, 1 the device is the IDE_KM responder, 2 the service
cluster is the requester. -/
def State.ideRole (s : State) (p : Nat) : Nat :=
  if !(s.port p).ide then 0 else match s.o (K.ROLE p) with | 1 => 1 | 2 | 3 => 2 | _ => 0

/-- LINK_ACTIVE (R235, R276, R278, R282-R285): training ends with Data Link Layer Link Active, and the agent is identified. An
outcome that the settings exclude leaves the link in Detect (R300). No training ends while the tile processors restart (R525). -/
def execLinkActive (p : PortIx) (info : LinkInfo) (s : State) : Host.Outcome State Fault Refusal :=
  let p := p.val
  if !s.inTraining p || !s.mayTrain p || s.tilesRestart then .next s
  else if !s.linkFits p info then .next (s.setO (K.LTSSM_STATE p) 0)
  else
    let again := (s.port p).up
    let s := (((((s.setO (K.LINK_WIDTH p) info.width).setO (K.LINK_RATE p) info.rate).setO (K.FLIT_ACTIVE p) info.flit).setO
      (K.PROTOCOL p) info.protocol).setO (K.LTSSM_STATE p) 3).setO (K.TRAIN_TIME p) (info.timeUs % 2 ^ 32)
    let s := s.setTrainedLanes p info
    let act := s.activeMembers p info.width info.reversed
    let s := s.updPort p (fun q => { q with
      up := true, partner := true, eqKept := true, inL1 := false, looped := false
      ide := q.set.ide && decide (info.flit ≠ 0), cxlIde := if info.protocol == 2 then q.set.cxlIde else 0
      trained := act, capGiB := info.capacityGiB, isDcd := info.isDcd, biCredits := info.biCredits })
    let s := ((s.setO (K.AGENT_KIND p) (min info.kind 6)).setO (K.LD_COUNT p) (if info.kind == 2 then 1 else min info.lds 16)).setO
      (K.PORT_SERIAL p) ((info.serial.getD 0) % 2 ^ 64)
    let bad := s.needsCxl p info.protocol
    let s := s.setO (K.LINK_UP p) (b2n !bad)
    let s := if again then s else s.raise (4 * p) 0 1
    let s := s.setDegraded p (s.degradedBits p info + b2n bad * 8)
    .next ((s.settlePort p false).updPortsReady)

/-! ### Enabling, retraining, resets of a link -/

/-- Test settings of a lane return to their reset values before training (R291): LOOP, PATTERN, GEN_EN, CHK_EN. -/
def Lane.untested (x : Lane) : Lane := { x with test := x.test / 128 * 128 }

/-- LINK_ENABLE's own rule (R287, R291). A member port's object has no effect (R272). -/
def ownLinkEnable (p v : Nat) (s : State) : OdAns × State :=
  if s.isMember p then (odOk, s.setO (K.LINK_ENABLE p) v)
  else if v == 0 then
    if s.o (K.PORT_STATE p) == 3 || s.o (K.PORT_STATE p) == 4 then (odNo 0x0501, s)
    else (odOk, (s.setO (K.LINK_ENABLE p) 0).portDown p .disabled)
  else if s.o (K.LINK_ENABLE p) == 1 then (odOk, s)
  else
    let s : State := { s with fab := { s.fab with
      lane := (s.lanesOf p).foldl (fun m l => KMap.upd {} m l Lane.untested) s.fab.lane } }
    (odOk, ((s.setO (K.LINK_ENABLE p) 1).setO (K.LTSSM_STATE p) 0).startTraining p)

/-- LINK_ENABLE (R287, R291). -/
def execLinkEnable (sess : SessRef) (p : PortIx) (v : Byte) (s : State) : Host.Outcome State Fault Refusal :=
  .next (s.odCommand sess (K.LINK_ENABLE p) 1 v.toNat (ownLinkEnable p v.toNat))

/-- LINK_RETRAIN's own rule (R284): through Recovery when the link is up, without going down; equalisation starts afresh. It waits while
the tile processors restart (R525). -/
def ownLinkRetrain (p : Nat) (s : State) : OdAns × State :=
  if s.isMember p then (odOk, s)
  else if s.tilesRestart then (odOk, { s with fab := { s.fab with waitRetrain := insertNat p s.fab.waitRetrain } })
  else (odOk, (s.updPort p (fun q => { q with eqKept := false })).retrain p)

/-- LINK_RETRAIN (R284). -/
def execLinkRetrain (sess : SessRef) (p : PortIx) (v : Byte) (s : State) : Host.Outcome State Fault Refusal :=
  .next (s.odCommand sess (K.LINK_RETRAIN p) 1 v.toNat (ownLinkRetrain p))

/-- A reset of port p's link: it goes down and trains again (R264, R282, R502). -/
def State.linkReset (s : State) (p : Nat) : State := (s.portDown p .reset).startTraining p

/-- PARTNER_HOT_RESET (R282): the link goes down as at a port reset, and training starts. -/
def execPartnerHotReset (p : PortIx) (s : State) : Host.Outcome State Fault Refusal :=
  .next (if s.tileHeld (tileOf p) || !(s.port p).up then s
    else ((s.portDown p .reset).setO (K.LTSSM_STATE p) 9).startTraining p)

/-- CXL_HOT_RESET (R550): a hot reset from the partner of port p, or a Secondary Bus Reset on a vPPB. What is bound there is
reset: an end device or SLD with its port's link, an LD by a CXL LD reset, an LD of the device's own by its decoder. -/
def execCxlHotReset (p : PortIx) (vppb : Option (HostIx × Fin 49)) (s : State) : Host.Outcome State Fault Refusal :=
  match vppb with
  | none => .next (if s.tileHeld (tileOf p) || !(s.port p).up then s else s.linkReset p)
  | some (h, v) =>
    if !s.isVcsUp h then .next s
    else if 32 ≤ v.val then
      .next { s with fab := { s.fab with hdm := KMap.set {} s.fab.hdm (h.val * 64 + v.val) {} } }
    else match s.binding h v with
      | none => .next s
      | some (kind, q, ld) =>
        if kind == 2 then .next (s.emit .card q [4, h.val, v.val, ld])
        else .next (if (s.port q).up then (s.emit .card q [3, h.val, v.val]).linkReset q else s)

/-- LINK_RECOVERY (R286): an entry to Recovery and how it ends; a failed one is a surprise link loss. -/
def execLinkRecovery (p : PortIx) (cause : RecoveryCause) (back : Bool) (s : State) : Host.Outcome State Fault Refusal :=
  let p := p.val
  if !(s.port p).up || !([3, 5, 6].contains (s.o (K.LTSSM_STATE p))) then .next s
  else
    let s := s.enterRecovery p
    let s := match cause with
      | .uncorrectableFlit => (s.incO (K.FLITS_UNCORRECTABLE p)).raise (4 * p + 1) 1 0x10
      | .replayTimeout => (s.incO (K.REPLAYS p)).raise (4 * p + 1) 1 0x11
      | .unrequested => s.raise (4 * p + 1) 1 0x12
      | _ => s
    if !back then .next (if s.linkUp p then s.portDown p .surprise else s.linkDown p 0)
    else
      let s := s.setO (K.LTSSM_STATE p) 3
      let s := s.updPort p (fun q => { q with inL1 := false })
      .next (match cause with
        | .rateChange r => if 1 ≤ r && r ≤ (s.port p).set.rate then s.setO (K.LINK_RATE p) r else s
        | _ => s)

/-- LOOPBACK_ENTRY (R292): the port follows, and counts as down until it leaves Loopback. -/
def execLoopbackEntry (p : PortIx) (s : State) : Host.Outcome State Fault Refusal :=
  let p := p.val
  if s.tileHeld (tileOf p) || s.isMember p || s.o (K.LINK_ENABLE p) == 0 || (s.port p).looped || [0, 7].contains (s.o (K.LTSSM_STATE p)) then .next s
  else
    let s := if s.linkUp p then s.portDown p .surprise else s
    .next (((s.setO (K.LTSSM_STATE p) 8).updPort p (fun q => { q with looped := true })).raise (4 * p) 0 5)

/-- LOOPBACK_EXIT (R292): the link trains again. -/
def execLoopbackExit (p : PortIx) (s : State) : Host.Outcome State Fault Refusal :=
  let p := p.val
  .next (if !(s.port p).looped then s
    else ((s.setO (K.LTSSM_STATE p) 0).updPort p (fun q => { q with looped := false })).startTraining p)

/-! ### L1 and L0p (R279, R299) -/

/-- L1_ENTRY: on a host or end-device port with L1_ALLOW; the link's lanes stand by. -/
def execL1Entry (p : PortIx) (s : State) : Host.Outcome State Fault Refusal :=
  let p := p.val
  if !(s.port p).up || s.o (K.LTSSM_STATE p) ≠ 3 || !(s.port p).set.l1 || s.o (K.ROLE p) == 2 then .next s
  else
    let s := (s.endEyes p 3).setO (K.LTSSM_STATE p) 6
    .next ((s.setLanes ((s.lanesOf p).filter (fun l => (KMap.get {} s.fab.lane l).on)) 2).updPort p (fun q => { q with inL1 := true }))

/-- L1_EXIT (R299). -/
def execL1Exit (p : PortIx) (s : State) : Host.Outcome State Fault Refusal :=
  let p := p.val
  if !(s.port p).inL1 then .next s
  else
    let s := s.setO (K.LTSSM_STATE p) 3
    .next ((s.setLanes ((s.lanesOf p).filter (fun l => (KMap.get {} s.fab.lane l).on)) 3).updPort p (fun q => { q with inL1 := false }))

/-- L0P_WIDTH_CHANGE (R279, R299): lanes left idle go to NAP, those needed again return; the trained width stays. -/
def execL0pWidthChange (p : PortIx) (width : Nat) (s : State) : Host.Outcome State Fault Refusal :=
  let p := p.val
  let w := s.o (K.LINK_WIDTH p)
  if !(s.port p).up || !([3, 5].contains (s.o (K.LTSSM_STATE p))) || !(s.port p).set.l0p || s.o (K.LINK_RATE p) ≠ 6 || w < 2
      || !([1, 2, 4, 8, 16].contains width) || w < width then .next s
  else
    let rev := bit (s.o (K.DEGRADED p)) 2
    let live := (List.range width).map (fun k => s.laneOf p k rev)
    let idle := ((List.range w).map (fun k => s.laneOf p k rev)).filter (fun l => !live.contains l)
    let s := idle.foldl (fun (s : State) l =>
      match KMap.get none s.fab.eye (l / 4) with
      | some e => if e.cmd % 4 == l % 4 then s.endEye (l / 4) 3 else s
      | none => s) s
    let s := (s.setLanes idle 1).setLanes live 3
    let set := fun (b : Bool) (m : KMap Lane) (l : Nat) => KMap.upd {} m l (fun (x : Lane) => { x with on := b })
    let s : State := { s with fab := { s.fab with lane := live.foldl (set true) (idle.foldl (set false) s.fab.lane) } }
    .next (s.setO (K.LTSSM_STATE p) (if width < w then 5 else 3))

/-! ### Margining and lane tests (R288-R291) -/

/-- A lane. -/
def State.lane (s : State) (l : Nat) : Lane := KMap.get {} s.fab.lane l

/-- Update a lane. -/
def State.updLane (s : State) (l : Nat) (f : Lane → Lane) : State :=
  { s with fab := { s.fab with lane := KMap.upd {} s.fab.lane l f } }

/-- LANE_MARGINING (R288, R297): at 16 GT/s and above; a scan of the lane gives way. -/
def execLaneMargining (lane : LaneIx) (on : Bool) (s : State) : Host.Outcome State Fault Refusal :=
  let l := lane.val
  let p := s.lead (l / 4)
  if !on then .next (s.updLane l (fun x => { x with margin := false }))
  else if !(s.port p).up || s.o (K.LINK_RATE p) < 4 || !(s.lane l).on then .next s
  else
    let s := match KMap.get none s.fab.eye (l / 4) with
      | some e => if e.cmd % 4 == l % 4 then s.endEye (l / 4) 2 else s
      | none => s
    .next (s.updLane l (fun x => { x with margin := true }))

/-- Power state of a lane as LANE_STATUS gives it (R298, R299): 4 TEST. -/
def State.lanePower (s : State) (l : Nat) : Nat :=
  let x := s.lane l
  if s.o (K.LINK_ENABLE (s.lead (l / 4))) == 0 && (x.test % 4 ≠ 0 || bit x.test 5 || bit x.test 6) then 4 else x.power

/-- A write of SDS_LANEnn_TEST (R290, R291). DEDUCED: with LINK_ENABLE true a write that would change LOOP, PATTERN or GEN_EN,
or asks for a slip, is the one that is ignored and sets ILLEGAL. -/
def State.laneTestWrite (s : State) (l v : Nat) : State :=
  let x := s.lane l
  let on := s.o (K.LINK_ENABLE (s.lead (l / 4))) == 1
  let low := v % 64
  let badPat := decide (6 ≤ bits v 4 2)
  let low := if badPat then low - bits v 4 2 * 4 else low
  let bad := if on then decide (low ≠ x.test % 64) || bit v 7 else badPat
  let kept := if on then x.test % 64 else low
  let slip := bit x.test 7 || (!on && bit v 7)
  let ill := (bit x.test 17 && !bit v 17) || bad
  let w := kept + b2n (bit v 6) * 64 + b2n slip * 128 + bits x.test 13 8 * 256 + b2n (bit v 15) * 2 ^ 15 + b2n (bit v 16) * 2 ^ 16
    + b2n ill * 2 ^ 17
  s.updLane l (fun x => { x with test := w, errs := if bit v 18 then 0 else x.errs })

/-- LANE_TEST_CONFIG (R290, R291). -/
def execLaneTestConfig (via : CsrVia) (lane : LaneIx) (value : Word32) (s : State) : Host.Outcome State Fault Refusal :=
  .next (s.csrDo via (lane.val / 96) (fun s => s.laneTestWrite lane value.toNat))

/-- BITSLIP (R290): BITSLIP written 1, the other fields as they are. -/
def execBitslip (via : CsrVia) (lane : LaneIx) (s : State) : Host.Outcome State Fault Refusal :=
  .next (s.csrDo via (lane.val / 96) (fun s =>
    s.laneTestWrite lane (setBit (setBit (s.lane lane).test 17 false) 7 true)))

/-- BITSLIP_DONE (R290): the slip has taken effect. Words have 64 positions in NRZ, 32 in PAM4; DEDUCED: a disabled port's lane
runs at the RATE_MAX of its last training. -/
def execBitslipDone (lane : LaneIx) (s : State) : Host.Outcome State Fault Refusal :=
  let l := lane.val
  let x := s.lane l
  if !bit x.test 7 then .next s
  else
    let n := if (s.port (s.lead (l / 4))).set.rate == 6 then 32 else 64
    let pos := (bits x.test 13 8 + 1) % n
    let t := x.test % 128 + pos * 256 + x.test / 2 ^ 14 * 2 ^ 14
    .next (s.updLane l (fun x => { x with test := t }))

/-- ERR_CLR (R290). -/
def execErrClr (via : CsrVia) (lane : LaneIx) (s : State) : Host.Outcome State Fault Refusal :=
  .next (s.csrDo via (lane.val / 96) (fun s => s.updLane lane (fun x => { x with errs := 0 })))

/-! ### Eye scans (R293-R297) -/

/-- Positions of a range in steps. -/
def eyeSteps (lo hi : Int) (step : Nat) : Nat := if hi < lo || step == 0 then 0 else ((hi - lo).toNat) / step + 1

/-- Points of an eye command. -/
def eyePoints (c : Nat) : Nat :=
  eyeSteps (ofSigned 8 (bits c 23 16)) (ofSigned 8 (bits c 31 24)) (bits c 39 32)
    * eyeSteps (ofSigned 8 (bits c 47 40)) (ofSigned 8 (bits c 55 48)) (bits c 63 56)

/-- Reason of R295, 0 when the command is good. -/
def State.eyeRefusal (s : State) (q c : Nat) : Nat :=
  let tlo := ofSigned 8 (bits c 23 16)
  let thi := ofSigned 8 (bits c 31 24)
  let vlo := ofSigned 8 (bits c 47 40)
  let vhi := ofSigned 8 (bits c 55 48)
  let ts := bits c 39 32
  let vs := bits c 63 56
  let p := s.lead q
  let l := 4 * q + c % 4
  let x := s.lane l
  let pam := s.o (K.LINK_RATE p) == 6 || (!(s.port p).up && (s.port p).set.rate == 6)
  let eye := bits c 9 8
  if ts == 0 || vs == 0 then 1
  else if thi < tlo || vhi < vlo || tlo < -32 || 32 < thi || vlo < -63 || 63 < vhi || 64 < ts || 126 < vs then 2
  else if 4096 < eyePoints c then 3
  else if bits c 69 64 < 20 || 40 < bits c 69 64 then 4
  else if eye == 3 || (!pam && eye ≠ 1) || bits c 7 2 ≠ 0 || bits c 15 10 ≠ 0 || bits c 79 70 ≠ 0 || bits c 127 96 ≠ 0 then 5
  else if !((x.on && s.o (K.LTSSM_STATE p) == 3 && x.power == 3) || (s.lanePower l == 4 && x.test % 4 ≠ 0 && bit x.test 6)) then 6
  else if (KMap.get none s.fab.eye q).isSome || x.margin then 7
  else 0

/-- EYE_CMD's own rule (R294-R296). -/
def ownEyeCmd (q c : Nat) (s : State) : OdAns × State :=
  match s.eyeRefusal q c with
  | 0 =>
    let e : Eye := { cmd := c, total := eyePoints c, ctStart := s.ct }
    let s := s.setO (K.EYE_RECORD q) (eyeRecord e 1 (s.o (K.LINK_RATE (s.lead q))) 0)
    (odOk, (({ s with fab := { s.fab with eye := KMap.set none s.fab.eye q (some e) } } : State).setO (K.EYE_STATE q) 1).setO (K.EYE_RESULT q) 0)
  | r => (odNo 0x0504 r, s.setO (K.EYE_RESULT q) r)

/-- EYE_CMD (R294). -/
def execEyeCmd (sess : SessRef) (p : PortIx) (cmd : BitVec 128) (s : State) : Host.Outcome State Fault Refusal :=
  .next (s.odCommand sess (K.EYE_CMD p) 16 cmd.toNat (ownEyeCmd p cmd.toNat))

/-- EYE_SCAN_POINT (R293, R296): one more point of the scan on quad p has been measured. A scan waits while the tile processors
restart (R525). -/
def execEyeScanPoint (p : PortIx) (errors : BitVec 32) (s : State) : Host.Outcome State Fault Refusal :=
  if s.tilesRestart then .next s else
  match KMap.get none s.fab.eye p with
  | none => .next s
  | some e =>
    let n := min errors.toNat 0xFFFFFF
    let e := { e with pts := (n + (if n == 0xFFFFFF then 2 ^ 31 else 0)) :: e.pts }
    let s : State := { s with fab := { s.fab with eye := KMap.set none s.fab.eye p (some e) } }
    if e.total ≤ e.pts.length then .next (s.endEye p 0)
    else .next (s.setO (K.EYE_RECORD p) (eyeRecord e 1 (s.o (K.LINK_RATE (s.lead p))) 0))

/-- LANE_STATUS (R301). -/
def State.laneStatus (s : State) (l : Nat) : Nat :=
  let x := s.lane l
  let busy := x.margin || (match KMap.get none s.fab.eye (l / 4) with | some e => e.cmd % 4 == l % 4 | none => false)
  s.lanePower l + b2n x.polarity * 8 + b2n x.on * 16 + (if x.on then x.txPreset * 32 + x.rxPreset * 512 else 0) + b2n busy * 2 ^ 13

end Sys2Proof.Machine
end

