-- ==== Sys2Proof/Machine/Rings.lean ====
section
/-!
DEFINITION. Slices' requests and capture rings (R190, R202-R204, R343, R366-R369).
-/
namespace Sys2Proof.Machine

/-! ### A slice's own writes -/

/-- A slice's own write, of a record or a ring block: BULK, in the flow of its engine and host, under the slice's PASID. -/
def sliceTxn (sl : Nat) (x : Slice) (addr n data : Nat) : Txn :=
  { purpose := .agent, master := engineMaster x.engine, port := 0xFF, agent := agentSlice sl, dest := 0xFF, write := true,
    posted := true, addr := addr, bytes := n, data := data, pasid := x.pasid }

/-- Record a refusal by an engine's region unit (R391, R398). -/
def State.sliceFault (s : State) (sl : Nat) (g : GFault) (a : Nat) (write : Bool) : State :=
  let e := (s.slice sl).engine
  s.raise (552 + e) 1 1 false
    { master := engineMaster e, access := if write then 2 else 1, addr := some g.addr, detail := s.guardDetail g a sl }

/-- A write of the slice outside its descriptors' data, checked as R138 gives with the slice as agent: a completion record. -/
def State.sliceWrite (s : State) (sl addr n data : Nat) : State :=
  let x := s.slice sl
  match s.sliceCheck sl { write := true } addr n with
  | some g => s.sliceFault sl g addr true
  | none =>
    let s := s.countBytes sl n
    (s.hubIssue (s.sliceDest x addr) (sliceTxn sl x addr n data) (engineMaster x.engine) x.host).2

/-! ### Ring blocks (R202-R204, R368) -/

/-- Step-4 CT of the open block's first byte, and of its last. -/
def Ring.ctFirst (r : Ring) : Nat := match r.marks.head? with | some m => m.ct | none => 0
def Ring.ctLast (r : Ring) : Nat := match r.marks.getLast? with | some m => m.ct | none => 0

/-- Earliest of a list of edges; lines in their order where stamps are equal. -/
def firstEdge : List (Nat × Nat) → Option (Nat × Nat)
  | [] => none
  | e :: l =>
    match firstEdge l with
    | none => some e
    | some f => if f.2 < e.2 || (f.2 == e.2 && f.1 < e.1) then some f else some e

/-- The trigger edge that the open block reports: stamped up to its last byte and not before its first (R202), or in the gap behind
the byte before it (R204). -/
def Ring.trigger (r : Ring) : Option (Nat × Nat) :=
  firstEdge (r.edges.filter (fun e => decide (e.2 ≤ r.ctLast) && (decide (r.ctFirst ≤ e.2) || r.seq ≠ 0)))

/-- Header of the open block without its HCRC (R202). -/
def Ring.header (r : Ring) (sl : Nat) (cut last : Bool) : Nat :=
  let t := r.trigger
  let off := match t with
    | none => 0
    | some e => match r.marks.find? (fun m => decide (e.2 ≤ m.ct)) with | some m => m.off | none => 0
  r.ctFirst + r.ctLast * 2 ^ 64 + r.seq % 2 ^ 32 * 2 ^ 128 + sl * 2 ^ 160 + r.data.length * 2 ^ 176
    + b2n t.isSome * 2 ^ 188 + b2n (decide (r.gapBytes ≠ 0)) * 2 ^ 189 + b2n cut * 2 ^ 190 + b2n last * 2 ^ 191
    + (match t with | some e => e.1 | none => 0) * 2 ^ 192 + off * 2 ^ 200 + (match t with | some e => e.2 | none => 0) * 2 ^ 224
    + min r.gapBytes 0xFFFFFFFF * 2 ^ 288 + r.port * 2 ^ 320 + r.rid * 2 ^ 328

/-- Feed writes whose last byte lies at payload offsets `lo` to `hi` - 1. -/
def Ring.endsIn (r : Ring) (lo hi : Nat) : List Nat :=
  let ends := r.marks.zip ((r.marks.drop 1).map (·.off) ++ [r.data.length])
  ends.filterMap (fun e => if lo < e.2 && e.2 ≤ hi then e.1.id else none)

/-- The ring after its open block has been closed. -/
def Ring.afterClose (r : Ring) : Ring :=
  { r with data := [], marks := [], edges := r.edges.filter (fun e => decide (r.ctLast < e.2)), gapBytes := 0,
           seq := (r.seq + 1) % 2 ^ 64, closeDue := false }

/-- Issue one write of a ring block; the feed writes `ends` end with it. -/
def State.ringWrite (s : State) (sl : Nat) (x : Slice) (addr n data : Nat) (ends : List Nat) : State :=
  let s := s.countBytes sl n
  let s : State := { s with ord := { s.ord with feeds := KMap.set [] s.ord.feeds s.ord.nextTxn ends } }
  (s.hubIssue (s.sliceDest x addr) (sliceTxn sl x addr n data) (engineMaster x.engine) x.host).2

/-- The open block is closed and written: its payload bytes, then its header (R203, R368). A block with no byte is not
written; one that the slice's regions refuse is not written either, and its feed writes end in error. -/
def State.closeBlock (s : State) (sl : Nat) (cut last : Bool) : State :=
  let x := s.slice sl
  match x.ring with
  | none => s
  | some r =>
    let after := fun (s : State) => s.updSlice sl (fun x => { x with ring := some r.afterClose })
    if r.data.isEmpty then s.updSlice sl (fun x => { x with ring := some { r with closeDue := false } })
    else
      let base := r.base + r.seq % max 1 r.blocks * 4096
      match s.sliceCheck sl { write := true } base 4096 with
      | some g => (r.marks.filterMap (·.id)).foldl (fun (s : State) f => s.endFeed false 0xFE f) (after (s.sliceFault sl g base true))
      | none =>
        let s := after s
        let s := (s.moverCut x (base + 64) r.data.length).foldl (fun (s : State) (c : Nat × Nat) =>
          let lo := c.1 - (base + 64)
          s.ringWrite sl x c.1 c.2 (leNat (asBytes ((r.data.drop lo).take c.2))) (r.endsIn lo (lo + c.2))) s
        let h := r.header sl cut last
        let crc := crc32 (toBytes 60 h ++ asBytes r.data)
        s.ringWrite sl x base 64 (h + crc * 2 ^ 480) []

/-- Block S has room in the ring (R369). -/
def Ring.hasRoom (r : Ring) : Bool := decide ((r.seq % 2 ^ 32 + 2 ^ 32 - r.cons % 2 ^ 32) % 2 ^ 32 < r.blocks)

/-- Bytes of a feed write join the stream (R367-R369); `id` is the write's request, `ct` the CT of its step 4. Bytes that
would fill a block without room are lost, and the write ends with them. -/
def State.feedBytes (s : State) (sl id ct : Nat) : Nat → List Nat → State
  | 0, _ => s
  | n + 1, bs =>
    match (s.slice sl).ring with
    | none => s.endFeed true 0xFF id
    | some r =>
      if bs.isEmpty then s
      else if !r.hasRoom then
        let r := { r with gapBytes := r.gapBytes + bs.length, lost := (r.lost + bs.length) % 2 ^ 64 }
        (s.updSlice sl (fun x => { x with ring := some r })).endFeed true 0xFF id
      else
        let k := min (4032 - r.data.length) bs.length
        let m : Mark := { ct := ct, off := r.data.length, id := if k == bs.length then some id else none }
        let r := { r with data := r.data ++ bs.take k, marks := r.marks ++ [m], firstAt := if r.data.isEmpty then s.now else r.firstAt }
        let s := s.updSlice sl (fun x => { x with ring := some r })
        let s := if r.data.length == 4032 then s.closeBlock sl false false else s
        s.feedBytes sl id ct n (bs.drop k)

/-- Rings whose feeding port went down close their block (R368). -/
def State.settleRings (s : State) : State :=
  (s.mv.slice.filter (fun e => match e.2.ring with | some r => r.closeDue | none => false)).foldl
    (fun (s : State) e => s.closeBlock e.1 false false) s

/-- A discarded page or feed write is counted and reported at its port (R348, R366). -/
def State.pageDiscard (s : State) (p sl : Nat) : State :=
  (s.updSlice sl (fun x => { x with discards := (x.discards + 1) % 2 ^ 32 })).raise (4 * p + 2) 1 0x21 false { master := p, access := 2 }

/-- A posted write of function `rid` at port p into the feed aperture of ring sl (R366). -/
def State.feedWrite (s : State) (p rid sl addr : Nat) (data : List Nat) : State :=
  let s := s.settleRings
  let x := s.slice sl
  match x.ring with
  | none => s
  | some r =>
    if r.port ≠ p || r.rid ≠ rid || !inRange x.feedRange addr || !inRange x.feedRange (addr + (data.length - 1)) then s.pageDiscard p sl
    else if data.isEmpty then s
    else
      let t : Txn := { purpose := .agent, master := p, port := p, agent := agentDev p rid, dest := 0xFF, write := true, posted := true,
                       addr := addr, bytes := data.length, rid := rid, counted := false }
      let n := s.newTxn t
      n.2.feedBytes sl n.1 s.ct (data.length + 1) data

/-- CAPTURE_FEED_WRITE (R366-R369): a posted write at port p that lies in a feed aperture of its VCS. -/
def execCaptureFeedWrite (p : PortIx) (rid : BitVec 16) (addr : Word64) (data : List Byte) (s : State) :
    Host.Outcome State Fault Refusal :=
  let q := s.lead p
  if s.hubHeld || !s.linkUp q then .next s
  else match s.vcsOf q with
    | none => .next s
    | some (n, _) =>
      match (s.ringsOf n).find? (fun e => inRange e.2.feedRange addr.toNat) with
      | none => .next s
      | some e => .next (s.feedWrite q rid.toNat e.1 addr.toNat (data.map (·.toNat)))

/-- RING_FLUSH_TIMEOUT (R368): FLUSH_US after its first byte the partial block is closed. -/
def execRingFlushTimeout (sl : SliceIx) (s : State) : Host.Outcome State Fault Refusal :=
  match (s.slice sl).ring with
  | none => .next s
  | some r =>
    if r.flushUs == 0 || r.data.isEmpty || s.hubHeld then .next s
    else .next ((s.advance (r.firstAt + r.flushUs * Config.us)).closeBlock sl false false)

/-- TRIGGER_FENCE_POINT (R190): CT reaches the fence's point P; rings fed from a participant port or run by a participant engine
close a block that holds bytes of covered writes, with CUT. -/
def execTriggerFencePoint (id : Nat) (s : State) : Host.Outcome State Fault Refusal :=
  match s.fence? id with
  | none => .next s
  | some f =>
    match f.point with
    | none => .next s
    | some p =>
      if f.kind ≠ .trigger || f.ended || f.pointDone || s.hubHeld then .next s
      else
        let s := s.advance (s.psOf p)
        let s : State := { s with ord := { s.ord with fence := KMap.set none s.ord.fence id (some { f with pointDone := true }) } }
        let mine := s.mv.slice.filter (fun e =>
          match e.2.ring with
          | some r => (s.participant f.pset r.port || s.participant f.pset (engineMaster e.2.engine)) && r.marks.any (fun m => decide (m.ct < p))
          | none => false)
        .next (mine.foldl (fun (s : State) e => s.closeBlock e.1 true false) s)

end Sys2Proof.Machine
end

