-- ==== Sys2Proof/Machine/Binding.lean ====
section
/-!
DEFINITION. Claims, bindings, extents and hot plug (R232-R240, R246-R268).
-/
namespace Sys2Proof.Machine

/-! ### What the virtual switches show -/

/-- VCS n exists (R236). -/
def State.vcsExists (s : State) (n : Nat) : Bool := !(s.portsOf 1 n).isEmpty

/-- VCS_STATE (R270). -/
def State.vcsState (s : State) (n : Nat) : Nat := if s.isVcsUp n then 2 else if s.vcsExists n then 1 else 0

/-- HOST_PORTS (R270). -/
def State.hostPorts (s : State) (n : Nat) : Nat :=
  let l := s.portsOf 1 n
  (l[0]?).getD 0xFF + (l[1]?).getD 0xFF * 256

/-- VPPB_BINDING (R270). -/
def State.bindingWord (s : State) (n v : Nat) : Nat :=
  match s.binding n v with
  | some (k, p, ld) => k + p * 256 + ld * 65536
  | none => 0

/-- Type-1 and type-2 devices bound in VCS n (R238). -/
def State.cacheDevices (s : State) (n : Nat) : Nat :=
  ((List.range 32).filter (fun v => (s.binding n v).isSome && KMap.get false s.fab.cacheDev (n * 64 + v))).length

/-- CAP_EXTENTS (R270). -/
def State.capExtents (s : State) (n : Nat) : Nat :=
  (s.fab.extents.filter (fun x => x.vcs == n && (x.state = .mapped || x.state = .releasing))).length

/-! ### Claims (R232-R235) -/

/-- A claim: role, agent, pool, slot. -/
structure Claim where
  role  : Nat
  agent : Nat
  pool  : Nat
  slot  : Nat
deriving DecidableEq, Repr, Inhabited

/-- Claim of port p. -/
def State.portClaim (s : State) (p : Nat) : Claim :=
  { role := s.o (K.ROLE p), agent := s.o (K.AGENT p), pool := s.o (K.POOL p), slot := s.o (K.SLOT p) }

/-- A region of pool target m is in use (R234 reason 0x03). -/
def State.regionsUsed (s : State) (m : Nat) : Bool :=
  !(s.ownRanges m).isEmpty || s.fab.extents.any (fun x => x.target == m && (x.state = .mapped || x.state = .releasing))

/-- Reason of R234 for a change of port p's claim, 0 for none; `accept` is the write of ROLE with its current value to a LOST
or MISMATCH port (R235). -/
def State.claimRefusal (s : State) (p : Nat) (new : Claim) (accept : Bool) : Nat :=
  let old := s.portClaim p
  let st := s.o (K.PORT_STATE p)
  let pool := old.role == 2 && old.pool == 1 && s.o (K.AGENT_KIND p) ≠ 3
  if (st == 3 || st == 4) && !pool then 1
  else if new.role ≠ 0 && (if new.role == 1 then 2 else 1) ≤ ((s.portsOf new.role new.agent).filter (· ≠ p)).length then 2
  else if pool && !accept && s.regionsUsed old.agent then 3
  else if new.slot ≠ 0xFF && (List.range 96).any (fun q => q ≠ p && s.o (K.SLOT q) == new.slot) then 4
  else if s.isMember p then 5
  else if new.slot ≠ old.slot && old.slot < 24 && s.slotPowered old.slot && (s.slotOwner old.slot).isSome then 6
  else if accept && st == 5 then 7
  else 0

/-- The claim of port p takes new values: its state follows, and a pool target that is given up is lost to its windows. -/
def State.setClaim (s : State) (p : Nat) (new : Claim) (accept : Bool) : State :=
  let old := s.portClaim p
  let s := (((s.setO (K.ROLE p) new.role).setO (K.AGENT p) new.agent).setO (K.POOL p) new.pool).setO (K.SLOT p) new.slot
  let moved := old.role ≠ new.role || old.agent ≠ new.agent
  let s := if moved && old.role == 2 then s.loseTarget old.agent else s
  let s := if moved && old.role == 1 && s.isVcsUp old.agent && !s.hostUp old.agent then (s.departHost old.agent).vcsDown old.agent else s
  let s := if moved then s.setO (K.PORT_STATE p) (if new.role == 0 then 0 else if accept then s.o (K.PORT_STATE p) else 1) else s
  let s := if (s.port p).up then
      let bad := s.needsCxl p (s.o (K.PROTOCOL p))
      let s := s.setDegraded p (s.o (K.DEGRADED p) % 8 + b2n bad * 8)
      s.setO (K.LINK_UP p) (b2n !bad)
    else s
  let pooled := old.pool ≠ new.pool && (s.o (K.PORT_STATE p) == 2 || s.o (K.PORT_STATE p) == 3)
  if accept || moved || pooled then s.settlePort p accept else s

/-- The own rule of ROLE, AGENT, POOL and SLOT (R234). -/
def ownClaim (p : Nat) (f : Claim → Claim) (role : Bool) (s : State) : OdAns × State :=
  let old := s.portClaim p
  let new := f old
  let st := s.o (K.PORT_STATE p)
  let accept := role && new.role == old.role && new.role ≠ 0 && (st == 5 || st == 6)
  match s.claimRefusal p new accept with
  | 0 => (odOk, s.setClaim p new accept)
  | r => (odNo 0x0501 r, s.setO (K.PORT_REFUSAL p) r)

/-- PORT_ROLE_WRITE (R232-R235). -/
def execPortRoleWrite (sess : SessRef) (p : PortIx) (v : Byte) (s : State) : Host.Outcome State Fault Refusal :=
  .next (s.odCommand sess (K.ROLE p) 1 v.toNat (ownClaim p (fun c => { c with role := v.toNat }) true))
/-- PORT_AGENT_WRITE (R234). -/
def execPortAgentWrite (sess : SessRef) (p : PortIx) (v : Byte) (s : State) : Host.Outcome State Fault Refusal :=
  .next (s.odCommand sess (K.AGENT p) 1 v.toNat (ownClaim p (fun c => { c with agent := v.toNat }) false))
/-- PORT_POOL_WRITE (R234, R240). -/
def execPortPoolWrite (sess : SessRef) (p : PortIx) (v : Byte) (s : State) : Host.Outcome State Fault Refusal :=
  .next (s.odCommand sess (K.POOL p) 1 v.toNat (ownClaim p (fun c => { c with pool := v.toNat }) false))
/-- PORT_SLOT_WRITE (R234, R257). -/
def execPortSlotWrite (sess : SessRef) (p : PortIx) (v : Byte) (s : State) : Host.Outcome State Fault Refusal :=
  .next (s.odCommand sess (K.SLOT p) 1 v.toNat (ownClaim p (fun c => { c with slot := v.toNat }) false))

/-! ### Power commands of a slot (R259-R261) -/

/-- POWER_CONTROLLER_ON (R260): the host writes Power Controller Control on. -/
def execPowerControllerOn (h : HostIx) (v : Fin 49) (s : State) : Host.Outcome State Fault Refusal :=
  .next (if s.isVcsUp h then s.powerWrite h v false else s)
/-- POWER_CONTROLLER_OFF (R261): the host writes it off. -/
def execPowerControllerOff (h : HostIx) (v : Fin 49) (s : State) : Host.Outcome State Fault Refusal :=
  .next (if s.isVcsUp h then s.powerWrite h v true else s)

/-- A write of Slot Control of vPPB v of VCS n (R258, R259): the indicators are kept and shown; a change of Power Controller Control
is a power command, and so is a write of on to a slot that stayed off (R260); else Command Completed is set. -/
def State.slotControl (s : State) (n v c : Nat) : State :=
  match s.binding n v with
  | none => s
  | some (_, p, _) =>
    let sl := s.o (K.SLOT p)
    if 24 ≤ sl then s
    else
      let b := s.vppb n v
      let ind := bits c 9 6
      let s := (s.updVppb n v (fun b => { b with ctl := c, ind := ind })).setO (K.INDICATORS p) ind
      let wanted := (b.cmdWait.getD b.pwrOff)
      let again := !bit c 10 && !s.slotPowered sl && !s.powerBusy sl
      if (bit c 10 ≠ wanted || again) && s.ownerOf p == some (n, v) then s.powerWrite n v (bit c 10) else s.vppbStatus n v [4]

/-- SLOT_CONTROL_WRITE (R258, R259). -/
def execSlotControlWrite (h : HostIx) (v : Fin 49) (value : BitVec 16) (s : State) : Host.Outcome State Fault Refusal :=
  .next (if s.isVcsUp h then s.slotControl h v value.toNat else s)

/-- PERST_RELEASE (R260): PERST_DELAY after power good, PERST_Nnn is released and the port trains. -/
def execPerstRelease (n : SlotIx) (s : State) : Host.Outcome State Fault Refusal :=
  let x := s.slot n
  match x.perstAt with
  | none => .next s
  | some t =>
    if x.state ≠ .on then .next s
    else
      let s := (s.advance t).updSlot n (fun x => { x with perst := false, perstAt := none })
      let s := match s.slotPort n with
        | some p => if s.tileHeld (tileOf p) then s else s.startTraining p
        | none => s
      .next (s.powerNext n)

/-- SLOT_OFF_AFTER_PERST (R261): PERST_TO_OFF after PERST_Nnn, the slot is commanded off. -/
def execSlotOffAfterPerst (n : SlotIx) (s : State) : Host.Outcome State Fault Refusal :=
  match (s.slot n).offDueAt with
  | none => .next s
  | some t =>
    let owner := s.slotOwner n
    let s := ((s.advance t).updSlot n (fun x => { x with offDueAt := none })).slotOff n 0
    let s := match owner with
      | some (h, v) => s.unbindReady h v [0, 1]
      | none => s
    .next (s.powerNext n)

/-- Link Disable of vPPB v of VCS n (R255): of the only binding of an SLD or end device it takes the physical link down, else only the
vPPB's view. -/
def State.linkDisable (s : State) (n v : Nat) (disable : Bool) : State :=
  match s.binding n v with
  | none => s.updVppb n v (fun b => { b with linkDis := disable })
  | some (kind, p, _) =>
    let sole := (s.boundIn p).length == 1 && kind ≠ 2
    if disable then
      let s := if sole then s.portDown p .managed
        else (s.updVppb n v (fun b => { b with linkView := false })).vppbStatus n v [8]
      let s := s.updVppb n v (fun b => { b with linkDis := true, linkView := false })
      let owned := s.ownerOf p == some (n, v)
      s.unbindReady n v (if owned then [0] else [0, 1])
    else
      let s := s.updVppb n v (fun b => { b with linkDis := false })
      if s.linkUp p then s.vppbsLinkUp p
      else if s.tileHeld (tileOf p) then s
      else (s.setO (K.LTSSM_STATE p) 0).startTraining p

/-- HOST_LINK_DISABLE (R255). -/
def execHostLinkDisable (h : HostIx) (v : Fin 49) (disable : Bool) (s : State) : Host.Outcome State Fault Refusal :=
  .next (if s.isVcsUp h then s.linkDisable h v disable else s)

/-- SURPRISE_LINK_LOSS (R262). -/
def execSurpriseLinkLoss (p : PortIx) (s : State) : Host.Outcome State Fault Refusal :=
  .next (if s.linkUp p then (s.portDown p .surprise).settleRings else if (s.port p).up then (s.linkDown p 0).settlePort p false else s)

/-- RSP_TIMEOUT (R267): a CXL.mem request has been outstanding at its target for the port's bound. -/
def execRspTimeout (id : Nat) (s : State) : Host.Outcome State Fault Refusal :=
  match s.txn? id with
  | none => .next s
  | some t =>
    match t.deadline with
    | none => .next s
    | some d =>
      if s.hubHeld then .next s
      else
        let s := (s.advance d).raise (4 * t.dest + 2) 2 0x24 false { master := t.master, access := if t.write then 2 else 1, addr := some t.addr }
        .next (s.portDown t.dest .surprise)

/-! ### Binding and unbinding (R252-R256) -/

/-- Fields of a bind command (R252). -/
structure BindCmd where
  host : Nat
  vppb : Nat
  op   : Nat
  port : Nat
  ld   : Nat
  mode : Nat
  tag  : Nat
deriving DecidableEq, Repr, Inhabited

/-- The fields of the command's 8 bytes. -/
def bindFields (c : Nat) : BindCmd :=
  { host := bits c 5 0, vppb := bits c 12 8, op := bits c 15 14, port := bits c 22 16, ld := bits c 27 24, mode := bits c 29 28,
    tag := bits c 47 32 }

/-- Reserved and unused fields are zero, OP and MODE legal (reason 0x07). -/
def bindFormOk (c : Nat) : Bool :=
  let f := bindFields c
  let rsv := bits c 7 6 == 0 && !bit c 13 && !bit c 23 && bits c 31 30 == 0 && bits c 63 48 == 0
  rsv && (if f.op == 0 then f.mode == 0 else f.op == 1 && f.mode ≠ 3 && f.port == 0 && f.ld == 0)

/-- Something is bound at port p with LD ld. -/
def State.ldBound (s : State) (p ld : Nat) : Bool :=
  s.fab.bind.any (fun e => match e.2 with | some (_, q, l) => q == p && l == ld | none => false)

/-- Reason of R253, in its order; 0 when the command is accepted. -/
def State.bindRefusal (s : State) (c : Nat) : Nat :=
  let f := bindFields c
  let at_ := s.binding f.host f.vppb
  let st := s.o (K.PORT_STATE f.port)
  let role := s.o (K.ROLE f.port)
  let kind := s.o (K.AGENT_KIND f.port)
  let slot := match at_ with | some (_, p, _) => s.o (K.SLOT p) | none => s.o (K.SLOT f.port)
  if !bindFormOk c then 7
  else if s.fab.bindOp.isSome then 8
  else if !s.vcsExists f.host then 1
  else if f.op == 0 then
    if at_.isSome then 2
    else if !((role == 2 || role == 3) && (st == 2 || st == 3)) then 3
    else if (if kind == 3 then decide (s.o (K.LD_COUNT f.port) ≤ f.ld) else f.ld ≠ 0) then 4
    else if s.ldBound f.port f.ld || (role == 2 && kind ≠ 3 && s.o (K.POOL f.port) == 1) then 5
    else if (kind == 4 || kind == 5) && 16 ≤ s.cacheDevices f.host then 6
    else if s.powerBusy slot then 10 else 0
  else if at_.isNone then 2
  else if s.powerBusy slot then 10
  else 0

/-- A bind command is accepted (R254, R255). -/
def State.bindAccept (s : State) (c : Nat) : State :=
  let f := bindFields c
  let s := ((s.setO K.BIND_STATE 1).setO K.BIND_RESULT 0).setO K.BIND_TAG f.tag
  let p := if f.op == 0 then f.port else match s.binding f.host f.vppb with | some (_, p, _) => p | none => 0
  let op : BindOp := { unbind := f.op == 1, mode := f.mode, host := f.host, vppb := f.vppb, port := p, ld := f.ld, tag := f.tag,
                       deadline := s.now + s.c K.UNBIND_TIMEOUT * Config.ms, ready := f.op == 0 || f.mode == 2 }
  let s : State := { s with fab := { s.fab with bindOp := some op } }
  if f.op == 1 && f.mode < 2 then
    let s := if s.o (K.PORT_STATE p) == 2 || s.o (K.PORT_STATE p) == 3 then s.setO (K.PORT_STATE p) 4 else s
    let s := if f.mode == 1 then s.vppbStatus f.host f.vppb [0] else s
    -- a host that has already set Link Disable is waited for no more
    if (s.vppb f.host f.vppb).linkDis && (f.mode == 0 || s.ownerOf p ≠ some (f.host, f.vppb)) then s.unbindReady f.host f.vppb [f.mode] else s
  else s

/-- BIND_CMD's own rule (R253). -/
def ownBindCmd (c : Nat) (s : State) : OdAns × State :=
  match s.bindRefusal c with
  | 0 => (odOk, s.bindAccept c)
  | r => (odNo (if r == 8 then 0x0502 else 0x0504) r, s.setO K.BIND_RESULT r)

/-- BIND_CMD_BIND (R252): a write of BIND_CMD that asks for a bind. -/
def execBindCmdBind (sess : SessRef) (cmd : BitVec 64) (s : State) : Host.Outcome State Fault Refusal :=
  .next (s.odCommand sess K.BIND_CMD 8 cmd.toNat (ownBindCmd cmd.toNat))
/-- UNBIND_WAIT_LINK_DOWN (R255): an unbind in mode 0. -/
def execUnbindWaitLinkDown (sess : SessRef) (cmd : BitVec 64) (s : State) : Host.Outcome State Fault Refusal :=
  .next (s.odCommand sess K.BIND_CMD 8 cmd.toNat (ownBindCmd cmd.toNat))
/-- UNBIND_MANAGED_HOT_REMOVE (R255): an unbind in mode 1. -/
def execUnbindManagedHotRemove (sess : SessRef) (cmd : BitVec 64) (s : State) : Host.Outcome State Fault Refusal :=
  .next (s.odCommand sess K.BIND_CMD 8 cmd.toNat (ownBindCmd cmd.toNat))
/-- UNBIND_SURPRISE_HOT_REMOVE (R255): an unbind in mode 2. -/
def execUnbindSurpriseHotRemove (sess : SessRef) (cmd : BitVec 64) (s : State) : Host.Outcome State Fault Refusal :=
  .next (s.odCommand sess K.BIND_CMD 8 cmd.toNat (ownBindCmd cmd.toNat))

/-- Kind of a binding (VPPB_BINDING): 1 SLD, 2 LD of an MLD, 3 end device. -/
def State.bindKind (s : State) (p : Nat) : Nat := if s.o (K.ROLE p) == 3 then 3 else if s.o (K.AGENT_KIND p) == 3 then 2 else 1

/-- The binding is published (R254): the host sees the card arrive. -/
def State.publishBind (s : State) (b : BindOp) : State :=
  let s : State := { s with fab := { s.fab with bind := KMap.set none s.fab.bind (b.host * 64 + b.vppb) (some (s.bindKind b.port, b.port, b.ld)) } }
  let serial := s.o (K.PORT_SERIAL b.port)
  let s := s.updPort b.port (fun q => { q with keptSerial := if serial == 0 then none else some serial })
  let sl := s.o (K.SLOT b.port)
  let cache := s.o (K.AGENT_KIND b.port) == 4 || s.o (K.AGENT_KIND b.port) == 5
  let s : State := { s with fab := { s.fab with cacheDev := KMap.set false s.fab.cacheDev (b.host * 64 + b.vppb) cache } }
  let s := s.updVppb b.host b.vppb (fun b => { b with pwrOff := decide (sl < 24) && !s.slotPowered sl, cmdWait := none })
  let s := s.vppbStatus b.host b.vppb [3, 6]
  let s := if s.o (K.PORT_STATE b.port) == 2 then s.setO (K.PORT_STATE b.port) 3 else s
  if s.linkUp b.port then (s.vppbsLinkUp b.port).sendPowerLimit b.port else s

/-- The vPPB loses its binding's link by surprise, and the binding's requests end (R255 mode 2, R265). -/
def State.cutBinding (s : State) (n v p : Nat) : State :=
  let s := (s.txnsWhere (fun t => (t.dest == p && t.vcs == n && t.vppb == v) || (t.port == p && t.dest < 96 && s.o (K.ROLE t.dest) == 1
    && s.o (K.AGENT t.dest) == n))).foldl (fun (s : State) id => s.loseTxn id) s
  let b := s.vppb n v
  let s := s.updVppb n v (fun b => { b with linkView := false })
  let s := if s.o (K.HP_SURPRISE p) == 0 then s.updVppb n v (fun b => { b with aer := setBit b.aer 5 true }) else s
  let s := if b.dpc then (s.updVppb n v (fun b => { b with dpcTrig := true })).emit .aer n [v, 0x100] else s
  s.vppbStatus n v [8]

/-- The unbinding is published (R255). -/
def State.publishUnbind (s : State) (b : BindOp) : State :=
  let s := if b.mode == 2 then s.cutBinding b.host b.vppb b.port else s
  let s := if s.o (K.ROLE b.port) == 3 then s.abandonFences (fun f => f.port == b.port && 0x1000000 ≤ f.agent && f.agent < 0x10000000) else s
  let s := s.vppbStatus b.host b.vppb [3]
  let k := b.host * 64 + b.vppb
  let s : State := { s with fab := { s.fab with bind := KMap.set none s.fab.bind k none, cacheDev := KMap.set false s.fab.cacheDev k false } }
  -- the vPPB reports no card and no slot; a power command not yet accepted is discarded (R263)
  let s := s.updVppb b.host b.vppb (fun b => { b with linkView := false, status := setBit b.status 6 false, cmdWait := none, pwrOff := true })
  let st := s.o (K.PORT_STATE b.port)
  s.setO (K.PORT_STATE b.port) (if !(s.boundIn b.port).isEmpty then (if st < 5 && s.linkUp b.port then 3 else st)
    else if s.linkUp b.port then 2 else 1)

/-- BINDING_PUBLISH (R254): a binding or unbinding takes effect in its publication cycle. -/
def execBindingPublish (s : State) : Host.Outcome State Fault Refusal :=
  match s.fab.bindOp with
  | none => .next s
  | some b =>
    if s.hubHeld || !b.ready then .next s
    else
      let s := if b.unbind then s.publishUnbind b else s.publishBind b
      .next (({ s with fab := { s.fab with bindOp := none } } : State).setO K.BIND_STATE 2)

/-- UNBIND_TIMEOUT (R256). -/
def execUnbindTimeout (s : State) : Host.Outcome State Fault Refusal :=
  match s.fab.bindOp with
  | none => .next s
  | some b =>
    if !b.unbind || b.ready then .next s
    else
      let s := s.advance b.deadline
      let s := if s.o (K.PORT_STATE b.port) == 4 then s.setO (K.PORT_STATE b.port) 3 else s
      .next ((({ s with fab := { s.fab with bindOp := none } } : State).setO K.BIND_STATE 4).setO K.BIND_RESULT 9)

/-! ### Extents (R246-R250) -/

/-- Fields of an extent command (R247). -/
structure ExtCmd where
  host   : Nat
  op     : Nat
  target : Nat
  count  : Nat
  gib    : Nat
  dpa    : Nat
  tag    : Nat
deriving DecidableEq, Repr, Inhabited

/-- The fields of the command's 16 bytes. -/
def extFields (c : Nat) : ExtCmd :=
  { host := bits c 5 0, op := bits c 7 6, target := bits c 13 8, count := bits c 25 16, gib := bits c 47 32, dpa := bits c 56 48,
    tag := bits c 79 64 }

/-- Block d of VCS n is mapped. -/
def State.blockMapped (s : State) (n d : Nat) : Bool :=
  s.fab.extents.any (fun x => x.vcs == n && x.dpa == d && (x.state = .mapped || x.state = .releasing))

/-- Reason of R247, lowest first; 0 when the command is accepted. -/
def State.extRefusal (s : State) (c : Nat) : Nat :=
  let f := extFields c
  let blocks := (List.range f.count).map (f.dpa + ·)
  if f.count == 0 || 512 < f.count + f.dpa then 1
  else if f.op == 3 || bits c 15 14 ≠ 0 || bits c 31 26 ≠ 0 || bits c 63 57 ≠ 0 || bits c 127 80 ≠ 0
      || (f.op ≠ 0 && (f.target ≠ 0 || f.gib ≠ 0)) then 2
  else if !s.vcsExists f.host || !s.isVcsUp f.host then 3
  else if f.op == 0 && (!s.poolBound f.target || s.capGiB f.target < f.gib + f.count
      || (match s.mv.evac with | some e => e.src == f.target | none => false)) then 4
  else if f.op == 0 && !((List.range f.count).all (fun i => s.gibFree f.target (f.gib + i))) then 5
  else if f.op == 0 && blocks.any (s.blockMapped f.host) then 6
  else if f.op ≠ 0 && blocks.any (fun d => !s.blockMapped f.host d) then 6
  else if s.fab.extOp.isSome then 7
  else 0

/-- Accesses in the device that were decoded to an extent (R249): they hold its GiBs. -/
def State.extentUsers (s : State) (x : Extent) : List Nat :=
  let spots := (x.target, x.tgtGib) :: x.moveTo.toList
  s.txnsWhere (fun t => spots.any (fun y => (s.targetPort y.1) == some t.dest && t.addr / gibBytes == y.2))

/-- A mapped extent is unmapped (R249): it returns to the free set when nothing decoded under it remains. -/
def State.unmap (s : State) (x : Extent) : Option Extent :=
  let l := s.extentUsers x
  if l.isEmpty then none else some { x with state := .unmapped, holders := l }

/-- Unmap every mapped extent among these blocks. -/
def State.unmapBlocks (s : State) (n dpa count : Nat) : State :=
  s.mapExtents n dpa count (fun x => if x.state = .mapped || x.state = .releasing then s.unmap x else some x)

/-- An extent command is accepted (R248, R249). Dynamic-capacity events: 0 add, 1 release, 2 forced release. -/
def State.extAccept (s : State) (c : Nat) : State :=
  let f := extFields c
  let s := ((s.setO K.EXTENT_STATE 1).setO K.EXTENT_RESULT 0).setO K.EXTENT_TAG f.tag
  let op : ExtentOp := { add := f.op == 0, vcs := f.host, dpa := f.dpa, count := f.count, tag := f.tag, asked := f.op == 1,
                         deadline := s.now + s.c K.EXTENT_TIMEOUT * Config.ms }
  if f.op == 0 then
    let new := (List.range f.count).map (fun i => ({ vcs := f.host, dpa := f.dpa + i, target := f.target, tgtGib := f.gib + i, tag := f.tag } : Extent))
    { s with fab := { s.fab with extents := s.fab.extents ++ new, extOp := some op } }
  else if f.op == 1 then
    let s := s.mapExtents f.host f.dpa f.count (fun x => some (if x.state = .mapped then { x with state := .releasing } else x))
    ({ s with fab := { s.fab with extOp := some op } } : State).emit .eventRecord f.host [1, f.dpa, f.count, f.tag]
  else ((s.unmapBlocks f.host f.dpa f.count).extEnd 2).emit .eventRecord f.host [2, f.dpa, f.count, f.tag]

/-- EXTENT_CMD's own rule (R247). -/
def ownExtentCmd (c : Nat) (s : State) : OdAns × State :=
  match s.extRefusal c with
  | 0 => (odOk, s.extAccept c)
  | r => (odNo (if r == 7 then 0x0502 else 0x0504) r, s.setO K.EXTENT_RESULT r)

/-- EXTENT_ADD (R247, R248): a write of EXTENT_CMD with OP add. -/
def execExtentAdd (sess : SessRef) (cmd : BitVec 128) (s : State) : Host.Outcome State Fault Refusal :=
  .next (s.odCommand sess K.EXTENT_CMD 16 cmd.toNat (ownExtentCmd cmd.toNat))
/-- EXTENT_RELEASE_BY_HOST (R249): OP release by the host. -/
def execExtentReleaseByHost (sess : SessRef) (cmd : BitVec 128) (s : State) : Host.Outcome State Fault Refusal :=
  .next (s.odCommand sess K.EXTENT_CMD 16 cmd.toNat (ownExtentCmd cmd.toNat))
/-- EXTENT_FORCED_RELEASE (R249): OP forced release. -/
def execExtentForcedRelease (sess : SessRef) (cmd : BitVec 128) (s : State) : Host.Outcome State Fault Refusal :=
  .next (s.odCommand sess K.EXTENT_CMD 16 cmd.toNat (ownExtentCmd cmd.toNat))

/-- EXTENT_ZERO_FILL_DONE (R248, R383): the range is zero and its tags are 0; the host is offered the extents. -/
def execExtentZeroFillDone (s : State) : Host.Outcome State Fault Refusal :=
  match s.fab.extOp with
  | none => .next s
  | some o =>
    if s.hubHeld || !o.add || o.asked then .next s
    else
      let mine := s.fab.extents.filter (fun x => x.vcs == o.vcs && o.dpa ≤ x.dpa && x.dpa < o.dpa + o.count && x.state = .filling)
      let here := fun (k : Nat) => mine.any (fun x => k / 2 ^ 33 == x.target && k % 2 ^ 33 / 262144 == x.tgtGib)
      let s : State := { s with gd := { s.gd with tag := KMap.keep (fun k => !here k) s.gd.tag, tagLost := KMap.keep (fun k => !here k) s.gd.tagLost } }
      let s := s.mapExtents o.vcs o.dpa o.count (fun x => some (if x.state = .filling then { x with state := .offered } else x))
      let s : State := { s with fab := { s.fab with extOp := some { o with asked := true, deadline := s.now + s.c K.EXTENT_TIMEOUT * Config.ms } } }
      .next (s.emit .eventRecord o.vcs [0, o.dpa, o.count, o.tag])

/-- Runs of DPA blocks (first, count) in a command of a capacity LD's mailbox: every block exists and meets a condition (R12, R15). -/
def runsOk (count : Nat) (l : List (Nat × Nat)) (f : Nat → Bool) : Bool :=
  count == l.length && l.all (fun r => decide (0 < r.2) && decide (r.1 + r.2 ≤ 512) && (List.range r.2).all (fun i => f (r.1 + i)))

/-- Block d of VCS n has been offered to its host. -/
def State.blockOffered (s : State) (n d : Nat) : Bool := s.fab.extents.any (fun x => x.vcs == n && x.dpa == d && x.state = .offered)

/-- Answer of a capacity LD's mailbox. PRESUMED: 0 Success and 2 Invalid Input, as CXL numbers them. -/
def State.ldAnswer (s : State) (n rc : Nat) : State := s.emit .ldMailbox n [rc]

/-- Every offered extent of these runs is mapped. -/
def State.mapOffered (s : State) (n : Nat) (runs : List (Nat × Nat)) : State :=
  runs.foldl (fun (s : State) r => s.mapExtents n r.1 r.2 (fun x => some (if x.state = .offered then { x with state := .mapped } else x))) s

/-- ADD_DYNAMIC_CAPACITY_RESPONSE (R248): the host accepts the extents of these runs of DPA blocks; the others return. A response that
names a block that was not offered is rejected whole (R12). -/
def execAddDynamicCapacityResponse (h : HostIx) (count : Nat) (runs : List (Nat × Nat)) (s : State) : Host.Outcome State Fault Refusal :=
  if s.hubHeld || !s.isVcsUp h then .next s
  else match s.fab.extOp with
    | none => .next (s.ldAnswer h 2)
    | some o =>
      if !o.add || !o.asked || o.vcs ≠ h.val || !runsOk count runs (s.blockOffered h) then .next (s.ldAnswer h 2)
      else .next ((((s.mapOffered h runs).dropOffered o).extEnd 2).ldAnswer h 0)

/-- A release that waits for the host is done once none of its blocks is mapped (R249). -/
def State.releaseDone (s : State) (n : Nat) : State :=
  match s.fab.extOp with
  | none => s
  | some o => if !o.add && o.vcs == n && !((List.range o.count).any (fun i => s.blockMapped o.vcs (o.dpa + i))) then s.extEnd 2 else s

/-- RELEASE_DYNAMIC_CAPACITY (R249): the host releases the extents of these runs of DPA blocks. One that names a block that is not
mapped is rejected whole (R12). -/
def execReleaseDynamicCapacity (h : HostIx) (count : Nat) (runs : List (Nat × Nat)) (s : State) : Host.Outcome State Fault Refusal :=
  if s.hubHeld || !s.isVcsUp h then .next s
  else if !runsOk count runs (s.blockMapped h) then .next (s.ldAnswer h 2)
  else .next (((runs.foldl (fun (s : State) r => s.unmapBlocks h r.1 r.2) s).releaseDone h).ldAnswer h 0)

/-- EXTENT_TIMEOUT (R248, R249): the host has not answered. -/
def execExtentTimeout (s : State) : Host.Outcome State Fault Refusal :=
  match s.fab.extOp with
  | none => .next s
  | some o =>
    if s.hubHeld || (!o.asked && s.isVcsUp o.vcs) then .next s
    else
      let s := if s.isVcsUp o.vcs then s.advance o.deadline else s
      let s := if o.add then s.dropOffered o
        else s.mapExtents o.vcs o.dpa o.count (fun x => some (if x.state = .releasing then { x with state := .mapped } else x))
      .next (s.extEnd 4)

/-- EXTENT_RETURN_FREE (R249): an unmapped extent returns once no access decoded under it remains. -/
def execExtentReturnFree (h : HostIx) (dpa : Nat) (s : State) : Host.Outcome State Fault Refusal :=
  .next (s.mapExtents h dpa 1 (fun x =>
    if x.state = .unmapped && (x.holders.filter (fun i => (s.txn? i).isSome)).isEmpty then none else some x))

end Sys2Proof.Machine
end

