-- ==== Sys2Proof/Machine/CfgSpace.lean ====
section
/-!
DEFINITION. The configuration space of the virtual switches (R79, R237-R239, R242-R244, R257-R259, R262, R265) and BAR 0 of the
management function (R458, R499).

The spec names these registers and gives no offsets. DESIGN CHOICE: headers, bus numbers, bridge windows as PCIe has them; the PCI
Express capability at 0x40, AER at 0x100, ACS at 0x148, DPC at 0x158, BAR 2 of the upstream port at 0xC0, the Cache ID Route Table at
0x800, the CXL Device DVSEC of an LD at 0x100, the CXL Port GPF DVSEC of a vPPB at 0x180, MSI-X at 0x70; the MSI-X table of function 0
at offset 0 of its BAR 0 (R461), that of function 1, for which R499 leaves no room in BAR 0, at offset 0 of its BAR 2, the pending bits
behind each.
-/
namespace Sys2Proof.Machine

/-- The registers of VCS n's upstream port. -/
def State.usp (s : State) (n : Nat) : Usp := KMap.get {} s.fab.usp n

/-- Update them. -/
def State.updUsp (s : State) (n : Nat) (f : Usp → Usp) : State := { s with fab := { s.fab with usp := KMap.upd {} s.fab.usp n f } }

/-! ### Routing of configuration requests (R237, R242) -/

/-- What a configuration request addresses. -/
inductive CfgDest where
  /-- the upstream switch port -/
  | usp
  /-- its management function (R458) -/
  | mgmt
  /-- vPPB v -/
  | bridge (v : Nat)
  /-- the LD that the device presents behind vPPB v, 32 to 48 -/
  | ld (v : Nat)
  /-- what is bound at vPPB v, 0 to 31 -/
  | below (v : Nat)
  | none
deriving DecidableEq, Repr, Inhabited

/-- The vPPB at a device and function of the internal bus (R237). -/
def vppbAt (dev fn : Nat) : Option Nat :=
  if fn == 0 && dev < 32 then some dev
  else if fn == 1 && dev < 16 then some (32 + dev)
  else if fn == 1 && dev == 16 then some 48
  else none

/-- The device presents an LD at vPPB v of VCS n (R79, R237). -/
def State.ldPresented (s : State) (n v : Nat) : Bool :=
  v == 48 || (decide (32 ≤ v) && decide (v < 48) && s.cB (K.WIN_ENABLE (v - 32)) && bit (s.c (K.HOSTS (v - 32))) n)

/-- Where a configuration request goes, as a PCIe switch routes it (R242): a Type 0 request is for the upstream port; a Type 1 request
is for its internal bus, or goes down the bridge that has its bus. -/
def State.cfgDest (s : State) (n : Nat) (type1 : Bool) (bus dev fn : Nat) : CfgDest :=
  let u := s.usp n
  if !type1 then (if dev ≠ 0 then .none else if fn == 0 then .usp else if fn == 1 then .mgmt else .none)
  else if u.secondary == 0 then .none
  else if bus == u.secondary then (match vppbAt dev fn with | some v => .bridge v | none => .none)
  else if bus < u.secondary || u.subordinate < bus then .none
  else match (List.range 49).find? (fun v => let b := s.vppb n v
      b.secondary ≠ 0 && decide (b.secondary ≤ bus) && decide (bus ≤ b.subordinate)) with
    | none => .none
    | some v =>
      if v < 32 then .below v
      else if s.ldPresented n v && bus == (s.vppb n v).secondary && dev == 0 && fn == 0 then .ld v
      else .none

/-! ### Registers as read -/

/-- Vendor and device ID (OD 0x0100.04 and .05). -/
def pciId : Nat := 0x1D7A + 0x9632 * 2 ^ 16

/-- Memory_Active of the LD of window w (R79): its state is ACTIVE, DEGRADED or RESYNC. -/
def State.memoryActive (s : State) (w : Nat) : Bool := decide (2 ≤ s.o (K.STATE w)) && decide (s.o (K.STATE w) ≤ 4)

/-- Link Capabilities of vPPB v: Port Number v (R237). -/
def linkCaps (v : Nat) : Nat := v * 2 ^ 24

/-- Link Control and Status of a vPPB: Link Disable; Data Link Layer Link Active in its view. -/
def Vppb.linkWord (b : Vppb) : Nat := b2n b.linkDis * 2 ^ 4 + b2n b.linkView * 2 ^ 29

/-- The slot that the vPPB's port names. -/
def State.vppbSlot (s : State) (n v : Nat) : Option (Nat × Nat) :=
  match s.binding n v with
  | some (_, p, _) => if s.o (K.SLOT p) < 24 then some (p, s.o (K.SLOT p)) else none
  | none => none

/-- Slot Capabilities of a vPPB (R257, R258, R431); zero where its port names no slot. -/
def State.slotCaps (s : State) (n v : Nat) : Nat :=
  match s.vppbSlot n v with
  | none => 0
  | some (p, sl) =>
    let l := slotPowerLimit (s.c (K.SLOT_PWR_LIMIT_W sl))
    b2n (s.o (K.HP_ATTN p) == 1) + b2n (s.ownerOf p == some (n, v)) * 2 + 8 + 16 + b2n (s.o (K.HP_SURPRISE p) == 1) * 32 + 64
      + l.1 * 2 ^ 7 + l.2 * 2 ^ 15 + sl * 2 ^ 19

/-- Slot Control and Status of a vPPB (R258): Power Controller Control reads the state that it commands. -/
def State.slotWord (s : State) (n v : Nat) : Nat :=
  let b := s.vppb n v
  match s.vppbSlot n v with
  | none => 0
  | some _ => setBit (b.ctl % 2 ^ 16) 10 b.pwrOff + b.status % 2 ^ 16 * 2 ^ 16

/-- A register of a vPPB. -/
def State.bridgeRead (s : State) (n v reg : Nat) : Nat :=
  let b := s.vppb n v
  match reg with
  | 0x00 => pciId
  | 0x04 => b.command
  | 0x18 => b.primary + b.secondary * 2 ^ 8 + b.subordinate * 2 ^ 16
  | 0x20 => b.memBase % 4096 * 16 + b.memLimit % 4096 * 2 ^ 20
  | 0x24 => b.prefBase % 4096 * 16 + b.prefLimit % 4096 * 2 ^ 20
  | 0x28 => b.prefBase / 4096
  | 0x2C => b.prefLimit / 4096
  | 0x4C => linkCaps v
  | 0x50 => b.linkWord
  | 0x54 => s.slotCaps n v
  | 0x58 => s.slotWord n v
  | 0x104 => b.aer
  | 0x14C => b.acs * 2 ^ 16
  | 0x15C => (b2n b.dpc + b2n b.dpcUr * 4) * 2 ^ 16
  | 0x160 => b2n b.dpcTrig
  | 0x180 => 0x23 + 2 ^ 16
  | 0x184 => 0x1E98 + 16 * 2 ^ 20
  | 0x188 => 4 + b.gpf1 * 2 ^ 16
  | 0x18C => b.gpf2
  | _ => 0

/-- A register of the upstream port. -/
def State.uspRead (s : State) (n reg : Nat) : Nat :=
  let u := s.usp n
  match reg with
  | 0x00 => pciId
  | 0x04 => u.command
  | 0x10 => u.tableBar0 % 2 ^ 32
  | 0x14 => u.tableBar0 / 2 ^ 32
  | 0x18 => u.primary + u.secondary * 2 ^ 8 + u.subordinate * 2 ^ 16
  | 0x70 => 0x11 + (2047 + u.msix0) * 2 ^ 16
  | 0x78 => 0x8000
  | 0xC0 => KMap.get 0 s.fab.bar2 n % 2 ^ 32
  | 0xC4 => KMap.get 0 s.fab.bar2 n / 2 ^ 32
  | _ => if 0x800 ≤ reg && reg < 0x840 then KMap.get 0 s.fab.cacheRoute (n * 16 + (reg - 0x800) / 4) else 0

/-- A register of the management function. -/
def State.mgmtRead (s : State) (n reg : Nat) : Nat :=
  let u := s.usp n
  match reg with
  | 0x00 => pciId
  | 0x04 => u.command1
  | 0x10 => u.bar0 % 2 ^ 32
  | 0x14 => u.bar0 / 2 ^ 32
  | 0x18 => u.tableBar1 % 2 ^ 32
  | 0x1C => u.tableBar1 / 2 ^ 32
  | 0x70 => 0x11 + (63 + u.msix1) * 2 ^ 16
  | 0x74 => 2
  | 0x78 => 0x400 + 2
  | _ => 0

/-- A register of an LD that the device presents: its memory range has the LD's size and Memory_Active (R79). The capacity LD is
always active and has no static capacity (R246). -/
def State.ldRead (s : State) (n v reg : Nat) : Nat :=
  let size := if v < 48 then s.ldSize v else 0
  match reg with
  | 0x00 => pciId
  | 0x04 => (s.vppb n v).ldCommand
  | 0x118 => size / 2 ^ 32
  | 0x11C => size % 2 ^ 32 / 2 ^ 28 * 2 ^ 28 + 1 + b2n (v == 48 || s.memoryActive (v - 32)) * 2
  | _ => 0

/-! ### Registers as written -/

/-- A write of a vPPB's register: bus numbers and bridge windows (R242), Link Disable (R255), Slot Control (R259) with Slot Status
written 1 to clear, AER, ACS (R243), DPC (R262, R265). -/
def State.bridgeWrite (s : State) (n v reg w : Nat) : State :=
  let lo := fun (x new : Nat) => x / 4096 * 4096 + new % 4096
  let hi := fun (x new : Nat) => x % 4096 + new * 4096
  match reg with
  | 0x04 => s.updVppb n v (fun b => { b with command := w % 2 ^ 16 })
  | 0x18 => s.updVppb n v (fun b => { b with primary := bits w 7 0, secondary := bits w 15 8, subordinate := bits w 23 16 })
  | 0x20 => s.updVppb n v (fun b => { b with memBase := bits w 15 4, memLimit := bits w 31 20 })
  | 0x24 => s.updVppb n v (fun b => { b with prefBase := lo b.prefBase (bits w 15 4), prefLimit := lo b.prefLimit (bits w 31 20) })
  | 0x28 => s.updVppb n v (fun b => { b with prefBase := hi b.prefBase w })
  | 0x2C => s.updVppb n v (fun b => { b with prefLimit := hi b.prefLimit w })
  | 0x50 => if bit w 4 == (s.vppb n v).linkDis then s else s.linkDisable n v (bit w 4)
  | 0x58 =>
    -- bits 0 attention button, 1 power fault, 3 presence, 4 command completed, 8 link state are written 1 to clear
    let clear := Nat.land (bits w 31 16) 0x11B
    (s.updVppb n v (fun b => { b with status := Nat.land b.status (0xFFFF - clear) })).slotControl n v (bits w 15 0)
  | 0x104 => s.updVppb n v (fun b => { b with aer := Nat.land b.aer (2 ^ 32 - 1 - w) })
  | 0x14C => s.updVppb n v (fun b => { b with acs := bits w 31 16 })
  | 0x15C => s.updVppb n v (fun b => { b with dpc := bits w 17 16 ≠ 0, dpcUr := bit w 18 })
  | 0x160 => s.updVppb n v (fun b => { b with dpcTrig := b.dpcTrig && !bit w 0 })
  | 0x188 => s.updVppb n v (fun b => { b with gpf1 := Nat.land (bits w 31 16) 0xF0F })
  | 0x18C => s.updVppb n v (fun b => { b with gpf2 := Nat.land (bits w 15 0) 0xF0F })
  | _ => s

/-- A write of the upstream port's register: bus numbers, BAR 2 (R347), the Cache ID Route Table (R238). -/
def State.uspWrite (s : State) (n reg w : Nat) : State :=
  let setBar := fun (x : Nat) => ({ s with fab := { s.fab with bar2 := KMap.set 0 s.fab.bar2 n x } } : State)
  let old := KMap.get 0 s.fab.bar2 n
  match reg with
  | 0x04 => s.updUsp n (fun u => { u with command := w % 2 ^ 16 })
  | 0x10 => s.updUsp n (fun u => { u with tableBar0 := u.tableBar0 / 2 ^ 32 * 2 ^ 32 + w / 2 ^ 16 * 2 ^ 16 })
  | 0x14 => s.updUsp n (fun u => { u with tableBar0 := u.tableBar0 % 2 ^ 32 + w * 2 ^ 32 })
  | 0x18 => s.updUsp n (fun u => { u with primary := bits w 7 0, secondary := bits w 15 8, subordinate := bits w 23 16 })
  | 0x70 => s.msixSetControl n 0 (bits w 31 16)
  | 0xC0 => setBar (old / 2 ^ 32 * 2 ^ 32 + w / 2 ^ 23 * 2 ^ 23)
  | 0xC4 => setBar (old % 2 ^ 32 + w * 2 ^ 32)
  | _ =>
    if 0x800 ≤ reg && reg < 0x840 then
      { s with fab := { s.fab with cacheRoute := KMap.set 0 s.fab.cacheRoute (n * 16 + (reg - 0x800) / 4) (if w ≤ 32 then w else 0) } }
    else s

/-- A write of the management function's register: BAR 0 is 128 KiB (R458). -/
def State.mgmtWrite (s : State) (n reg w : Nat) : State :=
  match reg with
  | 0x04 => s.updUsp n (fun u => { u with command1 := w % 2 ^ 16 })
  | 0x10 => s.updUsp n (fun u => { u with bar0 := u.bar0 / 2 ^ 32 * 2 ^ 32 + w / 2 ^ 17 * 2 ^ 17 })
  | 0x14 => s.updUsp n (fun u => { u with bar0 := u.bar0 % 2 ^ 32 + w * 2 ^ 32 })
  | 0x18 => s.updUsp n (fun u => { u with tableBar1 := u.tableBar1 / 2 ^ 32 * 2 ^ 32 + w / 2 ^ 12 * 2 ^ 12 })
  | 0x1C => s.updUsp n (fun u => { u with tableBar1 := u.tableBar1 % 2 ^ 32 + w * 2 ^ 32 })
  | 0x70 => s.msixSetControl n 1 (bits w 31 16)
  | _ => s

/-- Read a register of the device's own configuration space. -/
def State.cfgRead (s : State) (n : Nat) (d : CfgDest) (reg : Nat) : Nat :=
  match d with
  | .usp => s.uspRead n reg
  | .mgmt => s.mgmtRead n reg
  | .bridge v => s.bridgeRead n v reg
  | .ld v => s.ldRead n v reg
  | _ => 0

/-- Write the 32-bit register at `reg`. -/
def State.cfgPut (s : State) (n : Nat) (d : CfgDest) (reg w : Nat) : State :=
  match d with
  | .usp => s.uspWrite n reg w
  | .mgmt => s.mgmtWrite n reg w
  | .bridge v => s.bridgeWrite n v reg w
  | .ld v => if reg == 0x04 then s.updVppb n v (fun b => { b with ldCommand := w % 2 ^ 16 }) else s
  | _ => s

/-- The bits of a register that are written 1 to clear: a byte that is not enabled writes 0 there. -/
def cfgClears (d : CfgDest) (reg : Nat) : Nat :=
  match d, reg with
  | .bridge _, 0x58 => 0xFFFF0000
  | .bridge _, 0x104 => 0xFFFFFFFF
  | .bridge _, 0x160 => 0xFFFFFFFF
  | _, _ => 0

/-- Bits that four byte enables cover. -/
def enabledBits (mask : Nat) : Nat := ((List.range 4).map (fun i => if bit mask i then 255 * 2 ^ (8 * i) else 0)).sum

/-- A configuration write with byte enables: bytes not enabled keep what they hold. -/
def State.cfgWrite (s : State) (n : Nat) (d : CfgDest) (reg mask w : Nat) : State :=
  let m := enabledBits mask
  let old := Nat.land (s.cfgRead n d reg) (2 ^ 32 - 1 - cfgClears d reg)
  s.cfgPut n d reg (Nat.lor (Nat.land (w % 2 ^ 32) m) (Nat.land old (2 ^ 32 - 1 - m)))

/-! ### BAR 0 of the management function (R458, R499) -/

/-- The pending map of VCS n (R458): PENDING of every source routed to its host. -/
def State.pendingMap (s : State) (n : Nat) : Nat :=
  ((List.range 640).map (fun e => if (s.blk e).pending && (s.routedHosts e).contains n then 2 ^ e else 0)).sum

/-- What BAR 0 reads as, from offset 0 on, as a little-endian number (R499): the capabilities array with one capability, the primary
mailbox; Mailbox Capabilities with payload size 14 and doorbell interrupt; the pending map. PRESUMED: the array's layout, as CXL has
it. Mailbox Control holds the doorbell interrupt's enable. DESIGN CHOICE: the other mailbox registers read zero between commands, which
arrive whole. -/
def State.mgmtBytes (s : State) (n : Nat) : Nat :=
  2 ^ 16 + 2 ^ 32 + (2 + 2 ^ 16) * 2 ^ 128 + 0x8000 * 2 ^ 160 + 0x4020 * 2 ^ 192
    + (14 + 2 ^ 5 + b2n (KMap.get false s.mg.doorbellInt n) * 2 ^ 33) * 2 ^ (8 * 0x8000) + s.pendingMap n * 2 ^ (8 * 0x10000)

/-- Read `bytes` bytes of BAR 0 at an offset. -/
def State.mgmtMemRead (s : State) (n off bytes : Nat) : Nat :=
  if 0x10000 ≤ off then s.pendingMap n / 2 ^ (8 * (off - 0x10000)) % 2 ^ (8 * bytes)
  else s.mgmtBytes n / 2 ^ (8 * off) % 2 ^ (8 * bytes)

/-- Write BAR 0: the acknowledgement map (R458) and the doorbell interrupt's enable, bit 1 of Mailbox Control (R499), take writes. -/
def State.mgmtMemWrite (s : State) (n off bytes data : Nat) : State :=
  if off ≤ 0x8004 && 0x8004 < off + bytes then
    { s with mg := { s.mg with doorbellInt := KMap.set false s.mg.doorbellInt n (bit (data / 256 ^ (0x8004 - off)) 1) } }
  else if 0x10080 ≤ off then s.ackMap n (data % 2 ^ (8 * bytes) * 2 ^ (8 * (off - 0x10080)) % 2 ^ 640)
  else if 0x10080 < off + bytes then s.ackMap n (data % 2 ^ (8 * bytes) / 2 ^ (8 * (0x10080 - off)) % 2 ^ 640)
  else s

end Sys2Proof.Machine
end

