-- ==== Sys2Proof/Machine/Movers.lean ====
section
/-!
DEFINITION. Data-mover slices, their commands, doorbell pages and descriptors, and evacuation (R341-R371, R461).
-/
namespace Sys2Proof.Machine

/-! ### Slices (R341, R342) -/

/-- Number of a slice's state (R342). -/
def SliceState.num : SliceState → Nat
  | .free => 0 | .active => 1 | .freezing => 2 | .frozen => 3

/-- Descriptors of queue q that are pending, the active one included (R347). -/
def Slice.queued (x : Slice) (q : Nat) : Nat :=
  (x.pend.filter (fun d => d.queue == q)).length + (match x.active with | some a => b2n (a.desc.queue == q) | none => 0)
    + (match x.resume with | some r => b2n (r.1.queue == q) | none => 0) + (x.ending.filter (fun a => a.desc.queue == q)).length

/-- Every descriptor pending. -/
def Slice.pendingCount (x : Slice) : Nat := ((List.range 4).map x.queued).sum

/-- Entries of each of the slice's queues. -/
def Slice.entries (x : Slice) : Nat := if x.queues == 0 then 0 else 2 ^ x.qsize

/-- Slices that are not FREE. -/
def State.slicesUsed (s : State) : List (Nat × Slice) := s.mv.slice.filter (fun e => e.2.state ≠ .free)

/-- QUEUES_FREE, DESC_ENTRIES_FREE, SLICES_IN_USE (R370). -/
def State.queuesFree (s : State) : Nat := 4096 - (s.slicesUsed.map (fun e => e.2.queues)).sum
def State.descFree (s : State) : Nat := 131072 - (s.slicesUsed.map (fun e => e.2.queues * e.2.entries)).sum

/-- ENG_SLICES and ENG_RINGS (R371). -/
def State.engSlices (s : State) (e : Nat) : Nat := (s.slicesUsed.filter (fun x => x.2.engine == e)).length
def State.engRings (s : State) (e : Nat) : Nat := (s.slicesUsed.filter (fun x => x.2.engine == e && x.2.ring.isSome)).length

/-- SEL_OWNER (R370). -/
def Slice.owner (x : Slice) : Nat :=
  x.host + (x.pasid.getD 0) * 2 ^ 6 + b2n x.pasid.isSome * 2 ^ 26 + x.kind * 2 ^ 27 + x.engine * 2 ^ 28

/-! ### Slice commands (R344, R345) -/

/-- A word in which only the named fields are not zero. -/
def onlyFields (v : Nat) (fs : List (Nat × Nat)) : Bool := (fs.map (fun f => bits v f.1 f.2 * 2 ^ f.2)).sum == v

/-- Fields of a command of OP `op` (R344); PASID only when PASID_VALID is 1. -/
def sliceFields (v : Nat) : List (Nat × Nat) :=
  let base := [(7, 0), (18, 8), (95, 80)]
  let pasid := if bit v 52 then [(51, 32)] else []
  let create := base ++ pasid ++ [(25, 20), (26, 26), (31, 28), (52, 52), (58, 56), (71, 64), (74, 72), (79, 76)]
  let rec_ := [(191, 128), (197, 192), (255, 224)]
  match bits v 7 0 with
  | 1 => if bit v 26 then create ++ [(191, 128), (211, 192), (351, 288), (356, 352), (366, 360), (383, 368), (423, 384), (447, 432)] else create
  | 4 => base ++ rec_
  | 5 => base ++ pasid ++ [(25, 20), (31, 28), (52, 52), (58, 56), (71, 64)] ++ rec_
  | _ => base

/-- A record's fields (R361): queues, entries' logarithm, PENDING, ACTIVE_VALID. -/
def recQueues (r : List Byte) : Nat := bits (leAt r 10 1) 2 0
def recQsize (r : List Byte) : Nat := bits (leAt r 10 1) 7 4
def recPending (r : List Byte) : Nat := leAt r 16 4
def recActive (r : List Byte) : Bool := bit (leAt r 128 1) 0
/-- Region k of a record. -/
def recRegion (r : List Byte) (k : Nat) : Nat := leAt r (256 + 16 * k) 16
/-- Descriptor k behind a record. -/
def recDesc (r : List Byte) (k : Nat) : Nat := leAt r (512 + 64 * k) 64

/-- RCRC of a record (R361). -/
def recordCrc (r : List Byte) : Nat :=
  Nat.xor (crc32c 0xFFFFFFFF (bytesAt r 0 188 ++ [0, 0, 0, 0] ++ bytesAt r 192 320)) 0xFFFFFFFF

/-- Fields of a descriptor (R349) that its opcode does not use are zero, with every reserved one. -/
def descClean (d : Nat) : Bool :=
  let base := [(10, 0), (63, 32), (255, 192), (303, 288)]
  match bits d 7 0 with
  | 1 => onlyFields d (base ++ [(127, 64), (191, 128)])
  | 2 => onlyFields d (base ++ [(191, 128), (447, 384)])
  | 3 => onlyFields d (base ++ [(191, 128), (271, 256), (383, 320)])
  | 4 => onlyFields d (base ++ [(127, 64), (271, 256), (383, 320)])
  | _ => onlyFields d (base ++ [(127, 64), (479, 448)])

/-- Reason of R351 for a descriptor, lowest first, without the queue; 0 for none. -/
def descReason (d : Nat) : Nat :=
  let op := bits d 7 0
  let len := bits d 63 32
  let list := op == 3 || op == 4
  if op == 0 || 5 < op then 1
  else if !descClean d then 2
  else if len == 0 || 0xFFFFFFC0 < len then 3
  else if list && (bits d 271 256 == 0 || 256 < bits d 271 256) then 4
  else if bits d 255 192 % 32 ≠ 0 || (list && bits d 383 320 % 16 ≠ 0) then 6
  else if op == 1 && rangesMeet (bits d 127 64, len) (bits d 191 128, len) then 7
  else 0

/-- Reserved fields of a state record that must be zero (R16, R361). -/
def recordReserved : List (Nat × Nat) :=
  [(31, 27), (39, 38), (63, 61), (71, 67), (83, 83), (127, 92), (191, 160), (511, 256), (639, 526), (767, 654), (895, 782),
   (1023, 910), (1055, 1027), (1151, 1128), (1503, 1184), (2047, 1536)]

/-- Descriptors that a record gives queue q beside the active one (R361). -/
def recCount (r : List Byte) (q : Nat) : Nat := bits (leAt r (64 + 16 * q) 2) 12 0

/-- A record's counts fit the queues behind them and PENDING (R15, R361): no queue holds more than its entries, the active descriptor's
queue exists, and its RESUME lies within its stream. -/
def recCountsOk (r : List Byte) : Bool :=
  let full := 2 ^ recQsize r
  let act := fun (q : Nat) => b2n (recActive r && bits (leAt r 128 1) 2 1 == q)
  (List.range 4).all (fun q => if q < recQueues r then decide (recCount r q + act q ≤ full) else leAt r (64 + 16 * q) 2 == 0 && act q == 0)
    && ((List.range 4).map (recCount r)).sum + b2n (recActive r) == recPending r
    && (!recActive r || decide (leAt r 132 4 < bits (recDesc r 0) 63 32))

/-- Reason 0x09 of R345 for a record and its descriptors. -/
def recordBad (r : List Byte) (bytes : Nat) : Bool :=
  recordReserved.any (fun f => bits (leAt r 0 512) f.1 f.2 ≠ 0)
    || leAt r 0 2 ≠ 1 || leAt r 188 4 ≠ recordCrc r || recQueues r == 0 || 4 < recQueues r || recQsize r < 4 || 12 < recQsize r
    || decide (recQueues r * 2 ^ recQsize r < recPending r) || decide (bytes < 512 + 64 * recPending r)
    || (List.range 16).any (fun k => !regionOk false (recRegion r k))
    || !recCountsOk r
    || (List.range (recPending r)).any (fun k => descReason (recDesc r k) ≠ 0)

/-- The pool cannot supply a slice's resources (R341). -/
def State.poolShort (s : State) (e queues qsize : Nat) (ring : Bool) : Bool :=
  decide (256 ≤ s.engSlices e) || (ring && decide (64 ≤ s.engRings e)) || decide (s.queuesFree < queues)
    || decide (s.descFree < queues * 2 ^ qsize && queues ≠ 0)

/-- The range of HDM decoder ix of VCS n. -/
def Hdm.range (d : Hdm) : Nat × Nat := (d.set.base, if d.committed then d.set.size else 0)

/-- Ring settings that reason 0x06 refuses. -/
def State.ringBad (s : State) (v : Nat) : Bool :=
  let h := bits v 25 20
  let feed := (bits v 351 288, 2 ^ bits v 356 352)
  bits v 191 128 % 4096 ≠ 0 || feed.1 % feed.2 ≠ 0 || rangesMeet feed (s.fenceRange h)
    || (s.ringsOf h).any (fun e => rangesMeet feed e.2.feedRange)
    || (List.range 32).any (fun ix => rangesMeet feed (s.hdm h ix).range)
    || !((s.boundIn (s.lead (bits v 366 360))).any (fun e => e.1 == h) && s.o (K.ROLE (s.lead (bits v 366 360))) == 3)

/-- Reason of R345, lowest first; 0 when the command is accepted. `r` is what RESTORE reads at REC_TARGET. -/
def State.sliceRefusal (s : State) (v : Nat) (r : List Byte) : Nat :=
  let op := bits v 7 0
  let x := s.slice (bits v 18 8)
  let ring := bit v 26
  let creates := op == 1 || op == 5
  let region := op == 4 || op == 5
  let m := bits v 197 192
  let bytes := bits v 255 224
  if op == 0 || 6 < op || !onlyFields v (sliceFields v) then 1
  else if creates ≠ (x.state = .free) then 2
  else if creates && !s.vcsExists (bits v 25 20) then 3
  else if (creates && bits v 71 64 == 0)
      || (op == 1 && (if ring then bits v 79 72 ≠ 0 || bits v 211 192 < 2 || bits v 356 352 < 12 || 30 < bits v 356 352
                      else bits v 74 72 == 0 || 4 < bits v 74 72 || bits v 79 76 < 4 || 12 < bits v 79 76))
      || (region && (bytes < 512 || 0xFFFFF000 < bytes || bits v 191 128 % 4096 ≠ 0)) then 4
  else if op == 1 && s.poolShort (bits v 31 28) (bits v 74 72) (bits v 79 76) ring then 5
  else if op == 5 && s.poolShort (bits v 31 28) (recQueues r) (recQsize r) false then 5
  else if op == 1 && ring && (s.ringBad v || 95 < bits v 366 360) then 6
  else if (op == 3 && (x.state ≠ .active || x.ring.isSome)) || ((op == 4 || op == 6) && x.state ≠ .frozen) then 7
  else if region && (!s.poolBound m || decide (s.capGiB m * gibBytes < bits v 191 128 + bytes)
      || (s.ownRanges m).any (rangesMeet (bits v 191 128, bytes)) || (op == 4 && decide (bytes < 512 + 64 * x.pendingCount))) then 8
  else if op == 5 && recordBad r bytes then 9
  else if s.mv.save.isSome then 10
  else 0

/-- PASID of a command. -/
def cmdPasid (v : Nat) : Option Nat := if bit v 52 then some (bits v 51 32) else none

/-- CREATE (R341, R342): an ACTIVE slice with an empty region set (R392). -/
def createSlice (v : Nat) : Slice :=
  { state := .active, host := bits v 25 20, kind := bits v 26 26, engine := bits v 31 28, pasid := cmdPasid v, prio := bits v 58 56,
    weight := bits v 71 64, queues := bits v 74 72, qsize := bits v 79 76,
    ring := if bit v 26 then some { base := bits v 191 128, blocks := bits v 211 192, feed := bits v 351 288, feedLog := bits v 356 352,
                                    port := bits v 366 360, rid := bits v 383 368, mask := bits v 423 384, flushUs := bits v 447 432 }
            else none }

/-- Take `n` of the descriptors for each queue in turn (R361). -/
def dealQueues (first : Nat) (ds : List Nat) : List (Nat × Nat) → List Desc
  | [] => []
  | (q, n) :: l =>
    ((ds.take n).zipIdx first).map (fun e => { id := e.2, raw := e.1, queue := q }) ++ dealQueues (first + n) (ds.drop n) l

/-- The regions of a record as a slice's set. -/
def recRegions (r : List Byte) : KMap Nat :=
  (List.range 16).foldl (fun (m : KMap Nat) k => KMap.set 0 m k (recRegion r k)) []

/-- RESTORE (R362): a FROZEN slice from the command and the record; its regions are loaded into both sets (R392). -/
def restoreSlice (v : Nat) (r : List Byte) (first : Nat) : Slice :=
  let ds := (List.range (recPending r)).map (recDesc r)
  let act := recActive r && !ds.isEmpty
  let rest := if act then ds.drop 1 else ds
  let counts := (List.range 4).map (fun q => (q, recCount r q))
  { state := .frozen, host := bits v 25 20, engine := bits v 31 28, pasid := cmdPasid v, prio := bits v 58 56, weight := bits v 71 64,
    queues := recQueues r, qsize := recQsize r, pend := dealQueues (first + 1) rest counts,
    resume := if act then some ({ id := first, raw := ds.headD 0, queue := bits (leAt r 128 1) 2 1 }, leAt r 132 4, leAt r 136 4, leAt r 140 1, leAt r 144 4) else none,
    lastOk := (List.range 4).foldl (fun (m : KMap Bool) q => KMap.set true m q (bit (leAt r (64 + 16 * q) 2) 13)) [],
    staged := recRegions r, regions := recRegions r, ctFrozen := leAt r 24 8 }

/-- List entry in which an offset lies, and the offset within it. -/
def entryAt : List (Nat × Nat) → Nat → Nat × Nat
  | [], o => (0, o)
  | (_, n) :: l, o => if o < n || l.isEmpty then (0, o) else let e := entryAt l (o - n); (e.1 + 1, e.2)

/-- The active descriptor as SAVE sees it: descriptor, RESUME, CRC_PART, ENTRY, ENTRY_OFF. -/
def Slice.progress (x : Slice) : Option (Desc × Nat × Nat × Nat × Nat) :=
  match x.active, x.resume with
  | some a, _ =>
    let op := bits a.desc.raw 7 0
    let e := if op == 3 then entryAt a.src a.issued else if op == 4 then entryAt a.dst a.issued else (0, 0)
    some (a.desc, a.issued, a.crc, e.1, e.2)
  | none, some r => some r
  | none, none => none

/-- The state record of a FROZEN slice (R361). -/
def Slice.record (x : Slice) (sl : Nat) : List Byte :=
  let low := 1 + sl * 2 ^ 16 + x.host * 2 ^ 32 + (x.pasid.getD 0) * 2 ^ 40 + b2n x.pasid.isSome * 2 ^ 60 + x.prio * 2 ^ 64
    + x.weight * 2 ^ 72 + x.queues * 2 ^ 80 + x.qsize * 2 ^ 84 + x.engine * 2 ^ 88 + x.pendingCount * 2 ^ 128 + x.ctFrozen * 2 ^ 192
  let q := (List.range 4).foldl (fun n q => if q < x.queues then
    n + ((x.pend.filter (fun d => d.queue == q)).length + b2n (KMap.get true x.lastOk q) * 2 ^ 13) * 2 ^ (512 + 128 * q) else n) 0
  let p := match x.progress with
    | some (d, res, crc, e, eo) => 1 + d.queue * 2 + res * 2 ^ 32 + crc * 2 ^ 64 + e * 2 ^ 96 + eo * 2 ^ 128
    | none => 0
  let regs := (List.range 16).foldl (fun n k => n + KMap.get 0 x.regions k * 2 ^ (2048 + 128 * k)) 0
  let r := toBytes 512 (low + q + p * 2 ^ 1024 + regs)
  bytesAt r 0 188 ++ toBytes 4 (recordCrc r) ++ bytesAt r 192 320

/-- The descriptors that follow the record, in their order (R361). -/
def Slice.savedDescs (x : Slice) : List Nat :=
  (match x.progress with | some p => [p.1.raw] | none => [])
    ++ (List.range 4).flatMap (fun q => (x.pend.filter (fun d => d.queue == q)).map (·.raw))

/-- SAVE (R361): the engine writes the record and the descriptors to the target; the command is done with the last
acknowledgement. -/
def State.saveSlice (s : State) (sl m off : Nat) : State :=
  let x := s.slice sl
  let img := x.record sl ++ x.savedDescs.flatMap (toBytes 64)
  let cuts := cutAt 256 0 img.length
  let s : State := { s with mv := { s.mv with save := some { waits := (List.range cuts.length).map (s.ord.nextTxn + ·) } } }
  cuts.foldl (fun (s : State) (c : Nat × Nat) =>
    let t : Txn := { purpose := .save, master := engineMaster x.engine, port := 0xFF, dest := 0xFF, write := true, addr := off + c.1,
                     bytes := c.2, data := leAt img c.1 c.2 }
    (s.hubIssue (.pool m (off + c.1)) t (engineMaster x.engine) x.host).2) (s.setO K.SLICE_STATE 1)

/-- An accepted slice command. -/
def State.sliceAccept (s : State) (v : Nat) (r : List Byte) : State :=
  let sl := bits v 18 8
  let s := ((s.setO K.SLICE_TAG (bits v 95 80)).setO K.SLICE_RESULT 0).setO K.SLICE_STATE 2
  match bits v 7 0 with
  | 1 => s.updSlice sl (fun _ => createSlice v)
  | 2 =>
    let s := s.closeBlock sl false true
    (s.abandonFences (fun f => f.agent == agentSlice sl)).updSlice sl (fun _ => {})
  | 3 => (s.updSlice sl (fun x => { x with state := .freezing })).abandonFences (fun f => f.agent == agentSlice sl)
  | 4 => s.saveSlice sl (bits v 197 192) (bits v 191 128)
  | 5 =>
    let s := s.updSlice sl (fun _ => restoreSlice v r s.mv.nextDesc)
    { s with mv := { s.mv with nextDesc := s.mv.nextDesc + 1 + recPending r } }
  | _ => s.updSlice sl (fun x => { x with state := .active })

/-- SLICE_CMD's own rule (R345). A refusal changes SLICE_RESULT alone (R11, R491). -/
def ownSliceCmd (v : Nat) (r : List Byte) (s : State) : OdAns × State :=
  match s.sliceRefusal v r with
  | 0 => (odOk, s.sliceAccept v r)
  | k => (odNo (if k == 10 then 0x0502 else 0x0504) k, s.setO K.SLICE_RESULT k)

/-- SLICE_CREATE (R341, R345): a write of SLICE_CMD with OP CREATE. -/
def execSliceCreate (sess : SessRef) (cmd : BitVec 512) (s : State) : Host.Outcome State Fault Refusal :=
  .next (s.odCommand sess K.SLICE_CMD 64 cmd.toNat (ownSliceCmd cmd.toNat []))
/-- SLICE_DESTROY (R342, R345, R368): OP DESTROY. -/
def execSliceDestroy (sess : SessRef) (cmd : BitVec 512) (s : State) : Host.Outcome State Fault Refusal :=
  .next (s.odCommand sess K.SLICE_CMD 64 cmd.toNat (ownSliceCmd cmd.toNat []))
/-- SLICE_FREEZE (R360): OP FREEZE. -/
def execSliceFreeze (sess : SessRef) (cmd : BitVec 512) (s : State) : Host.Outcome State Fault Refusal :=
  .next (s.odCommand sess K.SLICE_CMD 64 cmd.toNat (ownSliceCmd cmd.toNat []))
/-- SLICE_SAVE (R361): OP SAVE. -/
def execSliceSave (sess : SessRef) (cmd : BitVec 512) (s : State) : Host.Outcome State Fault Refusal :=
  .next (s.odCommand sess K.SLICE_CMD 64 cmd.toNat (ownSliceCmd cmd.toNat []))
/-- SLICE_RESTORE (R362): OP RESTORE; `record` is what stands at REC_OFFSET on REC_TARGET. -/
def execSliceRestore (sess : SessRef) (cmd : BitVec 512) (record : List Byte) (s : State) : Host.Outcome State Fault Refusal :=
  .next (s.odCommand sess K.SLICE_CMD 64 cmd.toNat (ownSliceCmd cmd.toNat record))
/-- SLICE_THAW (R342, R362): OP THAW. -/
def execSliceThaw (sess : SessRef) (cmd : BitVec 512) (s : State) : Host.Outcome State Fault Refusal :=
  .next (s.odCommand sess K.SLICE_CMD 64 cmd.toNat (ownSliceCmd cmd.toNat []))

/-! ### Descriptors' progress -/

/-- SLICE_FROZEN (R360): every chunk issued has been written, every write has ended, every record is written. -/
def execSliceFrozen (sl : SliceIx) (s : State) : Host.Outcome State Fault Refusal :=
  let s' := s.settleSlice sl
  let x := s'.slice sl
  let quiet := match x.active with
    | none => true
    | some a => a.writes.isEmpty && a.reads.isEmpty && a.wrote == a.issued
  if x.state ≠ .freezing || !quiet || !x.ending.isEmpty || s.hubHeld then .next s
  else .next (s'.updSlice sl (fun x => { x with state := .frozen, ctFrozen := s.ct }))

/-- Write a descriptor's completion record (R359): STATUS by its reason. -/
def State.completion (s : State) (sl raw reason done crc faultAddr : Nat) : State :=
  let status := if reason == 0 then 0 else if reason < 9 then 1 else if reason == 9 then 3 else 2
  let rec_ := packLE [(bits raw 303 288, 2), (status, 1), (reason, 1), (done, 4), (if bits raw 7 0 == 5 then crc else 0, 4), (0, 4),
                      (if status == 2 then faultAddr else 0, 8), (s.ct, 8)]
  s.sliceWrite sl (bits raw 255 192) 32 rec_

/-- A slice's completion interrupt (R461): the vector of its number, of function 0. -/
def State.sliceIrq (s : State) (sl : Nat) : State := s.msixRaise (s.slice sl).host 0 sl

/-- A descriptor finishes (R355, R358): its record, then its interrupt; fences that wait for it wait no more. -/
def State.finishDesc (s : State) (sl : Nat) (a : ActiveDesc) : State :=
  let x := s.slice sl
  let ok := a.reason == 0
  let faulted := decide (0x10 ≤ a.reason)
  let s := s.updSlice sl (fun x => { x with ending := x.ending.filter (fun b => b.desc.id ≠ a.desc.id), lastOk := KMap.set true x.lastOk a.desc.queue ok,
                                            finished := (x.finished + 1) % 2 ^ 32, faults := (x.faults + b2n faulted) % 2 ^ 32 })
  let s := if faulted then s.incO (K.ENG_FAULTS x.engine) else s
  let s := if faulted && 0x12 ≤ a.reason then
      s.raise (552 + x.engine) 1 1 false { master := engineMaster x.engine, access := if a.reason == 0x14 then 2 else 1, addr := some a.faultAddr, detail := sl * 2 ^ 40 }
    else s
  let s := s.completion sl a.desc.raw a.reason (if ok then a.total else if faulted then a.bad else 0) a.crc a.faultAddr
  let s := s.mapFences (fun f => { f with descs := f.descs.filter (· ≠ a.desc.id) })
  if bit a.desc.raw 9 then s.sliceIrq sl else s

/-- The first descriptor that may write its record: its writes have ended, and no earlier one of its queue is unfinished. -/
def firstDone : List Nat → List ActiveDesc → Option ActiveDesc
  | _, [] => none
  | qs, a :: l => if a.writes.isEmpty && !(qs.contains a.desc.queue) then some a else firstDone (a.desc.queue :: qs) l

/-- DESCRIPTOR_FINISH (R355). -/
def execDescriptorFinish (sl : SliceIx) (s : State) : Host.Outcome State Fault Refusal :=
  let s' := s.settleSlice sl
  match firstDone [] (s'.slice sl).ending with
  | none => .next s
  | some a => if s.hubHeld then .next s else .next (s'.finishDesc sl a)

/-! ### Start (R350, R352, R353) -/

/-- Entries of a list (R350): each as address and bytes, none where one fails. -/
def listEntries (l : List Byte) (n len : Nat) : Option (List (Nat × Nat)) :=
  let es := (List.range n).map (fun k => leAt l (16 * k) 16)
  let ok := es.all (fun e => decide (1 ≤ bits e 95 64) && decide (bits e 95 64 ≤ 0xFFFFFFC0) && bits e 127 96 == 0)
  let ps := es.map (fun e => (bits e 63 0, bits e 95 64))
  if ok && (ps.map (·.2)).sum == len then some ps else none

/-- Source and destination pieces of a descriptor; none where its list fails (R350). -/
def descPieces (d : Nat) (list : List Byte) : Option (List (Nat × Nat) × List (Nat × Nat)) :=
  let len := bits d 63 32
  let src := (bits d 127 64, len)
  let dst := (bits d 191 128, len)
  match bits d 7 0 with
  | 1 => some ([src], [dst])
  | 2 => some ([], [dst])
  | 3 => (listEntries list (bits d 271 256) len).map (fun ps => (ps, [dst]))
  | 4 => (listEntries list (bits d 271 256) len).map (fun ps => ([src], ps))
  | _ => some ([src], [])

/-- First refused range of a list of ranges. -/
def State.rangesFault (s : State) (sl : Nat) (write : Bool) (ps : List (Nat × Nat)) : Option (GFault × Nat × Bool) :=
  ps.findSome? (fun p => (s.sliceCheck sl { read := !write, write := write } p.1 p.2).map (fun g => (g, p.1, write)))

/-- The check of R352 step 2 over every range. -/
def State.descFault (s : State) (sl : Nat) (src dst : List (Nat × Nat)) : Option (GFault × Nat × Bool) :=
  match s.rangesFault sl false src with
  | some f => some f
  | none => s.rangesFault sl true dst

/-- A descriptor that ends before any byte moves. -/
def stillborn (d : Desc) (reason addr : Nat) : ActiveDesc := { desc := d, reason := reason, faultAddr := addr, total := bits d.raw 63 32 }

/-- A descriptor starts (R352): its list is read and checked, then every range. `at_` and `crc` are where a restored one resumes.
DEDUCED: the list itself must be readable for the slice. -/
def State.startDesc (s : State) (sl : Nat) (d : Desc) (list : List Byte) (at_ crc : Nat) : ActiveDesc × State :=
  let op := bits d.raw 7 0
  let e := (s.slice sl).engine
  let s := (s.ecc (552 + e) 0 2 3 2).2
  let s := match s.injFire (552 + e) 1 with
    | (0, s) => s
    | (_, s) => s.raise (552 + e) 2 4 false { master := 0x60 + e, detail := sl }
  let lf := if op == 3 || op == 4 then s.sliceCheck sl { read := true } (bits d.raw 383 320) (16 * bits d.raw 271 256) else none
  match lf with
  | some g => (stillborn d 0x10 g.addr, s.sliceFault sl g (bits d.raw 383 320) false)
  | none =>
    match descPieces d.raw list with
    | none => (stillborn d 5 0, s)
    | some (src, dst) =>
      match s.descFault sl src dst with
      | some (g, a, w) => ({ stillborn d 0x10 g.addr with bad := 0 }, s.sliceFault sl g a w)
      | none =>
        ({ desc := d, src := src, dst := dst, total := bits d.raw 63 32, issued := at_, wrote := at_,
           crc := if at_ == 0 then bits d.raw 479 448 else crc, epoch := s.gd.epoch }, s)

/-- The queue whose descriptor is next: round robin (R355). -/
def Slice.nextQueue (x : Slice) : Option Nat :=
  (fromPtr 4 x.turn).find? (fun q => x.pend.any (fun d => d.queue == q))

/-- DESCRIPTOR_START (R352, R353, R355): `list` is what stands at LIST_ADDR. A descriptor with FENCE_BEFORE waits for every earlier
write; one with CHAIN for the result of its predecessor. -/
def execDescriptorStart (sl : SliceIx) (list : List Byte) (s : State) : Host.Outcome State Fault Refusal :=
  let s' := s.settleSlice sl
  let x := s'.slice sl
  if x.state ≠ .active || x.active.isSome || s.hubHeld then .next s
  else match x.resume with
    | some (d, at_, crc, _, _) =>
      let r := s'.startDesc sl d list at_ crc
      .next ((r.2.updSlice sl (fun x => { x with resume := none, active := some r.1 })).settleSlice sl)
    | none =>
      match x.nextQueue with
      | none => .next s
      | some q =>
        match x.pend.find? (fun d => d.queue == q) with
        | none => .next s
        | some d =>
          let waits := (bit d.raw 8 && x.ending.any (fun a => !a.writes.isEmpty))
            || (bit d.raw 10 && x.ending.any (fun a => a.desc.queue == q))
          if waits then .next s
          else
            let r := if bit d.raw 10 && !KMap.get true x.lastOk q then (stillborn d 9 0, s') else s'.startDesc sl d list 0 0
            .next ((r.2.updSlice sl (fun x => { x with pend := x.pend.filter (fun e => e.id ≠ d.id), turn := (q + 1) % 4,
                                                       active := some r.1 })).settleSlice sl)

/-! ### Chunks (R354, R356, R357) -/

/-- A slice has a chunk to issue. -/
def Slice.hasWork (x : Slice) : Bool :=
  x.state = .active && (match x.active with | some a => a.reason == 0 && decide (a.issued < a.total) | none => false)

/-- Bytes of a slice's next chunk. -/
def Slice.nextLen (x : Slice) : Nat := match x.active with | some a => a.chunkLen a.issued | none => 0

/-- The slice of engine e whose chunk is next (R356): the highest PRIORITY, then deficit round robin by bytes and WEIGHT.
DESIGN CHOICE: a turn's quantum is 4,096 bytes times WEIGHT. The choice and the deficit it then has. -/
def State.pickSlice (s : State) (e : Nat) : Option (Nat × Nat) :=
  let work := s.mv.slice.filter (fun x => x.2.engine == e && x.2.hasWork)
  let top := work.foldl (fun m x => max m x.2.prio) 0
  let cands := work.filter (fun x => x.2.prio == top)
  let cur := KMap.get 0 s.mv.rr e
  match cands.find? (fun x => x.1 == cur && decide (x.2.nextLen ≤ x.2.deficit)) with
  | some x => some (x.1, x.2.deficit)
  | none =>
    match (cands.filter (fun x => cur < x.1) ++ cands.filter (fun x => x.1 ≤ cur)).head? with
    | some x => some (x.1, x.2.deficit + 4096 * x.2.weight)
    | none => none

/-- Bytes of a fill from stream offset o (R349): PATTERN repeated from DST. -/
def fillBytes (pattern o len : Nat) : List Nat :=
  (List.range len).map (fun i => pattern / 2 ^ (8 * ((o + i) % 8)) % 256)

/-- Issue the chunk of slice sl at its offset (R354): its reads, or for FILL its writes. -/
def State.issueChunk (s : State) (sl : Nat) (a : ActiveDesc) : State :=
  let o := a.issued
  let len := a.chunkLen o
  let s := s.updActive sl (fun a => { a with issued := o + len })
  if a.src.isEmpty then
    (s.updActive sl (fun a => { a with wrote := o + len })).chunkWrites sl a o (fillBytes (bits a.desc.raw 447 384) o len)
  else
    let base := pieceAddr a.src o
    (s.moverCut (s.slice sl) base len).foldl (fun (s : State) (c : Nat × Nat) =>
      s.moverIssue sl a.desc.id o (o + (c.1 - base)) c.1 c.2 false 0) s

/-- The check of a chunk issued under another epoch than the descriptor's (R357). -/
def State.chunkFault (s : State) (sl : Nat) (a : ActiveDesc) : Option (GFault × Nat × Bool) :=
  if a.epoch == s.gd.epoch then none
  else
    let o := a.issued
    let len := a.chunkLen o
    s.descFault sl (if a.src.isEmpty then [] else [(pieceAddr a.src o, len)]) (if a.dst.isEmpty then [] else [(pieceAddr a.dst o, len)])

/-- Reads that the next chunk of a slice needs. -/
def State.readsNeeded (s : State) (x : Slice) (a : ActiveDesc) : Nat :=
  if a.src.isEmpty then 0 else (s.moverCut x (pieceAddr a.src a.issued) (a.chunkLen a.issued)).length

/-- The engine of a chunk boundary notes whom it serves: leaving a slice that still has work for a higher priority is a
pre-emption (R356, R371). -/
def State.noteRun (s : State) (e sl : Nat) : State :=
  let pre := match KMap.get none s.mv.running e with
    | some r => r ≠ sl && (s.slice r).hasWork && decide ((s.slice r).prio < (s.slice sl).prio)
    | none => false
  let s := if pre then s.incO (K.ENG_PREEMPTS e) else s
  { s with mv := { s.mv with running := KMap.set none s.mv.running e (some sl) } }

/-- CHUNK_ISSUE (R354, R356, R357): the engine chooses a slice and issues its next chunk, once its reads have room among the engine's
256. -/
def execChunkIssue (e : EngineIx) (s : State) : Host.Outcome State Fault Refusal :=
  if s.hubHeld || (s.blk (552 + e)).contain then .next s
  else match s.pickSlice e with
    | none => .next s
    | some (sl, deficit) =>
      let x := s.slice sl
      match x.active with
      | none => .next s
      | some a =>
        if 256 < KMap.get 0 s.mv.reads e + s.readsNeeded x a then .next s
        else
          let s := s.noteRun e sl
          match s.chunkFault sl a with
          | some (g, addr, w) =>
            let s := s.sliceFault sl g addr w
            .next ((s.updActive sl (fun a => a.fault 0x11 a.issued a.issued g.addr)).settleSlice sl)
          | none =>
            let s := s.updSlice sl (fun x => { x with deficit := if a.issued + x.nextLen == a.total && x.pend.isEmpty then 0 else deficit - x.nextLen })
            let s : State := { s with mv := { s.mv with rr := KMap.set 0 s.mv.rr e sl } }
            .next ((s.issueChunk sl a).settleSlice sl)

/-- CHUNK_READ_RETURN (R354, R358): the answer to request `id` of a slice, a read's data or a write's completion. -/
def execChunkReadReturn (id : Nat) (status : MemStatus) (data : List Byte) (s : State) : Host.Outcome State Fault Refusal :=
  match s.txn? id with
  | none => .next s
  | some t =>
    if t.purpose ≠ .mover || s.hubHeld then .next s
    else .next (s.hubAnswer id status (leNat data))

/-! ### Doorbell pages (R347, R348, R351) -/

/-- A descriptor reaches queue q (R351). -/
def State.submit (s : State) (sl q raw : Nat) : State :=
  let x := s.slice sl
  let reason := if descReason raw ≠ 0 then descReason raw else if x.entries ≤ x.queued q then 8 else 0
  if reason == 0 then
    let d : Desc := { id := s.mv.nextDesc, raw := raw, queue := q }
    let s : State := { s with mv := { s.mv with nextDesc := s.mv.nextDesc + 1 } }
    s.updSlice sl (fun x => { x with pend := x.pend ++ [d] })
  else if bits raw 255 192 % 32 == 0 then s.completion sl raw reason 0 0 0
  else s.updSlice sl (fun x => { x with discards := (x.discards + 1) % 2 ^ 32 })

/-- A write of the FENCE register of a slice (R143): a FREEZING or FROZEN slice abandons it (R360). -/
def State.sliceDoorbell (s : State) (p rid sl w : Nat) : State :=
  let x := s.slice sl
  if x.state ≠ .active then s.incO K.FENCES_ABANDONED
  else if bits w 63 0 % 16 ≠ 0 then s.discardDoorbell p
  else
    let descs := x.pend.map (·.id) ++ (x.active.map (·.desc.id)).toList ++ (x.resume.map (·.1.id)).toList ++ x.ending.map (·.desc.id)
    s.ring (agentSlice sl) p rid w descs

/-- A write of RING_CONS (R369): one that names a block beyond RING_PROD is ignored and counted. -/
def State.ringConsWrite (s : State) (sl v : Nat) : State :=
  match (s.slice sl).ring with
  | none => s
  | some r =>
    let ahead := decide (2 ^ 31 ≤ (r.seq % 2 ^ 32 + 2 ^ 32 - v % 2 ^ 32) % 2 ^ 32)
    if bits v 63 32 ≠ 0 || ahead then s.updSlice sl (fun x => { x with discards := (x.discards + 1) % 2 ^ 32 })
    else s.updSlice sl (fun x => { x with ring := some { r with cons := v } })

/-- The slice's page belongs to the host of VCS n. -/
def State.pageOpen (s : State) (n sl : Nat) : Bool := (s.slice sl).state ≠ .free && (s.slice sl).host == n

/-- The PASID of an access suits the slice (R348). -/
def Slice.pasidOk (x : Slice) (pasid : Option Nat) : Bool :=
  match x.pasid with
  | none => true
  | some q => pasid == some q

/-- A write of `n` bytes to the doorbell page of slice sl at port p of VCS h (R347, R348). -/
def State.pageWrite (s : State) (p rid h sl off n : Nat) (pasid : Option Nat) (data : Nat) : State :=
  let x := s.slice sl
  if !s.pageOpen h sl then s
  else if off < 0x100 then
    if n ≠ 64 || off % 64 ≠ 0 || x.queues ≤ off / 64 || !x.pasidOk pasid || x.ring.isSome then s.pageDiscard p sl
    else s.submit sl (off / 64) (data % 2 ^ 512)
  else if 0x400 ≤ off && off < 0x410 then
    if n ≠ 16 || off ≠ 0x400 || !x.pasidOk pasid || x.ring.isSome then s.pageDiscard p sl
    else s.sliceDoorbell p rid sl (data % 2 ^ 128)
  else if 0x888 ≤ off && off < 0x890 then
    if n ≠ 8 || off ≠ 0x888 || !x.pasidOk pasid || x.ring.isNone then s.pageDiscard p sl
    else s.ringConsWrite sl (data % 2 ^ 64)
  else s

/-- Value of a page register (R347). -/
def Slice.pageWord (x : Slice) (off : Nat) : Nat :=
  if 0x800 ≤ off && off < 0x820 && off % 8 == 0 then
    let q := (off - 0x800) / 8
    if x.queues ≤ q then 0
    else (x.entries - x.queued q) % 2 ^ 13 + x.queued q % 2 ^ 13 * 2 ^ 13 + b2n (KMap.get true x.lastOk q) * 2 ^ 26
  else if off == 0x840 then x.state.num + x.finished * 2 ^ 2
  else match x.ring with
    | none => 0
    | some r =>
      if off == 0x880 then r.seq % 2 ^ 32 + r.seq % max 1 r.blocks * 2 ^ 32
      else if off == 0x888 then r.cons % 2 ^ 32
      else 0

/-- A read of the page (R347, R348): other offsets and sizes, a FREE slice's page and another's return zero. -/
def State.pageRead (s : State) (h sl off n : Nat) (pasid : Option Nat) : Nat :=
  let x := s.slice sl
  if !s.pageOpen h sl || !x.pasidOk pasid || n ≠ 8 then 0 else x.pageWord off

/-- A doorbell-page command at port p: its page is that of the port's own VCS. -/
def State.pageCommand (s : State) (p : Nat) (f : Nat → Nat → State) : State :=
  let q := s.lead p
  if s.hubHeld || !s.linkUp q || s.o (K.ROLE q) ≠ 1 then s else f q (s.o (K.AGENT q))

/-- SUBMIT (R347, R348, R351): a descriptor written to a page. -/
def execSubmit (p : PortIx) (sl : SliceIx) (offset : BitVec 12) (pasid : Option (BitVec 20)) (desc : List Byte) (s : State) :
    Host.Outcome State Fault Refusal :=
  .next (s.pageCommand p (fun q h => s.pageWrite q 0 h sl offset.toNat desc.length (pasid.map (·.toNat)) (leNat desc)))

/-- SLICE_FENCE (R143, R347): a write of the page's FENCE register. -/
def execSliceFence (p : PortIx) (sl : SliceIx) (offset : BitVec 12) (nbytes : Nat) (pasid : Option (BitVec 20)) (word : BitVec 128)
    (s : State) : Host.Outcome State Fault Refusal :=
  .next (s.pageCommand p (fun q h => s.pageWrite q 0 h sl offset.toNat nbytes (pasid.map (·.toNat)) word.toNat))

/-- RING_CONS (R347, R369): a write of the page's RING_CONS register. -/
def execRingCons (p : PortIx) (sl : SliceIx) (offset : BitVec 12) (nbytes : Nat) (pasid : Option (BitVec 20)) (v : Word64)
    (s : State) : Host.Outcome State Fault Refusal :=
  .next (s.pageCommand p (fun q h => s.pageWrite q 0 h sl offset.toNat nbytes (pasid.map (·.toNat)) v.toNat))

/-! ### Evacuation (R363-R365) -/

/-- Extents of target m that can move: filled and granted. -/
def State.movable (s : State) (m : Nat) : List Extent :=
  s.fab.extents.filter (fun x => x.target == m && x.state ≠ .unmapped && x.state ≠ .filling)

/-- Reason of R363, 0 when the command is accepted. -/
def State.evacRefusal (s : State) (v : Nat) : Nat :=
  let a := bits v 5 0
  let b := bits v 13 8
  if !onlyFields v [(5, 0), (13, 8), (19, 16), (47, 32)] then 1
  else if !s.poolBound a || !s.poolBound b || a == b then 2
  else if !(s.ownRanges a).isEmpty then 3
  else if (s.freeGibs b).length < (s.fab.extents.filter (fun x => x.target == a)).length then 4
  else if s.mv.evac.isSome then 5
  else 0

/-- EVAC_CMD's own rule (R363). -/
def ownEvacCmd (v : Nat) (s : State) : OdAns × State :=
  match s.evacRefusal v with
  | 0 =>
    let a := bits v 5 0
    let s := (((s.setO K.EVAC_RESULT 0).setO K.EVAC_TAG (bits v 47 32)).setO K.EVAC_DONE_EXTENTS 0)
    if (s.fab.extents.filter (fun x => x.target == a)).isEmpty then (odOk, s.setO K.EVAC_STATE 2)
    else (odOk, ({ s with mv := { s.mv with evac := some { src := a, dst := bits v 13 8, engine := bits v 19 16 } } } : State).setO K.EVAC_STATE 1)
  | k => (odNo (if k == 5 then 0x0502 else 0x0504) k, s.setO K.EVAC_RESULT k)

/-- EVAC_CMD (R363). -/
def execEvacCmd (sess : SessRef) (cmd : BitVec 128) (s : State) : Host.Outcome State Fault Refusal :=
  .next (s.odCommand sess K.EVAC_CMD 16 cmd.toNat (ownEvacCmd cmd.toNat))

/-- The extent that moves: one already begun, else the one at the lowest GiB. -/
def pickExtent : List Extent → Option Extent
  | [] => none
  | x :: l =>
    match pickExtent l with
    | none => some x
    | some y => if x.moveTo.isSome then some x else if y.moveTo.isSome then some y else if y.tgtGib < x.tgtGib then some y else some x

/-- Set the extent of a host's block. -/
def State.setExtent (s : State) (x : Extent) : State :=
  { s with fab := { s.fab with extents := s.fab.extents.map (fun y =>
      if y.vcs == x.vcs && y.dpa == x.dpa && y.state ≠ .unmapped then x else y) } }

/-- `n` 64-bit words of free values as one number: data that the model does not hold. -/
def State.freeWide (s : State) (n : Nat) : Nat :=
  (List.range n).foldl (fun v i => v + (Config.freeValue (s.freeIx + i)).toNat * 2 ^ (64 * i)) 0

/-- The copy of one granule: a read at the source and a write at the destination; the data is what the source holds, which the
model does not (a free value). The colour tag is copied too (R364 step 3). -/
def State.copyGranule (s : State) (e : Evac) (from_ to_ : Nat × Nat) : State :=
  let p := (s.targetPort from_.1).getD 0xFF
  let q := (s.targetPort to_.1).getD 0xFF
  let data := s.freeWide 512
  let s : State := { s with freeIx := s.freeIx + 512 }
  let s := s.emit .request p [0, p, 0, from_.2, 4096, 0]
  let s := s.emit .request q [0, q, 1, to_.2, 4096, data]
  let s := s.addO (K.ENG_BYTES e.engine) 4096
  s.setTag to_.1 (to_.2 / 4096) (KMap.get 0 s.gd.tag (from_.1 * 2 ^ 33 + from_.2 / 4096))

end Sys2Proof.Machine
end

