-- ==== Sys2Proof/Machine/Requests.lean ====
section
/-!
DEFINITION. A request from its flit to the plank or the crown: extraction, policing, guard check, decode, class, admission; and
its answers at the ingress tile (R20, R24-R26, R46-R48, R64, R67, R90, R128, R224, R225, R242-R245, R265, R388-R390).
-/
namespace Sys2Proof.Machine

/-! ### Kinds of requests -/

/-- The protocol of a request: 0 CXL.mem, 1 CXL.io, 2 CXL.cache D2H, 3 CXL.cache H2D. -/
def opProto : ReqOp → Nat
  | .ioRead | .ioWrite | .ioAtomic | .ioOtherNonPosted | .config | .message | .completion => 1
  | .d2hRead | .d2hWrite => 2
  | .h2dSnoop => 3
  | _ => 0

/-- Number of a kind in the request messages that leave the device. -/
def opNum : ReqOp → Nat
  | .memRd m | .memInv m | .memInvNT m | .memWr m | .memWrPtl m =>
    16 * (match m with | .invalid => 0 | .shared => 1 | .any => 2)
  | .memRdData => 1 | .memClnEvct => 2 | .memSpecRd => 3 | .memRdFwd => 4 | .memWrFwd => 5
  | .ioRead => 6 | .ioWrite => 7 | .ioAtomic => 8 | .ioOtherNonPosted => 9 | .config => 10 | .message => 11
  | .d2hRead => 12 | .d2hWrite => 13 | .h2dSnoop => 14 | .completion => 15 | .viral => 16

/-- What a request needs of the regions (R376). -/
def opNeeds : ReqOp → Needs
  | .memWr _ | .memWrPtl _ | .memWrFwd | .ioWrite | .ioOtherNonPosted | .d2hWrite => { write := true }
  | .ioAtomic => { read := true, write := true }
  | _ => { read := true }

/-- The request changes memory: fences cover it. -/
def opWrites (o : ReqOp) : Bool := (opNeeds o).write

/-- A request that no completion answers. -/
def opPosted : ReqOp → Bool
  | .ioWrite | .message | .completion | .memSpecRd | .viral => true
  | _ => false

/-- A port guard checks it (R388). -/
def opChecked : ReqOp → Bool
  | .config | .message | .completion | .h2dSnoop | .viral => false
  | _ => true

/-- CXL.io memory request. -/
def opIoMem : ReqOp → Bool
  | .ioRead | .ioWrite | .ioAtomic | .ioOtherNonPosted => true
  | _ => false

/-- A non-posted request or a completion on a traffic class (R25). -/
def opOverrides : ReqOp → Bool
  | .ioRead | .ioAtomic | .ioOtherNonPosted | .config | .completion => true
  | _ => false

/-- Kind of a request at the crown (R90). -/
def opLine : ReqOp → LineOp
  | .memRdData => .rdS
  | .memRd .shared => .rdS
  | .memRd .any => .rdA
  | .memInv .shared | .memInvNT .shared => .invS
  | .memInv .any | .memInvNT .any => .invA
  | .memInv .invalid | .memInvNT .invalid => .invI
  | .memWr _ | .memWrPtl _ => .wr
  | .memClnEvct => .evict
  | _ => .rdI

/-- MetaValue of a write: 0 Invalid, 1 Shared, 2 Any. -/
def opMsv : ReqOp → Nat
  | .memWr .shared | .memWrPtl .shared => 1
  | .memWr .any | .memWrPtl .any => 2
  | _ => 0

/-- A CXL.mem read, which a poisoned MemData answers where nothing else can. -/
def opMemRead : ReqOp → Bool
  | .memRd _ | .memRdData | .memRdFwd => true
  | _ => false

/-- Bytes that a request touches: a CXL.mem or CXL.cache request one line. -/
def reqSpan (r : Req) : Nat × Nat := if (opProto r.op) == 1 then (r.addr, r.bytes) else (r.addr / 64 * 64, 64)

/-! ### Where a request stands -/

/-- Fence agent of a request (R134). -/
def Ingress.agent (x : Ingress) : Nat := if x.host then agentHost x.n else agentDev x.p x.req.rid

/-- Answer a request at its port. -/
def Ingress.answer (x : Ingress) (s : State) (status data : Nat) : State := s.answer x.p x.req.tag x.req.rid status data

/-- The request as an entry of the tables. -/
def Ingress.txn (x : Ingress) (dest : Nat) (cls : Cls) : Txn :=
  let r := x.req
  { purpose := .port, master := x.p, port := x.p, agent := x.agent, dest := dest, write := (opWrites r.op), posted := (opPosted r.op),
    nonPosted := (opProto r.op) ≠ 0 && !(opPosted r.op), cls := cls, addr := r.addr,
    bytes := (match r.op with | .memInv _ | .memInvNT _ | .memClnEvct => 0 | _ => r.bytes), data := r.data, tag := r.tag, rid := r.rid,
    pasid := r.pasid, proto := (opProto r.op) }

/-- The port takes traffic: its link is up, and it is neither LOST nor MISMATCH (R235, R264). -/
def State.carries (s : State) (p : Nat) : Bool :=
  s.linkUp p && s.o (K.ROLE p) ≠ 0 && s.o (K.PORT_STATE p) ≠ 5 && s.o (K.PORT_STATE p) ≠ 6

/-- Cells of a packet of this many bytes, as metered bytes (R205). -/
def State.meteredBytes (s : State) (bytes : Nat) : Nat := bytes + packetCells bytes * s.c K.OVH

/-! ### Admission (R46-R48, R67) -/

/-- The class that the credits of a request reserve against (R46). -/
def creditClass (o : ReqOp) : Cls := if opProto o == 1 then .bulk else .coh

/-- A request's credits are consumed: its cells take their place, or it releases them (R46, R47). -/
def State.takeCredits (s : State) (p : Nat) (r : Req) : State :=
  s.setAdv p (creditClass r.op) (s.advertised p (creditClass r.op) - reserved r.pkt r.hdr)

/-- A VIEW packet is admitted (R48, R225). -/
def State.viewAdmits (s : State) (x : Ingress) : Bool :=
  x.colour ≠ .red && decide (s.occ x.p .view + packetCells x.req.pkt ≤ s.limit x.p .view)

/-- A VIEW packet is dropped: counted, and ended for the fences that would cover it (R48, R136, R191). -/
def State.dropView (s : State) (x : Ingress) : State :=
  let s := (s.addO (K.VIEW_DROP_CELLS x.p) (packetCells x.req.pkt)).incO (K.VIEW_DROP_PKTS x.p)
  let s := if x.colour = .red then s.incO (K.RED_VIEW_DROP_PKTS x.p) else s
  let s : State := { s with ord := { s.ord with viewDrops := KMap.upd 0 s.ord.viewDrops x.agent (· + 1) } }
  s.coverDrop x.p

/-! ### Answers at the ingress tile -/

/-- Answers that R245 gives; a write ends in error for the fences (R136). `v` is the vPPB that reports a posted request. -/
def Ingress.miss (x : Ingress) (s : State) : State :=
  let s := (s.incO (K.DECODE_MISSES x.p)).raise (4 * x.p + 2) 1 0x20 false
    { master := x.p, access := if (opWrites x.req.op) then 2 else 1, addr := some x.req.addr }
  let s := if (opWrites x.req.op) then s.rejectWrite x.p x.agent else s
  if (opProto x.req.op) == 0 then x.answer s (if (opMemRead x.req.op) then 1 else 0) 0
  else if (opPosted x.req.op) then s.emit .aer x.n [x.v, 0x14]
  else x.answer s (if (opProto x.req.op) == 2 then 4 else if (opProto x.req.op) == 3 then 5 else 3) 0

/-- Answers that R390 gives. -/
def Ingress.refused (x : Ingress) (s : State) (f : GFault) : State :=
  let s := s.portGuardFault x.p x.p (if (opWrites x.req.op) then 2 else 1) (reqSpan x.req).1 f
  let s := if (opWrites x.req.op) then s.rejectWrite x.p x.agent else s
  match x.req.op with
  | .memSpecRd | .ioWrite | .message | .completion => s
  | .memRd _ | .memRdData | .memRdFwd | .ioRead => x.answer s 1 0
  | .d2hRead | .d2hWrite => x.answer s 4 0
  | .ioAtomic | .ioOtherNonPosted => x.answer s 2 0
  | _ => x.answer s 0 0

/-! ### Decode (R242, R243) -/

/-- Lines of a CXL.io memory request: addresses and bytes. -/
def reqLines (r : Req) : List (Nat × Nat) := cutAt 64 r.addr (max 1 r.bytes)

/-- A destination that the HDM decoders of VCS n give to a CXL.io request of an end device, reached line by line. -/
def State.viaHdm (s : State) (x : Ingress) : Bool :=
  !x.host && (opIoMem x.req.op) && s.cB (K.PEER_HDM x.n) && !(s.vppb x.n x.v).redirects && (s.hdmDest x.n x.req.addr).isSome
    && (match s.devIoDest x.n x.v x.req.addr with | .fence _ | .feed _ => false | _ => true)

/-- Route of a request (R242, R243). A later byte of a host's request outside the first one's route makes it a miss. -/
def State.route (s : State) (x : Ingress) : Dest :=
  let r := x.req
  match (opProto r.op) with
  | 0 => if x.host then (s.hdmDest x.n (r.addr / 64 * 64)).getD .miss else .miss
  | 2 => .host x.n
  | 3 =>
    match KMap.get 0 s.fab.cacheRoute (x.n * 16 + r.cacheId % 16) with
    | 0 => .miss
    | v + 1 => s.boundDest x.n v
  | _ =>
    if !x.host then s.devIoDest x.n x.v r.addr
    else
      let d := s.hostIoDest x.n r.addr
      if (s.hostIoDest x.n (r.addr + (r.bytes - 1))).sameRoute d then d else .miss

/-- The guard leaves a route to its own checks (R388). -/
def Dest.unguarded : Dest → Bool
  | .fence _ | .portal _ _ | .feed _ | .mgmt _ | .msix _ _ => true
  | _ => false

/-- Class of a request (R24, R25). -/
def State.classOf (s : State) (x : Ingress) (d : Dest) : Cls :=
  match d with
  | .window _ _ => .coh
  | _ => if !x.host && s.o (K.ROLE x.p) == 3 && x.req.op = .ioWrite && bit (s.c (K.CLASS_MAP_VIEW x.p)) (x.req.tc % 8) then .view else .bulk

/-- A non-posted request or completion on a traffic class that the map gives to VIEW (R25). -/
def State.countOverride (s : State) (p : Nat) (r : Req) : State :=
  if s.o (K.ROLE p) == 3 && (opOverrides r.op) && bit (s.c (K.CLASS_MAP_VIEW p)) (r.tc % 8) then s.incO (K.CLASS_MAP_OVERRIDES p) else s

/-- The tile looks a tag up for a tag-checked request (R380). -/
def State.waitTag (s : State) (x : Ingress) : State :=
  let regs := (List.range 16).map (fun k => s.c (K.REGION x.p k))
  let key := match governing regs (reqSpan x.req).1 with | some (_, r) => rgnKey r | none => none
  match if s.cB (K.GUARD_ENABLE x.p) && key.isSome then s.hdmDest x.n (reqSpan x.req).1 else none with
  | none => s
  | some d =>
    let r := (s.tagLineAt d).tagLookup (tileOf x.p) d
    if r.1 then r.2.incO (K.TAG_WAITS x.p) else r.2

/-! ### To the crown and to the plank -/

/-- A host's request enters the crown's path: COH over the tile's seam, behind the port's earlier ones that wait for credits of the
crown's intake (R24, R46, R317). -/
def Ingress.toWindow (x : Ingress) (w line : Nat) (s : State) : State :=
  let t := tileOf x.p
  let op := x.req.op
  let bytes := 16 + (if (opWrites op) then 64 else 0)
  let r := s.newTxn { x.txn 0xFF .coh with w := w, line := line }
  let e : LineEntry := { op := (opLine op), who := x.n, tag := r.1, port := x.p, tile := t, data := x.req.data,
                         mask := (match op with | .memWrPtl _ => x.req.mask % 2 ^ 64 | _ => 2 ^ 64 - 1),
                         partial_ := (match op with | .memWrPtl _ => true | _ => false), msv := (opMsv op),
                         gepoch := s.gd.epoch, ct := s.ct, gen := s.genNum }
  let n := r.2.pl.nextPkt
  let c0 : Cell := { blankCell .coh x.p 0 with req := n, colourCode := colourNum x.colour, gen := s.genNum % 256, gepoch := s.gd.epoch % 16 }
  let cells := (cutPacket c0 bytes x.req.data).map cellSeal
  let s : State := { r.2 with
    pl := { r.2.pl with nextPkt := n + 1, toCrown := KMap.upd [] r.2.pl.toCrown x.p (· ++ [(n, cells)]) }
    cr := { r.2.cr with coming := KMap.set none r.2.cr.coming n (some { w := w, line := line, entry := e, cells := cells.length }) } }
  s.pushCrown x.p (KMap.get [] s.pl.toCrown x.p).length

/-- The message of a port's request as it leaves: as a hub agent's, then LD-ID, kind, byte enables. -/
def portMsg (id q ld : Nat) (op : ReqOp) (mask : Nat) (t : Txn) : Out :=
  { kind := .request, dst := q, args := [id, q, b2n t.write, t.addr, t.bytes, t.data, ld, (opNum op), mask] ++ t.pasid.toList }

/-- A request is admitted for egress port q (R20): a CXL.mem request has RSP_TIMEOUT (R267); a posted write is followed by the
zero-length read that ends it for the fences (R136). DESIGN CHOICE: that read always follows. -/
def Ingress.toPort (x : Ingress) (q ld addr : Nat) (cls : Cls) (vppb : Nat) (s : State) : State :=
  let mem := (opProto x.req.op) == 0
  let t := { x.txn q cls with addr := addr, vcs := x.n, vppb := vppb, deadline := if mem then s.rspBound q else none }
  let r := s.newTxn t
  let lim := if cls = .view then .view else creditClass x.req.op
  let s := r.2.admitPkt x.p q cls lim x.colour x.req.pkt x.req.data (portMsg r.1 q ld x.req.op x.req.mask t)
  if x.req.op ≠ .ioWrite then s
  else
    let f : Txn := { t with purpose := .flush, write := false, posted := false, nonPosted := true, bytes := 0, data := 0, w := r.1, counted := false }
    let g := s.newTxn f
    g.2.admitPkt x.p q cls lim x.colour 16 0 (portMsg g.1 q ld .ioRead 0 f)

/-- Issue one line of a converted request (R128, R243): to the crown as a hub agent's, or to its port. -/
def Ingress.linePart (x : Ingress) (parent : Nat) (cls : Cls) (s : State) (a n : Nat) : State :=
  let r := x.req
  let lo := a - r.addr
  let t : Txn := { x.txn 0xFF cls with purpose := .part, addr := a, bytes := n, data := r.data / 2 ^ (8 * lo) % 2 ^ (8 * n), w := parent, step := lo,
                                       proto := 0 }
  match (s.hdmDest x.n a).getD .miss with
  | .window w line =>
    let k := s.newTxn { t with cls := .coh }
    k.2.toCrown w line (k.2.hubEntry k.1 t)
  | d =>
    let q := s.destPort d
    let addr := match d with | .pool _ dpa => dpa | _ => a
    let ld := match d with | .bound _ ld _ _ => ld | _ => 0
    let t := match d with | .bound _ _ n v => { t with vcs := n, vppb := v } | _ => t
    let t := { t with dest := q, addr := addr, deadline := s.rspBound q }
    let k := s.newTxn t
    let op : ReqOp := if t.write then (if n == 64 then .memWr .invalid else .memWrPtl .invalid) else .memRd .invalid
    k.2.admitPkt x.p q cls cls x.colour (16 + (if t.write then 64 else 0)) t.data (portMsg k.1 q ld op ((2 ^ n - 1) * 2 ^ (a % 64)) t)

/-- A CXL.io request of an end device that HDM decoders claim becomes CXL.mem requests of one line each (R243): a posted write's
lines stand alone, a non-posted request is answered when its last line is. DEDUCED: an atomic operation has no CXL.mem form and is
answered by R245. -/
def Ingress.viaLines (x : Ingress) (cls : Cls) (s : State) : State :=
  let ls := reqLines x.req
  let bad := ls.any (fun l => match s.hdmDest x.n l.1 with
    | some (.window _ _) | some (.pool _ _) | some (.bound _ _ _ _) => false
    | _ => true)
  if bad || x.req.op = .ioAtomic then x.miss s
  else if x.req.bytes == 0 then (if (opPosted x.req.op) then s else x.answer s 0 0)
  else if x.req.op = .ioWrite then ls.foldl (fun (s : State) l => x.linePart 0 cls s l.1 l.2) s
  else
    let t := { x.txn 0xFF cls with data := 0, step := ls.length, replica := 0, write := false, counted := false }
    let r := s.newTxn t
    ls.foldl (fun (s : State) l => x.linePart r.1 cls s l.1 l.2) r.2

/-- A request toward a host none of whose ports is up, or toward a device whose port cannot carry it (R265). -/
def Ingress.lost (x : Ingress) (s : State) : State :=
  if (opPosted x.req.op) then (if (opWrites x.req.op) then s.incO (K.LOST_WRITES x.p) else s)
  else x.answer s (if (opProto x.req.op) == 2 then 4 else if (opProto x.req.op) == 3 then 5 else 3) 0

/-- What a routed request does. DESIGN CHOICE: every write to the fence aperture is a doorbell (R131), also a non-posted one and an atomic
operation, which get their completion once the doorbell is taken; a read and any other request there completes with zeros. -/
def Ingress.deliver (x : Ingress) (d : Dest) (s : State) : State :=
  let r := x.req
  let cls := s.classOf x d
  let go := fun (q ld addr v : Nat) => if cls = .view && !s.viewAdmits x then s.dropView x else x.toPort q ld addr cls v s
  match d with
  | .fence off =>
    if (opWrites r.op) then
      -- a write that waits for a completion gets one once the doorbell is taken
      let s := s.apertureWrite x.p r.rid x.n off r.bytes (r.data % 2 ^ 128)
      if (opPosted r.op) then s else x.answer s 0 0
    else x.answer s 0 0
  | .portal sl off =>
    if r.op = .ioWrite then s.pageWrite x.p r.rid x.n sl off r.bytes r.pasid r.data
    else if r.op = .ioRead then x.answer s 0 (s.pageRead x.n sl off r.bytes r.pasid)
    else x.answer s 3 0
  | .feed sl =>
    if r.op ≠ .ioWrite then x.answer s 3 0
    else if cls = .view && !s.viewAdmits x then s.dropView x
    else s.feedWrite x.p r.rid sl r.addr (natBytes r.bytes r.data)
  | .mgmt off =>
    if r.op = .ioWrite then s.mgmtMemWrite x.n off r.bytes r.data
    else if r.op = .ioRead then x.answer s 0 (s.mgmtMemRead x.n off r.bytes)
    else x.answer s 3 0
  | .msix fn off =>
    if r.op = .ioWrite then s.msixWrite x.n fn off r.bytes r.data
    else if r.op = .ioRead then x.answer s 0 (s.msixRead x.n fn off r.bytes)
    else x.answer s 3 0
  | .miss => x.miss s
  | .host n =>
    let q := s.destPort d
    if !x.host && q < 96 then go q 0 r.addr 0xFF
    else if n == x.n then x.lost s else x.miss s
  | .window w line => if x.host then x.toWindow w line s else x.miss s
  | .pool m dpa => go ((s.targetPort m).getD 0xFF) 0 dpa 0xFF
  | .bound q ld _ v => go q ld r.addr v

/-- A request that a window does not support is answered as one without a route, and counted (R80). -/
def Ingress.unsupported (x : Ingress) (s : State) : State :=
  x.miss { s with cr := { s.cr with unsupported := s.cr.unsupported + 1 } }

/-- What a request that the guard has passed does at step 4 (R20). -/
def Ingress.place (x : Ingress) (s : State) : State :=
  let d := s.route x
  if x.req.ext && d.isWindow then x.unsupported s
  else if s.viaHdm x then
    let cls := s.classOf x (.host x.n)
    if cls = .view && !s.viewAdmits x then s.dropView x else x.viaLines cls s
  else x.deliver d s

/-- Destinations of a request: of each of its lines where HDM decoders claim it. -/
def State.destsOf (s : State) (x : Ingress) : List Dest :=
  if s.viaHdm x then (reqLines x.req).filterMap (fun l => s.hdmDest x.n l.1) else [s.route x]

/-- A destination lies in the granule that an evacuation holds (R364). -/
def State.granuleHeld (s : State) : Dest → Bool
  | .pool m dpa => match s.mv.evac with
    | some e => e.src == m && (match e.hold with | some h => h.1 == dpa / 4096 | none => false)
    | none => false
  | _ => false

/-- A request to a held granule waits at step 4 (R364). -/
def State.holdOrPlace (s : State) (x : Ingress) : State :=
  if (s.destsOf x).any s.granuleHeld then { s with mv := { s.mv with held := s.mv.held ++ [x] } } else x.place s

/-- The requests held are released in their order (R364): one from a port that carries nothing any more is dropped. -/
def State.releaseEvac (s : State) : State :=
  s.mv.held.foldl (fun (s : State) x => if s.carries x.p then s.holdOrPlace x else s) { s with mv := { s.mv with held := [] } }

/-- Steps 3 and 4 of a memory request (R20): the guard, then the decode. -/
def Ingress.steps (x : Ingress) (s : State) : State :=
  let r := x.req
  let d := s.route x
  let sp := reqSpan r
  match if (opChecked r.op) && !d.unguarded then s.portGuard x.p x.n (opNeeds r.op) sp.1 sp.2 else none with
  | some f => x.refused s f
  | none =>
    let s := if (opChecked r.op) && !d.unguarded then s.waitTag x else s
    let s := s.countOverride x.p r
    match r.op with
    | .memSpecRd => s
    | .memRdFwd | .memWrFwd => x.unsupported s
    | _ => s.holdOrPlace x

/-! ### Evacuation (R364) -/

/-- Extent x moves on by granule `mark`, to GiB g of target t: data and tag are copied, the watermark advances; with the last granule the
extent stands at the destination, and its source GiB is free. -/
def State.moveGranule (s : State) (e : Evac) (x : Extent) (t g : Nat) : State :=
  let s := s.copyGranule e (e.src, x.tgtGib * gibBytes + x.mark * 4096) (t, g * gibBytes + x.mark * 4096)
  if x.mark + 1 < 262144 then s.setExtent { x with moveTo := some (t, g), mark := x.mark + 1 }
  else (s.setExtent { x with target := t, tgtGib := g, moveTo := none, mark := 0 }).incO K.EVAC_DONE_EXTENTS

/-- EVAC_GRANULE_MOVE (R364): the next granule of the moving extent is held; once every request to the extent from before the hold has
ended it is copied, its watermark advances, and what was held goes on. -/
def execEvacGranuleMove (s : State) : Host.Outcome State Fault Refusal :=
  match s.mv.evac with
  | none => .next s
  | some e =>
    if s.hubHeld then .next s
    else if (s.fab.extents.filter (fun x => x.target == e.src)).isEmpty then
      .next ((({ s with mv := { s.mv with evac := none } } : State).setO K.EVAC_STATE 2).releaseEvac)
    else match pickExtent (s.movable e.src) with
      | none => .next s
      | some x =>
        let gran := x.tgtGib * 262144 + x.mark
        let since := match e.hold with
          | some h => if h.1 == gran then h.2 else s.ord.nextTxn
          | none => s.ord.nextTxn
        let place := match x.moveTo with
          | some m => some m
          | none => (s.freeGibs e.dst).head?.map (fun g => (e.dst, g))
        match place with
        | none => .next s
        | some (t, g) =>
          let keep : State := { s with mv := { s.mv with evac := some { e with hold := some (gran, since) } } }
          if (s.extentUsers x).any (fun id => decide (id < since)) then .next keep
          else
            let done : State := { s with mv := { s.mv with evac := some { e with hold := none } } }
            .next ((done.moveGranule e x t g).releaseEvac)

/-! ### Configuration requests and messages (R242): PCIe routing -/

/-- A configuration request of a host (R242); `mask` 0 is a read. One from an end device has no route (R245). -/
def Ingress.config (x : Ingress) (s : State) : State :=
  let r := x.req
  let reg := bits r.addr 11 0 / 4 * 4
  if !x.host then x.miss s
  else match s.cfgDest x.n r.cfg1 (bits r.addr 27 20) (bits r.addr 19 15) (bits r.addr 14 12) with
    | .none => x.miss s
    | .below v => x.deliver (s.boundDest x.n v) s
    | d => if r.mask == 0 then x.answer s 0 (s.cfgRead x.n d reg) else x.answer (s.cfgWrite x.n d reg r.mask r.data) 0 0

/-- A message: of an end device to its host; of a host to the device behind vPPB `addr` - 1, or to every one for 0. One that is for a
single vPPB without a device has no route (R245). -/
def Ingress.message (x : Ingress) (s : State) : State :=
  let send := fun (s : State) (q : Nat) =>
    if q < 96 then s.admitPkt x.p q .bulk .bulk x.colour x.req.pkt x.req.data { kind := .card, dst := q, args := [x.p, x.req.addr, x.req.data] } else s
  if !x.host then send s (s.destPort (.host x.n))
  else
    let vs := if x.req.addr == 0 then List.range 32 else if x.req.addr ≤ 32 then [x.req.addr - 1] else []
    let ds := (vs.map (s.boundDest x.n)).filter (fun d => d ≠ .miss)
    if x.req.addr ≠ 0 && ds.isEmpty then x.miss s else (ds.map s.destPort).eraseDups.foldl send s

/-! ### Completions -/

/-- Outcome that a completion's status carries: 0 good, 1 poisoned, else failed. -/
def completionStatus : Nat → MemStatus
  | 0 => .ok
  | 1 => .poison
  | _ => .error

/-- A completion of request `tag` arrives from the port to which it went (R24, R65): it ends the request, and goes on to the
requester as BULK, in its own flow; a late one finds no request and is dropped. CXL.mem answers of memory arrive by
TARGET_RESPONSE_RECEIVE, a mover's read data by CHUNK_READ_RETURN. -/
def State.completionArrival (s : State) (p : Nat) (r : Req) : State :=
  match s.txn? r.tag with
  | none => s
  | some t =>
    if t.dest ≠ p || t.deadline.isSome then s
    else if t.purpose = .port then
      if !s.linkUp t.port then (s.countOverride p r).endTxn r.tag (r.addr == 0 || !t.write)
      else
        let s := (s.countOverride p r).endTxn r.tag (r.addr == 0 || !t.write)
        s.admitPkt p t.port .bulk .bulk .green r.pkt r.data { kind := .completion, dst := t.port, args := [t.tag, t.rid, r.addr, r.data] }
    else if t.purpose = .mover && !t.write then s
    else (s.countOverride p r).hubAnswer r.tag (completionStatus r.addr) r.data

/-- A viral indication of an end device or target goes to every host whose VCS binds it (R280). -/
def State.viral (s : State) (p : Nat) : State :=
  if s.o (K.ROLE p) == 1 then s
  else ((s.boundIn p).map (·.1)).eraseDups.foldl (fun (s : State) n => (s.portsOf 1 n).foldl (fun (s : State) q =>
    if s.linkUp q then s.emit .card q [6, p] else s) s) s

/-! ### REQUEST_ARRIVAL -/

/-- A header that fails its parity check (R441 code 0x25) is answered with Completer Abort. -/
def State.headerParity (s : State) (p : Nat) (r : Req) : State :=
  let s := s.raise (4 * p + 2) 2 0x25 false { master := p, addr := some r.addr }
  if (opPosted r.op) then s else s.answer p r.tag r.rid 2 0

/-- Inverted check bits of received flits (R463): the flit is refused and replayed, and the request then arrives. DEDUCED: it
counts as an uncorrectable flit and a replay (R441 code 0x10). The guard's region store has no code of its own: nothing
else follows there. -/
def State.flitCheck (s : State) (p : Nat) : State :=
  let s := (s.injFire (4 * p + 3) 0).2
  match s.injFire (4 * p + 1) 1 with
  | (0, s) => s
  | (_, s) => ((s.incO (K.FLITS_UNCORRECTABLE p)).incO (K.REPLAYS p)).raise (4 * p + 1) 1 0x10 false { master := p }

/-- VCS and vPPB of a request: a memory target's CXL.io request is its binding's, by LD-ID. -/
def State.ingressOf (s : State) (p : Nat) (r : Req) : Option (Nat × Nat) :=
  if s.o (K.ROLE p) == 2 then
    (s.boundIn p).find? (fun nv => match s.binding nv.1 nv.2 with | some (_, _, ld) => ld == r.cacheId || s.o (K.LD_COUNT p) < 2 | none => false)
  else s.vcsOf p

/-- Steps 1 to 4 of a request at port q. A request of a port without a binding has no route (R245), once it is coloured (R224). -/
def State.requestIn (s : State) (q : Nat) (req : Req) : State :=
  let inj := s.injFire (4 * q + 2) 0
  let s := inj.2
  if !req.parity || inj.1 ≠ 0 then s.headerParity q req
  else if req.op = .completion then s.completionArrival q req
  else if req.op = .viral then s.viral q
  else
    let r := s.police q (s.meteredBytes req.pkt)
    match s.ingressOf q req with
    | none => Ingress.miss { p := q, n := 0xFF, v := 0xFF, host := false, colour := r.1, req := req } r.2
    | some (n, v) =>
      let x : Ingress := { p := q, n := n, v := v, host := s.o (K.ROLE q) == 1, colour := r.1, req := req }
      match req.op with
      | .config => x.config r.2
      | .message => x.message r.2
      | _ => x.steps r.2

/-- REQUEST_ARRIVAL (R20): steps 1 to 4 of the request path. A request for which no credits are advertised waits at its link (R46,
R49). -/
def execRequestArrival (p : PortIx) (at_ : Nat) (req : Req) (s : State) : Host.Outcome State Fault Refusal :=
  let s := s.advance at_
  .next (s.decoded (fun s =>
    let q := s.lead p
    if s.tileHeld (tileOf q) || !s.carries q || s.advertised q (creditClass req.op) < reserved req.pkt req.hdr then s
    else ((s.flitCheck q).freshTokens.takeCredits q req).requestIn q req))

end Sys2Proof.Machine
end

