-- ==== Sys2Proof/Machine/Gen.lean ====
section
/-!
DEFINITION. Configuration generations: the checks of a commit, publication with its effects, confirmation and rollback
(R33, R492-R498), and the publication of guard epochs (R393).
-/
namespace Sys2Proof.Machine

/-! ### Checks of a commit (R493) -/

/-- Key range of an object table row that counts by index: `ix` lies in `[base, base + n)`. -/
def ixIn (key base n : Nat) : Bool := decide (base ≤ key / 256) && decide (key / 256 < base + n)

/-- Objects of the port guards: a change of one publishes a guard epoch (R392). -/
def guardKey (key : Nat) : Bool :=
  key == K.FM_HOST || (ixIn key 0x3810 96 && decide (1 ≤ key % 256) && decide (key % 256 ≤ 17))

/-- Keys whose values differ between two generations. -/
def changedKeys (a b : KMap Nat) : List Nat :=
  ((a.map (·.1)) ++ ((b.map (·.1)).filter (fun k => !a.any (fun e => e.1 == k)))).filter (fun k => cfgOf a k ≠ cfgOf b k)

/-- A guard object differs. -/
def guardsDiffer (a b : KMap Nat) : Bool := (changedKeys a b).any guardKey

/-- Quads that port p spans at the width that a generation gives it, members not counted (R272). -/
def spanIn (g : KMap Nat) (p : Nat) : Nat :=
  let w := cfgOf g (K.PORT_WIDTH p)
  if w == 16 then 4 else if w == 8 then 2 else 1

/-- Port p is a member port in a generation. -/
def memberIn (g : KMap Nat) (p : Nat) : Bool :=
  (List.range 3).any (fun i => decide (i + 1 ≤ p % 4) && decide (i + 1 < spanIn g (p - (i + 1))))

/-- Quads that port p occupies in a generation; a member has none of its own. -/
def quadsIn (g : KMap Nat) (p : Nat) : List Nat :=
  if memberIn g p then [] else (List.range (spanIn g p)).map (p + ·)

/-- Check 1: reason of R274 for port p, 0 when it passes. -/
def State.gangReason (s : State) (g : KMap Nat) (p : Nat) : Nat :=
  let w := cfgOf g (K.PORT_WIDTH p)
  let claimed := fun (q : Nat) => decide (s.o (K.PORT_STATE q) ≠ 0)
  if (w == 8 && p % 2 ≠ 0) || (w == 16 && p % 4 ≠ 0) then 1
  else if (w == 8 || w == 16) && memberIn g p then 2
  else if quadsIn g p ≠ quadsIn s.gen.active p && (claimed p || (quadsIn g p).any claimed) then 3
  else 0

/-- A port's limit of a class in a generation: the sum over its quads (R45). -/
def limIn (g : KMap Nat) (lim : Nat → Nat) (p : Nat) : Nat := ((quadsIn g p).map (fun q => cfgOf g (lim q))).sum

/-- Check 2: R45. -/
def limitsBad (g : KMap Nat) : Bool :=
  let four := [K.LIM_SYS, K.LIM_COH, K.LIM_BULK, K.LIM_VIEW]
  (List.range 4).any (fun t => decide
      (196608 < ((List.range 24).map (fun i => (four.map (fun k => cfgOf g (k (24 * t + i)))).sum)).sum))
    || (List.range 96).any (fun p => decide (1 < (quadsIn g p).length) && four.any (fun k => decide (16384 < limIn g k p)))

/-- Some two ranges of a list meet. -/
def someMeet : List (Nat × Nat) → Bool
  | [] => false
  | r :: rs => rs.any (rangesMeet r) || someMeet rs

/-- Regions of a generation overlap on target m: windows, tags, and the extents that hosts' private memory takes (R82). -/
def State.regionsMeet (s : State) (g : KMap Nat) (m : Nat) : Bool :=
  let own := winRangesOn g m ++ s.tagRegion g m
  someMeet own || own.any (fun r => (s.extentGibs m).any (fun x => rangesMeet r (x * gibBytes, gibBytes)))

/-- The window objects that may not change under a window's hosts (R82 reason 0x07). -/
def windowShape (w : Nat) : List Nat :=
  [K.WIN_SIZE w, K.PRIMARY_TARGET w, K.PRIMARY_OFFSET w, K.DIR_OFFSET w, K.MIRROR w, K.MIRROR_TARGET w, K.MIRROR_OFFSET w,
   K.MIRROR_DIR_OFFSET w]

/-- Any object of R81 that a generation holds for window w. -/
def windowKeys (w : Nat) : List Nat := K.WIN_ENABLE w :: K.READ_REPLICA w :: K.HOSTS w :: K.SNOOP_TIMEOUT w :: windowShape w

/-- Window w is enabled in a generation. -/
def winOn (g : KMap Nat) (w : Nat) : Bool := cfgOf g (K.WIN_ENABLE w) == 1

/-- Check 3: reason of R82, 0 when every window passes. DESIGN CHOICE: the lowest reason that applies; the capacity is
checked on a bound target only, since an unbound one has reason 0x06. -/
def State.windowReason (s : State) (g : KMap Nat) : Nat :=
  let a := s.gen.active
  let on := (List.range 16).filter (winOn g)
  let size := fun (w : Nat) => cfgOf g (K.WIN_SIZE w)
  let mirrored := fun (w : Nat) => cfgOf g (K.MIRROR w) == 1
  if on.any (fun w => size w == 0 || size w % gibBytes ≠ 0 || decide (2 ^ 42 < size w)) then 1
  else if on.any (fun w => cfgOf g (K.PRIMARY_OFFSET w) % gibBytes ≠ 0 || cfgOf g (K.DIR_OFFSET w) % 2 ^ 26 ≠ 0
      || (mirrored w && (cfgOf g (K.MIRROR_OFFSET w) % gibBytes ≠ 0 || cfgOf g (K.MIRROR_DIR_OFFSET w) % 2 ^ 26 ≠ 0))) then 2
  else if on.any (fun w => (winRegions g w).any (fun r => s.poolBound r.1 && decide (s.capGiB r.1 * gibBytes < r.2.1 + r.2.2))) then 3
  else if 2 ^ 42 < (on.map size).sum then 4
  else if (List.range 64).any (s.regionsMeet g) then 5
  else if on.any (fun w => (winRegions g w).any (fun r => !s.poolBound r.1)
      || (mirrored w && cfgOf g (K.MIRROR_TARGET w) == cfgOf g (K.PRIMARY_TARGET w))) then 6
  else if (List.range 16).any (fun w => winOn a w && cfgOf a (K.HOSTS w) ≠ 0
      && (!winOn g w || (windowShape w).any (fun k => cfgOf a k ≠ cfgOf g k))) then 7
  else if on.any (fun w => (bitList 64 (cfgOf g (K.HOSTS w))).any (fun h =>
      !(winOn a w && bit (cfgOf a (K.HOSTS w)) h) && bit (s.o K.DEPART_PENDING) h)) then 8
  else 0

/-- Check 4: reason of R201, 0 when every shadow passes; the lowest reason that applies. -/
def State.freezeReason (s : State) (g : KMap Nat) : Nat :=
  let busy := fun (w : Nat) => s.o (K.FRZ_STATE w) == 1 || s.o (K.FRZ_STATE w) == 2
  let named := (List.range 16).filter (fun w => winOn g w && s.shadowNamed g w)
  let bad := fun (r : Nat) => named.any (fun w => s.shadowBad g w (busy w) == r)
  if bad 1 then 1
  else if bad 2 then 2
  else if (List.range 16).any (fun w => busy w
      && (K.FRZ_SHADOW_TARGET w :: K.FRZ_SHADOW_OFFSET w :: K.FRZ_LAG w :: K.FRZ_RATE w :: windowKeys w).any
          (fun k => cfgOf s.gen.active k ≠ cfgOf g k)) then 3
  else 0

/-- Check 5: an enabled aperture overlaps an HDM decoder range of its instance (R131). -/
def State.apertureBad (s : State) (g : KMap Nat) : Bool :=
  (List.range 64).any (fun n => cfgOf g (K.FENCE_ENABLE n) == 1 && (List.range 49).any (fun ix =>
    (s.hdm n ix).committed && rangesMeet (cfgOf g (K.FENCE_BASE n), 4096) ((s.hdm n ix).set.base, (s.hdm n ix).set.size)))

/-- Reason of R231 for one policer or profile. -/
def rateReason (ovh cir pir cbs pbs : Nat) : Nat :=
  if pir < cir then 1
  else if cbs < cir || pbs < pir then 2
  else if pbs < cbs then 3
  else if cbs < 4352 + 68 * ovh || pbs < 4352 + 68 * ovh then 4
  else 0

/-- Profile k is named by a pair in a generation. -/
def profileNamed (g : KMap Nat) (k : Nat) : Bool :=
  g.any (fun e => ixIn e.1 0x2280 64 && decide (1 ≤ e.1 % 256) && decide (e.1 % 256 ≤ 64) && e.2 == k)

/-- Check 6: reason of R231: port policers in port order, then the profiles named; the first failure. -/
def trafficReason (g : KMap Nat) : Nat :=
  let ovh := cfgOf g K.OVH
  let ports := (List.range 96).map (fun p => rateReason ovh (cfgOf g (K.POL_CIR p)) (cfgOf g (K.POL_PIR p)) (cfgOf g (K.POL_CBS p)) (cfgOf g (K.POL_PBS p)))
  let profs := ((List.range 63).filter (fun i => profileNamed g (i + 1))).map
    (fun i => rateReason ovh (cfgOf g (K.SHP_CIR (i + 1))) (cfgOf g (K.SHP_PIR (i + 1))) (cfgOf g (K.SHP_CBS (i + 1))) (cfgOf g (K.SHP_PBS (i + 1))))
  ((ports ++ profs).find? (· ≠ 0)).getD 0

/-- Some granule of target m holds a tag other than 0x0 and 0xF (R381). -/
def State.tagsStand (s : State) (m : Nat) : Bool :=
  s.gd.tag.any (fun e => e.1 / 2 ^ 33 == m && e.2 ≠ 0 && e.2 ≠ 15)

/-- Check 7: R381. -/
def State.tagStoreBad (s : State) (g : KMap Nat) : Bool :=
  let a := s.gen.active
  (List.range 64).any (fun m => cfgOf a (K.TAG_ENABLE m) == 1
    && (cfgOf g (K.TAG_ENABLE m) ≠ 1 || cfgOf g (K.TAG_OFFSET m) ≠ cfgOf a (K.TAG_OFFSET m)) && s.tagsStand m)

/-- Check 9: reason of R438, the lowest that applies. -/
def slotReason (g : KMap Nat) : Nat :=
  let any := fun (f : Nat → Bool) => (List.range 24).any f
  let nv := fun (n : Nat) => cfgOf g (K.LIMIT_MA n) * cfgOf g (K.SHUNT_UOHM n)
  if any (fun n => decide (nv n < 5000000) || decide (50000000 < nv n)) then 1
  else if any (fun n => decide (cfgOf g (K.WARN_LEVEL n) < cfgOf g (K.UV_OFF n) + 2000)) || decide (cfgOf g K.VBUS_WARN_LEVEL < 35000) then 2
  else if any (fun n => decide (cfgOf g (K.RAMP_TIMEOUT n) * cfgOf g (K.RAMP_RATE n) < 75000)) then 3
  else 0

/-- The nine checks of R493 in order: the number of the first that fails, 0 for none, and the state with its reason. -/
def State.commitChecks (s : State) (g : KMap Nat) : Nat × State :=
  let gang := (List.range 96).filter (fun p => s.gangReason g p ≠ 0)
  if !gang.isEmpty then (1, gang.foldl (fun (t : State) p => t.setO (K.GANG_REFUSAL p) (s.gangReason g p)) s)
  else if limitsBad g then (2, s)
  else if s.windowReason g ≠ 0 then (3, s.setO K.LAST_REFUSAL (s.windowReason g))
  else if s.freezeReason g ≠ 0 then (4, s.setO K.FRZ_COMMIT_REFUSAL (s.freezeReason g))
  else if s.apertureBad g then (5, s)
  else if trafficReason g ≠ 0 then (6, s.setO K.TRAFFIC_REFUSAL (trafficReason g))
  else if s.tagStoreBad g then (7, s)
  else if guardsDiffer s.gen.active g && !s.epochFree then (8, s)
  else if slotReason g ≠ 0 then (9, s.setO K.SLOT_REFUSAL (slotReason g))
  else (0, s)

/-! ### Commit, confirm, roll back, discard -/

/-- The draft is no more (R492). -/
def State.dropDraft (s : State) : State :=
  ((({ s with gen := { s.gen with draft := [], staged := [] } } : State).setO K.DRAFT_STATE 0).setO K.DRAFT_OWNER 0).setO
    K.DRAFT_CHANGES 0

/-- A refused commit (GEN_LAST_ABORT). -/
def State.commitRefused (s : State) (code detail : Nat) : OdAns × State :=
  (odNo code detail, s.setO K.GEN_LAST_ABORT code)

/-- GEN_COMMIT's own rule (R493). With no draft open there is no owner, and 0x0604 names the case. -/
def ownGenCommit (sid : Nat) (s : State) : OdAns × State :=
  if s.o K.DRAFT_STATE ≠ 1 then s.commitRefused 0x0604 0
  else if s.o K.DRAFT_OWNER ≠ sid then s.commitRefused 0x0603 0
  else if s.o K.GEN_STATE ≠ 0 then s.commitRefused 0x0602 0
  else if s.hubHeld then s.commitRefused 0x0503 0
  else
    match s.commitChecks s.gen.draft with
    | (0, s) =>
      let gd := if guardsDiffer s.gen.active s.gen.draft then { s.gd with genAt := some s.tm.ticks } else s.gd
      let g : Gen := { s.gen with committed := s.gen.draft, commitDue := true, readyTick := s.tm.ticks }
      (odOk, ({ s with gen := g, gd := gd } : State).dropDraft.setO K.GEN_STATE 2)
    | (n, s) => s.commitRefused 0x0601 n

/-- GEN_COMMIT (R493): a write of the object. -/
def execGenCommit (sess : SessRef) (v : Byte) (s : State) : Host.Outcome State Fault Refusal :=
  .next (s.odCommand sess K.GEN_COMMIT 1 v.toNat (ownGenCommit sess))

/-- A rollback is due: GEN_STATE is 2 and item 7 of a later tick publishes it (R496). -/
def State.rollbackNow (s : State) : State :=
  let gd := if guardsDiffer s.gen.active s.gen.prev then { s.gd with genAt := some s.tm.ticks } else s.gd
  ({ s with gen := { s.gen with rollbackDue := true, readyTick := s.tm.ticks }, gd := gd } : State).setO K.GEN_STATE 2

/-- The confirmation timer has expired by now (R496, R498). -/
def State.confirmOver (s : State) : Bool := s.o K.GEN_STATE == 1 && decide (s.gen.confirmAt ≤ s.now)

/-- GEN_CONFIRM's own rule (R495, R498). -/
def ownGenConfirm (s : State) : OdAns × State :=
  if s.confirmOver then (odNo 0x0604, s.rollbackNow)
  else if s.o K.GEN_STATE ≠ 1 then (odNo 0x0604, s)
  else
    let g : Gen := { s.gen with flash := s.gen.active, flashNum := s.o K.GEN_ACTIVE, flashPrev := s.gen.prev, flashPrevNum := s.o K.GEN_PREV, flashKept := s.o K.PREV_KEPT == 1 }
    (odOk, ({ s with gen := g } : State).setO K.GEN_STATE 0)

/-- GEN_CONFIRM (R495): a write of the object. -/
def execGenConfirm (sess : SessRef) (v : Byte) (s : State) : Host.Outcome State Fault Refusal :=
  .next (s.odCommand sess K.GEN_CONFIRM 1 v.toNat ownGenConfirm)

/-- GEN_ROLLBACK's own rule (R496). -/
def ownGenRollback (s : State) : OdAns × State :=
  if s.confirmOver then (odNo 0x0602, s.rollbackNow)
  else if s.o K.GEN_STATE == 2 then (odNo 0x0602, s)
  else if s.o K.PREV_KEPT ≠ 1 then (odNo 0x0604, s)
  else (odOk, s.rollbackNow)

/-- GEN_ROLLBACK (R496): a write of the object. -/
def execGenRollback (sess : SessRef) (v : Byte) (s : State) : Host.Outcome State Fault Refusal :=
  .next (s.odCommand sess K.GEN_ROLLBACK 1 v.toNat ownGenRollback)

/-- DRAFT_DISCARD's own rule (R492): the owner only. -/
def ownDraftDiscard (sid : Nat) (s : State) : OdAns × State :=
  if s.o K.DRAFT_STATE ≠ 1 then (odNo 0x0604, s)
  else if s.o K.DRAFT_OWNER ≠ sid then (odNo 0x0603, s)
  else (odOk, s.dropDraft)

/-- DRAFT_DISCARD (R492): a write of the object. -/
def execDraftDiscard (sess : SessRef) (v : Byte) (s : State) : Host.Outcome State Fault Refusal :=
  .next (s.odCommand sess K.DRAFT_DISCARD 1 v.toNat (ownDraftDiscard sess))

/-- CONFIRM_TIMER_EXPIRY (R496): an unconfirmed generation is to be rolled back. -/
def execConfirmTimerExpiry (s : State) : Host.Outcome State Fault Refusal :=
  .next (if s.o K.GEN_STATE ≠ 1 || !s.islandUp then s else (s.advance s.gen.confirmAt).rollbackNow)

/-- DRAFT_IDLE_EXPIRY (R492): DRAFT_IDLE has passed since the owner's last RWS write. -/
def execDraftIdleExpiry (s : State) : Host.Outcome State Fault Refusal :=
  .next (if s.o K.DRAFT_STATE ≠ 1 || !s.islandUp then s
    else (s.advance (s.gen.draftAt + s.o K.DRAFT_IDLE * 1000 * Config.ms)).dropDraft)

/-! ### Publication (R33, R494, R496) -/

/-- Before the contents change: ports that lose or gain quads go down as at a port reset (R284); buckets of pairs and ports
whose rates change keep what they hold (R223). -/
def State.beforeSwitch (s : State) (new : KMap Nat) : State :=
  let old := s.gen.active
  let ch := fun (k : Nat) => decide (cfgOf old k ≠ cfgOf new k)
  let s := ((List.range 96).filter (fun p => quadsIn old p ≠ quadsIn new p && !memberIn old p)).foldl (fun (s : State) p => s.portDown p .reset) s
  let rate := fun (k : Nat) => ch (K.SHP_CIR k) || ch (K.SHP_CBS k) || ch (K.SHP_PBS k) || ch (K.SHP_PIR k)
  let s := (old.filter (fun e => ixIn e.1 0x2280 64 && decide (1 ≤ e.1 % 256) && decide (e.1 % 256 ≤ 64) && e.2 ≠ 0)).foldl
    (fun (s : State) e => let pr := (e.1 / 256 - 0x2280) * 64 + (e.1 % 256 - 1)
      if rate e.2 || ch e.1 then s.setShaper pr (s.shaper pr) else s) s
  (List.range 96).foldl (fun (s : State) p =>
    if s.cB (K.POL_ENABLE p) && (ch (K.POL_CIR p) || ch (K.POL_PIR p) || ch (K.POL_CBS p) || ch (K.POL_PBS p)) then s.setPolicer p (s.policer p) else s) s

/-- A window that is initialised, or exists no more, names nobody: no departure from it is pending. -/
def State.noDepartures (s : State) (w : Nat) : State :=
  ({ s with cr := { s.cr with departed := KMap.keep (fun k => k % 16 ≠ w) s.cr.departed } } : State).showDepartures

/-- Window w after a publication (R82, R83, R120): a window that comes to exist, or that moves while it has no hosts, is
initialised; one that ceases is DISABLED; a host taken out of HOSTS departs. -/
def State.switchWindow (s : State) (old : KMap Nat) (w : Nat) : State :=
  let new := s.gen.active
  let gone := (bitList 64 (cfgOf old (K.HOSTS w))).filter (fun h => winOn old w && !(winOn new w && bit (cfgOf new (K.HOSTS w)) h))
  let s := gone.foldl (fun (s : State) h =>
    let k := 64 + h * 16 + w
    if s.hubHeld then s
    else { s with cr := { s.cr with leaving := KMap.upd none s.cr.leaving k (fun x => some (x.getD s.ord.nextTxn)) } }) s
  if winOn new w then
    if !winOn old w || (windowShape w).any (fun k => cfgOf old k ≠ cfgOf new k) then
      ((s.noDepartures w).updWin w (fun _ => {})).setWinState w 1
    else s
  else if winOn old w then ((s.noDepartures w).updWin w (fun _ => {})).setWinState w 0
  else s

/-- Target m's tag store after a publication (R381). -/
def State.switchTags (s : State) (old : KMap Nat) (m : Nat) : State :=
  let new := s.gen.active
  let on := fun (g : KMap Nat) => cfgOf g (K.TAG_ENABLE m) == 1
  if on new && !on old then
    ({ s with gd := { s.gd with filling := KMap.set false s.gd.filling m true } } : State).setO (K.TAG_STATE m) 1
  else if on old && !on new then
    ({ s with gd := { s.gd with
        filling := KMap.set false s.gd.filling m false
        tag := s.gd.tag.filter (fun e => e.1 / 2 ^ 33 ≠ m)
        tagOld := s.gd.tagOld.filter (fun e => e.1 / 2 ^ 33 ≠ m) } } : State).setO (K.TAG_STATE m) 0
  else if on new && cfgOf old (K.TAG_OFFSET m) ≠ cfgOf new (K.TAG_OFFSET m) then s.setO (K.TAG_STATE m) 1
  else s

/-- After the contents have changed: what the chapters give at a publication. -/
def State.afterSwitch (s : State) (old : KMap Nat) : State :=
  let new := s.gen.active
  let ch := fun (k : Nat) => decide (cfgOf old k ≠ cfgOf new k)
  let s := (List.range 16).foldl (fun (s : State) w => s.switchWindow old w) s
  let s := if ch K.FORCE_FULLING && s.cB K.FORCE_FULLING then s.enterFulling 4 else s
  let s := ((changedKeys old new).filter (fun k => ixIn k 0x2280 64 && decide (1 ≤ k % 256) && decide (k % 256 ≤ 64))).foldl
    (fun (s : State) k => if cfgOf old k == 0 || cfgOf new k == 0
      then { s with pl := { s.pl with shaper := KMap.erase s.pl.shaper ((k / 256 - 0x2280) * 64 + (k % 256 - 1)) } } else s) s
  let s := (List.range 96).foldl (fun (s : State) p => if ch (K.POL_ENABLE p) && s.cB (K.POL_ENABLE p)
      then { s with pl := { s.pl with policer := KMap.erase s.pl.policer p } } else s) s
  let s := (List.range 24).foldl (fun (s : State) n => if ch (K.LIMIT_MA n) then s.limitPublished n else s) s
  let s := if ch K.FM_HOST then s.regrade else s
  let s := (List.range 64).foldl (fun (s : State) m => s.switchTags old m) s
  let s := (List.range 96).foldl (fun (s : State) p =>
    let n := s.o (K.SLOT p)
    if n < 24 && ch (K.SLOT_PWR_LIMIT_W n) && s.linkUp p then s.sendPowerLimit p else s) s
  let s := ((List.range 96).filter (fun p => quadsIn old p ≠ quadsIn new p && !memberIn new p)).foldl (fun (s : State) p => s.startTraining p) s
  s.updCtState

/-- A generation becomes active. -/
def State.switchTo (s : State) (new : KMap Nat) : State :=
  let s := s.beforeSwitch new
  let old := s.gen.active
  let n := s.o K.GEN_ACTIVE
  ({ s with gen := { s.gen with active := new, published := true, old := KMap.set none s.gen.old n (some old),
                                switched := some (s.now, n) } } : State).afterSwitch old

/-- A committed generation is published (R494). -/
def State.publishCommit (s : State) : State :=
  let n := s.o K.GEN_ACTIVE
  let old := s.gen.active
  let s := s.switchTo s.gen.committed
  let g : Gen := { s.gen with prev := old, committed := [], commitDue := false, confirmAt := s.now + s.o K.CONFIRM_TIME * Config.ms }
  let s := ((({ s with gen := g } : State).setO K.GEN_ACTIVE (n + 1)).setO K.GEN_PREV n).setO K.PREV_KEPT 1
  ((s.setO K.GEN_STATE 1).setO K.GEN_CT s.ct).raiseCore 587 0 1

/-- A rollback is published (R496). -/
def State.publishRollback (s : State) : State :=
  let n := s.o K.GEN_ACTIVE
  let s := s.switchTo s.gen.prev
  let g : Gen := { s.gen with
    prev := [], rollbackDue := false, flash := s.gen.active, flashNum := n + 1, flashPrev := [], flashPrevNum := 0, flashKept := false }
  let s := ((({ s with gen := g } : State).setO K.GEN_ACTIVE (n + 1)).setO K.GEN_PREV 0).setO K.PREV_KEPT 0
  let s := ((s.setO K.GEN_STATE 0).setO K.GEN_CT s.ct).incO K.GEN_ROLLBACKS
  s.dropDraft.raiseCore 587 0 2

/-- A publication waits: for a later tick than the one it became ready in, for a tick that is no overrun, for the hub, and
for the counts of R394. -/
def State.genHeld (s : State) : Bool :=
  s.hubHeld || s.tm.overrun || !s.itemRuns 7 || decide (s.tm.ticks ≤ s.gen.readyTick) || (s.gd.genAt.isSome && !s.nextEpochClear)

/-- GENERATION_PUBLISH (R33): item 7 publishes what is due, with its guard epoch (R393). -/
def execGenerationPublish (s : State) : Host.Outcome State Fault Refusal :=
  if !(s.gen.commitDue || s.gen.rollbackDue) || s.genHeld then .next s
  else
    let epoch := s.gd.genAt.isSome
    let s := s.advance (s.itemAt 7)
    let s := if s.gen.commitDue then s.publishCommit else s.publishRollback
    let s := if epoch then s.publishEpoch else s
    .next s.updCoreReady.updPortsReady

/-- GUARD_EPOCH_PUBLISH (R393): item 7 publishes the slice sets and tags that are due. A generation due in the same tick
takes them with it (GENERATION_PUBLISH). -/
def execGuardEpochPublish (s : State) : Host.Outcome State Fault Refusal :=
  if s.hubHeld || s.tm.overrun || !s.itemRuns 7 || s.dueNow s.gd.genAt || !s.nextEpochClear then .next s
  else if s.dueNow s.gd.sliceAt || s.dueNow s.gd.tagAt then .next (s.advance (s.itemAt 7)).publishEpoch
  else .next s

/-! ### Data-path images (R547 steps 10 and 11) -/

/-- DATA_PATH_IMAGES_LOADED (R547): the images of parts 1 to 4 are verified and
loaded, a part whose active bank fails runs its other one, the confirmed generation is in force,
enabled windows that are not yet initialised begin it (R113), and training starts on every port. -/
def execDataPathImagesLoaded (s : State) : Host.Outcome State Fault Refusal :=
  if s.hubHeld || s.gen.published || s.st.recovery then .next s
  else
    let s := [1, 2, 3, 4].foldl (fun (s : State) k => match (s.part k).active with
      | some i => if s.mayRun k i then s else s.fallBack k
      | none => s) s
    let s : State := { s with gen := { s.gen with published := true } }
    let s := (List.range 16).foldl (fun (s : State) w => if winOn s.gen.active w && s.o (K.STATE w) == 0 then s.setWinState w 1 else s) s
    let s := (List.range 96).foldl (fun (s : State) p => s.startTraining p) s
    .next s.updCtState.updCoreReady.updPortsReady

end Sys2Proof.Machine
end

