-- ==== Sys2Proof/Machine/Seam.lean ====
section
/-!
DEFINITION. The seam links: units, sequence and retransmission, credits, retrain, the timing strand, wires and sparing,
down strands and held traffic (R303-R340).
-/
namespace Sys2Proof.Machine

/-! ### Events of strands (R338) -/

/-- Event block of strand k of seam sm, direction d. -/
def strandBlock (sm d k : Nat) : Nat := 384 + 18 * sm + 2 * k + d

/-- A strand raises its event. -/
def State.strandRaise (s : State) (sm d k cls code : Nat) : State :=
  s.raise (strandBlock sm d k) cls code false { master := 0x84 + sm }

/-- One seam. -/
def State.seam (s : State) (sm : Nat) : Seam := KMap.get {} s.seams.seam sm

/-- Update one seam. -/
def State.updSeam (s : State) (sm : Nat) (f : Seam → Seam) : State :=
  { s with seams := { s.seams with seam := KMap.upd {} s.seams.seam sm f } }

/-- A retrain is asked for; `leak` for a credit shortfall (R320, R322, R324). The earliest decision counts. -/
def State.askRetrain (s : State) (sm : Nat) (leak : Bool) : State :=
  s.updSeam sm (fun x => { x with retrainDue := true, leak := x.leak || leak, dueTick := if x.retrainDue then x.dueTick else s.tm.ticks })

/-- A retrain that starts at once: a strand has returned (R324, R332). -/
def State.askRetrainNow (s : State) (sm : Nat) : State := (s.askRetrain sm false).updSeam sm (fun x => { x with atOnce := true })

/-- A strand carries units: up or retraining. -/
def Strand.carries (x : Strand) : Bool := x.status == 2 || x.status == 3

/-- The seam is being used: its tile and the hub are out of reset. -/
def State.seamLive (s : State) (sm : Nat) : Bool := !s.tileHeld sm

/-! ### Sequence numbers (R310-R312) -/

/-- Distance from `n` to `seq` modulo 4,096. -/
def seqDist (seq n : Nat) : Nat := (seq + 4096 - n % 4096) % 4096

/-- A unit is delivered or stored. -/
def SeamDir.has (x : SeamDir) (seq : Nat) : Bool :=
  decide (2048 ≤ seqDist seq x.nextDel) || (KMap.get none x.store seq).isSome

/-- Units that an ACK covers leave the replay buffer (R310). -/
def SeamDir.acked (ack : Nat) (x : SeamDir) : SeamDir :=
  { x with replay := x.replay.filter (fun u => decide (2048 ≤ seqDist u.seq (ack + 1)) == false),
           resend := x.resend.filter (fun q => decide (2048 ≤ seqDist q (ack + 1)) == false) }

/-- A NAK asks for one more launch of a unit still in the replay buffer (R315). -/
def SeamDir.nakked (nak : Nat) (x : SeamDir) : SeamDir :=
  if x.replay.any (·.seq == nak) then { x with resend := x.resend ++ [nak] } else x

/-- A pool's return count comes back (R318). -/
def SeamDir.credited (pc : Nat × Nat) (x : SeamDir) : SeamDir :=
  if pc.2 == 0 then x else { x with credit := KMap.upd 0 x.credit pc.1 (· - pc.2) }

/-! ### Launching (R306, R309, R311, R315, R316) -/

/-- Bytes of an item in a unit (R306). -/
def itemBytes (it : Item) : Nat := 12 + (it.cell.bytes + 3) / 4 * 4

/-- The items at the front that fit in one unit: at most 16 and 256 bytes (R305, R306). -/
def fitting : Nat → Nat → List Item → List Item
  | 0, _, _ => []
  | _, _, [] => []
  | n + 1, room, it :: l => if itemBytes it ≤ room then it :: fitting n (room - itemBytes it) l else []

/-- Up to two credit returns for a unit: pool and count, at most 63 each (R305). -/
def takeReturns (ret : KMap Nat) : (Nat × Nat) × (Nat × Nat) :=
  match ret with
  | [] => ((0, 0), (0, 0))
  | [(p, n)] => ((p, min n 63), (0, 0))
  | (p, n) :: (q, m) :: _ => ((p, min n 63), (q, min m 63))

/-- Direction d's unit takes along what the other direction's receiver owes: credit returns, ACK, NAK (R316, R318). -/
def State.launchReturns (s : State) (sm d : Nat) : ((Nat × Nat) × (Nat × Nat)) × State :=
  let r := takeReturns (s.sdir sm (1 - d)).ret
  (r, s.updSdir sm (1 - d) (fun x => { x with
    ret := KMap.upd 0 (KMap.upd 0 x.ret r.1.1 (· - r.1.2)) r.2.1 (· - r.2.2), ackDue := false, nakDue := none }))

/-- Cells in the receiver's reserve: those beyond the allotments of their pools (R322). -/
def SeamDir.reserve (d : Nat) (x : SeamDir) : Nat := (x.pool.map (fun e => e.2 - allotment d e.1)).sum

/-- SEAM_UNIT_LAUNCH (R309-R311, R315, R322): a retransmission first; else, outside a retrain, with less than 1,024 units
unacknowledged and room in the reserve, a new unit with every item that fits. -/
def execSeamUnitLaunch (sm : TileIx) (d : Fin 2) (k : Fin 8) (s : State) : Host.Outcome State Fault Refusal :=
  if !s.seamLive sm || !(s.strandOf sm d k).carries then .next s
  else
    let x := s.sdir sm d
    let sent := fun (s : State) => s.updStrand sm d k (fun y => { y with sentAt := s.now })
    match x.resend with
    | q :: rest =>
      let relaunch := fun (u : Sent) => if u.seq == q then { u with at_ := s.now, strand := k.val } else u
      let s := (sent s).updSdir sm d (fun x => { x with resend := rest, replay := x.replay.map relaunch, lastOn := KMap.set none x.lastOn k (some q) })
      .next (if x.replay.any (·.seq == q) then s.incO (K.UNITS_REPLAYED sm) else s)
    | [] =>
      let items := fitting 16 256 x.ready
      if (s.seam sm).retraining || 1024 ≤ x.replay.length || 64 ≤ x.reserve d || items.isEmpty then .next s
      else
        let r := (sent s).launchReturns sm d
        let u : Sent := { seq := x.nextSeq, items := items, cr0 := r.1.1, cr1 := r.1.2, at_ := s.now, strand := k.val }
        .next (r.2.updSdir sm d (fun x => { x with
          nextSeq := (x.nextSeq + 1) % 4096, replay := x.replay ++ [u], ready := x.ready.drop items.length,
          lastOn := KMap.set none x.lastOn k (some x.nextSeq) }))

/-- A control unit leaves on strand k of direction d with what is owed (R316, R318). -/
def State.launchControl (s : State) (sm d k : Nat) : State :=
  if !s.seamLive sm || !(s.strandOf sm d k).carries then s
  else ((s.launchReturns sm d).2).updStrand sm d k (fun y => { y with sentAt := s.now })

/-- SEAM_ACK_UNIT_SEND (R316). -/
def execSeamAckUnitSend (sm : TileIx) (d : Fin 2) (k : Fin 8) (s : State) : Host.Outcome State Fault Refusal :=
  .next (s.launchControl sm d k)

/-- KEEPALIVE_SEND (R330): on a strand that has launched nothing for 256 ns; KA_HOLD suppresses it (R340). -/
def execKeepaliveSend (sm : TileIx) (d : Fin 2) (k : Fin 8) (s : State) : Host.Outcome State Fault Refusal :=
  let x := s.strandOf sm d k
  if x.kaHold || !x.carries then .next s
  else .next ((s.advance (x.sentAt + 256000)).launchControl sm d k)

/-- CHECK_SEND (R319): for the direction opposite to d, at a tick boundary at which one of its pools is empty. -/
def execCheckSend (sm : TileIx) (d : Fin 2) (k : Fin 8) (s : State) : Host.Outcome State Fault Refusal :=
  .next (s.launchControl sm d k)

/-- SEAM_REPLAY_TIMER_EXPIRY (R314): 64 ns without an ACK. -/
def execSeamReplayTimerExpiry (sm : TileIx) (d : Fin 2) (seq : BitVec 12) (s : State) : Host.Outcome State Fault Refusal :=
  match (s.sdir sm d).replay.find? (·.seq == seq.toNat) with
  | none => .next s
  | some u => .next ((s.advance (u.at_ + 64000)).updSdir sm d (fun x => { x with resend := x.resend ++ [seq.toNat] }))

/-! ### Delivery (R307, R308, R313, R322) -/

/-- The cell that the receiver rebuilds from an item, its reserved bits zero (R308). -/
def rebuilt (it : Item) : Cell := { it.cell with mcast := false, mcidx := 0, rsv := 0 }

/-- Items from byte `off` of the payload on, each with whether its padded length stays within the payload (R308). -/
def itemsFit (off : Nat) : List Item → List (Bool × Item)
  | [] => []
  | it :: l => (decide (off + itemBytes it ≤ 256), it) :: itemsFit (off + itemBytes it) l

/-- Pool of an item (R317); none for an illegal CLASS or DEST. -/
def itemPool (d : Nat) (it : Item) : Option Nat :=
  if it.cell.cls = .sys then none
  else if it.dest < 24 then some (poolOf it.dest it.cell.cls)
  else if it.dest == 32 then some 72
  else if it.dest == 33 && d == 0 then some 73
  else none

/-- A request's last cell reaches the crown's intake (R317). -/
def State.crownIntake (s : State) (sm : Nat) (c : Cell) : State :=
  if !c.eop then s
  else match KMap.get none s.cr.coming c.req with
    | none => s.poolLeave sm 0 72
    | some r =>
      { s with cr := { s.cr with coming := KMap.set none s.cr.coming c.req none, inbound := KMap.upd [] s.cr.inbound sm (· ++ [r]) } }

/-- An item enters its pool (R313); one without room stands in the reserve, a contained fault (R322). An illegal CLASS or DEST, a reserved
bit or a length past the payload fails syndrome 0x05 (R308). -/
def State.deliverItem (s : State) (sm d : Nat) (fits : Bool) (it : Item) : State :=
  let c := rebuilt it
  match if fits && it.cell.rsv == 0 then itemPool d it else none with
  | none => s.headerFault d 5 c
  | some p =>
    let full := decide (allotment d p ≤ KMap.get 0 (s.sdir sm d).pool p)
    let s := s.updSdir sm d (fun x => { x with pool := KMap.upd 0 x.pool p (· + 1) })
    let s := if full then (s.strandRaise sm d 0 2 9).askRetrain sm true else s
    if d == 0 then
      if it.dest < 24 then s.land (24 * sm + it.dest) c
      else if it.dest == 32 then s.crownIntake sm c
      else s.poolLeave sm d p
    else if it.dest < 24 then (s.poolLeave sm d p).arriveEgress c
    else s.brimIntake c

/-- Deliver units in SEQ order until one is missing: at most `fuel` (R313). -/
def State.deliverUnits (s : State) (sm d : Nat) : Nat → State
  | 0 => s
  | fuel + 1 =>
    let x := s.sdir sm d
    match KMap.get none x.store x.nextDel with
    | none => s
    | some u =>
      let s := s.updSdir sm d (fun x => { x with store := KMap.set none x.store x.nextDel none, nextDel := (x.nextDel + 1) % 4096, ackDue := true })
      let s := s.updSdir sm (1 - d) (fun x => (x.credited u.cr0).credited u.cr1)
      ((itemsFit 0 u.items).foldl (fun (s : State) e => s.deliverItem sm d e.1 e.2) s).deliverUnits sm d fuel

/-- PREV of a unit names a unit that has neither been delivered nor stored: a NAK is pending (R314). -/
def State.prevCheck (s : State) (sm d : Nat) (prev : Option Nat) : State :=
  match prev with
  | some q => if (s.sdir sm d).has q then s else s.updSdir sm d (fun x => { x with nakDue := some q })
  | none => s

/-- A DATA unit with a good UCRC (R312). -/
def State.dataUnit (s : State) (sm d k : Nat) (u : SeamUnit) : State :=
  let dist := seqDist u.seq (s.sdir sm d).nextDel
  if dist ≤ 1023 then
    let s := s.updSdir sm d (fun x => if (KMap.get none x.store u.seq).isSome then x
      else { x with store := KMap.set none x.store u.seq (some { items := u.items, cr0 := u.cr0, cr1 := u.cr1 }) })
    let s := s.prevCheck sm d u.prev
    let s := s.maxO (K.REORDER_HIGH_WATER sm) ((s.sdir sm d).store.length - (if dist == 0 then 1 else 0))
    s.deliverUnits sm d (s.sdir sm d).store.length
  else if 3072 ≤ dist then
    ((s.updSdir sm d (fun x => { x with ackDue := true })).incO (K.DUP_DISCARDS sm)).prevCheck sm d u.prev
  else s.strandRaise sm d k 2 2

/-- Pattern errors of a control unit's wires (R329): a wire with 8 of them in 1,024 units is marked bad. -/
def Strand.patterns (wires : List Nat) (x : Strand) : Strand :=
  let n := x.ctl + 1
  let note := fun (m : KMap (List Nat)) w => KMap.upd [] m w (fun l => (n :: l).filter (fun j => decide (n < j + 1024)))
  let errs := wires.foldl note x.wireErr
  let bad := (wires.filter (fun w => decide (8 ≤ (KMap.get [] errs w).length) && !x.bad.contains w)).eraseDups
  { x with ctl := n, wireErr := errs, bad := x.bad ++ bad }

/-- A control unit's pattern (R329): a wire newly marked bad asks for a retrain. -/
def State.controlUnit (s : State) (sm d k : Nat) (u : SeamUnit) : State :=
  let before := (s.strandOf sm d k).bad.length
  let inj := (s.strandOf sm d k).wire
  let wires := if inj < 66 then inj :: u.wireErrors.filter (· ≠ inj) else u.wireErrors
  let s := s.updStrand sm d k (Strand.patterns wires)
  let s := if before < (s.strandOf sm d k).bad.length then s.askRetrain sm false else s
  s.updSdir sm (1 - d) (fun x => (x.credited u.cr0).credited u.cr1)

/-- A unit's fields are as R305 allows (R12 to R16): 1 to 16 items in a DATA unit, none in another;
SEQ and BODY zero where the type has none; reserved bits zero. -/
def unitWellFormed (u : SeamUnit) : Bool :=
  u.type ≠ .bad && u.rsv == 0
    && (if u.type = .data then decide (1 ≤ u.items.length) && decide (u.items.length ≤ 16) else u.items.isEmpty && u.seq == 0)
    && (u.type = .check || (u.empty == 0 && u.asOf == 0 && u.retThru == 0))

/-- ACK and NAK of a good unit act on the sender of the other direction (R315, R316). -/
def State.ackNak (s : State) (sm d : Nat) (u : SeamUnit) : State :=
  let s := match u.ack with
    | some a => s.updSdir sm (1 - d) (SeamDir.acked a)
    | none => s
  match u.nak with
  | some n =>
    (s.updSdir sm (1 - d) (SeamDir.nakked n)).updSeam sm (fun x => if d == 0 then { x with nakDown := n } else { x with nakUp := n })
  | none => s

/-- SEAM_DIAG and EVT_BLKnnn_INJ are one control of CHK 0 (R463): the block's MODE follows the strand's bits. -/
def State.diagMirror (s : State) (sm d k : Nat) : State :=
  let x := s.strandOf sm d k
  let n := strandBlock sm d k
  let v := (s.blk n).inj
  let mode := if x.injAll then 2 else if x.injOnce then 1 else 0
  s.setBlk n { s.blk n with inj := v / 32 * 32 + mode * 8 }

/-- A unit on strand k is inverted by a diagnostic (R340, R463); once mode is used up. -/
def State.unitInverted (s : State) (sm d k : Nat) : Bool × State :=
  let x := s.strandOf sm d k
  let n := strandBlock sm d k
  if x.injOnce then
    let s := (s.updStrand sm d k (fun y => { y with injOnce := false })).diagMirror sm d k
    (true, s.setBlk n { s.blk n with inj := setBit (s.blk n).inj 5 true })
  else (x.injAll, s)

/-- The HCRC of a unit's first item is inverted by CHK 1 of the strand's block (R463). -/
def State.itemInverted (s : State) (sm d k : Nat) (u : SeamUnit) : SeamUnit × State :=
  match s.injFire (strandBlock sm d k) 1, u.items with
  | (0, s), _ => (u, s)
  | (_, s), it :: l => ({ u with items := { it with cell := { it.cell with hcrc := Nat.xor it.cell.hcrc 1 } } :: l }, s)
  | (_, s), [] => (u, s)

/-- SEAM_UNIT_RECEIVE (R312-R319, R329): a unit arrives on strand k of direction d. DESIGN CHOICE: a unit with a good UCRC whose
fields break R305 or R306 is discarded whole like one whose UCRC fails, with the same syndrome (R12 to R16 give it no code). -/
def execSeamUnitReceive (sm : TileIx) (d : Fin 2) (k : Fin 8) (u : SeamUnit) (s : State) : Host.Outcome State Fault Refusal :=
  if !s.seamLive sm || !(s.strandOf sm d k).carries then .next s
  else
    let i := s.unitInverted sm d k
    let s := i.2
    if i.1 || !u.crcOk then .next ((s.incO (K.CRC_ERRORS sm)).strandRaise sm d k 1 1)
    else if !unitWellFormed u then .next (s.strandRaise sm d k 1 1)
    else
      let s := s.updStrand sm d k (fun y => { y with lastAt := s.now })
      let s := s.ackNak sm d u
      match u.type with
      | .data =>
        let v := s.itemInverted sm d k u
        .next (v.2.dataUnit sm d k v.1)
      | .keepalive => .next ((s.controlUnit sm d k u).prevCheck sm d u.prev)
      | .ack => .next (s.controlUnit sm d k u)
      | .check =>
        let s := s.controlUnit sm d k u
        .next (if (s.seam sm).retraining then s
          else s.updSdir sm (1 - d) (fun x => { x with check := some { empty := u.empty, asOf := u.asOf, retThru := u.retThru } }))
      | .train => .next s
      | .bad => .next s

/-! ### Credit checks and retrain (R319, R320, R322-R324) -/

/-- Cells of a pool in units after `asOf`, and cells that hold a credit and wait to be launched. -/
def SeamDir.sentAfter (d pool asOf : Nat) (x : SeamDir) : Nat :=
  let mine := fun (l : List Item) => (l.filter (fun it => itemPool d it == some pool)).length
  ((x.replay.filter (fun u => decide (seqDist u.seq (asOf + 1) < 2048))).map (fun u => mine u.items)).sum + mine x.ready

/-- Shortfall of a pool reported empty (R319). -/
def SeamDir.shortfall (d pool asOf : Nat) (x : SeamDir) : Int :=
  let held : Int := ((allotment d pool : Nat) : Int) - ((KMap.get 0 x.credit pool : Nat) : Int)
  ((allotment d pool : Nat) : Int) - held - ((x.sentAfter d pool asOf : Nat) : Int)

/-- CHECK_EVALUATE (R319, R320): once RET_THRU has been delivered in the sender's own receive path. -/
def execCheckEvaluate (sm : TileIx) (d : Fin 2) (s : State) : Host.Outcome State Fault Refusal :=
  let x := s.sdir sm d
  match x.check with
  | none => .next s
  | some c =>
    if (s.seam sm).retraining || decide (seqDist c.retThru (s.sdir sm (1 - d.val)).nextDel < 2048) then .next s
    else
      let pools := (bitList 74 c.empty).map (fun p => (p, x.shortfall d p c.asOf))
      let s := s.updSdir sm d (fun x => { x with check := none })
      let neg := pools.any (fun e => decide (e.2 < 0))
      let big := pools.any (fun e => decide (((allotment d e.1 + 3) / 4 : Nat) ≤ e.2))
      let worst := (pools.map (fun e => min 100 (e.2.toNat * 100 / max 1 (allotment d e.1)))).foldl max 0
      let s := s.setO (if d.val == 0 then K.SHORTFALL_UP sm else K.SHORTFALL_DN sm) worst
      let s := if neg then s.strandRaise sm d 0 2 9 else s
      .next (if neg || big then s.askRetrain sm true else s)

/-- A direction of a seam has a data strand that carries. -/
def State.dirAlive (s : State) (sm d : Nat) : Bool := (List.range 8).any (fun k => (s.strandOf sm d k).carries)

/-- A quiet boundary (R320): no DATA unit is unacknowledged and no cell waits to cross, in either direction. -/
def State.seamQuiet (s : State) (sm : Nat) : Bool :=
  (List.range 2).all (fun d => (s.sdir sm d).replay.isEmpty && (s.sdir sm d).ready.isEmpty)
    && s.pl.voq.all (fun e => e.2.isEmpty || e.1 % 4 == 0 || e.1 / 4 / 96 / 24 ≠ sm)
    && s.pl.egress.all (fun e => e.2.isEmpty || e.1 % 4 == 0 || e.1 / 4 / 24 ≠ sm)
    && s.pl.toCrown.all (fun e => e.2.isEmpty || e.1 / 24 ≠ sm)

/-- A retrain that is due may start (R320, R324, R337): at once after a strand's return, at a quiet boundary, or at the 16th boundary
after the decision; with every data strand of a direction down it waits. -/
def State.retrainMay (s : State) (sm : Nat) : Bool :=
  let x := s.seam sm
  s.seamLive sm && x.retrainDue && !x.retraining && s.dirAlive sm 0 && s.dirAlive sm 1
    && (x.atOnce || s.seamQuiet sm || decide (x.dueTick + 16 ≤ s.tm.ticks))

/-- SEAM_RETRAIN_START (R320, R323): strands that are up enter retraining; no new DATA unit is launched. -/
def execSeamRetrainStart (sm : TileIx) (s : State) : Host.Outcome State Fault Refusal :=
  if !s.retrainMay sm then .next s
  else
    let s := s.updSeam sm (fun x => { x with retrainDue := false, atOnce := false, retraining := true })
    .next ((List.range 2).foldl (fun (s : State) d => (List.range 8).foldl (fun (s : State) k =>
      s.updStrand sm d k (fun y => if y.status == 2 then { y with status := 3 } else y)) s) s)

/-- A strand after its wires were checked (R329): bad wires go onto its spares; three or more stop it. -/
def State.spareStrand (s : State) (sm d k : Nat) : State :=
  let x := s.strandOf sm d k
  let n := x.bad.length
  if n ≤ x.spare then s
  else if n ≤ 2 then (s.updStrand sm d k (fun y => { y with spare := n })).strandRaise sm d k 1 5
  else (s.updStrand sm d k (fun y => { y with status := 0, stopped := true })).strandRaise sm d k 2 6

/-- Credits as the exchange sets them: what the receiver holds and what waits with a credit (R323). -/
def SeamDir.exchanged (x : SeamDir) (d : Nat) : SeamDir :=
  let waiting := x.ready.foldl (fun m it => match itemPool d it with | some p => KMap.upd 0 m p (· + 1) | none => m) x.pool
  { x with credit := waiting, nextSeq := 0, nextDel := 0, lastOn := [], ret := [], check := none, ackDue := false,
           nakDue := none, resend := [], store := [], replay := [] }

/-- Strands that still retrain are up again: an abandoned retrain (R324). -/
def State.endRetrain (s : State) (sm : Nat) : State :=
  (List.range 2).foldl (fun (s : State) d => (List.range 8).foldl (fun (s : State) k =>
    s.updStrand sm d k (fun y => if y.status == 3 then { y with status := 2 } else y)) s) s

/-- A retrain is abandoned when every data strand of a direction is down: the sequence state stays (R324). -/
def State.abandonRetrain (s : State) (sm : Nat) : State :=
  if (s.seam sm).retraining && !(s.dirAlive sm 0 && s.dirAlive sm 1) then
    (s.endRetrain sm).updSeam sm (fun x => { x with retraining := false, leak := false })
  else s

/-- Wires that failed a check go on their strand's record of bad wires (R329). -/
def Strand.noteBad (ws : List Nat) (x : Strand) : Strand := { x with bad := x.bad ++ (ws.filter (fun w => !x.bad.contains w)).eraseDups }

/-- SEAM_RETRAIN_COMPLETE (R323, R324, R329): both replay buffers are empty; credits are exact, SEQ restarts at 0, and the wires `badWires` that
failed their deskew or pattern check, each with its direction and strand, are marked bad. -/
def execSeamRetrainComplete (ended : RetrainEnd) (s : State) : Host.Outcome State Fault Refusal :=
  let sm := ended.sm
  if !(s.seam sm).retraining then .next s
  else
    if !(s.sdir sm 0).replay.isEmpty || !(s.sdir sm 1).replay.isEmpty then .next s
    else
      let leak := (s.seam sm).leak
      let s := (List.range 2).foldl (fun (s : State) d => (List.range 8).foldl (fun (s : State) k =>
        if (s.strandOf sm d k).status == 3 then
          let ws := (ended.badWires.filter (fun e => e.1.val == d && e.2.1.val == k)).map (fun e => e.2.2.val)
          (s.updStrand sm d k (fun y => { y.noteBad ws with status := 2, lastAt := s.now })).spareStrand sm d k
        else s) (s.updSdir sm d (fun x => x.exchanged d))) s
      let s := s.updSeam sm (fun x => { x with retraining := false, leak := false })
      let s := (List.range 2).foldl (fun (s : State) d => if leak then s.strandRaise sm d 0 1 7 else s.strandRaise sm d 0 0 0) s
      .next (if leak then (s.incO (K.RETRAINS sm)).incO (K.LEAK_RETRAINS sm) else s.incO (K.RETRAINS sm))

/-- RETRAIN_NOW's own rule (R324, R329, R332): a retrain is asked for, and strands that were stopped are retried. -/
def ownRetrainNow (sm : Nat) (s : State) : OdAns × State :=
  let s := (List.range 2).foldl (fun (s : State) d => (List.range 9).foldl (fun (s : State) k =>
    s.updStrand sm d k (fun y => { y with stopped := false, retest := y.retest || (y.stopped && decide (3 ≤ y.bad.length)) })) s) s
  (odOk, s.askRetrain sm false)

/-- RETRAIN_NOW (R324). -/
def execRetrainNow (sess : SessRef) (sm : TileIx) (v : Byte) (s : State) : Host.Outcome State Fault Refusal :=
  .next (s.odCommand sess (K.RETRAIN_NOW sm) 1 v.toNat (ownRetrainNow sm))

/-! ### Strands down and back (R329-R333) -/

/-- A seam stops being healthy: the plank falls to fulling mode (R61, R333). -/
def State.seamUnhealthy (s : State) (sm : Nat) : State :=
  if s.o (K.HEALTHY sm) == 1 then (s.setO (K.HEALTHY sm) 0).enterFulling 5 else s

/-- A strand goes down; the fourth time within a second it is not retried (R332). -/
def State.strandFalls (s : State) (sm d k : Nat) : State :=
  let f := fun (y : Strand) =>
    let downs := (s.now :: y.downs).filter (fun t => decide (s.now < t + 1000 * Config.ms))
    ({ y with status := 0, downs := downs, stopped := y.stopped || decide (4 ≤ downs.length) } : Strand)
  (s.updStrand sm d k f).seamUnhealthy sm

/-- SEAM_STRAND_DOWN (R330): 4 µs without a good unit; its unacknowledged units go on other strands. -/
def execSeamStrandDown (sm : TileIx) (d : Fin 2) (k : Fin 8) (s : State) : Host.Outcome State Fault Refusal :=
  let x := s.strandOf sm d k
  if !s.seamLive sm || !x.carries then .next s
  else
    let s := s.advance (x.lastAt + 4 * Config.us)
    let lost := ((s.sdir sm d).replay.filter (·.strand == k.val)).map (·.seq)
    let s := s.updSdir sm d (fun y => { y with resend := y.resend ++ lost })
    .next (((s.strandFalls sm d k).strandRaise sm d k 2 3).abandonRetrain sm)

/-- TIMING_STRAND_DOWN (R331): 500 ns without symbol lock; in the down direction the tile's PLL holds over. -/
def execTimingStrandDown (sm : TileIx) (d : Fin 2) (s : State) : Host.Outcome State Fault Refusal :=
  if !s.seamLive sm || (s.strandOf sm d 8).status ≠ 2 then .next s
  else
    let s := (s.strandFalls sm d 8).strandRaise sm d 8 2 4
    .next (if d.val == 1 then s.raise (582 + sm.val) 1 1 true { master := 0x84 + sm.val } else s)

/-- A strand passes its training: up; new bad wires take spares; a data strand that returns from down brings on a retrain
(R329, R332), one of a first training does not (R335). -/
def State.strandPasses (s : State) (sm d k : Nat) (bad : List Nat) (first : Bool) : State :=
  let all := fun (y : Strand) => if y.retest then bad.eraseDups else (y.noteBad bad).bad
  if k < 8 && 3 ≤ (all (s.strandOf sm d k)).length then
    (s.updStrand sm d k (fun y => { y with bad := all y, status := 0, stopped := true })).strandRaise sm d k 2 6
  else
    let s := s.updStrand sm d k (fun y => { y with status := 2, upAt := s.now, lastAt := s.now, bad := all y, retest := false })
    let s := (s.strandRaise sm d k 0 0).spareStrand sm d k
    let s := if first then s.updSeam sm (fun x => { x with trainedAt := s.now }) else if k < 8 then s.askRetrainNow sm else s
    if k == 8 then s.drainBcast else s

/-- STRAND_RETRY (R329, R332, R335): the training of a strand ends. A strand whose units are inverted fails. -/
def execStrandRetry (sm : TileIx) (d : Fin 2) (k : Fin 9) (pass : Bool) (badWires : List (Fin 66)) (s : State) :
    Host.Outcome State Fault Refusal :=
  let x := s.strandOf sm d k
  if !s.seamLive sm || 2 ≤ x.status || x.stopped then .next s
  else if !pass || x.injAll then
    .next (s.updStrand sm d k (fun y => { y with status := 0 }))
  else .next (s.strandPasses sm d k (badWires.map (·.val)) (x.status == 1))

/-- R333 but for its time: both timing strands up, and six data strands in each direction. -/
def State.strandsHealthy (s : State) (sm : Nat) : Bool :=
  (List.range 2).all (fun d => (s.strandOf sm d 8).status == 2
    && decide (6 ≤ ((List.range 8).filter (fun k => (s.strandOf sm d k).carries)).length))

/-- When the last strand of a seam went down or ended its first training. -/
def State.lastUnrest (s : State) (sm : Nat) : Nat :=
  ((List.range 2).flatMap (fun d => (List.range 9).flatMap (fun k => (s.strandOf sm d k).downs))).foldl max (s.seam sm).trainedAt

/-- SEAM_HEALTHY (R333, R335): 1 ms after the last strand went down or came up at the seam's training. -/
def execSeamHealthy (sm : TileIx) (s : State) : Host.Outcome State Fault Refusal :=
  if !s.seamLive sm || !s.strandsHealthy sm then .next s
  else .next ((s.advance (s.lastUnrest sm + Config.ms)).setO (K.HEALTHY sm) 1)

/-! ### The timing strand (R325-R328) -/

/-- The first body that waits is on the wire now. -/
def popBody (b : FlitBody) : List FlitBody → List FlitBody
  | [] => []
  | a :: l => if a = b then l else a :: popBody b l

/-- A DEST that a SYS item may have (R307). DEDUCED: the crown's and the agents' intakes, which have no pool on this strand (R321), consume
theirs at once. -/
def sysDest (d dest : Nat) : Bool := decide (dest < 24) || dest == 32 || (d == 0 && dest == 33)

/-- A sequenced flit is delivered in order (R326). -/
def State.deliverFlit (s : State) (sm d : Nat) (b : FlitBody) : State :=
  let s := s.updTiming sm d (fun x => { x with nextRx := (x.nextRx + 1) % 256, ready := popBody b x.ready })
  match b with
  | .bcast m => if d == 1 then (s.landBcast sm m).drainBcast else s
  | .sys it =>
    if it.cell.cls = .sys && d == 1 && it.dest == 32 then s.brimIntake it.cell
    else if it.cell.cls ≠ .sys || it.cell.rsv ≠ 0 || !sysDest d it.dest then s.headerFault d 5 (rebuilt it)
    else if 24 ≤ it.dest then s
    else if d == 0 then s.land (24 * sm + it.dest) (rebuilt it)
    else s.arriveEgress (rebuilt it)
  | _ => s

/-- Deliver stored flits in FSEQ order until one is missing: at most `fuel` (R313, R326). -/
def State.deliverFlits (s : State) (sm d : Nat) : Nat → State
  | 0 => s
  | fuel + 1 =>
    let n := (s.timing sm d).nextRx
    match KMap.get none (s.timing sm d).store n with
    | none => s
    | some b => ((s.updTiming sm d (fun x => { x with store := KMap.set none x.store n none })).deliverFlit sm d b).deliverFlits sm d fuel

/-- A flit carries a sequenced type (R326). -/
def flitSequenced : FlitBody → Bool
  | .bcast _ | .sys _ => true
  | _ => false

/-- A flit's fields are as R325 and R321 allow (R16): a legal type, reserved bits zero, FSEQ zero outside the sequenced types, pools
of R321 or unused pairs with a count of zero. -/
def flitWellFormed (f : TimingFlit) : Bool :=
  f.body ≠ .illegal && f.rsv == 0 && (flitSequenced f.body || f.fseq == 0)
    && (match f.body with
        | .credit pairs => decide (pairs.length ≤ 4) && pairs.all (fun e =>
            if e.1 == 0xFF then e.2 == 0 else (decide (e.1 < 24) || e.1 == 32 || e.1 == 33) && decide (e.2 < 65536))
        | .tick _ st => decide (st < 8)
        | _ => true)

/-- TIMING_FLIT_RECEIVE (R325-R328): a flit arrives; what waits for the strand is carried by it. DESIGN CHOICE: a flit with a good
FCRC whose fields break R325 is discarded like one whose FCRC fails, with the same syndrome (R16). -/
def execTimingFlitReceive (sm : TileIx) (d : Fin 2) (f : TimingFlit) (s : State) : Host.Outcome State Fault Refusal :=
  if !s.seamLive sm || (s.strandOf sm d 8).status ≠ 2 then .next s
  else
    let i := s.unitInverted sm d 8
    let s := i.2
    if i.1 || !f.crcOk then
      .next (((s.incO (K.CRC_ERRORS sm)).strandRaise sm d 8 1 1).updTiming sm d (fun x => { x with nakDue := true }))
    else if !flitWellFormed f then
      .next ((s.strandRaise sm d 8 1 1).updTiming sm d (fun x => { x with nakDue := x.nakDue || flitSequenced f.body }))
    else
      let s := s.updStrand sm d 8 (fun y => { y with lastAt := s.now })
      match f.body with
      | .tick ct _ => .next (if d.val == 1 then s.updSeam sm (fun x => { x with tileCt := ct.toNat }) else s)
      | .credit pairs =>
        .next (s.updTiming sm (1 - d.val) (fun x => { x with
          credit := pairs.foldl (fun m e => if e.1 == 0xFF then m else KMap.set 0 m e.1 e.2) x.credit }))
      | .bcast _ | .sys _ =>
        let dist := (f.fseq + 256 - (s.timing sm d).nextRx) % 256
        if dist < 64 then
          let s := s.updTiming sm d (fun x => if (KMap.get none x.store f.fseq).isSome then x
            else { x with store := KMap.set none x.store f.fseq (some f.body) })
          let s := s.deliverFlits sm d (s.timing sm d).store.length
          .next (s.updTiming sm d (fun x => { x with nakDue := !x.store.isEmpty }))
        else if 192 ≤ dist then .next (s.incO (K.DUP_DISCARDS sm))
        else .next (s.strandRaise sm d 8 2 2)
      | _ => .next s

/-- TICK_MARK (R327): the tile takes the mark's cycle count; a difference is recorded with syndrome 0x08. A tile whose
PLL held over is realigned. -/
def execTickMark (sm : TileIx) (step : Int) (s : State) : Host.Outcome State Fault Refusal :=
  if !s.seamLive sm || (s.strandOf sm 1 8).status ≠ 2 then .next s
  else
    let s := s.causeEnds (582 + sm.val)
    if step = 0 then .next s
    else .next ((s.setO (K.CYCLE_STEP sm) (toSigned 32 step)).strandRaise sm 1 8 2 8)

/-! ### Isolation (R335) -/

/-- ISOLATE's own rule (R335): true holds the tile in reset, false releases it, at once or once it has been held for 10 µs (R550). -/
def ownIsolate (sm v : Nat) (s : State) : OdAns × State :=
  let s := s.setO (K.ISOLATE sm) v
  if s.hubHeld then (odOk, s)
  else if v == 1 then (odOk, if KMap.get false s.st.tileHeld sm then s else s.tileReset sm)
  else (odOk, if KMap.get false s.st.tileHeld sm && s.tileFree sm ≤ s.now then s.tileRelease sm else s)

/-- ISOLATE (R335). -/
def execIsolate (sess : SessRef) (sm : TileIx) (v : Byte) (s : State) : Host.Outcome State Fault Refusal :=
  .next (s.odCommand sess (K.ISOLATE sm) 1 v.toNat (ownIsolate sm v.toNat))

/-! ### SEAM_DIAG (R340) -/

/-- Die whose SEAM_DIAG acts on the sender of direction d. -/
def diagDie (sm d : Nat) : Nat := if d == 0 then sm else 4

/-- An injection field that the life-cycle state does not open sets INJ_DENIED. -/
def State.injDeny (s : State) (sm d : Nat) : State :=
  s.updSeam sm (fun x => if d == 0 then { x with deniedTile := true } else { x with deniedHub := true })

/-- A write of an injection field: `f` acts when the life-cycle state opens injection. -/
def State.diagWrite (s : State) (via : CsrVia) (sm d k : Nat) (sets : Bool) (f : Strand → Strand) : State :=
  s.csrDo via (diagDie sm d) (fun s => if sets && !s.injOpen then s.injDeny sm d else (s.updStrand sm d k f).diagMirror sm d k)

/-- INJ_ONCE (R340): write 1 sets it. -/
def execInjOnce (via : CsrVia) (sm : TileIx) (d : Fin 2) (k : Fin 9) (on : Bool) (s : State) : Host.Outcome State Fault Refusal :=
  .next (s.diagWrite via sm d k on (fun y => if on then { y with injOnce := true } else y))

/-- INJ_PERSIST (R340). -/
def execInjPersist (via : CsrVia) (sm : TileIx) (d : Fin 2) (k : Fin 9) (on : Bool) (s : State) : Host.Outcome State Fault Refusal :=
  .next (s.diagWrite via sm d k on (fun y => { y with injAll := on }))

/-- WIRE (R340): the wire whose pattern bits are inverted; 0x7F none. -/
def execSeamWireInject (via : CsrVia) (sm : TileIx) (d : Fin 2) (k : Fin 9) (wire : BitVec 7) (s : State) :
    Host.Outcome State Fault Refusal :=
  .next (s.diagWrite via sm d k (wire.toNat ≠ 0x7F) (fun y => { y with wire := wire.toNat }))

/-- KA_HOLD (R340). -/
def execKaHold (via : CsrVia) (sm : TileIx) (d : Fin 2) (k : Fin 9) (on : Bool) (s : State) : Host.Outcome State Fault Refusal :=
  .next (s.diagWrite via sm d k on (fun y => { y with kaHold := on }))

/-- STRAND_STATUS as read (R339). -/
def State.strandStatus (s : State) (sm d k : Nat) : Nat :=
  let x := s.strandOf sm d k
  let recent := (x.downs.filter (fun t => decide (s.now < t + 1000 * Config.ms))).length
  x.status + min x.spare 2 * 4 + (x.bad.headD 0x7F) * 2 ^ 4 + (x.bad.drop 1).headD 0x7F * 2 ^ 11 + min recent 15 * 2 ^ 18
    + b2n x.stopped * 2 ^ 22

end Sys2Proof.Machine
end

