-- ==== Sys2Proof/Machine/OdRead.lean ====
section
/-!
DEFINITION. The object dictionary as it is read and written on every path: values of objects that other state gives, the
checks of a read (R481, R483, R484), and the one dispatcher from an object to its own rule.
-/
namespace Sys2Proof.Machine

/-- The malformed request's abort (R490). -/
def odMalformed : OdAns := odNo 0x0801

/-! ### Values -/

/-- Value of an RWS object for a session: the draft's with DRAFT_VIEW while one is open, else the active generation's (R9,
R492). -/
def State.rwsValue (s : State) (sid key : Nat) : Nat :=
  if (s.session sid).draftView && s.o K.DRAFT_STATE == 1 then cfgOf s.gen.draft key else s.c key

/-- First index of a port object of subblock b (R486), as a port and subblock. -/
def portIx (ix : Nat) : Nat × Nat := ((ix - 0x1000) / 16, ix % 16)

/-- VBUS_ORING (R434). -/
def State.oringWord (s : State) : Nat :=
  let a := s.pw.inA
  let b := s.pw.inB
  b2n (a = .conducting) + b2n (b = .conducting) * 2 + b2n (a = .offReverse) * 4 + b2n (b = .offReverse) * 8
    + b2n (a = .offOver) * 16 + b2n (b = .offOver) * 32

/-- ms left of a part's probation, rounded up. -/
def State.probationLeft (s : State) (k : Nat) : Nat :=
  match (s.part k).probEnd with
  | some t => (t - s.now + Config.ms - 1) / Config.ms
  | none => 0

/-- Image fields of part k (R546), by subindex. -/
def State.partValue (s : State) (k sb : Nat) : Nat :=
  let p := s.part k
  let act := p.active.getD {}
  let other := fun (staged : Bool) => match p.other with
    | some i => if p.staged == staged then i.version else 0
    | none => 0
  match sb with
  | 1 => act.version
  | 2 => act.sv
  | 3 => s.svFuse k
  | 5 => other true
  | 6 => other false
  | 7 => packLE (act.compat.flatMap (fun e => [(e.1, 1), (e.2, 1)]))
  | 8 => act.hdrHash
  | 9 => s.probationLeft k
  | _ => s.o (0x6010 * 256 + k * 256 + sb)

/-- Applet fields of slot a (R546), by subindex. -/
def State.appletValue (s : State) (a sb : Nat) : Nat :=
  match sb, s.applet a with
  | 1, some i => i.version
  | 2, some i => (Config.sha256 (toBytes 512 i.hdr)).toNat
  | 3, _ => s.appletState a
  | _, _ => 0

/-- Objects of session sid (R469, R508, R544, R545). -/
def State.sessionValue (s : State) (sid key : Nat) : Nat :=
  let x := s.session sid
  if key == K.FEAT_SESSION then x.feat
  else if key == K.SESSION_ROLE then x.role
  else if key == K.SESSION_ID then sid
  else if key == K.DRAFT_VIEW then b2n x.draftView
  else if key == K.AUTH_CHALLENGE then x.challenge
  else if key == K.ATTEST_STATE then x.attState
  else if key == K.ATTEST_REPORT then x.attReport
  else 0

/-- Island values that other state gives (R508, R544, R545, R552). -/
def State.islandValue (s : State) (key : Nat) : Option Nat :=
  let f := s.life.fuses
  if key == K.SERIAL then some f.serial
  else if key == K.UPTIME then some s.tm.ticks
  else if key == K.SESSIONS_OPEN then some s.mg.sess.length
  else if key == K.LC_STATE then some s.lcState
  else if key == K.LC_CHALLENGE then some s.life.lcChallenge
  else if key == K.VROOT then some (b2n f.vroot0.isSome + b2n f.vroot1.isSome * 2 + b2n f.revoked0 * 4)
  else if key == K.LC_FLAGS then some s.lcFlags
  else if key == K.DEVKEY_PUB then some (f.devPub.getD 0)
  else if key == K.DEVKEY_CERT then some s.life.cert
  else if key == K.SIG_NEXT then some s.sigNext
  else if key == K.SIG_LEFT then some (33554432 - s.sigNext)
  else if key == K.IDCODE then some idcode
  else if key == K.VBUS_ORING then some s.oringWord
  else none

/-- Hub values that other state gives (R166, R81, R250, R270, R370, R371, R399). -/
def State.hubValue (s : State) (key : Nat) : Option Nat :=
  let x := s.slice (s.o K.SLICE_SEL)
  let ix := key / 256
  let sb := key % 256
  if key == K.CT_NOW then some s.ct
  else if key == K.WIN_TOTAL then some (((List.range 16).filter (winOn s.gen.active)).map (fun w => s.c (K.WIN_SIZE w))).sum
  else if key == K.TRACKER_IN_USE then some s.trackersUsed
  else if key == K.EXTENTS_FREE then some s.extentsFree
  else if key == K.SLICES_IN_USE then some s.slicesUsed.length
  else if key == K.DESC_ENTRIES_FREE then some s.descFree
  else if key == K.QUEUES_FREE then some s.queuesFree
  else if key == K.SEL_STATE then some x.state.num
  else if key == K.SEL_OWNER then some x.owner
  else if key == K.SEL_PENDING then some x.pendingCount
  else if key == K.SEL_BYTES then some x.bytes
  else if key == K.SEL_FAULTS then some x.faults
  else if key == K.PORTAL_DISCARDS then some x.discards
  else if key == K.RING_GAP_BYTES then some ((x.ring.map (·.lost)).getD 0)
  else if key == K.OLDER_ACCESSES then some s.olderAccesses
  else if ixIn key 0x2380 64 then
    let n := ix - 0x2380
    if sb == 1 then some (s.vcsState n)
    else if sb == 2 then some (s.hostPorts n)
    else if sb == 5 then some (s.cacheDevices n)
    else if sb == 7 then some (s.capExtents n)
    else if 32 ≤ sb && sb < 64 then some (s.bindingWord n (sb - 32))
    else none
  else if ixIn key 0x3010 16 && sb == 2 then some (s.engSlices (ix - 0x3010))
  else if ixIn key 0x3010 16 && sb == 3 then some (s.engRings (ix - 0x3010))
  else if ixIn key 0x1810 4 && 16 ≤ sb && sb < 34 then some (s.strandStatus (ix - 0x1810) ((sb - 16) % 2) ((sb - 16) / 2))
  else none

/-- Cells of port p that are occupied or, by credits it advertises over a link that is up, reserved (R46). -/
def State.occOrReserved (s : State) (p : Nat) (cls : Cls) : Nat :=
  s.occ p cls + (if cls = .view || !s.linkUp p then 0 else s.advertised p cls)

/-- Tile, companion and event values that other state gives (R46, R302, R435, R464). -/
def State.outerValue (s : State) (key : Nat) : Option Nat :=
  let ix := key / 256
  let sb := key % 256
  if ixIn key 0x2100 96 && 5 ≤ sb && sb < 9 then some (s.occOrReserved (ix - 0x2100) (clsOf (sb - 5)))
  else if ixIn key 0x1000 1536 then
    let p := portIx ix
    if p.2 == 1 && sb == 1 then some (b2n (s.port p.1).up)
    else if p.2 == 1 && 16 ≤ sb && sb < 20 then some (s.laneStatus (4 * p.1 + (sb - 16)))
    else none
  else if ixIn key 0x5010 24 && sb == 2 then some (s.slot (ix - 0x5010)).state.num
  else if ixIn key 0x5010 24 && sb == 21 then some (s.slotFlags (ix - 0x5010))
  else if ixIn key 0x4000 640 then
    let b := s.blk (ix - 0x4000)
    if sb == 1 then some b.stat
    else if sb == 4 then some b.count
    else if sb == 5 then some b.fer
    else if sb == 9 then some b.inj
    else none
  else if ixIn key 0x6011 6 then some (s.partValue (ix - 0x6010) sb)
  else if ixIn key 0x6030 8 then some (s.appletValue (ix - 0x6030) sb)
  else none

/-- Measurements that no command brings: what they read is a free value (FEC corrections, VBUS and feed voltages, island
power, slot node and output voltages, shunt currents). -/
def measured (key : Nat) : Bool :=
  key == K.VBUS_A_MV || key == K.VBUS_B_MV || key == K.FEED_A_MV || key == K.FEED_B_MV || key == K.HK_MW
    || (ixIn key 0x5010 24 && (key % 256 == 18 || key % 256 == 19 || key % 256 == 20))
    || (ixIn key 0x1000 1536 && key / 256 % 16 == 1 && key % 256 == 10)

/-- A measurement's free value within its range. -/
def State.measure (s : State) (key : Nat) : Nat :=
  if key == K.HK_MW then s.freeVal % 3501 else odFit key s.freeVal

/-- Value of an object as session sid reads it. -/
def State.odValue (s : State) (sid : Nat) (r : OdRow) (key : Nat) : Nat :=
  if r.access = .wo then 0
  else if r.home = .event && blockReserved (evtOfKey key) then 0
  else if perSession key then s.sessionValue sid key
  else if r.access = .rws then s.rwsValue sid key
  else if measured key then s.measure key
  else match s.islandValue key with
    | some v => v
    | none => match s.hubValue key with
      | some v => v
      | none => (s.outerValue key).getD (s.o key)

/-! ### Reads -/

/-- What a high-water mark restarts from when it has been read; none for other objects. -/
def State.markNow (s : State) (key : Nat) : Option Nat :=
  if key == K.MCAST_HIGH_WATER then some s.pl.mcast.length
  else if key == K.TRACKER_HIGH_WATER then some s.trackersUsed
  else if key == K.QUEUE_DEPTH_MAX then some ((s.cr.queue.map (fun e => e.2.length)).foldl max 0)
  else if key == K.FENCE_HIGH_WATER then some s.fencesOut.length
  else if ixIn key 0x3010 16 && key % 256 == 4 then some (KMap.get 0 s.mv.reads (key / 256 - 0x3010))
  else if ixIn key 0x1810 4 && key % 256 == 12 then
    some (((List.range 2).map (fun d => (s.sdir (key / 256 - 0x1810) d).store.length)).foldl max 0)
  else if key == K.TJ_PEAK then some (toSigned 32 (hottest ((List.range 7).map (fun k => ofSigned 32 (s.o (tjKey k))))))
  else none

/-- A read has taken an object's value: its mark restarts, or its free value is spent. -/
def State.afterRead (s : State) (r : OdRow) (key : Nat) : State :=
  if r.access = .ro && measured key then s.freeNext
  else match s.markNow key with
    | some v => s.setO key v
    | none => s

/-- Where a read finds the value: RWS and RW values on the island, the others on their die (R484). -/
def State.readReach (s : State) (r : OdRow) (key : Nat) : Bool :=
  if r.access = .ro || (r.home = .event && r.access = .rw) then s.reachable r key else true

/-- Checks of a read (R481): none when it passes. -/
def State.readCheck (s : State) (sid key : Nat) : OdAns ⊕ OdRow :=
  match odRow? key with
  | none => .inl (odNo 0x0101)
  | some r =>
    if !bit (s.session sid).feat (featBit (key / 256)) then .inl (odNo 0x0101)
    else if !s.mayRead sid key then .inl (odNo 0x0401)
    else if !s.readReach r key then .inl (odNo 0x0503)
    else .inr r

/-- A whole read (R483): the value's bytes, as many as its type has (R474), and the state after it. -/
def State.odGet (s : State) (sid key : Nat) : OdAns ⊕ (List Byte × State) :=
  match s.readCheck sid key with
  | .inl a => .inl a
  | .inr r =>
    let v := s.odValue sid r key
    .inr (toBytes r.type.bytes v, s.afterRead r key)

/-! ### Own rules -/

/-- FEAT_REQUEST's own rule (R487): the intersection with what the device offers; CORE always. -/
def ownFeatRequest (sid v : Nat) (s : State) : OdAns × State :=
  (odOk, s.updSess sid (fun x => { x with feat := Nat.lor 1 (Nat.land v (odDefault K.FEAT_DEVICE)) }))

/-- DRAFT_VIEW's own rule (R492). -/
def ownDraftView (sid v : Nat) (s : State) : OdAns × State := (odOk, s.updSess sid (fun x => { x with draftView := v == 1 }))

/-- NTF_OBJECT's own rule (R510): 0 disables; else an object of at most 52 bytes that the operator role may read. A new
subscription has sent nothing yet. -/
def ownNtfObject (k v : Nat) (s : State) : OdAns × State :=
  let ok := match odRow? (v % 2 ^ 24) with
    | some r => decide (r.type.bytes ≤ 52)
    | none => false
  if v ≠ 0 && (!ok || 2 ^ 24 ≤ v) then (odNo 0x0302, s)
  else (odOk, ({ s with mg := { s.mg with lastSent := KMap.set none s.mg.lastSent k none } } : State).setO (K.NTF_OBJECT k) v)

/-- EVT_INJ's own rule (R462, R464). -/
def ownEvtInj (n v : Nat) (s : State) : OdAns × State := (odOk, s.injWrite n v)

/-- Free bytes that stand for a state record read from its target (R361). -/
def State.recordBytes (s : State) (n : Nat) : List Byte × State :=
  ((List.range n).map (fun i => (Config.freeValue (s.freeIx + i)).truncate 8), { s with freeIx := s.freeIx + n })

/-- SLICE_CMD on a path that carries no record: a RESTORE reads one whose bytes the model does not hold (free values). -/
def ownSliceAny (v : Nat) (s : State) : OdAns × State :=
  if bits v 7 0 == 5 then
    let r := s.recordBytes (min (bits v 255 224) 1049088)
    ownSliceCmd v r.1 r.2
  else ownSliceCmd v [] s

/-- Own rules at indices 0x0100 to 0x0FFF: sessions, life cycle, generations, time, reset. -/
def ownLow (sid key v : Nat) (d : List Byte) (s : State) : OdAns × State :=
  if key == K.FEAT_REQUEST then ownFeatRequest sid v s
  else if key == K.DRAFT_VIEW then ownDraftView sid v s
  else if key == K.GEN_COMMIT then ownGenCommit sid s
  else if key == K.GEN_CONFIRM then ownGenConfirm s
  else if key == K.GEN_ROLLBACK then ownGenRollback s
  else if key == K.DRAFT_DISCARD then ownDraftDiscard sid s
  else if key == K.LC_ADVANCE then ownLcAdvance sid v s
  else if key == K.LC_TOKEN then ownLcToken d s
  else if key == K.LC_SCRAP then ownLcScrap sid v s
  else if key == K.VROOT_REVOKE0 then ownVrootRevoke0 s
  else if key == K.JTAG_OPEN then ownJtagOpen sid s
  else if key == K.AUTH_RESPONSE then ownAuthResponse sid d s
  else if key == K.CUST_KEY_HASH then ownCustKeyHash v s
  else if key == K.ATTEST_NONCE then ownAttestNonce sid v s
  else if key == K.DEVKEY_GEN then ownDevkeyGen s
  else if key == K.DEVKEY_CERT then ownDevkeyCert sid d s
  else if key == K.RESET_HUB then (ownResetHub s, s)
  else if key == K.RESET_HK then (odOk, s)
  else if key == K.CT_LOAD then ownCtLoad v s
  else if ixIn key 0x0410 40 && key % 256 == 10 then ownOutAt (key / 256 - 0x0410) v s
  else if ixIn key 0x0410 40 && key % 256 == 13 then ownOutCancel (key / 256 - 0x0410) s
  else if ixIn key 0x0120 32 && key % 256 == 1 then ownNtfObject (key / 256 - 0x0120) v s
  else s.ownPlain key v

/-- Own rules of port, seam and switch objects: indices 0x1000 to 0x2FFF. -/
def ownFabric (key v : Nat) (s : State) : OdAns × State :=
  let ix := key / 256
  let sb := key % 256
  if ixIn key 0x1000 1536 then
    let p := (portIx ix).1
    match (portIx ix).2, sb with
    | 0, 13 => ownLinkEnable p v s
    | 0, 14 => ownLinkRetrain p s
    | 2, 1 => ownEyeCmd p v s
    | 12, 1 => ownClaim p (fun c => { c with role := v }) true s
    | 12, 2 => ownClaim p (fun c => { c with agent := v }) false s
    | 12, 3 => ownClaim p (fun c => { c with pool := v }) false s
    | 12, 4 => ownClaim p (fun c => { c with slot := v }) false s
    | _, _ => s.ownPlain key v
  else if ixIn key 0x1810 4 && sb == 1 then ownIsolate (ix - 0x1810) v s
  else if ixIn key 0x1810 4 && sb == 3 then ownRetrainNow (ix - 0x1810) s
  else if key == K.BIND_CMD then ownBindCmd v s
  else if key == K.EXTENT_CMD then ownExtentCmd v s
  else if ixIn key 0x2900 16 && sb == 20 then ownResyncStart (ix - 0x2900) s
  else if ixIn key 0x2A00 16 && sb == 7 then ownFrzArm (ix - 0x2A00) s
  else if ixIn key 0x2A00 16 && sb == 8 then ownFrzRelease (ix - 0x2A00) s
  else s.ownPlain key v

/-- Own rules from index 0x3000: movers, guards, events, supply, firmware. -/
def ownHigh (key v : Nat) (s : State) : OdAns × State :=
  let ix := key / 256
  let sb := key % 256
  if key == K.SLICE_CMD then ownSliceAny v s
  else if key == K.EVAC_CMD then ownEvacCmd v s
  else if key == K.GUARD_PUBLISH then ownGuardPublish s
  else if key == K.GUARD_SYNC then ownGuardSync s
  else if key == K.TAG_CMD then ownTagCmd v s
  else if key == K.SLICE_RGN_CMD then ownSliceRgnCmd v s
  else if key == K.SAFE_EXIT then ownSafeExit s
  else if key == K.RAIL_RESTART then ownRailRestart s
  else if key == K.FW_INSTALL then ownFwInstall v s
  else if key == K.FW_REJECT then ownFwReject s
  else if key == K.FW_DISCARD then ownFwDiscard v s
  else if ixIn key 0x4000 640 && sb == 2 then ownEvtAck (ix - 0x4000) s
  else if ixIn key 0x4000 640 && sb == 3 then ownEvtClear (ix - 0x4000) s
  else if ixIn key 0x4000 640 && sb == 9 then ownEvtInj (ix - 0x4000) v s
  else if ixIn key 0x5010 24 then
    match sb with
    | 1 => ownSlotCmd (ix - 0x5010) v s
    | 14 => ownForceOff (ix - 0x5010) s
    | 15 => ownChanReset (ix - 0x5010) s
    | 16 => ownLockoutClear (ix - 0x5010) s
    | _ => s.ownPlain key v
  else if ixIn key 0x6030 8 && sb == 4 then ownAppletRemove (ix - 0x6030) s
  else s.ownPlain key v

/-- The object's own rule. -/
def odOwn (sid key : Nat) (d : List Byte) (s : State) : OdAns × State :=
  if key < 0x100000 then ownLow sid key (leNat d) d s
  else if key < 0x300000 then ownFabric key (leNat d) s
  else ownHigh key (leNat d) s

/-- A whole write (R481) on any path. -/
def State.odPut (s : State) (sid key : Nat) (d : List Byte) : OdAns × State :=
  s.odWrite sid key d.length (leNat d) (odOwn sid key d)

/-- What an accepted write does once its answer has left (R550, R551). -/
def State.odAfter (s : State) (key : Nat) (a : OdAns) : State :=
  if a.abort ≠ 0 then s
  else if key == K.RESET_HUB then s.hubReset 0x14
  else if key == K.RESET_HK then s.hkReset 3
  else s

/-- Key of an index and subindex. -/
def odKey (index sub : Nat) : Nat := index * 256 + sub

/-- OBJECT_WRITE (R481): a write of any object by its index and subindex. -/
def execObjectWrite (sess : SessRef) (index : BitVec 16) (sub : Byte) (data : List Byte) (s : State) :
    Host.Outcome State Fault Refusal :=
  let key := odKey index.toNat sub.toNat
  match s.sessionFor sess with
  | .silent => .next s
  | .busy => .next (s.answerOd sess (odNo 0x0502))
  | .ready s =>
    let r := s.odPut sess key data
    .next ((r.2.answerOd sess r.1).odAfter key r.1)

/-- FEAT_REQUEST (R487): a write of the object. -/
def execFeatRequest (sess : SessRef) (v : Word64) (s : State) : Host.Outcome State Fault Refusal :=
  .next (s.odCommand sess K.FEAT_REQUEST 8 v.toNat (ownFeatRequest sess v.toNat))

end Sys2Proof.Machine
end

