-- ==== Sys2Proof/Machine/Can.lean ====
section
/-!
DEFINITION. The CAN FD node: frames, expedited and segmented access, the node address, subscriptions, idle sessions
(R466-R483, R509, R510).
-/
namespace Sys2Proof.Machine

/-! ### Frames (R472, R473) -/

/-- The CAN FD data length that holds n bytes (R473). -/
def canPad (n : Nat) : Nat :=
  if n ≤ 8 then n else if n ≤ 12 then 12 else if n ≤ 16 then 16 else if n ≤ 20 then 20 else if n ≤ 24 then 24
  else if n ≤ 32 then 32 else if n ≤ 48 then 48 else 64

/-- Data padded with zeros to a CAN FD length. -/
def canData (d : List Byte) : List Byte := d ++ List.replicate (canPad d.length - d.length) 0

/-- A data field of n used bytes: its length is the one that holds them and its padding is zero. -/
def canFits (d : List Byte) (n : Nat) : Bool := d.length == canPad n && zeroAt d n (d.length - n)

/-- Byte k of a data field. -/
def byteAt (d : List Byte) (k : Nat) : Nat := leAt d k 1

/-- Key of the object that bytes 0 to 2 name. -/
def frameKey (d : List Byte) : Nat := odKey (leAt d 0 2) (byteAt d 2)

/-- Bytes 0 to 2 of a frame about an object. -/
def keyBytes (key : Nat) : List Byte := toBytes 2 (key / 256) ++ toBytes 1 (key % 256)

/-- Send ABORT to a peer (R474). -/
def State.canAbort (s : State) (dst txn key : Nat) (a : OdAns) : State :=
  (s.canSend 0x10 dst txn (keyBytes key ++ [0] ++ toBytes 2 a.abort ++ toBytes 2 a.detail)).incO K.ABORTS_SENT

/-- The node takes part in the bus: the island serves it and it is not bus off. -/
def State.onBus (s : State) : Bool := s.islandServes && s.o K.CAN_STATE ≠ 2

/-! ### The node address (R478-R480) -/

/-- The candidate is contested (R479 step 3): the next one is claimed; after all 95, the claim waits 10 s. -/
def State.contest (s : State) : State :=
  let n := s.mg.contested + 1
  let s : State := { s with mg := { s.mg with contested := n } }
  if 95 ≤ n then { s with mg := { s.mg with phase := .retryWait, addrAt := s.now + 10000 * Config.ms } }
  else s.claim (nextCandidate s.mg.candidate)

/-- The node gives up its address: its CAN FD sessions close (R480). -/
def State.dropAddress (s : State) : State :=
  let s := (s.sessionsOn 1).foldl (fun (s : State) e => s.closeSession e.1) s
  ({ s with mg := { s.mg with contested := 0 } } : State).setO K.NODE_ADDR 0

/-- A frame other than a claim has been seen (R479 step 3): it is counted, and a candidate that sends it is contested. -/
def State.frameSeen (s : State) (src : Nat) : State :=
  let s := if s.islandUp then s.incO K.FRAMES_RX else s
  if s.mg.phase = .listening && src == s.mg.candidate && s.onBus then s.contest else s

/-- A claim by another device while this one listens (R479 step 3), or holds the address (R480). -/
def State.claimSeen (s : State) (src serial : Nat) : State :=
  let own := s.life.fuses.serial
  if s.mg.phase = .listening && src == s.mg.candidate then
    if serial < own then s.contest else if own < serial then s.claim s.mg.candidate else s
  else if s.mg.phase = .held && src == s.o K.NODE_ADDR && serial ≠ own then
    if s.o K.ADDR_MODE == 2 && serial < own then
      let c := nextCandidate (s.o K.NODE_ADDR)
      s.dropAddress.claim c
    else s.canSend 2 0 0 (toBytes 8 own)
  else s

/-- ADDR_CLAIM (R479, R480): a received claim. -/
def execAddrClaim (src : BitVec 7) (serial : Word64) (s : State) : Host.Outcome State Fault Refusal :=
  let s := if s.islandUp then s.incO K.FRAMES_RX else s
  .next (if s.onBus then s.claimSeen src.toNat serial.toNat else s)

/-- ADDR_ASSIGN (R480): a device with a dynamic address and this serial restarts its claim with the address given. -/
def execAddrAssign (data : List Byte) (s : State) : Host.Outcome State Fault Refusal :=
  let s := if s.islandUp then s.incO K.FRAMES_RX else s
  let a := byteAt data 8
  let ok := data.length == 12 && zeroAt data 9 3 && decide (1 ≤ a) && decide (a ≤ 0x5F)
  .next (if s.onBus && ok && s.o K.ADDR_MODE == 2 && leAt data 0 8 == s.life.fuses.serial then s.dropAddress.claim a else s)

/-- ADDR_CLAIM_TIMER_EXPIRY (R479 step 4): 250 ms uncontested; the address is taken and saved. -/
def execAddrClaimTimerExpiry (s : State) : Host.Outcome State Fault Refusal :=
  if s.mg.phase = .listening && s.islandUp then
    let s := s.advance s.mg.addrAt
    .next (({ s with mg := { s.mg with phase := .held, savedAddr := s.mg.candidate } } : State).setO K.NODE_ADDR s.mg.candidate)
  else .next s

/-- ADDR_RETRY_EXPIRY (R479): 10 s after all candidates were contested, from step 1. -/
def execAddrRetryExpiry (s : State) : Host.Outcome State Fault Refusal :=
  if s.mg.phase = .retryWait && s.islandUp then
    let s := s.advance s.mg.addrAt
    .next (({ s with mg := { s.mg with contested := 0 } } : State).claim s.firstCandidate)
  else .next s

/-- CAN_ERROR_STATE_CHANGE (R442, R466, R470): 0 error active, 1 error passive, 2 bus off. -/
def execCanErrorStateChange (state : Fin 3) (tec rec_ : Byte) (s : State) : Host.Outcome State Fault Refusal :=
  if !s.islandUp then .next s
  else
    let old := s.o K.CAN_STATE
    let s := ((s.setO K.CAN_STATE state.val).setO K.TEC tec.toNat).setO K.REC rec_.toNat
    if old == state.val then .next s
    else if state.val == 0 then .next (s.causeEnds 610)
    else if state.val == 1 then .next (s.raise 610 1 1 true island)
    else
      let s := (s.incO K.BUS_OFFS).raise 610 2 2 true island
      .next ((s.sessionsOn 1).foldl (fun (s : State) e => s.closeSession e.1) s)

/-- ILLEGAL_FUNC_FRAME (R472): a frame with an illegal FUNC is discarded and counted; classical frames and 11-bit identifiers are
counted as received. -/
def execIllegalFuncFrame (classical : Bool) (s : State) : Host.Outcome State Fault Refusal :=
  if !s.islandUp then .next s
  else
    let s := s.incO K.FRAMES_RX
    .next (if classical then s else { s with mg := { s.mg with badFunc := s.mg.badFunc + 1 } })

/-! ### Expedited access (R474, R475) -/

/-- Run a request of a peer with its session; a peer that gets none is answered 0x0502 (R466). -/
def State.withPeer (s : State) (src txn key : Nat) (f : State → State) : State :=
  let s := s.frameSeen src
  match s.sessionFor (sidCan src) with
  | .silent => s
  | .busy => s.canAbort src txn key (odNo 0x0502)
  | .ready s => f s

/-- The answer to an expedited read. -/
def State.canRead (s : State) (src txn key : Nat) : State :=
  match s.readCheck (sidCan src) key with
  | .inl a => s.canAbort src txn key a
  | .inr r =>
    if 56 < r.type.bytes then s.canAbort src txn key (odNo 0x0701)
    else match s.odGet (sidCan src) key with
      | .inl a => s.canAbort src txn key a
      | .inr v => v.2.canSend 9 src txn (canData (keyBytes key ++ toBytes 1 v.1.length ++ toBytes 4 0 ++ v.1))

/-- READ_REQ (R473, R474, R481). -/
def execReadReq (src : BitVec 7) (txn : BitVec 6) (data : List Byte) (s : State) : Host.Outcome State Fault Refusal :=
  let key := frameKey data
  let t := txn.toNat
  let n := src.toNat
  .next (s.withPeer n t key (fun s =>
    if data.length ≠ 8 || !zeroAt data 3 5 then s.canAbort n t key (odNo 0x0801) else s.canRead n t key))

/-- The answer to an expedited write. -/
def State.canWrite (s : State) (src txn key : Nat) (d : List Byte) : State :=
  let r := s.odPut (sidCan src) key d
  let s := if r.1.abort ≠ 0 then r.2.canAbort src txn key r.1 else r.2.canSend 0x0B src txn (keyBytes key ++ toBytes 5 0)
  s.odAfter key r.1

/-- WRITE_REQ (R473, R474, R481). -/
def execWriteReq (src : BitVec 7) (txn : BitVec 6) (data : List Byte) (s : State) : Host.Outcome State Fault Refusal :=
  let key := frameKey data
  let t := txn.toNat
  let n := src.toNat
  let len := byteAt data 3
  let ok := decide (1 ≤ len) && decide (len ≤ 56) && zeroAt data 4 4 && canFits data (8 + len)
  .next (s.withPeer n t key (fun s =>
    if !ok then s.canAbort n t key (odNo 0x0801) else s.canWrite n t key (bytesAt data 8 len)))

/-! ### Segmented transfers (R476, R482) -/

/-- The transfer with a peer. -/
def State.seg? (s : State) (src : Nat) : Option Seg := KMap.get none s.mg.seg (sidCan src)

/-- Set or end the transfer with a peer. -/
def State.setSeg (s : State) (src : Nat) (x : Option Seg) : State :=
  { s with mg := { s.mg with seg := KMap.set none s.mg.seg (sidCan src) x } }

/-- End the transfer with an ABORT. -/
def State.segAbort (s : State) (src : Nat) (x : Seg) (code : Nat) : State :=
  (s.setSeg src none).canAbort src x.txn x.key (odNo code)

/-- Send SEG_DATA frames number `i` to `j` of a block whose bytes are `d`. -/
def State.sendBlock (s : State) (src txn : Nat) (d : List Byte) (i j : Nat) : State :=
  ((List.range (j + 1)).filter (fun k => decide (i ≤ k) && decide (1 ≤ k))).foldl (fun (s : State) k =>
    let part := (d.drop (60 * (k - 1))).take 60
    let last := d.length ≤ 60 * k
    s.canSend 0x0E src txn (canData (toBytes 1 k ++ [if last then 1 else 0] ++ toBytes 1 part.length ++ [0] ++ part))) s

/-- A block begins: as many frames as its bytes need, at most 16. -/
def State.startBlock (s : State) (src : Nat) (x : Seg) (d : List Byte) : State :=
  let n := min 16 ((d.length + 59) / 60)
  (s.setSeg src (some { x with data := d, seq := n, last := decide (d.length ≤ 960), lastAt := s.now })).sendBlock src x.txn d 1 n

/-- SEG_INIT_RSP. -/
def State.segReply (s : State) (src txn key dir size crc : Nat) : State :=
  s.canSend 0x0D src txn (keyBytes key ++ toBytes 1 dir ++ toBytes 4 size ++ toBytes 4 crc ++ toBytes 1 16 ++ toBytes 3 0)

/-- A segmented read: a snapshot of the object is taken, and its first block is sent. -/
def State.segRead (s : State) (src txn key : Nat) : State :=
  match s.odGet (sidCan src) key with
  | .inl a => s.canAbort src txn key a
  | .inr v =>
    let crc := crc32 v.1
    (v.2.segReply src txn key 1 v.1.length crc).startBlock src { write := false, key := key, txn := txn, size := v.1.length, crc := crc } v.1

/-- A segmented write: checks 1 to 4 of R481 (R482). -/
def State.segWrite (s : State) (src txn key size crc : Nat) : State :=
  match s.writeEarly (sidCan src) key 0 with
  | .inl a => s.canAbort src txn key a
  | .inr _ =>
    (s.setSeg src (some { write := true, key := key, txn := txn, size := size, crc := crc, lastAt := s.now })).segReply src txn key 0
      size 0

/-- Form of a SEG_INIT. -/
def segInitOk (d : List Byte) : Bool :=
  let size := leAt d 4 4
  d.length == 16 && zeroAt d 12 4
    && ((byteAt d 3 == 0 && decide (1 ≤ size) && decide (size ≤ 65536)) || (byteAt d 3 == 1 && zeroAt d 4 8))

/-- SEG_INIT (R476, R482, R488): one transfer per peer, 4 in all. -/
def execSegInit (src : BitVec 7) (txn : BitVec 6) (data : List Byte) (s : State) : Host.Outcome State Fault Refusal :=
  let key := frameKey data
  let t := txn.toNat
  let n := src.toNat
  .next (s.withPeer n t key (fun s =>
    if !segInitOk data then s.canAbort n t key (odNo 0x0801)
    else if !bit (s.session (sidCan n)).feat 1 then s.canAbort n t key (odNo 0x0101)
    else if (s.seg? n).isSome || 4 ≤ s.mg.seg.length then s.canAbort n t key (odNo 0x0502)
    else if byteAt data 3 == 1 then s.segRead n t key
    else s.segWrite n t key (leAt data 4 4) (leAt data 8 4)))

/-- SEG_ACK to a peer: last SEQ in order, and STATUS. -/
def State.segAck (s : State) (src txn seq status : Nat) : State :=
  s.canSend 0x0F src txn (toBytes 1 seq ++ toBytes 1 status ++ toBytes 6 0)

/-- The LAST frame of a write has come: it takes effect when SIZE and CRC match (R476). -/
def State.segDone (s : State) (src : Nat) (x : Seg) : State :=
  if x.data.length ≠ x.size then s.segAbort src x 0x0702
  else if crc32 x.data ≠ x.crc then s.segAbort src x 0x0705
  else
    let r := (s.setSeg src none).odPut (sidCan src) x.key x.data
    let s := if r.1.abort ≠ 0 then r.2.canAbort src x.txn x.key r.1 else r.2.segAck src x.txn x.seq 1
    s.odAfter x.key r.1

/-- A SEG_DATA of a write transfer: the next one, a resend, or a sequence error. -/
def State.segTake (s : State) (src : Nat) (x : Seg) (seq : Nat) (last : Bool) (d : List Byte) : State :=
  if seq == x.seq + 1 then
    let x := { x with data := x.data ++ d, seq := seq, last := last, lastAt := s.now, ackDue := true }
    if last then s.segDone src x
    else if seq == 16 then (s.setSeg src (some { x with seq := 0, ackDue := false })).segAck src x.txn 16 0
    else s.setSeg src (some x)
  else if 1 ≤ seq && seq ≤ x.seq then s.setSeg src (some { x with lastAt := s.now, ackDue := true })
  else s.segAbort src x 0x0704

/-- SEG_DATA (R476). -/
def execSegData (src : BitVec 7) (txn : BitVec 6) (data : List Byte) (s : State) : Host.Outcome State Fault Refusal :=
  let t := txn.toNat
  let n := src.toNat
  let len := byteAt data 2
  let seq := byteAt data 0
  let ok := decide (1 ≤ len) && decide (len ≤ 60) && canFits data (4 + len) && byteAt data 3 == 0 && decide (byteAt data 1 ≤ 1)
    && decide (1 ≤ seq) && decide (seq ≤ 16)
  .next (s.withPeer n t 0 (fun s =>
    match s.seg? n with
    | none => s.canAbort n t 0 (odNo 0x0704)
    | some x =>
      if !ok then s.canAbort n t x.key (odNo 0x0801)
      else if !x.write || x.txn ≠ t then s.canAbort n t x.key (odNo 0x0704)
      else s.segTake n x seq (byteAt data 1 == 1) (bytesAt data 4 len)))

/-- A SEG_ACK of a read transfer: it completes, resends from ACKSEQ + 1, or goes on with the next block. -/
def State.segAcked (s : State) (src : Nat) (x : Seg) (seq status : Nat) : State :=
  if x.seq < seq || (status == 1 && !(x.last && seq == x.seq)) then s.segAbort src x 0x0704
  else if status == 1 then s.setSeg src none
  else if seq < x.seq then (s.setSeg src (some { x with lastAt := s.now })).sendBlock src x.txn x.data (seq + 1) x.seq
  else if x.last then s.setSeg src (some { x with lastAt := s.now })
  else s.startBlock src x (x.data.drop (60 * x.seq))

/-- SEG_ACK (R476). -/
def execSegAck (src : BitVec 7) (txn : BitVec 6) (data : List Byte) (s : State) : Host.Outcome State Fault Refusal :=
  let t := txn.toNat
  let n := src.toNat
  .next (s.withPeer n t 0 (fun s =>
    match s.seg? n with
    | none => s.canAbort n t 0 (odNo 0x0704)
    | some x =>
      if data.length ≠ 8 || !zeroAt data 2 6 || 1 < byteAt data 1 then s.canAbort n t x.key (odNo 0x0801)
      else if x.write || x.txn ≠ t then s.canAbort n t x.key (odNo 0x0704)
      else s.segAcked n x (byteAt data 0) (byteAt data 1)))

/-- SEG_ACK_TIMER_EXPIRY (R476): 20 ms after the last frame the receiver acknowledges what it has in order. -/
def execSegAckTimerExpiry (src : BitVec 7) (s : State) : Host.Outcome State Fault Refusal :=
  match s.seg? src.toNat with
  | none => .next s
  | some x =>
    if !x.ackDue || !s.canServes then .next s
    else
      let s := s.advance (x.lastAt + 20 * Config.ms)
      .next ((s.setSeg src.toNat (some { x with ackDue := false })).segAck src.toNat x.txn x.seq 0)

/-- SEG_TIMEOUT (R476): no frame of the transfer for 100 ms. -/
def execSegTimeout (src : BitVec 7) (s : State) : Host.Outcome State Fault Refusal :=
  match s.seg? src.toNat with
  | none => .next s
  | some x => .next (if s.canServes then (s.advance (x.lastAt + 100 * Config.ms)).segAbort src.toNat x 0x0703 else s)

/-- ABORT (R476): a peer's ABORT ends its transfer. A malformed one is refused (R473); no frame answers another. -/
def execAbortFrame (src : BitVec 7) (txn : BitVec 6) (data : List Byte) (s : State) : Host.Outcome State Fault Refusal :=
  let n := src.toNat
  .next (s.withPeer n txn.toNat (frameKey data) (fun s =>
    if data.length == 8 && byteAt data 3 == 0 then s.setSeg n none else s.canAbort n txn.toNat (frameKey data) odMalformed))

/-! ### Subscriptions and idle sessions -/

/-- Value of a subscribed object: the snapshot's (R510), else the value now where it can be reached. -/
def State.sampled (s : State) (key : Nat) (r : OdRow) : Option Nat :=
  match s.tm.snapshot.find? (fun e => e.1 == key) with
  | some e => some e.2
  | none => if s.readReach r key then some (s.odValue 0 r key) else none

/-- NOTIFY_SAMPLE (R488, R509, R510): a period boundary of subscription k. -/
def execNotifySample (k : Fin 32) (s : State) : Host.Outcome State Fault Refusal :=
  let key := s.o (K.NTF_OBJECT k)
  let dst := s.o (K.NTF_DEST k)
  match odRow? key, s.sess? (sidCan dst) with
  | some r, some x =>
    match s.sampled key r with
    | none => .next s
    | some v =>
      let same := s.o (K.NTF_ON_CHANGE k) == 1 && KMap.get none s.mg.lastSent k == some v
      if !bit x.feat 2 || same || !s.canServes then .next s
      else
        let s : State := { s with mg := { s.mg with lastSent := KMap.set none s.mg.lastSent k (some v) } }
        .next (s.canSend 4 dst 0 (canData (keyBytes key ++ toBytes 1 r.type.bytes ++ toBytes 8 s.tm.snapCt ++ toBytes r.type.bytes v)))
  | _, _ => .next s

/-- SESSION_IDLE_EXPIRY (R466): a CAN FD or service-port session has been idle for SESSION_IDLE. -/
def execSessionIdleExpiry (sess : SessRef) (s : State) : Host.Outcome State Fault Refusal :=
  match s.sess? sess with
  | none => .next s
  | some x =>
    if (sidPath sess ≠ 1 && sidPath sess ≠ 3) || !s.islandUp then .next s
    else .next ((s.advance (x.lastAt + s.o K.SESSION_IDLE * 1000 * Config.ms)).closeSession sess)

end Sys2Proof.Machine
end

