-- ==== Sys2Proof/Machine/Csr.lean ====
section
/-!
DEFINITION. Control and status registers as they are read and written (R5, R6, R18): PLK_MODE_STAT (R61), SVC_COREn_MEMSTAT
(R165), the region units (R402), SEAM_DIAG (R340), SDS_LANEnn_* (R290), SPC_SLOTnn_STAT (R439), EVT_BLKnnn_* (R444).
-/
namespace Sys2Proof.Machine

/-- A register of a die's window. -/
inductive CsrReg where
  | evt (n word : Nat)
  | lane (l word : Nat)
  | diag (sm d : Nat)
  | plank
  | memStat (c : Nat)
  | unit (c k word : Nat)
  | slotStat (n : Nat)
  | none
deriving DecidableEq, Repr, Inhabited

/-- Registers of the hub's own. -/
def hubReg (off : Nat) : CsrReg :=
  if off == 0x00400000 then .plank
  else if 0x00600000 ≤ off && off < 0x00604000 && off % 0x1000 == 0 then .diag ((off - 0x00600000) / 0x1000) 1
  else if 0x00800000 ≤ off && off < 0x00800400 && off % 0x100 == 0 then .memStat ((off - 0x00800000) / 0x100)
  else if 0x00801000 ≤ off && off < 0x00801800 && (off - 0x00801000) % 0x200 < 0x100 then
    .unit ((off - 0x00801000) / 0x200) ((off - 0x00801000) % 0x200 / 0x10) (off % 0x10 / 4)
  else .none

/-- The register at an aligned offset of a die's window (R18). A block's registers stand only in the window of its die. -/
def csrReg (die off : Nat) : CsrReg :=
  if 0x01800000 ≤ off && off < 0x01800000 + 0x40 * 640 then
    let n := (off - 0x01800000) / 0x40
    if blockDie n == die && !blockReserved n then .evt n (off % 0x40 / 4) else .none
  else if die == 4 then hubReg off
  else if die < 4 && off == 0x00600000 then .diag die 0
  else if die < 4 && 0x01000000 ≤ off && off < 0x01000000 + 0x20 * 96 && off % 0x20 < 0x10 then
    .lane (96 * die + (off - 0x01000000) / 0x20) (off % 0x20 / 4)
  else if (die == 5 || die == 6) && 0x1000 ≤ off && off < 0x1000 + 0x40 * 12 && off % 0x40 == 0 then
    .slotStat ((die - 5) * 12 + (off - 0x1000) / 0x40)
  else .none

/-! ### Reads -/

/-- PLK_MODE_STAT. -/
def State.modeStat (s : State) : Nat :=
  s.o K.PLANK_MODE + b2n s.seamsOk * 4 + b2n (s.o K.MATCH_SELFTEST == 2) * 8 + s.c K.FORCE_FULLING * 16 + s.pl.lastCause * 256
    + b2n s.pl.conflict * 2 ^ 16

/-- SEAM_DIAG (R340): the sender of direction d; STRAND 9 to 15 names no strand. -/
def State.diagStat (s : State) (sm d : Nat) : Nat :=
  let k := s.csrAt (diagDie sm d) (diagOffset sm d)
  let x := if k < 9 then s.strandOf sm d k else {}
  let m := s.seam sm
  k + b2n x.injOnce * 16 + b2n x.injAll * 32 + x.wire * 64 + b2n (if d == 0 then m.deniedTile else m.deniedHub) * 2 ^ 13
    + b2n x.kaHold * 2 ^ 14 + (if d == 0 then m.nakUp else m.nakDown) * 2 ^ 16

/-- Words of an event block (R444). -/
def EvtBlock.word (b : EvtBlock) (i : Nat) : Nat :=
  if i == 0 then b.stat
  else if i == 1 then b.count
  else if i == 2 then b.timer.getD 0
  else if i == 3 then b.inj
  else if 4 ≤ i && i < 12 then b.fer / 2 ^ (32 * (i - 4)) % 2 ^ 32
  else 0

/-- Words of a lane (R290): LOCKED and the error count of a running checker are free values, since they measure what the lane
receives. -/
def State.laneWord (s : State) (l i : Nat) : Nat × State :=
  let x := s.lane l
  let running := bit x.test 6
  match i with
  | 0 => if running then (setBit x.test 14 (bit s.freeVal 0), s.freeNext) else (x.test, s)
  | 1 => if running then
      let v := s.freeVal % 2 ^ 32
      (v, s.freeNext.updLane l (fun x => { x with errs := v }))
    else (x.errs, s)
  | 2 => (x.upatLo, s)
  | _ => (x.upatHi, s)

/-- Word i of a region (R402): ATTR carries RGN_BAD. -/
def State.unitWord (s : State) (c k i : Nat) : Nat :=
  if i == 0 then setBit (s.coreWord c k 0) 30 (KMap.get false (s.coreAt c).rgnBadMap k) else s.coreWord c k i

/-- Value of a register, and the state after its read. -/
def State.csrValue (s : State) : CsrReg → Nat × State
  | .evt n i => ((s.blk n).word i, s)
  | .lane l i => s.laneWord l i
  | .diag sm d => (s.diagStat sm d, s)
  | .plank => (s.modeStat, s)
  | .memStat c => (s.memStat c, s)
  | .unit c k i => (s.unitWord c k i, s)
  | .slotStat n => (s.spcStat n, s)
  | .none => (0, s)

/-! ### Writes -/

/-- A write of SEAM_DIAG (R340): the other fields act on the STRAND that the same write names. -/
def State.diagPut (s : State) (sm d v : Nat) : State :=
  let s := s.setCsr (diagDie sm d) (diagOffset sm d) (v % 16)
  let s := if bit v 13 then s.updSeam sm (fun x => if d == 0 then { x with deniedTile := false } else { x with deniedHub := false })
    else s
  let k := v % 16
  let asks := bit v 4 || bit v 5 || bits v 12 6 ≠ 0x7F || bit v 14
  let open_ := s.injOpen
  let s := if asks && !open_ then s.injDeny sm d else s
  if 9 ≤ k then s
  else
    (s.updStrand sm d k (fun x => { x with
      injOnce := x.injOnce || (open_ && bit v 4), injAll := open_ && bit v 5,
      wire := if open_ then bits v 12 6 else 0x7F, kaHold := open_ && bit v 14 })).diagMirror sm d k

/-- A write of a lane's register (R290, R291). -/
def State.lanePut (s : State) (l i v : Nat) : State :=
  match i with
  | 0 => s.laneTestWrite l v
  | 2 => s.updLane l (fun x => { x with upatLo := v })
  | 3 => s.updLane l (fun x => { x with upatHi := v })
  | _ => s

/-- A write of a register by its access codes (R5). -/
def State.csrPut (s : State) (via : CsrVia) (v : Nat) : CsrReg → State
  | .evt n i => if i == 0 then s.statWrite n v else if i == 3 then s.injWrite n v else s
  | .lane l i => s.lanePut l i v
  | .diag sm d => s.diagPut sm d v
  | .plank => if bit v 16 then { s with pl := { s.pl with conflict := s.pl.conflict && sameCycle s.pl.conflictAt s.now } } else s
  | .memStat c => s.memStatWrite c v
  | .unit c k i => s.unitWrite via c (fun s => if i == 3 then s.coreRegionLoad c k v else s.coreWordWrite c k i v)
  | .slotStat n => s.spcStatWrite n v
  | .none => s

/-! ### Accesses -/

/-- All ones of an access of n bytes (R6). -/
def allOnes (n : Nat) : Nat := 2 ^ (8 * n) - 1

/-- An access that R6 does not allow. -/
def csrMisaligned (off n : Nat) : Bool := n ≠ 4 || off % 4 ≠ 0

/-- An access that breaks R6: a correctable fault of the owning block, code 0xF0 (R443). -/
def State.csrBadAccess (s : State) (via : CsrVia) (die off : Nat) (write : Bool) : State :=
  s.raise (s.csrOwner die off) 1 0xF0 false
    { master := csrMaster via, access := if write then 0x0C else 0x0B, addr := some (die * 2 ^ 32 + off) }

/-- A CSR read of n bytes (R5, R6, R18): the value and the state after it. -/
def State.csrGet (s : State) (via : CsrVia) (die off n : Nat) : Nat × State :=
  if !s.dieUp die then (allOnes n, s.csrUnreach via)
  else if csrMisaligned off n then (allOnes n, s.csrBadAccess via die off false)
  else s.csrValue (csrReg die off)

/-- A CSR write of n bytes. -/
def State.csrSet (s : State) (via : CsrVia) (die off n v : Nat) : State :=
  if !s.dieUp die then s.csrUnreach via
  else if csrMisaligned off n then s.csrBadAccess via die off true
  else s.csrPut via v (csrReg die off)

/-- Where the value read goes: the core's register, or the session's answer. -/
def State.csrReturn (s : State) (via : CsrVia) (die off v : Nat) : State :=
  match via with
  | .core c => s.updCore c (fun x => { x with rd := v })
  | .service sid => s.emit .csr sid [die, off, v]

/-- REGISTER_READ (R5, R6, R18). -/
def execRegisterRead (via : CsrVia) (die : DieIx) (offset : Word32) (nbytes : Nat) (s : State) : Host.Outcome State Fault Refusal :=
  if !s.csrAllowed via die then .next s
  else
    let r := s.csrGet via die offset.toNat nbytes
    .next (r.2.csrReturn via die offset.toNat r.1)

/-- REGISTER_WRITE (R5, R6, R18). -/
def execRegisterWrite (via : CsrVia) (die : DieIx) (offset : Word32) (nbytes : Nat) (value : Word32) (s : State) :
    Host.Outcome State Fault Refusal :=
  .next (if !s.csrAllowed via die then s else s.csrSet via die offset.toNat nbytes value.toNat)

end Sys2Proof.Machine
end

