-- ==== Sys2Proof/Machine/Cores.lean ====
section
/-!
DEFINITION. Accesses of the service cores (R145-R148, R151-R157, R160, R386, R391, R463).
-/
namespace Sys2Proof.Machine

/-! ### Checks -/

/-- Causes of a core's exceptions, as State keeps the latest: 0 any other, 1 region fault, 2 alignment. -/
def causeRegion : Nat := 1
/-- Alignment exception of LDRES and STCOND (R151). -/
def causeAlign : Nat := 2

/-- ACCESS code of a core's access (R449). -/
def needCode (n : Needs) : Nat := if n.exec then 4 else if n.read && n.write then 3 else if n.write then 2 else 1

/-- A refusal by core c's region unit (R391): a precise exception and a first-error record. -/
def State.coreFault (s : State) (c : Nat) (n : Needs) (a : Nat) (g : GFault) : State :=
  (s.raise (568 + c) 1 1 false
    { master := 0x70 + c, access := needCode n, addr := some g.addr, detail := s.guardDetail g a 0 }).coreException c causeRegion

/-- Check bits that a diagnostic has inverted are read with an access (R463): the core's cache (E568+c codes 0x04 and 0x05), the region
unit, whose parity has no code, and the cluster SRAM on a cluster read (E572). -/
def State.coreEcc (s : State) (c a : Nat) (reads : Bool) : State :=
  let s := (s.ecc (568 + c) 0 4 5 3).2
  let s := (s.injFire (568 + c) 1).2
  match coreSpace a with
  | .sram _ => if reads then (s.ecc 572 0 1 2 3).2 else s
  | _ => s

/-- An access goes on unless an uncorrectable error in its memory has just reset the hub (R454). -/
def State.ifUp (s : State) (f : State → State) : State := if s.hubHeld then s else f s

/-! ### Loads and stores -/

/-- A load's value has come. -/
def State.setRd (s : State) (c v : Nat) : State := s.updCore c (fun x => { x with rd := v })

/-- A fabric load or fetch: the core's own stores to its bytes go first (R147); each piece is a request of its own (R151). A core
with 16 loads outstanding waits. -/
def State.fabricLoad (s : State) (c a n tag : Nat) : State :=
  let ps := accessPieces a n
  if 16 < (s.coreAt c).loads + ps.length then s
  else
    let s := (s.drainOverlap c a n).updCore c (fun x => { x with loads := x.loads + ps.length, rd := if tag == fetchTag then x.rd else 0 })
    ps.foldl (fun (s : State) p => s.coreIssue c (a + p.1) p.2 false 0 p.1 n tag) s

/-- Room for one more store: the oldest leaves a full buffer. -/
def State.bufRoom (s : State) (c : Nat) : State :=
  match (s.coreAt c).buf with
  | b :: l => if 32 ≤ l.length + 1 then s.performStore c b else s
  | [] => s

/-- One piece of a store enters the buffer (R148). -/
def State.bufStore (s : State) (c a n data : Nat) (fabric : Bool) : State :=
  let s := s.bufRoom c
  let b : BufStore := { id := s.ord.nextStore, addr := a, bytes := n, data := data, fabric := fabric }
  ({ s with ord := { s.ord with nextStore := s.ord.nextStore + 1 } } : State).updCore c (fun x => { x with buf := x.buf ++ [b] })

/-- The core holds a reservation on the granule of an address, or has asked for one (R154, R158). -/
def State.holdsGranule (s : State) (c a : Nat) : Bool :=
  (match (s.coreAt c).resv with
    | some r => r.granule == a / 64
    | none => false)
  || (match (s.coreAt c).resPend with
    | some (r, held) => held && r.granule == a / 64
    | none => false)

/-- A plain store (R148, R151): its pieces enter the buffer; a store to the core's reserved granule ends its reservation
(R156). -/
def State.coreStore (s : State) (c a n data : Nat) (fabric : Bool) : State :=
  let s := if s.holdsGranule c a || s.holdsGranule c (a + n - 1) then s.clearResv c else s
  (accessPieces a n).foldl (fun (s : State) p => s.bufStore c (a + p.1) p.2 (sliceBytes data p.1 p.2) fabric) s

/-- A device access (R6, R151): performed at once, as written. -/
def State.coreDevice (s : State) (c : CoreIx) (op : CoreOp) (die off n : Nat) : State :=
  match op with
  | .store v => s.csrSet (.core c) die off n v.toNat
  | _ =>
    let r := s.csrGet (.core c) die off n
    r.2.setRd c r.1

/-- What an access needs (R376). -/
def coreNeeds : CoreOp → Needs
  | .load | .loadLate | .perform => { read := true }
  | .store _ => { write := true }
  | .fetch => { exec := true }

/-- A checked access is performed or enters the buffer. -/
def State.corePerform (s : State) (c : CoreIx) (op : CoreOp) (a n : Nat) : State :=
  match coreSpace a, op with
  | .csr die off, _ => s.coreDevice c op die off n
  | .sram _, .load => let s := s.performOverlap c a n; s.setRd c (Memory.read (s.coreSram c) a n)
  | .sram _, .loadLate =>
    if 16 ≤ (s.coreAt c).loads then s
    else (s.performOverlap c a n).updCore c (fun x => { x with loads := x.loads + 1, late := x.late ++ [(a, n)] })
  | .sram _, .store v => (s.performOverlap c a n).coreStore c a n v.toNat false
  | .sram _, .fetch => s
  | _, .perform => s
  | _, .load | _, .loadLate => s.fabricLoad c a n 0
  | _, .store v => s.coreStore c a n v.toNat true
  | _, .fetch => s.fabricLoad c a n fetchTag

/-- CORE_MEMORY_ACCESS (R147, R148, R151, R391): a plain load, store or instruction fetch; a load of cluster memory is performed at once or
later. A core that a barrier holds, or that is in reset or contained, performs none. -/
def execCoreMemoryAccess (c : CoreIx) (op : CoreOp) (addr : Word64) (nbytes : Fin 9) (s : State) : Host.Outcome State Fault Refusal :=
  let s := s.settleBar c
  let a := addr.toNat
  let n := nbytes.val
  if op = .perform then .next (s.performLoad c)
  else if n == 0 || !s.coreRuns c then .next s
  else match s.coreCheck c (coreNeeds op) a n with
    | some g => .next (s.coreFault c (coreNeeds op) a g)
    | none => .next ((s.coreEcc c a (match op with | .store _ => false | _ => true)).ifUp (fun s => s.corePerform c op a n))

/-! ### LDRES and STCOND (R154-R157) -/

/-- Window whose lines take reservations: ACTIVE, DEGRADED or RESYNC. -/
def State.resWindow (s : State) (w : Nat) : Bool := decide (2 ≤ s.o (K.STATE w)) && decide (s.o (K.STATE w) ≤ 4)

/-- A conditional request of core c for its window line at the crown (R154, R157). -/
def State.coreCond (s : State) (c a n w off : Nat) (write : Bool) (data : Nat) : State :=
  let line := off / 64
  let t : Txn := { purpose := .core, master := 0x70 + c, port := 0xFF, agent := agentCore c, dest := 0xFF, write := write,
                   addr := a, bytes := n, data := data, cls := .coh, line := n, view := a, blame := s.windowPort w }
  let r := s.newTxn t
  r.2.toCrown w line { r.2.hubEntry r.1 t with cond := true }

/-- LDRES on memory that it may read. -/
def State.loadReserve (s : State) (c : CoreIx) (a n : Nat) : State :=
  match coreSpace a with
  | .sram _ =>
    let s := ((s.performOverlap c a n).clearResv c).updCore c (fun x => { x with resv := some { granule := a / 64, fabric := false } })
    s.setRd c (Memory.read (s.coreSram c) a n)
  | .window w off =>
    if !s.resWindow w then s.fabricLoad c a n 0
    else if 16 < (s.coreAt c).loads + 1 then s
    else
      let s := ((s.drainOverlap c a n).clearResv c).updCore c (fun x =>
        { x with loads := x.loads + 1, rd := 0, resPend := some ({ granule := a / 64, fabric := true, w := w, line := off / 64 }, true) })
      s.coreCond c a n w off false 0
  | _ => s.corePerform c .load a n

/-- LDRES (R154, R155): 4 or 8 bytes; misaligned, an alignment exception (R151). -/
def execLdres (c : CoreIx) (addr : Word64) (eight : Bool) (s : State) : Host.Outcome State Fault Refusal :=
  let s := s.settleBar c
  let a := addr.toNat
  let n := if eight then 8 else 4
  if !s.coreRuns c then .next s
  else if a % n ≠ 0 then .next (s.coreException c causeAlign)
  else match s.coreCheck c { read := true } a n with
    | some g => .next (s.coreFault c { read := true } a g)
    | none => .next ((s.coreEcc c a true).ifUp (fun s => s.loadReserve c a n))

/-- A conditional store to the cluster SRAM that succeeds: it is performed at one moment, after the core's own older stores to
its bytes. -/
def State.condSram (s : State) (c a n data : Nat) : State :=
  let s := ((s.performOverlap c a n).drainOverlap c a n).setRd c 0
  let s : State := { s with ord := { s.ord with sram := Memory.write s.ord.sram a n data } }
  s.dropCluster (a / 64) c

/-- STCOND on memory that it may write (R155, R157): the reservation is cleared, whatever the result. -/
def State.storeCond (s : State) (c : CoreIx) (a n data : Nat) : State :=
  let held := s.holdsGranule c a
  match coreSpace a with
  | .sram _ => if held then (s.clearResv c).condSram c a n data else (s.clearResv c).setRd c 1
  | .window w off =>
    if !s.resWindow w then (s.clearResv c).setRd c 2
    else if !held then (s.clearResv c).setRd c 1
    else ((s.drainOverlap c a n).updCore c (fun x =>
      { x with resv := none, resPend := x.resPend.map (fun r => (r.1, false)) })).coreCond c a n w off true data
  | _ => (s.clearResv c).setRd c 2

/-- STCOND (R157): 0 stored, 1 not held, 2 no reservations there. -/
def execStcond (c : CoreIx) (addr : Word64) (eight : Bool) (data : Word64) (s : State) : Host.Outcome State Fault Refusal :=
  let s := s.settleBar c
  let a := addr.toNat
  let n := if eight then 8 else 4
  let need : Needs := { read := true, write := true }
  if !s.coreRuns c then .next s
  else if a % n ≠ 0 then .next (s.coreException c causeAlign)
  else match s.coreCheck c need a n with
    | some g => .next (s.coreFault c need a g)
    | none => .next ((s.coreEcc c a false).ifUp (fun s => s.storeCond c a n (data.toNat % 2 ^ (8 * n))))

end Sys2Proof.Machine
end

