-- ==== Sys2Proof/Machine/Gpf.lean ====
section
/-!
DEFINITION. The device power warning and global persistent flush (R164, R404, R424, R426-R428).
-/
namespace Sys2Proof.Machine

/-! ### The flush (R428) -/

/-- Memory targets that a flush reaches (R428). -/
def State.flushTargets (s : State) : List Nat :=
  (List.range 64).filter (fun m =>
    match s.targetPort m with
    | none => false
    | some p => s.linkUp p && (s.poolBound m || !(s.boundIn p).isEmpty))

/-- A timeout of the CXL Port GPF DVSEC in ps: base [3:0], scale [11:8] in powers of ten of 1 µs. PRESUMED: as CXL has it. -/
def gpfTimeout (w : Nat) : Nat := bits w 3 0 * 10 ^ bits w 11 8 * Config.us

/-- The flush of target m has ended: it has completed, or the timeouts that the hosts set for its port have passed (R428). -/
def State.flushedTarget (s : State) (m : Nat) : Bool :=
  s.pw.gpf.completed.contains m || (match KMap.get none s.pw.gpf.limit m with | some t => decide (t ≤ s.now) | none => false)

/-- The flush state ends when every step has finished and every source has cleared (R428). -/
def State.settleFlush (s : State) : State :=
  if s.pw.gpf.running && !s.warnStands && s.flushTargets.all s.flushedTarget then
    ((({ s with pw := { s.pw with gpf := {} } } : State).updWarn).raise 614 0 2 false island)
  else s

/-! ### The message (R426, R427) -/

/-- Payload of a power-warning message (R427) for the warnings of one kind. -/
def warnPayload (l : List WarnEv) (clear gpf : Bool) (seq : Nat) : Nat :=
  let first := l.foldl (fun (a : Nat × Nat) e => if e.stamp < a.1 then (e.stamp, e.state) else a) (2 ^ 64, 0)
  let slots := l.foldl (fun m e => if e.src < 24 then setBit m e.src true else m) 0
  first.1 + first.2 * 2 ^ 64 + (if clear then 2 else 1) * 2 ^ 67 + b2n (l.any (fun e => e.src == 24)) * 2 ^ 72 + slots * 2 ^ 80
    + b2n gpf * 2 ^ 104 + seq % 2 ^ 32 * 2 ^ 128

/-- Merge a payload into one of the same KIND that still waits (R178): VBUS and SLOTS are ORed in, the earlier CT_WARN stays with
its CT_STATE; GPF stays once set. -/
def mergeWarn (old new : Nat) : Nat :=
  let head := if bits old 63 0 ≤ bits new 63 0 then bits old 66 0 else bits new 66 0
  head + bits old 71 67 * 2 ^ 67 + (Nat.lor (bits old 104 72) (bits new 104 72)) * 2 ^ 72 + bits old 159 128 * 2 ^ 128

/-- Put a power-warning message in its place: it merges with a message of its KIND that still waits, and then
every tile takes the merged one, so that none is lost (R178). -/
def State.queueWarn (s : State) (l : List WarnEv) (clear gpf : Bool) : State :=
  if l.isEmpty then s
  else
    let p := warnPayload l clear gpf s.pw.warnSeq
    let same := fun (e : List Nat × Bcast) => bits e.2.payload 68 67 == (if clear then 2 else 1)
    if s.tm.warnWait.any same then
      { s with tm := { s.tm with warnWait := s.tm.warnWait.map (fun e =>
        if same e then ([0, 1, 2, 3], { e.2 with payload := mergeWarn e.2.payload p }) else e) } }
    else
      ({ s with tm := { s.tm with warnWait := s.tm.warnWait ++ [([0, 1, 2, 3], { code := 3, payload := p })] },
                pw := { s.pw with warnSeq := (s.pw.warnSeq + 1) % 2 ^ 32 } } : State).incO K.POWER_WARNINGS

/-- Global persistent flush starts (R164 step 1, R428): the cores drain their store buffers. -/
def State.startFlush (s : State) : State :=
  let s := [0, 1, 2, 3].foldl (fun (s : State) c => s.drainCore c) s
  let s := (({ s with pw := { s.pw with gpf := { running := true, startedAt := s.now } } } : State).updWarn)
  s.raise 614 0 1 false island

/-- The window closes (R426-R428): one message of each KIND is sent, and a flush that a warning of the window asked for starts. -/
def State.buildWarnings (s : State) : State :=
  let win := s.pw.win
  let gpf := win.any (·.gpf)
  let s : State := { s with pw := { s.pw with win := [] } }
  let s := if gpf then s.startFlush else s
  let s := s.queueWarn (win.filter (fun e => !e.clear)) false gpf
  (s.queueWarn (win.filter (·.clear)) true false).drainBcast

/-- POWER_WARNING_MESSAGE (R426-R428): the build window of 6 FCLK ends. -/
def execPowerWarningMessage (s : State) : Host.Outcome State Fault Refusal :=
  if s.pw.win.isEmpty || s.hubHeld then .next s else .next s.buildWarnings.settleFlush

/-! ### Warnings (R404, R424) -/

/-- A warning reaches the hatband (R426): it is stamped in the open window. The command stands for the cycle in which the
synchroniser delivers it. An assertion with no flush running starts one when GPF_ENABLE is true (R428). A hub held in reset
stamps nothing. -/
def State.stampWarning (s : State) (clear : Bool) (src : Nat) : State :=
  if s.hubHeld then s.updWarn
  else
    let starts := !clear && s.cB K.GPF_ENABLE && !s.pw.gpf.running && !s.pw.win.any (·.gpf)
    let e : WarnEv := { clear := clear, src := src, stamp := s.ct, state := s.ctState, gpf := starts }
    -- a warning after the 6 cycles of the open window finds its message built (R426)
    let s := if !s.pw.win.isEmpty && decide (s.pw.winAt + 6 * Config.fclk ≤ s.now) then s.buildWarnings else s
    ({ s with pw := { s.pw with winAt := if s.pw.win.isEmpty then s.now else s.pw.winAt, win := s.pw.win ++ [e] } } : State).updWarn

/-- VBUS_WARN_ASSERT (R404): VBUS_OR has stood below VBUS_WARN_LEVEL for 1 µs. -/
def execVbusWarnAssert (s : State) : Host.Outcome State Fault Refusal :=
  if s.st.porHeld || s.pw.vbusWarn then .next s
  else
    let s : State := { s with pw := { s.pw with vbusWarn := true } }
    .next ((s.raise 604 0 1 false island).stampWarning false 24)

/-- VBUS_WARN_CLEAR (R404): VBUS_OR has stood at VBUS_WARN_LEVEL + 1.0 V for 1 ms. -/
def execVbusWarnClear (s : State) : Host.Outcome State Fault Refusal :=
  if s.st.porHeld || !s.pw.vbusWarn then .next s
  else
    let s : State := { s with pw := { s.pw with vbusWarn := false } }
    .next (((s.raise 604 0 2 false island).stampWarning true 24).settleFlush)

/-- FEED_WARNING_ASSERT (R424): the slot's node has stayed below WARN_LEVEL for 1 µs. WARN_Nnn is asserted; with GPF_ON_WARN
the slot becomes a source of the device power warning. -/
def execFeedWarningAssert (n : SlotIx) (s : State) : Host.Outcome State Fault Refusal :=
  if s.st.porHeld || (s.slot n).warn then .next s
  else
    let s := s.updSlot n (fun x => { x with warn := true, warnSeen := true, warnAt := s.now })
    let s := s.raise (458 + 3 * n) 1 0x10 false (spcOf n)
    if s.cB (K.GPF_ON_WARN n) then
      .next (({ s with pw := { s.pw with srcSlots := setBit s.pw.srcSlots n true } } : State).stampWarning false n)
    else .next s

/-- FEED_WARNING_CLEAR (R424): the node has stayed at WARN_LEVEL + 1.0 V for 1 ms. -/
def execFeedWarningClear (n : SlotIx) (s : State) : Host.Outcome State Fault Refusal :=
  if s.st.porHeld || !(s.slot n).warn then .next s
  else
    let s := s.updSlot n (fun x => { x with warn := false })
    let s := s.raise (458 + 3 * n) 1 0x11 false (spcOf n)
    if bit s.pw.srcSlots n then
      .next ((({ s with pw := { s.pw with srcSlots := setBit s.pw.srcSlots n false } } : State).stampWarning true n).settleFlush)
    else .next s

/-! ### Targets (R164 step 4, R428) -/

/-- HOST_GPF_PHASE2_REQUEST (R428): the host's own Phase 2 request toward the device. -/
def execHostGpfPhase2Request (h : HostIx) (s : State) : Host.Outcome State Fault Refusal :=
  if s.hubHeld || !s.isVcsUp h then .next s
  else
    let g := s.pw.gpf
    let owns := fun (m : Nat) => match s.targetPort m with
      | some p => !s.poolBound m && (s.boundIn p).any (fun e => e.1 == h.val)
      | none => false
    -- outside a flush a host's new request begins a new round for the targets it owns
    let fresh := fun (l : List Nat) => if g.running then l else l.filter (fun m => !owns m)
    .next { s with pw := { s.pw with gpf := { g with phase2 := if g.phase2.contains h.val then g.phase2 else g.phase2 ++ [h.val],
                                                     forwarded := fresh g.forwarded
                                                     completed := fresh g.completed } } }

/-- Crown writes to target m that wait in a line queue or on their way to the crown: not yet issued toward it. -/
def State.crownWritesTo (s : State) (m : Nat) : Bool :=
  let onM := fun (w : Nat) => s.cB (K.WIN_ENABLE w)
    && (s.c (K.PRIMARY_TARGET w) == m || (s.cB (K.MIRROR w) && s.c (K.MIRROR_TARGET w) == m))
  let waits := fun (e : LineEntry) => (e.op = .wr && !e.issued) || !e.wbs.isEmpty
  s.cr.queue.any (fun q => onM (q.1 / 2 ^ 36) && q.2.any waits)
    || s.cr.coming.any (fun e => match e.2 with | some r => onM r.w && r.entry.op = .wr | none => false)
    || s.cr.inbound.any (fun e => e.2.any (fun r => onM r.w && r.entry.op = .wr))
    || s.cr.heldUp.any (fun r => onM r.w && r.entry.op = .wr)

/-- The condition of R164 step 4 for target m at port p: no write accepted before stands in front of it. DEDUCED: nothing is queued
for the port, and no crown write to the target waits. -/
def State.writesIssued (s : State) (m p : Nat) : Bool :=
  s.pl.flushed p ((List.range (s.quads p)).map (p + ·)) == 0 && !s.crownWritesTo m
    && [0, 1, 2, 3].all (fun sm => (s.sdir sm 0).ready.all (fun it => it.cell.egress ≠ p))

/-- Hosts whose Phase 2 request target m waits for: a pool target's hosts with an enabled window or an extent, a host-bound
target's owners (R428). -/
def State.flushHosts (s : State) (m p : Nat) : List Nat :=
  (if s.poolBound m then s.windowHostsOn m ++ s.grantees m else (s.boundIn p).map (·.1)).filter (fun h => decide (h < 64))

/-- When the flush of a target at port p, forwarded now, times out: the Phase 1 and Phase 2 timeouts of the vPPBs that bind it, the longest;
none where a vPPB has none set (R428). -/
def State.flushLimit (s : State) (p : Nat) : Option Nat :=
  let ts := (s.boundIn p).map (fun nv => (gpfTimeout (s.vppb nv.1 nv.2).gpf1, gpfTimeout (s.vppb nv.1 nv.2).gpf2))
  if ts.isEmpty || ts.any (fun t => t.1 == 0 || t.2 == 0) then none
  else some (s.now + ts.foldl (fun a t => max a (t.1 + t.2)) 0)

/-- GPF_TARGET_FORWARD (R164 step 4, R428): Phase 2 goes to a pool target of a running flush; the Phase 1 and Phase 2 messages of
the owner go to a host-bound target. -/
def execGpfTargetForward (m : TargetIx) (s : State) : Host.Outcome State Fault Refusal :=
  match s.targetPort m with
  | none => .next s
  | some p =>
    let g := s.pw.gpf
    let pool := s.poolBound m
    let asked := (s.flushHosts m p).all (fun h => g.phase2.contains h)
    let due := if pool then g.running && (asked || g.waitOver) else asked && !(s.boundIn p).isEmpty
    if s.hubHeld || !s.linkUp p || g.forwarded.contains m.val || !due || !s.writesIssued m p then .next s
    else
      let s : State := { s with pw := { s.pw with gpf := { g with forwarded := m.val :: g.forwarded,
                                                                         limit := KMap.set none g.limit m (s.flushLimit p) } } }
      .next (if pool then s.emit .gpf p [2, m.val] else (s.emit .gpf p [1, m.val]).emit .gpf p [2, m.val])

/-- GPF_HOST_WAIT_EXPIRY (R428): GPF_HOST_WAIT after the warning, a pool target that still waits for its hosts waits no more. -/
def execGpfHostWaitExpiry (s : State) : Host.Outcome State Fault Refusal :=
  let g := s.pw.gpf
  let waits := s.flushTargets.any (fun m => s.poolBound m && !g.forwarded.contains m
    && !((s.flushHosts m ((s.targetPort m).getD 0)).all (fun h => g.phase2.contains h)))
  if !g.running || g.waitOver || !waits || s.hubHeld then .next s
  else
    let s := s.advance (g.startedAt + s.c K.GPF_HOST_WAIT * Config.us)
    .next (({ s with pw := { s.pw with gpf := { g with waitOver := true } } } : State).raise 614 1 3 false island)

/-- GPF_TARGET_COMPLETE (R428): the target answers that its Phase 2 is complete. -/
def execGpfTargetComplete (m : TargetIx) (s : State) : Host.Outcome State Fault Refusal :=
  let g := s.pw.gpf
  if !g.forwarded.contains m.val || g.completed.contains m.val then .next s
  else .next (({ s with pw := { s.pw with gpf := { g with completed := m.val :: g.completed } } } : State).settleFlush)

end Sys2Proof.Machine
end

