-- ==== Sys2Proof/Machine/Mailbox.lean ====
section
/-!
DEFINITION. The CXL mailbox on function 1 of every upstream port (R466, R499-R503). A command and its answer are one step; the answer's
fields are listed in the order of the rule or of the object that gives them. PRESUMED: the numbers of return codes, opcodes and of
the Command Effects Log, which are CXL's.
-/
namespace Sys2Proof.Machine

/-! ### Answers -/

/-- Return codes. -/
def rcSuccess : Nat := 0
def rcInvalidInput : Nat := 2
def rcUnsupported : Nat := 3
def rcBusy : Nat := 6
def rcInvalidLength : Nat := 0x16
def rcInvalidLog : Nat := 0x17

/-- Answer a command on VCS h's mailbox; its doorbell interrupt, where the host has enabled it, uses vector 63 (R499). -/
def State.mbox (s : State) (h rc : Nat) (out : List Nat) : State :=
  let s := s.emit .mailbox h (rc :: out)
  if KMap.get false s.mg.doorbellInt h then s.sendMsix h 63 else s

/-- VCS h's mailbox takes commands: its session is open and the island serves it. -/
def State.mboxServes (s : State) (h : Nat) : Bool :=
  !s.hubHeld && s.isVcsUp h && s.islandServes && (s.sess? (sidMailbox h)).isSome

/-- Run a command where the mailbox takes it; its session's idle time restarts. -/
def State.onMbox (s : State) (h : Nat) (f : State → State) : State :=
  if s.mboxServes h then f (s.updSess (sidMailbox h) (fun x => { x with lastAt := s.now })) else s

/-- A fabric-manager command (R500): on the mailbox of VCS FM_HOST only. -/
def State.onFm (s : State) (h : Nat) (f : State → State) : State :=
  s.onMbox h (fun s => if s.c K.FM_HOST == h then f s else s.mbox h rcUnsupported [])

/-- The return code of an abort on the fabric-manager path (R503, R253). -/
def abortRc (a : OdAns) : Nat :=
  if a.abort == 0 then rcSuccess else if a.abort == 0x0502 || a.abort == 0x0503 then rcBusy else rcInvalidInput

/-! ### Commands of every mailbox (R500) -/

/-- IDENTIFY (R500, R508): vendor, device, serial number, payload size as a power of two. -/
def execIdentify (h : HostIx) (s : State) : Host.Outcome State Fault Refusal :=
  .next (s.onMbox h (fun s => s.mbox h rcSuccess [odDefault K.PCI_VENDOR, odDefault K.PCI_DEVICE, s.life.fuses.serial, 14]))

/-- Largest response of VCS h's mailbox as a power of two; the payload size until it is set. -/
def State.respLimit (s : State) (h : Nat) : Nat := KMap.get 14 s.mg.respLimit h

/-- GET_RESPONSE_MESSAGE_LIMIT (R500). -/
def execGetResponseMessageLimit (h : HostIx) (s : State) : Host.Outcome State Fault Refusal :=
  .next (s.onMbox h (fun s => s.mbox h rcSuccess [s.respLimit h]))

/-- SET_RESPONSE_MESSAGE_LIMIT (R500). PRESUMED: 8 to 20 are legal, and a limit above the payload size acts as that. -/
def execSetResponseMessageLimit (h : HostIx) (limit : Byte) (s : State) : Host.Outcome State Fault Refusal :=
  let n := limit.toNat
  .next (s.onMbox h (fun s =>
    if n < 8 || 20 < n then s.mbox h rcInvalidInput []
    else ({ s with mg := { s.mg with respLimit := KMap.set 14 s.mg.respLimit h (min n 14) } } : State).mbox h rcSuccess [min n 14]))

/-- The Command Effects Log's identifier, as CXL numbers it: 0DA9C0B5-BF41-4B78-8F79-96B1623B3F17. -/
def effectsLog : Nat := 0x0DA9C0B5BF414B788F7996B1623B3F17

/-- Opcodes of the commands of every mailbox, and those of the fabric manager's. -/
def mboxOpcodes : List Nat := [0x0001, 0x0003, 0x0004, 0x0400, 0x0401, 0xC000]
def fmOpcodes : List Nat :=
  [0x5100, 0x5101, 0x5102, 0x5103, 0x5200, 0x5201, 0x5202, 0x5203, 0x5300, 0x5600, 0x5601, 0x5602, 0x5603, 0x5604, 0x5605]

/-- Opcodes that VCS h's mailbox accepts. -/
def State.mboxCommands (s : State) (h : Nat) : List Nat := if s.c K.FM_HOST == h then mboxOpcodes ++ fmOpcodes else mboxOpcodes

/-- GET_SUPPORTED_LOGS (R500): one log, with its size: 4 bytes for each command. -/
def execGetSupportedLogs (h : HostIx) (s : State) : Host.Outcome State Fault Refusal :=
  .next (s.onMbox h (fun s => s.mbox h rcSuccess [1, effectsLog, 4 * (s.mboxCommands h).length]))

/-- The log's bytes: each command's opcode and its effects, which the spec does not state (free values). -/
def State.effectsBytes (s : State) (h : Nat) : List Byte :=
  (s.mboxCommands h).zipIdx.flatMap (fun e => toBytes 2 e.1 ++ toBytes 2 (Config.freeValue (s.freeIx + e.2)).toNat)

/-- GET_LOG (R500): part of the Command Effects Log. -/
def execGetLog (h : HostIx) (log : BitVec 128) (offset : Nat) (length : Nat) (s : State) : Host.Outcome State Fault Refusal :=
  .next (s.onMbox h (fun s =>
    let d := s.effectsBytes h
    if log.toNat ≠ effectsLog then s.mbox h rcInvalidLog []
    else if length == 0 || d.length < offset + length || 16384 < length then s.mbox h rcInvalidInput []
    else ({ s with freeIx := s.freeIx + (s.mboxCommands h).length } : State).mbox h rcSuccess ((bytesAt d offset length).map (·.toNat))))

/-- MAILBOX_UNSUPPORTED_COMMAND (R500). -/
def execMailboxUnsupportedCommand (h : HostIx) (_opcode : BitVec 16) (s : State) : Host.Outcome State Fault Refusal :=
  .next (s.onMbox h (fun s => s.mbox h rcUnsupported []))

/-! ### OD_ACCESS (R501) -/

/-- Output of OD_ACCESS: ABORT, DETAIL, SIZE, LENGTH, data. -/
def State.odAnswer (s : State) (h : Nat) (a : OdAns) (size : Nat) (d : List Byte) : State :=
  s.mbox h rcSuccess ([a.abort, a.detail, size, d.length] ++ d.map (·.toNat))

/-- The read: part of an object taken whole (R483). -/
def State.odReadPart (s : State) (sid key off len : Nat) : OdAns × Nat × List Byte × State :=
  match s.readCheck sid key with
  | .inl a => (a, 0, [], s)
  | .inr r =>
    if r.type.bytes < off + len then (odMalformed, 0, [], s)
    else match s.odGet sid key with
      | .inl a => (a, 0, [], s)
      | .inr v => (odOk, r.type.bytes, bytesAt v.1 off len, v.2)

/-- The write's own form: OFFSET 0 and LENGTH the object's size, a string's may be shorter. -/
def odWriteForm (key off len : Nat) : Bool :=
  match odRow? key with
  | none => true
  | some r => off == 0 && r.type.lengthOk len

/-- The body of OD_ACCESS. -/
def State.odAccess (s : State) (h : Nat) (d : List Byte) : State :=
  let sid := sidMailbox h
  let op := leAt d 0 1
  let key := odKey (leAt d 2 2) (leAt d 1 1)
  let off := leAt d 4 4
  let len := leAt d 8 4
  if d.length ≠ 16 + (if op == 2 then len else 0) then s.mbox h rcInvalidLength []
  else if (op ≠ 1 && op ≠ 2) || len == 0 || !zeroAt d 12 4 then s.odAnswer h odMalformed 0 []
  else if op == 1 then
    if 16368 < off + len then s.odAnswer h odMalformed 0 []
    else
      let r := s.odReadPart sid key off len
      r.2.2.2.odAnswer h r.1 r.2.1 r.2.2.1
  else if !odWriteForm key off len then s.odAnswer h odMalformed 0 []
  else
    let r := s.odPut sid key (d.drop 16)
    (r.2.odAnswer h r.1 (if r.1.abort == 0 then len else 0) []).odAfter key r.1

/-- OD_ACCESS_READ (R501). -/
def execOdAccessRead (h : HostIx) (input : List Byte) (s : State) : Host.Outcome State Fault Refusal :=
  .next (s.onMbox h (fun s => s.odAccess h input))

/-- OD_ACCESS_WRITE (R501). -/
def execOdAccessWrite (h : HostIx) (input : List Byte) (s : State) : Host.Outcome State Fault Refusal :=
  .next (s.onMbox h (fun s => s.odAccess h input))

/-! ### Fabric-manager commands (R502) -/

/-- IDENTIFY_SWITCH_DEVICE (R502): physical ports, VCSs, vPPBs per VCS. -/
def execIdentifySwitchDevice (h : HostIx) (s : State) : Host.Outcome State Fault Refusal :=
  .next (s.onFm h (fun s => s.mbox h rcSuccess [96, 64, 49]))

/-- A port's link status and binding objects. -/
def State.portInfo (s : State) (p : Nat) : List Nat :=
  [s.o (K.ROLE p), s.o (K.AGENT p), s.o (K.POOL p), s.o (K.SLOT p), s.o (K.PORT_STATE p), s.o (K.AGENT_KIND p), s.o (K.LD_COUNT p),
   s.o (K.PORT_SERIAL p), b2n (s.port p).up, s.o (K.LINK_WIDTH p), s.o (K.LINK_RATE p), s.o (K.FLIT_ACTIVE p), s.o (K.PROTOCOL p),
   s.o (K.DEGRADED p), s.o (K.LTSSM_STATE p)]

/-- GET_PHYSICAL_PORT_STATE (R502, R503): a port of a tile that cannot be reached is Busy. -/
def execGetPhysicalPortState (h : HostIx) (p : PortIx) (s : State) : Host.Outcome State Fault Refusal :=
  .next (s.onFm h (fun s =>
    if !s.dieUp (tileOf p) then s.mbox h rcBusy [] else s.mbox h rcSuccess (s.portInfo p)))

/-- A bind, unbind or slot power command of port p is in progress (R502). -/
def State.portBusy (s : State) (p : Nat) : Bool :=
  (match s.fab.bindOp with | some b => b.port == p | none => false) || s.powerBusy (s.o (K.SLOT p))

/-- PHYSICAL_PORT_CONTROL (R502): port reset only. PRESUMED: its opcode is 2. -/
def execPhysicalPortControl (h : HostIx) (p : PortIx) (op : Byte) (s : State) : Host.Outcome State Fault Refusal :=
  .next (s.onFm h (fun s =>
    if op.toNat ≠ 2 then s.mbox h rcInvalidInput []
    else if s.portBusy p || s.tileHeld (tileOf p) then s.mbox h rcBusy []
    else (s.linkReset p).settleRings.mbox h rcSuccess []))

/-- A card's own answer to what the device passes to it: the spec does not give it. -/
def State.cardAsk (s : State) (h p : Nat) (args : List Nat) : State :=
  if !s.linkUp p then s.mbox h rcBusy []
  else ((s.emit .card p args).mbox h rcSuccess [s.freeVal]).freeNext

/-- SEND_PPB_CXL_IO_CONFIG_REQUEST (R502): to a port claimed for a memory target or an end device. -/
def execSendPpbCxlIoConfigRequest (h : HostIx) (p : PortIx) (reg : BitVec 12) (write : Bool) (data : Word32) (s : State) :
    Host.Outcome State Fault Refusal :=
  .next (s.onFm h (fun s =>
    if s.o (K.ROLE p) ≠ 2 && s.o (K.ROLE p) ≠ 3 then s.mbox h rcInvalidInput []
    else s.cardAsk h p ([6, reg.toNat, b2n write] ++ (if write then [data.toNat] else []))))

/-- GET_VIRTUAL_CXL_SWITCH_INFO (R270, R502): VCS_STATE, HOST_PORTS, CACHE_DEVICES, CAP_EXTENTS, the bindings of vPPBs 0 to 31. -/
def execGetVirtualCxlSwitchInfo (h : HostIx) (n : HostIx) (s : State) : Host.Outcome State Fault Refusal :=
  .next (s.onFm h (fun s =>
    s.mbox h rcSuccess ([s.vcsState n, s.hostPorts n, s.cacheDevices n, s.capExtents n] ++ (List.range 32).map (s.bindingWord n))))

/-- A manager's command through the FM-API: the checks of role, life cycle and reach, then the object's own rule. -/
def State.fmCommand (s : State) (h key v : Nat) (own : State → OdAns × State) : State :=
  let sid := sidMailbox h
  let a := match odRow? key with
    | none => odNo 0x0101
    | some r => if !s.mayWrite sid r key then odNo 0x0401 else if !s.lcPermits key v then odNo 0x0402 else odOk
  if a.abort ≠ 0 then s.mbox h (abortRc a) []
  else
    let r := own s
    r.2.mbox h (abortRc r.1) []

/-- BIND_CMD as the FM-API gives it. -/
def fmBindCmd (c : Nat) (s : State) : OdAns × State :=
  match s.bindRefusal c with
  | 0 => (odOk, s.bindAccept c)
  | r => (odNo (if r == 8 then 0x0502 else 0x0504) r, s.setO K.BIND_RESULT r)

/-- BIND_VPPB (R252, R253, R502): OP must be bind. -/
def execBindVppb (h : HostIx) (cmd : BitVec 64) (s : State) : Host.Outcome State Fault Refusal :=
  .next (s.onFm h (fun s =>
    if bits cmd.toNat 15 14 ≠ 0 then s.mbox h rcInvalidInput [] else s.fmCommand h K.BIND_CMD cmd.toNat (fmBindCmd cmd.toNat)))

/-- UNBIND_VPPB (R252, R253, R502): OP must be unbind. -/
def execUnbindVppb (h : HostIx) (cmd : BitVec 64) (s : State) : Host.Outcome State Fault Refusal :=
  .next (s.onFm h (fun s =>
    if bits cmd.toNat 15 14 ≠ 1 then s.mbox h rcInvalidInput [] else s.fmCommand h K.BIND_CMD cmd.toNat (fmBindCmd cmd.toNat)))

/-- GENERATE_AER_EVENT (R502): on vPPBs 0 to 31 of a VCS that is up. -/
def execGenerateAerEvent (h : HostIx) (n : HostIx) (v : Fin 49) (error : Word32) (s : State) : Host.Outcome State Fault Refusal :=
  .next (s.onFm h (fun s =>
    if 32 ≤ v.val || !s.isVcsUp n then s.mbox h rcInvalidInput []
    else ((s.updVppb n v (fun b => { b with aer := Nat.lor b.aer error.toNat })).emit .aer n [v.val, error.toNat]).mbox h rcSuccess []))

/-- The tunnelled command sets LD allocations. PRESUMED: the opcode stands in bytes 3 and 4 of a CXL component command, 0x5402 for Set LD
Allocations. -/
def setsLds (payload : List Byte) : Bool := (payload.getD 3 0).toNat + (payload.getD 4 0).toNat * 256 == 0x5402

/-- An MLD's LD allocations have been set (R240): LD_COUNT reports how many LDs it then exposes, which the MLD says. -/
def State.ldsSet (s : State) (p : Nat) : State := (s.setO (K.LD_COUNT p) (s.freeVal % 17)).freeNext

/-- TUNNEL_MANAGEMENT_COMMAND (R240, R502): to the FM-owned LD of an MLD, and to a pool target's own mailbox. -/
def execTunnelManagementCommand (h : HostIx) (p : PortIx) (payload : List Byte) (s : State) : Host.Outcome State Fault Refusal :=
  .next (s.onFm h (fun s =>
    let takes := s.o (K.ROLE p) == 2 && (s.o (K.AGENT_KIND p) == 3 || s.o (K.POOL p) == 1)
    if !takes then s.mbox h rcInvalidInput []
    else
      let s := s.cardAsk h p (7 :: payload.map (·.toNat))
      if s.o (K.AGENT_KIND p) == 3 && s.linkUp p && setsLds payload then s.ldsSet p else s))

/-- GET_DCD_INFO (R246, R502): capacity LDs, DC regions of each, extents of a host and of the device, extents free. -/
def execGetDcdInfo (h : HostIx) (s : State) : Host.Outcome State Fault Refusal :=
  .next (s.onFm h (fun s => s.mbox h rcSuccess [64, 1, 512, 32768, s.extentsFree]))

/-- GET_HOST_DC_REGION_CONFIGURATION (R246, R502): one region, its base, length and block size. -/
def execGetHostDcRegionConfiguration (h : HostIx) (n : HostIx) (s : State) : Host.Outcome State Fault Refusal :=
  .next (s.onFm h (fun s =>
    if s.vcsExists n then s.mbox h rcSuccess [1, 0, 512 * gibBytes, gibBytes] else s.mbox h rcInvalidInput []))

/-- GET_DC_REGION_EXTENT_LISTS (R246, R502): each mapped extent's DPA and tag. -/
def execGetDcRegionExtentLists (h : HostIx) (n : HostIx) (s : State) : Host.Outcome State Fault Refusal :=
  .next (s.onFm h (fun s =>
    if !s.vcsExists n then s.mbox h rcInvalidInput []
    else
      let l := s.fab.extents.filter (fun x => x.vcs == n.val && (x.state = .mapped || x.state = .releasing))
      s.mbox h rcSuccess (l.length :: l.flatMap (fun x => [x.dpa, x.tag]))))

/-- INITIATE_DYNAMIC_CAPACITY_ADD (R247, R502): EXTENT_CMD with OP add. -/
def execInitiateDynamicCapacityAdd (h : HostIx) (cmd : BitVec 128) (s : State) : Host.Outcome State Fault Refusal :=
  .next (s.onFm h (fun s =>
    if bits cmd.toNat 7 6 ≠ 0 then s.mbox h rcInvalidInput [] else s.fmCommand h K.EXTENT_CMD cmd.toNat (ownExtentCmd cmd.toNat)))

/-- INITIATE_DYNAMIC_CAPACITY_RELEASE (R247, R502): EXTENT_CMD with OP release by the host or forced release. -/
def execInitiateDynamicCapacityRelease (h : HostIx) (cmd : BitVec 128) (s : State) : Host.Outcome State Fault Refusal :=
  .next (s.onFm h (fun s =>
    if bits cmd.toNat 7 6 == 0 then s.mbox h rcInvalidInput [] else s.fmCommand h K.EXTENT_CMD cmd.toNat (ownExtentCmd cmd.toNat)))

/-- SET_DC_REGION_CONFIGURATION (R502): the region is fixed. -/
def execSetDcRegionConfiguration (h : HostIx) (s : State) : Host.Outcome State Fault Refusal :=
  .next (s.onFm h (fun s => s.mbox h rcInvalidInput []))

end Sys2Proof.Machine
end

