-- ==== Sys2Proof/Machine/Service.lean ====
section
/-!
DEFINITION. The service port's frames: sessions, object and CSR access, and blobs (R504-R507, R529, R530, R537). A
command stands for a frame that arrived and was addressed to the device.
-/
namespace Sys2Proof

open Machine

/-! ### The frame's fields (R505, R506) -/

/-- LENGTH bytes of payload. -/
def SvcFrame.data (f : SvcFrame) : List Byte := f.payload.take f.length.toNat

/-- The header suits a request with `n` bytes of payload (R16, R505). -/
def SvcFrame.fits (f : SvcFrame) (n : Nat) : Bool :=
  f.status == 0 && f.rsv == 0 && f.length.toNat == n && decide (n ≤ 1484) && decide (n ≤ f.payload.length)

/-- Field of a frame's payload. -/
def SvcFrame.at_ (f : SvcFrame) (k n : Nat) : Nat := leAt f.data k n

/-- The object that an OD_READ or OD_WRITE names. -/
def SvcFrame.key (f : SvcFrame) : Nat := odKey (f.at_ 0 2) (f.at_ 2 1)

/-- Form of a CSR request with `n` bytes: a die that exists, reserved bytes zero (R506). -/
def SvcFrame.csrOk (f : SvcFrame) (n : Nat) : Bool := f.fits n && decide (f.at_ 0 1 < 8) && f.at_ 1 3 == 0

end Sys2Proof

namespace Sys2Proof.Machine

/-! ### Frames (R504, R505, R507) -/

/-- A response leaves; the fields of its payload follow SESSION, SEQ, OP with bit 7 set, and STATUS (R505). -/
def State.svcSend (s : State) (session seq op status : Nat) (payload : List Nat) : State :=
  s.emit .svc 0 ([session, seq, op + 128, status] ++ payload)

/-- The answer to a request of a session, which keeps it (R507). -/
def State.svcAnswer (s : State) (session seq op status : Nat) (payload : List Nat := []) : State :=
  (s.svcSend session seq op status payload).updSess (sidSvc session) (fun x =>
    { x with lastSeq := seq, kept := some ([session, seq, op + 128, status] ++ payload) })

/-- A frame the service port discards is counted (R504). -/
def State.svcDrop (s : State) : State := { s with mg := { s.mg with svcDiscard := s.mg.svcDiscard + 1 } }

/-- SEQ of the request after the last (R507). -/
def seqAfter (n : Nat) : Nat := (n + 1) % 2 ^ 32

/-- A request of an open session (R507): the last SEQ is answered again from the kept response, the next one acts, any
other is answered 0x0704. A malformed request is answered 0x0801 (R16). In recovery only what the ROM accepts acts; the rest is
answered 0x0501 (R537, DEDUCED). A frame of another VERSION is discarded (R505). -/
def State.svcRequest (s : State) (f : SvcFrame) (op : Nat) (inRom ok : Bool) (act : State → State) : State :=
  let session := f.session.toNat
  let seq := f.seq.toNat
  if !s.svcServes then s
  else if f.version ≠ 1 then s.svcDrop
  else match s.sess? (sidSvc session) with
    | none => s.svcDrop
    | some x =>
      let live := s.updSess (sidSvc session) (fun x => { x with lastAt := s.now })
      if seq == x.lastSeq then live.emit .svc 0 (x.kept.getD [])
      else if seq ≠ seqAfter x.lastSeq then s.svcSend session seq op 0x0704 []
      else if !ok then live.svcAnswer session seq op 0x0801
      else if s.st.recovery && !inRom then live.svcAnswer session seq op 0x0501
      else act live

/-- A request outside sessions: DISCOVER and OPEN, with SESSION 0 and no payload (R505). -/
def State.svcOutside (s : State) (f : SvcFrame) (op : Nat) (act : State → State) : State :=
  if !s.svcServes then s
  else if f.version ≠ 1 then s.svcDrop
  else if !f.fits 0 || f.session ≠ 0 then s.svcSend f.session.toNat f.seq.toNat op 0x0801 []
  else act s

/-- DISCOVER (R504, R506): serial number, node address, life-cycle state. -/
def execDiscover (f : SvcFrame) (s : State) : Host.Outcome State Fault Refusal :=
  .next (s.svcOutside f 0x01 (fun s => s.svcSend 0 f.seq.toNat 0x01 0 [s.life.fuses.serial, s.o K.NODE_ADDR, s.lcState]))

/-- The number of a new session: the next one in 0x0001 to 0xFFFE that is not open (R505). -/
def State.svcFresh (s : State) : Nat :=
  (((List.range 5).map (fun i => (s.mg.lastSvc + i) % 0xFFFE + 1)).find? (fun n => (s.sess? (sidSvc n)).isNone)).getD 0

/-- OPEN (R466, R506): at most 4 service-port sessions. The response is the new session's kept one (R507). -/
def execOpenSession (f : SvcFrame) (s : State) : Host.Outcome State Fault Refusal :=
  .next (s.svcOutside f 0x02 (fun s =>
    if 4 ≤ (s.sessionsOn 3).length then s.svcSend 0 f.seq.toNat 0x02 0x0502 []
    else
      let n := s.svcFresh
      let s := s.openSession (sidSvc n)
      ({ s with mg := { s.mg with lastSvc := n } } : State).svcAnswer n f.seq.toNat 0x02 0))

/-- CLOSE (R466, R506). -/
def execCloseSession (h : SvcHead) (payload : List Byte) (s : State) : Host.Outcome State Fault Refusal :=
  let f := h.frame payload
  .next (s.svcRequest f 0x03 true (f.fits 0) (fun s =>
    (s.svcSend f.session.toNat f.seq.toNat 0x03 0 []).closeSession (sidSvc f.session.toNat)))

/-! ### Objects and CSRs (R506) -/

/-- OD_READ (R506): LENGTH 1 to 1,468, within the object's SIZE. -/
def execOdRead (h : SvcHead) (index : BitVec 16) (sub rsv : Byte) (offset length : Word32) (s : State) : Host.Outcome State Fault Refusal :=
  let f := h.frame (toBytes 2 index.toNat ++ [sub, rsv] ++ toBytes 4 offset.toNat ++ toBytes 4 length.toNat)
  let n := f.session.toNat
  .next (s.svcRequest f 0x10 false (f.fits 12 && f.at_ 3 1 == 0) (fun s =>
    if f.at_ 8 4 == 0 || 1468 < f.at_ 8 4 then s.svcAnswer n f.seq.toNat 0x10 0x0801
    else
      let r := s.odReadPart (sidSvc n) f.key (f.at_ 4 4) (f.at_ 8 4)
      if r.1.abort ≠ 0 then r.2.2.2.svcAnswer n f.seq.toNat 0x10 r.1.abort
      else r.2.2.2.svcAnswer n f.seq.toNat 0x10 0 (r.2.1 :: r.2.2.1.length :: r.2.2.1.map (·.toNat))))

/-- OD_WRITE (R501, R506): LENGTH 1 to 1,472, OFFSET 0, the object's whole size. -/
def execOdWrite (h : SvcHead) (index : BitVec 16) (sub rsv : Byte) (offset : Word32) (rest : List Byte) (s : State) : Host.Outcome State Fault Refusal :=
  let f := h.frame (toBytes 2 index.toNat ++ [sub, rsv] ++ toBytes 4 offset.toNat ++ rest)
  let n := f.session.toNat
  .next (s.svcRequest f 0x11 false (f.fits (12 + f.at_ 8 4) && f.at_ 3 1 == 0) (fun s =>
    if f.at_ 8 4 == 0 || !odWriteForm f.key (f.at_ 4 4) (f.at_ 8 4) then s.svcAnswer n f.seq.toNat 0x11 0x0801
    else
      let r := s.odPut (sidSvc n) f.key (f.data.drop 12)
      (r.2.svcAnswer n f.seq.toNat 0x11 r.1.abort).odAfter f.key r.1))

/-- CSR_READ (R6, R506): the maker role. -/
def execCsrRead (h : SvcHead) (die : Byte) (rsv : BitVec 24) (offset : Word32) (s : State) : Host.Outcome State Fault Refusal :=
  let f := h.frame ([die] ++ toBytes 3 rsv.toNat ++ toBytes 4 offset.toNat)
  let n := f.session.toNat
  .next (s.svcRequest f 0x30 false (f.csrOk 8) (fun s =>
    let via := CsrVia.service (sidSvc n)
    if !s.csrAllowed via (f.at_ 0 1) then s.svcAnswer n f.seq.toNat 0x30 0x0401
    else
      let r := s.csrGet via (f.at_ 0 1) (f.at_ 4 4) 4
      r.2.svcAnswer n f.seq.toNat 0x30 0 [r.1]))

/-- CSR_WRITE (R6, R506): the maker role. -/
def execCsrWrite (h : SvcHead) (die : Byte) (rsv : BitVec 24) (offset value : Word32) (s : State) : Host.Outcome State Fault Refusal :=
  let f := h.frame ([die] ++ toBytes 3 rsv.toNat ++ toBytes 4 offset.toNat ++ toBytes 4 value.toNat)
  let n := f.session.toNat
  .next (s.svcRequest f 0x31 false (f.csrOk 12) (fun s =>
    let via := CsrVia.service (sidSvc n)
    if !s.csrAllowed via (f.at_ 0 1) then s.svcAnswer n f.seq.toNat 0x31 0x0401
    else (s.csrSet via (f.at_ 0 1) (f.at_ 4 4) 4 (f.at_ 8 4)).svcAnswer n f.seq.toNat 0x31 0))

/-- SERVICE_PORT_BAD_OP (R506): any other OP, with or without a session, is answered 0x0801. -/
def execServicePortBadOp (h : SvcHead) (op : Byte) (payload : List Byte) (s : State) : Host.Outcome State Fault Refusal :=
  let f := h.frame payload
  if (s.sess? (sidSvc f.session.toNat)).isSome then .next (s.svcRequest f op.toNat true false (fun s => s))
  else .next (if !s.svcServes then s else if f.version ≠ 1 then s.svcDrop else s.svcSend f.session.toNat f.seq.toNat op.toNat 0x0801 [])

/-! ### Blobs (R529, R530) -/

/-- The session's blob. -/
def State.blob? (s : State) (session : Nat) : Option Blob := (s.session (sidSvc session)).blob

/-- Put the session's blob. -/
def State.setBlob (s : State) (session : Nat) (b : Option Blob) : State :=
  s.updSess (sidSvc session) (fun x => { x with blob := b })

/-- The session's blob is discarded. -/
def State.dropBlob (s : State) (session : Nat) : State :=
  (if (s.session (sidSvc session)).imageOpen then s.imageGone else s).setBlob session none

/-- TOTAL is one that KIND allows (R530). -/
def blobTotalOk (kind total : Nat) : Bool :=
  if kind == 0 then decide (3540 ≤ total) && decide (total ≤ 3476 + 4194304) else total == 3088

/-- Another session has an image blob open (R530). -/
def State.otherImage (s : State) (session : Nat) : Bool :=
  s.mg.sess.any (fun e => e.1 ≠ sidSvc session && (match e.2 with | some x => x.imageOpen | none => false))

/-- A blob that is still receiving. -/
def State.receiving (s : State) (session : Nat) : Bool :=
  match s.blob? session with
  | some b => b.state == 1
  | none => false

/-- STATUS of a BLOB_BEGIN, 0 where it is accepted (R530, R537). -/
def State.blobBeginStatus (s : State) (session kind total : Nat) : Nat :=
  if 2 < kind then 0x0801
  else if !blobTotalOk kind total then 0x0702
  else if s.st.recovery && kind ≠ 0 then 0x0501
  else if kind == 0 && !s.st.recovery && s.role (sidSvc session) < 2 then 0x0401
  else if s.receiving session || (kind == 0 && s.otherImage session) then 0x0502
  else 0

/-- BLOB_BEGIN (R529, R530). -/
def execBlobBegin (h : SvcHead) (kind : Byte) (rsv : BitVec 24) (total crc : Word32) (s : State) : Host.Outcome State Fault Refusal :=
  let f := h.frame ([kind] ++ toBytes 3 rsv.toNat ++ toBytes 4 total.toNat ++ toBytes 4 crc.toNat)
  let n := f.session.toNat
  .next (s.svcRequest f 0x20 true (f.fits 12 && f.at_ 1 3 == 0) (fun s =>
    let st := s.blobBeginStatus n (f.at_ 0 1) (f.at_ 4 4)
    let s := if st ≠ 0 then s
      else
        let b : Blob := { kind := f.at_ 0 1, total := f.at_ 4 4, crc := f.at_ 8 4, lastAt := s.now }
        (if f.at_ 0 1 == 0 then s.setFwState 1 else s).setBlob n (some b)
    s.svcAnswer n f.seq.toNat 0x20 st))

/-- An image blob is refused for a reason: it is discarded, and the blob reports the reason (R527, R529). -/
def State.blobRefuse (s : State) (session : Nat) (b : Blob) (reason : Nat) : State :=
  (s.refuseImage reason).setBlob session (some { b with state := 4, reason := reason })

/-- Image data has arrived, `old` bytes before it: the header is checked once its 512 bytes are there, the signature once
byte 3,475 is there, and the bank is written to only then (R527). Reason of the refusal, 0 for none. -/
def State.imageArrived (s : State) (b : Blob) (old : Nat) : Nat × State :=
  let n := b.data.length
  let r := if old < 512 && 512 ≤ n then s.headerReason b.data b.total else 0
  if r ≠ 0 then (r, s)
  else if old < 3476 && 3476 ≤ n then
    (if s.imageSigned b.data then (0, s.dropBank (leAt b.data 6 1)) else (5, s))
  else (0, s)

/-- BLOB_DATA (R529, R530): LEN 1 to 1,476 at the next OFFSET, within TOTAL. -/
def execBlobData (h : SvcHead) (offset len : Word32) (bytes : List Byte) (s : State) : Host.Outcome State Fault Refusal :=
  let f := h.frame (toBytes 4 offset.toNat ++ toBytes 4 len.toNat ++ bytes)
  let n := f.session.toNat
  let seq := f.seq.toNat
  let data := f.data.drop 8
  .next (s.svcRequest f 0x21 true (f.fits (8 + f.at_ 4 2) && f.at_ 6 2 == 0 && data.length ≠ 0) (fun s =>
    match s.blob? n with
    | none => s.svcAnswer n seq 0x21 0x0704
    | some b =>
      if b.state ≠ 1 || f.at_ 0 4 ≠ b.data.length || b.total < f.at_ 0 4 + data.length then s.svcAnswer n seq 0x21 0x0704
      else
        let b' : Blob := { b with data := b.data ++ data, lastAt := s.now }
        let r := if b.kind == 0 then s.imageArrived b' b.data.length else (0, s)
        if r.1 ≠ 0 then (r.2.blobRefuse n b' r.1).svcAnswer n seq 0x21 0x0504
        else (r.2.setBlob n (some b')).svcAnswer n seq 0x21 0))

/-- In recovery an HK image that passed is written to a bank and started on probation, with recovery as its fallback; the
island then goes on with its start (R537). -/
def State.romStart (s : State) : State :=
  let i := (s.part 5).other
  let s := s.updPart 5 (fun p => { p with active := i, other := none, staged := false,
                                          probEnd := some (s.now + (i.getD {}).probationMs * Config.ms) })
  let s := (((s.setO (K.PART_STATE 5) 1).setO K.FW_STATE 4).setO K.FW_PART_NOW 5).raise 616 0 3 false island
  let s := (({ s with st := { s.st with recovery := false } } : State).setO K.START_PHASE 0).closeAll
  if s.st.released then s.setO K.START_PHASE (if s.o K.CORE_READY == 1 then 5 else 4) else s.bootImage true

/-- BLOB_END of an image: it is verified whole and staged, or refused (R527, R530). -/
def State.endImage (s : State) (session seq : Nat) (b : Blob) : State :=
  let r := s.imageReason b.data b.total
  if r ≠ 0 then (s.blobRefuse session b r).svcAnswer session seq 0x22 0x0504
  else
    let s := ((s.stageImage b.data).setBlob session (some { b with state := 3 })).svcAnswer session seq 0x22 0
    if s.st.recovery then s.romStart else s

/-- BLOB_END of a response or a token: a write of AUTH_RESPONSE or LC_TOKEN (R530). -/
def State.endMessage (s : State) (session seq : Nat) (b : Blob) : State :=
  let s := s.setBlob session (some { b with state := 3 })
  let r := s.odPut (sidSvc session) (if b.kind == 1 then K.AUTH_RESPONSE else K.LC_TOKEN) b.data
  let s := if r.1.abort == 0 then r.2 else r.2.setBlob session (some { b with state := 4, reason := r.1.detail % 256 })
  s.svcAnswer session seq 0x22 r.1.abort

/-- BLOB_END (R530): a short blob or one whose CRC differs is discarded, any other is acted on. -/
def execBlobEnd (h : SvcHead) (payload : List Byte) (s : State) : Host.Outcome State Fault Refusal :=
  let f := h.frame payload
  .next (s.svcRequest f 0x22 true (f.fits 0) (fun s =>
    match s.blob? f.session.toNat with
    | none => s.svcAnswer f.session.toNat f.seq.toNat 0x22 0x0501
    | some b =>
      if b.state ≠ 1 then s.svcAnswer f.session.toNat f.seq.toNat 0x22 0x0501
      else if b.data.length < b.total then (s.dropBlob f.session.toNat).svcAnswer f.session.toNat f.seq.toNat 0x22 0x0702
      else if crc32 b.data ≠ b.crc then (s.dropBlob f.session.toNat).svcAnswer f.session.toNat f.seq.toNat 0x22 0x0705
      else if b.kind == 0 then (s.setFwState 2).endImage f.session.toNat f.seq.toNat b
      else s.endMessage f.session.toNat f.seq.toNat b))

/-- BLOB_STATUS (R529): state, reason, bytes received. -/
def execBlobStatus (h : SvcHead) (payload : List Byte) (s : State) : Host.Outcome State Fault Refusal :=
  let f := h.frame payload
  .next (s.svcRequest f 0x23 true (f.fits 0) (fun s =>
    let p := match s.blob? f.session.toNat with
      | none => [0, 0, 0]
      | some b => [b.state, b.reason, b.data.length]
    s.svcAnswer f.session.toNat f.seq.toNat 0x23 0 p))

/-- BLOB_ABORT (R529). -/
def execBlobAbort (h : SvcHead) (payload : List Byte) (s : State) : Host.Outcome State Fault Refusal :=
  let f := h.frame payload
  .next (s.svcRequest f 0x24 true (f.fits 0) (fun s =>
    (s.dropBlob f.session.toNat).svcAnswer f.session.toNat f.seq.toNat 0x24 0))

/-- BLOB_IDLE_EXPIRY (R530): ten seconds without an operation on the session's blob. -/
def execBlobIdleExpiry (sess : SessRef) (s : State) : Host.Outcome State Fault Refusal :=
  if sidPath sess ≠ 3 then .next s
  else match s.blob? (sidOf sess) with
    | none => .next s
    | some b => .next ((s.advance (b.lastAt + 10000 * Config.ms)).dropBlob (sidOf sess))

end Sys2Proof.Machine
end

