-- ==== Sys2Proof/Machine/Tick.lean ====
section
/-!
DEFINITION. The tick boundary and the tick engine's list (R30-R34, R111, R166, R173, R180, R384, R452, R457).
-/
namespace Sys2Proof.Machine

/-! ### The boundary (R166, R173, R180) -/

/-- Length of the tick that begins, in cycles, and what is left to slew after it (R173): one tick in 16 is a cycle longer or
shorter until at most 1 ns is left. -/
def State.nextTick (s : State) : Nat × Int × Nat :=
  let left := s.tm.slewLeft
  if left == 0 then (1600, 0, s.tm.slewCount)
  else if s.tm.slewCount + 1 < 16 then (1600, left, s.tm.slewCount + 1)
  else
    let rest : Int := if 0 < left then left - (Config.fclk : Int) else left + (Config.fclk : Int)
    (if 0 < left then 1601 else 1599, if rest.natAbs ≤ 1000 then 0 else rest, 0)

/-- Time reaches the boundary: CT is 1,000 more than at the one before it. -/
def State.passBoundary (s : State) : State :=
  let at_ := s.tm.tickStart + s.tm.tickLen * Config.fclk
  let s := s.advance at_
  let n := s.nextTick
  let ct := (s.tm.ctBase + 1000) % 2 ^ 64
  let s : State := { s with tm := { s.tm with
    tickStart := at_, tickLen := n.1, slewLeft := n.2.1, slewCount := n.2.2, ticks := s.tm.ticks + 1, ctBase := ct
    slewed := s.tm.slewed + ((n.1 : Int) - 1600) * (Config.fclk : Int)
    timeWas := s.tm.timeDue, timeDue := s.tm.timeDue + b2n (s.timeDueAt ct) } }
  s.updCtState

/-- Seams with a direction without a data strand, and ports short of a lossless class, during the tick that ends. -/
def State.countTick (s : State) : State :=
  let s := s.countHolds
  let s := (List.range 4).foldl (fun (s : State) t =>
    if !s.tileHeld t && ((s.strandsUp t 0).isEmpty || (s.strandsUp t 1).isEmpty) then s.incO (K.HOLD_TICKS t) else s) s
  (List.range 96).foldl (fun (s : State) p =>
    if s.linkUp p && !s.isMember p && [Cls.sys, .coh, .bulk].any (fun c => decide (s.limit p c - 3 ≤ s.occ p c)) then
      s.incO (K.BP_TICKS p)
    else s) s

/-! ### Item 3: scrub (R111, R112, R384) -/

/-- Windows whose directory the scrub passes: ACTIVE, DEGRADED and RESYNC, with their lines. -/
def State.scrubWindows (s : State) : List (Nat × Nat) :=
  ((List.range 16).filter (fun w => decide (2 ≤ s.o (K.STATE w)) && decide (s.o (K.STATE w) ≤ 4))).map
    (fun w => (w, s.c (K.WIN_SIZE w) / 64))

/-- The n-th of several ranges laid end to end: which range, and where in it. -/
def placeIn : List (Nat × Nat) → Nat → Option (Nat × Nat)
  | [], _ => none
  | (k, len) :: l, n => if n < len then some (k, n) else placeIn l (n - len)

/-- One directory entry is checked (R86, R111): a dirty sector is written back, an illegal entry is repaired in its line's
queue (R112). -/
def State.scrubEntry (s : State) (w line : Nat) : State :=
  let d := s.dirEntry w line
  let k := w * 2 ^ 32 + line / 16
  let s := if line % 16 == 0 && KMap.get false s.cr.sector k then (s.writeBackSector k).getD s else s
  if d.legal || (s.lineQ w line).any (fun e => e.op = .repair) || s.cr.heldUp.any (fun r => r.w == w && r.line == line && r.entry.op = .repair) then s
  else match s.pushInternal w line .repair with
    | none => s
    | some s => (s.incO K.DIR_REPAIRS).raise 530 2 1 false { master := 0x81, access := 0x0A, addr := some (line * 64), detail := d.word }

/-- 256 entries from the scrub's place on, over all windows in turn. -/
def State.scrubDir (s : State) : State :=
  let ws := s.scrubWindows
  let total := (ws.map (·.2)).sum
  if total == 0 then s
  else
    let at_ := s.cr.scrubAt % total
    let s := (List.range (min 256 total)).foldl (fun (s : State) i =>
      match placeIn ws ((at_ + i) % total) with
      | some (w, line) => s.scrubEntry w line
      | none => s) s
    { s with cr := { s.cr with scrubAt := (at_ + min 256 total) % total } }

/-- Targets with a tag store, with their lines of 128 granules. -/
def State.scrubTargets (s : State) : List (Nat × Nat) :=
  ((List.range 64).filter (fun m => s.cB (K.TAG_ENABLE m))).map (fun m => (m, s.capGiB m * 2048))

/-- 256 granules, two lines of tags, from the scrub's place on. -/
def State.scrubTags (s : State) : State :=
  let ts := s.scrubTargets
  let total := (ts.map (·.2)).sum
  if total == 0 then s
  else
    let at_ := s.cr.tagScrub % total
    let s := (List.range (min 2 total)).foldl (fun (s : State) i =>
      match placeIn ts ((at_ + i) % total) with
      | some (m, l) => s.tagLineCheck m l
      | none => s) s
    { s with cr := { s.cr with tagScrub := (at_ + min 2 total) % total } }

/-! ### Items 5 and 6 -/

/-- Objects that a subscription samples (R509, R510). -/
def State.subscribed (s : State) : List Nat := ((List.range 32).map (fun k => s.o (K.NTF_OBJECT k))).filter (· ≠ 0)

/-- Copy one object that a subscription names, as the operator role reads it. -/
def State.snapObject (s : State) (key : Nat) : State :=
  match odRow? key with
  | none => s
  | some r =>
    if !s.readReach r key then s
    else
      let v := s.odValue 0 r key
      let s := if r.access = .ro && measured key then s.freeNext else s
      { s with tm := { s.tm with snapshot := s.tm.snapshot.insert key v } }

/-- Item 5: the RO objects, and the objects that subscriptions name, with the CT of the boundary. -/
def State.telemetry (s : State) : State :=
  let ro := s.od.filter (fun e => match odRow? e.1 with | some r => decide (r.access = .ro) | none => false)
  let s : State := { s with tm := { s.tm with snapshot := ro, snapCt := s.tm.ctBase } }
  s.subscribed.foldl State.snapObject s

/-- Item 6: every running escalation timer. -/
def State.tickTimers (s : State) : State :=
  (s.ev.blk.map (·.1)).foldl State.tickTimer s

/-- The work of item k of R31. Item 7 is GENERATION_PUBLISH, GUARD_EPOCH_PUBLISH. -/
def State.tickItem (s : State) (k : Nat) : State :=
  match k with
  | 1 => s.tickBuckets
  | 2 => s.tickRenorm
  | 3 => s.scrubDir.scrubTags
  | 4 => s.gather
  | 5 => s.telemetry
  | _ => s.tickTimers

/-- Item k publishes (R32), in the order of the list: it does when `ready` holds and it starts in this tick. -/
def State.publishItem (ready : State → Nat → Bool) (s : State) (k : Nat) : State :=
  if s.tm.item + 1 == k && s.itemRuns k && ready s k then
    let s := s.tickItem k
    { s with tm := { s.tm with item := k } }
  else s

/-- The items that have published before the present cycle take effect (R31, R32). -/
def State.runItems (s : State) : State :=
  if s.hubHeld || s.tm.overrun then s
  else [1, 2, 3, 4, 5, 6].foldl (State.publishItem State.itemDue) s

/-- What is left of the tick's list takes effect at its end: the items that start in it (R31, R34). -/
def State.finishItems (s : State) : State :=
  if s.tm.overrun then s else [1, 2, 3, 4, 5, 6].foldl (State.publishItem (fun _ _ => true)) s

/-! ### TICK_BOUNDARY -/

/-- The tick engine's state check at the boundary (R34): it fails when the state is bad, or when its inverted check bit is
read (R463). -/
def State.stateCheck (s : State) (upset : Bool) : Bool × State :=
  let i := s.injFire 529 0
  (upset || s.tm.stateBad || i.1 ≠ 0, i.2)

/-- The lost tick (R34): all items are skipped, and the overrun is a contained fault of the tick engine. -/
def State.tickOverrun (s : State) : State :=
  ({ s with tm := { s.tm with overrun := true, item := 6, stateBad := false } } : State).raise 529 2 1 false { master := 0x81 }

/-- The tick that ends was an overrun of a faulty engine: its items that were not yet started are skipped, and the next tick's
items start late (R34). -/
def State.endSlow (s : State) : State :=
  match s.tm.slow with
  | none => { s with tm := { s.tm with late := 0 } }
  | some x => ({ s with tm := { s.tm with slow := none, late := x.2 } } : State).raise 529 2 1 false { master := 0x81 }

/-- Requests held for a granule of an evacuation that has ended go on (R364, R365). -/
def State.settleHeld (s : State) : State := if s.mv.evac.isSome then s else s.releaseEvac

/-- TICK_BOUNDARY (R30-R34): the list of the tick that ends is done, and the next tick begins. `upset` says that the engine's own
state fails its check at the boundary; `slow` that a faulty engine starts only its first items in the tick, and ends the last of them
so many cycles late. A hub held in reset has no ticks. -/
def execTickBoundary (fault : TickFault) (s : State) : Host.Outcome State Fault Refusal :=
  if s.hubHeld then .next s
  else
    let s := s.finishItems.countTick.passBoundary.endSlow
    let r := s.stateCheck fault.upset
    if r.1 then .next r.2.tickOverrun
    else
      let s : State := { r.2 with tm := { r.2.tm with overrun := false, item := 0, slow := fault.slow.map (fun x => (x.1.val, x.2)) } }
      .next s.drainBcast.settleRings.settleFlush.settleHeld.settleSwap

end Sys2Proof.Machine
end

