-- ==== Sys2Proof/Machine/Dispatch.lean ====
section
/-!
DEFINITION. The dispatcher: one arm per command, each a direct call of the command's meaning.
-/
namespace Sys2Proof.Machine

def exec (i : Instr) (s : State) : Host.Outcome State Fault Refusal :=
  match i with
  | .tickBoundary fault => Sys2Proof.Machine.execTickBoundary fault s
  | .requalifyCheck n => Sys2Proof.Machine.execRequalifyCheck n s
  | .generationPublish => Sys2Proof.Machine.execGenerationPublish s
  | .guardEpochPublish => Sys2Proof.Machine.execGuardEpochPublish s
  | .ref100Loss => Sys2Proof.Machine.execRef100Loss s
  | .ref100Return => Sys2Proof.Machine.execRef100Return s
  | .requestArrival p at_ req => Sys2Proof.Machine.execRequestArrival p at_ req s
  | .tileForwardToLanding ix => Sys2Proof.Machine.execTileForwardToLanding ix s
  | .cardingMatchSlot extra => Sys2Proof.Machine.execCardingMatchSlot extra s
  | .fullingStage1 => Sys2Proof.Machine.execFullingStage1 s
  | .fullingStage2 => Sys2Proof.Machine.execFullingStage2 s
  | .startDrainToCarding => Sys2Proof.Machine.execStartDrainToCarding s
  | .cardingStart => Sys2Proof.Machine.execCardingStart s
  | .matcherSelftestDone pass => Sys2Proof.Machine.execMatcherSelftestDone pass s
  | .agentMergeAdmit p cls => Sys2Proof.Machine.execAgentMergeAdmit p cls s
  | .egressClassPick p => Sys2Proof.Machine.execEgressClassPick p s
  | .crownRequestArrive src => Sys2Proof.Machine.execCrownRequestArrive src s
  | .crownEntryServe w line => Sys2Proof.Machine.execCrownEntryServe w line s
  | .birspReceive h w line rsp => Sys2Proof.Machine.execBirspReceive h w line rsp s
  | .biconflictReceive h w line => Sys2Proof.Machine.execBiconflictReceive h w line s
  | .snoopTimeout h w line => Sys2Proof.Machine.execSnoopTimeout h w line s
  | .targetResponseReceive id status data => Sys2Proof.Machine.execTargetResponseReceive id status data s
  | .brimFill t => Sys2Proof.Machine.execBrimFill t s
  | .brimRead t => Sys2Proof.Machine.execBrimRead t s
  | .brimInv t => Sys2Proof.Machine.execBrimInv t s
  | .brimAckReceive t => Sys2Proof.Machine.execBrimAckReceive t s
  | .windowInitComplete w => Sys2Proof.Machine.execWindowInitComplete w s
  | .resyncStart sess w v => Sys2Proof.Machine.execResyncStart sess w v s
  | .resyncLineCopy w => Sys2Proof.Machine.execResyncLineCopy w s
  | .departureMarkerArrive h => Sys2Proof.Machine.execDepartureMarkerArrive h s
  | .departureSweepStep => Sys2Proof.Machine.execDepartureSweepStep s
  | .fenceDoorbell p rid offset nbytes word => Sys2Proof.Machine.execFenceDoorbell p rid offset nbytes word s
  | .fenceEnd id => Sys2Proof.Machine.execFenceEnd id s
  | .fenceTimeout id => Sys2Proof.Machine.execFenceTimeout id s
  | .barCore c => Sys2Proof.Machine.execBarCore c s
  | .barClu c => Sys2Proof.Machine.execBarClu c s
  | .barSys c => Sys2Proof.Machine.execBarSys c s
  | .barSysTimeout c => Sys2Proof.Machine.execBarSysTimeout c s
  | .ldres c addr eight => Sys2Proof.Machine.execLdres c addr eight s
  | .stcond c addr eight data => Sys2Proof.Machine.execStcond c addr eight data s
  | .storeBufferRelease c ix => Sys2Proof.Machine.execStoreBufferRelease c ix s
  | .coreException c => Sys2Proof.Machine.execCoreException c s
  | .ctLoad sess v => Sys2Proof.Machine.execCtLoad sess v s
  | .ctLoadEdge => Sys2Proof.Machine.execCtLoadEdge s
  | .syncEdge at_ => Sys2Proof.Machine.execSyncEdge at_ s
  | .syncMiss => Sys2Proof.Machine.execSyncMiss s
  | .trigEdge line level at_ width => Sys2Proof.Machine.execTrigEdge line level at_ width s
  | .holdoffEnd line level => Sys2Proof.Machine.execHoldoffEnd line level s
  | .triggerMessageBuild => Sys2Proof.Machine.execTriggerMessageBuild s
  | .timeMessageSend => Sys2Proof.Machine.execTimeMessageSend s
  | .outAt sess line v => Sys2Proof.Machine.execOutAt sess line v s
  | .outCancel sess line v => Sys2Proof.Machine.execOutCancel sess line v s
  | .pulseAssert line => Sys2Proof.Machine.execPulseAssert line s
  | .pulseRelease line => Sys2Proof.Machine.execPulseRelease line s
  | .triggerFencePoint id => Sys2Proof.Machine.execTriggerFencePoint id s
  | .tfenceWaitExpiry id => Sys2Proof.Machine.execTfenceWaitExpiry id s
  | .frzArm sess w v => Sys2Proof.Machine.execFrzArm sess w v s
  | .frzRelease sess w v => Sys2Proof.Machine.execFrzRelease sess w v s
  | .freezePoint w => Sys2Proof.Machine.execFreezePoint w s
  | .freezeSweepStep w => Sys2Proof.Machine.execFreezeSweepStep w s
  | .freezeComplete w => Sys2Proof.Machine.execFreezeComplete w s
  | .captureFeedWrite p rid addr data => Sys2Proof.Machine.execCaptureFeedWrite p rid addr data s
  | .ringFlushTimeout sl => Sys2Proof.Machine.execRingFlushTimeout sl s
  | .ringCons p sl offset nbytes pasid v => Sys2Proof.Machine.execRingCons p sl offset nbytes pasid v s
  | .portRoleWrite sess p v => Sys2Proof.Machine.execPortRoleWrite sess p v s
  | .portAgentWrite sess p v => Sys2Proof.Machine.execPortAgentWrite sess p v s
  | .portPoolWrite sess p v => Sys2Proof.Machine.execPortPoolWrite sess p v s
  | .portSlotWrite sess p v => Sys2Proof.Machine.execPortSlotWrite sess p v s
  | .hdmDecoderCommit h ix set => Sys2Proof.Machine.execHdmDecoderCommit h ix set s
  | .bindCmdBind sess cmd => Sys2Proof.Machine.execBindCmdBind sess cmd s
  | .unbindWaitLinkDown sess cmd => Sys2Proof.Machine.execUnbindWaitLinkDown sess cmd s
  | .unbindManagedHotRemove sess cmd => Sys2Proof.Machine.execUnbindManagedHotRemove sess cmd s
  | .unbindSurpriseHotRemove sess cmd => Sys2Proof.Machine.execUnbindSurpriseHotRemove sess cmd s
  | .bindingPublish => Sys2Proof.Machine.execBindingPublish s
  | .unbindTimeout => Sys2Proof.Machine.execUnbindTimeout s
  | .extentAdd sess cmd => Sys2Proof.Machine.execExtentAdd sess cmd s
  | .extentZeroFillDone => Sys2Proof.Machine.execExtentZeroFillDone s
  | .addDynamicCapacityResponse h count runs => Sys2Proof.Machine.execAddDynamicCapacityResponse h count runs s
  | .extentReleaseByHost sess cmd => Sys2Proof.Machine.execExtentReleaseByHost sess cmd s
  | .extentForcedRelease sess cmd => Sys2Proof.Machine.execExtentForcedRelease sess cmd s
  | .releaseDynamicCapacity h count runs => Sys2Proof.Machine.execReleaseDynamicCapacity h count runs s
  | .extentTimeout => Sys2Proof.Machine.execExtentTimeout s
  | .extentReturnFree h dpa => Sys2Proof.Machine.execExtentReturnFree h dpa s
  | .powerControllerOn h v => Sys2Proof.Machine.execPowerControllerOn h v s
  | .powerControllerOff h v => Sys2Proof.Machine.execPowerControllerOff h v s
  | .slotControlWrite h v value => Sys2Proof.Machine.execSlotControlWrite h v value s
  | .perstRelease slot => Sys2Proof.Machine.execPerstRelease slot s
  | .slotOffAfterPerst slot => Sys2Proof.Machine.execSlotOffAfterPerst slot s
  | .hostLinkDisable h v disable => Sys2Proof.Machine.execHostLinkDisable h v disable s
  | .presenceChange slot edge => Sys2Proof.Machine.execPresenceChange slot edge s
  | .surpriseLinkLoss p => Sys2Proof.Machine.execSurpriseLinkLoss p s
  | .rspTimeout id => Sys2Proof.Machine.execRspTimeout id s
  | .linkEnable sess p v => Sys2Proof.Machine.execLinkEnable sess p v s
  | .linkRetrain sess p v => Sys2Proof.Machine.execLinkRetrain sess p v s
  | .partnerHotReset p => Sys2Proof.Machine.execPartnerHotReset p s
  | .linkActive p info => Sys2Proof.Machine.execLinkActive p info s
  | .linkRecovery p cause back => Sys2Proof.Machine.execLinkRecovery p cause back s
  | .loopbackEntry p => Sys2Proof.Machine.execLoopbackEntry p s
  | .l1Entry p => Sys2Proof.Machine.execL1Entry p s
  | .l0pWidthChange p width => Sys2Proof.Machine.execL0pWidthChange p width s
  | .laneMargining lane on => Sys2Proof.Machine.execLaneMargining lane on s
  | .eyeCmd sess p cmd => Sys2Proof.Machine.execEyeCmd sess p cmd s
  | .eyeScanPoint p errors => Sys2Proof.Machine.execEyeScanPoint p errors s
  | .laneTestConfig via lane value => Sys2Proof.Machine.execLaneTestConfig via lane value s
  | .bitslip via lane => Sys2Proof.Machine.execBitslip via lane s
  | .bitslipDone lane => Sys2Proof.Machine.execBitslipDone lane s
  | .errClr via lane => Sys2Proof.Machine.execErrClr via lane s
  | .seamUnitLaunch sm d k => Sys2Proof.Machine.execSeamUnitLaunch sm d k s
  | .seamUnitReceive sm d k u => Sys2Proof.Machine.execSeamUnitReceive sm d k u s
  | .seamReplayTimerExpiry sm d seq => Sys2Proof.Machine.execSeamReplayTimerExpiry sm d seq s
  | .seamAckUnitSend sm d k => Sys2Proof.Machine.execSeamAckUnitSend sm d k s
  | .keepaliveSend sm d k => Sys2Proof.Machine.execKeepaliveSend sm d k s
  | .checkSend sm d k => Sys2Proof.Machine.execCheckSend sm d k s
  | .checkEvaluate sm d => Sys2Proof.Machine.execCheckEvaluate sm d s
  | .seamRetrainStart sm => Sys2Proof.Machine.execSeamRetrainStart sm s
  | .seamRetrainComplete ended => Sys2Proof.Machine.execSeamRetrainComplete ended s
  | .retrainNow sess sm v => Sys2Proof.Machine.execRetrainNow sess sm v s
  | .seamStrandDown sm d k => Sys2Proof.Machine.execSeamStrandDown sm d k s
  | .timingStrandDown sm d => Sys2Proof.Machine.execTimingStrandDown sm d s
  | .strandRetry sm d k pass badWires => Sys2Proof.Machine.execStrandRetry sm d k pass badWires s
  | .timingFlitReceive sm d f => Sys2Proof.Machine.execTimingFlitReceive sm d f s
  | .tickMark sm step => Sys2Proof.Machine.execTickMark sm step s
  | .isolate sess sm v => Sys2Proof.Machine.execIsolate sess sm v s
  | .seamHealthy sm => Sys2Proof.Machine.execSeamHealthy sm s
  | .injOnce via sm d k on => Sys2Proof.Machine.execInjOnce via sm d k on s
  | .injPersist via sm d k on => Sys2Proof.Machine.execInjPersist via sm d k on s
  | .seamWireInject via sm d k wire => Sys2Proof.Machine.execSeamWireInject via sm d k wire s
  | .kaHold via sm d k on => Sys2Proof.Machine.execKaHold via sm d k on s
  | .sliceCreate sess cmd => Sys2Proof.Machine.execSliceCreate sess cmd s
  | .sliceDestroy sess cmd => Sys2Proof.Machine.execSliceDestroy sess cmd s
  | .sliceFreeze sess cmd => Sys2Proof.Machine.execSliceFreeze sess cmd s
  | .sliceFrozen sl => Sys2Proof.Machine.execSliceFrozen sl s
  | .sliceSave sess cmd => Sys2Proof.Machine.execSliceSave sess cmd s
  | .sliceRestore sess cmd record => Sys2Proof.Machine.execSliceRestore sess cmd record s
  | .sliceThaw sess cmd => Sys2Proof.Machine.execSliceThaw sess cmd s
  | .submit p sl offset pasid desc => Sys2Proof.Machine.execSubmit p sl offset pasid desc s
  | .sliceFence p sl offset nbytes pasid word => Sys2Proof.Machine.execSliceFence p sl offset nbytes pasid word s
  | .descriptorStart sl list => Sys2Proof.Machine.execDescriptorStart sl list s
  | .chunkIssue e => Sys2Proof.Machine.execChunkIssue e s
  | .chunkReadReturn id status data => Sys2Proof.Machine.execChunkReadReturn id status data s
  | .descriptorFinish sl => Sys2Proof.Machine.execDescriptorFinish sl s
  | .evacCmd sess cmd => Sys2Proof.Machine.execEvacCmd sess cmd s
  | .evacGranuleMove => Sys2Proof.Machine.execEvacGranuleMove s
  | .tagCmd sess cmd => Sys2Proof.Machine.execTagCmd sess cmd s
  | .tagCmdWritten => Sys2Proof.Machine.execTagCmdWritten s
  | .tagFillComplete m => Sys2Proof.Machine.execTagFillComplete m s
  | .sliceRgnCmd sess cmd => Sys2Proof.Machine.execSliceRgnCmd sess cmd s
  | .guardPublish sess v => Sys2Proof.Machine.execGuardPublish sess v s
  | .guardSync sess v => Sys2Proof.Machine.execGuardSync sess v s
  | .guardSyncDone => Sys2Proof.Machine.execGuardSyncDone s
  | .guardSyncTimeout => Sys2Proof.Machine.execGuardSyncTimeout s
  | .coreRegionBaseHi via c k value => Sys2Proof.Machine.execCoreRegionBaseHi via c k value s
  | .vbusReverseTurnOff b => Sys2Proof.Machine.execVbusReverseTurnOff b s
  | .vbusOvervoltageOff b => Sys2Proof.Machine.execVbusOvervoltageOff b s
  | .vbusOringOn b => Sys2Proof.Machine.execVbusOringOn b s
  | .powerOnResetRelease ga => Sys2Proof.Machine.execPowerOnResetRelease ga s
  | .vbusWarnAssert => Sys2Proof.Machine.execVbusWarnAssert s
  | .vbusWarnClear => Sys2Proof.Machine.execVbusWarnClear s
  | .vbusBelow33 => Sys2Proof.Machine.execVbusBelow33 s
  | .vbusRecover36 => Sys2Proof.Machine.execVbusRecover36 s
  | .vbusBelow31 => Sys2Proof.Machine.execVbusBelow31 s
  | .railStart r => Sys2Proof.Machine.execRailStart r s
  | .railUp r => Sys2Proof.Machine.execRailUp r s
  | .railStartTimeout r => Sys2Proof.Machine.execRailStartTimeout r s
  | .railFault r status => Sys2Proof.Machine.execRailFault r status s
  | .railOffStep r => Sys2Proof.Machine.execRailOffStep r s
  | .railRetry => Sys2Proof.Machine.execRailRetry s
  | .railRestart sess v => Sys2Proof.Machine.execRailRestart sess v s
  | .pmbusPoll r ack status mv ma mc => Sys2Proof.Machine.execPmbusPoll r ack status mv ma mc s
  | .dataPathRelease => Sys2Proof.Machine.execDataPathRelease s
  | .slotCmdOn sess slot => Sys2Proof.Machine.execSlotCmdOn sess slot s
  | .slotCmdOff sess slot => Sys2Proof.Machine.execSlotCmdOff sess slot s
  | .forceOff sess slot v => Sys2Proof.Machine.execForceOff sess slot v s
  | .rampStart slot mv => Sys2Proof.Machine.execRampStart slot mv s
  | .gateFullyOn slot mv => Sys2Proof.Machine.execGateFullyOn slot mv s
  | .currentLimitEnter slot ma => Sys2Proof.Machine.execCurrentLimitEnter slot ma s
  | .faultTimerStop slot ma => Sys2Proof.Machine.execFaultTimerStop slot ma s
  | .faultTimerExpiry slot => Sys2Proof.Machine.execFaultTimerExpiry slot s
  | .fastTrip slot => Sys2Proof.Machine.execFastTrip slot s
  | .rampTimeout slot => Sys2Proof.Machine.execRampTimeout slot s
  | .tripFailure slot => Sys2Proof.Machine.execTripFailure slot s
  | .supplyOutOfRange slot high => Sys2Proof.Machine.execSupplyOutOfRange slot high s
  | .supplyReturn slot => Sys2Proof.Machine.execSupplyReturn slot s
  | .passFetWatchFire slot => Sys2Proof.Machine.execPassFetWatchFire slot s
  | .dischargeEnd slot => Sys2Proof.Machine.execDischargeEnd slot s
  | .chanReset sess slot v => Sys2Proof.Machine.execChanReset sess slot v s
  | .channelSelftestDone slot pass => Sys2Proof.Machine.execChannelSelftestDone slot pass s
  | .lockoutClear sess slot v => Sys2Proof.Machine.execLockoutClear sess slot v s
  | .feedSwitchover slot b => Sys2Proof.Machine.execFeedSwitchover slot b s
  | .feedWarningAssert slot => Sys2Proof.Machine.execFeedWarningAssert slot s
  | .feedWarningClear slot => Sys2Proof.Machine.execFeedWarningClear slot s
  | .redundancyLost slot b => Sys2Proof.Machine.execRedundancyLost slot b s
  | .redundancyRegained slot => Sys2Proof.Machine.execRedundancyRegained slot s
  | .powerWarningMessage => Sys2Proof.Machine.execPowerWarningMessage s
  | .hostGpfPhase2Request h => Sys2Proof.Machine.execHostGpfPhase2Request h s
  | .gpfTargetForward m => Sys2Proof.Machine.execGpfTargetForward m s
  | .gpfHostWaitExpiry => Sys2Proof.Machine.execGpfHostWaitExpiry s
  | .eventDeliver n => Sys2Proof.Machine.execEventDeliver n s
  | .escalationTimerExpiry n => Sys2Proof.Machine.execEscalationTimerExpiry n s
  | .safeExit sess v => Sys2Proof.Machine.execSafeExit sess v s
  | .pendingAck via n => Sys2Proof.Machine.execPendingAck via n s
  | .evtAck sess n v => Sys2Proof.Machine.execEvtAck sess n v s
  | .ackMapWrite h map => Sys2Proof.Machine.execAckMapWrite h map s
  | .clr via n => Sys2Proof.Machine.execClr via n s
  | .evtClear sess n v => Sys2Proof.Machine.execEvtClear sess n v s
  | .ferValidRelease via n => Sys2Proof.Machine.execFerValidRelease via n s
  | .evtInj via n value => Sys2Proof.Machine.execEvtInj via n value s
  | .emcy => Sys2Proof.Machine.execEmcy s
  | .readReq src txn data => Sys2Proof.Machine.execReadReq src txn data s
  | .writeReq src txn data => Sys2Proof.Machine.execWriteReq src txn data s
  | .segInit src txn data => Sys2Proof.Machine.execSegInit src txn data s
  | .segData src txn data => Sys2Proof.Machine.execSegData src txn data s
  | .segAck src txn data => Sys2Proof.Machine.execSegAck src txn data s
  | .segAckTimerExpiry src => Sys2Proof.Machine.execSegAckTimerExpiry src s
  | .segTimeout src => Sys2Proof.Machine.execSegTimeout src s
  | .abortFrame src txn data => Sys2Proof.Machine.execAbortFrame src txn data s
  | .illegalFuncFrame classical => Sys2Proof.Machine.execIllegalFuncFrame classical s
  | .addrClaim src serial => Sys2Proof.Machine.execAddrClaim src serial s
  | .addrAssign data => Sys2Proof.Machine.execAddrAssign data s
  | .addrClaimTimerExpiry => Sys2Proof.Machine.execAddrClaimTimerExpiry s
  | .addrRetryExpiry => Sys2Proof.Machine.execAddrRetryExpiry s
  | .canErrorStateChange state tec rec_ => Sys2Proof.Machine.execCanErrorStateChange state tec rec_ s
  | .sessionIdleExpiry sess => Sys2Proof.Machine.execSessionIdleExpiry sess s
  | .objectWrite sess index sub data => Sys2Proof.Machine.execObjectWrite sess index sub data s
  | .featRequest sess v => Sys2Proof.Machine.execFeatRequest sess v s
  | .genCommit sess v => Sys2Proof.Machine.execGenCommit sess v s
  | .genConfirm sess v => Sys2Proof.Machine.execGenConfirm sess v s
  | .genRollback sess v => Sys2Proof.Machine.execGenRollback sess v s
  | .draftDiscard sess v => Sys2Proof.Machine.execDraftDiscard sess v s
  | .confirmTimerExpiry => Sys2Proof.Machine.execConfirmTimerExpiry s
  | .draftIdleExpiry => Sys2Proof.Machine.execDraftIdleExpiry s
  | .notifySample k => Sys2Proof.Machine.execNotifySample k s
  | .identify h => Sys2Proof.Machine.execIdentify h s
  | .getResponseMessageLimit h => Sys2Proof.Machine.execGetResponseMessageLimit h s
  | .setResponseMessageLimit h limit => Sys2Proof.Machine.execSetResponseMessageLimit h limit s
  | .getSupportedLogs h => Sys2Proof.Machine.execGetSupportedLogs h s
  | .getLog h log offset length => Sys2Proof.Machine.execGetLog h log offset length s
  | .odAccessRead h input => Sys2Proof.Machine.execOdAccessRead h input s
  | .odAccessWrite h input => Sys2Proof.Machine.execOdAccessWrite h input s
  | .mailboxUnsupportedCommand h opcode => Sys2Proof.Machine.execMailboxUnsupportedCommand h opcode s
  | .identifySwitchDevice h => Sys2Proof.Machine.execIdentifySwitchDevice h s
  | .getPhysicalPortState h p => Sys2Proof.Machine.execGetPhysicalPortState h p s
  | .physicalPortControl h p op => Sys2Proof.Machine.execPhysicalPortControl h p op s
  | .sendPpbCxlIoConfigRequest h p reg write data => Sys2Proof.Machine.execSendPpbCxlIoConfigRequest h p reg write data s
  | .getVirtualCxlSwitchInfo h n => Sys2Proof.Machine.execGetVirtualCxlSwitchInfo h n s
  | .bindVppb h cmd => Sys2Proof.Machine.execBindVppb h cmd s
  | .unbindVppb h cmd => Sys2Proof.Machine.execUnbindVppb h cmd s
  | .generateAerEvent h n v error => Sys2Proof.Machine.execGenerateAerEvent h n v error s
  | .tunnelManagementCommand h p payload => Sys2Proof.Machine.execTunnelManagementCommand h p payload s
  | .getDcdInfo h => Sys2Proof.Machine.execGetDcdInfo h s
  | .getHostDcRegionConfiguration h n => Sys2Proof.Machine.execGetHostDcRegionConfiguration h n s
  | .getDcRegionExtentLists h n => Sys2Proof.Machine.execGetDcRegionExtentLists h n s
  | .initiateDynamicCapacityAdd h cmd => Sys2Proof.Machine.execInitiateDynamicCapacityAdd h cmd s
  | .initiateDynamicCapacityRelease h cmd => Sys2Proof.Machine.execInitiateDynamicCapacityRelease h cmd s
  | .setDcRegionConfiguration h => Sys2Proof.Machine.execSetDcRegionConfiguration h s
  | .discover f => Sys2Proof.Machine.execDiscover f s
  | .openSession f => Sys2Proof.Machine.execOpenSession f s
  | .closeSession h payload => Sys2Proof.Machine.execCloseSession h payload s
  | .odRead h index sub rsv offset length => Sys2Proof.Machine.execOdRead h index sub rsv offset length s
  | .odWrite h index sub rsv offset rest => Sys2Proof.Machine.execOdWrite h index sub rsv offset rest s
  | .csrRead h die rsv offset => Sys2Proof.Machine.execCsrRead h die rsv offset s
  | .csrWrite h die rsv offset value => Sys2Proof.Machine.execCsrWrite h die rsv offset value s
  | .servicePortBadOp h op payload => Sys2Proof.Machine.execServicePortBadOp h op payload s
  | .blobBegin h kind rsv total crc => Sys2Proof.Machine.execBlobBegin h kind rsv total crc s
  | .blobData h offset len bytes => Sys2Proof.Machine.execBlobData h offset len bytes s
  | .blobEnd h payload => Sys2Proof.Machine.execBlobEnd h payload s
  | .blobStatus h payload => Sys2Proof.Machine.execBlobStatus h payload s
  | .blobAbort h payload => Sys2Proof.Machine.execBlobAbort h payload s
  | .blobIdleExpiry sess => Sys2Proof.Machine.execBlobIdleExpiry sess s
  | .lcAdvance sess v => Sys2Proof.Machine.execLcAdvance sess v s
  | .lcToken sess token => Sys2Proof.Machine.execLcToken sess token s
  | .lcScrap sess v => Sys2Proof.Machine.execLcScrap sess v s
  | .vrootRevoke0 sess v => Sys2Proof.Machine.execVrootRevoke0 sess v s
  | .jtagOpen sess v => Sys2Proof.Machine.execJtagOpen sess v s
  | .custKeyHash sess v => Sys2Proof.Machine.execCustKeyHash sess v s
  | .authResponse sess response => Sys2Proof.Machine.execAuthResponse sess response s
  | .devkeyGen sess v => Sys2Proof.Machine.execDevkeyGen sess v s
  | .devkeyCert sess cert => Sys2Proof.Machine.execDevkeyCert sess cert s
  | .attestNonce sess nonce => Sys2Proof.Machine.execAttestNonce sess nonce s
  | .attestReportReady sess => Sys2Proof.Machine.execAttestReportReady sess s
  | .fwInstall sess v => Sys2Proof.Machine.execFwInstall sess v s
  | .partSwapComplete k ok => Sys2Proof.Machine.execPartSwapComplete k ok s
  | .imageHealthReport k healthy => Sys2Proof.Machine.execImageHealthReport k healthy s
  | .probationExpiry k => Sys2Proof.Machine.execProbationExpiry k s
  | .fwReject sess v => Sys2Proof.Machine.execFwReject sess v s
  | .fwDiscard sess v => Sys2Proof.Machine.execFwDiscard sess v s
  | .appletRemove sess slot v => Sys2Proof.Machine.execAppletRemove sess slot v s
  | .dataPathImagesLoaded => Sys2Proof.Machine.execDataPathImagesLoaded s
  | .hkRstN ga => Sys2Proof.Machine.execHkRstN ga s
  | .resetHk sess v => Sys2Proof.Machine.execResetHk sess v s
  | .resetHub sess v => Sys2Proof.Machine.execResetHub sess v s
  | .hkWatchdog => Sys2Proof.Machine.execHkWatchdog s
  | .resetRelease dom => Sys2Proof.Machine.execResetRelease dom s
  | .cxlHotReset p vppb => Sys2Proof.Machine.execCxlHotReset p vppb s
  | .temperaturePoll mc => Sys2Proof.Machine.execTemperaturePoll mc s
  | .thermalShutdown => Sys2Proof.Machine.execThermalShutdown s
  | .thermalRecovery => Sys2Proof.Machine.execThermalRecovery s
  | .companionOverTemperature b => Sys2Proof.Machine.execCompanionOverTemperature b s
  | .companionTemperatureRecover b => Sys2Proof.Machine.execCompanionTemperatureRecover b s
  | .registerWrite via die offset nbytes value => Sys2Proof.Machine.execRegisterWrite via die offset nbytes value s
  | .partnerDetect p => Sys2Proof.Machine.execPartnerDetect p s
  | .l1Exit p => Sys2Proof.Machine.execL1Exit p s
  | .loopbackExit p => Sys2Proof.Machine.execLoopbackExit p s
  | .servicePortLinkChange up => Sys2Proof.Machine.execServicePortLinkChange up s
  | .spcOscillatorOutOfRange b bad => Sys2Proof.Machine.execSpcOscillatorOutOfRange b bad s
  | .tileSwapDeadline => Sys2Proof.Machine.execTileSwapDeadline s
  | .gpfTargetComplete m => Sys2Proof.Machine.execGpfTargetComplete m s
  | .coreMemoryAccess c op addr nbytes => Sys2Proof.Machine.execCoreMemoryAccess c op addr nbytes s
  | .registerRead via die offset nbytes => Sys2Proof.Machine.execRegisterRead via die offset nbytes s
  | .jtagTapAccess scan => Sys2Proof.Machine.execJtagTapAccess scan s

end Sys2Proof.Machine
end

