-- ==== Sys2Proof/Machine/Step.lean ====
section
/-!
DEFINITION. One step of the block: the command at the front of the queue, or one idle cycle.
-/
namespace Sys2Proof.Machine

/-- One step. The command at the front of the queue leaves it and acts on the rest; with an empty queue one FCLK cycle
passes (R4): the tick engine's items that have published take effect (R31, R32), and nothing else happens. DESIGN CHOICE: the
idle cycle. -/
def step (s : State) : Host.Outcome State Fault Refusal :=
  match s.pending with
  | [] => .next ({ s with now := s.now + Config.fclk } : State).runItems
  | c :: rest => exec c { s with pending := rest }

/-- The machine with the command that a word spells at the front of its queue; unchanged where the word spells none. -/
def State.withFetchWord (s : State) (nbits w : Nat) : State :=
  match decodeTableWord nbits w with
  | none => s
  | some c => { s with pending := c :: s.pending }

end Sys2Proof.Machine
end

