-- ==== Sys2Proof/Safety.lean ====
section
/-!
DEFINITION. What a safe machine is, and when a write is accepted, in the terms that the statements use.
-/
namespace Sys2Proof.Machine

/-- Every sparse table of the state that has a fixed default is in its one canonical form. -/
def State.canonical (s : State) : Bool :=
  KMap.wf odDefault s.od && KMap.wf (fun _ => 0) s.csr && KMap.wf (fun _ => {}) s.ev.blk
    && KMap.wf (fun _ => none) s.mg.sess && KMap.wf (fun _ => {}) s.pw.slot

/-- LC_FUSE holds one of the five patterns of R513. -/
def State.lcLegal (s : State) : Prop := s.life.fuses.lc ∈ [0x00, 0x03, 0x0F, 0x3F, 0xFF]

/-- A write of object `key` with `len` bytes of value `v` by session `sid` passes the checks of R481 and is no RWS object:
`u` is the machine in which the object's own rule then acts (the session is open and its idle time restarted). -/
def State.accepts (s : State) (sid key len v : Nat) (u : State) : Prop :=
  s.sessionFor sid = .ready u ∧ ∃ r, u.writeEarly sid key v = .inr r ∧ r.late len v = none
    ∧ (r.home = .event && blockReserved (evtOfKey key)) = false ∧ u.writeReach r key = true ∧ r.access ≠ .rws

/-- A register access by `via` to a die passes the gate of R18 and R439. -/
def State.csrOpen (s : State) (via : CsrVia) (die : Nat) : Bool := s.csrAllowed via die && s.dieUp die

/-- A frame of an open service-port session carries the request after the last (R505, R507), outside recovery: `u` is the machine in
which the operation then acts. -/
def State.svcTakes (s : State) (f : SvcFrame) (u : State) : Prop :=
  s.svcServes = true ∧ s.st.recovery = false ∧ f.version = 1
    ∧ (∃ x, s.sess? (sidSvc f.session.toNat) = some x ∧ f.seq.toNat ≠ x.lastSeq ∧ f.seq.toNat = seqAfter x.lastSeq)
    ∧ u = s.updSess (sidSvc f.session.toNat) (fun x => { x with lastAt := s.now })

/-- VCS h's mailbox takes a command (R500): `u` is the machine in which it then acts. -/
def State.mboxTakes (s : State) (h : Nat) (u : State) : Prop :=
  s.mboxServes h = true ∧ u = s.updSess (sidMailbox h) (fun x => { x with lastAt := s.now })

/-- The mailbox of FM_HOST takes a fabric-manager command (R500, R502). -/
def State.fmTakes (s : State) (h : Nat) (u : State) : Prop := s.mboxTakes h u ∧ u.c K.FM_HOST = h

end Sys2Proof.Machine
end

