-- ==== Sys2Proof/Certificates/Slice0/Obligations.lean ====
section
/-!
DEFINITION. The statements about the model.
-/
open Sys2Proof Sys2Proof.Machine

/-- A step runs the command at the front of the queue (R1 (00 Scope), log entries 7 and 10). -/
def Obligations.StepRunsFrontCommand : Prop :=
  ∀ (c : Instr) (s : State) (rest : List Instr), s.pending = c :: rest → step s = exec c { s with pending := rest }

/-- Acknowledging, clearing and releasing an event block (R450, R452, R447, R455, R481). -/
def Obligations.EventBlockAcknowledged : Prop :=
  (∀ (sess : SessRef) (n : EventIx) (v : Byte) (s u : State), s.accepts sess (K.EVT_ACK n) 1 v.toNat u →
    (6 ≤ u.tm.item ∨ (u.blk n).timer = none) → (u.blk n).isHot 0 u.now = false →
    exec (.evtAck sess n v) s
      = .next ((u.setBlk n { u.blk n with pending := false, timer := none }).emit .answer sess [0, 0]))
  ∧ (∀ (via : CsrVia) (n : EventIx) (s : State), s.csrOpen via (blockDie n) = true →
    (6 ≤ s.tm.item ∨ (s.blk n).timer = none) → (s.blk n).isHot 0 s.now = false →
    exec (.pendingAck via n) s = .next (s.setBlk n { s.blk n with pending := false, timer := none }))
  ∧ (∀ (via : CsrVia) (n : EventIx) (t : Nat) (s : State), s.csrOpen via (blockDie n) = true →
    6 ≤ s.tm.item → (s.blk n).timer = some t → (s.blk n).isHot 0 s.now = true →
    exec (.pendingAck via n) s = .next (s.setBlk n { s.blk n with timer := some (s.c (K.ESC_TICKS n)), timerAt := s.now }))
  ∧ (∀ (via : CsrVia) (n : EventIx) (s : State), s.csrOpen via (blockDie n) = true →
    exec (.ferValidRelease via n) s
      = .next (s.setBlk n { s.blk n with ferValid := (s.blk n).ferValid && (s.blk n).isHot 7 s.now }))
  ∧ (∀ (via : CsrVia) (n : EventIx) (s : State), s.csrOpen via (blockDie n) = true → (s.blk n).cls = 1 →
    (s.blk n).isHot 3 s.now = false →
    exec (.clr via n) s = .next (s.setBlk n
      { (s.blk n).leave s.now with clearedAt := s.now, clearedTick := s.tm.ticks, lifted := some (s.blk n).lift }))
  ∧ (∀ (via : CsrVia) (n : EventIx) (s : State), s.csrOpen via (blockDie n) = true → (s.blk n).cls = 2 →
    (s.blk n).cause = true → exec (.clr via n) s = .next (s.setBlk n { s.blk n with clrRefused := true }))
  ∧ (∀ (sess : SessRef) (n : EventIx) (v : Byte) (s u : State), s.accepts sess (K.EVT_CLEAR n) 1 v.toNat u → (u.blk n).cls = 1 →
    (u.blk n).isHot 3 u.now = false →
    exec (.evtClear sess n v) s = .next ((u.setBlk n
      { (u.blk n).leave u.now with clearedAt := u.now, clearedTick := u.tm.ticks, lifted := some (u.blk n).lift }).emit
        .answer sess [0, 0]))
  ∧ (∀ (sess : SessRef) (n : EventIx) (v : Byte) (s u : State), s.accepts sess (K.EVT_CLEAR n) 1 v.toNat u → (u.blk n).cls = 2 →
    (u.blk n).cause = true →
    exec (.evtClear sess n v) s
      = .next ((u.setBlk n { u.blk n with clrRefused := true }).emit .answer sess [0x0501, 0]))
  ∧ (∀ (sess : SessRef) (v : Byte) (s u : State), s.accepts sess K.SAFE_EXIT 1 v.toNat u → u.ev.safe = true →
    ∃ t, exec (.safeExit sess v) s = .next t ∧ t.ev.safe = false ∧ t.o K.SAFE_STATE = 0 ∧ t.o K.START_PHASE = 7
      ∧ (t.blk 589).cause = false ∧ t.st.hubCauses = u.st.hubCauses.filter (· ≠ 0x13)
      ∧ t.out = { kind := .answer, dst := sess, args := [0, 0] } :: u.out)
  ∧ (∀ (sess : SessRef) (v : Byte) (s u : State), s.accepts sess K.SAFE_EXIT 1 v.toNat u → u.ev.safe = false →
    exec (.safeExit sess v) s = .next (u.emit .answer sess [0x0501, 0]))

/-- A gathered change goes out, and emergencies leave in order (R457, R458, R459, R460, R432, R451, R452, R453, R462, R477). -/
def Obligations.EventChangeDelivered : Prop :=
  (∀ (n : EventIx) (h : Nat) (s : State), blockDie n < 5 → s.hubHeld = false → 4 ≤ s.tm.item → (s.blk n).owed = true →
    s.routedHosts n = [h] → s.isVcsUp h = true → bit (s.c (K.EVT_ROUTE n)) 2 = false →
    exec (.eventDeliver n) s
      = .next ((s.setBlk n { s.blk n with owed := false }).msixRaise h 1 (bits (s.c (K.EVT_ROUTE n)) 13 8)))
  ∧ (∀ (n : EventIx) (s : State), 456 ≤ n.val → n.val < 528 → s.hkServes = false → (s.blk n).changed = true →
    (KMap.get [] s.pw.spcHeld ((n - 456) / 36)).length < 32 →
    ∃ t, exec (.eventDeliver n) s = .next t ∧ (t.blk n).changed = false
      ∧ KMap.get [] t.pw.spcHeld ((n - 456) / 36)
        = KMap.get [] s.pw.spcHeld ((n - 456) / 36) ++ [(n.val, emcyBody n (s.blk n))] ∧ t.out = s.out ∧ t.od = s.od)
  ∧ (∀ (body : Nat) (rest : List Nat) (s : State), s.ev.emcy = body :: rest → s.o K.NODE_ADDR ≠ 0 → s.o K.CAN_STATE ≠ 2 →
    s.islandUp = true →
    ∃ t, exec .emcy s = .next t ∧ t.ev.emcy = rest ∧ t.ev.emcyCount = s.ev.emcyCount + 1
      ∧ t.out = { kind := .can, dst := 0, args := 1 :: s.o K.NODE_ADDR :: (s.ev.emcyCount + 1) % 64 :: (toBytes 16 body).map (·.toNat) } :: s.out)
  ∧ (∀ (h : HostIx) (map : BitVec 640) (s : State), s.isVcsUp h = true → 6 ≤ s.tm.item →
    ∃ t, exec (.ackMapWrite h map) s = .next t
      ∧ (∀ n, n < 640 → bit map.toNat n = true → (s.routedHosts n).contains h.val = true →
          t.blk n = (s.blk n).ack (s.c (K.ESC_TICKS n)) s.now)
      ∧ (∀ n, (bit map.toNat n = false ∨ (s.routedHosts n).contains h.val = false) → t.blk n = s.blk n)
      ∧ t.od = s.od ∧ t.out = s.out)
  ∧ (∀ (n : EventIx) (s : State), (s.blk n).requal = true → s.requalified n = true →
    exec (.requalifyCheck n) s
      = .next (s.setBlk n { (s.blk n).mark s.now with requal := false, cls := 0, cause := false, ferValid := false, step := 0 }))
  ∧ (∀ (n : EventIx) (e : Nat) (s : State), blockKind n = .engine e → (s.blk n).timer = some 1 → (s.blk n).pending = true →
    (s.blk n).step = 1 → 2 < s.ceiling n (s.blk n).cls → (s.blk n).timerAt < s.tm.tickStart → (s.blk n).counted ≠ s.tm.ticks →
    s.hubHeld = false → s.tm.overrun = false → s.itemRuns 6 = true →
    ∃ t, exec (.escalationTimerExpiry n) s = .next t ∧ (t.blk n).step = 2 ∧ (t.blk n).contain = true
      ∧ (t.blk n).timer = some (s.c (K.ESC_TICKS n)) ∧ t.od = s.od ∧ t.out = s.out)
  ∧ (∀ (via : CsrVia) (n : EventIx) (v : Word32) (s : State), s.csrOpen via (blockDie n) = true → blockReserved n = false →
    bits v.toNat 4 3 = 3 →
    exec (.evtInj via n v) s = .next (s.setBlk n { s.blk n with inj := setBit (s.blk n).inj 6 true }))
  ∧ (∀ (via : CsrVia) (n : EventIx) (v : Word32) (s : State), s.csrOpen via (blockDie n) = true → blockReserved n = false →
    s.injOpen = true → bits v.toNat 2 0 < checkers n → bits v.toNat 4 3 ≠ 3 → bits v.toNat 2 0 ≠ 0 → bit v.toNat 6 = true →
    exec (.evtInj via n v) s = .next (s.setBlk n { s.blk n with inj := setBit (setBit (Nat.land v.toNat injMask) 6 false) 5 (bits v.toNat 4 3 == 0 && bit (s.blk n).inj 5) }))

/-- VBUS inputs, levels of VBUS_OR, temperatures and the companions' oscillators (R403, R404, R563, R564, R442, R445). -/
def Obligations.SupplyInputsAndLevels : Prop :=
  (∀ (b : Bool) (s : State), s.oring b = .conducting →
    exec (.vbusReverseTurnOff b) s = .next ((s.setOring b .offReverse).raise (602 + b2n b) 1 1 false island))
  ∧ (∀ (b : Bool) (s : State), s.oring b ≠ .offOver →
    exec (.vbusOvervoltageOff b) s = .next ((s.setOring b .offOver).raise (602 + b2n b) 1 2 false island))
  ∧ (∀ (b : Bool) (s : State), ∃ t, exec (.vbusOringOn b) s = .next t ∧ t.oring b = .conducting ∧ t.oring (!b) = s.oring (!b)
      ∧ t.od = s.od ∧ t.ev = s.ev ∧ t.out = s.out)
  ∧ (∀ (s : State), s.st.porHeld = false → s.pw.below33 = false →
    exec .vbusBelow33 s
      = .next (((({ s with pw := { s.pw with below33 := true } } : State).raise 604 2 3 false island).hubReset 0x10 true).turnRailsOff))
  ∧ (∀ (s : State), s.pw.below33 = true →
    exec .vbusRecover36 s = .next ((({ s with pw := { s.pw with below33 := false } } : State).hubCauseEnds 0x10).startRails))
  ∧ (∀ (s : State), s.st.porHeld = false → exec .vbusBelow31 s = .next s.porReset)
  ∧ (∀ (s : State), s.st.thermal = false → s.islandUp = true →
    exec .thermalShutdown s
      = .next ((((({ s with st := { s.st with thermal := true } } : State).incO K.THERM_SHUTDOWNS).raise 618 2 1 false
          island).hubReset 0x06 true).turnRailsOff))
  ∧ (∀ (s : State), s.st.thermal = true →
    exec .thermalRecovery s
      = .next ((({ s with st := { s.st with thermal := false } } : State).hubCauseEnds 0x06).startRails))
  ∧ (∀ (b : Bool) (s : State), ∃ t, exec (.companionOverTemperature b) s = .next t
      ∧ KMap.get false t.st.hotSpc (b2n b) = true
      ∧ t.pw = ((List.range 12).foldl (fun s i => s.slotOff (12 * b2n b + i) 8) s).pw)
  ∧ (∀ (b : Bool) (s : State), ∃ t, exec (.companionTemperatureRecover b) s = .next t
      ∧ KMap.get false t.st.hotSpc (b2n b) = false ∧ t.pw = s.pw ∧ t.od = s.od ∧ t.ev = s.ev ∧ t.out = s.out)
  ∧ (∀ (b : Bool) (s : State),
    exec (.spcOscillatorOutOfRange b true) s = .next (s.raise (612 + b2n b) 2 2 true { master := 0x91 + b2n b })
    ∧ exec (.spcOscillatorOutOfRange b false) s = .next (s.setBlk (612 + b2n b) { s.blk (612 + b2n b) with cause := false }))
  ∧ (∀ (mc : List Int) (s u : State), s.islandServes = true → mc.length = 7 →
    u = (List.range 7).foldl (fun s k => s.setO (tjKey k) (toSigned 32 (mc.getD k 0))) s →
    hottest mc ≤ ofSigned 32 (u.o K.TJ_PEAK) → u.st.warnTemp = false → hottest mc ≤ (u.c K.TJ_WARN : Int) →
    exec (.temperaturePoll mc) s = .next u)

/-- The core rails start, come up, fault, retry and go off (R405, R406, R407, R408, R434, R547). -/
def Obligations.CoreRailsSequenced : Prop :=
  (∀ (s : State), s.o K.RAIL_SEQ_STATE = 1 → s.pw.turningOff = false → (s.rail 0).on = false → (s.rail 0).asked = true →
    s.islandUp = true →
    exec (.railStart 0) s
      = .next ((((((s.pmbus 0 0x03 0).pmbus 0 0x02 0).pmbus 0 0x21 (toSigned 16 (s.railSet 0))).pmbus 0 0x01 1).updRail 0
          (fun x => { x with on := true, asked := true, startedAt := s.now })).setO (K.RAIL_STATE 0) 1))
  ∧ (∀ (r : Fin 4) (s u : State), r.val ≠ 0 → s.o K.RAIL_SEQ_STATE = 1 → s.pw.turningOff = false → (s.rail r).on = false →
    s.islandUp = true → s.o (K.RAIL_STATE (r - 1)) = 2 → (s.rail r).asked = true →
    u = s.advance ((s.rail (r - 1)).upAt + 500000000) →
    exec (.railStart r) s
      = .next ((((((u.pmbus r 0x03 0).pmbus r 0x02 0).pmbus r 0x21 (toSigned 16 (u.railSet r))).pmbus r 0x01 1).updRail r
          (fun x => { x with on := true, asked := true, startedAt := u.now })).setO (K.RAIL_STATE r) 1))
  ∧ (∀ (r : Fin 4) (s : State), s.o (K.RAIL_STATE r) = 1 → (s.rail r).on = true → r.val ≠ 3 →
    exec (.railUp r) s
      = .next (((s.updRail r (fun x => { x with upAt := s.now })).setO (K.RAIL_STATE r) 2).causeEnds (605 + r)))
  ∧ (∀ (s u : State), s.o (K.RAIL_STATE 3) = 1 → (s.rail 3).on = true →
    u = ((s.updRail 3 (fun x => { x with upAt := s.now })).setO (K.RAIL_STATE 3) 2).causeEnds 608 →
    exec (.railUp 3) s
      = .next (({ u with pw := { u.pw with dieRelAt := some (u.now + 1000000000) } } : State).setO K.RAIL_SEQ_STATE 2))
  ∧ (∀ (r : Fin 4) (s : State), s.o (K.RAIL_STATE r) = 1 → (s.rail r).on = true →
    exec (.railStartTimeout r) s
      = .next ((s.advance ((s.rail r).startedAt + 20 * Config.ms)).freeNext.railFaultAct r
          (s.advance ((s.rail r).startedAt + 20 * Config.ms)).freeVal))
  ∧ (∀ (r : Fin 4) (st : BitVec 16) (s : State), s.o (K.RAIL_STATE r) = 2 →
    exec (.railFault r st) s = .next (s.railFaultAct r st.toNat))
  ∧ (∀ (r : Fin 4) (s : State), s.pw.turningOff = true → s.railsOn.head? = some r.val →
    ∃ t, exec (.railOffStep r) s = .next t ∧ t.od = (s.railOff r).od ∧ t.out = (s.railOff r).out
      ∧ t.pw.turningOff = !(s.railOff r).railsOn.isEmpty)
  ∧ (∀ (at_ : Nat) (s : State), s.pw.retryAt = some at_ →
    exec .railRetry s
      = .next ({ ((s.advance at_).hubCauseEnds 0x11) with pw := { ((s.advance at_).hubCauseEnds 0x11).pw with retryAt := none } } : State).startRails)
  ∧ (∀ (sess : SessRef) (v : Byte) (s u : State), s.accepts sess K.RAIL_RESTART 1 v.toNat u → u.o K.RAIL_SEQ_STATE = 3 →
    exec (.railRestart sess v) s = .next ((u.hubCauseEnds 0x11).startRails.emit .answer sess [0, 0]))
  ∧ (∀ (sess : SessRef) (v : Byte) (s u : State), s.accepts sess K.RAIL_RESTART 1 v.toNat u → u.o K.RAIL_SEQ_STATE ≠ 3 →
    exec (.railRestart sess v) s = .next (u.emit .answer sess [0x0501, 0]))
  ∧ (∀ (r : Fin 4) (st : BitVec 16) (mv ma : Nat) (mc : Int) (s u : State), s.islandServes = true →
    railStatusBad st.toNat = false →
    u = (((((s.pmbus r 0x79 0).updRail r (fun x => { x with nacks := 0 })).pmbus r 0x8B 0).pmbus r 0x8C 0).pmbus r 0x8D 0) →
    exec (.pmbusPoll r true st mv ma mc) s
      = .next (((u.setO (K.RAIL_VOUT_MV r) (mv % 2 ^ 32)).setO (K.RAIL_IOUT_MA r) (ma % 2 ^ 32)).setO (K.RAIL_TEMP_MC r)
          (toSigned 32 mc)))
  ∧ (∀ (at_ : Nat) (s u : State), s.pw.dieRelAt = some at_ →
    u = { s.advance at_ with pw := { (s.advance at_).pw with dieRelAt := none } } → u.mayReleaseHub = true →
    exec .dataPathRelease s = .next u.hubRelease)

/-- A slot is commanded on and off, ramps and comes on, or is refused (R410, R411, R412, R416, R417, R419, R420, R421, R430, R436). -/
def Obligations.SlotCommandsAndRamp : Prop :=
  (∀ (sess : SessRef) (n : SlotIx) (s u : State), s.accepts sess (K.SLOT_CMD n) 1 1 u → (u.slotOwner n).isSome = false →
    (u.slot n).state = .off → u.slotPresent n = true → u.slotHot n = false →
    exec (.slotCmdOn sess n) s
      = .next ((u.updSlot n (fun x => { x with cmdOn := true, onWaits := true })).emit .answer sess [0, 0]))
  ∧ (∀ (sess : SessRef) (n : SlotIx) (s u : State), s.accepts sess (K.SLOT_CMD n) 1 1 u → (u.slotOwner n).isSome = true →
    exec (.slotCmdOn sess n) s = .next ((u.setO (K.CMD_REFUSAL n) 1).emit .answer sess [0x0501, 1]))
  ∧ (∀ (sess : SessRef) (n : SlotIx) (s u : State), s.accepts sess (K.SLOT_CMD n) 1 0 u → (u.slotOwner n).isSome = false →
    ((u.slot n).state = .on ∨ (u.slot n).state = .ramp) →
    exec (.slotCmdOff sess n) s
      = .next ((u.updSlot n (fun x => { x.gateOff .off u.now with cmdOn := false, watch := x.watch, offAt := some u.now })).emit .answer sess [0, 0]))
  ∧ (∀ (sess : SessRef) (n : SlotIx) (s u : State), s.accepts sess (K.SLOT_CMD n) 1 0 u → (u.slotOwner n).isSome = false →
    (u.slot n).state = .lockout →
    exec (.slotCmdOff sess n) s = .next ((u.setO (K.CMD_REFUSAL n) 2).emit .answer sess [0x0501, 2]))
  ∧ (∀ (sess : SessRef) (n : SlotIx) (v : Byte) (s u : State), s.accepts sess (K.FORCE_OFF n) 1 v.toNat u →
    exec (.forceOff sess n v) s = .next ((u.forceOff n).emit .answer sess [0, 0]))
  ∧ (∀ (n : SlotIx) (mv : Nat) (s u : State), u = s.setO (K.V_OUT_MV n) (mv % 2 ^ 32) → (u.slot n).state = .off →
    (u.slot n).onWaits = true → mv < 2500 →
    exec (.rampStart n mv) s
      = .next (u.updSlot n (fun x => { x with state := .ramp, onWaits := false, discharging := false, watch := false, tripCheck := 0, offAt := none, rampAt := u.now, enteredAt := u.now, rampLim := u.c (K.RAMP_TIMEOUT n) })))
  ∧ (∀ (n : SlotIx) (mv : Nat) (s u : State), u = s.setO (K.V_OUT_MV n) (mv % 2 ^ 32) → (u.slot n).state = .ramp →
    (u.slot n).timerOn = false →
    exec (.gateFullyOn n mv) s
      = .next (u.updSlot n (fun x => { x with state := .on, pg := true, enteredAt := u.now, perstAt := some (u.now + u.perstDelay n * 1000000000) })))
  ∧ (∀ (n : SlotIx) (s : State), (s.slot n).state = .supplyWait → (s.slot n).cmdOn = true →
    ∃ t, exec (.supplyReturn n) s = .next t ∧ (t.slot n).state = .ramp ∧ (t.slot n).rampAt = s.now
      ∧ (t.slot n).rampLim = s.c (K.RAMP_TIMEOUT n) ∧ (∀ m, m ≠ n.val → t.slot m = s.slot m) ∧ t.od = s.od ∧ t.ev = s.ev)
  ∧ (∀ (n : SlotIx) (s u : State), (s.slot n).discharging = true → (s.slot n).state ≠ .lockout →
    u = s.advance ((s.slot n).enteredAt + s.c (K.DSCHG_TIME n) * 1000000000) →
    exec (.dischargeEnd n) s = .next (u.updSlot n (fun x => { x with discharging := false, watch := true })))
  ∧ (∀ (n : SlotIx) (s : State), (s.slot n).state = .ramp →
    exec (.rampTimeout n) s = .next ((s.advance ((s.slot n).rampAt + (s.slot n).rampLim * Config.ms)).trip n 3))
  ∧ (∀ (sess : SessRef) (n : SlotIx) (v : Byte) (s u : State), s.accepts sess (K.CHAN_RESET n) 1 v.toNat u →
    (u.slot n).state = .lockout →
    exec (.chanReset sess n v) s = .next ((u.updSlot n (fun x => { x with selftest := .running })).emit .answer sess [0, 0]))
  ∧ (∀ (sess : SessRef) (n : SlotIx) (v : Byte) (s u : State), s.accepts sess (K.CHAN_RESET n) 1 v.toNat u → (u.slot n).state = .on →
    exec (.chanReset sess n v) s = .next ((u.setO (K.CMD_REFUSAL n) 5).emit .answer sess [0x0501, 5]))
  ∧ (∀ (n : SlotIx) (pass : Bool) (s : State), (s.slot n).selftest = .running →
    exec (.channelSelftestDone n pass) s
      = .next (s.updSlot n (fun x => { x with selftest := if pass then .passed else .failed })))
  ∧ (∀ (sess : SessRef) (n : SlotIx) (v : Byte) (s u w : State), s.accepts sess (K.LOCKOUT_CLEAR n) 1 v.toNat u →
    (u.slot n).state = .lockout → (u.slot n).selftest = .passed →
    w = u.updSlot n (fun x => { x with state := .off, feedA := x.feedAGood, feedB := x.feedBGood, lockRec := false, watch := true, discharging := true, enteredAt := u.now, selftest := .none }) →
    exec (.lockoutClear sess n v) s = .next ((w.setBlk (457 + 3 * n) ((w.blk (457 + 3 * n)).leave w.now)).emit .answer sess [0, 0]))
  ∧ (∀ (sess : SessRef) (n : SlotIx) (v : Byte) (s u : State), s.accepts sess (K.LOCKOUT_CLEAR n) 1 v.toNat u →
    (u.slot n).state ≠ .lockout →
    exec (.lockoutClear sess n v) s = .next ((u.setO (K.CMD_REFUSAL n) 6).emit .answer sess [0x0501, 6]))

/-- Current limit, trips, lockout, supply and feeds of a slot (R409, R411, R413, R414, R418, R419, R425, R258, R432, R433). -/
def Obligations.SlotTripsAndFeeds : Prop :=
  (∀ (n : SlotIx) (ma : Nat) (s u : State), u = s.setO (K.I_OUT_MA n) (ma % 2 ^ 32) → ((u.slot n).state = .on ∨ (u.slot n).state = .ramp) →
    (u.slot n).timerOn = false → u.c (K.LIMIT_MA n) < ma →
    exec (.currentLimitEnter n ma) s = .next (u.updSlot n (fun x => x.startTimer u.now)))
  ∧ (∀ (x : Slot) (now : Nat), x.startTimer now = (if x.state = .on ∧ now < x.enteredAt + 50000 then
      { x with state := .ramp, pg := false, perstAt := none, timerOn := true, timerAt := now }
      else { x with timerOn := true, timerAt := now }))
  ∧ (∀ (n : SlotIx) (ma : Nat) (s u : State), u = s.setO (K.I_OUT_MA n) (ma % 2 ^ 32) → (u.slot n).timerOn = true →
    ma * 100 < u.c (K.LIMIT_MA n) * 95 →
    exec (.faultTimerStop n ma) s = .next (u.updSlot n (fun x => { x with timerOn := false })))
  ∧ (∀ (n : SlotIx) (s : State), (s.slot n).timerOn = true →
    exec (.faultTimerExpiry n) s = .next ((s.advance ((s.slot n).timerAt + s.c (K.FAULT_TIME n) * Config.us)).trip n 1))
  ∧ (∀ (n : SlotIx) (s u : State), ((s.slot n).state = .ramp ∨ (s.slot n).state = .on) →
    u = s.updSlot n (fun x => { x.gateOff .tripped s.now with cmdOn := false }) →
    exec (.fastTrip n) s = .next (((u.tripRecord n 2).powerFault n).powerNext n))
  ∧ (∀ (n cause : Nat) (s : State), ∃ e, s.tripRecord n cause = e ∧ (e.slot n).tripCheck = cause ∧ (e.slot n).tripSeen = true
      ∧ (e.blk (456 + 3 * n)).lastSyn = (if blockReserved (456 + 3 * n) then (s.blk (456 + 3 * n)).lastSyn else cause)
      ∧ e.o (K.LAST_CAUSE n) = cause ∧ e.fab = s.fab ∧ e.st = s.st)
  ∧ (∀ (n : SlotIx) (s : State), (s.slot n).tripCheck ≠ 0 → (s.slot n).state = .tripped →
    exec (.tripFailure n) s = .next (s.lockout n 7))
  ∧ (∀ (n : SlotIx) (s : State), (s.slot n).watch = true → (s.slot n).state = .off →
    exec (.passFetWatchFire n) s = .next (s.lockout n 6))
  ∧ (∀ (n : SlotIx) (high : Bool) (s u : State), (s.slot n).state = .on → u = s.updSlot n (fun x => x.gateOff .supplyWait s.now) →
    exec (.supplyOutOfRange n high) s
      = .next (((u.raiseCore (458 + 3 * n) 1 0x14 false (spcOf n)).setO (K.LAST_CAUSE n) (if high then 5 else 4)).powerNext n))
  ∧ (∀ (n : SlotIx) (b : Bool) (s : State), (s.slot n).state ≠ .lockout →
    exec (.feedSwitchover n b) s = .next ((s.updSlot n (fun x => { x with feedA := b, feedB := !b })).incO (K.SWITCHOVERS n)))
  ∧ (∀ (n : SlotIx) (b : Bool) (s u : State), (s.slot n).redLost = false →
    u = s.updSlot n (fun x => { x with redLost := true, feedAGood := b, feedBGood := !b }) →
    exec (.redundancyLost n b) s = .next (u.raiseCore (458 + 3 * n) 1 0x12 false (spcOf n)))
  ∧ (∀ (n : SlotIx) (s u : State), (s.slot n).redLost = true →
    u = s.updSlot n (fun x => { x with redLost := false, feedAGood := true, feedBGood := true }) →
    exec (.redundancyRegained n) s = .next (u.raiseCore (458 + 3 * n) 1 0x13 false (spcOf n)))
  ∧ (∀ (n : SlotIx) (at_ : Nat) (s u : State), (s.slot n).prsntKnown = false → s.slotPort n = none → (s.slot n).autoDue = false →
    u = (s.advance (at_ + s.debounce n)).updSlot n (fun x => { x with prsntKnown := true, prsnt := true }) →
    exec (.presenceChange n ⟨true, at_⟩) s = .next u)

/-- Installing, swapping, confirming, rejecting and discarding images (R531, R532, R533, R535, R546, R528). -/
def Obligations.FirmwareInstalledAndConfirmed : Prop :=
  (∀ (sess : SessRef) (v : Byte) (s u : State) (named : List Nat), s.accepts sess K.FW_INSTALL 1 v.toNat u →
    named = (List.range 8).filterMap (fun i => if bit v.toNat i then some (i + 1) else none) →
    named.all u.stagedFor = true → u.installing = false → named.any u.onProbation = false → u.o K.GEN_STATE = 0 →
    named.contains 8 = false → named.contains 3 = false → named.contains 6 = false → u.chainOk named = true →
    exec (.fwInstall sess v) s
      = .next ((({ u with life := { u.life with toInstall := named, installAt := u.now } } : State).setO K.FW_RESULT 0).installNext.emit .answer sess [0, 0]))
  ∧ (∀ (sess : SessRef) (v : Byte) (s u : State), s.accepts sess K.FW_INSTALL 1 v.toNat u → u.installing = true →
    ((List.range 8).filterMap (fun i => if bit v.toNat i then some (i + 1) else none)).all u.stagedFor = true →
    exec (.fwInstall sess v) s = .next ((u.setO K.FW_RESULT 10).emit .answer sess [0x0504, 10]))
  ∧ (∀ (k : Fin 8) (s u : State), k.val ≠ 0 → k.val ≠ 7 → s.life.swapping = some k.val →
    (k.val ≤ 2 → (List.range 4).any (fun t => s.tileHeld t || !s.seamUp t) = false) →
    u = (s.updPart k (fun p => { p with active := p.other, other := (s.part k).active, staged := false, probEnd := some (s.now + (p.other.getD {}).probationMs * Config.ms) })).swapEnds →
    exec (.partSwapComplete k true) s
      = .next ((((if k.val = 5 then (List.range 24).foldl (fun (s : State) n => s.powerNext n) u.giveRecords else u).setO
          (K.PART_STATE k) 1).setO K.FW_STATE 4).raise 616 0 3 false island))
  ∧ (∀ (s u : State), u = { s with life := { s.life with swapping := none } } →
    s.swapEnds = if s.life.swapping = some 2 then u.tilesBack else u)
  ∧ (∀ (k : Fin 8) (at_ : Nat) (s : State), (s.part k).probEnd = some at_ → s.now < at_ →
    exec (.imageHealthReport k true) s = .next (s.confirmPart k))
  ∧ (∀ (k : Fin 8) (at_ : Nat) (s : State), (s.part k).probEnd = some at_ →
    exec (.imageHealthReport k false) s = .next (s.fallBack k))
  ∧ (∀ (k : Fin 8) (at_ : Nat) (s : State), (s.part k).probEnd = some at_ →
    exec (.probationExpiry k) s = .next ((s.advance at_).fallBack k))
  ∧ (∀ (sess : SessRef) (v : Byte) (k : Nat) (s u : State), s.accepts sess K.FW_REJECT 1 v.toNat u →
    (List.range 9).find? u.onProbation = some k →
    exec (.fwReject sess v) s = .next ((u.fallBack k).emit .answer sess [0, 0]))
  ∧ (∀ (sess : SessRef) (v : Byte) (s u : State), s.accepts sess K.FW_REJECT 1 v.toNat u →
    (List.range 9).find? u.onProbation = none → exec (.fwReject sess v) s = .next (u.emit .answer sess [0x0501, 0]))
  ∧ (∀ (sess : SessRef) (v : Byte) (s u : State), s.accepts sess K.FW_DISCARD 1 v.toNat u → u.installing = true →
    exec (.fwDiscard sess v) s = .next (u.emit .answer sess [0x0501, 0]))
  ∧ (∀ (sess : SessRef) (v : Byte) (s u : State), s.accepts sess K.FW_DISCARD 1 v.toNat u → u.installing = false →
    v.toNat = 0x80 →
    exec (.fwDiscard sess v) s
      = .next (({ u with life := { u.life with rootkey := none } } : State).emit .answer sess [0, 0]))
  ∧ (∀ (sess : SessRef) (a : Fin 8) (v : Byte) (s u : State), s.accepts sess (K.APPLET_REMOVE a) 1 v.toNat u →
    exec (.appletRemove sess a v) s = .next ((u.setApplet a none 0).emit .answer sess [0, 0]))
  ∧ (∀ (k : Nat) (s : State), s.life.swapping = some k → (k = 1 ∨ k = 2) →
    exec .tileSwapDeadline s = .next ((s.advance (s.life.installAt + 10000 * Config.ms)).giveUpStaged k))
  ∧ (∀ (s : State) (k j : Nat), KMap.get 0 s.life.fuses.sv j ≤ KMap.get 0 (s.confirmPart k).life.fuses.sv j
      ∧ ((s.part k).active.getD {}).sv ≤ KMap.get 0 (s.confirmPart k).life.fuses.sv k)

/-- Life-cycle transitions, keys and the TAP (R512, R514, R515, R517, R518, R521, R522, R523, R552, R556). -/
def Obligations.LifeCycleTransitionsMade : Prop :=
  (∀ (sess : SessRef) (s u : State), s.accepts sess K.LC_ADVANCE 1 1 u → u.lcState = 0 → u.role sess = 3 →
    u.life.certHeld = true → u.lcBlocked = 0 → exec (.lcAdvance sess 1) s = .next ((u.lcMove 1).emit .answer sess [0, 0]))
  ∧ (∀ (sess : SessRef) (s u : State), s.accepts sess K.LC_ADVANCE 1 2 u → u.lcState = 1 → u.lcBlocked = 0 →
    exec (.lcAdvance sess 2) s = .next ((u.lcMove 2).emit .answer sess [0, 0]))
  ∧ (∀ (sess : SessRef) (s u : State), s.accepts sess K.LC_ADVANCE 1 2 u → u.lcState ≠ 1 →
    exec (.lcAdvance sess 2) s = .next ((u.setO K.LC_REFUSAL 1).emit .answer sess [0x0501, 1]))
  ∧ (∀ (sess : SessRef) (d : List Byte) (ok : Bool) (s u w : State), s.accepts sess K.LC_TOKEN d.length (leNat d) u →
    (u.lcState = 1 ∨ u.lcState = 2) → u.lcBlocked = 0 →
    ok = (u.tokenOk d [0x4B, 0x48, 0x52, 0x54] u.life.lcChallenge 0 && leAt d 4 1 == 3 && leAt d 5 1 ≠ 0) →
    w = ({ u with life := { u.life with lcChallenge := u.entropyVal } } : State).freeNext →
    exec (.lcToken sess d) s
      = .next (if ok then (w.lcMove 3).emit .answer sess [0, 0] else (w.setO K.LC_REFUSAL 5).emit .answer sess [0x0501, 5]))
  ∧ (∀ (sess : SessRef) (v : Word64) (s u : State), s.accepts sess K.LC_SCRAP 8 v.toNat u → (u.lcState = 1 ∨ u.lcState = 2) →
    u.lcBlocked = 0 → v.toNat = u.life.fuses.serial →
    exec (.lcScrap sess v) s = .next ((u.lcMove 4).emit .answer sess [0, 0]))
  ∧ (∀ (sess : SessRef) (v : Word64) (s u : State), s.accepts sess K.LC_SCRAP 8 v.toNat u → (u.lcState = 1 ∨ u.lcState = 2) →
    u.lcBlocked = 0 → v.toNat ≠ u.life.fuses.serial →
    exec (.lcScrap sess v) s = .next ((u.setO K.LC_REFUSAL 6).emit .answer sess [0x0501, 6]))
  ∧ (∀ (s : State) (n : Nat), (s.lcMove n).life.fuses.lc = lcPattern n)
  ∧ (∀ (sess : SessRef) (v : Byte) (s u : State), s.accepts sess K.VROOT_REVOKE0 1 v.toNat u → u.life.fuses.vroot1.isSome = true →
    exec (.vrootRevoke0 sess v) s
      = .next (({ u with life := { u.life with fuses := { u.life.fuses with revoked0 := true } } } : State).emit .answer sess [0, 0]))
  ∧ (∀ (sess : SessRef) (v : Byte) (s u : State), s.accepts sess K.JTAG_OPEN 1 v.toNat u → u.lcState = 2 →
    exec (.jtagOpen sess v) s
      = .next (({ u with life := { u.life with jtagScan := true } } : State).emit .answer sess [0, 0]))
  ∧ (∀ (sess : SessRef) (v : BitVec 256) (s u : State), s.accepts sess K.CUST_KEY_HASH 32 v.toNat u →
    exec (.custKeyHash sess v) s
      = .next ((({ u with life := { u.life with custKeyOk := true } } : State).setO K.CUST_KEY_HASH v.toNat).regrade.emit .answer sess [0, 0]))
  ∧ (∀ (sess : SessRef) (d : List Byte) (ok : Bool) (s u w : State), s.accepts sess K.AUTH_RESPONSE d.length (leNat d) u →
    ok = (u.tokenOk d [0x4B, 0x48, 0x41, 0x55] (u.session sess).challenge sess
      && ((leAt d 4 1 == 2 && leAt d 5 1 == 0) || (leAt d 4 1 == 3 && (leAt d 5 1 == 1 || leAt d 5 1 == 2) && sidPath sess == 3))
      && u.gainedOk (leAt d 4 1)) →
    w = (u.updSess sess (fun x => { x with challenge := u.entropyVal })).freeNext →
    exec (.authResponse sess d) s
      = .next (if ok then (w.updSess sess (fun x => { x with role := max x.role (leAt d 4 1), gained := true })).emit .answer sess [0, 0]
          else ((w.incO K.AUTH_FAILURES).raiseCore 615 1 2 false island).emit .answer sess [0x0504, 0]))
  ∧ (∀ (i : TapInstr) (pins tdi : BitVec 97) (s u : State), s.tapOpen i = true → s.st.porHeld = false →
    u = { s with life := { s.life with tap := i } } →
    (i = .bypass → exec (.jtagTapAccess ⟨i, pins, tdi⟩) s = .next (u.emit .tap 0 [0]))
    ∧ (i = .idcode → exec (.jtagTapAccess ⟨i, pins, tdi⟩) s = .next (u.emit .tap 0 [idcode]))
    ∧ (i = .sample → exec (.jtagTapAccess ⟨i, pins, tdi⟩) s
        = .next (({ u with life := { u.life with boundary := tdi } } : State).emit .tap 0 [pins.toNat]))
    ∧ (i = .extest → exec (.jtagTapAccess ⟨i, pins, tdi⟩) s
        = .next (((({ u with life := { u.life with boundary := tdi } } : State).emit .tap 1 [s.life.boundary.toNat]).emit
            .tap 0 [pins.toNat]).emit .tap 1 [tdi.toNat])))
  ∧ (∀ (i : TapInstr) (pins tdi : BitVec 97) (s : State), s.tapOpen i = false → exec (.jtagTapAccess ⟨i, pins, tdi⟩) s = .next s)

/-- The device key, its certificate and attestation reports (R538, R539, R541, R542, R545). -/
def Obligations.DeviceKeyAndAttestation : Prop :=
  (∀ (sess : SessRef) (v : Byte) (s u : State), s.accepts sess K.DEVKEY_GEN 1 v.toNat u → u.life.fuses.devPub = none →
    ∃ t, exec (.devkeyGen sess v) s = .next t ∧ t.life.fuses.devPub = some (Config.devPublic u.freeIx).toNat
      ∧ t.life.recA = some { seqNo := 1, t := 0, limit := 32 } ∧ t.life.recB = none ∧ t.life.sigT = 0 ∧ t.life.sigB = 0
      ∧ t.life.sigLimit = 32 ∧ 1 ≤ t.life.fuses.trees ∧ t.freeIx = u.freeIx + 1 ∧ t.od = u.od ∧ t.ev = u.ev)
  ∧ (∀ (sess : SessRef) (v : Byte) (s u : State), s.accepts sess K.DEVKEY_GEN 1 v.toNat u → u.life.fuses.devPub.isSome = true →
    exec (.devkeyGen sess v) s = .next (u.emit .answer sess [0x0501, 0]))
  ∧ (∀ (sess : SessRef) (d : List Byte) (ok : Bool) (s u : State), s.accepts sess K.DEVKEY_CERT d.length (leNat d) u →
    u.role sess = 3 → ok = u.certOk d →
    exec (.devkeyCert sess d) s
      = .next (if ok then ({ u with life := { u.life with cert := leNat d, certHeld := true } } : State).emit .answer sess [0, 0]
          else u.emit .answer sess [0x0504, 0]))
  ∧ (∀ (sess : SessRef) (nonce : BitVec 256) (s u : State), s.accepts sess K.ATTEST_NONCE 32 nonce.toNat u → u.attestOpen = true →
    u.sigReady = true → u.life.lastReport = none → u.life.signing = none →
    exec (.attestNonce sess nonce) s
      = .next ((({ u with life := { u.life with signing := some sess, lastReport := some u.now } } : State).updSess sess
          (fun x => { x with attNonce := nonce.toNat, attState := 1 })).emit .answer sess [0, 0]))
  ∧ (∀ (sess : SessRef) (nonce : BitVec 256) (at_ : Nat) (s u : State), s.accepts sess K.ATTEST_NONCE 32 nonce.toNat u →
    u.attestOpen = true → u.life.lastReport = some at_ → u.now < at_ + 20000 * 1000000000 →
    exec (.attestNonce sess nonce) s = .next (u.emit .answer sess [0x0502, 0]))
  ∧ (∀ (sess : SessRef) (s u : State), s.life.signing = some sess → s.sigReady = true → s.attestOpen = true → s.life.sigB < s.life.sigLimit →
    u = ({ s with life := { s.life with sigB := s.life.sigB + 1, signing := none } } : State).updSess sess (fun x => { x with attState := 2, attReport := s.reportBody (s.session sess).attNonce (32768 * s.life.sigT + s.life.sigB) + 2 ^ 4096 * (Config.hssSign (32768 * s.life.sigT + s.life.sigB) (s.reportBody (s.session sess).attNonce (32768 * s.life.sigT + s.life.sigB))).toNat }) → u.sigExhausted = false →
    exec (.attestReportReady sess) s = .next u)
  ∧ (∀ (sess : SessRef) (s : State), s.life.signing = some sess → (s.sigReady && s.attestOpen) = false →
    exec (.attestReportReady sess) s
      = .next (({ s with life := { s.life with signing := none } } : State).updSess sess (fun x => { x with attState := 3 })))

/-- Reset causes, what each reset leaves, and the release of each domain (R550, R551, R552, R547, R442). -/
def Obligations.ResetsTakenAndReleased : Prop :=
  (∀ (ga : BitVec 6) (s u : State), s.st.porHeld = true →
    u = { s with st := { s.st with porHeld := false }, mg := { s.mg with gaPins := ga.toNat }, tm := { s.tm with ticks := 0 } } →
    exec (.powerOnResetRelease ga) s = .next (((u.incO K.POR_COUNT).setO K.LAST_RESET 1).boot true))
  ∧ (∀ (s : State), s.st.hkHeld = true → exec (.resetRelease .housekeeping) s
      = .next ((({ s.advance (s.st.relAt + 10 * Config.us) with st := { s.st with hkHeld := false, hkPinLow := false } } : State).resumeTimers.boot
          false).reportCause))
  ∧ (∀ (s : State), s.st.hubIn = true → s.mayReleaseHub = true →
    exec (.resetRelease .hub) s = .next (s.advance (s.st.relAt + 10 * Config.us)).hubRelease)
  ∧ (∀ (t : TileIx) (s : State), s.hubHeld = false → KMap.get false s.st.tileHeld t = true → s.o (K.ISOLATE t) ≠ 1 →
    exec (.resetRelease (.tile t)) s = .next ((s.advance (s.tileFree t)).tileRelease t))
  ∧ (∀ (p : PortIx) (s : State), s.tileHeld (tileOf p) = false → s.o (K.LINK_ENABLE p) ≠ 0 →
    exec (.resetRelease (.port p)) s = .next ((s.portFatalEnds p).startTraining p))
  ∧ (∀ (sess : SessRef) (v : Byte) (s u : State), s.accepts sess K.RESET_HK 1 v.toNat u →
    exec (.resetHk sess v) s = .next ((u.emit .answer sess [0, 0]).hkReset 3))
  ∧ (∀ (sess : SessRef) (v : Byte) (s u : State), s.accepts sess K.RESET_HUB 1 v.toNat u → u.o K.WARN_STATE ≠ 2 →
    exec (.resetHub sess v) s = .next ((u.emit .answer sess [0, 0]).hubReset 0x14))
  ∧ (∀ (sess : SessRef) (v : Byte) (s u : State), s.accepts sess K.RESET_HUB 1 v.toNat u → u.o K.WARN_STATE = 2 →
    exec (.resetHub sess v) s = .next (u.emit .answer sess [0x0501, 0]))
  ∧ (∀ (ga : BitVec 6) (s u : State), s.st.porHeld = false →
    u = ({ s with mg := { s.mg with gaPins := ga.toNat } } : State).hkReset 2 →
    exec (.hkRstN ga) s = .next { u with st := { u.st with hkPinLow := true } })
  ∧ (∀ (s : State), s.islandUp = true →
    exec .hkWatchdog s = .next ((s.raiseCore 600 3 2 false island).hkReset 4))
  ∧ (∀ (up : Bool) (s : State), s.islandUp = true → s.mg.svcLinkUp ≠ up →
    exec (.servicePortLinkChange up) s
      = .next (({ s with mg := { s.mg with svcLinkUp := up } } : State).raiseCore 611 0 (if up then 2 else 1) false island))
  ∧ (∀ (s : State) (c : Nat) (b : Bool), (s.hubReset c b).hubHeld = true
      ∧ (b = true → (s.hubReset c b).st.hubCauses.contains c = true))
  ∧ (∀ (s : State) (c : Nat), s.st.porHeld = false → (s.hkReset c).st.hkHeld = true ∧ (s.hkReset c).hubHeld = true
      ∧ (s.hkReset c).islandUp = false ∧ (s.hkReset c).o K.LAST_RESET = c)
  ∧ (∀ (s : State), s.porReset.st.porHeld = true ∧ s.porReset.hubHeld = true
      ∧ s.porReset.islandUp = false ∧ s.porReset.o K.LAST_RESET = 1 ∧ s.porReset.seams = {} ∧ s.porReset.csr = [])
  ∧ (∀ (s : State) (c : Nat), s.st.porHeld = true → s.hkReset c = s ∧ s.hubReset c false = s)
  ∧ (∀ (s : State) (c : Nat), s.st.hkHeld = true → s.hubReset c false = s)

/-- Reference loss and return, the CT load and its edge, sync edges and misses (R29, R168, R169, R170, R172, R173, R174). -/
def Obligations.ChassisTimeLoadedAndSynchronised : Prop :=
  (∀ (s u : State), u = { s with st := { s.st with refPresent := false, holdover := true } } →
    exec .ref100Loss s = .next (if s.hubHeld then u else u.updCtState))
  ∧ (∀ (s u : State), u = { s with st := { s.st with refPresent := true, holdover := false }, tm := { s.tm with refSeen := true } } →
    exec .ref100Return s = .next (if s.hubHeld then u else u.updCtState))
  ∧ (∀ (sess : SessRef) (v : Word64) (s u : State), s.accepts sess K.CT_LOAD 8 v.toNat u →
    exec (.ctLoad sess v) s = .next ((({ u with tm := { u.tm with load := some v.toNat, loadAt := u.now } } : State).setO K.LOAD_PENDING 1).emit .answer sess [0, 0]))
  ∧ (∀ (v : Nat) (s : State), s.tm.load = some v → s.hubHeld = false → s.cycle = 0 → s.loadHeld = false → s.loadAligned = true →
    s.tm.loadAt < s.tm.tickStart → exec .ctLoadEdge s = .next (s.loadEdge v))
  ∧ (∀ (v : Nat) (s : State), s.tm.load = some v → s.loadHeld = true ∨ s.loadAligned = false → exec .ctLoadEdge s = .next s)
  ∧ (∀ (s : State), s.loadAligned = true ↔ s.c K.CT_LOAD_MODE = 1 ∨ s.cB K.SYNC_ENABLE = false
      ∨ (s.tm.synced = true ∧ (s.tm.ticks - s.tm.syncTick) % s.c K.SYNC_PERIOD = 0))
  ∧ (∀ (s : State) (v : Nat), (s.loadEdge v).tm.ctBase = v ∧ (s.loadEdge v).tm.load = none ∧ (s.loadEdge v).tm.loaded = true)
  ∧ (∀ (at_ : Nat) (s u : State), s.hubHeld = false → s.cB K.SYNC_ENABLE = true → s.tm.synced = false → u = s.advance at_ →
    exec (.syncEdge at_) s
      = .next { u with tm := { u.tm with lastEdge := at_, synced := true, tickLen := alignLength (at_ - u.tm.tickStart), lastSync := at_,  syncTick := if at_ - u.tm.tickStart < Config.tickPs then u.tm.ticks else u.tm.ticks + 1, slewLeft := 0 } })
  ∧ (∀ (at_ : Nat) (s u w : State), s.hubHeld = false → s.cB K.SYNC_ENABLE = true → s.tm.synced = true → u = s.advance at_ →
    w = { u with tm := { u.tm with lastEdge := at_ } } → (w.phaseError at_).natAbs ≤ 50000 →
    exec (.syncEdge at_) s
      = .next (((({ (w.setO K.SLEW_OFFSET (toSigned 32 (Int.tdiv (w.phaseError at_) 1000))) with tm := { w.tm with far := [] } } : State).missFar
          w.tm.far).acceptSync at_ (w.phaseError at_)).updCtState))
  ∧ (∀ (at_ : Nat) (s : State), s.cB K.SYNC_ENABLE = false → exec (.syncEdge at_) s = .next s)
  ∧ (∀ (s u : State), s.hubHeld = false → s.cB K.SYNC_ENABLE = true → s.tm.synced = true →
    u = s.advance (s.tm.lastEdge + (s.c K.SYNC_PERIOD + 1) * Config.us) →
    exec .syncMiss s = .next ((({ u with tm := { u.tm with lastEdge := u.now } } : State).incO K.SYNC_MISSES).raiseCore 549 1 2 false hatband))
  ∧ (∀ d : Nat, d / Config.fclk < 1600 → alignLength d = 1600 + d / Config.fclk)
  ∧ (∀ d : Nat, 1600 ≤ d / Config.fclk → alignLength d = min (d / Config.fclk) 3199)

/-- Trigger-line edges, messages and scheduled outputs (R175, R178, R179, R180, R181, R182). -/
def Obligations.LinesStampedAndPulsesScheduled : Prop :=
  (∀ (n : LineIx) (l : Bool) (t w : Nat) (s u : State), s.hubHeld = false → u = s.advance t → w < u.c (K.IN_FILTER n) * 1000 →
    exec (.trigEdge n l t w) s = .next (u.addO (K.MERGED_COUNT n) 2))
  ∧ (∀ (n : LineIx) (l : Bool) (t w h : Nat) (s u : State), s.hubHeld = false → u = s.advance t → u.c (K.IN_FILTER n) * 1000 ≤ w →
    (u.line n).holdEnd = some h → t < h → exec (.trigEdge n l t w) s = .next (u.incO (K.MERGED_COUNT n)))
  ∧ (∀ (n : LineIx) (l : Bool) (t w : Nat) (s u : State), s.hubHeld = false → u = s.advance t → u.c (K.IN_FILTER n) * 1000 ≤ w →
    (u.line n).holdEnd = none → (u.line n).level = !l → exec (.trigEdge n l t w) s = .next (u.stampEdge n l t))
  ∧ (∀ (n : LineIx) (l : Bool) (t w : Nat) (s : State), s.hubHeld = true →
    exec (.trigEdge n l t w) s = .next (s.updLine n (fun x => { x with level := l })))
  ∧ (∀ (n : LineIx) (l : Bool) (h : Nat) (s u : State), (s.line n).holdEnd = some h → s.hubHeld = false →
    u = (s.advance h).updLine n (fun x => { x with holdEnd := none }) →
    exec (.holdoffEnd n l) s = .next (if (u.line n).level == l then u else u.stampEdge n l h))
  ∧ (∀ (s u : State), s.tm.win ≠ [] → s.hubHeld = false → u = s.advance (s.tm.winAt + 6 * Config.fclk) → u.tm.waiting.length < 64 →
    exec .triggerMessageBuild s
      = .next (({ u with tm := { u.tm with win := [], msgSeq := (u.tm.msgSeq + 1) % 2 ^ 32 } } : State).broadcast { code := 1, payload := triggerPayload u.tm.win u.tm.msgSeq }))
  ∧ (∀ (s : State), s.tm.timeDue ≠ 0 → s.hubHeld = false → (s.cB K.SYNC_ENABLE = false ∨ s.onSyncEdge = true) → s.tm.waiting.length < 64 →
    exec .timeMessageSend s
      = .next (({ s with tm := { s.tm with timeDue := s.tm.timeDue - 1, timeWas := s.tm.timeWas - 1, timeSeq := (s.tm.timeSeq + 1) % 2 ^ 32 } } : State).broadcast
          { code := 2, payload := s.tm.ctBase + s.ctState * 2 ^ 64 + s.tm.timeSeq * 2 ^ 96 }))
  ∧ (∀ (s : State), s.tm.timeDue ≠ 0 → s.hubHeld = false → (s.cB K.SYNC_ENABLE = false ∨ s.onSyncEdge = true) → 64 ≤ s.tm.waiting.length →
    exec .timeMessageSend s = .next (({ s with tm := { s.tm with timeDue := s.tm.timeDue - 1, timeWas := s.tm.timeWas - 1 } } : State).incO K.TIME_MSG_SKIPPED))
  ∧ (∀ (sess : SessRef) (n : LineIx) (v : Word64) (s u : State), s.accepts sess (K.OUT_AT n) 8 v.toNat u → u.c (K.LINE_DIR n) ≠ 0 →
    (u.line n).pulses.length < 8 → u.ct + 2000 ≤ v.toNat → (∀ r, lastRelease (u.line n).pulses = some r → r + 8 ≤ v.toNat) →
    exec (.outAt sess n v) s
      = .next ((u.setPulses n ((u.line n).pulses ++ [{ at_ := v.toNat, width := u.c (K.OUT_WIDTH n) }])).emit .answer sess [0, 0]))
  ∧ (∀ (sess : SessRef) (n : LineIx) (v : Word64) (s u : State), s.accepts sess (K.OUT_AT n) 8 v.toNat u → u.c (K.LINE_DIR n) ≠ 0 →
    (u.line n).pulses.length < 8 → v.toNat < u.ct + 2000 →
    exec (.outAt sess n v) s = .next ((u.incO (K.OUT_LATE n)).emit .answer sess [0x0504, 0]))
  ∧ (∀ (sess : SessRef) (n : LineIx) (v : Word64) (s u : State), s.accepts sess (K.OUT_AT n) 8 v.toNat u → u.c (K.LINE_DIR n) = 0 →
    exec (.outAt sess n v) s = .next (u.emit .answer sess [0x0504, 0]))
  ∧ (∀ (sess : SessRef) (n : LineIx) (v : Byte) (s u : State), s.accepts sess (K.OUT_CANCEL n) 1 v.toNat u →
    exec (.outCancel sess n v) s = .next ((u.setPulses n ((u.line n).pulses.filter (·.begun))).emit .answer sess [0, 0]))
  ∧ (∀ (n : LineIx) (p : Pulse) (ps : List Pulse) (s u : State), (s.line n).pulses = p :: ps → p.begun = false → s.hubHeld = false →
    u = (s.advance (s.psOf p.at_)).setPulses n ({ p with begun := true } :: ps) →
    exec (.pulseAssert n) s = .next (if u.c (K.LINE_DIR n) == 0 then u else u.edge n true u.now (p.width * 1000)))
  ∧ (∀ (n : LineIx) (p : Pulse) (ps : List Pulse) (s u : State), (s.line n).pulses = p :: ps → p.begun = true → s.hubHeld = false →
    u = (s.advance (s.psOf (p.at_ + p.width))).setPulses n ps → n.val < 16 →
    exec (.pulseRelease n) s = .next u)
  ∧ (∀ (n : LineIx) (p : Pulse) (s u : State), (s.line n).pulses = [p] → p.begun = true → s.hubHeld = false →
    u = (s.advance (s.psOf (p.at_ + p.width))).setPulses n [] → 16 ≤ n.val → u.c (K.LINE_DIR n) ≠ 0 →
    exec (.pulseRelease n) s = .next (u.edge n false u.now Config.ms))

/-- Cell forwarding, matching, fulling and the change of plank mode (R41, R42, R52, R56, R57, R58, R59, R61, R62, R213). -/
def Obligations.PlankMovesCellsAndModes : Prop :=
  (∀ (i : PortIx) (q : Nat) (s w u : State), s.tileHeld (tileOf i) = false →
    w = s.pushCrown i (KMap.get [] s.pl.toCrown i.val).length →
    firstFrom 96 (KMap.get 0 w.pl.fwdPtr (i.val * 4)) (w.forwardableSys i) = some q → u = w.forwardVoq i q .sys →
    exec (.tileForwardToLanding i) s
      = .next { u with pl := { u.pl with fwdPtr := KMap.set 0 u.pl.fwdPtr (i.val * 4) ((q + 1) % 96) } })
  ∧ (∀ (i : PortIx) (n : Nat) (s w u : State), s.tileHeld (tileOf i) = false →
    w = s.pushCrown i (KMap.get [] s.pl.toCrown i.val).length → w.forwardableSys i = [] →
    firstFrom 288 (KMap.get 0 w.pl.fwdPtr (i.val * 4 + 1)) (w.forwardable i) = some n →
    u = w.forwardVoq i (n / 3) (clsOf (n % 3 + 1)) →
    exec (.tileForwardToLanding i) s
      = .next { u with pl := { u.pl with fwdPtr := KMap.set 0 u.pl.fwdPtr (i.val * 4 + 1) ((n + 1) % 288) } })
  ∧ (∀ (s : State), s.o K.PLANK_MODE = 1 → s.hubHeld = false → (s.injFire 528 1).1 = 0 →
    (s.injFire 528 1).2.matching.1.any (conflicts (s.injFire 528 1).2.matching.1) = false →
    exec (.cardingMatchSlot []) s
      = .next ((s.injFire 528 1).2.matching.1.foldl State.crossPlank (s.injFire 528 1).2.matching.2))
  ∧ (∀ (s u : State) (l : List (PortIx × PortIx × Cls)) (m : List Xfer), s.o K.PLANK_MODE = 1 → s.hubHeld = false →
    (s.injFire 528 1).1 = 0 →
    m = (s.injFire 528 1).2.matching.1 ++ l.map (fun e => { i := e.1.val, o := e.2.1.val, cls := e.2.2 }) →
    m.any (conflicts m) = true →
    u = (m.filter (fun x => !conflicts m x)).foldl State.crossPlank (s.injFire 528 1).2.matching.2 →
    exec (.cardingMatchSlot l) s = .next u.conflictFires)
  ∧ (∀ (s : State), s.o K.PLANK_MODE = 0 → s.hubHeld = false → exec .fullingStage1 s = .next ((List.range 96).foldl State.stage1 s))
  ∧ (∀ (s u : State), s.o K.PLANK_MODE ≠ 1 → s.hubHeld = false → u = (List.range 96).foldl State.stage2 s →
    exec .fullingStage2 s = .next { u with pl := { u.pl with pair := (u.pl.pair + 1) % 96 } })
  ∧ (∀ (s : State), s.hubHeld = false → s.o K.PLANK_MODE = 0 → s.seamsOk = true → s.o K.MATCH_SELFTEST = 2 → s.cB K.FORCE_FULLING = false →
    exec .startDrainToCarding s = .next (s.setO K.PLANK_MODE 2))
  ∧ (∀ (s : State), s.hubHeld = false → s.o K.PLANK_MODE = 2 → s.pl.full = [] → s.o K.START_PHASE ≠ 3 →
    exec .cardingStart s = .next (s.setO K.PLANK_MODE 1).updCoreReady.updPortsReady)
  ∧ (∀ (s : State), s.pl.full ≠ [] → exec .cardingStart s = .next s)
  ∧ (∀ (s : State), s.hubHeld = false → s.o K.MATCH_SELFTEST = 1 → exec (.matcherSelftestDone true) s = .next (s.setO K.MATCH_SELFTEST 2))
  ∧ (∀ (s : State), s.hubHeld = false → s.o K.MATCH_SELFTEST = 1 →
    exec (.matcherSelftestDone false) s = .next ((s.setO K.MATCH_SELFTEST 3).raiseCore 528 2 8 false { master := 0x80 }))
  ∧ (∀ (p : PortIx) (o : Nat) (m : MergeCell) (l : List MergeCell) (s : State), s.hubHeld = false → s.outputWithRoom p .sys = some o →
    KMap.get [] s.pl.merge (p.val * 4 + clsNum .sys) = m :: l →
    exec (.agentMergeAdmit p .sys) s = .next (s.admitAgent p o .sys m.flow m.cell))
  ∧ (∀ (p : PortIx) (cls : Cls) (o f : Nat) (m : MergeCell) (s : State), s.hubHeld = false → cls ≠ .sys → s.outputWithRoom p cls = some o →
    s.nextFlow p cls (fun f => !plankFlow f) = some f →
    (KMap.get [] s.pl.merge (p.val * 4 + clsNum cls)).find? (·.flow == f) = some m →
    exec (.agentMergeAdmit p cls) s = .next (s.admitAgent p o cls f m.cell))
  ∧ (∀ (p : PortIx) (e : Nat × BSlot) (s u : State), s.hubHeld = false → s.linkUp p = true → u = s.freshTokens → u.nextBcast p = some e →
    exec (.egressClassPick p) s = .next (u.sendSlot p e))
  ∧ (∀ (p : PortIx) (o : Nat) (s u : State), s.hubHeld = false → s.linkUp p = true → u = s.freshTokens → u.nextBcast p = none → u.outputToPick p .sys = some o →
    exec (.egressClassPick p) s = .next (u.dequeue p o .sys))
  ∧ (∀ (p : PortIx) (o : Nat) (cls : Cls) (s u : State), s.hubHeld = false → s.linkUp p = true → u = s.freshTokens → u.nextBcast p = none →
    u.outputToPick p .sys = none → u.pickClass p = some cls → u.outputToPick p cls = some o →
    exec (.egressClassPick p) s = .next ((u.dequeue p o cls).afterPick p cls))
  ∧ (∀ (s : State) (i p : PortIx) (cls : Cls) (b : Bool) (l : List (PortIx × PortIx × Cls)), s.hubHeld = true →
    ∀ c ∈ [Instr.tileForwardToLanding i, .cardingMatchSlot l, .fullingStage1, .fullingStage2, .startDrainToCarding, .cardingStart,
      .matcherSelftestDone b, .agentMergeAdmit p cls, .egressClassPick p], exec c s = .next s)

/-- Guard publication, sync, slice regions, colour tags and core regions (R381, R382, R383, R392, R394, R396, R402). -/
def Obligations.GuardsPublishedSyncedAndTagged : Prop :=
  (∀ (sess : SessRef) (v : Byte) (s u : State), s.accepts sess K.GUARD_PUBLISH 1 v.toNat u → u.gd.sliceAt = none → u.epochFree = true →
    exec (.guardPublish sess v) s
      = .next (((({ u with gd := { u.gd with sliceAt := some u.tm.ticks } } : State).setO K.PUBLISH_STATE 1).setO K.PUBLISH_REFUSAL 0).emit .answer sess [0, 0]))
  ∧ (∀ (sess : SessRef) (v : Byte) (s u : State), s.accepts sess K.GUARD_PUBLISH 1 v.toNat u → u.gd.sliceAt.isSome = true →
    exec (.guardPublish sess v) s = .next (u.emit .answer sess [0, 0]))
  ∧ (∀ (sess : SessRef) (v : Byte) (s u : State), s.accepts sess K.GUARD_PUBLISH 1 v.toNat u → u.gd.sliceAt = none → u.epochFree = false →
    exec (.guardPublish sess v) s = .next ((u.setO K.PUBLISH_REFUSAL 1).emit .answer sess [0x0502, 1]))
  ∧ (∀ (sess : SessRef) (v : Byte) (s u : State), s.accepts sess K.GUARD_SYNC 1 v.toNat u →
    exec (.guardSync sess v) s
      = .next (((({ u with gd := { u.gd with syncAt := some u.now } } : State).setO K.SYNC_STATE 1).setO K.SYNC_EPOCH u.gd.epoch).emit .answer sess [0, 0]))
  ∧ (∀ (s : State), s.o K.SYNC_STATE = 1 → s.syncHolds = true →
    exec .guardSyncDone s = .next (({ s with gd := { s.gd with syncAt := none } } : State).setO K.SYNC_STATE 2))
  ∧ (∀ (s : State), s.syncHolds = false → exec .guardSyncDone s = .next s)
  ∧ (∀ (t : Nat) (s u : State), s.gd.syncAt = some t → s.o K.SYNC_STATE = 1 → u = s.advance (t + s.c K.SYNC_TIMEOUT * Config.us) →
    exec .guardSyncTimeout s = .next ((({ u with gd := { u.gd with syncAt := none } } : State).setO K.SYNC_STATE 3).raiseCore 586 1 1))
  ∧ (∀ (sess : SessRef) (c : BitVec 192) (s u : State), s.accepts sess K.SLICE_RGN_CMD 24 c.toNat u → bits c.toNat 15 11 = 0 →
    bits c.toNat 63 20 = 0 → (u.slice (bits c.toNat 10 0)).state ≠ .free → u.gd.sliceAt = none → regionOk false (c.toNat / 2 ^ 64) = true →
    exec (.sliceRgnCmd sess c) s
      = .next (((u.setO K.RGN_RESULT 0).updSlice (bits c.toNat 10 0) (fun x => { x with staged := KMap.set 0 x.staged (bits c.toNat 19 16) (c.toNat / 2 ^ 64) })).emit .answer sess [0, 0]))
  ∧ (∀ (sess : SessRef) (c : BitVec 192) (s u : State), s.accepts sess K.SLICE_RGN_CMD 24 c.toNat u →
    (bits c.toNat 15 11 ≠ 0 ∨ bits c.toNat 63 20 ≠ 0) →
    exec (.sliceRgnCmd sess c) s = .next ((u.setO K.RGN_RESULT 1).emit .answer sess [0x0504, 1]))
  ∧ (∀ (sess : SessRef) (c : BitVec 192) (s u : State), s.accepts sess K.SLICE_RGN_CMD 24 c.toNat u → bits c.toNat 15 11 = 0 →
    bits c.toNat 63 20 = 0 → (u.slice (bits c.toNat 10 0)).state = .free →
    exec (.sliceRgnCmd sess c) s = .next ((u.setO K.RGN_RESULT 2).emit .answer sess [0x0504, 2]))
  ∧ (∀ (sess : SessRef) (c : BitVec 128) (s u w : State), s.accepts sess K.TAG_CMD 16 c.toNat u → u.tagRefusal c.toNat = 0 →
    w = (u.setO K.TAG_RESULT 0).setO K.TAG_CMD_TAG (bits c.toNat 127 112) →
    exec (.tagCmd sess c) s
      = .next ((({ w with gd := { w.gd with tagCmd := some c.toNat } } : State).setO K.TAG_CMD_STATE 1).emit .answer sess [0, 0]))
  ∧ (∀ (sess : SessRef) (c : BitVec 128) (s u : State), s.accepts sess K.TAG_CMD 16 c.toNat u → u.tagRefusal c.toNat ≠ 0 →
    exec (.tagCmd sess c) s
      = .next ((u.setO K.TAG_RESULT (u.tagRefusal c.toNat)).emit .answer sess [if u.tagRefusal c.toNat == 6 then 0x0502 else 0x0504, u.tagRefusal c.toNat]))
  ∧ (∀ (v : Nat) (s u : State), s.gd.tagCmd = some v → s.gd.tagAt = none →
    u = (s.tagPlaces v).foldl (fun (x : State) e =>
        (List.range (bits v 58 32)).foldl (fun (x : State) i => x.setTagLater e.1 (e.2 + i) (bits v 19 16)) x) s →
    exec .tagCmdWritten s = .next { u with gd := { u.gd with tagAt := some u.tm.ticks } })
  ∧ (∀ (m : TargetIx) (s : State), s.o (K.TAG_STATE m) = 1 →
    exec (.tagFillComplete m) s
      = .next (({ s with gd := { s.gd with filling := KMap.set false s.gd.filling m false } } : State).setO (K.TAG_STATE m) 2))
  ∧ (∀ (c : CoreIx) (k : Fin 16) (v : Word32) (s : State), s.csrOpen (.core c) 4 = true → (s.coreAt c).sup = true →
    exec (.coreRegionBaseHi (.core c) c k v) s = .next (s.coreRegionLoad c k v.toNat))
  ∧ (∀ (d c : CoreIx) (k : Fin 16) (v : Word32) (s : State), s.csrOpen (.core d) 4 = true → (s.coreAt c).sup = false →
    exec (.coreRegionBaseHi (.core d) c k v) s
      = .next (s.raiseCore (568 + c) 1 1 false { master := csrMaster (.core d), access := 0x0C }))
  ∧ (∀ (s : State) (c k hi r : Nat), r = s.coreWord c k 0 + s.coreWord c k 1 * 2 ^ 32 + s.coreWord c k 2 * 2 ^ 64 + hi % 2 ^ 32 * 2 ^ 96 →
    regionOk true r = true → (s.coreRegionLoad c k hi).coreRegion c k = r)

/-- Doorbells, ends and timeouts of fences, capture rings, and HDM decoders (R133, R136, R141, R189, R190, R241, R366, R368). -/
def Obligations.FencesAndRingsServed : Prop :=
  (∀ (id : Nat) (f : Fence) (s : State), s.fence? id = some f → f.kind ≠ .barSys → s.fenceDone f = true →
    exec (.fenceEnd id) s = .next (s.endFence id f (if f.error then 1 else 0)))
  ∧ (∀ (id : Nat) (f : Fence) (s : State), s.fence? id = some f → f.waits ≠ [] → exec (.fenceEnd id) s = .next s)
  ∧ (∀ (id d : Nat) (f : Fence) (s : State), s.fence? id = some f → f.deadline = some d → f.kind ≠ .barSys → f.ended = false →
    (f.kind = .trigger → f.ctTrig.isSome = true) → s.fenceDone f = false →
    exec (.fenceTimeout id) s = .next (((s.advance d).endFence id f 2).raiseCore 550 1 1))
  ∧ (∀ (id d : Nat) (f : Fence) (s : State), s.fence? id = some f → f.deadline = some d → f.kind ≠ .barSys →
    (f.kind = .trigger → f.ctTrig.isSome = true) → s.fenceDone f = true →
    exec (.fenceTimeout id) s = .next (s.endFence id f (if f.error then 1 else 0)))
  ∧ (∀ (id d : Nat) (f : Fence) (s : State), s.fence? id = some f → f.deadline = some d → f.kind = .trigger → f.ended = false →
    f.ctTrig = none → exec (.tfenceWaitExpiry id) s = .next ((s.advance d).endFence id { f with error := false } 5))
  ∧ (∀ (p : PortIx) (rid : BitVec 16) (off : BitVec 12) (w : BitVec 128) (n v : Nat) (s : State), s.linkUp (s.lead p) = true →
    s.vcsOf (s.lead p) = some (n, v) → s.cB (K.FENCE_ENABLE n) = true → off.toNat % 16 = 0 → bits w.toNat 63 0 % 16 = 0 →
    exec (.fenceDoorbell p rid off 16 w) s
      = .next (s.ring (s.doorbellAgent (s.lead p) rid.toNat n) (s.lead p) rid.toNat w.toNat []))
  ∧ (∀ (p : PortIx) (rid : BitVec 16) (off : BitVec 12) (k : Nat) (w : BitVec 128) (n v : Nat) (s : State), s.linkUp (s.lead p) = true →
    s.vcsOf (s.lead p) = some (n, v) → s.cB (K.FENCE_ENABLE n) = true → (k ≠ 16 ∨ off.toNat % 16 ≠ 0) →
    exec (.fenceDoorbell p rid off k w) s
      = .next ((s.incO K.DOORBELLS_DISCARDED).raiseCore (4 * s.lead p + 2) 1 0x21 false { master := s.lead p, access := 2 }))
  ∧ (∀ (p : PortIx) (rid : BitVec 16) (addr : Word64) (data : List Byte) (n v : Nat) (e : Nat × Slice) (s : State), s.hubHeld = false →
    s.linkUp (s.lead p) = true → s.vcsOf (s.lead p) = some (n, v) →
    (s.ringsOf n).find? (fun e => inRange e.2.feedRange addr.toNat) = some e →
    exec (.captureFeedWrite p rid addr data) s = .next (s.feedWrite (s.lead p) rid.toNat e.1 addr.toNat (data.map (·.toNat))))
  ∧ (∀ (sl : SliceIx) (r : Ring) (s : State), (s.slice sl).ring = some r → r.flushUs ≠ 0 → r.data ≠ [] → s.hubHeld = false →
    exec (.ringFlushTimeout sl) s = .next ((s.advance (r.firstAt + r.flushUs * Config.us)).closeBlock sl false false))
  ∧ (∀ (id p : Nat) (f : Fence) (s u w : State), s.fence? id = some f → f.point = some p → f.kind = .trigger → f.ended = false →
    f.pointDone = false → s.hubHeld = false → u = s.advance (s.psOf p) →
    w = { u with ord := { u.ord with fence := KMap.set none u.ord.fence id (some { f with pointDone := true }) } } →
    exec (.triggerFencePoint id) s
      = .next ((w.mv.slice.filter (fun e => match e.2.ring with
          | some r => (w.participant f.pset r.port || w.participant f.pset (engineMaster e.2.engine)) && r.marks.any (fun m => decide (m.ct < p))
          | none => false)).foldl (fun (x : State) e => x.closeBlock e.1 true false) w))
  ∧ (∀ (h : HostIx) (ix : Fin 49) (set : HdmSettings) (ok clash : Bool) (s u : State), s.isVcsUp h = true →
    ((s.hdm h ix).committed && (s.hdm h ix).set.lock) = false →
    clash = (decide (ix.val < 32) && (rangesMeet (set.base, set.size) (s.fenceRange h)
      || (s.ringsOf h).any (fun e => rangesMeet (set.base, set.size) e.2.feedRange))) →
    ok = (hdmFits set ix && s.commitOrder h ix set.base set.size && s.hdmHolds h ix set && !clash) →
    u = { s with fab := { s.fab with hdm := KMap.set {} s.fab.hdm (h.val * 64 + ix.val) (if ok then { set := set, committed := true, err := false } else { s.hdm h ix with committed := false, err := true }) } } →
    exec (.hdmDecoderCommit h ix set) s
      = .next (if ix.val < 32 then u.setO (K.DEC_COMMITTED h) (setBit (u.o (K.DEC_COMMITTED h)) ix ok) else u))

/-- Loads, stores, barriers, reservations and exceptions of the service cores (R147, R148, R149, R150, R151, R155, R157, R160). -/
def Obligations.ServiceCoreAccessesPerformed : Prop :=
  (∀ (c : CoreIx) (a : Word64) (n : Fin 9) (x : Nat) (s u w : State), u = s.settleBar c → n.val ≠ 0 → u.coreRuns c = true →
    u.coreCheck c { read := true } a.toNat n = none → coreSpace a.toNat = .sram x → w = u.coreEcc c a.toNat true → w.hubHeld = false →
    exec (.coreMemoryAccess c .load a n) s
      = .next ((w.performOverlap c a.toNat n).setRd c (Memory.read ((w.performOverlap c a.toNat n).coreSram c) a.toNat n)))
  ∧ (∀ (c : CoreIx) (a : Word64) (n : Fin 9) (x : Nat) (s u w : State), u = s.settleBar c → n.val ≠ 0 → u.coreRuns c = true →
    u.coreCheck c { read := true } a.toNat n = none → coreSpace a.toNat = .sram x → w = u.coreEcc c a.toNat true → w.hubHeld = false →
    (w.coreAt c).loads < 16 →
    exec (.coreMemoryAccess c .loadLate a n) s
      = .next ((w.performOverlap c a.toNat n).updCore c (fun x => { x with loads := x.loads + 1, late := x.late ++ [(a.toNat, n.val)] })))
  ∧ (∀ (c : CoreIx) (a : Word64) (n : Fin 9) (x k : Nat) (l : List (Nat × Nat)) (s u : State), u = s.settleBar c →
    (u.coreAt c).late = (x, k) :: l →
    exec (.coreMemoryAccess c .perform a n) s
      = .next (u.updCore c (fun y => { y with late := l, loads := y.loads - 1, rd := Memory.read (u.coreSram c) x k })))
  ∧ (∀ (c : CoreIx) (a : Word64) (n : Fin 9) (s u w : State), u = s.settleBar c → n.val ≠ 0 → u.coreRuns c = true →
    u.coreCheck c { read := true } a.toNat n = none → (∃ i o, coreSpace a.toNat = .window i o) → w = u.coreEcc c a.toNat true →
    w.hubHeld = false → exec (.coreMemoryAccess c .load a n) s = .next (w.fabricLoad c a.toNat n 0))
  ∧ (∀ (c : CoreIx) (a v : Word64) (n : Fin 9) (x : Nat) (s u w : State), u = s.settleBar c → n.val ≠ 0 → u.coreRuns c = true →
    u.coreCheck c { write := true } a.toNat n = none → coreSpace a.toNat = .sram x → w = u.coreEcc c a.toNat false → w.hubHeld = false →
    exec (.coreMemoryAccess c (.store v) a n) s = .next ((w.performOverlap c a.toNat n).coreStore c a.toNat n v.toNat false))
  ∧ (∀ (c : CoreIx) (a : Word64) (n : Fin 9) (g : GFault) (s u : State), u = s.settleBar c → n.val ≠ 0 → u.coreRuns c = true →
    u.coreCheck c { read := true } a.toNat n = some g →
    exec (.coreMemoryAccess c .load a n) s = .next (u.coreFault c { read := true } a.toNat g))
  ∧ (∀ (c : CoreIx) (ix : Fin 32) (b : BufStore) (s u : State), (s.coreAt c).buf[ix.val]? = some b → s.hubHeld = false →
    ((s.coreAt c).buf.take ix.val).any (·.hits b.addr b.bytes) = false → b.fabric = false →
    u = s.updCore c (fun x => { x with buf := x.buf.filter (·.id ≠ b.id) }) →
    exec (.storeBufferRelease c ix) s
      = .next ((({ u with ord := { u.ord with sram := Memory.write u.ord.sram b.addr b.bytes b.data } } : State).dropCluster
          (b.addr / 64) c).dropCluster ((b.addr + b.bytes - 1) / 64) c))
  ∧ (∀ (c : CoreIx) (a v : Word64) (s u : State), u = s.settleBar c → u.coreRuns c = true → a.toNat % 8 ≠ 0 →
    exec (.ldres c a true) s = .next (u.coreException c causeAlign) ∧ exec (.stcond c a true v) s = .next (u.coreException c causeAlign))
  ∧ (∀ (c : CoreIx) (a : Word64) (s u w : State), u = s.settleBar c → u.coreRuns c = true → a.toNat % 8 = 0 →
    u.coreCheck c { read := true } a.toNat 8 = none → w = u.coreEcc c a.toNat true → w.hubHeld = false →
    exec (.ldres c a true) s = .next (w.loadReserve c a.toNat 8))
  ∧ (∀ (c : CoreIx) (a v : Word64) (x : Nat) (s u w t : State), u = s.settleBar c → u.coreRuns c = true → a.toNat % 8 = 0 →
    u.coreCheck c { read := true, write := true } a.toNat 8 = none → coreSpace a.toNat = .sram x → w = u.coreEcc c a.toNat false →
    w.hubHeld = false → w.holdsGranule c a.toNat = true → t = ((((w.clearResv c).performOverlap c a.toNat 8).drainOverlap c a.toNat 8).setRd c 0) →
    exec (.stcond c a true v) s
      = .next (({ t with ord := { t.ord with sram := Memory.write t.ord.sram a.toNat 8 v.toNat } } : State).dropCluster (a.toNat / 64) c))
  ∧ (∀ (c : CoreIx) (a v : Word64) (x : Nat) (s u w : State), u = s.settleBar c → u.coreRuns c = true → a.toNat % 8 = 0 →
    u.coreCheck c { read := true, write := true } a.toNat 8 = none → coreSpace a.toNat = .sram x → w = u.coreEcc c a.toNat false →
    w.hubHeld = false → w.holdsGranule c a.toNat = false →
    exec (.stcond c a true v) s = .next ((w.clearResv c).setRd c 1))
  ∧ (∀ (c : CoreIx) (s u : State), u = s.settleBar c → u.coreRuns c = true →
    exec (.barCore c) s = .next (((u.performLoads c).updCore c (fun x => { x with bar := 1 })).settleBar c)
      ∧ exec (.barClu c) s = .next (((u.performLoads c).updCore c (fun x => { x with bar := 2 })).settleBar c))
  ∧ (∀ (c : CoreIx) (s u w : State), u = s.settleBar c → u.coreRuns c = true → w = (u.performLoads c).updCore c (fun x => { x with bar := 3 }) →
    exec (.barSys c) s
      = .next (({ w with ord := { w.ord with nextFence := w.ord.nextFence + 1, fence := KMap.set none w.ord.fence w.ord.nextFence (some { kind := .barSys, agent := agentCore c, deadline := some (w.now + w.c K.FENCE_TIMEOUT * Config.us), waits := w.txnsWhere (fun t => t.write && t.agent == agentCore c && t.purpose = .core) }) } } : State).settleBar c))
  ∧ (∀ (c : CoreIx) (e : Nat × Fence) (s u w : State), u = s.settleBar c → u.barFence c = some e →
    w = (u.advance (e.2.deadline.getD u.now)).endBar c →
    exec (.barSysTimeout c) s
      = .next ((w.updCore c (fun x => { x with barTimeout := true, barAt := w.now })).raiseCore
          (568 + c.val) 1 3 false { master := 0x70 + c.val }))
  ∧ (∀ (c : CoreIx) (s : State), s.hubHeld = false →
    exec (.coreException c) s = .next (((s.performLoads c).clearResv c).updCore c (fun x => { x with except := 0, sup := true })))
  ∧ (∀ (s : State) (c cause : Nat), ((s.coreException c cause).coreAt c).resv = none ∧ ((s.coreException c cause).coreAt c).sup = true)
  ∧ (∀ (m : List Host.Cell) (a n v : Nat), Memory.read (Memory.write m a n v) a n = v % 256 ^ n)
  ∧ (∀ (m : List Host.Cell) (a n v b : Nat), b < a ∨ a + n ≤ b → Memory.byte (Memory.write m a n v) b = Memory.byte m b)

/-- Crown requests, snoop responses, brim commands and target answers (R91, R94, R95, R96, R102, R103, R104, R105, R107, R108). -/
def Obligations.CrownQueuesSnoopsAndBrims : Prop :=
  (∀ (s : State) (r : CrownReq), s.takeable r = true ↔ (r.entry.op = .wr ∧ r.entry.who < 64 ∧ s.snooping r.w r.line r.entry.who = true)
    ∨ (s.trackerFree r.entry = true ∧ s.behindMarker r = false))
  ∧ (∀ (src : Fin 5) (r r' : CrownReq) (s u : State), (KMap.get [] s.cr.inbound src).find? s.takeable = some r → s.hubHeld = false →
    (r.entry.op ≠ .wr ∨ 64 ≤ r.entry.who ∨ s.snooping r.w r.line r.entry.who = false) →
    u = (s.takeInbound src r).track r.entry true → r' = { r with entry := { r.entry with at_ := u.now, src := src.val } } →
    ((u.lineQ r.w r.line).any (fun e => e.who == r.entry.who) = false → exec (.crownRequestArrive src) s = .next (u.joinQueue r.w r.line r'.entry))
    ∧ ((u.lineQ r.w r.line).any (fun e => e.who == r.entry.who) = true → exec (.crownRequestArrive src) s
        = .next { u with cr := { u.cr with heldUp := u.cr.heldUp ++ [r'] } }))
  ∧ (∀ (src : Fin 5) (r : CrownReq) (e : LineEntry) (l : List LineEntry) (s u : State), (KMap.get [] s.cr.inbound src).find? s.takeable = some r →
    s.hubHeld = false → r.entry.op = .wr → r.entry.who < 64 → s.snooping r.w r.line r.entry.who = true → u = s.takeInbound src r →
    u.lineQ r.w r.line = e :: l →
    exec (.crownRequestArrive src) s
      = .next ((u.setHead r.w r.line { e with wbs := e.wbs ++ [{ txn := r.entry.tag, data := r.entry.data, mask := r.entry.mask, partial_ := r.entry.partial_, ct := r.entry.ct }] }).crownRun r.w r.line crownFuel))
  ∧ (∀ (src : Fin 5) (s : State), (KMap.get [] s.cr.inbound src).find? s.takeable = none ∨ s.hubHeld = true →
    exec (.crownRequestArrive src) s = .next s)
  ∧ (∀ (w : WinIx) (line : BitVec 36) (s : State),
    (s.hubHeld = false → exec (.crownEntryServe w line) s
      = .next ((((List.range 4).foldl (fun (s : State) t => s.pumpBrim t) s).sendLateAcks).crownRun w line.toNat crownFuel))
    ∧ (s.hubHeld = true → exec (.crownEntryServe w line) s = .next s))
  ∧ (∀ (h : HostIx) (w : WinIx) (line : BitVec 36) (rsp : BiRsp) (e : LineEntry) (l : List LineEntry) (q : Snoop) (s : State), s.hubHeld = false →
    s.lineQ w line.toNat = e :: l → e.snoops.find? (fun q => q.host == h.val) = some q →
    (snoopAllows q.kind rsp = true → exec (.birspReceive h w line rsp) s = .next (s.snoopAnswered w line.toNat h rsp))
    ∧ (snoopAllows q.kind rsp = false → exec (.birspReceive h w line rsp) s
      = .next ((s.raiseCore (4 * s.hostBlamePort h + 2) 2 0x22 false { master := s.hostBlamePort h, access := 5, addr := some (line.toNat * 64) }).snoopAnswered
          w line.toNat h .i)))
  ∧ (∀ (h : HostIx) (w : WinIx) (line : BitVec 36) (rsp : BiRsp) (s : State), s.hubHeld = false → s.lineQ w line.toNat = [] →
    exec (.birspReceive h w line rsp) s
      = .next (s.raiseCore (4 * s.hostBlamePort h + 2) 2 0x22 false { master := s.hostBlamePort h, access := 5, addr := some (line.toNat * 64) }))
  ∧ (∀ (h : HostIx) (w : WinIx) (line : BitVec 36) (s : State), s.hubHeld = false →
    (∀ p, s.carryTo h w line.toNat = none → ((s.lastDone h w line.toNat).filter s.linkUp).or (s.hostPort h) = some p →
      exec (.biconflictReceive h w line) s
        = .next (s.agentSend 0x78 0 .coh p 16 0 { kind := .conflictAck, dst := h, args := [h, w, line.toNat] }))
    ∧ (∀ k, s.carryTo h w line.toNat = some k → exec (.biconflictReceive h w line) s
        = .next { s with cr := { s.cr with lateAck := s.cr.lateAck ++ [{ host := h, w := w, line := line.toNat, pkt := k }] } }))
  ∧ (∀ (h : HostIx) (w : WinIx) (line : BitVec 36) (e : LineEntry) (l : List LineEntry) (q : Snoop) (s u : State), s.hubHeld = false →
    s.lineQ w line.toNat = e :: l → e.snoops.find? (fun q => q.host == h.val) = some q →
    u = s.advance (q.at_ + cfgOf (s.genOf e.gen) (K.SNOOP_TIMEOUT w) * Config.us) →
    exec (.snoopTimeout h w line) s
      = .next ((((u.raiseCore (4 * u.hostBlamePort h + 2) 2 0x23 false
          { master := u.hostBlamePort h, access := 5, addr := some (line.toNat * 64) }).portDown (u.hostBlamePort h) .surprise).departHost h).ownerGone
            w line.toNat h))
  ∧ (∀ (t : TileIx) (c : BrimCmd) (s : State), s.brimNext t .fill = some c →
    exec (.brimFill t) s = .next ((s.brimPut t c.w c.line c.data).brimTaken t c { tile := t, kind := .fill, w := c.w, line := c.line }))
  ∧ (∀ (t : TileIx) (c : BrimCmd) (s : State), s.brimNext t .inv = some c →
    exec (.brimInv t) s
      = .next (({ s with cr := { s.cr with brim := KMap.set none s.cr.brim (brimKey t c.w c.line) none } } : State).brimTaken
          t c { tile := t, kind := .inv, w := c.w, line := c.line }))
  ∧ (∀ (t : TileIx) (c : BrimCmd) (s : State), s.brimNext t .read = some c → KMap.get none s.cr.brim (brimKey t c.w c.line) = none →
    exec (.brimRead t) s = .next (s.brimTaken t c { tile := t, kind := .read, w := c.w, line := c.line, miss := true }))
  ∧ (∀ (t : TileIx) (c : BrimCmd) (v : Nat) (s u w : State), s.brimNext t .read = some c →
    KMap.get none s.cr.brim (brimKey t c.w c.line) = some v → s.ecc (574 + t.val) 0 1 2 2 = (false, u) →
    w = u.brimTaken t c { tile := t, kind := .read, w := c.w, line := c.line, data := v } →
    (96 ≤ c.port → exec (.brimRead t) s = .next w)
    ∧ (∀ (x : Txn) (e : LineEntry), c.port < 96 → w.txn? c.tag = some x → (w.served c.w c.line).find? (fun e => e.tag == c.tag) = some e →
        exec (.brimRead t) s
          = .next (w.brimForward t c (e.grant == 1) v { kind := .completion, dst := c.port, args := [x.tag, x.rid, 0, v, e.grant] })))
  ∧ (∀ (t : TileIx) (c : BrimCmd) (v : Nat) (s u : State), s.brimNext t .read = some c →
    KMap.get none s.cr.brim (brimKey t c.w c.line) = some v → s.ecc (574 + t.val) 0 1 2 2 = (true, u) →
    exec (.brimRead t) s = .next (u.brimTaken t c { tile := t, kind := .read, w := c.w, line := c.line, miss := true }))
  ∧ (∀ (t : TileIx) (s : State), s.hubHeld = true ∨ s.tileHeld t = true ∨ s.seamUp t = false →
    ∀ c ∈ [Instr.brimFill t, .brimInv t, .brimRead t], exec c s = .next s)
  ∧ (∀ (t : TileIx) (a : BrimAck) (e : LineEntry) (l : List LineEntry) (s u : State), s.cr.brimAck.find? (fun a => a.tile == t.val) = some a →
    s.hubHeld = false → u = { s with cr := { s.cr with brimAck := s.cr.brimAck.erase a } } → u.lineQ a.w a.line = e :: l →
    (a.kind ≠ .read → exec (.brimAckReceive t) s
      = .next ((u.setHead a.w a.line { e with brims := e.brims.filter (· ≠ t.val) }).crownRun a.w a.line crownFuel))
    ∧ (a.kind = .read → e.stage = .brimOwn → e.brims.contains t.val = true → a.miss = false → exec (.brimAckReceive t) s
      = .next ((u.brimData a.w a.line e a.data).crownRun a.w a.line crownFuel))
    ∧ (a.kind = .read → e.stage = .brimFwd → e.brims.contains t.val = true → a.miss = false → exec (.brimAckReceive t) s
      = .next (((u.incO (K.FWD_HITS a.w)).brimData a.w a.line e a.data).crownRun a.w a.line crownFuel))
    ∧ (∀ v, a.kind = .read → (e.stage = .brimOwn ∨ e.stage = .brimFwd) → e.brims.contains t.val = true → a.miss = true →
        u.crownMiss a.w a.line t e = (true, v) → exec (.brimAckReceive t) s = .next (v.crownRun a.w a.line crownFuel)))
  ∧ (∀ (id : Nat) (st : MemStatus) (d : BitVec 512) (t : Txn) (s u : State), s.txn? id = some t → s.hubHeld = false → t.deadline.isSome = true →
    (t.purpose = .crown → exec (.targetResponseReceive id st d) s = .next (s.crownAnswer id t st d.toNat))
    ∧ (t.purpose = .agent ∨ t.purpose = .core → exec (.targetResponseReceive id st d) s = .next (s.hubAnswer id st d.toNat))
    ∧ (t.purpose = .mover → t.write = true → exec (.targetResponseReceive id st d) s = .next (s.hubAnswer id st 0))
    ∧ (t.purpose = .shadow →
        u = (s.endTxn id true).updWin t.w (fun v => { v with frz := { v.frz with shadowOut := v.frz.shadowOut - 1 } }) →
        exec (.targetResponseReceive id st d) s = .next (if st = .ok then u else u.failFreeze t.w)))

/-- Window initialisation, resync, departures and freezes (R83, R119, R120, R123, R194, R195, R199, R200). -/
def Obligations.WindowsInitialisedResyncedAndFrozen : Prop :=
  (∀ (w : WinIx) (s u : State), s.hubHeld = false → s.o (K.STATE w) = 1 → s.cB (K.MIRROR w) = false →
    (s.targetPort (s.c (K.PRIMARY_TARGET w))).isSome = true →
    u = { s with cr := { s.cr with dir := KMap.keep (fun k => k / 2 ^ 36 ≠ w.val) s.cr.dir, cached := KMap.keep (fun k => k / 2 ^ 36 ≠ w.val) s.cr.cached, sector := KMap.keep (fun k => k / 2 ^ 32 ≠ w.val) s.cr.sector } } →
    exec (.windowInitComplete w) s = .next ((u.updWin w (fun _ => { live0 := true, live1 := false })).setWinState w 2))
  ∧ (∀ (sess : SessRef) (w : WinIx) (v : Byte) (s u : State), s.accepts sess (K.RESYNC_START w) 1 v.toNat u → u.o (K.STATE w) = 3 →
    u.cB (K.MIRROR w) = true → u.poolBound (u.replicaTarget w (u.lostReplica w)) = true →
    exec (.resyncStart sess w v) s
      = .next ((((u.updWin w (fun v => { v with returning := some (u.lostReplica w), resyncAt := 0 })).setO (K.RESYNC_DONE w) 0).setWinState w 4).emit
          .answer sess [0, 0]))
  ∧ (∀ (sess : SessRef) (w : WinIx) (v : Byte) (s u : State), s.accepts sess (K.RESYNC_START w) 1 v.toNat u → u.o (K.STATE w) ≠ 3 →
    exec (.resyncStart sess w v) s = .next (u.emit .answer sess [0x0302, 0]))
  ∧ (∀ (w : WinIx) (s u : State), s.hubHeld = false → s.o (K.STATE w) = 4 → s.internalAt w .resync = false → (s.win w).resyncAt < s.winLines w →
    s.pushInternal w (s.win w).resyncAt .resync = some u →
    exec (.resyncLineCopy w) s
      = .next ((u.updWin w (fun v => { v with resyncAt := v.resyncAt + 1 })).crownRun w (s.win w).resyncAt crownFuel))
  ∧ (∀ (w line : Nat) (op : LineOp) (e : LineEntry) (s u : State), e = internalEntry s op →
    (s.trackerFree e = false → s.pushInternal w line op = none)
    ∧ (s.trackerFree e = true → u = s.track e true → (u.lineQ w line).any (fun x => x.who == 0x178) = false →
        s.pushInternal w line op = some (u.joinQueue w line e))
    ∧ (s.trackerFree e = true → u = s.track e true → (u.lineQ w line).any (fun x => x.who == 0x178) = true →
        s.pushInternal w line op = some { u with cr := { u.cr with heldUp := u.cr.heldUp ++ [{ w := w, line := line, entry := e }] } }))
  ∧ (∀ (h : HostIx) (s : State), s.hubHeld = false →
    (∀ e ∈ s.cr.leaving, markerHost e.1 = h.val → ∀ n, e.2 = some n → s.requestsAhead h n = true) →
    exec (.departureMarkerArrive h) s = .next s)
  ∧ (∀ (h : HostIx) (k n : Nat) (s : State), s.hubHeld = false → s.cr.leaving = [(k, some n)] → markerHost k = h.val →
    s.requestsAhead h n = false → exec (.departureMarkerArrive h) s = .next (s.markerArrives k))
  ∧ (∀ (w n : Nat) (s u : State), s.hubHeld = false → s.cr.departed ≠ [] → (fromPtr 16 s.cr.sweepW).find? s.departureDue = some w →
    n = KMap.get 0 s.cr.sweepAt w →
    u = (List.range 16).foldl (fun (x : State) i => x.sweepLine w (16 * n + i)) s →
    (s.o (K.STATE w) < 2 ∨ s.o (K.STATE w) = 5 → exec .departureSweepStep s = .next (s.sweepPassed w n))
    ∧ (2 ≤ s.o (K.STATE w) → s.o (K.STATE w) ≠ 5 → (List.range 16).any (fun i => u.namesDeparted w (16 * n + i)) = true →
        exec .departureSweepStep s = .next u)
    ∧ (2 ≤ s.o (K.STATE w) → s.o (K.STATE w) ≠ 5 → (List.range 16).any (fun i => u.namesDeparted w (16 * n + i)) = false →
        exec .departureSweepStep s = .next (u.sweepPassed w n)))
  ∧ (∀ (s : State), s.cr.departed = [] → exec .departureSweepStep s = .next s)
  ∧ (∀ (sess : SessRef) (w : WinIx) (v : Byte) (s u : State), s.accepts sess (K.FRZ_ARM w) 1 v.toNat u → u.armRefusal w = 0 →
    exec (.frzArm sess w v) s
      = .next (((u.updWin w (fun v => { v with frz := { we := v.frz.we, armedAt := u.now } })).setFrzState w 1).emit .answer sess [0, 0]))
  ∧ (∀ (sess : SessRef) (w : WinIx) (v : Byte) (s u : State), s.accepts sess (K.FRZ_ARM w) 1 v.toNat u → u.armRefusal w ≠ 0 →
    exec (.frzArm sess w v) s = .next ((u.setO (K.FRZ_REFUSAL w) (u.armRefusal w)).emit .answer sess [0x0504, u.armRefusal w]))
  ∧ (∀ (sess : SessRef) (w : WinIx) (v : Byte) (s u : State), s.accepts sess (K.FRZ_RELEASE w) 1 v.toNat u → u.o (K.FRZ_STATE w) = 2 →
    exec (.frzRelease sess w v) s = .next ((u.setO (K.FRZ_REFUSAL w) 6).emit .answer sess [0x0504, 6]))
  ∧ (∀ (sess : SessRef) (w : WinIx) (v : Byte) (s u : State), s.accepts sess (K.FRZ_RELEASE w) 1 v.toNat u →
    (u.o (K.FRZ_STATE w) = 1 ∨ u.o (K.FRZ_STATE w) = 3) →
    exec (.frzRelease sess w v) s
      = .next (((u.updWin w (fun v => { v with frz := { we := v.frz.we } })).setFrzState w 0).emit .answer sess [0, 0]))
  ∧ (∀ (w : WinIx) (p : Nat) (s : State), (s.win w).frz.point = some p → s.hubHeld = false → s.o (K.FRZ_STATE w) = 1 → p ≤ s.ct →
    exec (.freezePoint w) s
      = .next (((s.updWin w (fun v => { v with frz := { v.frz with we := !v.frz.we, sweep := 0, sweepOn := true, shadowOut := 0 } })).setO
          (K.FRZ_COPIED w) 0).setFrzState w 2))
  ∧ (∀ (w : WinIx) (s u : State), s.hubHeld = false → (s.win w).frz.sweepOn = true → (s.o (K.FRZ_STATE w) = 2 ∨ s.o (K.FRZ_STATE w) = 4) →
    s.internalAt w .frz = false →
    (s.uncopied w (s.dirEntry w (s.win w).frz.sweep) = false → exec (.freezeSweepStep w) s = .next (s.sweepCovered w (s.win w).frz.sweep))
    ∧ (s.uncopied w (s.dirEntry w (s.win w).frz.sweep) = true → s.pushInternal w (s.win w).frz.sweep .frz = some u →
        exec (.freezeSweepStep w) s = .next ((u.sweepCovered w (s.win w).frz.sweep).crownRun w (s.win w).frz.sweep crownFuel)))
  ∧ (∀ (w n : Nat) (s : State), s.sweepCovered w n
    = (s.updWin w (fun v => { v with frz := { v.frz with sweep := n + 1, sweepOn := decide (n + 1 < s.winLines w) } })).addO (K.FRZ_COPIED w) 64)
  ∧ (∀ (w : WinIx) (s : State), s.hubHeld = false → s.o (K.FRZ_STATE w) = 2 → (s.win w).frz.sweepOn = false → (s.win w).frz.shadowOut = 0 →
    s.internalAt w .frz = false → s.oldWrites w ((s.win w).frz.point.getD 0) = false →
    exec (.freezeComplete w) s = .next (s.setFrzState w 3))
  ∧ (∀ (w : WinIx) (h : HostIx) (s : State), s.hubHeld = true →
    ∀ c ∈ [Instr.windowInitComplete w, .resyncLineCopy w, .departureMarkerArrive h, .departureSweepStep, .freezePoint w, .freezeSweepStep w,
      .freezeComplete w], exec c s = .next s)

/-- Units of the seams: launch, retransmission, control units, reception and credit checks (R305, R309, R310, R311, R312, R314, R315, R316, R319, R329, R330, R340). -/
def Obligations.SeamUnitsLaunchedAndReceived : Prop :=
  (∀ (sm : TileIx) (d : Fin 2) (k : Fin 8) (q : Nat) (rest : List Nat) (s u v : State), s.seamLive sm = true →
    (s.strandOf sm d k).carries = true → (s.sdir sm d).resend = q :: rest →
    u = s.updStrand sm d k (fun y => { y with sentAt := s.now }) →
    v = u.updSdir sm d (fun x => { x with resend := rest, replay := x.replay.map (fun w => if w.seq == q then { w with at_ := s.now, strand := k.val } else w), lastOn := KMap.set none x.lastOn k (some q) }) →
    exec (.seamUnitLaunch sm d k) s
      = .next (if (s.sdir sm d).replay.any (·.seq == q) then v.incO (K.UNITS_REPLAYED sm) else v))
  ∧ (∀ (sm : TileIx) (d : Fin 2) (k : Fin 8) (x : SeamDir) (s u w : State) (r : (Nat × Nat) × (Nat × Nat)), s.seamLive sm = true →
    (s.strandOf sm d k).carries = true → x = s.sdir sm d → x.resend = [] → (s.seam sm).retraining = false → x.replay.length < 1024 →
    x.reserve d < 64 → fitting 16 256 x.ready ≠ [] → u = s.updStrand sm d k (fun y => { y with sentAt := s.now }) →
    u.launchReturns sm d = (r, w) →
    exec (.seamUnitLaunch sm d k) s
      = .next (w.updSdir sm d (fun y => { y with nextSeq := (y.nextSeq + 1) % 4096, replay := y.replay ++ [{ seq := x.nextSeq, items := fitting 16 256 x.ready, cr0 := r.1, cr1 := r.2, at_ := s.now, strand := k.val }], ready := y.ready.drop (fitting 16 256 x.ready).length, lastOn := KMap.set none y.lastOn k (some y.nextSeq) })))
  ∧ (∀ (sm : TileIx) (d : Fin 2) (k : Fin 8) (x : SeamDir) (s : State), x = s.sdir sm d → x.resend = [] →
    ((s.seam sm).retraining = true ∨ 1024 ≤ x.replay.length ∨ 64 ≤ x.reserve d ∨ fitting 16 256 x.ready = []) →
    exec (.seamUnitLaunch sm d k) s = .next s)
  ∧ (∀ (sm : TileIx) (d : Fin 2) (k : Fin 8) (s u : State), s.seamLive sm = true → (s.strandOf sm d k).carries = true →
    u = ((s.launchReturns sm d).2).updStrand sm d k (fun y => { y with sentAt := s.now }) →
    exec (.seamAckUnitSend sm d k) s = .next u ∧ exec (.checkSend sm d k) s = .next u)
  ∧ (∀ (sm : TileIx) (d : Fin 2) (k : Fin 8) (s u : State), s.seamLive sm = true → (s.strandOf sm d k).kaHold = false →
    (s.strandOf sm d k).carries = true → u = s.advance ((s.strandOf sm d k).sentAt + 256000) →
    exec (.keepaliveSend sm d k) s
      = .next (((u.launchReturns sm d).2).updStrand sm d k (fun y => { y with sentAt := u.now })))
  ∧ (∀ (sm : TileIx) (d : Fin 2) (k : Fin 8) (s : State), (s.strandOf sm d k).kaHold = true → exec (.keepaliveSend sm d k) s = .next s)
  ∧ (∀ (sm : TileIx) (d : Fin 2) (q : BitVec 12) (v : Sent) (s : State), (s.sdir sm d).replay.find? (·.seq == q.toNat) = some v →
    exec (.seamReplayTimerExpiry sm d q) s
      = .next ((s.advance (v.at_ + 64000)).updSdir sm d (fun x => { x with resend := x.resend ++ [q.toNat] })))
  ∧ (∀ (sm : TileIx) (d : Fin 2) (q : BitVec 12) (s : State), (s.sdir sm d).replay.find? (·.seq == q.toNat) = none →
    exec (.seamReplayTimerExpiry sm d q) s = .next s)
  ∧ (∀ (s : State) (sm d k cls code : Nat), cls ≠ 3 →
    s.strandRaise sm d k cls code = s.raiseCore (384 + 18 * sm + 2 * k + d) cls code false { master := 0x84 + sm })
  ∧ (∀ (sm : TileIx) (d : Fin 2) (k : Fin 8) (u : SeamUnit) (bad : Bool) (s w : State), s.seamLive sm = true →
    (s.strandOf sm d k).carries = true → s.unitInverted sm d k = (bad, w) → (bad || !u.crcOk) = true →
    exec (.seamUnitReceive sm d k u) s = .next ((w.incO (K.CRC_ERRORS sm)).strandRaise sm d k 1 1))
  ∧ (∀ (sm : TileIx) (d : Fin 2) (k : Fin 8) (s : State), (s.strandOf sm d k).injOnce = false →
    s.unitInverted sm d k = ((s.strandOf sm d k).injAll, s))
  ∧ (∀ (sm : TileIx) (d : Fin 2) (k : Fin 8) (u : SeamUnit) (s : State), s.seamLive sm = true → (s.strandOf sm d k).carries = true →
    s.unitInverted sm d k = (false, s) → u.crcOk = true → unitWellFormed u = false →
    exec (.seamUnitReceive sm d k u) s = .next (s.strandRaise sm d k 1 1))
  ∧ (∀ (sm : TileIx) (d : Fin 2) (k : Fin 8) (u : SeamUnit) (s w c : State), s.seamLive sm = true → (s.strandOf sm d k).carries = true →
    s.unitInverted sm d k = (false, s) → u.crcOk = true → unitWellFormed u = true →
    w = (s.updStrand sm d k (fun y => { y with lastAt := s.now })).ackNak sm d u → c = w.controlUnit sm d k u →
    (u.type = .data → exec (.seamUnitReceive sm d k u) s = .next ((w.itemInverted sm d k u).2.dataUnit sm d k (w.itemInverted sm d k u).1))
    ∧ (u.type = .keepalive → exec (.seamUnitReceive sm d k u) s = .next (c.prevCheck sm d u.prev))
    ∧ (u.type = .ack → exec (.seamUnitReceive sm d k u) s = .next c)
    ∧ (u.type = .check → (c.seam sm).retraining = false → exec (.seamUnitReceive sm d k u) s
        = .next (c.updSdir sm (1 - d) (fun x => { x with check := some { empty := u.empty, asOf := u.asOf, retThru := u.retThru } })))
    ∧ (u.type = .check → (c.seam sm).retraining = true → exec (.seamUnitReceive sm d k u) s = .next c)
    ∧ (u.type = .train → exec (.seamUnitReceive sm d k u) s = .next w))
  ∧ (∀ (sm : TileIx) (d : Fin 2) (k : Fin 8) (u : SeamUnit) (s : State), (s.seamLive sm && (s.strandOf sm d k).carries) = false →
    ∀ c ∈ [Instr.seamUnitLaunch sm d k, .seamAckUnitSend sm d k, .checkSend sm d k, .seamUnitReceive sm d k u], exec c s = .next s)
  ∧ (∀ (sm : TileIx) (d : Fin 2) (c : CheckInfo) (s u v w : State) (pools : List (Nat × Int)) (neg big : Bool), (s.sdir sm d).check = some c →
    (s.seam sm).retraining = false → 2048 ≤ seqDist c.retThru (s.sdir sm (1 - d.val)).nextDel →
    pools = (bitList 74 c.empty).map (fun p => (p, (s.sdir sm d).shortfall d p c.asOf)) →
    neg = pools.any (fun e => decide (e.2 < 0)) →
    big = pools.any (fun e => decide (((allotment d e.1 + 3) / 4 : Nat) ≤ e.2)) →
    u = s.updSdir sm d (fun x => { x with check := none }) →
    v = u.setO (if d.val == 0 then K.SHORTFALL_UP sm else K.SHORTFALL_DN sm)
      ((pools.map (fun e => min 100 (e.2.toNat * 100 / max 1 (allotment d e.1)))).foldl max 0) →
    w = (if neg then v.strandRaise sm d 0 2 9 else v) →
    exec (.checkEvaluate sm d) s = .next (if neg || big then w.askRetrain sm true else w))
  ∧ (∀ (sm : TileIx) (d : Fin 2) (c : CheckInfo) (s : State), (s.sdir sm d).check = some c →
    ((s.seam sm).retraining = true ∨ seqDist c.retThru (s.sdir sm (1 - d.val)).nextDel < 2048) → exec (.checkEvaluate sm d) s = .next s)

/-- Retrains of a seam, and its strands down, retried and healthy (R320, R323, R324, R329, R330, R331, R332, R333, R335). -/
def Obligations.SeamRetrainsAndStrands : Prop :=
  (∀ (sm : TileIx) (s : State), s.retrainMay sm = true ↔ (s.seamLive sm = true ∧ (s.seam sm).retrainDue = true
    ∧ (s.seam sm).retraining = false ∧ s.dirAlive sm 0 = true ∧ s.dirAlive sm 1 = true
    ∧ ((s.seam sm).atOnce = true ∨ s.seamQuiet sm = true ∨ (s.seam sm).dueTick + 16 ≤ s.tm.ticks)))
  ∧ (∀ (sm : TileIx) (s u : State), s.retrainMay sm = true →
    u = s.updSeam sm (fun x => { x with retrainDue := false, atOnce := false, retraining := true }) →
    exec (.seamRetrainStart sm) s
      = .next ((List.range 2).foldl (fun (s : State) d => (List.range 8).foldl (fun (s : State) k =>
          s.updStrand sm d k (fun y => if y.status == 2 then { y with status := 3 } else y)) s) u))
  ∧ (∀ (sm : TileIx) (s : State), s.retrainMay sm = false → exec (.seamRetrainStart sm) s = .next s)
  ∧ (∀ (sm : TileIx) (ws : List (Fin 2 × Fin 8 × Fin 66)) (s u w : State), (s.seam sm).retraining = true →
    (s.sdir sm 0).replay = [] → (s.sdir sm 1).replay = [] →
    u = (List.range 2).foldl (fun (s : State) d => (List.range 8).foldl (fun (s : State) k =>
      if (s.strandOf sm d k).status == 3 then
        (s.updStrand sm d k (fun y => { y.noteBad ((ws.filter (fun e => e.1.val == d && e.2.1.val == k)).map (fun e => e.2.2.val)) with status := 2, lastAt := s.now })).spareStrand sm d k
      else s) (s.updSdir sm d (fun x => x.exchanged d))) s →
    w = u.updSeam sm (fun x => { x with retraining := false, leak := false }) →
    ((s.seam sm).leak = false → exec (.seamRetrainComplete ⟨sm, ws⟩) s
      = .next (((w.strandRaise sm 0 0 0 0).strandRaise sm 1 0 0 0).incO (K.RETRAINS sm)))
    ∧ ((s.seam sm).leak = true → exec (.seamRetrainComplete ⟨sm, ws⟩) s
      = .next ((((w.strandRaise sm 0 0 1 7).strandRaise sm 1 0 1 7).incO (K.RETRAINS sm)).incO (K.LEAK_RETRAINS sm))))
  ∧ (∀ (sm : TileIx) (ws : List (Fin 2 × Fin 8 × Fin 66)) (s : State),
    ((s.seam sm).retraining = false ∨ (s.sdir sm 0).replay ≠ [] ∨ (s.sdir sm 1).replay ≠ []) →
    exec (.seamRetrainComplete ⟨sm, ws⟩) s = .next s)
  ∧ (∀ (sess : SessRef) (sm : TileIx) (v : Byte) (s u : State), s.accepts sess (K.RETRAIN_NOW sm) 1 v.toNat u →
    exec (.retrainNow sess sm v) s
      = .next ((((List.range 2).foldl (fun (s : State) d => (List.range 9).foldl (fun (s : State) k =>
          s.updStrand sm d k (fun y => { y with stopped := false, retest := y.retest || (y.stopped && decide (3 ≤ y.bad.length)) })) s)
            u).askRetrain sm false).emit .answer sess [0, 0]))
  ∧ (∀ (sm : TileIx) (d : Fin 2) (k : Fin 8) (s u : State), s.seamLive sm = true → (s.strandOf sm d k).carries = true →
    u = s.advance ((s.strandOf sm d k).lastAt + 4 * Config.us) →
    exec (.seamStrandDown sm d k) s
      = .next ((((u.updSdir sm d (fun y => { y with resend := y.resend ++ ((u.sdir sm d).replay.filter (·.strand == k.val)).map (·.seq) })).strandFalls
          sm d k).strandRaise sm d k 2 3).abandonRetrain sm))
  ∧ (∀ (sm : TileIx) (s : State), s.abandonRetrain sm = if (s.seam sm).retraining && !(s.dirAlive sm 0 && s.dirAlive sm 1) then
      ((List.range 2).foldl (fun (s : State) d => (List.range 8).foldl (fun (s : State) k =>
        s.updStrand sm d k (fun y => if y.status == 3 then { y with status := 2 } else y)) s) s).updSeam sm
          (fun x => { x with retraining := false, leak := false }) else s)
  ∧ (∀ (sm : TileIx) (s : State), s.seamLive sm = true → (s.strandOf sm 0 8).status = 2 →
    exec (.timingStrandDown sm 0) s = .next ((s.strandFalls sm 0 8).strandRaise sm 0 8 2 4))
  ∧ (∀ (sm : TileIx) (s : State), s.seamLive sm = true → (s.strandOf sm 1 8).status = 2 →
    exec (.timingStrandDown sm 1) s
      = .next (((s.strandFalls sm 1 8).strandRaise sm 1 8 2 4).raiseCore (582 + sm) 1 1 true { master := 0x84 + sm }))
  ∧ (∀ (sm : TileIx) (d : Fin 2) (k : Fin 9) (bad : List (Fin 66)) (s : State), s.seamLive sm = true → (s.strandOf sm d k).status < 2 →
    (s.strandOf sm d k).stopped = false →
    exec (.strandRetry sm d k false bad) s = .next (s.updStrand sm d k (fun y => { y with status := 0 }))
    ∧ ((s.strandOf sm d k).injAll = false → exec (.strandRetry sm d k true bad) s
        = .next (s.strandPasses sm d k (bad.map (·.val)) ((s.strandOf sm d k).status == 1))))
  ∧ (∀ (sm d k : Nat) (first : Bool) (s u : State), (s.strandOf sm d k).bad = [] → (s.strandOf sm d k).retest = false → k < 8 →
    u = (s.updStrand sm d k (fun y => { y with status := 2, upAt := s.now, lastAt := s.now, bad := [], retest := false })).strandRaise sm d k 0 0 →
    s.strandPasses sm d k [] first
      = if first then (u.spareStrand sm d k).updSeam sm (fun x => { x with trainedAt := (u.spareStrand sm d k).now })
        else (u.spareStrand sm d k).askRetrainNow sm)
  ∧ (∀ (sm : TileIx) (s : State), s.seamLive sm = true → s.strandsHealthy sm = true →
    exec (.seamHealthy sm) s = .next ((s.advance (s.lastUnrest sm + Config.ms)).setO (K.HEALTHY sm) 1))
  ∧ (∀ (sm : TileIx) (s : State), s.seamLive sm = false ∨ s.strandsHealthy sm = false → exec (.seamHealthy sm) s = .next s)

/-- Timing flits, tick marks, isolation and seam diagnostics (R325, R326, R327, R331, R335, R340, R463, R550). -/
def Obligations.TimingStrandsIsolationAndDiagnostics : Prop :=
  (∀ (sm : TileIx) (d : Fin 2) (f : TimingFlit) (bad : Bool) (s w : State), s.seamLive sm = true → (s.strandOf sm d 8).status = 2 →
    s.unitInverted sm d 8 = (bad, w) → (bad || !f.crcOk) = true →
    exec (.timingFlitReceive sm d f) s
      = .next (((w.incO (K.CRC_ERRORS sm)).raiseCore (384 + 18 * sm + 2 * 8 + d) 1 1 false { master := 0x84 + sm }).updTiming sm d
          (fun x => { x with nakDue := true })))
  ∧ (∀ (sm : TileIx) (d : Fin 2) (f : TimingFlit) (s : State), s.seamLive sm = true → (s.strandOf sm d 8).status = 2 →
    s.unitInverted sm d 8 = (false, s) → f.crcOk = true → flitWellFormed f = false →
    exec (.timingFlitReceive sm d f) s
      = .next ((s.strandRaise sm d 8 1 1).updTiming sm d (fun x => { x with nakDue := x.nakDue || flitSequenced f.body })))
  ∧ (∀ (sm : TileIx) (d : Fin 2) (f : TimingFlit) (s u : State), s.seamLive sm = true → (s.strandOf sm d 8).status = 2 →
    s.unitInverted sm d 8 = (false, s) → f.crcOk = true → flitWellFormed f = true →
    u = s.updStrand sm d 8 (fun y => { y with lastAt := s.now }) →
    (∀ ct st, f.body = .tick ct st → exec (.timingFlitReceive sm d f) s
      = .next (if d.val == 1 then u.updSeam sm (fun x => { x with tileCt := ct.toNat }) else u))
    ∧ (∀ pairs, f.body = .credit pairs → exec (.timingFlitReceive sm d f) s
      = .next (u.updTiming sm (1 - d.val) (fun x => { x with credit := pairs.foldl (fun m e => if e.1 == 0xFF then m else KMap.set 0 m e.1 e.2) x.credit })))
    ∧ (f.body = .idle ∨ f.body = .ack → exec (.timingFlitReceive sm d f) s = .next u)
    ∧ (∀ (dist : Nat) (v w : State), flitSequenced f.body = true → dist = (f.fseq + 256 - (u.timing sm d).nextRx) % 256 →
        v = u.updTiming sm d (fun x => if (KMap.get none x.store f.fseq).isSome then x
          else { x with store := KMap.set none x.store f.fseq (some f.body) }) →
        w = v.deliverFlits sm d (v.timing sm d).store.length →
        (dist < 64 → exec (.timingFlitReceive sm d f) s = .next (w.updTiming sm d (fun x => { x with nakDue := !x.store.isEmpty })))
        ∧ (192 ≤ dist → exec (.timingFlitReceive sm d f) s = .next (u.incO (K.DUP_DISCARDS sm)))
        ∧ (64 ≤ dist → dist < 192 → exec (.timingFlitReceive sm d f) s = .next (u.strandRaise sm d 8 2 2))))
  ∧ (∀ (sm : TileIx) (d : Fin 2) (f : TimingFlit) (s : State), s.seamLive sm = false ∨ (s.strandOf sm d 8).status ≠ 2 →
    exec (.timingFlitReceive sm d f) s = .next s)
  ∧ (∀ (sm : TileIx) (s : State), s.seamLive sm = true → (s.strandOf sm 1 8).status = 2 →
    exec (.tickMark sm 0) s = .next (s.causeEnds (582 + sm)))
  ∧ (∀ (sm : TileIx) (j : Int) (s : State), s.seamLive sm = true → (s.strandOf sm 1 8).status = 2 → j ≠ 0 →
    exec (.tickMark sm j) s
      = .next (((s.causeEnds (582 + sm)).setO (K.CYCLE_STEP sm) (toSigned 32 j)).raiseCore (384 + 18 * sm + 2 * 8 + 1) 2 8 false { master := 0x84 + sm }))
  ∧ (∀ (sess : SessRef) (sm : TileIx) (v : Byte) (s u w : State), s.accepts sess (K.ISOLATE sm) 1 v.toNat u → w = u.setO (K.ISOLATE sm) v.toNat →
    (w.hubHeld = true → exec (.isolate sess sm v) s = .next (w.emit .answer sess [0, 0]))
    ∧ (w.hubHeld = false → v.toNat = 1 → KMap.get false w.st.tileHeld sm = false →
        exec (.isolate sess sm v) s = .next ((w.tileReset sm).emit .answer sess [0, 0]))
    ∧ (w.hubHeld = false → v.toNat = 1 → KMap.get false w.st.tileHeld sm = true →
        exec (.isolate sess sm v) s = .next (w.emit .answer sess [0, 0]))
    ∧ (w.hubHeld = false → v.toNat = 0 → KMap.get false w.st.tileHeld sm = true → w.tileFree sm ≤ w.now →
        exec (.isolate sess sm v) s = .next ((w.tileRelease sm).emit .answer sess [0, 0]))
    ∧ (w.hubHeld = false → v.toNat = 0 → (KMap.get false w.st.tileHeld sm = false ∨ w.now < w.tileFree sm) →
        exec (.isolate sess sm v) s = .next (w.emit .answer sess [0, 0])))
  ∧ (∀ (via : CsrVia) (sm : TileIx) (d : Fin 2) (k : Fin 9) (on : Bool) (s : State), s.csrOpen via (diagDie sm d) = true →
    (s.injOpen = true ∨ on = false) →
    exec (.injOnce via sm d k on) s = .next ((s.updStrand sm d k (fun y => if on then { y with injOnce := true } else y)).diagMirror sm d k)
    ∧ exec (.injPersist via sm d k on) s = .next ((s.updStrand sm d k (fun y => { y with injAll := on })).diagMirror sm d k)
    ∧ exec (.kaHold via sm d k on) s = .next ((s.updStrand sm d k (fun y => { y with kaHold := on })).diagMirror sm d k))
  ∧ (∀ (via : CsrVia) (sm : TileIx) (d : Fin 2) (k : Fin 9) (w : BitVec 7) (s : State), s.csrOpen via (diagDie sm d) = true →
    (s.injOpen = true ∨ w.toNat = 0x7F) →
    exec (.seamWireInject via sm d k w) s = .next ((s.updStrand sm d k (fun y => { y with wire := w.toNat })).diagMirror sm d k))
  ∧ (∀ (via : CsrVia) (sm : TileIx) (d : Fin 2) (k : Fin 9) (w : BitVec 7) (s : State), s.csrOpen via (diagDie sm d) = true → s.injOpen = false →
    exec (.injOnce via sm d k true) s = .next (s.injDeny sm d) ∧ exec (.injPersist via sm d k true) s = .next (s.injDeny sm d)
      ∧ exec (.kaHold via sm d k true) s = .next (s.injDeny sm d)
      ∧ (w.toNat ≠ 0x7F → exec (.seamWireInject via sm d k w) s = .next (s.injDeny sm d)))

/-- Links: detection, training and its outcome, enabling, retraining and resets (R235, R264, R278, R282, R284, R285, R287, R291, R299, R525, R550). -/
def Obligations.LinksTrainedResetAndPowerManaged : Prop :=
  (∀ (p : PortIx) (s u : State), s.tileHeld (tileOf p) = false → s.isMember p = false → u = s.updPort p (fun q => { q with partner := true }) →
    exec (.partnerDetect p) s = .next (if (KMap.get {} s.fab.lane (4 * p.val)).power == 0 then u else u.startTraining p))
  ∧ (∀ (p : PortIx) (i : LinkInfo) (s : State), s.inTraining p = true → s.mayTrain p = true → s.tilesRestart = false → s.linkFits p i = false →
    exec (.linkActive p i) s = .next (s.setO (K.LTSSM_STATE p) 0))
  ∧ (∀ (p : PortIx) (i : LinkInfo) (s : State), s.inTraining p = true → s.mayTrain p = true → s.tilesRestart = false → s.linkFits p i = true →
    ∀ (u w x y : State), u = ((((((s.setO (K.LINK_WIDTH p) i.width).setO (K.LINK_RATE p) i.rate).setO (K.FLIT_ACTIVE p) i.flit).setO
        (K.PROTOCOL p) i.protocol).setO (K.LTSSM_STATE p) 3).setO (K.TRAIN_TIME p) (i.timeUs % 2 ^ 32)).setTrainedLanes p i →
    w = (((u.updPort p (fun q => { q with up := true, partner := true, eqKept := true, inL1 := false, looped := false, ide := q.set.ide && decide (i.flit ≠ 0), cxlIde := if i.protocol == 2 then q.set.cxlIde else 0, trained := u.activeMembers p i.width i.reversed, capGiB := i.capacityGiB, isDcd := i.isDcd, biCredits := i.biCredits })).setO
          (K.AGENT_KIND p) (min i.kind 6)).setO (K.LD_COUNT p) (if i.kind == 2 then 1 else min i.lds 16)).setO (K.PORT_SERIAL p) ((i.serial.getD 0) % 2 ^ 64) →
    x = w.setO (K.LINK_UP p) (b2n !(w.needsCxl p i.protocol)) → y = (if (s.port p).up then x else x.raiseCore (4 * p) 0 1) →
    exec (.linkActive p i) s
      = .next (((y.setDegraded p (y.degradedBits p i + b2n (w.needsCxl p i.protocol) * 8)).settlePort p false).updPortsReady))
  ∧ (∀ (p : PortIx) (i : LinkInfo) (s : State), s.inTraining p = false ∨ s.mayTrain p = false ∨ s.tilesRestart = true →
    exec (.linkActive p i) s = .next s)
  ∧ (∀ (sess : SessRef) (p : PortIx) (v : Byte) (s u : State), s.accepts sess (K.LINK_ENABLE p) 1 v.toNat u → u.isMember p = false → v.toNat = 0 →
    (u.o (K.PORT_STATE p) = 3 ∨ u.o (K.PORT_STATE p) = 4 → exec (.linkEnable sess p v) s = .next (u.emit .answer sess [0x0501, 0]))
    ∧ (u.o (K.PORT_STATE p) ≠ 3 → u.o (K.PORT_STATE p) ≠ 4 →
        exec (.linkEnable sess p v) s = .next (((u.setO (K.LINK_ENABLE p) 0).portDown p .disabled).emit .answer sess [0, 0])))
  ∧ (∀ (sess : SessRef) (p : PortIx) (v : Byte) (s u : State), s.accepts sess (K.LINK_ENABLE p) 1 v.toNat u → u.isMember p = false → v.toNat = 1 →
    (u.o (K.LINK_ENABLE p) ≠ 1 → exec (.linkEnable sess p v) s
      = .next ((((({ u with fab := { u.fab with lane := (u.lanesOf p).foldl (fun m l => KMap.upd {} m l Lane.untested) u.fab.lane } } : State).setO
          (K.LINK_ENABLE p) 1).setO (K.LTSSM_STATE p) 0).startTraining p).emit .answer sess [0, 0]))
    ∧ (u.o (K.LINK_ENABLE p) = 1 → exec (.linkEnable sess p v) s = .next (u.emit .answer sess [0, 0])))
  ∧ (∀ (sess : SessRef) (p : PortIx) (v : Byte) (s u : State), s.accepts sess (K.LINK_ENABLE p) 1 v.toNat u → u.isMember p = true →
    exec (.linkEnable sess p v) s = .next ((u.setO (K.LINK_ENABLE p) v.toNat).emit .answer sess [0, 0]))
  ∧ (∀ (sess : SessRef) (p : PortIx) (v : Byte) (s u w : State), s.accepts sess (K.LINK_RETRAIN p) 1 v.toNat u → u.isMember p = false →
    u.tilesRestart = false → w = u.updPort p (fun q => { q with eqKept := false }) →
    exec (.linkRetrain sess p v) s
      = .next ((if (w.port p).up then (w.enterRecovery p).beginTraining p else w.startTraining p).emit .answer sess [0, 0]))
  ∧ (∀ (sess : SessRef) (p : PortIx) (v : Byte) (s u : State), s.accepts sess (K.LINK_RETRAIN p) 1 v.toNat u →
    (u.isMember p = true → exec (.linkRetrain sess p v) s = .next (u.emit .answer sess [0, 0]))
    ∧ (u.isMember p = false → u.tilesRestart = true → exec (.linkRetrain sess p v) s
        = .next (({ u with fab := { u.fab with waitRetrain := insertNat p u.fab.waitRetrain } } : State).emit .answer sess [0, 0])))
  ∧ (∀ (s : State) (p : Nat), s.enterRecovery p = ((s.endEyes p 3).setO (K.LTSSM_STATE p) 4).incO (K.RECOVERIES p))
  ∧ (∀ (s : State) (p : Nat), s.mayTrain p = true → s.linkUp p = false →
    (s.tilesRestart = false → s.startTraining p
      = (((s.setO (K.LTSSM_STATE p) 1).setLanes (s.lanesOf p) 3).beginTraining p).updPort p (fun q => { q with held := false }))
    ∧ (s.tilesRestart = true → s.startTraining p = { s with fab := { s.fab with waitTrain := insertNat p s.fab.waitTrain } }))
  ∧ (∀ (s : State) (p : Nat), (s.mayTrain p = false ∨ s.linkUp p = true) → s.startTraining p = s)
  ∧ (∀ (p : PortIx) (s : State), s.tileHeld (tileOf p) = false → (s.port p).up = true →
    exec (.partnerHotReset p) s = .next (((s.portDown p .reset).setO (K.LTSSM_STATE p) 9).startTraining p)
    ∧ exec (.cxlHotReset p none) s = .next ((s.portDown p .reset).startTraining p))
  ∧ (∀ (p : PortIx) (s : State), s.tileHeld (tileOf p) = true ∨ (s.port p).up = false →
    exec (.partnerHotReset p) s = .next s ∧ exec (.cxlHotReset p none) s = .next s)
  ∧ (∀ (p : PortIx) (h : HostIx) (v : Fin 49) (s : State), s.isVcsUp h = true → 32 ≤ v.val →
    exec (.cxlHotReset p (some (h, v))) s
      = .next { s with fab := { s.fab with hdm := KMap.set {} s.fab.hdm (h.val * 64 + v.val) {} } })
  ∧ (∀ (p : PortIx) (h : HostIx) (v : Fin 49) (kind q ld : Nat) (s u : State), s.isVcsUp h = true → v.val < 32 →
    s.binding h v = some (kind, q, ld) → u = s.emit .card q [3, h.val, v.val] →
    (kind = 2 → exec (.cxlHotReset p (some (h, v))) s = .next (s.emit .card q [4, h.val, v.val, ld]))
    ∧ (kind ≠ 2 → (s.port q).up = true → exec (.cxlHotReset p (some (h, v))) s = .next ((u.portDown q .reset).startTraining q)))

/-- Recovery, loopback, L1 and L0p of a link (R279, R286, R292, R297, R298, R299). -/
def Obligations.LinkRecoveryLoopbackAndLowPower : Prop :=
  (∀ (p : PortIx) (s u v : State), (s.port p).up = true → [3, 5, 6].contains (s.o (K.LTSSM_STATE p)) = true →
    u = ((s.endEyes p 3).setO (K.LTSSM_STATE p) 4).incO (K.RECOVERIES p) →
    ∀ (cause : RecoveryCause),
    (cause = .uncorrectableFlit → v = (u.incO (K.FLITS_UNCORRECTABLE p)).raiseCore (4 * p + 1) 1 0x10) →
    (cause = .replayTimeout → v = (u.incO (K.REPLAYS p)).raiseCore (4 * p + 1) 1 0x11) →
    (cause = .unrequested → v = u.raiseCore (4 * p + 1) 1 0x12) →
    (cause ≠ .uncorrectableFlit → cause ≠ .replayTimeout → cause ≠ .unrequested → v = u) →
    (v.linkUp p = true → exec (.linkRecovery p cause false) s = .next (v.portDown p .surprise))
    ∧ (v.linkUp p = false → exec (.linkRecovery p cause false) s = .next (v.linkDown p 0))
    ∧ ((∀ r, cause ≠ .rateChange r) → exec (.linkRecovery p cause true) s
        = .next ((v.setO (K.LTSSM_STATE p) 3).updPort p (fun q => { q with inL1 := false })))
    ∧ (∀ r, cause = .rateChange r → 1 ≤ r → r ≤ (u.port p).set.rate → exec (.linkRecovery p cause true) s
        = .next (((v.setO (K.LTSSM_STATE p) 3).updPort p (fun q => { q with inL1 := false })).setO (K.LINK_RATE p) r)))
  ∧ (∀ (p : PortIx) (cause : RecoveryCause) (b : Bool) (s : State), (s.port p).up = false ∨ [3, 5, 6].contains (s.o (K.LTSSM_STATE p)) = false →
    exec (.linkRecovery p cause b) s = .next s)
  ∧ (∀ (p : PortIx) (s u : State), s.tileHeld (tileOf p) = false → s.isMember p = false → s.o (K.LINK_ENABLE p) ≠ 0 → (s.port p).looped = false →
    s.o (K.LTSSM_STATE p) ≠ 0 → s.o (K.LTSSM_STATE p) ≠ 7 → u = (if s.linkUp p then s.portDown p .surprise else s) →
    exec (.loopbackEntry p) s
      = .next (((u.setO (K.LTSSM_STATE p) 8).updPort p (fun q => { q with looped := true })).raiseCore (4 * p) 0 5))
  ∧ (∀ (p : PortIx) (s : State), s.tileHeld (tileOf p) = true ∨ s.o (K.LINK_ENABLE p) = 0 ∨ (s.port p).looped = true →
    exec (.loopbackEntry p) s = .next s)
  ∧ (∀ (p : PortIx) (s : State), (s.port p).looped = true →
    exec (.loopbackExit p) s
      = .next (((s.setO (K.LTSSM_STATE p) 0).updPort p (fun q => { q with looped := false })).startTraining p))
  ∧ (∀ (p : PortIx) (s : State), (s.port p).looped = false → exec (.loopbackExit p) s = .next s)
  ∧ (∀ (p : PortIx) (s u : State), (s.port p).up = true → s.o (K.LTSSM_STATE p) = 3 → (s.port p).set.l1 = true → s.o (K.ROLE p) ≠ 2 →
    u = (s.endEyes p 3).setO (K.LTSSM_STATE p) 6 →
    exec (.l1Entry p) s
      = .next ((u.setLanes ((u.lanesOf p).filter (fun l => (KMap.get {} u.fab.lane l).on)) 2).updPort p (fun q => { q with inL1 := true })))
  ∧ (∀ (p : PortIx) (s : State), (s.port p).up = false ∨ (s.port p).set.l1 = false ∨ s.o (K.ROLE p) = 2 → exec (.l1Entry p) s = .next s)
  ∧ (∀ (p : PortIx) (s u : State), (s.port p).inL1 = true → u = s.setO (K.LTSSM_STATE p) 3 →
    exec (.l1Exit p) s
      = .next ((u.setLanes ((u.lanesOf p).filter (fun l => (KMap.get {} u.fab.lane l).on)) 3).updPort p (fun q => { q with inL1 := false })))
  ∧ (∀ (p : PortIx) (s : State), (s.port p).inL1 = false → exec (.l1Exit p) s = .next s)
  ∧ (∀ (p : PortIx) (w n : Nat) (live idle : List Nat) (s u v : State), (s.port p).up = true →
    [3, 5].contains (s.o (K.LTSSM_STATE p)) = true → (s.port p).set.l0p = true → s.o (K.LINK_RATE p) = 6 → n = s.o (K.LINK_WIDTH p) →
    2 ≤ n → [1, 2, 4, 8, 16].contains w = true → w ≤ n →
    live = (List.range w).map (fun k => s.laneOf p k (bit (s.o (K.DEGRADED p)) 2)) →
    idle = ((List.range n).map (fun k => s.laneOf p k (bit (s.o (K.DEGRADED p)) 2))).filter (fun l => !live.contains l) →
    u = ((idle.foldl (fun (s : State) l => match KMap.get none s.fab.eye (l / 4) with
      | some e => if e.cmd % 4 == l % 4 then s.endEye (l / 4) 3 else s
      | none => s) s).setLanes idle 1).setLanes live 3 →
    v = { u with fab := { u.fab with lane := live.foldl (fun m l => KMap.upd {} m l (fun x => { x with on := true })) (idle.foldl (fun m l => KMap.upd {} m l (fun x => { x with on := false })) u.fab.lane) } } →
    exec (.l0pWidthChange p w) s = .next (v.setO (K.LTSSM_STATE p) (if w < n then 5 else 3)))
  ∧ (∀ (p : PortIx) (w : Nat) (s : State), (s.port p).up = false ∨ (s.port p).set.l0p = false ∨ s.o (K.LINK_RATE p) ≠ 6
      ∨ s.o (K.LINK_WIDTH p) < 2 ∨ s.o (K.LINK_WIDTH p) < w → exec (.l0pWidthChange p w) s = .next s)

/-- Lane margining, lane tests and eye scans (R288, R290, R294, R296, R297, R525). -/
def Obligations.LaneTestsMarginingAndEyeScans : Prop :=
  (∀ (l : LaneIx) (s : State), exec (.laneMargining l false) s = .next (s.updLane l (fun x => { x with margin := false })))
  ∧ (∀ (l : LaneIx) (s : State), (s.port (s.lead (l.val / 4))).up = true → 4 ≤ s.o (K.LINK_RATE (s.lead (l.val / 4))) → (s.lane l).on = true →
    KMap.get none s.fab.eye (l.val / 4) = none →
    exec (.laneMargining l true) s = .next (s.updLane l (fun x => { x with margin := true })))
  ∧ (∀ (via : CsrVia) (l : LaneIx) (v : Word32) (s : State), s.csrOpen via (l.val / 96) = true →
    exec (.laneTestConfig via l v) s = .next (s.laneTestWrite l v.toNat)
    ∧ exec (.bitslip via l) s = .next (s.laneTestWrite l (setBit (setBit (s.lane l).test 17 false) 7 true))
    ∧ exec (.errClr via l) s = .next (s.updLane l (fun x => { x with errs := 0 })))
  ∧ (∀ (l : LaneIx) (s : State), bit (s.lane l).test 7 = true → (s.port (s.lead (l.val / 4))).set.rate ≠ 6 →
    exec (.bitslipDone l) s
      = .next (s.updLane l (fun x => { x with test := (s.lane l).test % 128 + (bits (s.lane l).test 13 8 + 1) % 64 * 256 + (s.lane l).test / 2 ^ 14 * 2 ^ 14 })))
  ∧ (∀ (l : LaneIx) (s : State), bit (s.lane l).test 7 = false → exec (.bitslipDone l) s = .next s)
  ∧ (∀ (sess : SessRef) (p : PortIx) (c : BitVec 128) (s u w : State), s.accepts sess (K.EYE_CMD p) 16 c.toNat u → u.eyeRefusal p c.toNat = 0 →
    w = u.setO (K.EYE_RECORD p) (eyeRecord { cmd := c.toNat, total := eyePoints c.toNat, ctStart := u.ct } 1 (u.o (K.LINK_RATE (u.lead p))) 0) →
    exec (.eyeCmd sess p c) s
      = .next (((({ w with fab := { w.fab with eye := KMap.set none w.fab.eye p (some { cmd := c.toNat, total := eyePoints c.toNat, ctStart := u.ct }) } } : State).setO (K.EYE_STATE p) 1).setO (K.EYE_RESULT p) 0).emit
            .answer sess [0, 0]))
  ∧ (∀ (sess : SessRef) (p : PortIx) (c : BitVec 128) (s u : State), s.accepts sess (K.EYE_CMD p) 16 c.toNat u → u.eyeRefusal p c.toNat ≠ 0 →
    exec (.eyeCmd sess p c) s
      = .next ((u.setO (K.EYE_RESULT p) (u.eyeRefusal p c.toNat)).emit .answer sess [0x0504, u.eyeRefusal p c.toNat]))
  ∧ (∀ (p : PortIx) (n : BitVec 32) (e e' : Eye) (s u : State), s.tilesRestart = false → KMap.get none s.fab.eye p = some e →
    e' = { e with pts := (min n.toNat 0xFFFFFF + (if min n.toNat 0xFFFFFF == 0xFFFFFF then 2 ^ 31 else 0)) :: e.pts } →
    u = { s with fab := { s.fab with eye := KMap.set none s.fab.eye p (some e') } } →
    exec (.eyeScanPoint p n) s
      = .next (if e'.total ≤ e'.pts.length then u.endEye p 0
          else u.setO (K.EYE_RECORD p) (eyeRecord e' 1 (u.o (K.LINK_RATE (u.lead p))) 0)))
  ∧ (∀ (p : PortIx) (n : BitVec 32) (s : State), KMap.get none s.fab.eye p = none ∨ s.tilesRestart = true → exec (.eyeScanPoint p n) s = .next s)

/-- Port claims, power controllers, slot control and link loss (R234, R255, R258, R260, R261, R262, R267). -/
def Obligations.PortsClaimedAndSlotsCommanded : Prop :=
  (∀ (sess : SessRef) (p : PortIx) (v : Byte) (s u : State) (new : Claim) (acc : Bool), s.accepts sess (K.ROLE p) 1 v.toNat u →
    new = { u.portClaim p with role := v.toNat } →
    acc = (v.toNat == (u.portClaim p).role && v.toNat ≠ 0 && (u.o (K.PORT_STATE p) == 5 || u.o (K.PORT_STATE p) == 6)) →
    u.claimRefusal p new acc = 0 → exec (.portRoleWrite sess p v) s = .next ((u.setClaim p new acc).emit .answer sess [0, 0]))
  ∧ (∀ (sess : SessRef) (p : PortIx) (v : Byte) (s u : State), s.accepts sess (K.AGENT p) 1 v.toNat u →
    u.claimRefusal p { u.portClaim p with agent := v.toNat } false = 0 →
    exec (.portAgentWrite sess p v) s = .next ((u.setClaim p { u.portClaim p with agent := v.toNat } false).emit .answer sess [0, 0]))
  ∧ (∀ (sess : SessRef) (p : PortIx) (v : Byte) (s u : State), s.accepts sess (K.POOL p) 1 v.toNat u →
    u.claimRefusal p { u.portClaim p with pool := v.toNat } false = 0 →
    exec (.portPoolWrite sess p v) s = .next ((u.setClaim p { u.portClaim p with pool := v.toNat } false).emit .answer sess [0, 0]))
  ∧ (∀ (sess : SessRef) (p : PortIx) (v : Byte) (s u : State), s.accepts sess (K.SLOT p) 1 v.toNat u →
    u.claimRefusal p { u.portClaim p with slot := v.toNat } false = 0 →
    exec (.portSlotWrite sess p v) s = .next ((u.setClaim p { u.portClaim p with slot := v.toNat } false).emit .answer sess [0, 0]))
  ∧ (∀ (sess : SessRef) (p : PortIx) (v : Byte) (s u : State) (r : Nat), s.accepts sess (K.SLOT p) 1 v.toNat u →
    r = u.claimRefusal p { u.portClaim p with slot := v.toNat } false → r ≠ 0 →
    exec (.portSlotWrite sess p v) s = .next ((u.setO (K.PORT_REFUSAL p) r).emit .answer sess [0x0501, r]))
  ∧ (∀ (h : HostIx) (v : Fin 49) (s : State), s.isVcsUp h = true →
    exec (.powerControllerOn h v) s = .next (s.powerWrite h v false) ∧ exec (.powerControllerOff h v) s = .next (s.powerWrite h v true))
  ∧ (∀ (h : HostIx) (v : Fin 49) (c : BitVec 16) (k p ld : Nat) (s u : State), s.isVcsUp h = true → s.binding h v = some (k, p, ld) →
    s.o (K.SLOT p) < 24 →
    u = (s.updVppb h v (fun b => { b with ctl := c.toNat, ind := bits c.toNat 9 6 })).setO (K.INDICATORS p) (bits c.toNat 9 6) →
    ((bit c.toNat 10 = (s.vppb h v).cmdWait.getD (s.vppb h v).pwrOff ∧ bit c.toNat 10 = true) ∨ u.ownerOf p ≠ some (h.val, v.val) →
      exec (.slotControlWrite h v c) s = .next (u.vppbStatus h v [4]))
    ∧ (bit c.toNat 10 ≠ (s.vppb h v).cmdWait.getD (s.vppb h v).pwrOff → u.ownerOf p = some (h.val, v.val) →
      exec (.slotControlWrite h v c) s = .next (u.powerWrite h v (bit c.toNat 10))))
  ∧ (∀ (s : State) (h v k p ld : Nat) (off : Bool), s.binding h v = some (k, p, ld) → s.o (K.SLOT p) < 24 → s.ownerOf p = some (h, v) →
    (s.powerBusy (s.o (K.SLOT p)) = false → s.hkServes = true → s.powerWrite h v off = s.powerCommand h v p (s.o (K.SLOT p)) off)
    ∧ (s.powerBusy (s.o (K.SLOT p)) = true → s.powerWrite h v off = s.updVppb h v (fun b => { b with cmdWait := some off })))
  ∧ (∀ (n : SlotIx) (t : Nat) (s u : State), (s.slot n).perstAt = some t → (s.slot n).state = .on →
    u = (s.advance t).updSlot n (fun x => { x with perst := false, perstAt := none }) → u.slotPort n = none →
    exec (.perstRelease n) s = .next (u.powerNext n))
  ∧ (∀ (n : SlotIx) (t p : Nat) (s u : State), (s.slot n).perstAt = some t → (s.slot n).state = .on →
    u = (s.advance t).updSlot n (fun x => { x with perst := false, perstAt := none }) → u.slotPort n = some p → u.tileHeld (tileOf p) = false →
    exec (.perstRelease n) s = .next ((u.startTraining p).powerNext n))
  ∧ (∀ (n : SlotIx) (t : Nat) (s : State), (s.slot n).offDueAt = some t → s.slotOwner n = none →
    exec (.slotOffAfterPerst n) s = .next ((((s.advance t).updSlot n (fun x => { x with offDueAt := none })).slotOff n 0).powerNext n))
  ∧ (∀ (h : HostIx) (v : Fin 49) (k p ld : Nat) (s u : State), s.isVcsUp h = true → s.binding h v = some (k, p, ld) → k ≠ 2 →
    (s.boundIn p).length = 1 → u = (s.portDown p .managed).updVppb h v (fun b => { b with linkDis := true, linkView := false }) →
    exec (.hostLinkDisable h v true) s
      = .next (u.unbindReady h v (if u.ownerOf p == some (h.val, v.val) then [0] else [0, 1])))
  ∧ (∀ (h : HostIx) (v : Fin 49) (k p ld : Nat) (s u : State), s.isVcsUp h = true → s.binding h v = some (k, p, ld) →
    ((s.boundIn p).length ≠ 1 ∨ k = 2) → u = ((s.updVppb h v (fun b => { b with linkView := false })).vppbStatus h v [8]).updVppb h v
      (fun b => { b with linkDis := true, linkView := false }) →
    exec (.hostLinkDisable h v true) s
      = .next (u.unbindReady h v (if u.ownerOf p == some (h.val, v.val) then [0] else [0, 1])))
  ∧ (∀ (h : HostIx) (v : Fin 49) (k p ld : Nat) (s u : State), s.isVcsUp h = true → s.binding h v = some (k, p, ld) →
    u = s.updVppb h v (fun b => { b with linkDis := false }) → u.tileHeld (tileOf p) = false →
    exec (.hostLinkDisable h v false) s
      = .next (if u.linkUp p then u.vppbsLinkUp p else (u.setO (K.LTSSM_STATE p) 0).startTraining p))
  ∧ (∀ (p : PortIx) (s : State), s.linkUp p = true → exec (.surpriseLinkLoss p) s = .next (s.portDown p .surprise).settleRings)
  ∧ (∀ (id d : Nat) (t : Txn) (s : State), s.txn? id = some t → t.deadline = some d → s.hubHeld = false →
    exec (.rspTimeout id) s
      = .next (((s.advance d).raiseCore (4 * t.dest + 2) 2 0x24 false
          { master := t.master, access := if t.write then 2 else 1, addr := some t.addr }).portDown t.dest .surprise))

/-- Bind and unbind commands, extents and dynamic capacity (R247, R248, R249, R252, R253, R254, R255, R256). -/
def Obligations.BindingsPublishedAndExtentsMoved : Prop :=
  (∀ (sess : SessRef) (c : BitVec 64) (s u : State), s.accepts sess K.BIND_CMD 8 c.toNat u →
    ∀ i ∈ [Instr.bindCmdBind sess c, .unbindWaitLinkDown sess c, .unbindManagedHotRemove sess c, .unbindSurpriseHotRemove sess c],
      (u.bindRefusal c.toNat = 0 → exec i s = .next ((u.bindAccept c.toNat).emit .answer sess [0, 0]))
      ∧ (u.bindRefusal c.toNat ≠ 0 → exec i s
          = .next ((u.setO K.BIND_RESULT (u.bindRefusal c.toNat)).emit .answer sess
              [if u.bindRefusal c.toNat == 8 then 0x0502 else 0x0504, u.bindRefusal c.toNat])))
  ∧ (∀ (s : State) (c : Nat), (bindFields c).op = 0 →
    (s.bindAccept c).fab.bindOp.map (fun o => (o.unbind, o.ready, o.host, o.vppb, o.port, o.ld))
      = some (false, true, (bindFields c).host, (bindFields c).vppb, (bindFields c).port, (bindFields c).ld))
  ∧ (∀ (s : State) (c : Nat), (bindFields c).op = 1 → (bindFields c).mode = 2 →
    (s.bindAccept c).fab.bindOp.map (fun o => (o.unbind, o.ready, o.mode, o.host, o.vppb))
      = some (true, true, 2, (bindFields c).host, (bindFields c).vppb))
  ∧ (∀ (b : BindOp) (s u : State), s.fab.bindOp = some b → s.hubHeld = false → b.ready = true →
    u = (if b.unbind then s.publishUnbind b else s.publishBind b) →
    exec .bindingPublish s = .next (({ u with fab := { u.fab with bindOp := none } } : State).setO K.BIND_STATE 2))
  ∧ (∀ (b : BindOp) (s : State), s.fab.bindOp = some b → b.ready = false → exec .bindingPublish s = .next s)
  ∧ (∀ (b : BindOp) (s u : State), s.fab.bindOp = some b → b.unbind = true → b.ready = false → u = s.advance b.deadline →
    u.o (K.PORT_STATE b.port) ≠ 4 →
    exec .unbindTimeout s = .next ((({ u with fab := { u.fab with bindOp := none } } : State).setO K.BIND_STATE 4).setO K.BIND_RESULT 9))
  ∧ (∀ (sess : SessRef) (c : BitVec 128) (s u : State), s.accepts sess K.EXTENT_CMD 16 c.toNat u →
    ∀ i ∈ [Instr.extentAdd sess c, .extentReleaseByHost sess c, .extentForcedRelease sess c],
      (u.extRefusal c.toNat = 0 → exec i s = .next ((u.extAccept c.toNat).emit .answer sess [0, 0]))
      ∧ (u.extRefusal c.toNat ≠ 0 → exec i s
          = .next ((u.setO K.EXTENT_RESULT (u.extRefusal c.toNat)).emit .answer sess
              [if u.extRefusal c.toNat == 7 then 0x0502 else 0x0504, u.extRefusal c.toNat])))
  ∧ (∀ (s : State) (c : Nat), (extFields c).op = 0 → (s.extAccept c).fab.extents = s.fab.extents
      ++ (List.range (extFields c).count).map (fun i => { vcs := (extFields c).host, dpa := (extFields c).dpa + i, target := (extFields c).target, tgtGib := (extFields c).gib + i, tag := (extFields c).tag }))
  ∧ (∀ (s u w : State) (o : ExtentOp) (here : Nat → Bool), s.fab.extOp = some o → s.hubHeld = false → o.add = true → o.asked = false →
    here = (fun k => (s.fab.extents.filter (fun x => x.vcs == o.vcs && o.dpa ≤ x.dpa && x.dpa < o.dpa + o.count && x.state = .filling)).any
      (fun x => k / 2 ^ 33 == x.target && k % 2 ^ 33 / 262144 == x.tgtGib)) →
    u = { s with gd := { s.gd with tag := KMap.keep (fun k => !here k) s.gd.tag, tagLost := KMap.keep (fun k => !here k) s.gd.tagLost } } →
    w = u.mapExtents o.vcs o.dpa o.count (fun x => some (if x.state = .filling then { x with state := .offered } else x)) →
    exec .extentZeroFillDone s
      = .next (({ w with fab := { w.fab with extOp := some { o with asked := true, deadline := w.now + w.c K.EXTENT_TIMEOUT * Config.ms } } } : State).emit
          .eventRecord o.vcs [0, o.dpa, o.count, o.tag]))
  ∧ (∀ (h : HostIx) (n : Nat) (runs : List (Nat × Nat)) (o : ExtentOp) (s : State), s.fab.extOp = some o → s.hubHeld = false → o.add = true → o.asked = true →
    o.vcs = h.val → s.isVcsUp h = true →
    (runsOk n runs (s.blockOffered h) = true → exec (.addDynamicCapacityResponse h n runs) s
      = .next ((((runs.foldl (fun (s : State) r => s.mapExtents h r.1 r.2
          (fun x => some (if x.state = .offered then { x with state := .mapped } else x))) s).dropOffered o).extEnd 2).emit .ldMailbox h [0]))
    ∧ (runsOk n runs (s.blockOffered h) = false → exec (.addDynamicCapacityResponse h n runs) s = .next (s.emit .ldMailbox h [2])))
  ∧ (∀ (h : HostIx) (n : Nat) (runs : List (Nat × Nat)) (s u : State), s.hubHeld = false → s.isVcsUp h = true →
    (runsOk n runs (s.blockMapped h) = false → exec (.releaseDynamicCapacity h n runs) s = .next (s.emit .ldMailbox h [2]))
    ∧ (runsOk n runs (s.blockMapped h) = true → u = runs.foldl (fun (s : State) r => s.unmapBlocks h r.1 r.2) s →
        (∀ o, u.fab.extOp = some o → o.add = true ∨ o.vcs ≠ h.val ∨ (List.range o.count).any (fun i => u.blockMapped o.vcs (o.dpa + i)) = true) →
        exec (.releaseDynamicCapacity h n runs) s = .next (u.emit .ldMailbox h [0])))
  ∧ (∀ (n : Nat) (l : List (Nat × Nat)) (f : Nat → Bool), runsOk n l f = true ↔ n = l.length ∧ ∀ r ∈ l, 0 < r.2 ∧ r.1 + r.2 ≤ 512 ∧ ∀ i < r.2, f (r.1 + i) = true)
  ∧ (∀ (o : ExtentOp) (s : State), s.fab.extOp = some o → s.hubHeld = false → o.asked = true → s.isVcsUp o.vcs = true →
    exec .extentTimeout s
      = .next ((if o.add then (s.advance o.deadline).dropOffered o
          else (s.advance o.deadline).mapExtents o.vcs o.dpa o.count (fun x => some (if x.state = .releasing then { x with state := .mapped } else x))).extEnd 4))
  ∧ (∀ (h : HostIx) (dpa : Nat) (s : State), exec (.extentReturnFree h dpa) s
      = .next { s with fab := { s.fab with extents := s.fab.extents.filterMap (fun x => if x.vcs == h.val && dpa ≤ x.dpa && x.dpa < dpa + 1 then (if x.state = .unmapped && (x.holders.filter (fun i => (s.txn? i).isSome)).isEmpty then none else some x) else some x) } })

/-- Power warnings, their message, and the global persistent flush (R404, R424, R426, R427, R428). -/
def Obligations.PowerWarningsAndFlush : Prop :=
  (∀ (s : State), s.st.porHeld = false → s.pw.vbusWarn = false →
    exec .vbusWarnAssert s
      = .next ((({ s with pw := { s.pw with vbusWarn := true } } : State).raiseCore 604 0 1 false island).stampWarning false 24))
  ∧ (∀ (s : State), s.st.porHeld = false → s.pw.vbusWarn = true →
    exec .vbusWarnClear s
      = .next (((({ s with pw := { s.pw with vbusWarn := false } } : State).raiseCore 604 0 2 false island).stampWarning true 24).settleFlush))
  ∧ (∀ (n : SlotIx) (s u : State), s.st.porHeld = false → (s.slot n).warn = false →
    u = (s.updSlot n (fun x => { x with warn := true, warnSeen := true, warnAt := s.now })).raiseCore (458 + 3 * n) 1 0x10 false (spcOf n) →
    exec (.feedWarningAssert n) s
      = .next (if u.cB (K.GPF_ON_WARN n)
          then ({ u with pw := { u.pw with srcSlots := setBit u.pw.srcSlots n true } } : State).stampWarning false n else u))
  ∧ (∀ (n : SlotIx) (s u : State), s.st.porHeld = false → (s.slot n).warn = true →
    u = (s.updSlot n (fun x => { x with warn := false })).raiseCore (458 + 3 * n) 1 0x11 false (spcOf n) →
    exec (.feedWarningClear n) s
      = .next (if bit u.pw.srcSlots n
          then (({ u with pw := { u.pw with srcSlots := setBit u.pw.srcSlots n false } } : State).stampWarning true n).settleFlush else u))
  ∧ (∀ (s u w : State), s.pw.win ≠ [] → s.hubHeld = false → u = { s with pw := { s.pw with win := [] } } →
    w = (if s.pw.win.any (·.gpf) then u.startFlush else u) →
    exec .powerWarningMessage s
      = .next ((((w.queueWarn (s.pw.win.filter (fun e => !e.clear)) false (s.pw.win.any (·.gpf))).queueWarn
          (s.pw.win.filter (·.clear)) true false).drainBcast).settleFlush))
  ∧ (∀ (s : State), (s.pw.win = [] ∨ s.hubHeld = true) → exec .powerWarningMessage s = .next s)
  ∧ (∀ (s u : State) (clear : Bool) (src : Nat) (e : WarnEv), s.hubHeld = false →
    e = { clear := clear, src := src, stamp := s.ct, state := s.ctState, gpf := !clear && s.cB K.GPF_ENABLE && !s.pw.gpf.running && !s.pw.win.any (·.gpf) } →
    u = (if s.pw.win ≠ [] ∧ s.pw.winAt + 6 * Config.fclk ≤ s.now then s.buildWarnings else s) →
    s.stampWarning clear src = ({ u with pw := { u.pw with winAt := if u.pw.win.isEmpty then u.now else u.pw.winAt, win := u.pw.win ++ [e] } } : State).updWarn)
  ∧ (∀ (h : HostIx) (s : State), s.hubHeld = false → s.isVcsUp h = true → s.pw.gpf.running = true → s.pw.gpf.phase2.contains h.val = false →
    exec (.hostGpfPhase2Request h) s
      = .next { s with pw := { s.pw with gpf := { s.pw.gpf with phase2 := s.pw.gpf.phase2 ++ [h.val] } } })
  ∧ (∀ (m : TargetIx) (p : Nat) (s u : State), s.targetPort m = some p → s.hubHeld = false → s.linkUp p = true →
    s.pw.gpf.forwarded.contains m.val = false → s.writesIssued m p = true → s.poolBound m = true → s.pw.gpf.running = true → s.pw.gpf.waitOver = true →
    u = { s with pw := { s.pw with gpf := { s.pw.gpf with forwarded := m.val :: s.pw.gpf.forwarded, limit := KMap.set none s.pw.gpf.limit m (s.flushLimit p) } } } →
    exec (.gpfTargetForward m) s = .next (u.emit .gpf p [2, m.val]))
  ∧ (∀ (m : TargetIx) (p : Nat) (s u : State), s.targetPort m = some p → s.hubHeld = false → s.linkUp p = true →
    s.pw.gpf.forwarded.contains m.val = false → s.writesIssued m p = true → s.poolBound m = false → s.boundIn p ≠ [] →
    (s.flushHosts m p).all (fun h => s.pw.gpf.phase2.contains h) = true →
    u = { s with pw := { s.pw with gpf := { s.pw.gpf with forwarded := m.val :: s.pw.gpf.forwarded, limit := KMap.set none s.pw.gpf.limit m (s.flushLimit p) } } } →
    exec (.gpfTargetForward m) s = .next ((u.emit .gpf p [1, m.val]).emit .gpf p [2, m.val]))
  ∧ (∀ (s u : State), s.pw.gpf.running = true → s.pw.gpf.waitOver = false → s.hubHeld = false →
    s.flushTargets.any (fun m => s.poolBound m && !s.pw.gpf.forwarded.contains m
      && !((s.flushHosts m ((s.targetPort m).getD 0)).all (fun h => s.pw.gpf.phase2.contains h))) = true →
    u = s.advance (s.pw.gpf.startedAt + s.c K.GPF_HOST_WAIT * Config.us) →
    exec .gpfHostWaitExpiry s
      = .next (({ u with pw := { u.pw with gpf := { s.pw.gpf with waitOver := true } } } : State).raiseCore 614 1 3 false island))
  ∧ (∀ (m : TargetIx) (s : State), s.pw.gpf.forwarded.contains m.val = true → s.pw.gpf.completed.contains m.val = false →
    exec (.gpfTargetComplete m) s
      = .next (({ s with pw := { s.pw with gpf := { s.pw.gpf with completed := m.val :: s.pw.gpf.completed } } } : State).settleFlush))

/-- Slice commands, descriptors, chunks, doorbell pages and evacuation (R345, R347, R352, R354, R355, R360, R363, R364). -/
def Obligations.SlicesCommandedAndDescriptorsRun : Prop :=
  (∀ (sess : SessRef) (c : BitVec 512) (s u : State), s.accepts sess K.SLICE_CMD 64 c.toNat u → u.sliceRefusal c.toNat [] = 0 →
    ∀ i ∈ [Instr.sliceCreate sess c, .sliceDestroy sess c, .sliceFreeze sess c, .sliceSave sess c, .sliceThaw sess c],
      exec i s = .next ((u.sliceAccept c.toNat []).emit .answer sess [0, 0]))
  ∧ (∀ (sess : SessRef) (c : BitVec 512) (r : List Byte) (s u : State), s.accepts sess K.SLICE_CMD 64 c.toNat u → u.sliceRefusal c.toNat r = 0 →
    exec (.sliceRestore sess c r) s = .next ((u.sliceAccept c.toNat r).emit .answer sess [0, 0]))
  ∧ (∀ (sess : SessRef) (c : BitVec 512) (s u : State), s.accepts sess K.SLICE_CMD 64 c.toNat u → u.sliceRefusal c.toNat [] ≠ 0 →
    exec (.sliceCreate sess c) s
      = .next ((u.setO K.SLICE_RESULT (u.sliceRefusal c.toNat [])).emit .answer sess
          [if u.sliceRefusal c.toNat [] == 10 then 0x0502 else 0x0504, u.sliceRefusal c.toNat []]))
  ∧ (∀ (s u : State) (v : Nat), u = ((s.setO K.SLICE_TAG (bits v 95 80)).setO K.SLICE_RESULT 0).setO K.SLICE_STATE 2 →
    (bits v 7 0 = 1 → s.sliceAccept v [] = u.updSlice (bits v 18 8) (fun _ => createSlice v))
    ∧ (bits v 7 0 = 2 → s.sliceAccept v [] = ((u.closeBlock (bits v 18 8) false true).abandonFences
          (fun f => f.agent == agentSlice (bits v 18 8))).updSlice (bits v 18 8) (fun _ => {}))
    ∧ (bits v 7 0 = 6 → s.sliceAccept v [] = u.updSlice (bits v 18 8) (fun x => { x with state := .active })))
  ∧ (∀ (sl : SliceIx) (s u : State), s.hubHeld = false → u = s.settleSlice sl → (u.slice sl).state = .freezing → (u.slice sl).active = none →
    (u.slice sl).ending = [] → exec (.sliceFrozen sl) s = .next (u.updSlice sl (fun x => { x with state := .frozen, ctFrozen := s.ct })))
  ∧ (∀ (sl : SliceIx) (a : ActiveDesc) (s u : State), s.hubHeld = false → u = s.settleSlice sl → firstDone [] (u.slice sl).ending = some a →
    exec (.descriptorFinish sl) s = .next (u.finishDesc sl a))
  ∧ (∀ (sl : SliceIx) (l : List Byte) (q : Nat) (d : Desc) (s u : State), s.hubHeld = false → u = s.settleSlice sl → (u.slice sl).state = .active →
    (u.slice sl).active = none → (u.slice sl).resume = none → (u.slice sl).nextQueue = some q →
    (u.slice sl).pend.find? (fun d => d.queue == q) = some d → bit d.raw 8 = false → bit d.raw 10 = false →
    exec (.descriptorStart sl l) s
      = .next (((u.startDesc sl d l 0 0).2.updSlice sl (fun x => { x with pend := x.pend.filter (fun e => e.id ≠ d.id), turn := (q + 1) % 4, active := some (u.startDesc sl d l 0 0).1 })).settleSlice sl))
  ∧ (∀ (e : EngineIx) (sl def_ : Nat) (a : ActiveDesc) (s u w : State), s.hubHeld = false → (s.blk (552 + e)).contain = false →
    s.pickSlice e = some (sl, def_) → (s.slice sl).active = some a → KMap.get 0 s.mv.reads e + s.readsNeeded (s.slice sl) a ≤ 256 →
    u = s.noteRun e sl → u.chunkFault sl a = none →
    w = u.updSlice sl (fun x => { x with deficit := if a.issued + x.nextLen == a.total && x.pend.isEmpty then 0 else def_ - x.nextLen }) →
    exec (.chunkIssue e) s
      = .next ((({ w with mv := { w.mv with rr := KMap.set 0 w.mv.rr e sl } } : State).issueChunk sl a).settleSlice sl))
  ∧ (∀ (id : Nat) (st : MemStatus) (d : List Byte) (t : Txn) (s : State), s.txn? id = some t → t.purpose = .mover → s.hubHeld = false →
    exec (.chunkReadReturn id st d) s = .next (s.hubAnswer id st (leNat d)))
  ∧ (∀ (p : PortIx) (sl : SliceIx) (o : BitVec 12) (pa : Option (BitVec 20)) (k : Nat) (w : BitVec 128) (v : Word64) (d : List Byte) (s : State),
    s.hubHeld = false → s.linkUp (s.lead p) = true → s.o (K.ROLE (s.lead p)) = 1 →
    exec (.submit p sl o pa d) s
      = .next (s.pageWrite (s.lead p) 0 (s.o (K.AGENT (s.lead p))) sl o.toNat d.length (pa.map (·.toNat)) (leNat d))
    ∧ exec (.sliceFence p sl o k pa w) s
      = .next (s.pageWrite (s.lead p) 0 (s.o (K.AGENT (s.lead p))) sl o.toNat k (pa.map (·.toNat)) w.toNat)
    ∧ exec (.ringCons p sl o k pa v) s
      = .next (s.pageWrite (s.lead p) 0 (s.o (K.AGENT (s.lead p))) sl o.toNat k (pa.map (·.toNat)) v.toNat))
  ∧ (∀ (sess : SessRef) (c : BitVec 128) (s u w : State), s.accepts sess K.EVAC_CMD 16 c.toNat u → u.evacRefusal c.toNat = 0 →
    w = ((u.setO K.EVAC_RESULT 0).setO K.EVAC_TAG (bits c.toNat 47 32)).setO K.EVAC_DONE_EXTENTS 0 →
    exec (.evacCmd sess c) s
      = .next ((if (u.fab.extents.filter (fun x => x.target == bits c.toNat 5 0)).isEmpty then w.setO K.EVAC_STATE 2
          else ({ w with mv := { w.mv with evac := some { src := bits c.toNat 5 0, dst := bits c.toNat 13 8, engine := bits c.toNat 19 16 } } } : State).setO
            K.EVAC_STATE 1).emit .answer sess [0, 0]))
  ∧ (∀ (e : Evac) (s : State), s.mv.evac = some e → s.hubHeld = false → s.fab.extents.filter (fun x => x.target == e.src) = [] →
    exec .evacGranuleMove s = .next ((({ s with mv := { s.mv with evac := none } } : State).setO K.EVAC_STATE 2).releaseEvac))
  ∧ (∀ (e : Evac) (x : Extent) (t g since : Nat) (s u : State), s.mv.evac = some e → s.hubHeld = false → s.fab.extents.filter (fun x => x.target == e.src) ≠ [] →
    pickExtent (s.movable e.src) = some x → x.moveTo = some (t, g) → e.hold = some (x.tgtGib * 262144 + x.mark, since) →
    ((s.extentUsers x).any (fun id => decide (id < since)) = true → exec .evacGranuleMove s
      = .next { s with mv := { s.mv with evac := some e } })
    ∧ ((s.extentUsers x).any (fun id => decide (id < since)) = false → u = { s with mv := { s.mv with evac := some { e with hold := none } } } →
        x.mark + 1 < 262144 → exec .evacGranuleMove s
          = .next (((u.copyGranule e (e.src, x.tgtGib * gibBytes + x.mark * 4096) (t, g * gibBytes + x.mark * 4096)).setExtent
              { x with mark := x.mark + 1 }).releaseEvac))
    ∧ ((s.extentUsers x).any (fun id => decide (id < since)) = false → u = { s with mv := { s.mv with evac := some { e with hold := none } } } →
        262144 ≤ x.mark + 1 → exec .evacGranuleMove s
          = .next ((((u.copyGranule e (e.src, x.tgtGib * gibBytes + x.mark * 4096) (t, g * gibBytes + x.mark * 4096)).setExtent
              { x with target := t, tgtGib := g, moveTo := none, mark := 0 }).incO K.EVAC_DONE_EXTENTS).releaseEvac)))

/-- A request arrives: the checks in their order (R20, R40, R46, R51, R224). -/
def Obligations.RequestsCheckedInOrder : Prop :=
  (∀ (p : PortIx) (at_ q : Nat) (r : Req) (s u : State), u = s.advance at_ → q = u.lead p → u.gen.switched = none →
    ((u.tileHeld (tileOf q) = true ∨ u.carries q = false ∨ u.advertised q (creditClass r.op) < reserved r.pkt r.hdr) →
      exec (.requestArrival p at_ r) s = .next u)
    ∧ (u.tileHeld (tileOf q) = false → u.carries q = true → reserved r.pkt r.hdr ≤ u.advertised q (creditClass r.op) →
      exec (.requestArrival p at_ r) s = .next (((u.flitCheck q).freshTokens.takeCredits q r).requestIn q r)))
  ∧ (∀ (p : PortIx) (at_ x g : Nat) (r : Req) (s u : State), u = s.advance at_ → u.gen.switched = some (x, g) →
    x / Config.fclk = u.now / Config.fclk →
    exec (.requestArrival p at_ r) s = .next (u.under g (fun s =>
      if s.tileHeld (tileOf (s.lead p)) || !s.carries (s.lead p) || s.advertised (s.lead p) (creditClass r.op) < reserved r.pkt r.hdr then s
      else ((s.flitCheck (s.lead p)).freshTokens.takeCredits (s.lead p) r).requestIn (s.lead p) r)))
  ∧ (∀ (p : PortIx) (at_ x q g : Nat) (r : Req) (s u : State), u = s.advance at_ → q = u.lead p → u.gen.switched = some (x, g) →
    x / Config.fclk ≠ u.now / Config.fclk → u.tileHeld (tileOf q) = false → u.carries q = true →
    reserved r.pkt r.hdr ≤ u.advertised q (creditClass r.op) →
    exec (.requestArrival p at_ r) s = .next (((u.flitCheck q).freshTokens.takeCredits q r).requestIn q r))
  ∧ (∀ (q : Nat) (r : Req) (s w : State) (inj : Nat), s.injFire (4 * q + 2) 0 = (inj, w) → (r.parity = false ∨ inj ≠ 0) →
    s.requestIn q r = w.headerParity q r)
  ∧ (∀ (q : Nat) (r : Req) (s w : State), s.injFire (4 * q + 2) 0 = (0, w) → r.parity = true →
    (r.op = .completion → s.requestIn q r = w.completionArrival q r)
    ∧ (r.op = .viral → s.requestIn q r = w.viral q))
  ∧ (∀ (q n v : Nat) (c : Colour) (r : Req) (s w t : State) (x : Ingress), s.injFire (4 * q + 2) 0 = (0, w) → r.parity = true →
    r.op ≠ .completion → r.op ≠ .viral → w.police q (w.meteredBytes r.pkt) = (c, t) →
    (w.ingressOf q r = none → s.requestIn q r = Ingress.miss { p := q, n := 0xFF, v := 0xFF, host := false, colour := c, req := r } t)
    ∧ (w.ingressOf q r = some (n, v) → x = { p := q, n := n, v := v, host := w.o (K.ROLE q) == 1, colour := c, req := r } →
        (r.op = .config → s.requestIn q r = x.config t)
        ∧ (r.op = .message → s.requestIn q r = x.message t)
        ∧ (r.op ≠ .config → r.op ≠ .message → s.requestIn q r = x.steps t)))
  ∧ (∀ (p : Nat) (r : Req) (s : State), s.headerParity p r
      = (if opPosted r.op then s.raiseCore (4 * p + 2) 2 0x25 false { master := p, addr := some r.addr }
         else (s.raiseCore (4 * p + 2) 2 0x25 false { master := p, addr := some r.addr }).answer p r.tag r.rid 2 0))

/-- Drafts and generations: commit, confirm, roll back, publish (R33, R393, R492, R493, R495, R496). -/
def Obligations.GenerationsCommittedConfirmedRolledBack : Prop :=
  (∀ (sess : SessRef) (v : Byte) (s u w : State), s.accepts sess K.GEN_COMMIT 1 v.toNat u → u.o K.DRAFT_STATE = 1 → u.o K.DRAFT_OWNER = sess →
    u.o K.GEN_STATE = 0 → u.hubHeld = false → u.commitChecks u.gen.draft = (0, w) → guardsDiffer w.gen.active w.gen.draft = false →
    exec (.genCommit sess v) s
      = .next (((({ w with gen := { w.gen with committed := w.gen.draft, commitDue := true, readyTick := w.tm.ticks } } : State).dropDraft).setO
          K.GEN_STATE 2).emit .answer sess [0, 0]))
  ∧ (∀ (sess : SessRef) (v : Byte) (s u : State), s.accepts sess K.GEN_COMMIT 1 v.toNat u →
    (u.o K.DRAFT_STATE ≠ 1 → exec (.genCommit sess v) s = .next ((u.setO K.GEN_LAST_ABORT 0x0604).emit .answer sess [0x0604, 0]))
    ∧ (u.o K.DRAFT_STATE = 1 → u.o K.DRAFT_OWNER ≠ sess →
        exec (.genCommit sess v) s = .next ((u.setO K.GEN_LAST_ABORT 0x0603).emit .answer sess [0x0603, 0]))
    ∧ (u.o K.DRAFT_STATE = 1 → u.o K.DRAFT_OWNER = sess → u.o K.GEN_STATE ≠ 0 →
        exec (.genCommit sess v) s = .next ((u.setO K.GEN_LAST_ABORT 0x0602).emit .answer sess [0x0602, 0]))
    ∧ (u.o K.DRAFT_STATE = 1 → u.o K.DRAFT_OWNER = sess → u.o K.GEN_STATE = 0 → u.hubHeld = true →
        exec (.genCommit sess v) s = .next ((u.setO K.GEN_LAST_ABORT 0x0503).emit .answer sess [0x0503, 0])))
  ∧ (∀ (sess : SessRef) (v : Byte) (s u : State), s.accepts sess K.GEN_CONFIRM 1 v.toNat u → u.o K.GEN_STATE = 1 → u.now < u.gen.confirmAt →
    exec (.genConfirm sess v) s
      = .next ((({ u with gen := { u.gen with flash := u.gen.active, flashNum := u.o K.GEN_ACTIVE, flashPrev := u.gen.prev, flashPrevNum := u.o K.GEN_PREV, flashKept := u.o K.PREV_KEPT == 1 } } : State).setO K.GEN_STATE 0).emit .answer sess [0, 0]))
  ∧ (∀ (sess : SessRef) (v : Byte) (s u : State), s.accepts sess K.GEN_ROLLBACK 1 v.toNat u →
    (u.o K.GEN_STATE = 1 → u.gen.confirmAt ≤ u.now → exec (.genRollback sess v) s = .next (u.rollbackNow.emit .answer sess [0x0602, 0]))
    ∧ (u.o K.GEN_STATE ≠ 2 → (u.o K.GEN_STATE = 1 → u.now < u.gen.confirmAt) → u.o K.PREV_KEPT = 1 → exec (.genRollback sess v) s = .next (u.rollbackNow.emit .answer sess [0, 0]))
    ∧ (u.o K.GEN_STATE = 2 → exec (.genRollback sess v) s = .next (u.emit .answer sess [0x0602, 0]))
    ∧ (u.o K.GEN_STATE = 0 → u.o K.PREV_KEPT ≠ 1 → exec (.genRollback sess v) s = .next (u.emit .answer sess [0x0604, 0])))
  ∧ (∀ (sess : SessRef) (v : Byte) (s u : State), s.accepts sess K.DRAFT_DISCARD 1 v.toNat u → u.o K.DRAFT_STATE = 1 → u.o K.DRAFT_OWNER = sess →
    exec (.draftDiscard sess v) s
      = .next ((((({ u with gen := { u.gen with draft := [], staged := [] } } : State).setO K.DRAFT_STATE 0).setO K.DRAFT_OWNER 0).setO
          K.DRAFT_CHANGES 0).emit .answer sess [0, 0]))
  ∧ (∀ (s : State), s.o K.GEN_STATE = 1 → s.islandUp = true →
    exec .confirmTimerExpiry s = .next (s.advance s.gen.confirmAt).rollbackNow)
  ∧ (∀ (s : State), s.o K.DRAFT_STATE = 1 → s.islandUp = true →
    exec .draftIdleExpiry s = .next (s.advance (s.gen.draftAt + s.o K.DRAFT_IDLE * 1000 * Config.ms)).dropDraft)
  ∧ (∀ (s u : State), s.gen.commitDue = true → s.genHeld = false → u = (s.advance (s.itemAt 7)).publishCommit →
    exec .generationPublish s = .next ((if s.gd.genAt.isSome then u.publishEpoch else u).updCoreReady.updPortsReady))
  ∧ (∀ (s u : State), s.gen.commitDue = false → s.gen.rollbackDue = true → s.genHeld = false → u = (s.advance (s.itemAt 7)).publishRollback →
    exec .generationPublish s = .next ((if s.gd.genAt.isSome then u.publishEpoch else u).updCoreReady.updPortsReady))
  ∧ (∀ (s : State), s.genHeld = true → exec .generationPublish s = .next s)
  ∧ (∀ (s : State), s.genHeld = true ↔ (s.hubHeld = true ∨ s.tm.overrun = true ∨ s.itemRuns 7 = false ∨ s.tm.ticks ≤ s.gen.readyTick
      ∨ (s.gd.genAt.isSome = true ∧ s.nextEpochClear = false)))
  ∧ (∀ (s : State), s.hubHeld = false → s.tm.overrun = false → s.itemRuns 7 = true → s.dueNow s.gd.genAt = false → s.nextEpochClear = true →
    (s.dueNow s.gd.sliceAt = true ∨ s.dueNow s.gd.tagAt = true) →
    exec .guardEpochPublish s = .next (s.advance (s.itemAt 7)).publishEpoch)
  ∧ (∀ (s : State), s.publishEpoch.gd.epoch = (s.gd.epoch + 1) % 2 ^ 32 ∧ s.publishEpoch.gd.counts = s.gd.counts)
  ∧ (∀ (s : State), s.gen.commitDue = false → s.gen.rollbackDue = false → exec .generationPublish s = .next s)
  ∧ (∀ (s u w x : State), s.hubHeld = false → s.gen.published = false → s.st.recovery = false →
    u = [1, 2, 3, 4].foldl (fun (s : State) k => match (s.part k).active with
      | some i => if s.mayRun k i then s else s.fallBack k
      | none => s) s →
    w = (List.range 16).foldl (fun (s : State) w => if winOn s.gen.active w && s.o (K.STATE w) == 0 then s.setWinState w 1 else s)
      { u with gen := { u.gen with published := true } } →
    x = (List.range 96).foldl (fun (s : State) p => s.startTraining p) w →
    exec .dataPathImagesLoaded s = .next x.updCtState.updCoreReady.updPortsReady)

/-- Object writes by index, features, the tick boundary and register accesses (R6, R18, R30, R31, R34, R481, R487). -/
def Obligations.ObjectsAndRegistersAccessed : Prop :=
  (∀ (sess : SessRef) (ix : BitVec 16) (sub : Byte) (d : List Byte) (s u : State), s.sessionFor sess = .ready u →
    exec (.objectWrite sess ix sub d) s
      = .next ((((u.odPut sess (odKey ix.toNat sub.toNat) d).2.emit .answer sess
          [(u.odPut sess (odKey ix.toNat sub.toNat) d).1.abort, (u.odPut sess (odKey ix.toNat sub.toNat) d).1.detail]).odAfter
            (odKey ix.toNat sub.toNat) (u.odPut sess (odKey ix.toNat sub.toNat) d).1)))
  ∧ (∀ (sess : SessRef) (ix : BitVec 16) (sub : Byte) (d : List Byte) (s : State), s.sessionFor sess = .busy →
    exec (.objectWrite sess ix sub d) s = .next (s.emit .answer sess [0x0502, 0]))
  ∧ (∀ (sess : SessRef) (ix : BitVec 16) (sub : Byte) (d : List Byte) (s : State), s.sessionFor sess = .silent →
    exec (.objectWrite sess ix sub d) s = .next s)
  ∧ (∀ (sess : SessRef) (v : Word64) (s u : State), s.accepts sess K.FEAT_REQUEST 8 v.toNat u →
    exec (.featRequest sess v) s
      = .next ((u.updSess sess (fun x => { x with feat := Nat.lor 1 (Nat.land v.toNat (odDefault K.FEAT_DEVICE)) })).emit .answer sess [0, 0]))
  ∧ (∀ (b : Bool) (x : Option (Fin 8 × Nat)) (s : State), s.hubHeld = true → exec (.tickBoundary ⟨b, x⟩) s = .next s)
  ∧ (∀ (b : Bool) (x : Option (Fin 8 × Nat)) (s u : State), s.hubHeld = false →
    s.finishItems.countTick.passBoundary.endSlow.stateCheck b = (false, u) →
    exec (.tickBoundary ⟨b, x⟩) s
      = .next (({ u with tm := { u.tm with overrun := false, item := 0, slow := x.map (fun y => (y.1.val, y.2)) } } : State).drainBcast.settleRings.settleFlush.settleHeld.settleSwap))
  ∧ (∀ (b : Bool) (x : Option (Fin 8 × Nat)) (s u : State), s.hubHeld = false →
    s.finishItems.countTick.passBoundary.endSlow.stateCheck b = (true, u) → exec (.tickBoundary ⟨b, x⟩) s = .next u.tickOverrun)
  ∧ (∀ (s : State) (k : Nat) (f : State → Nat → Bool), s.tm.item + 1 = k → s.itemRuns k = true → f s k = true →
    State.publishItem f s k = { s.tickItem k with tm := { (s.tickItem k).tm with item := k } })
  ∧ (∀ (s : State), s.passBoundary.tm.ticks = s.tm.ticks + 1 ∧ s.passBoundary.tm.ctBase = (s.tm.ctBase + 1000) % 2 ^ 64
      ∧ s.passBoundary.tm.tickStart = s.tm.tickStart + s.tm.tickLen * Config.fclk ∧ s.passBoundary.tm.tickLen = (s.advance (s.tm.tickStart + s.tm.tickLen * Config.fclk)).nextTick.1)
  ∧ (∀ (c : CoreIx) (die : DieIx) (off : Word32) (n v : Nat) (s u : State), s.csrAllowed (.core c) die = true →
    s.csrGet (.core c) die off.toNat n = (v, u) →
    exec (.registerRead (.core c) die off n) s = .next (u.updCore c (fun x => { x with rd := v })))
  ∧ (∀ (sess : SessRef) (die : DieIx) (off : Word32) (n v : Nat) (s u : State), s.csrAllowed (.service sess) die = true →
    s.csrGet (.service sess) die off.toNat n = (v, u) →
    exec (.registerRead (.service sess) die off n) s = .next (u.emit .csr sess [die.val, off.toNat, v]))
  ∧ (∀ (via : CsrVia) (die : DieIx) (off v : Word32) (n : Nat) (s : State), s.csrOpen via die = true → csrMisaligned off.toNat n = false →
    exec (.registerWrite via die off n v) s = .next (s.csrPut via v.toNat (csrReg die off.toNat)))
  ∧ (∀ (via : CsrVia) (die : DieIx) (off v : Word32) (n : Nat) (s : State), s.csrAllowed via die = true → s.dieUp die = false →
    exec (.registerWrite via die off n v) s
      = .next (s.setBlk (csrBlock via) { (s.blk (csrBlock via)).heat 9 s.now with unreach := true }))
  ∧ (∀ (s : State) (key v j : Nat), (s.setO key v).o key = v ∧ (j ≠ key → (s.setO key v).o j = s.o j))

/-- The node address, CAN frames, segmented transfers, notifications (R466, R472, R473, R476, R479, R480, R509, R510). -/
def Obligations.CanFramesServed : Prop :=
  (∀ (a : BitVec 7) (n : Word64) (s u : State), s.islandUp = true → u = s.incO K.FRAMES_RX → u.onBus = true →
    exec (.addrClaim a n) s = .next (u.claimSeen a.toNat n.toNat))
  ∧ (∀ (d : List Byte) (s u : State), s.islandUp = true → u = s.incO K.FRAMES_RX → u.onBus = true → d.length = 12 → zeroAt d 9 3 = true →
    1 ≤ byteAt d 8 → byteAt d 8 ≤ 0x5F → u.o K.ADDR_MODE = 2 → leAt d 0 8 = u.life.fuses.serial →
    exec (.addrAssign d) s = .next (u.dropAddress.claim (byteAt d 8)))
  ∧ (∀ (s u : State), s.mg.phase = .listening → s.islandUp = true → u = s.advance s.mg.addrAt →
    exec .addrClaimTimerExpiry s
      = .next (({ u with mg := { u.mg with phase := .held, savedAddr := u.mg.candidate } } : State).setO K.NODE_ADDR u.mg.candidate))
  ∧ (∀ (s u : State), s.mg.phase = .retryWait → s.islandUp = true → u = s.advance s.mg.addrAt →
    exec .addrRetryExpiry s = .next (({ u with mg := { u.mg with contested := 0 } } : State).claim u.firstCandidate))
  ∧ (∀ (st : Fin 3) (tec rc : Byte) (s u : State), s.islandUp = true →
    u = ((s.setO K.CAN_STATE st.val).setO K.TEC tec.toNat).setO K.REC rc.toNat →
    (s.o K.CAN_STATE = st.val → exec (.canErrorStateChange st tec rc) s = .next u)
    ∧ (s.o K.CAN_STATE ≠ st.val → st.val = 0 → exec (.canErrorStateChange st tec rc) s = .next (u.causeEnds 610))
    ∧ (s.o K.CAN_STATE ≠ st.val → st.val = 1 → exec (.canErrorStateChange st tec rc) s = .next (u.raiseCore 610 1 1 true island))
    ∧ (s.o K.CAN_STATE ≠ st.val → st.val = 2 → exec (.canErrorStateChange st tec rc) s
        = .next ((((u.incO K.BUS_OFFS).raiseCore 610 2 2 true island).sessionsOn 1).foldl (fun (x : State) e => x.closeSession e.1)
            ((u.incO K.BUS_OFFS).raiseCore 610 2 2 true island))))
  ∧ (∀ (s u : State), s.islandUp = true → u = s.incO K.FRAMES_RX →
    exec (.illegalFuncFrame true) s = .next u
    ∧ exec (.illegalFuncFrame false) s = .next { u with mg := { u.mg with badFunc := u.mg.badFunc + 1 } })
  ∧ (∀ (src : BitVec 7) (txn : BitVec 6) (d : List Byte) (s u : State), (s.frameSeen src.toNat).sessionFor (sidCan src.toNat) = .ready u →
    (d.length = 8 → zeroAt d 3 5 = true → exec (.readReq src txn d) s = .next (u.canRead src.toNat txn.toNat (frameKey d)))
    ∧ (d.length ≠ 8 → exec (.readReq src txn d) s = .next (u.canAbort src.toNat txn.toNat (frameKey d) (odNo 0x0801)))
    ∧ (1 ≤ byteAt d 3 → byteAt d 3 ≤ 56 → zeroAt d 4 4 = true → canFits d (8 + byteAt d 3) = true →
        exec (.writeReq src txn d) s = .next (u.canWrite src.toNat txn.toNat (frameKey d) (bytesAt d 8 (byteAt d 3))))
    ∧ (byteAt d 3 = 0 → exec (.writeReq src txn d) s = .next (u.canAbort src.toNat txn.toNat (frameKey d) (odNo 0x0801)))
    ∧ (segInitOk d = true → bit (u.session (sidCan src.toNat)).feat 1 = true → u.seg? src.toNat = none → u.mg.seg.length < 4 →
        exec (.segInit src txn d) s = .next (if byteAt d 3 == 1 then u.segRead src.toNat txn.toNat (frameKey d)
          else u.segWrite src.toNat txn.toNat (frameKey d) (leAt d 4 4) (leAt d 8 4)))
    ∧ (d.length = 8 → byteAt d 3 = 0 → exec (.abortFrame src txn d) s = .next (u.setSeg src.toNat none)))
  ∧ (∀ (src : BitVec 7) (txn : BitVec 6) (d : List Byte) (x : Seg) (s u : State), (s.frameSeen src.toNat).sessionFor (sidCan src.toNat) = .ready u →
    u.seg? src.toNat = some x → x.txn = txn.toNat →
    (x.write = true → 1 ≤ byteAt d 2 → byteAt d 2 ≤ 60 → canFits d (4 + byteAt d 2) = true → byteAt d 3 = 0 → byteAt d 1 ≤ 1 →
        1 ≤ byteAt d 0 → byteAt d 0 ≤ 16 →
        exec (.segData src txn d) s = .next (u.segTake src.toNat x (byteAt d 0) (byteAt d 1 == 1) (bytesAt d 4 (byteAt d 2))))
    ∧ (x.write = false → d.length = 8 → zeroAt d 2 6 = true → byteAt d 1 ≤ 1 →
        exec (.segAck src txn d) s = .next (u.segAcked src.toNat x (byteAt d 0) (byteAt d 1))))
  ∧ (∀ (src : BitVec 7) (txn : BitVec 6) (d : List Byte) (s u : State), (s.frameSeen src.toNat).sessionFor (sidCan src.toNat) = .ready u →
    u.seg? src.toNat = none → exec (.segData src txn d) s = .next (u.canAbort src.toNat txn.toNat 0 (odNo 0x0704))
      ∧ exec (.segAck src txn d) s = .next (u.canAbort src.toNat txn.toNat 0 (odNo 0x0704)))
  ∧ (∀ (src : BitVec 7) (x : Seg) (s : State), s.seg? src.toNat = some x → s.canServes = true →
    (x.ackDue = true → exec (.segAckTimerExpiry src) s
      = .next (((s.advance (x.lastAt + 20 * Config.ms)).setSeg src.toNat (some { x with ackDue := false })).segAck src.toNat x.txn x.seq 0))
    ∧ exec (.segTimeout src) s = .next ((s.advance (x.lastAt + 100 * Config.ms)).segAbort src.toNat x 0x0703))
  ∧ (∀ (k : Fin 32) (r : OdRow) (x : Session) (v : Nat) (s u : State), odRow? (s.o (K.NTF_OBJECT k)) = some r →
    s.sess? (sidCan (s.o (K.NTF_DEST k))) = some x → s.sampled (s.o (K.NTF_OBJECT k)) r = some v → bit x.feat 2 = true →
    s.o (K.NTF_ON_CHANGE k) ≠ 1 → s.canServes = true →
    u = { s with mg := { s.mg with lastSent := KMap.set none s.mg.lastSent k (some v) } } →
    exec (.notifySample k) s
      = .next (u.canSend 4 (s.o (K.NTF_DEST k)) 0 (canData (keyBytes (s.o (K.NTF_OBJECT k)) ++ toBytes 1 r.type.bytes ++ toBytes 8 s.tm.snapCt
          ++ toBytes r.type.bytes v))))
  ∧ (∀ (sess : SessRef) (x : Session) (s : State), s.sess? sess = some x → (sidPath sess = 1 ∨ sidPath sess = 3) → s.islandUp = true →
    exec (.sessionIdleExpiry sess) s
      = .next ((s.advance (x.lastAt + s.o K.SESSION_IDLE * 1000 * Config.ms)).closeSession sess))

/-- Mailbox commands of a host and of the fabric manager (R240, R246, R247, R252, R270, R500, R501, R502, R503). -/
def Obligations.MailboxCommandsAnswered : Prop :=
  (∀ (h : HostIx) (s u : State), s.mboxTakes h u →
    exec (.identify h) s = .next (u.mbox h 0 [odDefault K.PCI_VENDOR, odDefault K.PCI_DEVICE, u.life.fuses.serial, 14])
    ∧ exec (.getResponseMessageLimit h) s = .next (u.mbox h 0 [u.respLimit h])
    ∧ exec (.getSupportedLogs h) s = .next (u.mbox h 0 [1, effectsLog, 4 * (u.mboxCommands h).length])
    ∧ (∀ n : Byte, 8 ≤ n.toNat → n.toNat ≤ 20 → exec (.setResponseMessageLimit h n) s
        = .next (({ u with mg := { u.mg with respLimit := KMap.set 14 u.mg.respLimit h (min n.toNat 14) } } : State).mbox h 0 [min n.toNat 14]))
    ∧ (∀ n : Byte, n.toNat < 8 → exec (.setResponseMessageLimit h n) s = .next (u.mbox h 2 []))
    ∧ (∀ (l : BitVec 128) (o n : Nat), l.toNat = effectsLog → 1 ≤ n → o + n ≤ (u.effectsBytes h).length → n ≤ 16384 →
        exec (.getLog h l o n) s = .next (({ u with freeIx := u.freeIx + (u.mboxCommands h).length } : State).mbox h 0
          ((bytesAt (u.effectsBytes h) o n).map (·.toNat))))
    ∧ (∀ op : BitVec 16, exec (.mailboxUnsupportedCommand h op) s = .next (u.mbox h 3 []))
    ∧ (∀ d : List Byte, exec (.odAccessRead h d) s = .next (u.odAccess h d) ∧ exec (.odAccessWrite h d) s = .next (u.odAccess h d)))
  ∧ (∀ (h : HostIx) (s u : State), s.fmTakes h u →
    exec (.identifySwitchDevice h) s = .next (u.mbox h 0 [96, 64, 49])
    ∧ exec (.getDcdInfo h) s = .next (u.mbox h 0 [64, 1, 512, 32768, u.extentsFree])
    ∧ exec (.setDcRegionConfiguration h) s = .next (u.mbox h 2 [])
    ∧ (∀ n : HostIx, exec (.getVirtualCxlSwitchInfo h n) s = .next (u.mbox h 0
        ([u.vcsState n, u.hostPorts n, u.cacheDevices n, u.capExtents n] ++ (List.range 32).map (u.bindingWord n))))
    ∧ (∀ n : HostIx, u.vcsExists n = true →
        exec (.getHostDcRegionConfiguration h n) s = .next (u.mbox h 0 [1, 0, 512 * gibBytes, gibBytes])
        ∧ ∀ l, l = u.fab.extents.filter (fun x => x.vcs == n.val && (x.state = .mapped || x.state = .releasing)) →
            exec (.getDcRegionExtentLists h n) s = .next (u.mbox h 0 (l.length :: l.flatMap (fun x => [x.dpa, x.tag]))))
    ∧ (∀ (n : HostIx) (v : Fin 49) (e : Word32), v.val < 32 → u.isVcsUp n = true →
        exec (.generateAerEvent h n v e) s
          = .next (((u.updVppb n v (fun b => { b with aer := Nat.lor b.aer e.toNat })).emit .aer n [v.val, e.toNat]).mbox h 0 [])))
  ∧ (∀ (h : HostIx) (p : PortIx) (s u : State), s.fmTakes h u →
    (u.dieUp (tileOf p) = true → exec (.getPhysicalPortState h p) s = .next (u.mbox h 0 (u.portInfo p)))
    ∧ (u.dieUp (tileOf p) = false → exec (.getPhysicalPortState h p) s = .next (u.mbox h 6 []))
    ∧ (∀ op : Byte, op.toNat = 2 → u.portBusy p = false → u.tileHeld (tileOf p) = false →
        exec (.physicalPortControl h p op) s = .next ((u.linkReset p).settleRings.mbox h 0 []))
    ∧ (∀ op : Byte, op.toNat ≠ 2 → exec (.physicalPortControl h p op) s = .next (u.mbox h 2 []))
    ∧ (∀ (r : BitVec 12) (d : Word32), u.o (K.ROLE p) = 2 → u.linkUp p = true →
        exec (.sendPpbCxlIoConfigRequest h p r true d) s
          = .next ((u.emit .card p [6, r.toNat, 1, d.toNat]).mbox h 0 [u.freeVal]).freeNext)
    ∧ (∀ (d : List Byte) (w : State), u.o (K.ROLE p) = 2 → (u.o (K.AGENT_KIND p) = 3 ∨ u.o (K.POOL p) = 1) → u.linkUp p = true →
        w = ((u.emit .card p (7 :: d.map (·.toNat))).mbox h 0 [u.freeVal]).freeNext →
        (w.o (K.AGENT_KIND p) ≠ 3 ∨ setsLds d = false → exec (.tunnelManagementCommand h p d) s = .next w)
        ∧ (w.o (K.AGENT_KIND p) = 3 → setsLds d = true → w.linkUp p = true → exec (.tunnelManagementCommand h p d) s = .next (w.ldsSet p)))
    ∧ (∀ d : List Byte, u.o (K.ROLE p) ≠ 2 → exec (.tunnelManagementCommand h p d) s = .next (u.mbox h 2 [])))
  ∧ (∀ (h : HostIx) (c : BitVec 64) (r : OdRow) (s u : State), s.fmTakes h u → odRow? K.BIND_CMD = some r →
    u.mayWrite (sidMailbox h) r K.BIND_CMD = true → u.lcPermits K.BIND_CMD c.toNat = true → u.bindRefusal c.toNat = 0 →
    (bits c.toNat 15 14 = 0 → exec (.bindVppb h c) s = .next ((u.bindAccept c.toNat).mbox h 0 []))
    ∧ (bits c.toNat 15 14 = 1 → exec (.unbindVppb h c) s = .next ((u.bindAccept c.toNat).mbox h 0 [])))
  ∧ (∀ (h : HostIx) (c : BitVec 128) (r : OdRow) (s u : State), s.fmTakes h u → odRow? K.EXTENT_CMD = some r →
    u.mayWrite (sidMailbox h) r K.EXTENT_CMD = true → u.lcPermits K.EXTENT_CMD c.toNat = true → u.extRefusal c.toNat = 0 →
    (bits c.toNat 7 6 = 0 → exec (.initiateDynamicCapacityAdd h c) s = .next ((u.extAccept c.toNat).mbox h 0 []))
    ∧ (bits c.toNat 7 6 ≠ 0 → exec (.initiateDynamicCapacityRelease h c) s = .next ((u.extAccept c.toNat).mbox h 0 [])))
  ∧ (∀ (h : HostIx) (s u : State), s.mboxTakes h u → u.c K.FM_HOST ≠ h →
    exec (.identifySwitchDevice h) s = .next (u.mbox h 3 []) ∧ exec (.getDcdInfo h) s = .next (u.mbox h 3 []))
  ∧ (∀ (h : HostIx) (s : State), s.mboxServes h = false → exec (.identify h) s = .next s ∧ exec (.identifySwitchDevice h) s = .next s)
  ∧ (∀ (h rc : Nat) (out : List Nat) (s : State), s.mbox h rc out
      = (if KMap.get false s.mg.doorbellInt h then (s.emit .mailbox h (rc :: out)).sendMsix h 63 else s.emit .mailbox h (rc :: out)))

/-- Service-port frames, sessions, object and CSR accesses, blobs (R16, R466, R504, R505, R506, R507, R529, R530). -/
def Obligations.ServicePortServed : Prop :=
  (∀ (f : SvcFrame) (s : State), s.svcServes = true → f.version = 1 → f.session.toNat = 0 → f.fits 0 = true →
    exec (.discover f) s = .next (s.emit .svc 0 [0, f.seq.toNat, 0x81, 0, s.life.fuses.serial, s.o K.NODE_ADDR, s.lcState])
    ∧ (4 ≤ (s.sessionsOn 3).length → exec (.openSession f) s = .next (s.emit .svc 0 [0, f.seq.toNat, 0x82, 0x0502]))
    ∧ (∀ u, (s.sessionsOn 3).length < 4 → u = s.openSession (sidSvc s.svcFresh) → exec (.openSession f) s
        = .next (({ u with mg := { u.mg with lastSvc := s.svcFresh } } : State).svcAnswer s.svcFresh f.seq.toNat 0x02 0)))
  ∧ (∀ (f : SvcFrame) (s : State), s.svcServes = true → f.version = 1 → f.session.toNat = 0 → f.fits 0 = false →
    exec (.discover f) s = .next (s.emit .svc 0 [0, f.seq.toNat, 0x81, 0x0801])
    ∧ exec (.openSession f) s = .next (s.emit .svc 0 [0, f.seq.toNat, 0x82, 0x0801]))
  ∧ (∀ (f : SvcFrame) (n : Nat) (s u : State), s.svcTakes f u → n = f.session.toNat →
    (∀ h p, f = h.frame p → f.fits 0 = true → exec (.closeSession h p) s = .next ((u.emit .svc 0 [n, f.seq.toNat, 0x83, 0]).closeSession (sidSvc n)))
    ∧ (∀ h p, f = h.frame p → f.fits 0 = false → exec (.closeSession h p) s = .next (u.svcAnswer n f.seq.toNat 0x03 0x0801))
    ∧ (∀ h ix sub rv off len (sz : Nat) (d : List Byte) (w : State), f = h.frame (toBytes 2 ix.toNat ++ [sub, rv] ++ toBytes 4 off.toNat ++ toBytes 4 len.toNat) →
        f.fits 12 = true → f.at_ 3 1 = 0 → 1 ≤ f.at_ 8 4 → f.at_ 8 4 ≤ 1468 →
        u.odReadPart (sidSvc n) f.key (f.at_ 4 4) (f.at_ 8 4) = (odOk, sz, d, w) →
        exec (.odRead h ix sub rv off len) s = .next (w.svcAnswer n f.seq.toNat 0x10 0 (sz :: d.length :: d.map (·.toNat))))
    ∧ (∀ h ix sub rv off len, f = h.frame (toBytes 2 ix.toNat ++ [sub, rv] ++ toBytes 4 off.toNat ++ toBytes 4 len.toNat) →
        1468 < f.at_ 8 4 ∨ f.fits 12 = false → exec (.odRead h ix sub rv off len) s = .next (u.svcAnswer n f.seq.toNat 0x10 0x0801))
    ∧ (∀ h ix sub rv off rest (a : OdAns) (w : State), f = h.frame (toBytes 2 ix.toNat ++ [sub, rv] ++ toBytes 4 off.toNat ++ rest) → f.fits (12 + f.at_ 8 4) = true → f.at_ 3 1 = 0 → f.at_ 8 4 ≠ 0 → odWriteForm f.key (f.at_ 4 4) (f.at_ 8 4) = true →
        u.odPut (sidSvc n) f.key (f.data.drop 12) = (a, w) →
        exec (.odWrite h ix sub rv off rest) s = .next ((w.svcAnswer n f.seq.toNat 0x11 a.abort).odAfter f.key a))
    ∧ (∀ h die rv off, f = h.frame ([die] ++ toBytes 3 rv.toNat ++ toBytes 4 off.toNat) → f.csrOk 8 = true →
        (u.csrAllowed (.service (sidSvc n)) (f.at_ 0 1) = true → exec (.csrRead h die rv off) s = .next ((u.csrGet (.service (sidSvc n)) (f.at_ 0 1) (f.at_ 4 4) 4).2.svcAnswer n f.seq.toNat 0x30 0
          [(u.csrGet (.service (sidSvc n)) (f.at_ 0 1) (f.at_ 4 4) 4).1]))
        ∧ (u.csrAllowed (.service (sidSvc n)) (f.at_ 0 1) = false → exec (.csrRead h die rv off) s = .next (u.svcAnswer n f.seq.toNat 0x30 0x0401)))
    ∧ (∀ h die rv off val, f = h.frame ([die] ++ toBytes 3 rv.toNat ++ toBytes 4 off.toNat ++ toBytes 4 val.toNat) → f.csrOk 12 = true →
        (u.csrAllowed (.service (sidSvc n)) (f.at_ 0 1) = true → exec (.csrWrite h die rv off val) s = .next ((u.csrSet (.service (sidSvc n)) (f.at_ 0 1) (f.at_ 4 4) 4 (f.at_ 8 4)).svcAnswer n f.seq.toNat 0x31 0))
        ∧ (u.csrAllowed (.service (sidSvc n)) (f.at_ 0 1) = false → exec (.csrWrite h die rv off val) s = .next (u.svcAnswer n f.seq.toNat 0x31 0x0401)))
    ∧ (∀ h p, f = h.frame p → ∀ op : Byte, exec (.servicePortBadOp h op p) s = .next (u.svcAnswer n f.seq.toNat op.toNat 0x0801)))
  ∧ (∀ (f : SvcFrame) (n : Nat) (s u : State), s.svcTakes f u → n = f.session.toNat →
    (∀ h kd rv tot c, f = h.frame ([kd] ++ toBytes 3 rv.toNat ++ toBytes 4 tot.toNat ++ toBytes 4 c.toNat) → f.fits 12 = true → f.at_ 1 3 = 0 →
      (u.blobBeginStatus n (f.at_ 0 1) (f.at_ 4 4) = 0 → exec (.blobBegin h kd rv tot c) s
      = .next (((if f.at_ 0 1 == 0 then u.setFwState 1 else u).setBlob n
          (some { kind := f.at_ 0 1, total := f.at_ 4 4, crc := f.at_ 8 4, lastAt := u.now })).svcAnswer n f.seq.toNat 0x20 0))
      ∧ (u.blobBeginStatus n (f.at_ 0 1) (f.at_ 4 4) ≠ 0 → exec (.blobBegin h kd rv tot c) s
      = .next (u.svcAnswer n f.seq.toNat 0x20 (u.blobBeginStatus n (f.at_ 0 1) (f.at_ 4 4)))))
    ∧ (∀ h off len dat (d : List Byte) (b : Blob), f = h.frame (toBytes 4 off.toNat ++ toBytes 4 len.toNat ++ dat) → f.fits (8 + f.at_ 4 2) = true → f.at_ 6 2 = 0 → d = f.data.drop 8 → d ≠ [] → u.blob? n = some b → b.kind ≠ 0 →
        (b.state = 1 → f.at_ 0 4 = b.data.length → f.at_ 0 4 + d.length ≤ b.total → exec (.blobData h off len dat) s
          = .next ((u.setBlob n (some { b with data := b.data ++ d, lastAt := u.now })).svcAnswer n f.seq.toNat 0x21 0))
        ∧ (f.at_ 0 4 ≠ b.data.length → exec (.blobData h off len dat) s = .next (u.svcAnswer n f.seq.toNat 0x21 0x0704)))
    ∧ (∀ h p (b : Blob), f = h.frame p → f.fits 0 = true → u.blob? n = some b → b.state = 1 →
        (b.data.length < b.total → exec (.blobEnd h p) s = .next ((u.dropBlob n).svcAnswer n f.seq.toNat 0x22 0x0702))
        ∧ (b.total ≤ b.data.length → crc32 b.data ≠ b.crc → exec (.blobEnd h p) s
            = .next ((u.dropBlob n).svcAnswer n f.seq.toNat 0x22 0x0705))
        ∧ (b.total ≤ b.data.length → crc32 b.data = b.crc → b.kind = 0 → exec (.blobEnd h p) s
            = .next ((u.setFwState 2).endImage n f.seq.toNat b))
        ∧ (b.total ≤ b.data.length → crc32 b.data = b.crc → b.kind ≠ 0 → exec (.blobEnd h p) s = .next (u.endMessage n f.seq.toNat b)))
    ∧ (∀ h p (b : Blob), f = h.frame p → f.fits 0 = true → u.blob? n = some b → exec (.blobStatus h p) s
        = .next (u.svcAnswer n f.seq.toNat 0x23 0 [b.state, b.reason, b.data.length]))
    ∧ (∀ h p, f = h.frame p → f.fits 0 = true → exec (.blobAbort h p) s = .next ((u.dropBlob n).svcAnswer n f.seq.toNat 0x24 0)))
  ∧ (∀ (sess : SessRef) (b : Blob) (s : State), sidPath sess = 3 → s.blob? (sidOf sess) = some b →
    exec (.blobIdleExpiry sess) s = .next ((s.advance (b.lastAt + 10000 * Config.ms)).dropBlob (sidOf sess)))
  ∧ (∀ (h : SvcHead) p ix sub rv off len rest die rv3 val kd tot c dat (x : Session) (s : State), s.svcServes = true → h.version = 1 →
    s.sess? (sidSvc h.session.toNat) = some x → h.seq.toNat = x.lastSeq →
    ∀ i ∈ [Instr.closeSession h p, .odRead h ix sub rv off len, .odWrite h ix sub rv off rest, .csrRead h die rv3 off, .csrWrite h die rv3 off val,
        .blobBegin h kd rv3 tot c, .blobData h off len dat, .blobEnd h p, .blobStatus h p, .blobAbort h p],
      exec i s = .next ((s.updSess (sidSvc h.session.toNat) (fun x => { x with lastAt := s.now })).emit .svc 0 (x.kept.getD [])))
  ∧ (∀ (h : SvcHead) (p : List Byte) (x : Session) (s : State), s.svcServes = true → h.version = 1 → s.sess? (sidSvc h.session.toNat) = some x →
    h.seq.toNat ≠ x.lastSeq → h.seq.toNat ≠ seqAfter x.lastSeq → exec (.closeSession h p) s = .next (s.emit .svc 0 [h.session.toNat, h.seq.toNat, 0x83, 0x0704]))
  ∧ (∀ (h : SvcHead) p ix sub rv off len rest die rv3 val kd tot c dat (s : State), s.svcServes = true →
    (h.version ≠ 1 ∨ s.sess? (sidSvc h.session.toNat) = none) →
    ∀ i ∈ [Instr.closeSession h p, .odRead h ix sub rv off len, .odWrite h ix sub rv off rest, .csrRead h die rv3 off, .csrWrite h die rv3 off val,
        .blobBegin h kd rv3 tot c, .blobData h off len dat, .blobEnd h p, .blobStatus h p, .blobAbort h p],
      exec i s = .next { s with mg := { s.mg with svcDiscard := s.mg.svcDiscard + 1 } })

/-- The governing region of a byte, and regions that deny (R375). -/
def Obligations.RegionsGovernBytes : Prop :=
  (∀ (rs : List Nat) (a k r : Nat), governing rs a = some (k, r) ↔
    (rs[k]? = some r ∧ (bit r 0 = true ∧ r / 2 ^ 64 ≤ a ∧ a < r / 2 ^ 64 + 2 ^ bits r 17 12)
      ∧ ∀ j q, j < k → rs[j]? = some q → ¬ (bit q 0 = true ∧ q / 2 ^ 64 ≤ a ∧ a < q / 2 ^ 64 + 2 ^ bits q 17 12)))
  ∧ (∀ (rs : List Nat) (a : Nat), governing rs a = none ↔
    ∀ r ∈ rs, ¬ (bit r 0 = true ∧ r / 2 ^ 64 ≤ a ∧ a < r / 2 ^ 64 + 2 ^ bits r 17 12))
  ∧ (∀ (u : GuardUnit) (n : Needs) (a len b k r : Nat) (extra : List Nat), governing u.regs b = some (k, r) → bit r 1 = false →
    bit r 2 = false → bit r 3 = false → (n.read || n.write || n.exec) = true → a ≤ b → b < a + max 1 len →
    (guardCheck u n a len extra).isSome = true)

/-- An access passes its guard exactly when every byte of it passes (R375, R376, R379, R385, R387, R389). -/
def Obligations.GuardCheckIsBytewise : Prop :=
  ∀ (u : GuardUnit) (n : Needs) (a len : Nat) (extra : List Nat),
    (∀ x y : Nat, x / 256 = y / 256 → u.tagAt x = u.tagAt y) →
    (∀ (g : Bool) (b : Nat), a ≤ b → b + 1 < a + max 1 len → b + 1 ∉ extra → u.prot g (b + 1) = u.prot g b) →
    (∀ b : Nat, a ≤ b → b + 1 < a + max 1 len → b + 1 ∉ extra → u.dflt n (b + 1) = u.dflt n b) →
    (guardCheck u n a len extra = none ↔
      ∀ b, a ≤ b → b < a + max 1 len →
        (governing u.regs b = none → u.prot false b = false ∧ u.priv = true ∧ u.dflt n b = true)
        ∧ (∀ k r, governing u.regs b = some (k, r) → u.prot true b = false
            ∧ (n.read = true → bit r 1 = true) ∧ (n.write = true → bit r 2 = true) ∧ (n.exec = true → bit r 3 = true)
            ∧ (n.user = true → bit r 6 = false) ∧ (bit r 7 = true → u.tagAt b = some (bits r 11 8))))

/-- Pointer mode of a directory entry (R85). -/
def Obligations.PointerModeNamesHosts : Prop :=
  (∀ (hs : List Nat) (st : DirState) (d : DirEntry) (brim fwd : Nat), 1 ≤ hs.length → hs.length ≤ 3 → hs.Nodup → (∀ h ∈ hs, h < 64) → st ≠ .i →
    bits (d.withHosts st hs brim fwd).hosts 5 0 = hs.headD 0
    ∧ bits (d.withHosts st hs brim fwd).hosts 11 6 = (hs[1]?).getD (hs.headD 0)
    ∧ bits (d.withHosts st hs brim fwd).hosts 17 12 = (hs[2]?).getD (hs.headD 0)
    ∧ (d.withHosts st hs brim fwd).hmode = 0 ∧ (d.withHosts st hs brim fwd).named = hs)
  ∧ (∀ (e : DirEntry), e.state ≠ .i → e.hmode = 0 →
    e.named.Nodup ∧ 1 ≤ e.named.length ∧ e.named.length ≤ 3
    ∧ ∀ h, h ∈ e.named ↔ h = bits e.hosts 5 0 ∨ h = bits e.hosts 11 6 ∨ h = bits e.hosts 17 12)
  ∧ (∀ (e : DirEntry), e.state ≠ .i → (e.named = [] ↔ e.hmode ≠ 0 ∧ e.hosts % 2 ^ 16 = 0))

/-- Hosts added to and removed from a directory entry (R88, R89). -/
def Obligations.HostsAddedAndRemoved : Prop :=
  (∀ (e : DirEntry) (h : Nat), e.hmode = 0 → h < 64 →
    (h ∈ e.ptrs → e.addHost h = e)
    ∧ (h ∉ e.ptrs → e.ptrs.length < 3 → (e.addHost h).ptrs = e.ptrs ++ [h]
        ∧ e.addHost h = { e with hosts := (e.addHost h).hosts })
    ∧ (h ∉ e.ptrs → 3 ≤ e.ptrs.length → (e.addHost h).state = .s ∧ (e.addHost h).hmode = 1 ∧ (e.addHost h).fwd = 0
        ∧ (e.addHost h).brim = e.brim ∧ ∀ g, bit (e.addHost h).hosts g = (e.ptrs ++ [h]).any (fun x => x / 4 == g)))
  ∧ (∀ (e : DirEntry) (h g : Nat), e.hmode = 1 → (e.addHost h).hmode = 1 ∧ bit (e.addHost h).hosts g = (bit e.hosts g || g == h / 4))
  ∧ (∀ (e : DirEntry) (h : Nat), e.hmode = 0 → (∃ x ∈ e.ptrs, x ≠ h) →
    (e.dropHost h).ptrs = e.ptrs.filter (· ≠ h) ∧ e.dropHost h = { e with hosts := (e.dropHost h).hosts })
  ∧ (∀ (e : DirEntry) (h : Nat), e.hmode = 0 → (∀ x ∈ e.ptrs, x = h) → e.brim ≠ 0 →
    e.dropHost h = { e with state := .s, hmode := 1, hosts := 0, fwd := 0 })
  ∧ (∀ (e : DirEntry) (h : Nat), e.hmode = 0 → (∀ x ∈ e.ptrs, x = h) → e.brim = 0 →
    (e.dropHost h).state = .i ∧ (e.dropHost h).hosts = 0 ∧ (e.dropHost h).poison = e.poison ∧ (e.dropHost h).epoch = e.epoch)

/-- Features of a session (R487). -/
def Obligations.SessionFeaturesIntersected : Prop :=
  (∀ (s : State) (sid : Nat), ((s.openSession sid).session sid).feat = 1)
  ∧ (∀ (sess : SessRef) (v : Word64) (s u : State), s.sessionFor sess = .ready u → (u.sess? sess).isSome = true →
    bit (u.session sess).feat 0 = true →
    exec (.featRequest sess v) s
      = .next ((u.updSess sess (fun x => { x with feat := Nat.lor (Nat.land v.toNat (odDefault K.FEAT_DEVICE)) 1 })).emit .answer sess [0, 0]))
  ∧ (∀ (sess : SessRef) (v : Nat) (u : State), (u.sess? sess).isSome = true →
    ((u.updSess sess (fun x => { x with feat := v })).session sess).feat = v)
  ∧ (∀ (sid : Nat) (s : State), bit (s.session sid).feat 0 = true →
    ∃ u, s.odGet sid K.FEAT_SESSION = .inr (toBytes 8 (s.session sid).feat, u))

/-- Accesses to registers other than aligned 32-bit ones (R6). -/
def Obligations.RegisterAccessesAligned : Prop :=
  (∀ (c : CoreIx) (die : DieIx) (off : Word32) (n : Nat) (s : State), s.csrOpen (.core c) die = true → (n ≠ 4 ∨ off.toNat % 4 ≠ 0) →
    exec (.registerRead (.core c) die off n) s
      = .next ((s.raiseCore (s.csrOwner die off.toNat) 1 0xF0 false { master := 0x70 + c.val, access := 0x0B, addr := some (die * 2 ^ 32 + off.toNat) }).updCore c
          (fun x => { x with rd := 2 ^ (8 * n) - 1 })))
  ∧ (∀ (sess : SessRef) (die : DieIx) (off : Word32) (n : Nat) (s : State), s.csrOpen (.service sess) die = true → (n ≠ 4 ∨ off.toNat % 4 ≠ 0) →
    exec (.registerRead (.service sess) die off n) s
      = .next ((s.raiseCore (s.csrOwner die off.toNat) 1 0xF0 false { master := 0x90, access := 0x0B, addr := some (die * 2 ^ 32 + off.toNat) }).emit
          .csr sess [die.val, off.toNat, 2 ^ (8 * n) - 1]))
  ∧ (∀ (via : CsrVia) (die : DieIx) (off v : Word32) (n : Nat) (s : State), s.csrOpen via die = true → (n ≠ 4 ∨ off.toNat % 4 ≠ 0) →
    exec (.registerWrite via die off n v) s
      = .next (s.raiseCore (s.csrOwner die off.toNat) 1 0xF0 false { master := csrMaster via, access := 0x0C, addr := some (die * 2 ^ 32 + off.toNat) }))

/-- Register accesses to a die that is held in reset (R18, R443). -/
def Obligations.UnreachableDiesReadAllOnes : Prop :=
  (∀ (c : CoreIx) (die : DieIx) (off : Word32) (n : Nat) (s : State), s.csrAllowed (.core c) die = true → s.dieUp die = false →
    exec (.registerRead (.core c) die off n) s
      = .next ((s.setBlk (568 + c.val) { (s.blk (568 + c.val)).heat 9 s.now with unreach := true }).updCore c (fun x => { x with rd := 2 ^ (8 * n) - 1 })))
  ∧ (∀ (sess : SessRef) (die : DieIx) (off : Word32) (n : Nat) (s : State), s.csrAllowed (.service sess) die = true → s.dieUp die = false →
    exec (.registerRead (.service sess) die off n) s
      = .next ((s.setBlk 611 { (s.blk 611).heat 9 s.now with unreach := true }).emit .csr sess [die.val, off.toNat, 2 ^ (8 * n) - 1]))

/-- What the boot ROM makes of LC_FUSE (R513). -/
def Obligations.BootRomReadsLifeCycleFuse : Prop :=
  (∀ (p n : Nat) (s : State), s.life.fuses.lc = p → (p, n) ∈ [(0x00, 0), (0x03, 1), (0x0F, 2), (0x3F, 3), (0xFF, 4)] → s.lcState = n)
  ∧ (∀ (p : Nat) (s : State), s.life.fuses.lc = p → p ∈ [0x00, 0x03, 0x0F, 0x3F, 0xFF] →
    s.romFuses = if (s.lcState == 3 || s.lcState == 4) && !s.life.eraseDone then s.erase.raiseCore 615 0 7 false island else s)
  ∧ (∀ (a b i : Nat) (s : State) (ga : BitVec 6),
    (a, b) ∈ [(0x00, 0x03), (0x03, 0x0F), (0x03, 0x3F), (0x0F, 0x3F), (0x00, 0xFF), (0x03, 0xFF), (0x0F, 0xFF), (0x3F, 0xFF)] →
    s.st.porHeld = true → s.life.fuses.lc ∉ [0x00, 0x03, 0x0F, 0x3F, 0xFF] →
    (∀ j, bit a j = true → bit s.life.fuses.lc j = true) → (∀ j, bit s.life.fuses.lc j = true → bit b j = true) →
    (∀ j, bit b j = true → bit a j = false → (bit s.life.fuses.lc j = true ↔ i ≤ j)) →
    exec (.powerOnResetRelease ga) s
      = exec (.powerOnResetRelease ga) { s with life := { s.life with fuses := { s.life.fuses with lc := b } } })
  ∧ (∀ (s : State), s.life.fuses.lc ∉ [0x00, 0x03, 0x0F, 0x3F, 0xFF] →
    (∀ a b i, (a, b) ∈ [(0x00, 0x03), (0x03, 0x0F), (0x03, 0x3F), (0x0F, 0x3F), (0x00, 0xFF), (0x03, 0xFF), (0x0F, 0xFF), (0x3F, 0xFF)] →
      ¬ ((∀ j, bit a j = true → bit s.life.fuses.lc j = true) ∧ (∀ j, bit s.life.fuses.lc j = true → bit b j = true)
        ∧ (∀ j, bit b j = true → bit a j = false → (bit s.life.fuses.lc j = true ↔ i ≤ j)))) →
    s.lcState = 4 ∧ s.romFuses
      = if s.life.eraseDone then s.raiseCore 615 3 3 false island else (s.raiseCore 615 3 3 false island).erase.raiseCore 615 0 7 false island)

/-- Return codes of aborts on the fabric-manager path (R503). -/
def Obligations.ManagerAbortsMapped : Prop :=
  (∀ (a : OdAns), a.abort ≠ 0 → abortRc a = if a.abort = 0x0502 ∨ a.abort = 0x0503 then 6 else 2)
  ∧ (∀ (h : HostIx) (c : BitVec 64) (r : OdRow) (s u w : State) (a : OdAns), s.fmTakes h u → odRow? K.BIND_CMD = some r →
    u.mayWrite (sidMailbox h) r K.BIND_CMD = true → ownBindCmd c.toNat u = (a, w) → a.abort ≠ 0 →
    (bits c.toNat 15 14 = 0 → exec (.bindVppb h c) s = .next (w.mbox h (if a.abort = 0x0502 ∨ a.abort = 0x0503 then 6 else 2) []))
    ∧ (bits c.toNat 15 14 = 1 → exec (.unbindVppb h c) s = .next (w.mbox h (if a.abort = 0x0502 ∨ a.abort = 0x0503 then 6 else 2) [])))
  ∧ (∀ (h : HostIx) (c : BitVec 128) (r : OdRow) (s u w : State) (a : OdAns), s.fmTakes h u → odRow? K.EXTENT_CMD = some r →
    u.mayWrite (sidMailbox h) r K.EXTENT_CMD = true → ownExtentCmd c.toNat u = (a, w) → a.abort ≠ 0 →
    (bits c.toNat 7 6 = 0 →
      exec (.initiateDynamicCapacityAdd h c) s = .next (w.mbox h (if a.abort = 0x0502 ∨ a.abort = 0x0503 then 6 else 2) []))
    ∧ (bits c.toNat 7 6 ≠ 0 →
      exec (.initiateDynamicCapacityRelease h c) s = .next (w.mbox h (if a.abort = 0x0502 ∨ a.abort = 0x0503 then 6 else 2) [])))
  ∧ (∀ (h : HostIx) (c : BitVec 64) (r : OdRow) (s u : State), s.fmTakes h u → odRow? K.BIND_CMD = some r →
    u.mayWrite (sidMailbox h) r K.BIND_CMD = false →
    (bits c.toNat 15 14 = 0 → exec (.bindVppb h c) s = .next (u.mbox h 2 []))
    ∧ (bits c.toNat 15 14 = 1 → exec (.unbindVppb h c) s = .next (u.mbox h 2 [])))

/-- The checks of an object access, in their order (R481). -/
def Obligations.ObjectChecksOrdered : Prop :=
  (∀ (sess : SessRef) (ix : BitVec 16) (sub : Byte) (d : List Byte) (k : Nat) (s u : State), s.sessionFor sess = .ready u → k = odKey ix.toNat sub.toNat →
    (odRow? k = none → exec (.objectWrite sess ix sub d) s = .next (u.emit .answer sess [0x0101, 0])))
  ∧ (∀ (sess : SessRef) (ix : BitVec 16) (sub : Byte) (d : List Byte) (k v : Nat) (r : OdRow) (s u : State),
    s.sessionFor sess = .ready u → k = odKey ix.toNat sub.toNat → v = leNat d → odRow? k = some r →
    (bit (u.session sess).feat (featBit ix.toNat) = false ∨ r.access = .ro ∨ u.mayWrite sess r k = false ∨ u.lcPermits k v = false
      ∨ r.type.lengthOk d.length = false ∨ r.check.clean v = false
      ∨ r.check.holds r.type.bytes v = false ∨ (r.type = .bool ∧ 1 < v)) →
    exec (.objectWrite sess ix sub d) s
      = .next (u.emit .answer sess
          [if bit (u.session sess).feat (featBit ix.toNat) = false then 0x0101
           else if r.access = .ro then 0x0201
           else if u.mayWrite sess r k = false then 0x0401
           else if u.lcPermits k v = false then 0x0402
           else if r.type.lengthOk d.length = false then 0x0301
           else if r.check.clean v = false then 0x0303
           else 0x0302, 0]))
  ∧ (∀ (sess : SessRef) (ix : BitVec 16) (sub : Byte) (d : List Byte) (k : Nat) (s u : State),
    k = odKey ix.toNat sub.toNat → s.accepts sess k d.length (leNat d) u → (odOwn sess k d u).1.abort ≠ 0 ∨ (k ≠ K.RESET_HUB ∧ k ≠ K.RESET_HK) →
    exec (.objectWrite sess ix sub d) s
      = .next ((odOwn sess k d u).2.emit .answer sess [(odOwn sess k d u).1.abort, (odOwn sess k d u).1.detail]))
  ∧ (∀ (sid ix sub : Nat) (s : State), sub < 256 → odRow? (odKey ix sub) = none → s.odGet sid (odKey ix sub) = .inl (odNo 0x0101))
  ∧ (∀ (sid ix sub : Nat) (r : OdRow) (s : State), sub < 256 → odRow? (odKey ix sub) = some r →
    (bit (s.session sid).feat (featBit ix) = false ∨ s.mayRead sid (odKey ix sub) = false) →
    s.odGet sid (odKey ix sub) = .inl (odNo (if bit (s.session sid).feat (featBit ix) = false then 0x0101 else 0x0401)))

/-- Access codes of objects: plain, write-only and staged ones (R9, R492). -/
def Obligations.AccessCodesAct : Prop :=
  (∀ (s : State) (sid key : Nat) (r : OdRow), r.access = .wo → s.odValue sid r key = 0)
  ∧ (∀ (s : State) (sid key : Nat) (r : OdRow), r.access = .rws → r.home ≠ .event → perSession key = false →
    ((s.session sid).draftView = false ∨ s.o K.DRAFT_STATE ≠ 1 → s.odValue sid r key = s.c key)
    ∧ ((s.session sid).draftView = true → s.o K.DRAFT_STATE = 1 → s.odValue sid r key = cfgOf s.gen.draft key))
  ∧ (∀ (s : State) (sid key v j : Nat), (s.stage sid key v).2.gen.active = s.gen.active ∧ (s.stage sid key v).2.c j = s.c j)
  ∧ (∀ (s : State) (sid key v : Nat), s.o K.DRAFT_STATE = 1 → s.o K.DRAFT_OWNER ≠ sid → s.stage sid key v = (odNo 0x0603, s))
  ∧ (∀ (s : State) (sid key v j : Nat), s.o K.DRAFT_STATE ≠ 1 →
    (s.stage sid key v).1 = odOk ∧ (s.stage sid key v).2.o K.DRAFT_STATE = 1 ∧ (s.stage sid key v).2.o K.DRAFT_OWNER = sid
    ∧ cfgOf (s.stage sid key v).2.gen.draft key = v
    ∧ (j ≠ key → cfgOf (s.stage sid key v).2.gen.draft j = cfgOf (if s.gen.commitDue then s.gen.committed else s.gen.active) j))
  ∧ (∀ (s : State) (sid key v j : Nat), s.o K.DRAFT_STATE = 1 → s.o K.DRAFT_OWNER = sid →
    (s.stage sid key v).1 = odOk ∧ cfgOf (s.stage sid key v).2.gen.draft key = v
    ∧ (j ≠ key → cfgOf (s.stage sid key v).2.gen.draft j = cfgOf s.gen.draft j))
  ∧ (∀ (s : State) (key v : Nat), (s.ownPlain key v).1 = odOk ∧ (s.ownPlain key v).2.o key = v)

/-- What a raise does to its event block (R444, R445, R447, R450, R452, R456). -/
def Obligations.RaisesRecorded : Prop :=
  (∀ (s : State) (n cls code F C E : Nat) (lasting : Bool) (src : Src) (b b0 t : EvtBlock), blockReserved n = false → b = s.blk n → b0 = b.unclear s.now →
    t = (s.raiseCore n cls code lasting src).blk n → F = packFer s n cls code src → C = s.ceiling n (max b.cls cls) → E = s.c (K.ESC_TICKS n) →
    t.pending = true ∧ t.count = min (b.count + 1) 0xFFFFFFFF ∧ t.lastSyn = code
    ∧ (cls = 0 → t.cls = b.cls ∧ t.cause = b.cause ∧ t.step = b.step ∧ t.timer = b.timer ∧ t.fer = b.fer ∧ t.ferValid = b.ferValid ∧ t.more = b.more)
    ∧ (1 ≤ cls → t.cls = max b0.cls cls ∧ t.ferValid = true ∧ 1 ≤ t.step
        ∧ (b0.ferValid = false → t.fer = F ∧ t.more = b0.more)
        ∧ (b0.ferValid = true → t.more = true ∧ t.fer = if bits b0.fer 145 144 < cls
            ∨ (cls = bits b0.fer 145 144 ∧ b0.isHot 10 s.now = true ∧ bits F 167 160 < bits b0.fer 167 160) then F else b0.fer)
        ∧ (b0.cls < cls → t.cause = lasting) ∧ (cls < b0.cls → t.cause = b0.cause) ∧ (cls = b0.cls → t.cause = (b0.cause || lasting)))
    ∧ (cls = 3 → t.step = max b0.step 3 ∧ t.timer = none)
    ∧ (cls = 1 ∨ cls = 2 → b0.requal = false → t.step = max b0.step 1
        ∧ (b0.timer = none → t.timer = if 1 < C ∧ t.step < C then some E else none)
        ∧ (∀ x, b0.timer = some x → 1 < C → t.step < C → t.timer = if b0.cls < cls then some E else some x))
    ∧ (cls = 1 ∨ cls = 2 → b0.requal = true → t.step = 1 ∧ t.requal = false ∧ t.timer = if 1 < C then some E else none))
  ∧ (∀ (b : EvtBlock) (l : Lifted) (now : Nat),
    (b.lifted = none → b.unclear now = b)
    ∧ (b.lifted = some l → sameCycle b.clearedAt now = false → b.unclear now = { b with lifted := none })
    ∧ (b.lifted = some l → sameCycle b.clearedAt now = true → (b.unclear now).cls = l.cls ∧ (b.unclear now).step = l.step
        ∧ (b.unclear now).cause = l.cause ∧ (b.unclear now).contain = l.contain ∧ (b.unclear now).isolate = l.isolate
        ∧ (b.unclear now).timer = l.timer ∧ (b.unclear now).ferValid = l.ferValid ∧ (b.unclear now).clrRefused = true ∧ (b.unclear now).requal = false))
  ∧ (∀ (s : State) (n cls code j : Nat) (lasting : Bool) (src : Src), j ≠ n → (s.raiseCore n cls code lasting src).blk j = s.blk j)
  ∧ (∀ (s : State) (n cls code : Nat) (lasting : Bool) (src : Src), blockReserved n = true → s.raiseCore n cls code lasting src = s)

/-- Generation numbers and values at a publication (R494, R496). -/
def Obligations.GenerationNumbersRise : Prop :=
  (∀ (s : State), s.publishCommit.gen.active = s.gen.committed ∧ s.publishCommit.gen.prev = s.gen.active
    ∧ s.publishCommit.gen.commitDue = false ∧ s.publishCommit.o K.GEN_ACTIVE = s.o K.GEN_ACTIVE + 1
    ∧ s.publishCommit.o K.GEN_PREV = s.o K.GEN_ACTIVE ∧ s.publishCommit.o K.PREV_KEPT = 1 ∧ s.publishCommit.o K.GEN_STATE = 1)
  ∧ (∀ (s : State), s.publishRollback.gen.active = s.gen.prev ∧ s.publishRollback.gen.rollbackDue = false
    ∧ s.publishRollback.gen.flash = s.gen.prev ∧ s.publishRollback.o K.GEN_ACTIVE = s.o K.GEN_ACTIVE + 1
    ∧ s.publishRollback.o K.GEN_PREV = 0 ∧ s.publishRollback.o K.PREV_KEPT = 0 ∧ s.publishRollback.o K.GEN_STATE = 0)

/-- LC_FUSE holds one of its five patterns after every step (R513, R515). -/
def Obligations.LifeCyclePatternStaysLegal : Prop :=
  ∀ s t : State, s.lcLegal → Sys2Proof.Machine.step s = .next t → t.lcLegal

/-- Fuses gain and never lose (R515, R520, R528, R539, R545). -/
def Obligations.FusesOnlyGain : Prop :=
  ∀ s t : State, Sys2Proof.Machine.step s = .next t →
    (∀ i, bit s.life.fuses.lc i = true → bit t.life.fuses.lc i = true) ∧ t.life.fuses.serial = s.life.fuses.serial
    ∧ t.life.fuses.vroot0 = s.life.fuses.vroot0 ∧ (s.life.fuses.vroot1.isSome = true → t.life.fuses.vroot1.isSome = true)
    ∧ (s.life.fuses.revoked0 = true → t.life.fuses.revoked0 = true) ∧ (s.life.fuses.devPub.isSome = true → t.life.fuses.devPub = s.life.fuses.devPub)
    ∧ s.life.fuses.trees ≤ t.life.fuses.trees ∧ ∀ k, s.svFuse k ≤ t.svFuse k

/-- Time never runs back (R4). -/
def Obligations.TimeRunsForward : Prop :=
  ∀ s t : State, Sys2Proof.Machine.step s = .next t → s.now ≤ t.now

/-- A command acts on everything but the queue of waiting commands (R1 (00 Scope), log entry 7). -/
def Obligations.CommandsLeaveTheQueue : Prop :=
  ∀ (i : Instr) (s t : State), exec i s = .next t → t.pending = s.pending

/-- Every command of the table has an effect in every state (R1 (00 Scope), log entry 7). -/
def Obligations.EveryCommandAnswers : Prop :=
  ∀ (i : Instr) (s : State), ∃ t, exec i s = .next t

/-- The machine right after reset (R5, R444, R474, R547). -/
def Obligations.ResetStateGivenValues : Prop :=
  State.reset.st.porHeld = true ∧ State.reset.pending = [] ∧ State.reset.canonical = true ∧ State.reset.lcLegal
  ∧ (∀ k, State.reset.o k = odDefault k) ∧ (∀ k, State.reset.c k = odDefault k) ∧ (∀ n, State.reset.blk n = {}) ∧ (∀ sid, State.reset.sess? sid = none)
  ∧ Memory.wf State.reset.ord.sram

/-- A step with an empty queue (R4, R31, R32, log entry 8). -/
def Obligations.IdleCyclePasses : Prop :=
  (∀ s : State, s.pending = [] → Sys2Proof.Machine.step s = .next ({ s with now := s.now + Config.fclk } : State).runItems)
  ∧ (∀ s : State, s.hubHeld = true ∨ s.tm.overrun = true ∨ (∀ k ∈ [1, 2, 3, 4, 5, 6], s.itemDue k = false) → s.runItems = s)
  ∧ (∀ s : State, s.hubHeld = false → s.tm.overrun = false → s.runItems = [1, 2, 3, 4, 5, 6].foldl (State.publishItem State.itemDue) s)
end

