-- ==== Sys2Proof/Laws/Sparse.lean ====
section
/-!
SUPPORT. Sparse data and the cluster SRAM: what a write changes, and that every operation keeps the canonical form.
-/
namespace Sys2Proof.Machine

theorem kmap_get_erase {α : Type} (d : α) (m : KMap α) (k j : Nat) :
    KMap.get d (m.erase k) j = if j = k then d else KMap.get d m j := by
  induction m with
  | nil => simp [KMap.erase, KMap.get]
  | cons e m ih =>
    obtain ⟨i, v⟩ := e
    simp only [KMap.erase]
    by_cases hi : i = k
    · rw [if_pos hi, ih]
      by_cases hj : j = k
      · simp [hj]
      · rw [if_neg hj, if_neg hj, KMap.get, if_neg (by omega)]
    · rw [if_neg hi, KMap.get, KMap.get, ih]
      by_cases hj : j = k
      · subst hj; simp [hi]
      · simp [hj]

theorem kmap_get_insert {α : Type} (d : α) (m : KMap α) (k j : Nat) (v : α) :
    KMap.get d (m.insert k v) j = if j = k then v else KMap.get d m j := by
  induction m with
  | nil => simp [KMap.insert, KMap.get, eq_comm]
  | cons e m ih =>
    obtain ⟨i, w⟩ := e
    simp only [KMap.insert]
    split
    · simp only [KMap.get, eq_comm (a := k)]
    · split
      · subst i; simp only [KMap.get, eq_comm (a := k)]; split <;> simp_all
      · simp only [KMap.get, ih]; split <;> split <;> simp_all

/-- A read after a write. -/
theorem kmap_get_set {α : Type} [DecidableEq α] (d : α) (m : KMap α) (k j : Nat) (v : α) :
    KMap.get d (KMap.set d m k v) j = if j = k then v else KMap.get d m j := by
  unfold KMap.set
  split
  · rename_i h; subst h; exact kmap_get_erase _ m k j
  · exact kmap_get_insert _ m k j v

@[simp] theorem kmap_get_set_same {α : Type} [DecidableEq α] (d : α) (m : KMap α) (k : Nat) (v : α) :
    KMap.get d (KMap.set d m k v) k = v := by rw [kmap_get_set, if_pos rfl]

theorem kmap_get_set_other {α : Type} [DecidableEq α] (d : α) (m : KMap α) {k j : Nat} (v : α) (h : j ≠ k) :
    KMap.get d (KMap.set d m k v) j = KMap.get d m j := by rw [kmap_get_set, if_neg h]

/-! ### The canonical form -/

/-- Keys strictly rising above a bound, as a proposition. -/
def KMap.Above {α : Type} : Option Nat → KMap α → Prop
  | _, [] => True
  | lo, (j, _) :: m => (∀ l, lo = some l → l < j) ∧ KMap.Above (some j) m

theorem risesFrom_iff {α : Type} (lo : Option Nat) (m : KMap α) : KMap.risesFrom lo m = true ↔ KMap.Above lo m := by
  induction m generalizing lo with
  | nil => simp [KMap.risesFrom, KMap.Above]
  | cons e m ih =>
    obtain ⟨j, v⟩ := e
    cases lo <;> simp [KMap.risesFrom, KMap.Above, ih]

theorem above_weaken {α : Type} {m : KMap α} {l k : Nat} (h : KMap.Above (some l) m) (hk : k ≤ l) : KMap.Above (some k) m := by
  cases m with
  | nil => trivial
  | cons e m =>
    obtain ⟨j, v⟩ := e
    exact ⟨fun i hi => by cases hi; exact Nat.lt_of_le_of_lt hk (h.1 l rfl), h.2⟩

theorem above_none {α : Type} {m : KMap α} {l : Nat} (h : KMap.Above (some l) m) : KMap.Above none m := by
  cases m with
  | nil => trivial
  | cons e m => exact ⟨fun i hi => by simp at hi, h.2⟩

theorem above_erase {α : Type} (lo : Option Nat) (m : KMap α) (k : Nat) (h : KMap.Above lo m) : KMap.Above lo (m.erase k) := by
  induction m generalizing lo with
  | nil => trivial
  | cons e m ih =>
    obtain ⟨j, v⟩ := e
    simp only [KMap.erase]
    split
    · refine ih lo ?_
      cases lo with
      | none => exact above_none h.2
      | some l => exact above_weaken h.2 (Nat.le_of_lt (h.1 l rfl))
    · exact ⟨h.1, ih _ h.2⟩

theorem above_insert {α : Type} (lo : Option Nat) (m : KMap α) (k : Nat) (v : α) (h : KMap.Above lo m)
    (hk : ∀ l, lo = some l → l < k) : KMap.Above lo (m.insert k v) := by
  induction m generalizing lo with
  | nil => exact ⟨hk, trivial⟩
  | cons e m ih =>
    obtain ⟨j, w⟩ := e
    simp only [KMap.insert]
    split
    · rename_i hj
      exact ⟨hk, fun i hi => by cases hi; exact hj, h.2⟩
    · split
      · rename_i hj; subst hj; exact ⟨hk, h.2⟩
      · exact ⟨h.1, ih _ h.2 (fun i hi => by cases hi; omega)⟩

/-- Setting a value keeps the canonical form. -/
theorem kmap_wf_set {α : Type} [DecidableEq α] (d : α) (m : KMap α) (k : Nat) (v : α) (h : KMap.wf (fun _ => d) m = true) :
    KMap.wf (fun _ => d) (KMap.set d m k v) = true := by
  have he : ∀ m : KMap α, (∀ e ∈ m, e.2 ≠ d) → ∀ e ∈ m.erase k, e.2 ≠ d := by
    intro m
    induction m with
    | nil => simp [KMap.erase]
    | cons e m ih =>
      intro hm
      simp only [KMap.erase]
      split
      · exact ih (fun e he => hm e (List.mem_cons_of_mem _ he))
      · intro x hx
        rcases List.mem_cons.1 hx with rfl | hx
        · exact hm _ List.mem_cons_self
        · exact ih (fun e he => hm e (List.mem_cons_of_mem _ he)) x hx
  have hi : ∀ m : KMap α, v ≠ d → (∀ e ∈ m, e.2 ≠ d) → ∀ e ∈ m.insert k v, e.2 ≠ d := by
    intro m hv
    induction m with
    | nil => intro _ x hx; simp only [KMap.insert, List.mem_singleton] at hx; subst hx; exact hv
    | cons e m ih =>
      intro hm
      simp only [KMap.insert]
      split
      · intro x hx
        rcases List.mem_cons.1 hx with rfl | hx
        · exact hv
        · exact hm x hx
      · split
        · intro x hx
          rcases List.mem_cons.1 hx with rfl | hx
          · exact hv
          · exact hm x (List.mem_cons_of_mem _ hx)
        · intro x hx
          rcases List.mem_cons.1 hx with rfl | hx
          · exact hm _ List.mem_cons_self
          · exact ih (fun e he => hm e (List.mem_cons_of_mem _ he)) x hx
  simp only [KMap.wf, Bool.and_eq_true, risesFrom_iff, List.all_eq_true, decide_eq_true_eq] at h ⊢
  unfold KMap.set
  split
  · exact ⟨above_erase _ _ _ h.1, he m h.2⟩
  · rename_i hv
    exact ⟨above_insert _ _ _ _ h.1 (fun l hl => by simp at hl), hi m hv h.2⟩

/-! ### The cluster SRAM -/

@[simp] theorem memory_byte_setByte_same (m : List Host.Cell) (a : Nat) (v : BitVec 8) : Memory.byte (Memory.setByte m a v) a = v :=
  kmap_get_set_same _ _ _ _

theorem memory_byte_setByte_other (m : List Host.Cell) {a b : Nat} (v : BitVec 8) (h : b ≠ a) :
    Memory.byte (Memory.setByte m a v) b = Memory.byte m b := kmap_get_set_other _ _ _ h

theorem memory_wf_setByte (m : List Host.Cell) (a : Nat) (v : BitVec 8) (h : Memory.wf m) : Memory.wf (Memory.setByte m a v) :=
  kmap_wf_set _ _ _ _ h

/-- A write keeps the canonical form. -/
theorem memory_wf_write (m : List Host.Cell) (a n v : Nat) (h : Memory.wf m) : Memory.wf (Memory.write m a n v) := by
  induction n generalizing m a v with
  | zero => exact h
  | succ n ih => exact ih _ _ _ (memory_wf_setByte _ _ _ h)

/-- A write leaves every byte outside its range alone. -/
theorem memory_byte_write_outside (m : List Host.Cell) (a n v b : Nat) (h : b < a ∨ a + n ≤ b) :
    Memory.byte (Memory.write m a n v) b = Memory.byte m b := by
  induction n generalizing m a v with
  | zero => rfl
  | succ n ih =>
    rw [Memory.write, ih _ _ _ (by omega), memory_byte_setByte_other _ _ (by omega)]

/-- A read of what was written. -/
theorem memory_read_write (m : List Host.Cell) (a n v : Nat) : Memory.read (Memory.write m a n v) a n = v % 256 ^ n := by
  have hb : ∀ (m : List Host.Cell) (a n v : Nat), Memory.byte (Memory.write m a (n + 1) v) a = BitVec.ofNat 8 v := by
    intro m a n v
    rw [Memory.write, memory_byte_write_outside _ _ _ _ _ (by omega), memory_byte_setByte_same]
  induction n generalizing m a v with
  | zero => simp [Memory.read, Nat.mod_one]
  | succ n ih =>
    rw [Memory.read, hb, Memory.write, ih, BitVec.toNat_ofNat,
      show 256 ^ (n + 1) = 256 * 256 ^ n from Nat.pow_succ', Nat.mod_mul]

theorem reset_sram_wf : Memory.wf State.reset.ord.sram := rfl

end Sys2Proof.Machine
end

