-- ==== Sys2Proof/Laws/Active.lean ====
section
/-!
SUPPORT. What a publication brings about leaves the contents in force (R494, R496).
-/
namespace Sys2Proof.Machine

/-- Contents of the generation in force. -/
def State.act (s : State) : KMap Nat := s.gen.active

@[simp] theorem act_mk (a b c d e f g h i j k l m n o p q r u v) :
    State.act ⟨a, b, c, d, e, f, g, h, i, j, k, l, m, n, o, p, q, r, u, v⟩ = g.active := rfl

@[simp] theorem act_fold (s : State) : s.gen.active = s.act := rfl

@[simp] theorem act_ite (c : Prop) [Decidable c] (a b : State) : (if c then a else b).act = if c then a.act else b.act :=
  apply_ite _ _ _ _

theorem act_of_eq {α : Type} {x : α × State} {a : α} {t : State} (h : x = (a, t)) : t.act = x.2.act := by rw [h]

@[simp] theorem foldl_act {α : Type} (g : State → α → State) (h : ∀ s a, (g s a).act = s.act) (l : List α) (s : State) :
    (l.foldl g s).act = s.act := by
  induction l generalizing s with
  | nil => rfl
  | cons a l ih => exact (ih _).trans (h _ _)

@[simp] theorem setO_act (s : State) (key v : Nat) :
    (State.setO s key v).act = s.act := by
  simp [State.setO]

@[simp] theorem addO_act (s : State) (key n : Nat) :
    (State.addO s key n).act = s.act := by
  simp [State.addO]

@[simp] theorem incO_act (s : State) (key : Nat) :
    (State.incO s key).act = s.act := by
  simp [State.incO]

@[simp] theorem emit_act (s : State) (k : OutKind) (dst : Nat) (args : List Nat) :
    (State.emit s k dst args).act = s.act := by
  simp [State.emit]

@[simp] theorem setBlk_act (s : State) (n : Nat) (b : EvtBlock) :
    (State.setBlk s n b).act = s.act := by
  simp [State.setBlk]

@[simp] theorem raiseCore_act (s : State) (n cls code : Nat) (lasting : Bool) (src : Src) :
    (State.raiseCore s n cls code lasting src).act = s.act := by
  simp [State.raiseCore]

@[simp] theorem noteRef_act (s : State) :
    (State.noteRef s).act = s.act := by
  simp [State.noteRef]

@[simp] theorem updCtState_act (s : State) :
    (State.updCtState s).act = s.act := by
  simp [State.updCtState]

@[simp] theorem updPort_act (s : State) (p : Nat) (f : Port → Port) :
    (State.updPort s p f).act = s.act := by
  simp [State.updPort]

@[simp] theorem updSlot_act (s : State) (n : Nat) (f : Slot → Slot) :
    (State.updSlot s n f).act = s.act := by
  simp [State.updSlot]

@[simp] theorem updVppb_act (s : State) (n v : Nat) (f : Vppb → Vppb) :
    (State.updVppb s n v f).act = s.act := by
  simp [State.updVppb]

@[simp] theorem updCore_act (s : State) (c : Nat) (f : SvcCore → SvcCore) :
    (State.updCore s c f).act = s.act := by
  simp [State.updCore]

@[simp] theorem gepochCount_act (s : State) (e : Nat) (up : Bool) :
    (State.gepochCount s e up).act = s.act := by
  simp [State.gepochCount]

@[simp] theorem updSlice_act (s : State) (n : Nat) (f : Slice → Slice) :
    (State.updSlice s n f).act = s.act := by
  simp [State.updSlice]

@[simp] theorem noteError_act (s : State) (agent port : Nat) :
    (State.noteError s agent port).act = s.act := by
  simp [State.noteError]

@[simp] theorem mapFences_act (s : State) (g : Fence → Fence) :
    (State.mapFences s g).act = s.act := by
  simp [State.mapFences]

@[simp] theorem endFeed_act (s : State) (ok : Bool) (port id : Nat) :
    (State.endFeed s ok port id).act = s.act := by
  unfold State.endFeed
  (repeat' split) <;> simp

@[simp] theorem saveEnded_act (s : State) (id : Nat) (ok : Bool) :
    (State.saveEnded s id ok).act = s.act := by
  unfold State.saveEnded
  (repeat' split) <;> simp

@[simp] theorem endTxn_act (s : State) (id : Nat) (ok : Bool) (reason : Nat) :
    (State.endTxn s id ok reason).act = s.act := by
  unfold State.endTxn
  (repeat' split) <;> simp

@[simp] theorem answer_act (s : State) (p tag rid status data : Nat) :
    (State.answer s p tag rid status data).act = s.act := by
  simp [State.answer]

@[simp] theorem partEnded_act (s : State) (t : Txn) (ok : Bool) (data : Nat) :
    (State.partEnded s t ok data).act = s.act := by
  unfold State.partEnded
  (repeat' split) <;> simp

@[simp] theorem loseTxn_act (s : State) (id : Nat) (silent : Bool) :
    (State.loseTxn s id silent).act = s.act := by
  unfold State.loseTxn
  (repeat' split) <;> simp

@[simp] theorem updSdir_act (s : State) (sm d : Nat) (f : SeamDir → SeamDir) :
    (State.updSdir s sm d f).act = s.act := by
  simp [State.updSdir]

@[simp] theorem poolLeave_act (s : State) (sm d pool : Nat) :
    (State.poolLeave s sm d pool).act = s.act := by
  simp [State.poolLeave]

@[simp] theorem freeLanding_act (s : State) (p : Nat) :
    (State.freeLanding s p).act = s.act := by
  simp [State.freeLanding]

@[simp] theorem flushEgress_act (s : State) (p : Nat) :
    (State.flushEgress s p).act = s.act := by
  simp [State.flushEgress]

@[simp] theorem abandonFences_act (s : State) (f : Fence → Bool) :
    (State.abandonFences s f).act = s.act := by
  simp [State.abandonFences]

@[simp] theorem updWin_act (s : State) (w : Nat) (f : Window → Window) :
    (State.updWin s w f).act = s.act := by
  simp [State.updWin]

@[simp] theorem loseTags_act (s : State) (hit : Nat → Bool) :
    (State.loseTags s hit).act = s.act := by
  simp [State.loseTags]

@[simp] theorem dropWindowTags_act (s : State) (w : Nat) :
    (State.dropWindowTags s w).act = s.act := by
  simp [State.dropWindowTags]

@[simp] theorem setWinState_act (s : State) (w st : Nat) :
    (State.setWinState s w st).act = s.act := by
  simp [State.setWinState]

@[simp] theorem failFreeze_act (s : State) (w : Nat) :
    (State.failFreeze s w).act = s.act := by
  simp [State.failFreeze]

@[simp] theorem failEvac_act (s : State) (m : Nat) :
    (State.failEvac s m).act = s.act := by
  unfold State.failEvac
  (repeat' split) <;> simp

@[simp] theorem loseTarget_act (s : State) (m : Nat) :
    (State.loseTarget s m).act = s.act := by
  simp [State.loseTarget]

@[simp] theorem imageGone_act (s : State) :
    (State.imageGone s).act = s.act := by
  simp [State.imageGone]

@[simp] theorem closeSession_act (s : State) (sid : Nat) :
    (State.closeSession s sid).act = s.act := by
  unfold State.closeSession
  (repeat' split) <;> simp

@[simp] theorem mapExtents_act (s : State) (n dpa count : Nat) (g : Extent → Option Extent) :
    (State.mapExtents s n dpa count g).act = s.act := by
  simp [State.mapExtents]

@[simp] theorem dropOffered_act (s : State) (o : ExtentOp) :
    (State.dropOffered s o).act = s.act := by
  simp [State.dropOffered]

@[simp] theorem extEnd_act (s : State) (st : Nat) :
    (State.extEnd s st).act = s.act := by
  simp [State.extEnd]

@[simp] theorem addLost_act (s : State) (n : Nat) :
    (State.addLost s n).act = s.act := by
  unfold State.addLost
  (repeat' split) <;> simp

@[simp] theorem vcsDown_act (s : State) (n : Nat) :
    (State.vcsDown s n).act = s.act := by
  simp only [State.vcsDown]
  (repeat' (first | (simp [*]; done) | split | (with_reducible refine (foldl_act _ (fun s a => ?_) _ _).trans ?_) | (rename_i h; have h' := act_of_eq h; simp at h'; simp [h']; done) | simp [*]))

@[simp] theorem departHost_act (s : State) (n : Nat) :
    (State.departHost s n).act = s.act := by
  simp [State.departHost]

@[simp] theorem setLanes_act (s : State) (ls : List Nat) (st : Nat) :
    (State.setLanes s ls st).act = s.act := by
  simp [State.setLanes]

@[simp] theorem idleLanes_act (s : State) (p : Nat) :
    (State.idleLanes s p).act = s.act := by
  simp [State.idleLanes]

@[simp] theorem endEye_act (s : State) (q status : Nat) :
    (State.endEye s q status).act = s.act := by
  unfold State.endEye
  (repeat' split) <;> simp

@[simp] theorem endEyes_act (s : State) (p status : Nat) :
    (State.endEyes s p status).act = s.act := by
  simp [State.endEyes]

@[simp] theorem linkDown_act (s : State) (p ltssm : Nat) :
    (State.linkDown s p ltssm).act = s.act := by
  simp [State.linkDown]

@[simp] theorem endForPort_act (s : State) (p : Nat) (silent : Bool) :
    (State.endForPort s p silent).act = s.act := by
  simp [State.endForPort]

@[simp] theorem vppbsLinkDown_act (s : State) (p : Nat) (surprise : Bool) :
    (State.vppbsLinkDown s p surprise).act = s.act := by
  simp [State.vppbsLinkDown]

@[simp] theorem portDown_act (s : State) (p : Nat) (why : DownWhy) :
    (State.portDown s p why).act = s.act := by
  unfold State.portDown
  (repeat' split) <;> simp

@[simp] theorem enterFulling_act (s : State) (cause : Nat) :
    (State.enterFulling s cause).act = s.act := by
  simp [State.enterFulling]

@[simp] theorem beginTraining_act (s : State) (p : Nat) :
    (State.beginTraining s p).act = s.act := by
  simp [State.beginTraining]

@[simp] theorem startTraining_act (s : State) (p : Nat) :
    (State.startTraining s p).act = s.act := by
  simp [State.startTraining]

@[simp] theorem limitPublished_act (s : State) (n : Nat) :
    (State.limitPublished s n).act = s.act := by
  simp [State.limitPublished]

@[simp] theorem regrade_act (s : State) :
    (State.regrade s).act = s.act := by
  simp [State.regrade]

@[simp] theorem setShaper_act (s : State) (pr : Nat) (x : Shaper) :
    (State.setShaper s pr x).act = s.act := by
  simp [State.setShaper]

@[simp] theorem setPolicer_act (s : State) (p : Nat) (x : Policer) :
    (State.setPolicer s p x).act = s.act := by
  simp [State.setPolicer]

@[simp] theorem showDepartures_act (s : State) :
    (State.showDepartures s).act = s.act := by
  simp [State.showDepartures]

@[simp] theorem sendPowerLimit_act (s : State) (p : Nat) :
    (State.sendPowerLimit s p).act = s.act := by
  simp [State.sendPowerLimit]

@[simp] theorem beforeSwitch_act (s : State) (new : KMap Nat) :
    (State.beforeSwitch s new).act = s.act := by
  simp [State.beforeSwitch]

@[simp] theorem noDepartures_act (s : State) (w : Nat) :
    (State.noDepartures s w).act = s.act := by
  simp [State.noDepartures]

@[simp] theorem switchWindow_act (s : State) (old : KMap Nat) (w : Nat) :
    (State.switchWindow s old w).act = s.act := by
  simp [State.switchWindow]

@[simp] theorem switchTags_act (s : State) (old : KMap Nat) (m : Nat) :
    (State.switchTags s old m).act = s.act := by
  simp [State.switchTags]

@[simp] theorem afterSwitch_act (s : State) (old : KMap Nat) :
    (State.afterSwitch s old).act = s.act := by
  unfold State.afterSwitch
  extract_lets new ch s1 s2 s3 s4 s5 s6 s7 s8 s9
  have h1 : s1.act = s.act := foldl_act _ (fun s a => switchWindow_act _ _ _) _ _
  have h2 : s2.act = s1.act := by simp only [s2]; split <;> simp
  have h3 : s3.act = s2.act := foldl_act _ (fun s a => by (try dsimp only); split <;> rfl) _ _
  have h4 : s4.act = s3.act := foldl_act _ (fun s a => by (try dsimp only); split <;> rfl) _ _
  have h5 : s5.act = s4.act := foldl_act _ (fun s a => by (try dsimp only); split <;> simp) _ _
  have h6 : s6.act = s5.act := by simp only [s6]; split <;> simp
  have h7 : s7.act = s6.act := foldl_act _ (fun s a => switchTags_act _ _ _) _ _
  have h8 : s8.act = s7.act := foldl_act _ (fun s a => by (try dsimp only); split <;> simp) _ _
  have h9 : s9.act = s8.act := foldl_act _ (fun s a => startTraining_act _ _) _ _
  exact (updCtState_act _).trans (h9.trans (h8.trans (h7.trans (h6.trans (h5.trans (h4.trans (h3.trans (h2.trans h1))))))))

/-- A generation that becomes active is the one in force. -/
theorem switchTo_active (s : State) (new : KMap Nat) : (s.switchTo new).gen.active = new := by
  show (s.switchTo new).act = new
  unfold State.switchTo
  simp

end Sys2Proof.Machine
end

