-- ==== Sys2Proof/Laws/Held.lean ====
section
/-!
SUPPORT. What an operation leaves of the queue, the fuses and the time.
-/
namespace Sys2Proof.Machine
/-- What few operations touch: the queue, the fuses, the time. -/
def State.held (s : State) : List Instr × Fuses × Nat := (s.pending, s.life.fuses, s.now)

@[simp] theorem held_mk (a b c d e f g h i j k l m n o p q r u v) :
    State.held ⟨a, b, c, d, e, f, g, h, i, j, k, l, m, n, o, p, q, r, u, v⟩ = (v, h.fuses, a) := rfl

@[simp] theorem held_fold (s : State) : (s.pending, s.life.fuses, s.now) = s.held := rfl

@[simp] theorem held_ite (c : Prop) [Decidable c] (a b : State) : (if c then a else b).held = if c then a.held else b.held :=
  apply_ite _ _ _ _

theorem held_of_eq {α : Type} {x : α × State} {a : α} {t : State} (h : x = (a, t)) : t.held = x.2.held := by rw [h]

@[simp] theorem foldl_held {α : Type} (g : State → α → State) (h : ∀ s a, (g s a).held = s.held) (l : List α) (s : State) :
    (l.foldl g s).held = s.held := by
  induction l generalizing s with
  | nil => rfl
  | cons a l ih => exact (ih _).trans (h _ _)

/-- Fuses only ever gain: bits of LC_FUSE, the roots, the revocation, the device key, the trees, the security versions; the
serial number stays. -/
structure Fuses.Grew (a b : Fuses) : Prop where
  serial   : b.serial = a.serial
  lc       : Nat.land a.lc b.lc = a.lc
  legal    : a.lc ∈ [0, 3, 15, 63, 255] → b.lc ∈ [0, 3, 15, 63, 255]
  vroot0   : b.vroot0 = a.vroot0
  vroot1   : a.vroot1.isSome → b.vroot1.isSome
  revoked0 : a.revoked0 → b.revoked0
  devPub   : a.devPub.isSome → b.devPub = a.devPub
  seedRead : b.seedRead → a.seedRead
  trees    : a.trees ≤ b.trees
  sv       : ∀ k, KMap.get 0 a.sv k ≤ KMap.get 0 b.sv k

theorem Fuses.Grew.refl (a : Fuses) : a.Grew a :=
  ⟨rfl, Nat.and_self _, id, rfl, id, id, fun _ => rfl, id, Nat.le_refl _, fun _ => Nat.le_refl _⟩

theorem land_trans {a b c : Nat} (h : Nat.land a b = a) (k : Nat.land b c = b) : Nat.land a c = a := by
  have h : a &&& b = a := h
  have k : b &&& c = b := k
  show a &&& c = a
  rw [← h, Nat.and_assoc, k]

theorem Fuses.Grew.trans {a b c : Fuses} (h : a.Grew b) (k : b.Grew c) : a.Grew c where
  serial := k.serial.trans h.serial
  lc := land_trans h.lc k.lc
  legal := fun x => k.legal (h.legal x)
  vroot0 := k.vroot0.trans h.vroot0
  vroot1 := fun x => k.vroot1 (h.vroot1 x)
  revoked0 := fun x => k.revoked0 (h.revoked0 x)
  devPub := fun x => (k.devPub (by rw [h.devPub x]; exact x)).trans (h.devPub x)
  seedRead := fun x => h.seedRead (k.seedRead x)
  trees := Nat.le_trans h.trees k.trees
  sv := fun i => Nat.le_trans (h.sv i) (k.sv i)

/-- What every operation does to the queue, the fuses and the time: the queue stays, fuses only gain, time does not go
back. -/
structure State.Onward (s t : State) : Prop where
  pending : t.pending = s.pending
  fuses   : s.life.fuses.Grew t.life.fuses
  now     : s.now ≤ t.now

theorem State.Onward.refl (s : State) : s.Onward s := ⟨rfl, .refl _, Nat.le_refl _⟩
theorem State.Onward.trans {s t u : State} (h : s.Onward t) (k : t.Onward u) : s.Onward u :=
  ⟨k.pending.trans h.pending, h.fuses.trans k.fuses, Nat.le_trans h.now k.now⟩
theorem State.Onward.of_held {s t : State} (h : t.held = s.held) : s.Onward t := by
  simp only [State.held, Prod.mk.injEq] at h
  exact ⟨h.1, h.2.1 ▸ .refl _, Nat.le_of_eq h.2.2.symm⟩

/-- `Onward` over what `held` gives. -/
def HeldOnward (a b : List Instr × Fuses × Nat) : Prop := b.1 = a.1 ∧ a.2.1.Grew b.2.1 ∧ a.2.2 ≤ b.2.2

theorem onward_iff (s t : State) : s.Onward t ↔ HeldOnward s.held t.held :=
  ⟨fun h => ⟨h.pending, h.fuses, h.now⟩, fun h => ⟨h.1, h.2.1, h.2.2⟩⟩

@[simp] theorem heldOnward_refl (a : List Instr × Fuses × Nat) : HeldOnward a a := ⟨rfl, .refl _, Nat.le_refl _⟩

theorem heldOnward_foldl {α : Type} (g : State → α → State) (h : ∀ s a, (g s a).held = s.held) (l : List α) (s : State)
    (x : List Instr × Fuses × Nat) (hx : HeldOnward x s.held) : HeldOnward x (l.foldl g s).held := by
  rw [foldl_held g h]; exact hx

theorem pw_held (s : State) (x : Power) : ({ s with pw := x } : State).held = s.held := rfl
theorem tm_held (s : State) (x : TimeSt) : ({ s with tm := x } : State).held = s.held := rfl
theorem gd_held (s : State) (x : Guard) : ({ s with gd := x } : State).held = s.held := rfl

theorem heldOnward_of {s t : State} {x} (h : s.Onward t) (e : x = t.held) : HeldOnward s.held x := by
  rw [e]; exact (onward_iff _ _).1 h

end Sys2Proof.Machine
end

