-- ==== Sys2Proof/Laws/Ops.lean ====
section
/-!
SUPPORT. What the operations of Machine/Ops.lean do to the queue, the fuses and the time.
-/
namespace Sys2Proof.Machine

theorem advance_onward (s : State) (t : Nat) : s.Onward (s.advance t) := by
  unfold State.advance
  split
  · exact ⟨rfl, .refl _, by show s.now ≤ t; omega⟩
  · exact .refl _

@[simp] theorem heldOnward_advance (s : State) (t : Nat) : HeldOnward s.held (s.advance t).held :=
  (onward_iff _ _).1 (advance_onward s t)

@[simp] theorem setO_held (s : State) (key v : Nat) :
    (State.setO s key v).held = s.held := by
  simp [State.setO]

@[simp] theorem addO_held (s : State) (key n : Nat) :
    (State.addO s key n).held = s.held := by
  simp [State.addO]

@[simp] theorem incO_held (s : State) (key : Nat) :
    (State.incO s key).held = s.held := by
  simp [State.incO]

@[simp] theorem maxO_held (s : State) (key v : Nat) :
    (State.maxO s key v).held = s.held := by
  simp [State.maxO]

@[simp] theorem under_held (s : State) (n : Nat) (f : State → State) (h_f : ∀ s_, (f s_).held = s_.held) :
    (State.under s n f).held = s.held := by
  simp [State.under, *]

@[simp] theorem setCsr_held (s : State) (die off v : Nat) :
    (State.setCsr s die off v).held = s.held := by
  simp [State.setCsr]

@[simp] theorem emit_held (s : State) (k : OutKind) (dst : Nat) (args : List Nat) :
    (State.emit s k dst args).held = s.held := by
  simp [State.emit]

@[simp] theorem freeNext_held (s : State) :
    (State.freeNext s).held = s.held := by
  simp [State.freeNext]

@[simp] theorem decoded_held (s : State) (f : State → State) (h_f : ∀ s_, (f s_).held = s_.held) :
    (State.decoded s f).held = s.held := by
  unfold State.decoded
  (repeat' split) <;> simp [*]

@[simp] theorem updStrand_held (s : State) (sm d k : Nat) (f : Strand → Strand) :
    (State.updStrand s sm d k f).held = s.held := by
  simp [State.updStrand]

@[simp] theorem setBlk_held (s : State) (n : Nat) (b : EvtBlock) :
    (State.setBlk s n b).held = s.held := by
  simp [State.setBlk]

@[simp] theorem raiseCore_held (s : State) (n cls code : Nat) (lasting : Bool) (src : Src) :
    (State.raiseCore s n cls code lasting src).held = s.held := by
  simp [State.raiseCore]

@[simp] theorem causeEnds_held (s : State) (n : Nat) :
    (State.causeEnds s n).held = s.held := by
  simp [State.causeEnds]

@[simp] theorem noteRef_held (s : State) :
    (State.noteRef s).held = s.held := by
  simp [State.noteRef]

@[simp] theorem updCtState_held (s : State) :
    (State.updCtState s).held = s.held := by
  simp [State.updCtState]

@[simp] theorem injFire_held (s : State) (n chk : Nat) :
    (State.injFire s n chk).2.held = s.held := by
  simp only [State.injFire]
  (repeat' split) <;> simp [*]

@[simp] theorem updPort_held (s : State) (p : Nat) (f : Port → Port) :
    (State.updPort s p f).held = s.held := by
  simp [State.updPort]

@[simp] theorem updSlot_held (s : State) (n : Nat) (f : Slot → Slot) :
    (State.updSlot s n f).held = s.held := by
  simp [State.updSlot]

@[simp] theorem updVppb_held (s : State) (n v : Nat) (f : Vppb → Vppb) :
    (State.updVppb s n v f).held = s.held := by
  simp [State.updVppb]

@[simp] theorem updSess_held (s : State) (sid : Nat) (f : Session → Session) :
    (State.updSess s sid f).held = s.held := by
  simp [State.updSess]

end Sys2Proof.Machine
end

