-- ==== Sys2Proof/Laws/PortDown.lean ====
section
/-!
SUPPORT. What the operations of Machine/PortDown.lean do to the queue, the fuses and the time.
-/
namespace Sys2Proof.Machine

@[simp] theorem updCore_held (s : State) (c : Nat) (f : SvcCore → SvcCore) :
    (State.updCore s c f).held = s.held := by
  simp [State.updCore]

@[simp] theorem gepochCount_held (s : State) (e : Nat) (up : Bool) :
    (State.gepochCount s e up).held = s.held := by
  simp [State.gepochCount]

@[simp] theorem updSlice_held (s : State) (n : Nat) (f : Slice → Slice) :
    (State.updSlice s n f).held = s.held := by
  simp [State.updSlice]

@[simp] theorem noteError_held (s : State) (agent port : Nat) :
    (State.noteError s agent port).held = s.held := by
  simp [State.noteError]

@[simp] theorem mapFences_held (s : State) (g : Fence → Fence) :
    (State.mapFences s g).held = s.held := by
  simp [State.mapFences]

@[simp] theorem endFeed_held (s : State) (ok : Bool) (port id : Nat) :
    (State.endFeed s ok port id).held = s.held := by
  unfold State.endFeed
  (repeat' split) <;> simp

@[simp] theorem saveEnded_held (s : State) (id : Nat) (ok : Bool) :
    (State.saveEnded s id ok).held = s.held := by
  unfold State.saveEnded
  (repeat' split) <;> simp

@[simp] theorem endTxn_held (s : State) (id : Nat) (ok : Bool) (reason : Nat) :
    (State.endTxn s id ok reason).held = s.held := by
  unfold State.endTxn
  (repeat' split) <;> simp

@[simp] theorem answer_held (s : State) (p tag rid status data : Nat) :
    (State.answer s p tag rid status data).held = s.held := by
  simp [State.answer]

@[simp] theorem transmitted_held (s : State) (id : Nat) :
    (State.transmitted s id).held = s.held := by
  unfold State.transmitted
  (repeat' split) <;> simp

@[simp] theorem partEnded_held (s : State) (t : Txn) (ok : Bool) (data : Nat) :
    (State.partEnded s t ok data).held = s.held := by
  unfold State.partEnded
  (repeat' split) <;> simp

@[simp] theorem loseTxn_held (s : State) (id : Nat) (silent : Bool) :
    (State.loseTxn s id silent).held = s.held := by
  unfold State.loseTxn
  (repeat' split) <;> simp

@[simp] theorem updSdir_held (s : State) (sm d : Nat) (f : SeamDir → SeamDir) :
    (State.updSdir s sm d f).held = s.held := by
  simp [State.updSdir]

@[simp] theorem updTiming_held (s : State) (sm d : Nat) (f : Timing → Timing) :
    (State.updTiming s sm d f).held = s.held := by
  simp [State.updTiming]

@[simp] theorem poolLeave_held (s : State) (sm d pool : Nat) :
    (State.poolLeave s sm d pool).held = s.held := by
  simp [State.poolLeave]

@[simp] theorem freeLanding_held (s : State) (p : Nat) :
    (State.freeLanding s p).held = s.held := by
  simp [State.freeLanding]

@[simp] theorem flushEgress_held (s : State) (p : Nat) :
    (State.flushEgress s p).held = s.held := by
  simp [State.flushEgress]

@[simp] theorem abandonFences_held (s : State) (f : Fence → Bool) :
    (State.abandonFences s f).held = s.held := by
  simp [State.abandonFences]

@[simp] theorem updWin_held (s : State) (w : Nat) (f : Window → Window) :
    (State.updWin s w f).held = s.held := by
  simp [State.updWin]

@[simp] theorem loseTags_held (s : State) (hit : Nat → Bool) :
    (State.loseTags s hit).held = s.held := by
  simp [State.loseTags]

@[simp] theorem dropWindowTags_held (s : State) (w : Nat) :
    (State.dropWindowTags s w).held = s.held := by
  simp [State.dropWindowTags]

@[simp] theorem setWinState_held (s : State) (w st : Nat) :
    (State.setWinState s w st).held = s.held := by
  simp [State.setWinState]

@[simp] theorem failFreeze_held (s : State) (w : Nat) :
    (State.failFreeze s w).held = s.held := by
  simp [State.failFreeze]

@[simp] theorem failEvac_held (s : State) (m : Nat) :
    (State.failEvac s m).held = s.held := by
  unfold State.failEvac
  (repeat' split) <;> simp

@[simp] theorem loseTarget_held (s : State) (m : Nat) :
    (State.loseTarget s m).held = s.held := by
  simp [State.loseTarget]

@[simp] theorem imageGone_held (s : State) :
    (State.imageGone s).held = s.held := by
  simp [State.imageGone]

@[simp] theorem closeSession_held (s : State) (sid : Nat) :
    (State.closeSession s sid).held = s.held := by
  unfold State.closeSession
  (repeat' split) <;> simp

@[simp] theorem mapExtents_held (s : State) (n dpa count : Nat) (g : Extent → Option Extent) :
    (State.mapExtents s n dpa count g).held = s.held := by
  simp [State.mapExtents]

@[simp] theorem dropOffered_held (s : State) (o : ExtentOp) :
    (State.dropOffered s o).held = s.held := by
  simp [State.dropOffered]

@[simp] theorem extEnd_held (s : State) (st : Nat) :
    (State.extEnd s st).held = s.held := by
  simp [State.extEnd]

@[simp] theorem addLost_held (s : State) (n : Nat) :
    (State.addLost s n).held = s.held := by
  unfold State.addLost
  (repeat' split) <;> simp

@[simp] theorem vcsDown_held (s : State) (n : Nat) :
    (State.vcsDown s n).held = s.held := by
  simp only [State.vcsDown]
  (repeat' (first | (simp [*]; done) | split | (with_reducible refine (foldl_held _ (fun s a => ?_) _ _).trans ?_) | (rename_i h; have h' := held_of_eq h; simp at h'; simp [h']; done) | simp [*]))

@[simp] theorem departHost_held (s : State) (n : Nat) :
    (State.departHost s n).held = s.held := by
  simp [State.departHost]

@[simp] theorem setLanes_held (s : State) (ls : List Nat) (st : Nat) :
    (State.setLanes s ls st).held = s.held := by
  simp [State.setLanes]

@[simp] theorem idleLanes_held (s : State) (p : Nat) :
    (State.idleLanes s p).held = s.held := by
  simp [State.idleLanes]

@[simp] theorem endEye_held (s : State) (q status : Nat) :
    (State.endEye s q status).held = s.held := by
  unfold State.endEye
  (repeat' split) <;> simp

@[simp] theorem endEyes_held (s : State) (p status : Nat) :
    (State.endEyes s p status).held = s.held := by
  simp [State.endEyes]

@[simp] theorem linkDown_held (s : State) (p ltssm : Nat) :
    (State.linkDown s p ltssm).held = s.held := by
  simp [State.linkDown]

@[simp] theorem endForPort_held (s : State) (p : Nat) (silent : Bool) :
    (State.endForPort s p silent).held = s.held := by
  simp [State.endForPort]

@[simp] theorem vppbsLinkDown_held (s : State) (p : Nat) (surprise : Bool) :
    (State.vppbsLinkDown s p surprise).held = s.held := by
  simp [State.vppbsLinkDown]

@[simp] theorem portDown_held (s : State) (p : Nat) (why : DownWhy) :
    (State.portDown s p why).held = s.held := by
  unfold State.portDown
  (repeat' split) <;> simp

end Sys2Proof.Machine
end

