-- ==== Sys2Proof/Laws/Resets.lean ====
section
/-!
SUPPORT. What the operations of Machine/Resets.lean do to the queue, the fuses and the time.
-/
namespace Sys2Proof.Machine

@[simp] theorem enterFulling_held (s : State) (cause : Nat) :
    (State.enterFulling s cause).held = s.held := by
  simp [State.enterFulling]

@[simp] theorem clearObjects_held (s : State) (hub : Bool) (tile : Nat → Bool) (island companion : Bool) :
    (State.clearObjects s hub tile island companion).held = s.held := by
  simp [State.clearObjects]

@[simp] theorem portsReset_held (s : State) (t : Nat) :
    (State.portsReset s t).held = s.held := by
  simp [State.portsReset]

@[simp] theorem clearSeam_held (s : State) (t : Nat) :
    (State.clearSeam s t).held = s.held := by
  simp [State.clearSeam]

@[simp] theorem setTag_held (s : State) (m g v : Nat) :
    (State.setTag s m g v).held = s.held := by
  simp [State.setTag]

@[simp] theorem dropTagCmd_held (s : State) :
    (State.dropTagCmd s).held = s.held := by
  unfold State.dropTagCmd
  (repeat' split) <;> simp

@[simp] theorem tileResetBody_held (s : State) (t : Nat) :
    (State.tileResetBody s t).held = s.held := by
  simp [State.tileResetBody]

@[simp] theorem tileReset_held (s : State) (t : Nat) :
    (State.tileReset s t).held = s.held := by
  simp [State.tileReset]

@[simp] theorem hatbandReset_held (s : State) :
    (State.hatbandReset s).held = s.held := by
  simp [State.hatbandReset]

@[simp] theorem updWarn_held (s : State) :
    (State.updWarn s).held = s.held := by
  simp [State.updWarn]

@[simp] theorem windowsOf_held (s old : State) :
    (State.windowsOf s old).held = s.held := by
  simp [State.windowsOf]

@[simp] theorem hubResetBody_held (s : State) :
    (State.hubResetBody s).held = s.held := by
  simp [State.hubResetBody]

@[simp] theorem hubReset_held (s : State) (cause : Nat) (stands : Bool) :
    (State.hubReset s cause stands).held = s.held := by
  simp [State.hubReset]

@[simp] theorem hubCauseEnds_held (s : State) (cause : Nat) :
    (State.hubCauseEnds s cause).held = s.held := by
  simp [State.hubCauseEnds]

@[simp] theorem resumeTimers_held (s : State) :
    (State.resumeTimers s).held = s.held := by
  simp [State.resumeTimers]

@[simp] theorem islandReset_held (s : State) (companion : Bool) :
    (State.islandReset s companion).held = s.held := by
  simp [State.islandReset]

@[simp] theorem hkReset_held (s : State) (cause : Nat) :
    (State.hkReset s cause).held = s.held := by
  simp [State.hkReset]

@[simp] theorem porReset_held (s : State) :
    (State.porReset s).held = s.held := by
  simp [State.porReset]

@[simp] theorem enterSafe_held (s : State) :
    (State.enterSafe s).held = s.held := by
  simp [State.enterSafe]

@[simp] theorem fatalAction_held (s : State) (n : Nat) :
    (State.fatalAction s n).held = s.held := by
  simp [State.fatalAction]

@[simp] theorem raise_held (s : State) (n cls code : Nat) (lasting : Bool) (src : Src) :
    (State.raise s n cls code lasting src).held = s.held := by
  simp [State.raise]

@[simp] theorem ecc_held (s : State) (n chk one two cls : Nat) :
    (State.ecc s n chk one two cls).2.held = s.held := by
  simp only [State.ecc]
  (repeat' (first | (simp [*]; done) | split | (with_reducible refine (foldl_held _ (fun s a => ?_) _ _).trans ?_) | (rename_i h; have h' := held_of_eq h; simp at h'; simp [h']; done) | simp [*]))

end Sys2Proof.Machine
end

