-- ==== Sys2Proof/Laws/SlotOps.lean ====
section
/-!
SUPPORT. What the operations of Machine/SlotOps.lean do to the queue, the fuses and the time.
-/
namespace Sys2Proof.Machine

@[simp] theorem clearTrip_held (s : State) (n : Nat) :
    (State.clearTrip s n).held = s.held := by
  simp [State.clearTrip]

@[simp] theorem slotOff_held (s : State) (n cause : Nat) :
    (State.slotOff s n cause).held = s.held := by
  simp [State.slotOff]

@[simp] theorem slotStatus_held (s : State) (n b : Nat) :
    (State.slotStatus s n b).held = s.held := by
  unfold State.slotStatus
  (repeat' split) <;> simp

@[simp] theorem powerFault_held (s : State) (n : Nat) :
    (State.powerFault s n).held = s.held := by
  simp only [State.powerFault]
  (repeat' split) <;> simp [*]

@[simp] theorem slotOn_held (s : State) (n : Nat) :
    (State.slotOn s n).held = s.held := by
  unfold State.slotOn
  (repeat' split) <;> simp

@[simp] theorem vppbStatus_held (s : State) (n v : Nat) (bs : List Nat) :
    (State.vppbStatus s n v bs).held = s.held := by
  simp [State.vppbStatus]

@[simp] theorem unbindReady_held (s : State) (n v : Nat) (modes : List Nat) :
    (State.unbindReady s n v modes).held = s.held := by
  unfold State.unbindReady
  (repeat' split) <;> simp

@[simp] theorem powerCommand_held (s : State) (n v p sl : Nat) (off : Bool) :
    (State.powerCommand s n v p sl off).held = s.held := by
  simp [State.powerCommand]

@[simp] theorem powerWrite_held (s : State) (n v : Nat) (off : Bool) :
    (State.powerWrite s n v off).held = s.held := by
  unfold State.powerWrite
  (repeat' split) <;> simp

@[simp] theorem powerNext_held (s : State) (sl : Nat) :
    (State.powerNext s sl).held = s.held := by
  unfold State.powerNext
  (repeat' split) <;> simp

@[simp] theorem forceOff_held (s : State) (n : Nat) :
    (State.forceOff s n).held = s.held := by
  simp [State.forceOff]

@[simp] theorem beginTraining_held (s : State) (p : Nat) :
    (State.beginTraining s p).held = s.held := by
  simp [State.beginTraining]

@[simp] theorem startTraining_held (s : State) (p : Nat) :
    (State.startTraining s p).held = s.held := by
  simp [State.startTraining]

@[simp] theorem enterRecovery_held (s : State) (p : Nat) :
    (State.enterRecovery s p).held = s.held := by
  simp [State.enterRecovery]

@[simp] theorem retrain_held (s : State) (p : Nat) :
    (State.retrain s p).held = s.held := by
  simp [State.retrain]

@[simp] theorem tilesBack_held (s : State) :
    (State.tilesBack s).held = s.held := by
  simp [State.tilesBack]

end Sys2Proof.Machine
end

