-- ==== Sys2Proof/Laws/CsrGate.lean ====
section
/-!
SUPPORT. What the operations of Machine/CsrGate.lean do to the queue, the fuses and the time.
-/
namespace Sys2Proof.Machine

@[simp] theorem csrUnreach_held (s : State) (via : CsrVia) :
    (State.csrUnreach s via).held = s.held := by
  simp [State.csrUnreach]

@[simp] theorem csrDo_held (s : State) (via : CsrVia) (die : Nat) (f : State → State) (h_f : ∀ s_, (f s_).held = s_.held) :
    (State.csrDo s via die f).held = s.held := by
  simp [State.csrDo, *]

@[simp] theorem answerOd_held (s : State) (sid : Nat) (a : OdAns) :
    (State.answerOd s sid a).held = s.held := by
  simp [State.answerOd]

end Sys2Proof.Machine
end

