-- ==== Sys2Proof/Laws/Cells.lean ====
section
/-!
SUPPORT. What the operations of Machine/Cells.lean do to the queue, the fuses and the time.
-/
namespace Sys2Proof.Machine

@[simp] theorem seamSend_held (s : State) (sm d pool : Nat) (it : Item) :
    (State.seamSend s sm d pool it).held = s.held := by
  simp [State.seamSend]

@[simp] theorem setSched_held (s : State) (q : Nat) (cls : Cls) (x : Sched) :
    (State.setSched s q cls x).held = s.held := by
  simp [State.setSched]

@[simp] theorem joinFlow_held (s : State) (q : Nat) (cls : Cls) (f : Nat) (c : Cell) :
    (State.joinFlow s q cls f c).held = s.held := by
  simp [State.joinFlow]

@[simp] theorem chargeFlow_held (s : State) (q : Nat) (cls : Cls) (f : Nat) (c : Cell) :
    (State.chargeFlow s q cls f c).held = s.held := by
  simp [State.chargeFlow]

@[simp] theorem setClassFinish_held (s : State) (q : Nat) (cls : Cls) (cf : Nat) :
    (State.setClassFinish s q cls cf).held = s.held := by
  simp [State.setClassFinish]

@[simp] theorem enqueue_held (s : State) (o : Nat) (c : Cell) :
    (State.enqueue s o c).held = s.held := by
  simp [State.enqueue]

@[simp] theorem leavePort_held (s : State) (p : Nat) (c : Cell) :
    (State.leavePort s p c).held = s.held := by
  simp only [State.leavePort]
  (repeat' split) <;> simp [*]

@[simp] theorem newPacket_held (s : State) (m : Out) :
    (State.newPacket s m).2.held = s.held := by
  simp [State.newPacket]

@[simp] theorem takeSeq_held (s : State) (k : Nat) :
    (State.takeSeq s k).2.held = s.held := by
  simp [State.takeSeq]

@[simp] theorem present_held (s : State) (q : Nat) (cls : Cls) (f own : Nat) (c : Cell) :
    (State.present s q cls f own c).held = s.held := by
  simp [State.present]

@[simp] theorem agentSend_held (s : State) (src host : Nat) (cls : Cls) (q bytes data : Nat) (m : Out) :
    (State.agentSend s src host cls q bytes data m).held = s.held := by
  simp [State.agentSend]

end Sys2Proof.Machine
end

