-- ==== Sys2Proof/Laws/Events.lean ====
section
/-!
SUPPORT. What the operations of Machine/Events.lean do to the queue, the fuses and the time.
-/
namespace Sys2Proof.Machine

@[simp] theorem afterLift_held (s : State) (n : Nat) :
    (State.afterLift s n).held = s.held := by
  unfold State.afterLift
  (repeat' split) <;> simp

@[simp] theorem clearBlock_held (s : State) (n : Nat) :
    (State.clearBlock s n).2.held = s.held := by
  simp only [State.clearBlock]
  (repeat' split) <;> simp [*]

@[simp] theorem requalifyCheck_held (s : State) (n : Nat) :
    (State.requalifyCheck s n).held = s.held := by
  unfold State.requalifyCheck
  (repeat' split) <;> simp

@[simp] theorem containAction_held (s : State) (n : Nat) :
    (State.containAction s n).held = s.held := by
  unfold State.containAction
  (repeat' split) <;> simp

@[simp] theorem isolateAction_held (s : State) (n : Nat) :
    (State.isolateAction s n).held = s.held := by
  unfold State.isolateAction
  (repeat' split) <;> simp

@[simp] theorem escalate_held (s : State) (n : Nat) :
    (State.escalate s n).held = s.held := by
  simp [State.escalate]

@[simp] theorem tickTimer_held (s : State) (n : Nat) :
    (State.tickTimer s n).held = s.held := by
  simp only [State.tickTimer]
  (repeat' split) <;> simp [*]

@[simp] theorem queueEmcy_held (s : State) (body : Nat) :
    (State.queueEmcy s body).held = s.held := by
  simp [State.queueEmcy]

@[simp] theorem msixEmit_held (s : State) (h fn e : Nat) :
    (State.msixEmit s h fn e).held = s.held := by
  unfold State.msixEmit
  (repeat' split) <;> simp

@[simp] theorem msixRaise_held (s : State) (h fn e : Nat) :
    (State.msixRaise s h fn e).held = s.held := by
  simp [State.msixRaise]

@[simp] theorem msixFlush_held (s : State) (h fn : Nat) :
    (State.msixFlush s h fn).held = s.held := by
  simp [State.msixFlush]

@[simp] theorem setMsix_held (s : State) (h fn e v : Nat) :
    (State.setMsix s h fn e v).held = s.held := by
  simp [State.setMsix]

@[simp] theorem msixWrite_held (s : State) (h fn off bytes data : Nat) :
    (State.msixWrite s h fn off bytes data).held = s.held := by
  simp [State.msixWrite]

@[simp] theorem msixSetControl_held (s : State) (h fn w : Nat) :
    (State.msixSetControl s h fn w).held = s.held := by
  simp [State.msixSetControl]

@[simp] theorem sendMsix_held (s : State) (h vec : Nat) :
    (State.sendMsix s h vec).held = s.held := by
  simp [State.sendMsix]

@[simp] theorem gather_held (s : State) :
    (State.gather s).held = s.held := by
  simp [State.gather]

@[simp] theorem sendEvent_held (s : State) (n body : Nat) :
    (State.sendEvent s n body).held = s.held := by
  simp [State.sendEvent]

@[simp] theorem deliver_held (s : State) (n : Nat) :
    (State.deliver s n).held = s.held := by
  simp [State.deliver]

@[simp] theorem holdRecord_held (s : State) (n : Nat) :
    (State.holdRecord s n).held = s.held := by
  simp [State.holdRecord]

@[simp] theorem giveRecords_held (s : State) :
    (State.giveRecords s).held = s.held := by
  simp [State.giveRecords]

@[simp] theorem ackBlock_held (s : State) (n : Nat) :
    (State.ackBlock s n).held = s.held := by
  simp [State.ackBlock]

@[simp] theorem ownEvtAck_held (n : Nat) (s : State) :
    (ownEvtAck n s).2.held = s.held := by
  simp [ownEvtAck]

@[simp] theorem ownEvtClear_held (n : Nat) (s : State) :
    (ownEvtClear n s).2.held = s.held := by
  simp [ownEvtClear]

@[simp] theorem ackMap_held (s : State) (n map : Nat) :
    (State.ackMap s n map).held = s.held := by
  simp [State.ackMap]

@[simp] theorem ownSafeExit_held (s : State) :
    (ownSafeExit s).2.held = s.held := by
  unfold ownSafeExit
  (repeat' split) <;> simp

@[simp] theorem injMirror_held (s : State) (n mode : Nat) :
    (State.injMirror s n mode).held = s.held := by
  unfold State.injMirror
  (repeat' split) <;> simp

@[simp] theorem injWrite_held (s : State) (n v : Nat) :
    (State.injWrite s n v).held = s.held := by
  simp [State.injWrite]

@[simp] theorem statWrite_held (s : State) (n v : Nat) :
    (State.statWrite s n v).held = s.held := by
  simp [State.statWrite]

theorem execRequalifyCheck_onward (n : EventIx) (s : State) :
    ∀ s', (execRequalifyCheck n s) = .next s' → s.Onward s' := by
  intro s' h
  simp only [execRequalifyCheck] at h
  (repeat' split at h) <;> (cases Host.Outcome.next.inj h; exact .of_held (by simp))

theorem execEscalationTimerExpiry_onward (n : EventIx) (s : State) :
    ∀ s', (execEscalationTimerExpiry n s) = .next s' → s.Onward s' := by
  intro s' h
  simp only [execEscalationTimerExpiry] at h
  (repeat' split at h) <;> (have e := Host.Outcome.next.inj h; subst e; rw [onward_iff]; simp)

theorem execEventDeliver_onward (n : EventIx) (s : State) :
    ∀ s', (execEventDeliver n s) = .next s' → s.Onward s' := by
  intro s' h
  simp only [execEventDeliver] at h
  (repeat' split at h) <;> (cases Host.Outcome.next.inj h; exact .of_held (by simp))

theorem execEmcy_onward (s : State) :
    ∀ s', (execEmcy s) = .next s' → s.Onward s' := by
  intro s' h
  simp only [execEmcy] at h
  (repeat' split at h) <;> (cases Host.Outcome.next.inj h; exact .of_held (by simp))

theorem execPendingAck_onward (via : CsrVia) (n : EventIx) (s : State) :
    ∀ s', (execPendingAck via n s) = .next s' → s.Onward s' := by
  intro s' h
  simp only [execPendingAck] at h
  (repeat' split at h) <;> (cases Host.Outcome.next.inj h; exact .of_held (by simp))

theorem execAckMapWrite_onward (h : HostIx) (map : BitVec 640) (s : State) :
    ∀ s', (execAckMapWrite h map s) = .next s' → s.Onward s' := by
  intro s' h
  simp only [execAckMapWrite] at h
  (repeat' split at h) <;> (cases Host.Outcome.next.inj h; exact .of_held (by simp))

theorem execClr_onward (via : CsrVia) (n : EventIx) (s : State) :
    ∀ s', (execClr via n s) = .next s' → s.Onward s' := by
  intro s' h
  simp only [execClr] at h
  (repeat' split at h) <;> (cases Host.Outcome.next.inj h; exact .of_held (by simp))

theorem execFerValidRelease_onward (via : CsrVia) (n : EventIx) (s : State) :
    ∀ s', (execFerValidRelease via n s) = .next s' → s.Onward s' := by
  intro s' h
  simp only [execFerValidRelease] at h
  (repeat' split at h) <;> (cases Host.Outcome.next.inj h; exact .of_held (by simp))

theorem execEvtInj_onward (via : CsrVia) (n : EventIx) (value : Word32) (s : State) :
    ∀ s', (execEvtInj via n value s) = .next s' → s.Onward s' := by
  intro s' h
  simp only [execEvtInj] at h
  (repeat' split at h) <;> (cases Host.Outcome.next.inj h; exact .of_held (by simp))

end Sys2Proof.Machine
end

