-- ==== Sys2Proof/Laws/OdChain.lean ====
section
/-!
SUPPORT. What the operations of Machine/OdChain.lean do to the queue, the fuses and the time.
-/
namespace Sys2Proof.Machine

@[simp] theorem openSession_held (s : State) (sid : Nat) :
    (State.openSession s sid).held = s.held := by
  simp [State.openSession]

theorem canSession_held (s : State) (node : Nat) :
    ∀ s', (State.canSession s node) = some s' → s'.held = s.held := by
  intro s' h
  simp only [State.canSession] at h
  (repeat' split at h) <;> cases h <;> simp

@[simp] theorem stage_held (s : State) (sid key v : Nat) :
    (State.stage s sid key v).2.held = s.held := by
  unfold State.stage
  (repeat' split) <;> simp

@[simp] theorem odWrite_held (s : State) (sid key len v : Nat) (own : State → OdAns × State) (h_own : ∀ s_, (own s_).2.held = s_.held) :
    (State.odWrite s sid key len v own).2.held = s.held := by
  unfold State.odWrite
  (repeat' split) <;> simp [*]

@[simp] theorem ownPlain_held (s : State) (key v : Nat) :
    (State.ownPlain s key v).2.held = s.held := by
  simp [State.ownPlain]

theorem sessionFor_held (s : State) (sid : Nat) (t : State) (h : s.sessionFor sid = .ready t) : t.held = s.held := by
  unfold State.sessionFor at h
  (repeat' split at h) <;> cases h
  · rename_i u hu
    simp [canSession_held s _ _ hu]
  · simp

theorem odWrite_onward (s : State) (sid key len v : Nat) (own : State → OdAns × State)
    (h_own : ∀ s : State, s.Onward (own s).2) : s.Onward (s.odWrite sid key len v own).2 := by
  unfold State.odWrite
  repeat' split
  all_goals first | exact h_own _ | exact .of_held (by simp)

theorem odCommand_onward (s : State) (sid key len v : Nat) (own : State → OdAns × State)
    (h_own : ∀ s : State, s.Onward (own s).2) : s.Onward (s.odCommand sid key len v own) := by
  have hw : ∀ u : State, u.Onward (u.odWrite sid key len v own).2 := by
    intro u
    exact odWrite_onward _ _ _ _ _ _ h_own
  unfold State.odCommand
  split
  · exact .refl _
  · exact .of_held (by simp)
  · rename_i t ht
    exact (State.Onward.of_held (sessionFor_held s sid t ht)).trans ((hw t).trans (.of_held (by simp)))

@[simp] theorem odCommand_held (s : State) (sid key len v : Nat) (own : State → OdAns × State)
    (h_own : ∀ s, (own s).2.held = s.held) : (s.odCommand sid key len v own).held = s.held := by
  unfold State.odCommand
  split
  · rfl
  · simp
  · rename_i t ht
    simp [h_own, sessionFor_held s sid t ht]

theorem execEvtAck_onward (sess : SessRef) (n : EventIx) (v : Byte) (s : State) :
    ∀ s', (execEvtAck sess n v s) = .next s' → s.Onward s' := by
  intro s' h
  simp only [execEvtAck] at h
  (repeat' split at h) <;> (cases Host.Outcome.next.inj h; exact .of_held (by simp))

theorem execEvtClear_onward (sess : SessRef) (n : EventIx) (v : Byte) (s : State) :
    ∀ s', (execEvtClear sess n v s) = .next s' → s.Onward s' := by
  intro s' h
  simp only [execEvtClear] at h
  (repeat' split at h) <;> (cases Host.Outcome.next.inj h; exact .of_held (by simp))

theorem execSafeExit_onward (sess : SessRef) (v : Byte) (s : State) :
    ∀ s', (execSafeExit sess v s) = .next s' → s.Onward s' := by
  intro s' h
  simp only [execSafeExit] at h
  (repeat' split at h) <;> (cases Host.Outcome.next.inj h; exact .of_held (by simp))

end Sys2Proof.Machine
end

