-- ==== Sys2Proof/Laws/Broadcast.lean ====
section
/-!
SUPPORT. What the operations of Machine/Broadcast.lean do to the queue, the fuses and the time.
-/
namespace Sys2Proof.Machine

@[simp] theorem sendBcast_held (s : State) (ts : List Nat) (m : Bcast) : (s.sendBcast ts m).2.held = s.held := by
  have h : ∀ (l : List Nat) (a : List Nat × State), (l.foldl (fun (acc : List Nat × State) t =>
      if acc.2.tileHeld t then acc
      else if acc.2.tileTakesBcast t then (acc.1, acc.2.updTiming t 1 (fun x => { x with ready := pushBcast m x.ready }))
      else (acc.1 ++ [t], acc.2)) a).2.held = a.2.held := by
    intro l
    induction l with
    | nil => intro a; rfl
    | cons t l ih =>
      intro a
      refine (ih _).trans ?_
      dsimp only
      split
      · rfl
      · split <;> simp [State.updTiming]
  exact h ts ([], s)

@[simp] theorem drainList_held (s : State) (l : List (List Nat × Bcast)) : (drainList s l).2.held = s.held := by
  induction l generalizing s with
  | nil => rfl
  | cons a l ih => simp [drainList, ih]

@[simp] theorem drainBcast_held (s : State) : s.drainBcast.held = s.held := by
  have h : ∀ (t : State) (x : TimeSt), ({ t with tm := x } : State).held = t.held := fun _ _ => rfl
  unfold State.drainBcast
  simp only [h]
  simp

@[simp] theorem landBcast_held (s : State) (t : Nat) (m : Bcast) :
    (State.landBcast s t m).held = s.held := by
  unfold State.landBcast
  (repeat' split) <;> simp

@[simp] theorem broadcast_held (s : State) (m : Bcast) :
    (State.broadcast s m).held = s.held := by
  simp [State.broadcast]

end Sys2Proof.Machine
end

