-- ==== Sys2Proof/Laws/Supply.lean ====
section
/-!
SUPPORT. What the operations of Machine/Supply.lean do to the queue, the fuses and the time.
-/
namespace Sys2Proof.Machine

@[simp] theorem setOring_held (s : State) (b : Bool) (x : OrFet) :
    (State.setOring s b x).held = s.held := by
  simp [State.setOring]

@[simp] theorem updRail_held (s : State) (r : Nat) (f : Rail → Rail) :
    (State.updRail s r f).held = s.held := by
  simp [State.updRail]

@[simp] theorem pmbus_held (s : State) (r code v : Nat) :
    (State.pmbus s r code v).held = s.held := by
  simp [State.pmbus]

@[simp] theorem railOff_held (s : State) (r : Nat) :
    (State.railOff s r).held = s.held := by
  simp [State.railOff]

@[simp] theorem turnRailsOff_held (s : State) :
    (State.turnRailsOff s).held = s.held := by
  unfold State.turnRailsOff
  (repeat' split) <;> simp

@[simp] theorem startRails_held (s : State) :
    (State.startRails s).held = s.held := by
  simp [State.startRails]

@[simp] theorem railFaultAct_held (s : State) (r status : Nat) :
    (State.railFaultAct s r status).held = s.held := by
  simp [State.railFaultAct]

@[simp] theorem ownRailRestart_held (s : State) :
    (ownRailRestart s).2.held = s.held := by
  unfold ownRailRestart
  (repeat' split) <;> simp

theorem execVbusReverseTurnOff_onward (b : Bool) (s : State) :
    ∀ s', (execVbusReverseTurnOff b s) = .next s' → s.Onward s' := by
  intro s' h
  simp only [execVbusReverseTurnOff] at h
  (repeat' split at h) <;> (cases Host.Outcome.next.inj h; exact .of_held (by simp))

theorem execVbusOvervoltageOff_onward (b : Bool) (s : State) :
    ∀ s', (execVbusOvervoltageOff b s) = .next s' → s.Onward s' := by
  intro s' h
  simp only [execVbusOvervoltageOff] at h
  (repeat' split at h) <;> (cases Host.Outcome.next.inj h; exact .of_held (by simp))

theorem execVbusOringOn_onward (b : Bool) (s : State) :
    ∀ s', (execVbusOringOn b s) = .next s' → s.Onward s' := by
  intro s' h
  simp only [execVbusOringOn] at h
  (repeat' split at h) <;> (cases Host.Outcome.next.inj h; exact .of_held (by simp))

theorem execRailStart_onward (r : Fin 4) (s : State) :
    ∀ s', (execRailStart r s) = .next s' → s.Onward s' := by
  intro s' h
  simp only [execRailStart] at h
  (repeat' split at h) <;> (have e := Host.Outcome.next.inj h; subst e; rw [onward_iff]; simp)

theorem execRailUp_onward (r : Fin 4) (s : State) :
    ∀ s', (execRailUp r s) = .next s' → s.Onward s' := by
  intro s' h
  simp only [execRailUp] at h
  (repeat' split at h) <;> (cases Host.Outcome.next.inj h; exact .of_held (by simp))

theorem execRailStartTimeout_onward (r : Fin 4) (s : State) :
    ∀ s', (execRailStartTimeout r s) = .next s' → s.Onward s' := by
  intro s' h
  simp only [execRailStartTimeout] at h
  (repeat' split at h) <;> (have e := Host.Outcome.next.inj h; subst e; rw [onward_iff]; simp)

theorem execRailFault_onward (r : Fin 4) (status : BitVec 16) (s : State) :
    ∀ s', (execRailFault r status s) = .next s' → s.Onward s' := by
  intro s' h
  simp only [execRailFault] at h
  (repeat' split at h) <;> (cases Host.Outcome.next.inj h; exact .of_held (by simp))

theorem execRailOffStep_onward (r : Fin 4) (s : State) :
    ∀ s', (execRailOffStep r s) = .next s' → s.Onward s' := by
  intro s' h
  simp only [execRailOffStep] at h
  (repeat' split at h) <;> (cases Host.Outcome.next.inj h; exact .of_held (by simp))

theorem execRailRetry_onward (s : State) :
    ∀ s', (execRailRetry s) = .next s' → s.Onward s' := by
  intro s' h
  simp only [execRailRetry] at h
  (repeat' split at h) <;> (have e := Host.Outcome.next.inj h; subst e; rw [onward_iff]; simp)

theorem execRailRestart_onward (sess : SessRef) (v : Byte) (s : State) :
    ∀ s', (execRailRestart sess v s) = .next s' → s.Onward s' := by
  intro s' h
  simp only [execRailRestart] at h
  (repeat' split at h) <;> (cases Host.Outcome.next.inj h; exact .of_held (by simp))

theorem execPmbusPoll_onward (r : Fin 4) (ack : Bool) (status : BitVec 16) (mv : Nat) (ma : Nat) (mc : Int) (s : State) :
    ∀ s', (execPmbusPoll r ack status mv ma mc s) = .next s' → s.Onward s' := by
  intro s' h
  simp only [execPmbusPoll] at h
  (repeat' split at h) <;> (cases Host.Outcome.next.inj h; exact .of_held (by simp))

theorem execVbusBelow33_onward (s : State) :
    ∀ s', (execVbusBelow33 s) = .next s' → s.Onward s' := by
  intro s' h
  simp only [execVbusBelow33] at h
  (repeat' split at h) <;> (cases Host.Outcome.next.inj h; exact .of_held (by simp))

theorem execVbusRecover36_onward (s : State) :
    ∀ s', (execVbusRecover36 s) = .next s' → s.Onward s' := by
  intro s' h
  simp only [execVbusRecover36] at h
  (repeat' split at h) <;> (cases Host.Outcome.next.inj h; exact .of_held (by simp))

theorem execVbusBelow31_onward (s : State) :
    ∀ s', (execVbusBelow31 s) = .next s' → s.Onward s' := by
  intro s' h
  simp only [execVbusBelow31] at h
  (repeat' split at h) <;> (cases Host.Outcome.next.inj h; exact .of_held (by simp))

theorem execTemperaturePoll_onward (mc : List Int) (s : State) :
    ∀ s', (execTemperaturePoll mc s) = .next s' → s.Onward s' := by
  intro s' h
  simp only [execTemperaturePoll] at h
  (repeat' split at h) <;> (cases Host.Outcome.next.inj h; exact .of_held (by simp))

theorem execThermalShutdown_onward (s : State) :
    ∀ s', (execThermalShutdown s) = .next s' → s.Onward s' := by
  intro s' h
  simp only [execThermalShutdown] at h
  (repeat' split at h) <;> (cases Host.Outcome.next.inj h; exact .of_held (by simp))

theorem execThermalRecovery_onward (s : State) :
    ∀ s', (execThermalRecovery s) = .next s' → s.Onward s' := by
  intro s' h
  simp only [execThermalRecovery] at h
  (repeat' split at h) <;> (cases Host.Outcome.next.inj h; exact .of_held (by simp))

theorem execCompanionOverTemperature_onward (b : Bool) (s : State) :
    ∀ s', (execCompanionOverTemperature b s) = .next s' → s.Onward s' := by
  intro s' h
  simp only [execCompanionOverTemperature] at h
  (repeat' split at h) <;> (cases Host.Outcome.next.inj h; exact .of_held (by simp))

theorem execCompanionTemperatureRecover_onward (b : Bool) (s : State) :
    ∀ s', (execCompanionTemperatureRecover b s) = .next s' → s.Onward s' := by
  intro s' h
  simp only [execCompanionTemperatureRecover] at h
  (repeat' split at h) <;> (cases Host.Outcome.next.inj h; exact .of_held (by simp))

theorem execSpcOscillatorOutOfRange_onward (b : Bool) (bad : Bool) (s : State) :
    ∀ s', (execSpcOscillatorOutOfRange b bad s) = .next s' → s.Onward s' := by
  intro s' h
  simp only [execSpcOscillatorOutOfRange] at h
  (repeat' split at h) <;> (cases Host.Outcome.next.inj h; exact .of_held (by simp))

end Sys2Proof.Machine
end

