-- ==== Sys2Proof/Laws/Slots.lean ====
section
/-!
SUPPORT. What the operations of Machine/Slots.lean do to the queue, the fuses and the time.
-/
namespace Sys2Proof.Machine

@[simp] theorem slotRefuse_held (s : State) (n reason : Nat) :
    (State.slotRefuse s n reason).2.held = s.held := by
  simp [State.slotRefuse]

@[simp] theorem ownSlotCmd_held (n v : Nat) (s : State) :
    (ownSlotCmd n v s).2.held = s.held := by
  simp only [ownSlotCmd]
  (repeat' split) <;> simp [*]

@[simp] theorem ownForceOff_held (n : Nat) (s : State) :
    (ownForceOff n s).2.held = s.held := by
  simp [ownForceOff]

@[simp] theorem enterRamp_held (s : State) (n : Nat) :
    (State.enterRamp s n).held = s.held := by
  simp [State.enterRamp]

@[simp] theorem limitPublished_held (s : State) (n : Nat) :
    (State.limitPublished s n).held = s.held := by
  simp [State.limitPublished]

@[simp] theorem tripRecord_held (s : State) (n cause : Nat) :
    (State.tripRecord s n cause).held = s.held := by
  simp [State.tripRecord]

@[simp] theorem trip_held (s : State) (n cause : Nat) :
    (State.trip s n cause).held = s.held := by
  simp [State.trip]

@[simp] theorem lockout_held (s : State) (n cause : Nat) :
    (State.lockout s n cause).held = s.held := by
  simp [State.lockout]

@[simp] theorem ownChanReset_held (n : Nat) (s : State) :
    (ownChanReset n s).2.held = s.held := by
  unfold ownChanReset
  (repeat' split) <;> simp

@[simp] theorem ownLockoutClear_held (n : Nat) (s : State) :
    (ownLockoutClear n s).2.held = s.held := by
  simp only [ownLockoutClear]
  (repeat' split) <;> simp [*]

@[simp] theorem autoOn_held (s : State) (n : Nat) :
    (State.autoOn s n).held = s.held := by
  simp [State.autoOn]

@[simp] theorem spcStatWrite_held (s : State) (n v : Nat) :
    (State.spcStatWrite s n v).held = s.held := by
  simp [State.spcStatWrite]

theorem execSlotCmdOn_onward (sess : SessRef) (n : SlotIx) (s : State) :
    ∀ s', (execSlotCmdOn sess n s) = .next s' → s.Onward s' := by
  intro s' h
  simp only [execSlotCmdOn] at h
  (repeat' split at h) <;> (cases Host.Outcome.next.inj h; exact .of_held (by simp))

theorem execSlotCmdOff_onward (sess : SessRef) (n : SlotIx) (s : State) :
    ∀ s', (execSlotCmdOff sess n s) = .next s' → s.Onward s' := by
  intro s' h
  simp only [execSlotCmdOff] at h
  (repeat' split at h) <;> (cases Host.Outcome.next.inj h; exact .of_held (by simp))

theorem execForceOff_onward (sess : SessRef) (n : SlotIx) (v : Byte) (s : State) :
    ∀ s', (execForceOff sess n v s) = .next s' → s.Onward s' := by
  intro s' h
  simp only [execForceOff] at h
  (repeat' split at h) <;> (cases Host.Outcome.next.inj h; exact .of_held (by simp))

theorem execRampStart_onward (n : SlotIx) (mv : Nat) (s : State) :
    ∀ s', (execRampStart n mv s) = .next s' → s.Onward s' := by
  intro s' h
  simp only [execRampStart] at h
  (repeat' split at h) <;> (cases Host.Outcome.next.inj h; exact .of_held (by simp))

theorem execGateFullyOn_onward (n : SlotIx) (mv : Nat) (s : State) :
    ∀ s', (execGateFullyOn n mv s) = .next s' → s.Onward s' := by
  intro s' h
  simp only [execGateFullyOn] at h
  (repeat' split at h) <;> (cases Host.Outcome.next.inj h; exact .of_held (by simp))

theorem execCurrentLimitEnter_onward (n : SlotIx) (ma : Nat) (s : State) :
    ∀ s', (execCurrentLimitEnter n ma s) = .next s' → s.Onward s' := by
  intro s' h
  simp only [execCurrentLimitEnter] at h
  (repeat' split at h) <;> (cases Host.Outcome.next.inj h; exact .of_held (by simp))

theorem execFaultTimerStop_onward (n : SlotIx) (ma : Nat) (s : State) :
    ∀ s', (execFaultTimerStop n ma s) = .next s' → s.Onward s' := by
  intro s' h
  simp only [execFaultTimerStop] at h
  (repeat' split at h) <;> (cases Host.Outcome.next.inj h; exact .of_held (by simp))

theorem execFaultTimerExpiry_onward (n : SlotIx) (s : State) :
    ∀ s', (execFaultTimerExpiry n s) = .next s' → s.Onward s' := by
  intro s' h
  simp only [execFaultTimerExpiry] at h
  (repeat' split at h) <;> (have e := Host.Outcome.next.inj h; subst e; rw [onward_iff]; simp)

theorem execFastTrip_onward (n : SlotIx) (s : State) :
    ∀ s', (execFastTrip n s) = .next s' → s.Onward s' := by
  intro s' h
  simp only [execFastTrip] at h
  (repeat' split at h) <;> (cases Host.Outcome.next.inj h; exact .of_held (by simp))

theorem execRampTimeout_onward (n : SlotIx) (s : State) :
    ∀ s', (execRampTimeout n s) = .next s' → s.Onward s' := by
  intro s' h
  simp only [execRampTimeout] at h
  (repeat' split at h) <;> (have e := Host.Outcome.next.inj h; subst e; rw [onward_iff]; simp)

theorem execTripFailure_onward (n : SlotIx) (s : State) :
    ∀ s', (execTripFailure n s) = .next s' → s.Onward s' := by
  intro s' h
  simp only [execTripFailure] at h
  (repeat' split at h) <;> (cases Host.Outcome.next.inj h; exact .of_held (by simp))

theorem execPassFetWatchFire_onward (n : SlotIx) (s : State) :
    ∀ s', (execPassFetWatchFire n s) = .next s' → s.Onward s' := by
  intro s' h
  simp only [execPassFetWatchFire] at h
  (repeat' split at h) <;> (cases Host.Outcome.next.inj h; exact .of_held (by simp))

theorem execDischargeEnd_onward (n : SlotIx) (s : State) :
    ∀ s', (execDischargeEnd n s) = .next s' → s.Onward s' := by
  intro s' h
  simp only [execDischargeEnd] at h
  (repeat' split at h) <;> (have e := Host.Outcome.next.inj h; subst e; rw [onward_iff]; simp)

theorem execSupplyOutOfRange_onward (n : SlotIx) (high : Bool) (s : State) :
    ∀ s', (execSupplyOutOfRange n high s) = .next s' → s.Onward s' := by
  intro s' h
  simp only [execSupplyOutOfRange] at h
  (repeat' split at h) <;> (cases Host.Outcome.next.inj h; exact .of_held (by simp))

theorem execSupplyReturn_onward (n : SlotIx) (s : State) :
    ∀ s', (execSupplyReturn n s) = .next s' → s.Onward s' := by
  intro s' h
  simp only [execSupplyReturn] at h
  (repeat' split at h) <;> (cases Host.Outcome.next.inj h; exact .of_held (by simp))

theorem execFeedSwitchover_onward (n : SlotIx) (b : Bool) (s : State) :
    ∀ s', (execFeedSwitchover n b s) = .next s' → s.Onward s' := by
  intro s' h
  simp only [execFeedSwitchover] at h
  (repeat' split at h) <;> (cases Host.Outcome.next.inj h; exact .of_held (by simp))

theorem execRedundancyLost_onward (n : SlotIx) (b : Bool) (s : State) :
    ∀ s', (execRedundancyLost n b s) = .next s' → s.Onward s' := by
  intro s' h
  simp only [execRedundancyLost] at h
  (repeat' split at h) <;> (cases Host.Outcome.next.inj h; exact .of_held (by simp))

theorem execRedundancyRegained_onward (n : SlotIx) (s : State) :
    ∀ s', (execRedundancyRegained n s) = .next s' → s.Onward s' := by
  intro s' h
  simp only [execRedundancyRegained] at h
  (repeat' split at h) <;> (cases Host.Outcome.next.inj h; exact .of_held (by simp))

theorem execChanReset_onward (sess : SessRef) (n : SlotIx) (v : Byte) (s : State) :
    ∀ s', (execChanReset sess n v s) = .next s' → s.Onward s' := by
  intro s' h
  simp only [execChanReset] at h
  (repeat' split at h) <;> (cases Host.Outcome.next.inj h; exact .of_held (by simp))

theorem execChannelSelftestDone_onward (n : SlotIx) (pass : Bool) (s : State) :
    ∀ s', (execChannelSelftestDone n pass s) = .next s' → s.Onward s' := by
  intro s' h
  simp only [execChannelSelftestDone] at h
  (repeat' split at h) <;> (cases Host.Outcome.next.inj h; exact .of_held (by simp))

theorem execLockoutClear_onward (sess : SessRef) (n : SlotIx) (v : Byte) (s : State) :
    ∀ s', (execLockoutClear sess n v s) = .next s' → s.Onward s' := by
  intro s' h
  simp only [execLockoutClear] at h
  (repeat' split at h) <;> (cases Host.Outcome.next.inj h; exact .of_held (by simp))

theorem execPresenceChange_onward (n : SlotIx) (edge : PresenceEdge) (s : State) :
    ∀ s', (execPresenceChange n edge s) = .next s' → s.Onward s' := by
  intro s' h
  simp only [execPresenceChange] at h
  (repeat' split at h) <;> (have e := Host.Outcome.next.inj h; subst e; rw [onward_iff]; simp)

end Sys2Proof.Machine
end

