-- ==== Sys2Proof/Laws/Firmware.lean ====
section
/-!
SUPPORT. What the operations of Machine/Firmware.lean do to the queue, the fuses and the time.
-/
namespace Sys2Proof.Machine

@[simp] theorem updPart_held (s : State) (k : Nat) (f : Part → Part) :
    (State.updPart s k f).held = s.held := by
  simp [State.updPart]

@[simp] theorem setApplet_held (s : State) (a : Nat) (i : Option Image) (st : Nat) :
    (State.setApplet s a i st).held = s.held := by
  simp [State.setApplet]

@[simp] theorem setFwState_held (s : State) (v : Nat) :
    (State.setFwState s v).held = s.held := by
  simp [State.setFwState]

@[simp] theorem refuseImage_held (s : State) (reason : Nat) :
    (State.refuseImage s reason).held = s.held := by
  simp [State.refuseImage]

@[simp] theorem dropBank_held (s : State) (k : Nat) :
    (State.dropBank s k).held = s.held := by
  simp [State.dropBank]

@[simp] theorem stageImage_held (s : State) (d : List Byte) :
    (State.stageImage s d).held = s.held := by
  unfold State.stageImage
  (repeat' split) <;> simp

@[simp] theorem closeAll_held (s : State) :
    (State.closeAll s).held = s.held := by
  simp [State.closeAll]

@[simp] theorem swapEnds_held (s : State) :
    (State.swapEnds s).held = s.held := by
  simp [State.swapEnds]

@[simp] theorem installNext_held (s : State) :
    (State.installNext s).held = s.held := by
  unfold State.installNext
  (repeat' split) <;> simp

@[simp] theorem fwRefuse_held (s : State) (reason : Nat) :
    (State.fwRefuse s reason).2.held = s.held := by
  simp [State.fwRefuse]

@[simp] theorem ownFwInstall_held (v : Nat) (s : State) :
    (ownFwInstall v s).2.held = s.held := by
  simp only [ownFwInstall]
  (repeat' split) <;> simp [*]

@[simp] theorem fallBack_held (s : State) (k : Nat) :
    (State.fallBack s k).held = s.held := by
  simp only [State.fallBack]
  (repeat' split) <;> simp [*]

@[simp] theorem giveUpStaged_held (s : State) (k : Nat) :
    (State.giveUpStaged s k).held = s.held := by
  simp [State.giveUpStaged]

@[simp] theorem ownFwReject_held (s : State) :
    (ownFwReject s).2.held = s.held := by
  unfold ownFwReject
  (repeat' split) <;> simp

@[simp] theorem ownFwDiscard_held (v : Nat) (s : State) :
    (ownFwDiscard v s).2.held = s.held := by
  unfold ownFwDiscard
  (repeat' split) <;> simp

@[simp] theorem ownAppletRemove_held (a : Nat) (s : State) :
    (ownAppletRemove a s).2.held = s.held := by
  simp [ownAppletRemove]

@[simp] theorem fallBackAll_held (s : State) (ks : List Nat) :
    (State.fallBackAll s ks).held = s.held := by
  simp [State.fallBackAll]

theorem fuses_onward (s : State) (f : Fuses) (h : s.life.fuses.Grew f) :
    s.Onward { s with life := { s.life with fuses := f } } := ⟨rfl, h, Nat.le_refl _⟩

theorem confirmPart_onward (s : State) (k : Nat) : s.Onward (s.confirmPart k) := by
  unfold State.confirmPart
  refine .trans (.of_held (t := s.updPart k (fun p => { p with probEnd := none, confirmCt := s.ct })) (by simp)) ?_
  refine .trans (fuses_onward _ _ ?_) (.of_held (by simp; rfl))
  refine { Fuses.Grew.refl _ with sv := fun j => ?_ }
  simp only [kmap_get_set]
  split
  · subst j; exact Nat.le_max_left _ _
  · exact Nat.le_refl _

theorem execFwInstall_onward (sess : SessRef) (v : Byte) (s : State) :
    ∀ s', (execFwInstall sess v s) = .next s' → s.Onward s' := by
  intro s' h
  simp only [execFwInstall] at h
  (repeat' split at h) <;> (cases Host.Outcome.next.inj h; exact .of_held (by simp))

theorem execPartSwapComplete_onward (k : Fin 8) (ok : Bool) (s : State) :
    ∀ s', (execPartSwapComplete k ok s) = .next s' → s.Onward s' := by
  intro t_ h_
  unfold execPartSwapComplete at h_
  extract_lets k_ s2 hash l2 f2 s3 old s4 s5 s6 at h_
  have h2 : s2.held = s.held := by simp [s2]
  have h3 : s.Onward s3 := .trans (.of_held h2) ⟨rfl, { Fuses.Grew.refl _ with vroot1 := fun _ => rfl }, Nat.le_refl _⟩
  have h6 : s6.held = s.held := by simp [s6, s5, s4]
  clear_value k_ s2 hash l2 f2 s3 old s4 s5 s6
  split at h_
  · have e_ := Host.Outcome.next.inj h_; subst e_; exact .refl _
  split at h_
  · split at h_
    · have e_ := Host.Outcome.next.inj h_; subst e_
      exact h3.trans (.of_held (by simp))
    · have e_ := Host.Outcome.next.inj h_; subst e_
      exact .of_held (by simp [h2])
  split at h_
  · have e_ := Host.Outcome.next.inj h_; subst e_
    exact .of_held (by simp)
  split at h_
  · have e_ := Host.Outcome.next.inj h_; subst e_; exact .refl _
  · have e_ := Host.Outcome.next.inj h_; subst e_
    exact .of_held (by simp [h6])

theorem execImageHealthReport_onward (k : Fin 8) (healthy : Bool) (s : State) :
    ∀ s', (execImageHealthReport k healthy s) = .next s' → s.Onward s' := by
  intro t_ h_
  simp only [execImageHealthReport] at h_
  split at h_ <;> (have e_ := Host.Outcome.next.inj h_; subst e_)
  · exact .refl _
  · split
    · exact confirmPart_onward _ _
    · exact .of_held (by simp)

theorem execProbationExpiry_onward (k : Fin 8) (s : State) :
    ∀ s', (execProbationExpiry k s) = .next s' → s.Onward s' := by
  intro s' h
  simp only [execProbationExpiry] at h
  (repeat' split at h) <;> (have e := Host.Outcome.next.inj h; subst e; rw [onward_iff]; simp)

theorem execFwReject_onward (sess : SessRef) (v : Byte) (s : State) :
    ∀ s', (execFwReject sess v s) = .next s' → s.Onward s' := by
  intro s' h
  simp only [execFwReject] at h
  (repeat' split at h) <;> (cases Host.Outcome.next.inj h; exact .of_held (by simp))

theorem execFwDiscard_onward (sess : SessRef) (v : Byte) (s : State) :
    ∀ s', (execFwDiscard sess v s) = .next s' → s.Onward s' := by
  intro s' h
  simp only [execFwDiscard] at h
  (repeat' split at h) <;> (cases Host.Outcome.next.inj h; exact .of_held (by simp))

theorem execAppletRemove_onward (sess : SessRef) (slot : Fin 8) (v : Byte) (s : State) :
    ∀ s', (execAppletRemove sess slot v s) = .next s' → s.Onward s' := by
  intro s' h
  simp only [execAppletRemove] at h
  (repeat' split at h) <;> (cases Host.Outcome.next.inj h; exact .of_held (by simp))

theorem execTileSwapDeadline_onward (s : State) :
    ∀ s', (execTileSwapDeadline s) = .next s' → s.Onward s' := by
  intro s' h
  simp only [execTileSwapDeadline] at h
  (repeat' split at h) <;> (have e := Host.Outcome.next.inj h; subst e; rw [onward_iff]; simp)

end Sys2Proof.Machine
end

