-- ==== Sys2Proof/Laws/LifeCycle.lean ====
section
/-!
SUPPORT. What the operations of Machine/LifeCycle.lean do to the queue, the fuses and the time.
-/
namespace Sys2Proof.Machine

@[simp] theorem record_fuses (l : Life) (t n : Nat) : (l.record t n).fuses = l.fuses := by
  unfold Life.record; repeat' split
  all_goals rfl

theorem reserve_grew (l : Life) : l.fuses.Grew l.reserve.fuses := by
  unfold Life.reserve
  split
  · exact .refl _
  · split
    · simp only [record_fuses]
      exact { Fuses.Grew.refl _ with trees := Nat.le_succ _ }
    · simp only [record_fuses]; exact .refl _

theorem lcState_cases (s : State) : (s.lcState = 0 ∧ s.life.fuses.lc = 0) ∨ (s.lcState = 1 ∧ s.life.fuses.lc = 3) ∨
    (s.lcState = 2 ∧ s.life.fuses.lc = 15) ∨ (s.lcState = 3 ∧ s.life.fuses.lc = 63) ∨ s.lcState = 4 := by
  unfold State.lcState
  simp only [beq_iff_eq]
  (repeat' split) <;> simp_all

@[simp] theorem regrade_held (s : State) :
    (State.regrade s).held = s.held := by
  simp [State.regrade]

@[simp] theorem ownAuthResponse_held (sid : Nat) (d : List Byte) (s : State) :
    (ownAuthResponse sid d s).2.held = s.held := by
  simp only [ownAuthResponse]
  (repeat' split) <;> simp [*]

@[simp] theorem lcRefuse_held (s : State) (reason : Nat) :
    (State.lcRefuse s reason).2.held = s.held := by
  simp [State.lcRefuse]

@[simp] theorem erase_held (s : State) :
    (State.erase s).held = s.held := by
  simp [State.erase]

@[simp] theorem closeTap_held (s : State) :
    (State.closeTap s).held = s.held := by
  simp [State.closeTap]

@[simp] theorem lcGates_held (s : State) :
    (State.lcGates s).held = s.held := by
  simp [State.lcGates]

@[simp] theorem ownCustKeyHash_held (v : Nat) (s : State) :
    (ownCustKeyHash v s).2.held = s.held := by
  simp [ownCustKeyHash]

@[simp] theorem ownJtagOpen_held (sid : Nat) (s : State) :
    (ownJtagOpen sid s).2.held = s.held := by
  unfold ownJtagOpen
  (repeat' split) <;> simp

@[simp] theorem ownDevkeyCert_held (sid : Nat) (d : List Byte) (s : State) :
    (ownDevkeyCert sid d s).2.held = s.held := by
  unfold ownDevkeyCert
  (repeat' split) <;> simp

@[simp] theorem ownAttestNonce_held (sid nonce : Nat) (s : State) :
    (ownAttestNonce sid nonce s).2.held = s.held := by
  simp only [ownAttestNonce]
  (repeat' split) <;> simp [*]

@[simp] theorem sigBoot_held (s : State) :
    (State.sigBoot s).held = s.held := by
  unfold State.sigBoot; extract_lets newest; clear_value newest; (repeat' split) <;> first | (simp; done) | (show (s.pending, Life.fuses _, s.now) = s.held; simp only [record_fuses]; rfl) | rfl

theorem lcPattern_land (f : Fuses) (lc : Nat) (h : Nat.land f.lc lc = f.lc) (hl : lc ∈ [0, 3, 15, 63, 255]) :
    f.Grew { f with lc := lc } :=
  { Fuses.Grew.refl _ with lc := h, legal := fun _ => hl }

theorem lcPattern_legal (n : Nat) : lcPattern n ∈ [0, 3, 15, 63, 255] := by
  unfold lcPattern
  split <;> simp

theorem lcMove_onward (s : State) (target : Nat) (h : Nat.land s.life.fuses.lc (lcPattern target) = s.life.fuses.lc) :
    s.Onward (s.lcMove target) := by
  unfold State.lcMove
  refine .trans (fuses_onward _ _ (lcPattern_land _ _ h (lcPattern_legal _))) ?_
  generalize ({ s with life := { s.life with fuses := { s.life.fuses with lc := lcPattern target } } } : State) = u
  simp only
  split
  · exact .of_held (by simp)
  · split
    · refine .trans (.of_held (t := u.lcGates) (by simp)) ?_
      refine .trans (fuses_onward u.lcGates { u.lcGates.life.fuses with seedRead := false }
        { Fuses.Grew.refl _ with seedRead := by simp }) ?_
      exact .of_held (by simp)
    · exact .of_held (by simp)

/-- The transitions that R515 allows only blow bits of LC_FUSE. -/
theorem lcMove_land (s : State) (n : Nat) (h : s.lcState = 0 ∧ n = 1 ∨ s.lcState = 1 ∧ n = 2 ∨ s.lcState = 1 ∧ n = 3 ∨
    s.lcState = 2 ∧ n = 3 ∨ s.lcState ≠ 4 ∧ n = 4) : s.Onward (s.lcMove n) := by
  refine lcMove_onward _ _ ?_
  rcases lcState_cases s with ⟨a, b⟩ | ⟨a, b⟩ | ⟨a, b⟩ | ⟨a, b⟩ | a <;> rw [a] at h <;>
    rcases h with ⟨h, rfl⟩ | ⟨h, rfl⟩ | ⟨h, rfl⟩ | ⟨h, rfl⟩ | ⟨h, rfl⟩ <;> first | (exfalso; omega) | (rw [b]; rfl)

theorem ownLcAdvance_onward (sid v : Nat) (s : State) : s.Onward (ownLcAdvance sid v s).2 := by
  unfold ownLcAdvance State.lcRefuse
  repeat' split
  all_goals try dsimp only
  all_goals first
    | (with_reducible exact .refl _)
    | (refine State.Onward.of_held ?_; simp; done)
    | (refine lcMove_land _ _ ?_; simp_all; try omega)

theorem ownLcScrap_onward (sid v : Nat) (s : State) : s.Onward (ownLcScrap sid v s).2 := by
  unfold ownLcScrap State.lcRefuse
  repeat' split
  all_goals try dsimp only
  all_goals first
    | (with_reducible exact .refl _)
    | (refine State.Onward.of_held ?_; simp; done)
    | (refine lcMove_land _ _ ?_; simp_all; try omega)

theorem ownLcToken_onward (d : List Byte) (s : State) : s.Onward (ownLcToken d s).2 := by
  unfold ownLcToken State.lcRefuse
  extract_lets ok l u
  have hu : u.held = s.held := rfl
  have hf : u.lcState = s.lcState := rfl
  clear_value ok u
  repeat' split
  all_goals try dsimp only
  all_goals first
    | (refine State.Onward.of_held ?_; simp [hu]; done)
    | (refine .trans (.of_held hu) (lcMove_land _ _ ?_)
       rw [hf]; simp_all; try omega)

theorem ownVrootRevoke0_onward (s : State) : s.Onward (ownVrootRevoke0 s).2 := by
  unfold ownVrootRevoke0
  split
  · exact .refl _
  · exact fuses_onward _ _ { Fuses.Grew.refl _ with revoked0 := fun _ => rfl }

theorem ownDevkeyGen_onward (s : State) : s.Onward (ownDevkeyGen s).2 := by
  unfold ownDevkeyGen
  split
  · exact .refl _
  · rename_i h
    exact ⟨rfl, { Fuses.Grew.refl _ with devPub := fun x => absurd x h, trees := Nat.le_max_right _ _ }, Nat.le_refl _⟩

theorem execAuthResponse_onward (sess : SessRef) (response : List Byte) (s : State) :
    ∀ s', (execAuthResponse sess response s) = .next s' → s.Onward s' := by
  intro s' h
  simp only [execAuthResponse] at h
  (repeat' split at h) <;> (cases Host.Outcome.next.inj h; exact .of_held (by simp))

theorem execLcAdvance_onward (sess : SessRef) (v : Byte) (s : State) :
    ∀ s', (execLcAdvance sess v s) = .next s' → s.Onward s' := by
  intro t_ h_
  have e_ := Host.Outcome.next.inj h_
  subst e_
  exact odCommand_onward _ _ _ _ _ _ (ownLcAdvance_onward _ _)

theorem execLcToken_onward (sess : SessRef) (token : List Byte) (s : State) :
    ∀ s', (execLcToken sess token s) = .next s' → s.Onward s' := by
  intro t_ h_
  have e_ := Host.Outcome.next.inj h_
  subst e_
  exact odCommand_onward _ _ _ _ _ _ (ownLcToken_onward _)

theorem execLcScrap_onward (sess : SessRef) (v : Word64) (s : State) :
    ∀ s', (execLcScrap sess v s) = .next s' → s.Onward s' := by
  intro t_ h_
  have e_ := Host.Outcome.next.inj h_
  subst e_
  exact odCommand_onward _ _ _ _ _ _ (ownLcScrap_onward _ _)

theorem execVrootRevoke0_onward (sess : SessRef) (v : Byte) (s : State) :
    ∀ s', (execVrootRevoke0 sess v s) = .next s' → s.Onward s' := by
  intro t_ h_
  have e_ := Host.Outcome.next.inj h_
  subst e_
  exact odCommand_onward _ _ _ _ _ _ ownVrootRevoke0_onward

theorem execCustKeyHash_onward (sess : SessRef) (v : BitVec 256) (s : State) :
    ∀ s', (execCustKeyHash sess v s) = .next s' → s.Onward s' := by
  intro s' h
  simp only [execCustKeyHash] at h
  (repeat' split at h) <;> (cases Host.Outcome.next.inj h; exact .of_held (by simp))

theorem execJtagOpen_onward (sess : SessRef) (v : Byte) (s : State) :
    ∀ s', (execJtagOpen sess v s) = .next s' → s.Onward s' := by
  intro s' h
  simp only [execJtagOpen] at h
  (repeat' split at h) <;> (cases Host.Outcome.next.inj h; exact .of_held (by simp))

theorem execJtagTapAccess_onward (scan : TapScan) (s : State) :
    ∀ s', (execJtagTapAccess scan s) = .next s' → s.Onward s' := by
  intro s' h
  simp only [execJtagTapAccess] at h
  (repeat' split at h) <;> (cases Host.Outcome.next.inj h; exact .of_held (by simp))

theorem execDevkeyGen_onward (sess : SessRef) (v : Byte) (s : State) :
    ∀ s', (execDevkeyGen sess v s) = .next s' → s.Onward s' := by
  intro t_ h_
  have e_ := Host.Outcome.next.inj h_
  subst e_
  exact odCommand_onward _ _ _ _ _ _ ownDevkeyGen_onward

theorem execDevkeyCert_onward (sess : SessRef) (cert : List Byte) (s : State) :
    ∀ s', (execDevkeyCert sess cert s) = .next s' → s.Onward s' := by
  intro s' h
  simp only [execDevkeyCert] at h
  (repeat' split at h) <;> (cases Host.Outcome.next.inj h; exact .of_held (by simp))

theorem execAttestNonce_onward (sess : SessRef) (nonce : BitVec 256) (s : State) :
    ∀ s', (execAttestNonce sess nonce s) = .next s' → s.Onward s' := by
  intro s' h
  simp only [execAttestNonce] at h
  (repeat' split at h) <;> (cases Host.Outcome.next.inj h; exact .of_held (by simp))

theorem execAttestReportReady_onward (sess : SessRef) (s : State) :
    ∀ s', (execAttestReportReady sess s) = .next s' → s.Onward s' := by
  intro t_ h_
  simp only [execAttestReportReady] at h_
  (repeat' split at h_) <;> (have e_ := Host.Outcome.next.inj h_; subst e_)
  · exact .refl _
  · exact .of_held (by simp)
  all_goals
    refine .trans (fuses_onward s _ (reserve_grew s.life)) (.of_held ?_)
    simp <;> rfl

end Sys2Proof.Machine
end

