-- ==== Sys2Proof/Laws/Startup.lean ====
section
/-!
SUPPORT. What the operations of Machine/Startup.lean do to the queue, the fuses and the time.
-/
namespace Sys2Proof.Machine

@[simp] theorem canFrom_held (s : State) (func dst src txn : Nat) (data : List Byte) :
    (State.canFrom s func dst src txn data).held = s.held := by
  simp [State.canFrom]

@[simp] theorem canSend_held (s : State) (func dst txn : Nat) (data : List Byte) :
    (State.canSend s func dst txn data).held = s.held := by
  simp [State.canSend]

@[simp] theorem claim_held (s : State) (candidate : Nat) :
    (State.claim s candidate).held = s.held := by
  simp [State.claim]

@[simp] theorem takeAddress_held (s : State) (ga : Nat) :
    (State.takeAddress s ga).held = s.held := by
  simp [State.takeAddress]

@[simp] theorem romImage_held (s : State) :
    (State.romImage s).held = s.held := by
  simp [State.romImage]

@[simp] theorem restorePorts_held (s : State) :
    (State.restorePorts s).held = s.held := by
  simp [State.restorePorts]

@[simp] theorem bootImage_held (s : State) (cold : Bool) :
    (State.bootImage s cold).held = s.held := by
  simp [State.bootImage]

@[simp] theorem updCoreReady_held (s : State) :
    (State.updCoreReady s).held = s.held := by
  simp [State.updCoreReady]

@[simp] theorem updPortsReady_held (s : State) :
    (State.updPortsReady s).held = s.held := by
  simp [State.updPortsReady]

@[simp] theorem seamTrains_held (s : State) (t : Nat) :
    (State.seamTrains s t).held = s.held := by
  simp [State.seamTrains]

@[simp] theorem hubRelease_held (s : State) :
    (State.hubRelease s).held = s.held := by
  simp [State.hubRelease]

@[simp] theorem tileRelease_held (s : State) (t : Nat) :
    (State.tileRelease s t).held = s.held := by
  simp [State.tileRelease]

@[simp] theorem portFatalEnds_held (s : State) (p : Nat) :
    (State.portFatalEnds s p).held = s.held := by
  simp [State.portFatalEnds]

@[simp] theorem reportCause_held (s : State) :
    (State.reportCause s).held = s.held := by
  unfold State.reportCause
  (repeat' split) <;> simp

theorem lcRepair_land (n p : Nat) (h : lcRepair n = some p) : Nat.land n p = n := by
  unfold lcRepair at h
  split at h
  · cases h; exact Nat.and_self _
  · simp only [Option.map_eq_some_iff] at h
    obtain ⟨m, hm, rfl⟩ := h
    have := List.find?_some hm
    simp only [lcInterrupted, Bool.and_eq_true, beq_iff_eq] at this
    exact this.1.1.1.2

theorem lcRepair_legal (n p : Nat) (h : lcRepair n = some p) : p ∈ [0, 3, 15, 63, 255] := by
  unfold lcRepair at h
  split at h
  · rename_i hc
    cases h
    simpa using hc
  · simp only [Option.map_eq_some_iff] at h
    obtain ⟨m, hm, rfl⟩ := h
    have := List.mem_of_find?_eq_some hm
    simp only [lcMoves, List.mem_cons, List.not_mem_nil, or_false] at this
    rcases this with h | h | h | h | h | h | h | h <;> rw [h] <;> simp

theorem romFuses_onward (s : State) : s.Onward s.romFuses := by
  have h : ∀ u : State, u.held = (if (u.lcState == 3 || u.lcState == 4) && !u.life.eraseDone
      then u.erase.raise 615 0 7 false island else u).held := by
    intro u; split <;> simp
  unfold State.romFuses
  split
  · rename_i p hp
    exact .trans (fuses_onward _ _ (lcPattern_land _ _ (lcRepair_land _ _ hp) (lcRepair_legal _ _ hp))) (.of_held (h _).symm)
  · exact .of_held ((h _).symm.trans (by simp))

theorem boot_onward (s : State) (cold : Bool) : s.Onward (s.boot cold) := by
  have h : ∀ u : State, (({ u with st := { u.st with relAt := u.now } } : State)).held = u.held := fun _ => rfl
  unfold State.boot
  refine .trans (romFuses_onward s) ?_
  dsimp only
  split <;> refine .of_held ?_ <;> simp [h]

theorem odCommandThen_onward (s : State) (sid key len v : Nat) (own : State → OdAns) (after : State → State)
    (h_after : ∀ s : State, s.Onward (after s)) : s.Onward (s.odCommandThen sid key len v own after) := by
  unfold State.odCommandThen
  split
  · exact .refl _
  · exact .of_held (by simp)
  · rename_i t ht
    have h : s.Onward ((t.odWrite sid key len v (fun s => (own s, s))).2.answerOd sid
        (t.odWrite sid key len v (fun s => (own s, s))).1) :=
      .of_held (by simp [sessionFor_held s sid t ht])
    dsimp only
    split
    · exact h.trans (h_after _)
    · exact h

@[simp] theorem odCommandThen_held (s : State) (sid key len v : Nat) (own : State → OdAns) (after : State → State)
    (h_after : ∀ s : State, (after s).held = s.held) : (s.odCommandThen sid key len v own after).held = s.held := by
  unfold State.odCommandThen
  split
  · rfl
  · simp
  · rename_i t ht
    dsimp only
    split <;> simp [h_after, sessionFor_held s sid t ht]

theorem hkRelease_onward (s : State) : s.Onward s.hkRelease := by
  unfold State.hkRelease
  refine .trans (.of_held (t := State.resumeTimers _) ?_) (.trans (boot_onward _ false) (.of_held (reportCause_held _)))
  exact (resumeTimers_held _).trans rfl

theorem execPowerOnResetRelease_onward (ga : BitVec 6) (s : State) :
    ∀ s', (execPowerOnResetRelease ga s) = .next s' → s.Onward s' := by
  intro t_ h_
  simp only [execPowerOnResetRelease] at h_
  split at h_ <;> (have e_ := Host.Outcome.next.inj h_; subst e_)
  · exact .refl _
  · exact .trans (.of_held (by simp)) (boot_onward _ _)

theorem execDataPathRelease_onward (s : State) :
    ∀ s', (execDataPathRelease s) = .next s' → s.Onward s' := by
  intro s' h
  simp only [execDataPathRelease] at h
  (repeat' split at h) <;> (have e := Host.Outcome.next.inj h; subst e; rw [onward_iff]; simp)

theorem execResetRelease_onward (dom : ResetDomain) (s : State) :
    ∀ s', (execResetRelease dom s) = .next s' → s.Onward s' := by
  intro t_ h_
  unfold execResetRelease at h_
  split at h_
  · split at h_ <;> (have e_ := Host.Outcome.next.inj h_; subst e_)
    · exact .refl _
    · exact .trans (advance_onward s _) (hkRelease_onward _)
  · split at h_ <;> (have e_ := Host.Outcome.next.inj h_; subst e_)
    · exact .trans (advance_onward s _) (.of_held (hubRelease_held _))
    · exact .refl _
  · split at h_ <;> (have e_ := Host.Outcome.next.inj h_; subst e_)
    · exact .refl _
    · exact .trans (advance_onward s _) (.of_held (tileRelease_held _ _))
  · split at h_ <;> (have e_ := Host.Outcome.next.inj h_; subst e_)
    · exact .refl _
    · exact .of_held (by simp)

theorem execResetHk_onward (sess : SessRef) (v : Byte) (s : State) :
    ∀ s', (execResetHk sess v s) = .next s' → s.Onward s' := by
  intro s' h
  simp only [execResetHk] at h
  (repeat' split at h) <;> (cases Host.Outcome.next.inj h; exact .of_held (by simp))

theorem execResetHub_onward (sess : SessRef) (v : Byte) (s : State) :
    ∀ s', (execResetHub sess v s) = .next s' → s.Onward s' := by
  intro s' h
  simp only [execResetHub] at h
  (repeat' split at h) <;> (cases Host.Outcome.next.inj h; exact .of_held (by simp))

theorem execHkRstN_onward (ga : BitVec 6) (s : State) :
    ∀ s', (execHkRstN ga s) = .next s' → s.Onward s' := by
  intro s' h
  simp only [execHkRstN] at h
  (repeat' split at h) <;> (cases Host.Outcome.next.inj h; exact .of_held (by simp))

theorem execHkWatchdog_onward (s : State) :
    ∀ s', (execHkWatchdog s) = .next s' → s.Onward s' := by
  intro s' h
  simp only [execHkWatchdog] at h
  (repeat' split at h) <;> (cases Host.Outcome.next.inj h; exact .of_held (by simp))

theorem execServicePortLinkChange_onward (up : Bool) (s : State) :
    ∀ s', (execServicePortLinkChange up s) = .next s' → s.Onward s' := by
  intro s' h
  simp only [execServicePortLinkChange] at h
  (repeat' split at h) <;> (cases Host.Outcome.next.inj h; exact .of_held (by simp))

end Sys2Proof.Machine
end

