-- ==== Sys2Proof/Laws/Time.lean ====
section
/-!
SUPPORT. What the operations of Machine/Time.lean do to the queue, the fuses and the time.
-/
namespace Sys2Proof.Machine

theorem loadEdge_aux (u s : State) (hu : u.held = s.held) (v : Nat) :
    ((({ u with tm := { u.tm with ctBase := v, load := none, loaded := true, timeDue := u.tm.timeWas + b2n (u.timeDueAt v) } } : State).setO
      K.LOAD_PENDING 0).incO K.CT_LOADS).updCtState.held = s.held := by
  rw [updCtState_held, incO_held, setO_held, ← hu]
  rfl

@[simp] theorem ownCtLoad_held (v : Nat) (s : State) :
    (ownCtLoad v s).2.held = s.held := by
  simp [ownCtLoad]

@[simp] theorem updLine_held (s : State) (n : Nat) (f : Line → Line) :
    (State.updLine s n f).held = s.held := by
  simp [State.updLine]

@[simp] theorem setPulses_held (s : State) (n : Nat) (ps : List Pulse) :
    (State.setPulses s n ps).held = s.held := by
  simp [State.setPulses]

@[simp] theorem loadPulses_held (s : State) (shift : Nat) (n : Nat) :
    (State.loadPulses s shift n).held = s.held := by
  simp [State.loadPulses]

@[simp] theorem loadEdge_held (s : State) (v : Nat) :
    (State.loadEdge s v).held = s.held := by
  exact loadEdge_aux _ s (foldl_held _ (fun u n => loadPulses_held u _ n) _ s) v

@[simp] theorem syncMiss_held (s : State) :
    (State.syncMiss s).held = s.held := by
  simp [State.syncMiss]

@[simp] theorem missFar_held (s : State) (l : List (Int × Bool)) :
    (State.missFar s l).held = s.held := by
  simp [State.missFar]

@[simp] theorem acceptSync_held (s : State) (t : Nat) (e : Int) :
    (State.acceptSync s t e).held = s.held := by
  simp [State.acceptSync]

@[simp] theorem measureSync_held (s : State) (t : Nat) :
    (State.measureSync s t).held = s.held := by
  simp [State.measureSync]

@[simp] theorem fireFreeze_held (s : State) (n : Nat) (rise : Bool) (stamp t : Nat) (w : Nat) :
    (State.fireFreeze s n rise stamp t w).held = s.held := by
  simp [State.fireFreeze]

@[simp] theorem buildWindow_held (s : State) :
    (State.buildWindow s).held = s.held := by
  simp [State.buildWindow]

@[simp] theorem stampEdge_held (s : State) (n : Nat) (rise : Bool) (t : Nat) :
    (State.stampEdge s n rise t).held = s.held := by
  simp [State.stampEdge]

@[simp] theorem ownOutAt_held (n v : Nat) (s : State) :
    (ownOutAt n v s).2.held = s.held := by
  simp only [ownOutAt]
  (repeat' split) <;> simp [*]

@[simp] theorem ownOutCancel_held (n : Nat) (s : State) :
    (ownOutCancel n s).2.held = s.held := by
  simp [ownOutCancel]

theorem edge_onward (s : State) (n : Nat) (level : Bool) (t width : Nat) : s.Onward (s.edge n level t width) := by
  unfold State.edge
  split
  · exact .of_held (by simp)
  · refine .trans (advance_onward s t) ?_
    dsimp only
    repeat' split
    all_goals first | (with_reducible exact .refl _) | exact .of_held (by simp)

theorem execRef100Loss_onward (s : State) :
    ∀ s', (execRef100Loss s) = .next s' → s.Onward s' := by
  intro s' h
  simp only [execRef100Loss] at h
  (repeat' split at h) <;> (cases Host.Outcome.next.inj h; exact .of_held (by simp))

theorem execRef100Return_onward (s : State) :
    ∀ s', (execRef100Return s) = .next s' → s.Onward s' := by
  intro s' h
  simp only [execRef100Return] at h
  (repeat' split at h) <;> (cases Host.Outcome.next.inj h; exact .of_held (by simp))

theorem execCtLoad_onward (sess : SessRef) (v : Word64) (s : State) :
    ∀ s', (execCtLoad sess v s) = .next s' → s.Onward s' := by
  intro s' h
  simp only [execCtLoad] at h
  (repeat' split at h) <;> (cases Host.Outcome.next.inj h; exact .of_held (by simp))

theorem execCtLoadEdge_onward (s : State) :
    ∀ s', (execCtLoadEdge s) = .next s' → s.Onward s' := by
  intro s' h
  simp only [execCtLoadEdge] at h
  (repeat' split at h) <;> (cases Host.Outcome.next.inj h; exact .of_held (by simp))

theorem execSyncEdge_onward (at_ : Nat) (s : State) :
    ∀ s', (execSyncEdge at_ s) = .next s' → s.Onward s' := by
  intro s' h
  simp only [execSyncEdge] at h
  (repeat' split at h) <;> (have e := Host.Outcome.next.inj h; subst e; rw [onward_iff]; simp)

theorem execSyncMiss_onward (s : State) :
    ∀ s', (execSyncMiss s) = .next s' → s.Onward s' := by
  intro t_ h_
  unfold execSyncMiss at h_
  (repeat' split at h_) <;> (have e_ := Host.Outcome.next.inj h_; subst e_)
  · exact .refl _
  · refine .trans (t := s.advance (s.tm.lastEdge + (s.c K.SYNC_PERIOD + 1) * Config.us)) (advance_onward s _) (.of_held ?_)
    exact (syncMiss_held _).trans (tm_held _ _)

theorem execTrigEdge_onward (line : LineIx) (level : Bool) (at_ width : Nat) (s : State) :
    ∀ s', (execTrigEdge line level at_ width s) = .next s' → s.Onward s' := by
  intro t_ h_
  have e_ := Host.Outcome.next.inj h_
  subst e_
  exact edge_onward _ _ _ _ _

theorem execHoldoffEnd_onward (line : LineIx) (level : Bool) (s : State) :
    ∀ s', (execHoldoffEnd line level s) = .next s' → s.Onward s' := by
  intro s' h
  simp only [execHoldoffEnd] at h
  (repeat' split at h) <;> (have e := Host.Outcome.next.inj h; subst e; rw [onward_iff]; simp)

theorem execTriggerMessageBuild_onward (s : State) :
    ∀ s', (execTriggerMessageBuild s) = .next s' → s.Onward s' := by
  intro s' h
  simp only [execTriggerMessageBuild] at h
  (repeat' split at h) <;> (have e := Host.Outcome.next.inj h; subst e; rw [onward_iff]; simp)

theorem execTimeMessageSend_onward (s : State) :
    ∀ s', (execTimeMessageSend s) = .next s' → s.Onward s' := by
  intro s' h
  simp only [execTimeMessageSend] at h
  (repeat' split at h) <;> (cases Host.Outcome.next.inj h; exact .of_held (by simp))

theorem execOutAt_onward (sess : SessRef) (line : LineIx) (v : Word64) (s : State) :
    ∀ s', (execOutAt sess line v s) = .next s' → s.Onward s' := by
  intro s' h
  simp only [execOutAt] at h
  (repeat' split at h) <;> (cases Host.Outcome.next.inj h; exact .of_held (by simp))

theorem execOutCancel_onward (sess : SessRef) (line : LineIx) (v : Byte) (s : State) :
    ∀ s', (execOutCancel sess line v s) = .next s' → s.Onward s' := by
  intro s' h
  simp only [execOutCancel] at h
  (repeat' split at h) <;> (cases Host.Outcome.next.inj h; exact .of_held (by simp))

theorem execPulseAssert_onward (line : LineIx) (s : State) :
    ∀ s', (execPulseAssert line s) = .next s' → s.Onward s' := by
  intro t_ h_
  unfold execPulseAssert at h_
  dsimp only at h_
  (repeat' split at h_) <;> (have e_ := Host.Outcome.next.inj h_; subst e_)
  · exact .refl _
  · exact .refl _
  · exact .trans (advance_onward s _) (.of_held (setPulses_held _ _ _))
  · exact .trans (.trans (advance_onward s _) (.of_held (setPulses_held _ _ _))) (edge_onward _ _ _ _ _)

theorem execPulseRelease_onward (line : LineIx) (s : State) :
    ∀ s', (execPulseRelease line s) = .next s' → s.Onward s' := by
  intro t_ h_
  unfold execPulseRelease at h_
  dsimp only at h_
  (repeat' split at h_) <;> (have e_ := Host.Outcome.next.inj h_; subst e_)
  · exact .refl _
  · exact .refl _
  · exact .trans (advance_onward s _) (.of_held (setPulses_held _ _ _))
  · exact .trans (.trans (advance_onward s _) (.of_held (setPulses_held _ _ _))) (edge_onward _ _ _ _ _)
  · exact .trans (.trans (advance_onward s _) (.of_held (setPulses_held _ _ _))) (edge_onward _ _ _ _ _)

end Sys2Proof.Machine
end

