-- ==== Sys2Proof/Laws/Plank.lean ====
section
/-!
SUPPORT. What the operations of Machine/Plank.lean do to the queue, the fuses and the time.
-/
namespace Sys2Proof.Machine

@[simp] theorem pl_held (s : State) (x : Plank) : ({ s with pl := x } : State).held = s.held := rfl

@[simp] theorem setShaper_held (s : State) (pr : Nat) (x : Shaper) :
    (State.setShaper s pr x).held = s.held := by
  simp [State.setShaper]

@[simp] theorem shaperCharge_held (s : State) (i : Nat) (c : Cell) :
    (State.shaperCharge s i c).2.held = s.held := by
  unfold State.shaperCharge
  (repeat' split) <;> simp

@[simp] theorem setPolicer_held (s : State) (p : Nat) (x : Policer) :
    (State.setPolicer s p x).held = s.held := by
  simp [State.setPolicer]

@[simp] theorem police_held (s : State) (p len : Nat) :
    (State.police s p len).2.held = s.held := by
  simp only [State.police]
  (repeat' split) <;> simp [*]

@[simp] theorem countHolds_held (s : State) :
    (State.countHolds s).held = s.held := by
  simp [State.countHolds]

@[simp] theorem tickBuckets_held (s : State) :
    (State.tickBuckets s).held = s.held := by
  simp [State.tickBuckets]

@[simp] theorem freshTokens_held (s : State) :
    (State.freshTokens s).held = s.held := by
  simp [State.freshTokens]

@[simp] theorem tickRenorm_held (s : State) :
    (State.tickRenorm s).held = s.held := by
  simp [State.tickRenorm]

@[simp] theorem setAdv_held (s : State) (p : Nat) (cls : Cls) (n : Nat) :
    (State.setAdv s p cls n).held = s.held := by
  simp [State.setAdv]

@[simp] theorem admitPkt_held (s : State) (p q : Nat) (cls lim : Cls) (colour : Colour) (bytes data : Nat) (m : Out) :
    (State.admitPkt s p q cls lim colour bytes data m).held = s.held := by
  simp [State.admitPkt]

@[simp] theorem pushCrown_held (s : State) (p : Nat) (x0_ : Nat) :
    (State.pushCrown s p x0_).held = s.held := by
  induction x0_ generalizing s with
    | zero => rfl
    | succ n ih =>
      simp only [State.pushCrown]
      repeat' (first | (with_reducible rfl) | (simp [*]; done) | split | (with_reducible refine (foldl_held _ (fun s a => ?_) _ _).trans ?_) | (rename_i h_; have h2_ := held_of_eq h_; simp at h2_; simp [h2_]; done) | simp [*])

@[simp] theorem killRequest_held (s : State) (id : Nat) :
    (State.killRequest s id).held = s.held := by
  unfold State.killRequest
  (repeat' split) <;> simp

@[simp] theorem brimPut_held (s : State) (t w line data : Nat) :
    (State.brimPut s t w line data).held = s.held := by
  simp [State.brimPut]

@[simp] theorem ackConflict_held (s : State) (h w line : Nat) :
    (State.ackConflict s h w line).held = s.held := by
  unfold State.ackConflict
  (repeat' split) <;> simp

@[simp] theorem sendLateAcks_held (s : State) :
    (State.sendLateAcks s).held = s.held := by
  simp [State.sendLateAcks]

@[simp] theorem carried_held (s : State) (pkt : Nat) :
    (State.carried s pkt).held = s.held := by
  unfold State.carried
  (repeat' split) <;> simp

@[simp] theorem loseSeq_held (s : State) (c : Cell) :
    (State.loseSeq s c).held = s.held := by
  simp [State.loseSeq]

@[simp] theorem discardCell_held (s : State) (stage : Nat) (c : Cell) :
    (State.discardCell s stage c).held = s.held := by
  simp [State.discardCell]

@[simp] theorem headerFault_held (s : State) (stage syn : Nat) (c : Cell) :
    (State.headerFault s stage syn c).held = s.held := by
  simp [State.headerFault]

@[simp] theorem dropRest_held (s : State) (stage : Nat) (c : Cell) :
    (State.dropRest s stage c).held = s.held := by
  simp [State.dropRest]

@[simp] theorem packetCount_held (s : State) (stage : Nat) (c : Cell) :
    (State.packetCount s stage c).2.held = s.held := by
  simp [State.packetCount]

@[simp] theorem spanCheck_held (s : State) (c : Cell) :
    (State.spanCheck s c).2.held = s.held := by
  simp only [State.spanCheck]
  (repeat' split) <;> simp [*]

@[simp] theorem sendSlot_held (s : State) (p : Nat) (e : Nat × BSlot) :
    (State.sendSlot s p e).held = s.held := by
  simp [State.sendSlot]

@[simp] theorem sendUrgent_held (s : State) (p : Nat) :
    (State.sendUrgent s p).held = s.held := by
  simp only [State.sendUrgent]
  (repeat' (first | (simp [*]; done) | split | (with_reducible refine (foldl_held _ (fun s a => ?_) _ _).trans ?_) | (rename_i h; have h' := held_of_eq h; simp at h'; simp [h']; done) | simp [*]))

@[simp] theorem giveReorder_held (s : State) (c : Cell) :
    (State.giveReorder s c).held = s.held := by
  simp [State.giveReorder]

@[simp] theorem release_held (s : State) (c : Cell) :
    (State.release s c).held = s.held := by
  simp [State.release]

@[simp] theorem releaseHeld_held (s : State) (k : Nat) (x0_ : Nat) :
    (State.releaseHeld s k x0_).held = s.held := by
  induction x0_ generalizing s with
    | zero => rfl
    | succ n ih =>
      simp only [State.releaseHeld]
      repeat' (first | (with_reducible rfl) | (simp [*]; done) | split | (with_reducible refine (foldl_held _ (fun s a => ?_) _ _).trans ?_) | (rename_i h_; have h2_ := held_of_eq h_; simp at h2_; simp [h2_]; done) | simp [*])

@[simp] theorem releaseFlow_held (s : State) (k : Nat) :
    (State.releaseFlow s k).held = s.held := by
  simp [State.releaseFlow]

@[simp] theorem resequence_held (s : State) (c : Cell) :
    (State.resequence s c).held = s.held := by
  simp [State.resequence]

@[simp] theorem arriveEgress_held (s : State) (c : Cell) :
    (State.arriveEgress s c).held = s.held := by
  unfold State.arriveEgress
  (repeat' split) <;> simp

@[simp] theorem landingLeft_held (s : State) (i : Nat) (c : Cell) :
    (State.landingLeft s i c).held = s.held := by
  simp [State.landingLeft]

@[simp] theorem unland_held (s : State) (i : Nat) (c : Cell) :
    (State.unland s i c).held = s.held := by
  simp [State.unland]

@[simp] theorem land_held (s : State) (i : Nat) (c : Cell) :
    (State.land s i c).held = s.held := by
  simp only [State.land]
  (repeat' split) <;> simp [*]

@[simp] theorem losePacket_held (s : State) (c : Cell) :
    (State.losePacket s c).held = s.held := by
  simp [State.losePacket]

@[simp] theorem forwardVoq_held (s : State) (i q : Nat) (cls : Cls) :
    (State.forwardVoq s i q cls).held = s.held := by
  unfold State.forwardVoq
  (repeat' split) <;> simp

@[simp] theorem takeReorder_held (s : State) (o : Nat) (c : Cell) (r : Nat) :
    (State.takeReorder s o c r).2.held = s.held := by
  unfold State.takeReorder
  (repeat' split) <;> simp

theorem takeLanded_held (s : State) (i o : Nat) (cls : Cls) (fulling : Bool) (r : Cell × State)
    (h : s.takeLanded i o cls fulling = some r) : r.2.held = s.held := by
  unfold State.takeLanded at h
  dsimp only at h
  (repeat' split at h)
  · cases h
  · cases h
  · simp only [Option.some.injEq] at h
    subst h
    simp

@[simp] theorem advancePtrs_held (s : State) (x : Xfer) :
    (State.advancePtrs s x).held = s.held := by
  simp [State.advancePtrs]

@[simp] theorem matching_held (s : State) :
    (State.matching s).2.held = s.held := by
  simp [State.matching]

@[simp] theorem crossPlank_held (s : State) (x : Xfer) : (s.crossPlank x).held = s.held := by
  unfold State.crossPlank
  repeat' split
  · rfl
  · rfl
  · rename_i h
    simpa using takeLanded_held _ _ _ _ _ _ h

@[simp] theorem conflictFires_held (s : State) :
    (State.conflictFires s).held = s.held := by
  simp [State.conflictFires]

@[simp] theorem toIntermediate_held (s : State) (i k o : Nat) (cls : Cls) : (s.toIntermediate i k o cls).held = s.held := by
  unfold State.toIntermediate
  split
  · rfl
  · rename_i h
    simpa using takeLanded_held _ _ _ _ _ _ h

@[simp] theorem stage1_held (s : State) (i : Nat) :
    (State.stage1 s i).held = s.held := by
  simp only [State.stage1]
  (repeat' split) <;> simp [*]

@[simp] theorem stage2_held (s : State) (k : Nat) :
    (State.stage2 s k).held = s.held := by
  simp only [State.stage2]
  (repeat' split) <;> simp [*]

@[simp] theorem admitAgent_held (s : State) (q o : Nat) (cls : Cls) (f : Nat) (c : Cell) :
    (State.admitAgent s q o cls f c).held = s.held := by
  unfold State.admitAgent
  (repeat' split) <;> simp

@[simp] theorem countTx_held (s : State) (q : Nat) (c : Cell) :
    (State.countTx s q c).held = s.held := by
  unfold State.countTx
  (repeat' split) <;> simp

@[simp] theorem dequeue_held (s : State) (q o : Nat) (cls : Cls) :
    (State.dequeue s q o cls).held = s.held := by
  unfold State.dequeue
  (repeat' split) <;> simp

@[simp] theorem afterPick_held (s : State) (q : Nat) (cls : Cls) :
    (State.afterPick s q cls).held = s.held := by
  simp only [State.afterPick]
  (repeat' split) <;> simp [*]

theorem execTileForwardToLanding_onward (i : PortIx) (s : State) :
    ∀ s', (execTileForwardToLanding i s) = .next s' → s.Onward s' := by
  intro s' h
  simp only [execTileForwardToLanding] at h
  (repeat' split at h) <;> (cases Host.Outcome.next.inj h; exact .of_held (by simp))

theorem execCardingMatchSlot_onward (extra : List (PortIx × PortIx × Cls)) (s : State) :
    ∀ s', (execCardingMatchSlot extra s) = .next s' → s.Onward s' := by
  intro s' h
  simp only [execCardingMatchSlot] at h
  (repeat' split at h) <;> (cases Host.Outcome.next.inj h; exact .of_held (by simp))

theorem execFullingStage1_onward (s : State) :
    ∀ s', (execFullingStage1 s) = .next s' → s.Onward s' := by
  intro s' h
  simp only [execFullingStage1] at h
  (repeat' split at h) <;> (cases Host.Outcome.next.inj h; exact .of_held (by simp))

theorem execFullingStage2_onward (s : State) :
    ∀ s', (execFullingStage2 s) = .next s' → s.Onward s' := by
  intro s' h
  simp only [execFullingStage2] at h
  (repeat' split at h) <;> (cases Host.Outcome.next.inj h; exact .of_held (by simp))

theorem execStartDrainToCarding_onward (s : State) :
    ∀ s', (execStartDrainToCarding s) = .next s' → s.Onward s' := by
  intro s' h
  simp only [execStartDrainToCarding] at h
  (repeat' split at h) <;> (cases Host.Outcome.next.inj h; exact .of_held (by simp))

theorem execCardingStart_onward (s : State) :
    ∀ s', (execCardingStart s) = .next s' → s.Onward s' := by
  intro s' h
  simp only [execCardingStart] at h
  (repeat' split at h) <;> (cases Host.Outcome.next.inj h; exact .of_held (by simp))

theorem execMatcherSelftestDone_onward (pass : Bool) (s : State) :
    ∀ s', (execMatcherSelftestDone pass s) = .next s' → s.Onward s' := by
  intro s' h
  simp only [execMatcherSelftestDone] at h
  (repeat' split at h) <;> (cases Host.Outcome.next.inj h; exact .of_held (by simp))

theorem execAgentMergeAdmit_onward (p : PortIx) (cls : Cls) (s : State) :
    ∀ s', (execAgentMergeAdmit p cls s) = .next s' → s.Onward s' := by
  intro s' h
  simp only [execAgentMergeAdmit] at h
  (repeat' split at h) <;> (cases Host.Outcome.next.inj h; exact .of_held (by simp))

theorem execEgressClassPick_onward (p : PortIx) (s : State) :
    ∀ s', (execEgressClassPick p s) = .next s' → s.Onward s' := by
  intro s' h
  simp only [execEgressClassPick] at h
  (repeat' split at h) <;> (cases Host.Outcome.next.inj h; exact .of_held (by simp))

end Sys2Proof.Machine
end

