-- ==== Sys2Proof/Laws/Route.lean ====
section
/-!
SUPPORT. What the operations of Machine/Route.lean do to the queue, the fuses and the time.
-/
namespace Sys2Proof.Machine

theorem execHdmDecoderCommit_onward (h : HostIx) (ix : Fin 49) (set : HdmSettings) (s : State) :
    ∀ s', (execHdmDecoderCommit h ix set s) = .next s' → s.Onward s' := by
  intro s' h
  simp only [execHdmDecoderCommit] at h
  (repeat' split at h) <;> (cases Host.Outcome.next.inj h; exact .of_held (by simp))

end Sys2Proof.Machine
end

