-- ==== Sys2Proof/Laws/Guards.lean ====
section
/-!
SUPPORT. What the operations of Machine/Guards.lean do to the queue, the fuses and the time.
-/
namespace Sys2Proof.Machine

@[simp] theorem tagLookup_held (s : State) (t : Nat) (d : Dest) :
    (State.tagLookup s t d).2.held = s.held := by
  unfold State.tagLookup
  (repeat' split) <;> simp

@[simp] theorem setTagLater_held (s : State) (m g v : Nat) :
    (State.setTagLater s m g v).held = s.held := by
  simp [State.setTagLater]

@[simp] theorem loseTag_held (s : State) (m g : Nat) :
    (State.loseTag s m g).held = s.held := by
  simp [State.loseTag]

@[simp] theorem loseTagLine_held (s : State) (m line : Nat) :
    (State.loseTagLine s m line).held = s.held := by
  simp [State.loseTagLine]

@[simp] theorem tagLineCheck_held (s : State) (m line : Nat) :
    (State.tagLineCheck s m line).held = s.held := by
  have h0 := injFire_held s 548 0
  have h1 := injFire_held s 548 1
  unfold State.tagLineCheck
  split <;> simp_all

@[simp] theorem tagLineAt_held (s : State) (d : Dest) :
    (State.tagLineAt s d).held = s.held := by
  unfold State.tagLineAt
  (repeat' split) <;> simp

@[simp] theorem portGuardFault_held (s : State) (p master access a : Nat) (f : GFault) :
    (State.portGuardFault s p master access a f).held = s.held := by
  simp [State.portGuardFault]

@[simp] theorem publishEpoch_held (s : State) :
    (State.publishEpoch s).held = s.held := by
  simp [State.publishEpoch]

@[simp] theorem countAccess_held (s : State) :
    (State.countAccess s).held = s.held := by
  simp [State.countAccess]

@[simp] theorem ownGuardPublish_held (s : State) :
    (ownGuardPublish s).2.held = s.held := by
  unfold ownGuardPublish
  (repeat' split) <;> simp

@[simp] theorem ownGuardSync_held (s : State) :
    (ownGuardSync s).2.held = s.held := by
  simp [ownGuardSync]

@[simp] theorem ownSliceRgnCmd_held (v : Nat) (s : State) :
    (ownSliceRgnCmd v s).2.held = s.held := by
  simp only [ownSliceRgnCmd]
  (repeat' split) <;> simp [*]

@[simp] theorem ownTagCmd_held (v : Nat) (s : State) :
    (ownTagCmd v s).2.held = s.held := by
  simp only [ownTagCmd]
  (repeat' split) <;> simp [*]

@[simp] theorem coreWordWrite_held (s : State) (c k i v : Nat) :
    (State.coreWordWrite s c k i v).held = s.held := by
  simp [State.coreWordWrite]

@[simp] theorem coreRegionLoad_held (s : State) (c k hi : Nat) :
    (State.coreRegionLoad s c k hi).held = s.held := by
  simp [State.coreRegionLoad]

@[simp] theorem unitWrite_held (s : State) (via : CsrVia) (c : Nat) (f : State → State) (h_f : ∀ s_, (f s_).held = s_.held) :
    (State.unitWrite s via c f).held = s.held := by
  simp [State.unitWrite, *]

theorem execGuardPublish_onward (sess : SessRef) (v : Byte) (s : State) :
    ∀ s', (execGuardPublish sess v s) = .next s' → s.Onward s' := by
  intro s' h
  simp only [execGuardPublish] at h
  (repeat' split at h) <;> (cases Host.Outcome.next.inj h; exact .of_held (by simp))

theorem execGuardSync_onward (sess : SessRef) (v : Byte) (s : State) :
    ∀ s', (execGuardSync sess v s) = .next s' → s.Onward s' := by
  intro s' h
  simp only [execGuardSync] at h
  (repeat' split at h) <;> (cases Host.Outcome.next.inj h; exact .of_held (by simp))

theorem execGuardSyncDone_onward (s : State) :
    ∀ s', (execGuardSyncDone s) = .next s' → s.Onward s' := by
  intro s' h
  simp only [execGuardSyncDone] at h
  (repeat' split at h) <;> (cases Host.Outcome.next.inj h; exact .of_held (by simp))

theorem execGuardSyncTimeout_onward (s : State) :
    ∀ s', (execGuardSyncTimeout s) = .next s' → s.Onward s' := by
  intro t_ h_
  unfold execGuardSyncTimeout at h_
  split at h_
  · have e_ := Host.Outcome.next.inj h_; subst e_; exact .refl _
  · rename_i t _
    split at h_ <;> (have e_ := Host.Outcome.next.inj h_; subst e_)
    · exact .refl _
    · refine .trans (t := s.advance (t + s.c K.SYNC_TIMEOUT * Config.us)) (advance_onward s _) (.of_held ?_)
      exact ((raise_held _ _ _ _ _ _).trans (setO_held _ _ _)).trans (gd_held _ _)

theorem execSliceRgnCmd_onward (sess : SessRef) (cmd : BitVec 192) (s : State) :
    ∀ s', (execSliceRgnCmd sess cmd s) = .next s' → s.Onward s' := by
  intro s' h
  simp only [execSliceRgnCmd] at h
  (repeat' split at h) <;> (cases Host.Outcome.next.inj h; exact .of_held (by simp))

theorem execTagCmd_onward (sess : SessRef) (cmd : BitVec 128) (s : State) :
    ∀ s', (execTagCmd sess cmd s) = .next s' → s.Onward s' := by
  intro s' h
  simp only [execTagCmd] at h
  (repeat' split at h) <;> (cases Host.Outcome.next.inj h; exact .of_held (by simp))

theorem execTagCmdWritten_onward (s : State) :
    ∀ s', (execTagCmdWritten s) = .next s' → s.Onward s' := by
  intro s' h
  simp only [execTagCmdWritten] at h
  (repeat' split at h) <;> (cases Host.Outcome.next.inj h; exact .of_held (by simp))

theorem execTagFillComplete_onward (m : TargetIx) (s : State) :
    ∀ s', (execTagFillComplete m s) = .next s' → s.Onward s' := by
  intro s' h
  simp only [execTagFillComplete] at h
  (repeat' split at h) <;> (cases Host.Outcome.next.inj h; exact .of_held (by simp))

theorem execCoreRegionBaseHi_onward (via : CsrVia) (c : CoreIx) (k : Fin 16) (value : Word32) (s : State) :
    ∀ s', (execCoreRegionBaseHi via c k value s) = .next s' → s.Onward s' := by
  intro s' h
  simp only [execCoreRegionBaseHi] at h
  (repeat' split at h) <;> (cases Host.Outcome.next.inj h; exact .of_held (by simp))

end Sys2Proof.Machine
end

