-- ==== Sys2Proof/Laws/HubReq.lean ====
section
/-!
SUPPORT. What the operations of Machine/HubReq.lean do to the queue, the fuses and the time.
-/
namespace Sys2Proof.Machine

@[simp] theorem coverWrite_held (s : State) (id m ct desc : Nat) :
    (State.coverWrite s id m ct desc).held = s.held := by
  simp [State.coverWrite]

@[simp] theorem rejectWrite_held (s : State) (m agent : Nat) :
    (State.rejectWrite s m agent).held = s.held := by
  simp [State.rejectWrite]

@[simp] theorem coverDrop_held (s : State) (m : Nat) :
    (State.coverDrop s m).held = s.held := by
  simp [State.coverDrop]

@[simp] theorem newTxn_held (s : State) (t : Txn) (desc : Nat) :
    (State.newTxn s t desc).2.held = s.held := by
  simp [State.newTxn]

@[simp] theorem toCrown_held (s : State) (w line : Nat) (e : LineEntry) :
    (State.toCrown s w line e).held = s.held := by
  simp [State.toCrown]

@[simp] theorem flushRead_held (s : State) (id q : Nat) (t : Txn) (src host : Nat) :
    (State.flushRead s id q t src host).held = s.held := by
  simp [State.flushRead]

@[simp] theorem hubIssue_held (s : State) (d : Dest) (t : Txn) (src host : Nat) (desc : Nat) :
    (State.hubIssue s d t src host desc).2.held = s.held := by
  simp only [State.hubIssue]
  (repeat' split) <;> simp [*]

end Sys2Proof.Machine
end

