-- ==== Sys2Proof/Laws/Chunks.lean ====
section
/-!
SUPPORT. What the operations of Machine/Chunks.lean do to the queue, the fuses and the time.
-/
namespace Sys2Proof.Machine

@[simp] theorem countBytes_held (s : State) (sl n : Nat) :
    (State.countBytes s sl n).held = s.held := by
  simp [State.countBytes]

@[simp] theorem updActive_held (s : State) (sl : Nat) (f : ActiveDesc → ActiveDesc) :
    (State.updActive s sl f).held = s.held := by
  simp [State.updActive]

@[simp] theorem moverIssue_held (s : State) (sl : Nat) (desc chunk off addr n : Nat) (write : Bool) (data : Nat) :
    (State.moverIssue s sl desc chunk off addr n write data).held = s.held := by
  simp only [State.moverIssue]
  (repeat' split) <;> simp [*]

@[simp] theorem chunkWrites_held (s : State) (sl : Nat) (a : ActiveDesc) (o : Nat) (data : List Nat) :
    (State.chunkWrites s sl a o data).held = s.held := by
  simp [State.chunkWrites]

@[simp] theorem pumpChunks_held (s : State) (sl : Nat) (x0_ : Nat) :
    (State.pumpChunks s sl x0_).held = s.held := by
  induction x0_ generalizing s with
    | zero => rfl
    | succ n ih =>
      simp only [State.pumpChunks]
      repeat' (first | (with_reducible rfl) | (simp [*]; done) | split | (with_reducible refine (foldl_held _ (fun s a => ?_) _ _).trans ?_) | (rename_i h_; have h2_ := held_of_eq h_; simp at h2_; simp [h2_]; done) | simp [*])

@[simp] theorem settleSlice_held (s : State) (sl : Nat) :
    (State.settleSlice s sl).held = s.held := by
  simp [State.settleSlice]

end Sys2Proof.Machine
end

