-- ==== Sys2Proof/Laws/Answers.lean ====
section
/-!
SUPPORT. What the operations of Machine/Answers.lean do to the queue, the fuses and the time.
-/
namespace Sys2Proof.Machine

@[simp] theorem sendBack_held (s : State) (t : Txn) (code data : Nat) :
    (State.sendBack s t code data).held = s.held := by
  simp [State.sendBack]

@[simp] theorem hubAnswer_held (s : State) (id : Nat) (st : MemStatus) (data : Nat) :
    (State.hubAnswer s id st data).held = s.held := by
  simp only [State.hubAnswer]
  (repeat' split) <;> simp [*]

end Sys2Proof.Machine
end

