-- ==== Sys2Proof/Laws/Fences.lean ====
section
/-!
SUPPORT. What the operations of Machine/Fences.lean do to the queue, the fuses and the time.
-/
namespace Sys2Proof.Machine

@[simp] theorem writeRecord_held (s : State) (f : Fence) (len data : Nat) :
    (State.writeRecord s f len data).held = s.held := by
  unfold State.writeRecord
  (repeat' split) <;> simp

@[simp] theorem finishFence_held (s : State) (id : Nat) (f : Fence) :
    (State.finishFence s id f).held = s.held := by
  simp [State.finishFence]

@[simp] theorem finishInOrder_held (s : State) (a : Nat) (x0_ : Nat) :
    (State.finishInOrder s a x0_).held = s.held := by
  induction x0_ generalizing s with
    | zero => rfl
    | succ n ih =>
      simp only [State.finishInOrder]
      repeat' (first | (with_reducible rfl) | (simp [*]; done) | split | (with_reducible refine (foldl_held _ (fun s a => ?_) _ _).trans ?_) | (rename_i h_; have h2_ := held_of_eq h_; simp at h2_; simp [h2_]; done) | simp [*])

@[simp] theorem endFence_held (s : State) (id : Nat) (f : Fence) (status : Nat) :
    (State.endFence s id f status).held = s.held := by
  simp [State.endFence]

@[simp] theorem ring_held (s : State) (agent port rid : Nat) (w : Nat) (descs : List Nat) :
    (State.ring s agent port rid w descs).held = s.held := by
  simp [State.ring]

@[simp] theorem discardDoorbell_held (s : State) (p : Nat) :
    (State.discardDoorbell s p).held = s.held := by
  simp [State.discardDoorbell]

@[simp] theorem apertureWrite_held (s : State) (p rid n off nbytes w : Nat) :
    (State.apertureWrite s p rid n off nbytes w).held = s.held := by
  simp [State.apertureWrite]

theorem execFenceEnd_onward (id : Nat) (s : State) :
    ∀ s', (execFenceEnd id s) = .next s' → s.Onward s' := by
  intro s' h
  simp only [execFenceEnd] at h
  (repeat' split at h) <;> (cases Host.Outcome.next.inj h; exact .of_held (by simp))

theorem execFenceTimeout_onward (id : Nat) (s : State) :
    ∀ s', (execFenceTimeout id s) = .next s' → s.Onward s' := by
  intro s' h
  simp only [execFenceTimeout] at h
  (repeat' split at h) <;> (have e := Host.Outcome.next.inj h; subst e; rw [onward_iff]; simp)

theorem execTfenceWaitExpiry_onward (id : Nat) (s : State) :
    ∀ s', (execTfenceWaitExpiry id s) = .next s' → s.Onward s' := by
  intro s' h
  simp only [execTfenceWaitExpiry] at h
  (repeat' split at h) <;> (have e := Host.Outcome.next.inj h; subst e; rw [onward_iff]; simp)

theorem execFenceDoorbell_onward (p : PortIx) (rid : BitVec 16) (offset : BitVec 12) (nbytes : Nat) (word : BitVec 128) (s : State) :
    ∀ s', (execFenceDoorbell p rid offset nbytes word s) = .next s' → s.Onward s' := by
  intro s' h
  simp only [execFenceDoorbell] at h
  (repeat' split at h) <;> (cases Host.Outcome.next.inj h; exact .of_held (by simp))

end Sys2Proof.Machine
end

