-- ==== Sys2Proof/Laws/Rings.lean ====
section
/-!
SUPPORT. What the operations of Machine/Rings.lean do to the queue, the fuses and the time.
-/
namespace Sys2Proof.Machine

@[simp] theorem sliceFault_held (s : State) (sl : Nat) (g : GFault) (a : Nat) (write : Bool) :
    (State.sliceFault s sl g a write).held = s.held := by
  simp [State.sliceFault]

@[simp] theorem sliceWrite_held (s : State) (sl addr n data : Nat) :
    (State.sliceWrite s sl addr n data).held = s.held := by
  unfold State.sliceWrite
  (repeat' split) <;> simp

@[simp] theorem ringWrite_held (s : State) (sl : Nat) (x : Slice) (addr n data : Nat) (ends : List Nat) :
    (State.ringWrite s sl x addr n data ends).held = s.held := by
  simp [State.ringWrite]

@[simp] theorem closeBlock_held (s : State) (sl : Nat) (cut last : Bool) :
    (State.closeBlock s sl cut last).held = s.held := by
  simp only [State.closeBlock]
  (repeat' split) <;> simp [*]

@[simp] theorem feedBytes_held (s : State) (sl id ct : Nat) (x0_ : Nat) (x1_ : List Nat) :
    (State.feedBytes s sl id ct x0_ x1_).held = s.held := by
  induction x0_ generalizing s x1_ with
    | zero => rfl
    | succ n ih =>
      simp only [State.feedBytes]
      repeat' (first | (with_reducible rfl) | (simp [*]; done) | split | (with_reducible refine (foldl_held _ (fun s a => ?_) _ _).trans ?_) | (rename_i h_; have h2_ := held_of_eq h_; simp at h2_; simp [h2_]; done) | simp [*])

@[simp] theorem settleRings_held (s : State) :
    (State.settleRings s).held = s.held := by
  simp [State.settleRings]

@[simp] theorem pageDiscard_held (s : State) (p sl : Nat) :
    (State.pageDiscard s p sl).held = s.held := by
  simp [State.pageDiscard]

@[simp] theorem feedWrite_held (s : State) (p rid sl addr : Nat) (data : List Nat) :
    (State.feedWrite s p rid sl addr data).held = s.held := by
  simp only [State.feedWrite]
  (repeat' split) <;> simp [*]

theorem execCaptureFeedWrite_onward (p : PortIx) (rid : BitVec 16) (addr : Word64) (data : List Byte) (s : State) :
    ∀ s', (execCaptureFeedWrite p rid addr data s) = .next s' → s.Onward s' := by
  intro s' h
  simp only [execCaptureFeedWrite] at h
  (repeat' split at h) <;> (cases Host.Outcome.next.inj h; exact .of_held (by simp))

theorem execRingFlushTimeout_onward (sl : SliceIx) (s : State) :
    ∀ s', (execRingFlushTimeout sl s) = .next s' → s.Onward s' := by
  intro s' h
  simp only [execRingFlushTimeout] at h
  (repeat' split at h) <;> (have e := Host.Outcome.next.inj h; subst e; rw [onward_iff]; simp)

theorem execTriggerFencePoint_onward (id : Nat) (s : State) :
    ∀ s', (execTriggerFencePoint id s) = .next s' → s.Onward s' := by
  intro s' h
  simp only [execTriggerFencePoint] at h
  (repeat' split at h) <;> (have e := Host.Outcome.next.inj h; subst e; rw [onward_iff]; simp)

end Sys2Proof.Machine
end

