-- ==== Sys2Proof/Laws/CoreMem.lean ====
section
/-!
SUPPORT. What the operations of Machine/CoreMem.lean do to the queue, the fuses and the time.
-/
namespace Sys2Proof.Machine

@[simp] theorem dropCluster_held (s : State) (g but : Nat) :
    (State.dropCluster s g but).held = s.held := by
  simp [State.dropCluster]

@[simp] theorem dropTags_held (s : State) (w line but : Nat) :
    (State.dropTags s w line but).held = s.held := by
  simp [State.dropTags]

@[simp] theorem tagTaken_held (s : State) (c w line : Nat) :
    (State.tagTaken s c w line).held = s.held := by
  unfold State.tagTaken
  (repeat' split) <;> simp

@[simp] theorem clearResv_held (s : State) (c : Nat) :
    (State.clearResv s c).held = s.held := by
  simp [State.clearResv]

@[simp] theorem performLoad_held (s : State) (c : Nat) :
    (State.performLoad s c).held = s.held := by
  unfold State.performLoad
  (repeat' split) <;> simp

@[simp] theorem performLoads_held (s : State) (c : Nat) :
    (State.performLoads s c).held = s.held := by
  simp [State.performLoads]

@[simp] theorem performOverlap_held (s : State) (c a n : Nat) :
    (State.performOverlap s c a n).held = s.held := by
  simp [State.performOverlap]

@[simp] theorem coreException_held (s : State) (c cause : Nat) :
    (State.coreException s c cause).held = s.held := by
  simp [State.coreException]

@[simp] theorem coreIssue_held (s : State) (c a n : Nat) (write : Bool) (data step total : Nat) (tag : Nat) :
    (State.coreIssue s c a n write data step total tag).held = s.held := by
  simp [State.coreIssue]

@[simp] theorem performStore_held (s : State) (c : Nat) (b : BufStore) :
    (State.performStore s c b).held = s.held := by
  simp [State.performStore]

@[simp] theorem drainOverlap_held (s : State) (c a n : Nat) :
    (State.drainOverlap s c a n).held = s.held := by
  simp [State.drainOverlap]

@[simp] theorem drainCore_held (s : State) (c : Nat) :
    (State.drainCore s c).held = s.held := by
  simp [State.drainCore]

@[simp] theorem endBar_held (s : State) (c : Nat) :
    (State.endBar s c).held = s.held := by
  unfold State.endBar
  (repeat' split) <;> simp

@[simp] theorem settleBar_held (s : State) (c : Nat) :
    (State.settleBar s c).held = s.held := by
  simp [State.settleBar]

@[simp] theorem restartCore_held (s : State) (c : Nat) :
    (State.restartCore s c).held = s.held := by
  simp [State.restartCore]

@[simp] theorem settleSwap_held (s : State) :
    (State.settleSwap s).held = s.held := by
  simp [State.settleSwap]

@[simp] theorem startBar_held (s : State) (c k : Nat) :
    (State.startBar s c k).held = s.held := by
  simp [State.startBar]

@[simp] theorem memStatWrite_held (s : State) (c v : Nat) :
    (State.memStatWrite s c v).held = s.held := by
  simp [State.memStatWrite]

theorem execStoreBufferRelease_onward (c : CoreIx) (ix : Fin 32) (s : State) :
    ∀ s', (execStoreBufferRelease c ix s) = .next s' → s.Onward s' := by
  intro s' h
  simp only [execStoreBufferRelease] at h
  (repeat' split at h) <;> (cases Host.Outcome.next.inj h; exact .of_held (by simp))

theorem execBarCore_onward (c : CoreIx) (s : State) :
    ∀ s', (execBarCore c s) = .next s' → s.Onward s' := by
  intro s' h
  simp only [execBarCore] at h
  (repeat' split at h) <;> (cases Host.Outcome.next.inj h; exact .of_held (by simp))

theorem execBarClu_onward (c : CoreIx) (s : State) :
    ∀ s', (execBarClu c s) = .next s' → s.Onward s' := by
  intro s' h
  simp only [execBarClu] at h
  (repeat' split at h) <;> (cases Host.Outcome.next.inj h; exact .of_held (by simp))

theorem execBarSys_onward (c : CoreIx) (s : State) :
    ∀ s', (execBarSys c s) = .next s' → s.Onward s' := by
  intro s' h
  simp only [execBarSys] at h
  (repeat' split at h) <;> (cases Host.Outcome.next.inj h; exact .of_held (by simp))

theorem execBarSysTimeout_onward (c : CoreIx) (s : State) :
    ∀ s', (execBarSysTimeout c s) = .next s' → s.Onward s' := by
  intro t_ h_
  unfold execBarSysTimeout at h_
  dsimp only at h_
  have h0 : s.Onward (s.settleBar c) := .of_held (settleBar_held s c)
  split at h_
  · have e_ := Host.Outcome.next.inj h_; subst e_; exact h0
  · rename_i e _
    have h1 := h0.trans (advance_onward (s.settleBar c) (e.2.deadline.getD (s.settleBar c).now))
    generalize (s.settleBar c).advance (e.2.deadline.getD (s.settleBar c).now) = u at h_ h1
    have e_ := Host.Outcome.next.inj h_; subst e_
    exact h1.trans (.of_held (by simp))

theorem execCoreException_onward (c : CoreIx) (s : State) :
    ∀ s', (execCoreException c s) = .next s' → s.Onward s' := by
  intro s' h
  simp only [execCoreException] at h
  (repeat' split at h) <;> (cases Host.Outcome.next.inj h; exact .of_held (by simp))

end Sys2Proof.Machine
end

