-- ==== Sys2Proof/Laws/Directory.lean ====
section
/-!
SUPPORT. What the operations of Machine/Directory.lean do to the queue, the fuses and the time.
-/
namespace Sys2Proof.Machine

@[simp] theorem setDir_held (s : State) (w line : Nat) (e : DirEntry) (through : Bool) :
    (State.setDir s w line e through).held = s.held := by
  simp [State.setDir]

theorem crownSend_held (s : State) (cls : Cls) (bytes data : Nat) (ms : List (Nat × Out)) :
    ∀ s', (State.crownSend s cls bytes data ms) = some s' → s'.held = s.held := by
  intro s' h
  simp only [State.crownSend] at h
  (repeat' split at h) <;> cases h <;> simp

@[simp] theorem crownTxn_held (s : State) (purpose : Purpose) (m : Nat) (t : Txn) (mask : Nat) :
    (State.crownTxn s purpose m t mask).2.2.held = s.held := by
  unfold State.crownTxn
  (repeat' split) <;> simp

@[simp] theorem crownRead_held (s : State) (w line rep step : Nat) :
    (State.crownRead s w line rep step).2.held = s.held := by
  simp only [State.crownRead]
  (repeat' split) <;> simp [*]

theorem crownWrite_held (s : State) (w line step : Nat) (reps : List Nat) (data mask : Nat) (poison : Bool) (r : List Nat × State)
    (h : s.crownWrite w line step reps data mask poison = some r) : r.2.held = s.held := by
  have hf : ∀ (l : List Nat) (a : List Nat × List (Nat × Out) × State), (l.foldl (fun (a : List Nat × List (Nat × Out) × State) rep =>
      let addr := if step == CA.dirWrite then a.2.2.dirOffset w rep + line / 16 * 64 else a.2.2.replicaOffset w rep + line * 64
      let r := a.2.2.crownTxn .crown (a.2.2.replicaTarget w rep) (crownReqTo w line rep step addr true data) (mask + b2n poison * 2 ^ 64)
      match r.2.1 with
      | none => (a.1, a.2.1, r.2.2)
      | some m => (a.1 ++ [r.1], a.2.1 ++ [m], r.2.2)) a).2.2.held = a.2.2.held := by
    intro l
    induction l with
    | nil => intro a; rfl
    | cons x l ih =>
      intro a
      refine (ih _).trans ?_
      dsimp only
      split <;> simp
  unfold State.crownWrite at h
  simp only [Option.map_eq_some_iff] at h
  obtain ⟨t, ht, rfl⟩ := h
  exact (crownSend_held _ _ _ _ _ _ ht).trans (hf reps ([], [], s))

theorem throughEntry_held (s : State) (w line : Nat) (reps : List Nat) (d : DirEntry) (r : List Nat × State)
    (h : s.throughEntry w line reps d = some r) : r.2.held = s.held := crownWrite_held _ _ _ _ _ _ _ _ _ h

theorem throughSector_held (s : State) (w n : Nat) (reps : List Nat) (r : List Nat × State)
    (h : s.throughSector w n reps = some r) : r.2.held = s.held := crownWrite_held _ _ _ _ _ _ _ _ _ h

@[simp] theorem sectorRead_held (s : State) (w n data : Nat) :
    (State.sectorRead s w n data).held = s.held := by
  simp only [State.sectorRead]
  (repeat' (first | (simp [*]; done) | split | (with_reducible refine (foldl_held _ (fun s a => ?_) _ _).trans ?_) | (rename_i h; have h' := held_of_eq h; simp at h'; simp [h']; done) | simp [*]))

@[simp] theorem shadowWrite_held (s : State) (w line data mask : Nat) (poison : Bool) :
    (State.shadowWrite s w line data mask poison).held = s.held := by
  simp only [State.shadowWrite]
  (repeat' split) <;> simp [*]

@[simp] theorem pushBrim_held (s : State) (t : Nat) (inv : Bool) (x0_ : Nat) :
    (State.pushBrim s t inv x0_).held = s.held := by
  induction x0_ generalizing s with
    | zero => rfl
    | succ n ih =>
      simp only [State.pushBrim]
      repeat' (first | (with_reducible rfl) | (simp [*]; done) | split | (with_reducible refine (foldl_held _ (fun s a => ?_) _ _).trans ?_) | (rename_i h_; have h2_ := held_of_eq h_; simp at h2_; simp [h2_]; done) | simp [*])

@[simp] theorem pumpBrim_held (s : State) (t : Nat) :
    (State.pumpBrim s t).held = s.held := by
  simp [State.pumpBrim]

@[simp] theorem brimSend_held (s : State) (c : BrimCmd) :
    (State.brimSend s c).held = s.held := by
  simp [State.brimSend]

@[simp] theorem brimIntake_held (s : State) (c : Cell) :
    (State.brimIntake s c).held = s.held := by
  unfold State.brimIntake
  (repeat' split) <;> simp

@[simp] theorem setLineQ_held (s : State) (w line : Nat) (l : List LineEntry) :
    (State.setLineQ s w line l).held = s.held := by
  simp [State.setLineQ]

@[simp] theorem setHead_held (s : State) (w line : Nat) (e : LineEntry) :
    (State.setHead s w line e).held = s.held := by
  simp [State.setHead]

@[simp] theorem track_held (s : State) (e : LineEntry) (take : Bool) :
    (State.track s e take).held = s.held := by
  simp [State.track]

@[simp] theorem joinQueue_held (s : State) (w line : Nat) (e : LineEntry) :
    (State.joinQueue s w line e).held = s.held := by
  simp [State.joinQueue]

@[simp] theorem promote_held (s : State) (w line : Nat) :
    (State.promote s w line).held = s.held := by
  unfold State.promote
  (repeat' split) <;> simp

@[simp] theorem popHead_held (s : State) (w line : Nat) :
    (State.popHead s w line).held = s.held := by
  unfold State.popHead
  (repeat' split) <;> simp

@[simp] theorem popHeads_held (s : State) (w line : Nat) (x0_ : Nat) :
    (State.popHeads s w line x0_).held = s.held := by
  induction x0_ generalizing s with
    | zero => rfl
    | succ n ih =>
      simp only [State.popHeads]
      repeat' (first | (with_reducible rfl) | (simp [*]; done) | split | (with_reducible refine (foldl_held _ (fun s a => ?_) _ _).trans ?_) | (rename_i h_; have h2_ := held_of_eq h_; simp at h2_; simp [h2_]; done) | simp [*])

theorem pushInternal_held (s : State) (w line : Nat) (op : LineOp) :
    ∀ s', (State.pushInternal s w line op) = some s' → s'.held = s.held := by
  intro s' h
  simp only [State.pushInternal] at h
  (repeat' split at h) <;> cases h <;> simp

theorem pushBefore_held (s : State) (w line : Nat) (op : LineOp) :
    ∀ s', (State.pushBefore s w line op) = some s' → s'.held = s.held := by
  intro s' h
  unfold State.pushBefore at h
  dsimp only at h
  (repeat' split at h)
  · exact pushInternal_held _ _ _ _ _ h
  · have e := Option.some.inj h; subst e; simp
  · cases h
  · have e := Option.some.inj h; subst e; simp

theorem writeBackSector_held (s : State) (k : Nat) :
    ∀ s', (State.writeBackSector s k) = some s' → s'.held = s.held := by
  intro s' h
  unfold State.writeBackSector at h
  dsimp only at h
  split at h
  · cases h; rfl
  · obtain ⟨r, hr, e⟩ := Option.map_eq_some_iff.1 h
    subst e
    refine (foldl_held _ (fun s i => ?_) _ _).trans (throughSector_held _ _ _ _ _ hr)
    split <;> simp

theorem takeSector_held (s : State) (w line : Nat) :
    ∀ s', (State.takeSector s w line) = some s' → s'.held = s.held := by
  intro s' h
  unfold State.takeSector at h
  dsimp only at h
  (repeat' split at h)
  · cases h; rfl
  · have e := Option.some.inj h; subst e; rfl
  · cases h
  · obtain ⟨r, hr, e⟩ := Option.map_eq_some_iff.1 h
    subst e
    exact (rfl : _ = r.held).trans (writeBackSector_held _ _ _ hr)

end Sys2Proof.Machine
end

