-- ==== Sys2Proof/Laws/Seam.lean ====
section
/-!
SUPPORT. What the operations of Machine/Seam.lean do to the queue, the fuses and the time.
-/
namespace Sys2Proof.Machine

@[simp] theorem strandRaise_held (s : State) (sm d k cls code : Nat) :
    (State.strandRaise s sm d k cls code).held = s.held := by
  simp [State.strandRaise]

@[simp] theorem updSeam_held (s : State) (sm : Nat) (f : Seam → Seam) :
    (State.updSeam s sm f).held = s.held := by
  simp [State.updSeam]

@[simp] theorem askRetrain_held (s : State) (sm : Nat) (leak : Bool) :
    (State.askRetrain s sm leak).held = s.held := by
  simp [State.askRetrain]

@[simp] theorem askRetrainNow_held (s : State) (sm : Nat) :
    (State.askRetrainNow s sm).held = s.held := by
  simp [State.askRetrainNow]

@[simp] theorem launchReturns_held (s : State) (sm d : Nat) :
    (State.launchReturns s sm d).2.held = s.held := by
  simp [State.launchReturns]

@[simp] theorem launchControl_held (s : State) (sm d k : Nat) :
    (State.launchControl s sm d k).held = s.held := by
  simp [State.launchControl]

@[simp] theorem crownIntake_held (s : State) (sm : Nat) (c : Cell) :
    (State.crownIntake s sm c).held = s.held := by
  unfold State.crownIntake
  (repeat' split) <;> simp

@[simp] theorem deliverItem_held (s : State) (sm d : Nat) (fits : Bool) (it : Item) :
    (State.deliverItem s sm d fits it).held = s.held := by
  unfold State.deliverItem
  (repeat' split) <;> simp

@[simp] theorem deliverUnits_held (s : State) (sm d : Nat) (x0_ : Nat) :
    (State.deliverUnits s sm d x0_).held = s.held := by
  induction x0_ generalizing s with
    | zero => rfl
    | succ n ih =>
      simp only [State.deliverUnits]
      repeat' (first | (with_reducible rfl) | (simp [*]; done) | split | (with_reducible refine (foldl_held _ (fun s a => ?_) _ _).trans ?_) | (rename_i h_; have h2_ := held_of_eq h_; simp at h2_; simp [h2_]; done) | simp [*])

@[simp] theorem prevCheck_held (s : State) (sm d : Nat) (prev : Option Nat) :
    (State.prevCheck s sm d prev).held = s.held := by
  unfold State.prevCheck
  (repeat' split) <;> simp

@[simp] theorem dataUnit_held (s : State) (sm d k : Nat) (u : SeamUnit) :
    (State.dataUnit s sm d k u).held = s.held := by
  simp [State.dataUnit]

@[simp] theorem controlUnit_held (s : State) (sm d k : Nat) (u : SeamUnit) :
    (State.controlUnit s sm d k u).held = s.held := by
  simp [State.controlUnit]

@[simp] theorem ackNak_held (s : State) (sm d : Nat) (u : SeamUnit) :
    (State.ackNak s sm d u).held = s.held := by
  unfold State.ackNak
  (repeat' split) <;> simp

@[simp] theorem diagMirror_held (s : State) (sm d k : Nat) :
    (State.diagMirror s sm d k).held = s.held := by
  simp [State.diagMirror]

@[simp] theorem unitInverted_held (s : State) (sm d k : Nat) :
    (State.unitInverted s sm d k).2.held = s.held := by
  simp only [State.unitInverted]
  (repeat' split) <;> simp [*]

@[simp] theorem itemInverted_held (s : State) (sm d k : Nat) (u : SeamUnit) :
    (State.itemInverted s sm d k u).2.held = s.held := by
  have h0 := injFire_held s (strandBlock sm d k) 1
  unfold State.itemInverted
  split <;> simp_all

@[simp] theorem spareStrand_held (s : State) (sm d k : Nat) :
    (State.spareStrand s sm d k).held = s.held := by
  simp [State.spareStrand]

@[simp] theorem endRetrain_held (s : State) (sm : Nat) :
    (State.endRetrain s sm).held = s.held := by
  simp [State.endRetrain]

@[simp] theorem abandonRetrain_held (s : State) (sm : Nat) :
    (State.abandonRetrain s sm).held = s.held := by
  simp [State.abandonRetrain]

@[simp] theorem ownRetrainNow_held (sm : Nat) (s : State) :
    (ownRetrainNow sm s).2.held = s.held := by
  simp [ownRetrainNow]

@[simp] theorem seamUnhealthy_held (s : State) (sm : Nat) :
    (State.seamUnhealthy s sm).held = s.held := by
  simp [State.seamUnhealthy]

@[simp] theorem strandFalls_held (s : State) (sm d k : Nat) :
    (State.strandFalls s sm d k).held = s.held := by
  simp [State.strandFalls]

@[simp] theorem strandPasses_held (s : State) (sm d k : Nat) (bad : List Nat) (first : Bool) :
    (State.strandPasses s sm d k bad first).held = s.held := by
  simp [State.strandPasses]

@[simp] theorem deliverFlit_held (s : State) (sm d : Nat) (b : FlitBody) :
    (State.deliverFlit s sm d b).held = s.held := by
  unfold State.deliverFlit
  (repeat' split) <;> simp

@[simp] theorem deliverFlits_held (s : State) (sm d : Nat) (x0_ : Nat) :
    (State.deliverFlits s sm d x0_).held = s.held := by
  induction x0_ generalizing s with
    | zero => rfl
    | succ n ih =>
      simp only [State.deliverFlits]
      repeat' (first | (with_reducible rfl) | (simp [*]; done) | split | (with_reducible refine (foldl_held _ (fun s a => ?_) _ _).trans ?_) | (rename_i h_; have h2_ := held_of_eq h_; simp at h2_; simp [h2_]; done) | simp [*])

@[simp] theorem ownIsolate_held (sm v : Nat) (s : State) :
    (ownIsolate sm v s).2.held = s.held := by
  simp only [ownIsolate]
  (repeat' split) <;> simp [*]

@[simp] theorem injDeny_held (s : State) (sm d : Nat) :
    (State.injDeny s sm d).held = s.held := by
  simp [State.injDeny]

@[simp] theorem diagWrite_held (s : State) (via : CsrVia) (sm d k : Nat) (sets : Bool) (f : Strand → Strand) :
    (State.diagWrite s via sm d k sets f).held = s.held := by
  simp [State.diagWrite]

theorem execSeamUnitLaunch_onward (sm : TileIx) (d : Fin 2) (k : Fin 8) (s : State) :
    ∀ s', (execSeamUnitLaunch sm d k s) = .next s' → s.Onward s' := by
  intro s' h
  simp only [execSeamUnitLaunch] at h
  (repeat' split at h) <;> (cases Host.Outcome.next.inj h; exact .of_held (by simp))

theorem execSeamAckUnitSend_onward (sm : TileIx) (d : Fin 2) (k : Fin 8) (s : State) :
    ∀ s', (execSeamAckUnitSend sm d k s) = .next s' → s.Onward s' := by
  intro s' h
  simp only [execSeamAckUnitSend] at h
  (repeat' split at h) <;> (cases Host.Outcome.next.inj h; exact .of_held (by simp))

theorem execKeepaliveSend_onward (sm : TileIx) (d : Fin 2) (k : Fin 8) (s : State) :
    ∀ s', (execKeepaliveSend sm d k s) = .next s' → s.Onward s' := by
  intro s' h
  simp only [execKeepaliveSend] at h
  (repeat' split at h) <;> (have e := Host.Outcome.next.inj h; subst e; rw [onward_iff]; simp)

theorem execCheckSend_onward (sm : TileIx) (d : Fin 2) (k : Fin 8) (s : State) :
    ∀ s', (execCheckSend sm d k s) = .next s' → s.Onward s' := by
  intro s' h
  simp only [execCheckSend] at h
  (repeat' split at h) <;> (cases Host.Outcome.next.inj h; exact .of_held (by simp))

theorem execSeamReplayTimerExpiry_onward (sm : TileIx) (d : Fin 2) (seq : BitVec 12) (s : State) :
    ∀ s', (execSeamReplayTimerExpiry sm d seq s) = .next s' → s.Onward s' := by
  intro s' h
  simp only [execSeamReplayTimerExpiry] at h
  (repeat' split at h) <;> (have e := Host.Outcome.next.inj h; subst e; rw [onward_iff]; simp)

theorem execSeamUnitReceive_onward (sm : TileIx) (d : Fin 2) (k : Fin 8) (u : SeamUnit) (s : State) :
    ∀ s', (execSeamUnitReceive sm d k u s) = .next s' → s.Onward s' := by
  intro s' h
  simp only [execSeamUnitReceive] at h
  (repeat' split at h) <;> (cases Host.Outcome.next.inj h; exact .of_held (by simp))

theorem execCheckEvaluate_onward (sm : TileIx) (d : Fin 2) (s : State) :
    ∀ s', (execCheckEvaluate sm d s) = .next s' → s.Onward s' := by
  intro s' h
  simp only [execCheckEvaluate] at h
  (repeat' split at h) <;> (cases Host.Outcome.next.inj h; exact .of_held (by simp))

theorem execSeamRetrainStart_onward (sm : TileIx) (s : State) :
    ∀ s', (execSeamRetrainStart sm s) = .next s' → s.Onward s' := by
  intro s' h
  simp only [execSeamRetrainStart] at h
  (repeat' split at h) <;> (cases Host.Outcome.next.inj h; exact .of_held (by simp))

theorem execSeamRetrainComplete_onward (ended : RetrainEnd) (s : State) :
    ∀ s', (execSeamRetrainComplete ended s) = .next s' → s.Onward s' := by
  intro s' h
  simp only [execSeamRetrainComplete] at h
  (repeat' split at h) <;> (cases Host.Outcome.next.inj h; exact .of_held (by simp))

theorem execRetrainNow_onward (sess : SessRef) (sm : TileIx) (v : Byte) (s : State) :
    ∀ s', (execRetrainNow sess sm v s) = .next s' → s.Onward s' := by
  intro s' h
  simp only [execRetrainNow] at h
  (repeat' split at h) <;> (cases Host.Outcome.next.inj h; exact .of_held (by simp))

theorem execSeamStrandDown_onward (sm : TileIx) (d : Fin 2) (k : Fin 8) (s : State) :
    ∀ s', (execSeamStrandDown sm d k s) = .next s' → s.Onward s' := by
  intro s' h
  simp only [execSeamStrandDown] at h
  (repeat' split at h) <;> (have e := Host.Outcome.next.inj h; subst e; rw [onward_iff]; simp)

theorem execTimingStrandDown_onward (sm : TileIx) (d : Fin 2) (s : State) :
    ∀ s', (execTimingStrandDown sm d s) = .next s' → s.Onward s' := by
  intro s' h
  simp only [execTimingStrandDown] at h
  (repeat' split at h) <;> (cases Host.Outcome.next.inj h; exact .of_held (by simp))

theorem execStrandRetry_onward (sm : TileIx) (d : Fin 2) (k : Fin 9) (pass : Bool) (badWires : List (Fin 66)) (s : State) :
    ∀ s', (execStrandRetry sm d k pass badWires s) = .next s' → s.Onward s' := by
  intro s' h
  simp only [execStrandRetry] at h
  (repeat' split at h) <;> (cases Host.Outcome.next.inj h; exact .of_held (by simp))

theorem execSeamHealthy_onward (sm : TileIx) (s : State) :
    ∀ s', (execSeamHealthy sm s) = .next s' → s.Onward s' := by
  intro s' h
  simp only [execSeamHealthy] at h
  (repeat' split at h) <;> (have e := Host.Outcome.next.inj h; subst e; rw [onward_iff]; simp)

theorem execTimingFlitReceive_onward (sm : TileIx) (d : Fin 2) (f : TimingFlit) (s : State) :
    ∀ s', (execTimingFlitReceive sm d f s) = .next s' → s.Onward s' := by
  intro s' h
  simp only [execTimingFlitReceive] at h
  (repeat' split at h) <;> (cases Host.Outcome.next.inj h; exact .of_held (by simp))

theorem execTickMark_onward (sm : TileIx) (step : Int) (s : State) :
    ∀ s', (execTickMark sm step s) = .next s' → s.Onward s' := by
  intro s' h
  simp only [execTickMark] at h
  (repeat' split at h) <;> (cases Host.Outcome.next.inj h; exact .of_held (by simp))

theorem execIsolate_onward (sess : SessRef) (sm : TileIx) (v : Byte) (s : State) :
    ∀ s', (execIsolate sess sm v s) = .next s' → s.Onward s' := by
  intro s' h
  simp only [execIsolate] at h
  (repeat' split at h) <;> (cases Host.Outcome.next.inj h; exact .of_held (by simp))

theorem execInjOnce_onward (via : CsrVia) (sm : TileIx) (d : Fin 2) (k : Fin 9) (on : Bool) (s : State) :
    ∀ s', (execInjOnce via sm d k on s) = .next s' → s.Onward s' := by
  intro s' h
  simp only [execInjOnce] at h
  (repeat' split at h) <;> (cases Host.Outcome.next.inj h; exact .of_held (by simp))

theorem execInjPersist_onward (via : CsrVia) (sm : TileIx) (d : Fin 2) (k : Fin 9) (on : Bool) (s : State) :
    ∀ s', (execInjPersist via sm d k on s) = .next s' → s.Onward s' := by
  intro s' h
  simp only [execInjPersist] at h
  (repeat' split at h) <;> (cases Host.Outcome.next.inj h; exact .of_held (by simp))

theorem execSeamWireInject_onward (via : CsrVia) (sm : TileIx) (d : Fin 2) (k : Fin 9) (wire : BitVec 7) (s : State) :
    ∀ s', (execSeamWireInject via sm d k wire s) = .next s' → s.Onward s' := by
  intro s' h
  simp only [execSeamWireInject] at h
  (repeat' split at h) <;> (cases Host.Outcome.next.inj h; exact .of_held (by simp))

theorem execKaHold_onward (via : CsrVia) (sm : TileIx) (d : Fin 2) (k : Fin 9) (on : Bool) (s : State) :
    ∀ s', (execKaHold via sm d k on s) = .next s' → s.Onward s' := by
  intro s' h
  simp only [execKaHold] at h
  (repeat' split at h) <;> (cases Host.Outcome.next.inj h; exact .of_held (by simp))

end Sys2Proof.Machine
end

