-- ==== Sys2Proof/Laws/Crown.lean ====
section
/-!
SUPPORT. What the operations of Machine/Crown.lean do to the queue, the fuses and the time.
-/
namespace Sys2Proof.Machine

@[simp] theorem noteDone_held (s : State) (h p w line : Nat) :
    (State.noteDone s h p w line).held = s.held := by
  simp [State.noteDone]

@[simp] theorem crownReply_held (s : State) (w line : Nat) (e : LineEntry) (st : MemStatus) (ok : Bool) (data grant : Nat) :
    (State.crownReply s w line e st ok data grant).held = s.held := by
  unfold State.crownReply
  (repeat' split) <;> simp

@[simp] theorem askRepair_held (s : State) (w line code : Nat) (e : LineEntry) :
    (State.askRepair s w line code e).2.held = s.held := by
  unfold State.askRepair
  dsimp only
  split
  · simp
  · rename_i x hx
    have h1 := takeSector_held _ _ _ _ hx
    split
    · simp
    · rename_i y hy
      have h2 := pushBefore_held _ _ _ _ _ hy
      simp [h1, h2]

theorem markPoison_held (s : State) (w line code master : Nat) (d' : DirEntry) (r : State × List Nat)
    (h : s.markPoison w line code master d' = some r) : r.1.held = s.held := by
  obtain ⟨q, hq, rfl⟩ := Option.map_eq_some_iff.1 h
  simp [throughEntry_held _ _ _ _ _ _ hq]

@[simp] theorem poisonData_held (s : State) :
    (State.poisonData s).2.held = s.held := by
  simp [State.poisonData]

@[simp] theorem crownEnd_held (s : State) (w line : Nat) :
    (State.crownEnd s w line).2.held = s.held := by
  unfold State.crownEnd
  (repeat' split) <;> simp

@[simp] theorem gather106_held (s : State) (w line : Nat) (e : LineEntry) (d : DirEntry) :
    (State.gather106 s w line e d).held = s.held := by
  unfold State.gather106
  (repeat' split) <;> simp

@[simp] theorem crownLookup_held (s : State) (w line : Nat) (e : LineEntry) :
    (State.crownLookup s w line e).2.held = s.held := by
  unfold State.crownLookup
  dsimp only
  split
  · simp
  · rename_i x hx
    have h1 := takeSector_held _ _ _ _ hx
    have h2 : ∀ t : State, (if e.op = .repair then (false, t) else t.ecc 530 0 3 2 2).2.held = t.held := by intro t; split <;> simp
    have h3 : ∀ (n : Nat) (t : State), (if e.op = .repair then ((0, t) : Nat × State) else t.injFire 530 1).2.held = t.held := by intro n t; split <;> simp
    have h4 := h2 x
    generalize (if e.op = .repair then (false, x) else x.ecc 530 0 3 2 2) = a at h4
    have h5 := h3 0 a.2
    generalize (if e.op = .repair then ((0, a.2) : Nat × State) else a.2.injFire 530 1) = b at h5
    have hb : b.2.held = s.held := h5.trans (h4.trans h1)
    (repeat' split)
    all_goals first
      | (simp [hb]; done)
      | (rename_i y hy; simp [pushBefore_held _ _ _ _ _ hy, hb]; done)
      | (simp only [gather106_held]; split <;> simp [hb])

@[simp] theorem crownDirBad_held (s : State) (w line : Nat) (e : LineEntry) :
    (State.crownDirBad s w line e).2.held = s.held := by
  simp only [State.crownDirBad]
  (repeat' split) <;> simp [*]

@[simp] theorem crownStart_held (s : State) (w line : Nat) (e : LineEntry) :
    (State.crownStart s w line e).2.held = s.held := by
  unfold State.crownStart
  dsimp only
  (repeat' split) <;> simp <;> split <;> simp

@[simp] theorem lateOld_held (s : State) (w line ct data mask : Nat) :
    (State.lateOld s w line ct data mask).held = s.held := by
  unfold State.lateOld
  (repeat' split) <;> simp

@[simp] theorem copyTaken_held (s : State) (w line data : Nat) (bad cbw : Bool) :
    (State.copyTaken s w line data bad cbw).held = s.held := by
  simp [State.copyTaken]

@[simp] theorem askCopy_held (s : State) (w line : Nat) (cbw : Bool) :
    (State.askCopy s w line cbw).2.held = s.held := by
  simp only [State.askCopy]
  (repeat' split) <;> simp [*]

@[simp] theorem crownWriteback_held (s : State) (w line : Nat) (e : LineEntry) (b : Writeback) :
    (State.crownWriteback s w line e b).2.held = s.held := by
  unfold State.crownWriteback
  dsimp only
  repeat' split
  all_goals first
    | (simp; done)
    | (rename_i h; simp [crownWrite_held _ _ _ _ _ _ _ _ _ h]; done)

@[simp] theorem countSnoop_held (s : State) (h : Nat) (up : Bool) :
    (State.countSnoop s h up).held = s.held := by
  simp [State.countSnoop]

@[simp] theorem crownBrimRead_held (s : State) (w line t : Nat) (e : LineEntry) (st : Stage) :
    (State.crownBrimRead s w line t e st).2.held = s.held := by
  simp [State.crownBrimRead]

@[simp] theorem crownReadBad_held (s : State) (w line : Nat) (e : LineEntry) :
    (State.crownReadBad s w line e).2.held = s.held := by
  unfold State.crownReadBad
  extract_lets other r1 s1 d1
  have h1 : r1.2.held = s.held := by simp only [r1]; split <;> simp
  have h2 : s1.held = s.held := h1
  clear_value r1 s1
  split
  · simp [h1]
  · split
    · simp [h2]
    · rename_i m hm
      simp [markPoison_held _ _ _ _ _ _ _ hm, h2]

@[simp] theorem crownData_held (s : State) (w line : Nat) (e : LineEntry) :
    (State.crownData s w line e).2.held = s.held := by
  simp only [State.crownData]
  (repeat' split) <;> simp [*]

@[simp] theorem crownSnoops_held (s : State) (w line : Nat) (e : LineEntry) :
    (State.crownSnoops s w line e).2.held = s.held := by
  unfold State.crownSnoops
  split
  · simp
  · split
    · split
      · rfl
      · rename_i h; simp [pushBefore_held _ _ _ _ _ h]
    · dsimp only
      split
      · split <;> simp
      · split
        · simp
        · rename_i h
          split at h
          · cases h
          · simp [crownSend_held _ _ _ _ _ _ h, foldl_held _ (fun s q => countSnoop_held s _ _)]

@[simp] theorem crownMiss_held (s : State) (w line t : Nat) (e : LineEntry) :
    (State.crownMiss s w line t e).2.held = s.held := by
  simp [State.crownMiss]

@[simp] theorem crownBrimWait_held (s : State) (w line : Nat) (e : LineEntry) :
    (State.crownBrimWait s w line e).2.held = s.held := by
  unfold State.crownBrimWait
  (repeat' split) <;> simp

@[simp] theorem crownMemWait_held (s : State) (w line : Nat) (e : LineEntry) :
    (State.crownMemWait s w line e).2.held = s.held := by
  unfold State.crownMemWait
  (repeat' split) <;> simp

@[simp] theorem crownInv_held (s : State) (w line : Nat) (e : LineEntry) :
    (State.crownInv s w line e).2.held = s.held := by
  unfold State.crownInv
  (repeat' split) <;> simp

@[simp] theorem crownCopy_held (s : State) (w line : Nat) (e : LineEntry) :
    (State.crownCopy s w line e).2.held = s.held := by
  simp only [State.crownCopy]
  (repeat' split) <;> simp [*]

theorem crownIssue_held (s : State) (w line : Nat) (e : LineEntry) (r : List Nat × State)
    (h : s.crownIssue w line e = some r) : r.2.held = s.held := by
  unfold State.crownIssue at h
  dsimp only at h
  (repeat' split at h)
  all_goals first
    | (cases h; done)
    | (cases h; simp; done)
    | (simp [crownWrite_held _ _ _ _ _ _ _ _ _ h]; done)
    | exact throughEntry_held _ _ _ _ _ _ h
    | (obtain ⟨q, hq, rfl⟩ := Option.map_eq_some_iff.1 h; rename_i x hx
       exact (markPoison_held _ _ _ _ _ _ _ hq).trans (crownWrite_held _ _ _ _ _ _ _ _ _ hx))
    | (obtain ⟨q, hq, rfl⟩ := Option.map_eq_some_iff.1 h; exact markPoison_held _ _ _ _ _ _ _ hq)
    | (obtain ⟨q, hq, rfl⟩ := Option.map_eq_some_iff.1 h; rename_i x hx _
       simp [throughSector_held _ _ _ _ _ hq, crownWrite_held _ _ _ _ _ _ _ _ _ hx])
    | (rename_i x hx _; simp only [Option.some.injEq] at h; subst h; simp [crownWrite_held _ _ _ _ _ _ _ _ _ hx])

@[simp] theorem resyncCopied_held (s : State) (w line : Nat) :
    (State.resyncCopied s w line).held = s.held := by
  simp only [State.resyncCopied]
  (repeat' split) <;> simp [*]

@[simp] theorem entryServed_held (s : State) (w line : Nat) (e : LineEntry) :
    (State.entryServed s w line e).held = s.held := by
  simp [State.entryServed]

@[simp] theorem crownFinish_held (s : State) (w line : Nat) (e : LineEntry) :
    (State.crownFinish s w line e).2.held = s.held := by
  unfold State.crownFinish
  split
  · simp
  · extract_lets all s1 s2 ts s3 wait
    have h1 : s1.held = s.held := by simp [s1]
    have h2 : s2.held = s.held := by simp only [s2]; split <;> simp [h1]
    have h3 : s3.held = s.held := by simp [s3, h2]
    clear_value all s1 s2 ts s3 wait
    split <;> simp [h3]

@[simp] theorem crownWrites_held (s : State) (w line : Nat) (e : LineEntry) :
    (State.crownWrites s w line e).2.held = s.held := by
  unfold State.crownWrites
  dsimp only
  repeat' split
  all_goals first
    | (simp; done)
    | (rename_i h; simp [crownIssue_held _ _ _ _ _ h])

@[simp] theorem crownMove_held (s : State) (w line : Nat) :
    (State.crownMove s w line).2.held = s.held := by
  unfold State.crownMove
  (repeat' split) <;> simp

@[simp] theorem crownLoop_held (s : State) (w line : Nat) (x0_ : Nat) :
    (State.crownLoop s w line x0_).held = s.held := by
  induction x0_ generalizing s with
    | zero => rfl
    | succ n ih =>
      simp only [State.crownLoop]
      repeat' (first | (with_reducible rfl) | (simp [*]; done) | split | (with_reducible refine (foldl_held _ (fun s a => ?_) _ _).trans ?_) | (rename_i h_; have h2_ := held_of_eq h_; simp at h2_; simp [h2_]; done) | simp [*])

@[simp] theorem crownRun_held (s : State) (w line n : Nat) :
    (State.crownRun s w line n).held = s.held := by
  unfold State.crownRun
  (repeat' split) <;> simp

@[simp] theorem takeInbound_held (s : State) (src : Nat) (r : CrownReq) :
    (State.takeInbound s src r).held = s.held := by
  simp [State.takeInbound]

@[simp] theorem snoopAnswered_held (s : State) (w line h : Nat) (rsp : BiRsp) :
    (State.snoopAnswered s w line h rsp).held = s.held := by
  unfold State.snoopAnswered
  (repeat' split) <;> simp

@[simp] theorem ownerGone_held (s : State) (w line h : Nat) :
    (State.ownerGone s w line h).held = s.held := by
  unfold State.ownerGone
  dsimp only
  (repeat' split)
  all_goals first
    | (simp; done)
    | (have h1 := pushBefore_held _ _ _ _ _ ‹State.pushBefore _ _ _ _ = some _›; simp [h1]; done)

@[simp] theorem brimTaken_held (s : State) (t : Nat) (c : BrimCmd) (a : BrimAck) :
    (State.brimTaken s t c a).held = s.held := by
  simp [State.brimTaken]

@[simp] theorem brimForward_held (s : State) (t : Nat) (c : BrimCmd) (fill : Bool) (data : Nat) (m : Out) :
    (State.brimForward s t c fill data m).held = s.held := by
  simp [State.brimForward]

@[simp] theorem brimData_held (s : State) (w line : Nat) (e : LineEntry) (data : Nat) :
    (State.brimData s w line e data).held = s.held := by
  simp only [State.brimData]
  (repeat' split) <;> simp [*]

@[simp] theorem failover_held (s : State) (t : Txn) (data : Nat) :
    (State.failover s t data).2.held = s.held := by
  unfold State.failover
  dsimp only
  generalize hs : ((s.incO (K.FAILOVERS t.w)).raise (532 + t.w) 1 2 false { master := 0x78, addr := some (t.line * 64) }) = u
  have hu : u.held = s.held := by rw [← hs]; simp
  cases hc : u.crownWrite t.w t.line CA.write [1 - t.replica] data (2 ^ 64 - 1) false with
  | none => exact hu
  | some r => exact (crownWrite_held _ _ _ _ _ _ _ _ _ hc).trans hu

@[simp] theorem copyRead_held (s : State) (t : Txn) (e : LineEntry) (ok : Bool) (data : Nat) (cbw : Bool) :
    (State.copyRead s t e ok data cbw).2.held = s.held := by
  simp only [State.copyRead]
  (repeat' split) <;> simp [*]

@[simp] theorem blameAt_held (s : State) (id p : Nat) :
    (State.blameAt s id p).held = s.held := by
  simp [State.blameAt]

@[simp] theorem crownAnswer_held (s : State) (id : Nat) (t : Txn) (st : MemStatus) (data : Nat) :
    (State.crownAnswer s id t st data).held = s.held := by
  unfold State.crownAnswer
  extract_lets ok u run go
  have hu : u.held = s.held := by simp [u]
  have hr : ∀ v : State, (run v).held = v.held := fun v => by simp [run]
  have hg : ∀ v : Bool × State, (go v).held = v.2.held := by
    intro v; simp only [go]; split <;> simp [hr]
  clear_value u run go
  rw [← hu]
  split
  · rfl
  · dsimp only
    (repeat' split) <;> (try simp only [hr, hg]) <;> (repeat' split)
    all_goals first | (simp; done) | exact failover_held _ _ _ | exact copyRead_held _ _ _ _ _ _

theorem execCrownEntryServe_onward (w : WinIx) (line : BitVec 36) (s : State) :
    ∀ s', (execCrownEntryServe w line s) = .next s' → s.Onward s' := by
  intro s' h
  simp only [execCrownEntryServe] at h
  (repeat' split at h) <;> (cases Host.Outcome.next.inj h; exact .of_held (by simp))

theorem execCrownRequestArrive_onward (src : Fin 5) (s : State) :
    ∀ s', (execCrownRequestArrive src s) = .next s' → s.Onward s' := by
  intro s' h
  simp only [execCrownRequestArrive] at h
  (repeat' split at h) <;> (cases Host.Outcome.next.inj h; exact .of_held (by simp))

theorem execBirspReceive_onward (h : HostIx) (w : WinIx) (line : BitVec 36) (rsp : BiRsp) (s : State) :
    ∀ s', (execBirspReceive h w line rsp s) = .next s' → s.Onward s' := by
  intro s' h
  simp only [execBirspReceive] at h
  (repeat' split at h) <;> (cases Host.Outcome.next.inj h; exact .of_held (by simp))

theorem execBiconflictReceive_onward (h : HostIx) (w : WinIx) (line : BitVec 36) (s : State) :
    ∀ s', (execBiconflictReceive h w line s) = .next s' → s.Onward s' := by
  intro s' h
  simp only [execBiconflictReceive] at h
  (repeat' split at h) <;> (cases Host.Outcome.next.inj h; exact .of_held (by simp))

theorem execSnoopTimeout_onward (h : HostIx) (w : WinIx) (line : BitVec 36) (s : State) :
    ∀ s', (execSnoopTimeout h w line s) = .next s' → s.Onward s' := by
  intro s' h
  simp only [execSnoopTimeout] at h
  (repeat' split at h) <;> (have e := Host.Outcome.next.inj h; subst e; rw [onward_iff]; simp)

theorem execBrimFill_onward (t : TileIx) (s : State) :
    ∀ s', (execBrimFill t s) = .next s' → s.Onward s' := by
  intro s' h
  simp only [execBrimFill] at h
  (repeat' split at h) <;> (cases Host.Outcome.next.inj h; exact .of_held (by simp))

theorem execBrimRead_onward (t : TileIx) (s : State) :
    ∀ s', (execBrimRead t s) = .next s' → s.Onward s' := by
  intro s' h
  simp only [execBrimRead] at h
  (repeat' split at h) <;> (cases Host.Outcome.next.inj h; exact .of_held (by simp))

theorem execBrimInv_onward (t : TileIx) (s : State) :
    ∀ s', (execBrimInv t s) = .next s' → s.Onward s' := by
  intro s' h
  simp only [execBrimInv] at h
  (repeat' split at h) <;> (cases Host.Outcome.next.inj h; exact .of_held (by simp))

theorem execBrimAckReceive_onward (t : TileIx) (s : State) :
    ∀ s', (execBrimAckReceive t s) = .next s' → s.Onward s' := by
  intro s' h
  simp only [execBrimAckReceive] at h
  (repeat' split at h) <;> (cases Host.Outcome.next.inj h; exact .of_held (by simp))

theorem execTargetResponseReceive_onward (id : Nat) (status : MemStatus) (data : BitVec 512) (s : State) :
    ∀ s', (execTargetResponseReceive id status data s) = .next s' → s.Onward s' := by
  intro s' h
  simp only [execTargetResponseReceive] at h
  (repeat' split at h) <;> (cases Host.Outcome.next.inj h; exact .of_held (by simp))

end Sys2Proof.Machine
end

