-- ==== Sys2Proof/Laws/Windows.lean ====
section
/-!
SUPPORT. What the operations of Machine/Windows.lean do to the queue, the fuses and the time.
-/
namespace Sys2Proof.Machine

@[simp] theorem ownResyncStart_held (w : Nat) (s : State) :
    (ownResyncStart w s).2.held = s.held := by
  simp only [ownResyncStart]
  (repeat' split) <;> simp [*]

@[simp] theorem showDepartures_held (s : State) :
    (State.showDepartures s).held = s.held := by
  simp [State.showDepartures]

@[simp] theorem dropHostEntries_held (s : State) (h : Nat) (f : Nat → Bool) :
    (State.dropHostEntries s h f).held = s.held := by
  simp only [State.dropHostEntries]
  (repeat' (first | (simp [*]; done) | split | (with_reducible refine (foldl_held _ (fun s a => ?_) _ _).trans ?_) | (rename_i h; have h' := held_of_eq h; simp at h'; simp [h']; done) | simp [*]))

@[simp] theorem markerArrives_held (s : State) (k : Nat) :
    (State.markerArrives s k).held = s.held := by
  simp [State.markerArrives]

@[simp] theorem sweepLine_held (s : State) (w line : Nat) :
    (State.sweepLine s w line).held = s.held := by
  unfold State.sweepLine
  try dsimp only
  (repeat' split)
  all_goals first
    | (simp; done)
    | rfl
    | (have h1 := pushInternal_held _ _ _ _ _ ‹State.pushInternal _ _ _ _ = some _›; simp [h1]; done)
    | (have h1 := pushBefore_held _ _ _ _ _ ‹State.pushBefore _ _ _ _ = some _›; simp [h1]; done)
    | (have h1 := markPoison_held _ _ _ _ _ _ _ ‹State.markPoison _ _ _ _ _ _ = some _›; simp [h1]; done)
    | (have h1 := crownWrite_held _ _ _ _ _ _ _ _ _ ‹State.crownWrite _ _ _ _ _ _ _ _ = some _›; simp [h1]; done)
    | (have h1 := writeBackSector_held _ _ _ ‹State.writeBackSector _ _ = some _›; simp [h1]; done)

@[simp] theorem sweepPassed_held (s : State) (w n : Nat) :
    (State.sweepPassed s w n).held = s.held := by
  simp [State.sweepPassed]

@[simp] theorem setFrzState_held (s : State) (w st : Nat) :
    (State.setFrzState s w st).held = s.held := by
  simp [State.setFrzState]

@[simp] theorem ownFrzArm_held (w : Nat) (s : State) :
    (ownFrzArm w s).2.held = s.held := by
  unfold ownFrzArm
  (repeat' split) <;> simp

@[simp] theorem ownFrzRelease_held (w : Nat) (s : State) :
    (ownFrzRelease w s).2.held = s.held := by
  simp only [ownFrzRelease]
  (repeat' split) <;> simp [*]

@[simp] theorem sweepCovered_held (s : State) (w n : Nat) :
    (State.sweepCovered s w n).held = s.held := by
  simp [State.sweepCovered]

theorem execWindowInitComplete_onward (w : WinIx) (s : State) :
    ∀ s', (execWindowInitComplete w s) = .next s' → s.Onward s' := by
  intro s' h
  simp only [execWindowInitComplete] at h
  (repeat' split at h) <;> (cases Host.Outcome.next.inj h; exact .of_held (by simp))

theorem execResyncStart_onward (sess : SessRef) (w : WinIx) (v : Byte) (s : State) :
    ∀ s', (execResyncStart sess w v s) = .next s' → s.Onward s' := by
  intro s' h
  simp only [execResyncStart] at h
  (repeat' split at h) <;> (cases Host.Outcome.next.inj h; exact .of_held (by simp))

theorem execResyncLineCopy_onward (w : WinIx) (s : State) :
    ∀ s', (execResyncLineCopy w s) = .next s' → s.Onward s' := by
  intro t_ h_
  simp only [execResyncLineCopy] at h_
  (repeat' split at h_) <;> (have e_ := Host.Outcome.next.inj h_; subst e_)
  all_goals first
    | exact .refl _
    | (refine .of_held ?_; simp; done)
    | (have h1 := pushInternal_held _ _ _ _ _ ‹State.pushInternal _ _ _ _ = some _›; refine .of_held ?_; simp; exact h1)

theorem execDepartureMarkerArrive_onward (h : HostIx) (s : State) :
    ∀ s', (execDepartureMarkerArrive h s) = .next s' → s.Onward s' := by
  intro s' h
  simp only [execDepartureMarkerArrive] at h
  (repeat' split at h) <;> (cases Host.Outcome.next.inj h; exact .of_held (by simp))

theorem execDepartureSweepStep_onward (s : State) :
    ∀ s', (execDepartureSweepStep s) = .next s' → s.Onward s' := by
  intro s' h
  simp only [execDepartureSweepStep] at h
  (repeat' split at h) <;> (cases Host.Outcome.next.inj h; exact .of_held (by simp))

theorem execFrzArm_onward (sess : SessRef) (w : WinIx) (v : Byte) (s : State) :
    ∀ s', (execFrzArm sess w v s) = .next s' → s.Onward s' := by
  intro s' h
  simp only [execFrzArm] at h
  (repeat' split at h) <;> (cases Host.Outcome.next.inj h; exact .of_held (by simp))

theorem execFrzRelease_onward (sess : SessRef) (w : WinIx) (v : Byte) (s : State) :
    ∀ s', (execFrzRelease sess w v s) = .next s' → s.Onward s' := by
  intro s' h
  simp only [execFrzRelease] at h
  (repeat' split at h) <;> (cases Host.Outcome.next.inj h; exact .of_held (by simp))

theorem execFreezePoint_onward (w : WinIx) (s : State) :
    ∀ s', (execFreezePoint w s) = .next s' → s.Onward s' := by
  intro s' h
  simp only [execFreezePoint] at h
  (repeat' split at h) <;> (cases Host.Outcome.next.inj h; exact .of_held (by simp))

theorem execFreezeSweepStep_onward (w : WinIx) (s : State) :
    ∀ s', (execFreezeSweepStep w s) = .next s' → s.Onward s' := by
  intro t_ h_
  simp only [execFreezeSweepStep] at h_
  (repeat' split at h_) <;> (have e_ := Host.Outcome.next.inj h_; subst e_)
  all_goals first
    | exact .refl _
    | (refine .of_held ?_; simp; done)
    | (have h1 := pushInternal_held _ _ _ _ _ ‹State.pushInternal _ _ _ _ = some _›; refine .of_held ?_; simp; exact h1)

theorem execFreezeComplete_onward (w : WinIx) (s : State) :
    ∀ s', (execFreezeComplete w s) = .next s' → s.Onward s' := by
  intro s' h
  simp only [execFreezeComplete] at h
  (repeat' split at h) <;> (cases Host.Outcome.next.inj h; exact .of_held (by simp))

end Sys2Proof.Machine
end

