-- ==== Sys2Proof/Laws/Ports.lean ====
section
/-!
SUPPORT. What the operations of Machine/Ports.lean do to the queue, the fuses and the time.
-/
namespace Sys2Proof.Machine

@[simp] theorem fab_held (s : State) (x : Fabric) : ({ s with fab := x } : State).held = s.held := rfl

@[simp] theorem setTrainedLanes_held (s : State) (p : Nat) (i : LinkInfo) :
    (State.setTrainedLanes s p i).held = s.held := by
  simp [State.setTrainedLanes]

@[simp] theorem setDegraded_held (s : State) (p v : Nat) :
    (State.setDegraded s p v).held = s.held := by
  simp [State.setDegraded]

@[simp] theorem sendPowerLimit_held (s : State) (p : Nat) :
    (State.sendPowerLimit s p).held = s.held := by
  simp [State.sendPowerLimit]

@[simp] theorem vppbsLinkUp_held (s : State) (p : Nat) :
    (State.vppbsLinkUp s p).held = s.held := by
  simp [State.vppbsLinkUp]

@[simp] theorem settlePort_held (s : State) (p : Nat) (accept : Bool) :
    (State.settlePort s p accept).held = s.held := by
  simp [State.settlePort]

@[simp] theorem ownLinkEnable_held (p v : Nat) (s : State) :
    (ownLinkEnable p v s).2.held = s.held := by
  unfold ownLinkEnable
  (repeat' split) <;> simp

@[simp] theorem ownLinkRetrain_held (p : Nat) (s : State) :
    (ownLinkRetrain p s).2.held = s.held := by
  unfold ownLinkRetrain
  (repeat' split) <;> simp

@[simp] theorem linkReset_held (s : State) (p : Nat) :
    (State.linkReset s p).held = s.held := by
  simp [State.linkReset]

@[simp] theorem updLane_held (s : State) (l : Nat) (f : Lane → Lane) :
    (State.updLane s l f).held = s.held := by
  simp [State.updLane]

@[simp] theorem laneTestWrite_held (s : State) (l v : Nat) :
    (State.laneTestWrite s l v).held = s.held := by
  simp [State.laneTestWrite]

@[simp] theorem ownEyeCmd_held (q c : Nat) (s : State) :
    (ownEyeCmd q c s).2.held = s.held := by
  unfold ownEyeCmd
  generalize eyeRecord _ _ _ _ = x_
  split
  · rw [setO_held, setO_held, fab_held, setO_held]
  · simp

theorem execPartnerDetect_onward (p : PortIx) (s : State) :
    ∀ s', (execPartnerDetect p s) = .next s' → s.Onward s' := by
  intro s' h
  simp only [execPartnerDetect] at h
  (repeat' split at h) <;> (cases Host.Outcome.next.inj h; exact .of_held (by simp))

theorem execLinkActive_onward (p : PortIx) (info : LinkInfo) (s : State) :
    ∀ s', (execLinkActive p info s) = .next s' → s.Onward s' := by
  intro s' h
  simp only [execLinkActive] at h
  (repeat' split at h) <;> (cases Host.Outcome.next.inj h; exact .of_held (by simp))

theorem execLinkEnable_onward (sess : SessRef) (p : PortIx) (v : Byte) (s : State) :
    ∀ s', (execLinkEnable sess p v s) = .next s' → s.Onward s' := by
  intro s' h
  simp only [execLinkEnable] at h
  (repeat' split at h) <;> (cases Host.Outcome.next.inj h; exact .of_held (by simp))

theorem execLinkRetrain_onward (sess : SessRef) (p : PortIx) (v : Byte) (s : State) :
    ∀ s', (execLinkRetrain sess p v s) = .next s' → s.Onward s' := by
  intro s' h
  simp only [execLinkRetrain] at h
  (repeat' split at h) <;> (cases Host.Outcome.next.inj h; exact .of_held (by simp))

theorem execPartnerHotReset_onward (p : PortIx) (s : State) :
    ∀ s', (execPartnerHotReset p s) = .next s' → s.Onward s' := by
  intro s' h
  simp only [execPartnerHotReset] at h
  (repeat' split at h) <;> (cases Host.Outcome.next.inj h; exact .of_held (by simp))

theorem execCxlHotReset_onward (p : PortIx) (vppb : Option (HostIx × Fin 49)) (s : State) :
    ∀ s', (execCxlHotReset p vppb s) = .next s' → s.Onward s' := by
  intro s' h
  simp only [execCxlHotReset] at h
  (repeat' split at h) <;> (cases Host.Outcome.next.inj h; exact .of_held (by simp))

theorem execLinkRecovery_onward (p : PortIx) (cause : RecoveryCause) (back : Bool) (s : State) :
    ∀ s', (execLinkRecovery p cause back s) = .next s' → s.Onward s' := by
  intro s' h
  simp only [execLinkRecovery] at h
  (repeat' split at h) <;> (cases Host.Outcome.next.inj h; exact .of_held (by simp))

theorem execLoopbackEntry_onward (p : PortIx) (s : State) :
    ∀ s', (execLoopbackEntry p s) = .next s' → s.Onward s' := by
  intro s' h
  simp only [execLoopbackEntry] at h
  (repeat' split at h) <;> (cases Host.Outcome.next.inj h; exact .of_held (by simp))

theorem execLoopbackExit_onward (p : PortIx) (s : State) :
    ∀ s', (execLoopbackExit p s) = .next s' → s.Onward s' := by
  intro s' h
  simp only [execLoopbackExit] at h
  (repeat' split at h) <;> (cases Host.Outcome.next.inj h; exact .of_held (by simp))

theorem execL1Entry_onward (p : PortIx) (s : State) :
    ∀ s', (execL1Entry p s) = .next s' → s.Onward s' := by
  intro s' h
  simp only [execL1Entry] at h
  (repeat' split at h) <;> (cases Host.Outcome.next.inj h; exact .of_held (by simp))

theorem execL1Exit_onward (p : PortIx) (s : State) :
    ∀ s', (execL1Exit p s) = .next s' → s.Onward s' := by
  intro s' h
  simp only [execL1Exit] at h
  (repeat' split at h) <;> (cases Host.Outcome.next.inj h; exact .of_held (by simp))

theorem execL0pWidthChange_onward (p : PortIx) (width : Nat) (s : State) :
    ∀ s', (execL0pWidthChange p width s) = .next s' → s.Onward s' := by
  intro s' h
  simp only [execL0pWidthChange] at h
  (repeat' split at h) <;> (have e := Host.Outcome.next.inj h; subst e; rw [onward_iff]; repeat' (first | (simp [*]; done) | split | (with_reducible refine heldOnward_foldl _ (fun s a => ?_) _ _ _ ?_) | simp [*]))

theorem execLaneMargining_onward (lane : LaneIx) (on : Bool) (s : State) :
    ∀ s', (execLaneMargining lane on s) = .next s' → s.Onward s' := by
  intro s' h
  simp only [execLaneMargining] at h
  (repeat' split at h) <;> (cases Host.Outcome.next.inj h; exact .of_held (by simp))

theorem execLaneTestConfig_onward (via : CsrVia) (lane : LaneIx) (value : Word32) (s : State) :
    ∀ s', (execLaneTestConfig via lane value s) = .next s' → s.Onward s' := by
  intro s' h
  simp only [execLaneTestConfig] at h
  (repeat' split at h) <;> (cases Host.Outcome.next.inj h; exact .of_held (by simp))

theorem execBitslip_onward (via : CsrVia) (lane : LaneIx) (s : State) :
    ∀ s', (execBitslip via lane s) = .next s' → s.Onward s' := by
  intro s' h
  simp only [execBitslip] at h
  (repeat' split at h) <;> (cases Host.Outcome.next.inj h; exact .of_held (by simp))

theorem execBitslipDone_onward (lane : LaneIx) (s : State) :
    ∀ s', (execBitslipDone lane s) = .next s' → s.Onward s' := by
  intro s' h
  simp only [execBitslipDone] at h
  (repeat' split at h) <;> (cases Host.Outcome.next.inj h; exact .of_held (by simp))

theorem execErrClr_onward (via : CsrVia) (lane : LaneIx) (s : State) :
    ∀ s', (execErrClr via lane s) = .next s' → s.Onward s' := by
  intro s' h
  simp only [execErrClr] at h
  (repeat' split at h) <;> (cases Host.Outcome.next.inj h; exact .of_held (by simp))

theorem execEyeCmd_onward (sess : SessRef) (p : PortIx) (cmd : BitVec 128) (s : State) :
    ∀ s', (execEyeCmd sess p cmd s) = .next s' → s.Onward s' := by
  intro s' h
  simp only [execEyeCmd] at h
  (repeat' split at h) <;> (cases Host.Outcome.next.inj h; exact .of_held (by simp))

theorem execEyeScanPoint_onward (p : PortIx) (errors : BitVec 32) (s : State) :
    ∀ s', (execEyeScanPoint p errors s) = .next s' → s.Onward s' := by
  intro s' h
  simp only [execEyeScanPoint] at h
  (repeat' split at h) <;> (cases Host.Outcome.next.inj h; exact .of_held (by simp))

end Sys2Proof.Machine
end

