-- ==== Sys2Proof/Laws/Binding.lean ====
section
/-!
SUPPORT. What the operations of Machine/Binding.lean do to the queue, the fuses and the time.
-/
namespace Sys2Proof.Machine

@[simp] theorem setClaim_held (s : State) (p : Nat) (new : Claim) (accept : Bool) :
    (State.setClaim s p new accept).held = s.held := by
  simp [State.setClaim]

@[simp] theorem ownClaim_held (p : Nat) (f : Claim → Claim) (role : Bool) (s : State) :
    (ownClaim p f role s).2.held = s.held := by
  simp only [ownClaim]
  (repeat' split) <;> simp [*]

@[simp] theorem slotControl_held (s : State) (n v c : Nat) :
    (State.slotControl s n v c).held = s.held := by
  unfold State.slotControl
  (repeat' split) <;> simp

@[simp] theorem linkDisable_held (s : State) (n v : Nat) (disable : Bool) :
    (State.linkDisable s n v disable).held = s.held := by
  unfold State.linkDisable
  (repeat' split) <;> simp

@[simp] theorem bindAccept_held (s : State) (c : Nat) :
    (State.bindAccept s c).held = s.held := by
  simp [State.bindAccept]

@[simp] theorem ownBindCmd_held (c : Nat) (s : State) :
    (ownBindCmd c s).2.held = s.held := by
  unfold ownBindCmd
  (repeat' split) <;> simp

@[simp] theorem publishBind_held (s : State) (b : BindOp) :
    (State.publishBind s b).held = s.held := by
  simp [State.publishBind]

@[simp] theorem cutBinding_held (s : State) (n v p : Nat) :
    (State.cutBinding s n v p).held = s.held := by
  simp [State.cutBinding]

@[simp] theorem publishUnbind_held (s : State) (b : BindOp) :
    (State.publishUnbind s b).held = s.held := by
  simp [State.publishUnbind]

@[simp] theorem unmapBlocks_held (s : State) (n dpa count : Nat) :
    (State.unmapBlocks s n dpa count).held = s.held := by
  simp [State.unmapBlocks]

@[simp] theorem extAccept_held (s : State) (c : Nat) :
    (State.extAccept s c).held = s.held := by
  simp [State.extAccept]

@[simp] theorem ownExtentCmd_held (c : Nat) (s : State) :
    (ownExtentCmd c s).2.held = s.held := by
  unfold ownExtentCmd
  (repeat' split) <;> simp

@[simp] theorem ldAnswer_held (s : State) (n rc : Nat) :
    (State.ldAnswer s n rc).held = s.held := by
  simp [State.ldAnswer]

@[simp] theorem mapOffered_held (s : State) (n : Nat) (runs : List (Nat × Nat)) :
    (State.mapOffered s n runs).held = s.held := by
  simp [State.mapOffered]

@[simp] theorem releaseDone_held (s : State) (n : Nat) :
    (State.releaseDone s n).held = s.held := by
  unfold State.releaseDone
  (repeat' split) <;> simp

theorem execPortRoleWrite_onward (sess : SessRef) (p : PortIx) (v : Byte) (s : State) :
    ∀ s', (execPortRoleWrite sess p v s) = .next s' → s.Onward s' := by
  intro s' h
  simp only [execPortRoleWrite] at h
  (repeat' split at h) <;> (cases Host.Outcome.next.inj h; exact .of_held (by simp))

theorem execPortAgentWrite_onward (sess : SessRef) (p : PortIx) (v : Byte) (s : State) :
    ∀ s', (execPortAgentWrite sess p v s) = .next s' → s.Onward s' := by
  intro s' h
  simp only [execPortAgentWrite] at h
  (repeat' split at h) <;> (cases Host.Outcome.next.inj h; exact .of_held (by simp))

theorem execPortPoolWrite_onward (sess : SessRef) (p : PortIx) (v : Byte) (s : State) :
    ∀ s', (execPortPoolWrite sess p v s) = .next s' → s.Onward s' := by
  intro s' h
  simp only [execPortPoolWrite] at h
  (repeat' split at h) <;> (cases Host.Outcome.next.inj h; exact .of_held (by simp))

theorem execPortSlotWrite_onward (sess : SessRef) (p : PortIx) (v : Byte) (s : State) :
    ∀ s', (execPortSlotWrite sess p v s) = .next s' → s.Onward s' := by
  intro s' h
  simp only [execPortSlotWrite] at h
  (repeat' split at h) <;> (cases Host.Outcome.next.inj h; exact .of_held (by simp))

theorem execPowerControllerOn_onward (h : HostIx) (v : Fin 49) (s : State) :
    ∀ s', (execPowerControllerOn h v s) = .next s' → s.Onward s' := by
  intro s' h
  simp only [execPowerControllerOn] at h
  (repeat' split at h) <;> (cases Host.Outcome.next.inj h; exact .of_held (by simp))

theorem execPowerControllerOff_onward (h : HostIx) (v : Fin 49) (s : State) :
    ∀ s', (execPowerControllerOff h v s) = .next s' → s.Onward s' := by
  intro s' h
  simp only [execPowerControllerOff] at h
  (repeat' split at h) <;> (cases Host.Outcome.next.inj h; exact .of_held (by simp))

theorem execSlotControlWrite_onward (h : HostIx) (v : Fin 49) (value : BitVec 16) (s : State) :
    ∀ s', (execSlotControlWrite h v value s) = .next s' → s.Onward s' := by
  intro s' h
  simp only [execSlotControlWrite] at h
  (repeat' split at h) <;> (cases Host.Outcome.next.inj h; exact .of_held (by simp))

theorem execPerstRelease_onward (n : SlotIx) (s : State) :
    ∀ s', (execPerstRelease n s) = .next s' → s.Onward s' := by
  intro s' h
  simp only [execPerstRelease] at h
  (repeat' split at h) <;> (have e := Host.Outcome.next.inj h; subst e; rw [onward_iff]; simp)

theorem execSlotOffAfterPerst_onward (n : SlotIx) (s : State) :
    ∀ s', (execSlotOffAfterPerst n s) = .next s' → s.Onward s' := by
  intro s' h
  simp only [execSlotOffAfterPerst] at h
  (repeat' split at h) <;> (have e := Host.Outcome.next.inj h; subst e; rw [onward_iff]; simp)

theorem execHostLinkDisable_onward (h : HostIx) (v : Fin 49) (disable : Bool) (s : State) :
    ∀ s', (execHostLinkDisable h v disable s) = .next s' → s.Onward s' := by
  intro s' h
  simp only [execHostLinkDisable] at h
  (repeat' split at h) <;> (cases Host.Outcome.next.inj h; exact .of_held (by simp))

theorem execSurpriseLinkLoss_onward (p : PortIx) (s : State) :
    ∀ s', (execSurpriseLinkLoss p s) = .next s' → s.Onward s' := by
  intro s' h
  simp only [execSurpriseLinkLoss] at h
  (repeat' split at h) <;> (cases Host.Outcome.next.inj h; exact .of_held (by simp))

theorem execRspTimeout_onward (id : Nat) (s : State) :
    ∀ s', (execRspTimeout id s) = .next s' → s.Onward s' := by
  intro s' h
  simp only [execRspTimeout] at h
  (repeat' split at h) <;> (have e := Host.Outcome.next.inj h; subst e; rw [onward_iff]; simp)

theorem execBindCmdBind_onward (sess : SessRef) (cmd : BitVec 64) (s : State) :
    ∀ s', (execBindCmdBind sess cmd s) = .next s' → s.Onward s' := by
  intro s' h
  simp only [execBindCmdBind] at h
  (repeat' split at h) <;> (cases Host.Outcome.next.inj h; exact .of_held (by simp))

theorem execUnbindWaitLinkDown_onward (sess : SessRef) (cmd : BitVec 64) (s : State) :
    ∀ s', (execUnbindWaitLinkDown sess cmd s) = .next s' → s.Onward s' := by
  intro s' h
  simp only [execUnbindWaitLinkDown] at h
  (repeat' split at h) <;> (cases Host.Outcome.next.inj h; exact .of_held (by simp))

theorem execUnbindManagedHotRemove_onward (sess : SessRef) (cmd : BitVec 64) (s : State) :
    ∀ s', (execUnbindManagedHotRemove sess cmd s) = .next s' → s.Onward s' := by
  intro s' h
  simp only [execUnbindManagedHotRemove] at h
  (repeat' split at h) <;> (cases Host.Outcome.next.inj h; exact .of_held (by simp))

theorem execUnbindSurpriseHotRemove_onward (sess : SessRef) (cmd : BitVec 64) (s : State) :
    ∀ s', (execUnbindSurpriseHotRemove sess cmd s) = .next s' → s.Onward s' := by
  intro s' h
  simp only [execUnbindSurpriseHotRemove] at h
  (repeat' split at h) <;> (cases Host.Outcome.next.inj h; exact .of_held (by simp))

theorem execBindingPublish_onward (s : State) :
    ∀ s', (execBindingPublish s) = .next s' → s.Onward s' := by
  intro s' h
  simp only [execBindingPublish] at h
  (repeat' split at h) <;> (cases Host.Outcome.next.inj h; exact .of_held (by simp))

theorem execUnbindTimeout_onward (s : State) :
    ∀ s', (execUnbindTimeout s) = .next s' → s.Onward s' := by
  intro s' h
  simp only [execUnbindTimeout] at h
  (repeat' split at h) <;> (have e := Host.Outcome.next.inj h; subst e; rw [onward_iff]; simp)

theorem execExtentAdd_onward (sess : SessRef) (cmd : BitVec 128) (s : State) :
    ∀ s', (execExtentAdd sess cmd s) = .next s' → s.Onward s' := by
  intro s' h
  simp only [execExtentAdd] at h
  (repeat' split at h) <;> (cases Host.Outcome.next.inj h; exact .of_held (by simp))

theorem execExtentReleaseByHost_onward (sess : SessRef) (cmd : BitVec 128) (s : State) :
    ∀ s', (execExtentReleaseByHost sess cmd s) = .next s' → s.Onward s' := by
  intro s' h
  simp only [execExtentReleaseByHost] at h
  (repeat' split at h) <;> (cases Host.Outcome.next.inj h; exact .of_held (by simp))

theorem execExtentForcedRelease_onward (sess : SessRef) (cmd : BitVec 128) (s : State) :
    ∀ s', (execExtentForcedRelease sess cmd s) = .next s' → s.Onward s' := by
  intro s' h
  simp only [execExtentForcedRelease] at h
  (repeat' split at h) <;> (cases Host.Outcome.next.inj h; exact .of_held (by simp))

theorem execExtentZeroFillDone_onward (s : State) :
    ∀ s', (execExtentZeroFillDone s) = .next s' → s.Onward s' := by
  intro s' h
  simp only [execExtentZeroFillDone] at h
  (repeat' split at h) <;> (cases Host.Outcome.next.inj h; exact .of_held (by simp))

theorem execAddDynamicCapacityResponse_onward (h : HostIx) (count : Nat) (runs : List (Nat × Nat)) (s : State) :
    ∀ s', (execAddDynamicCapacityResponse h count runs s) = .next s' → s.Onward s' := by
  intro s' h
  simp only [execAddDynamicCapacityResponse] at h
  (repeat' split at h) <;> (cases Host.Outcome.next.inj h; exact .of_held (by simp))

theorem execReleaseDynamicCapacity_onward (h : HostIx) (count : Nat) (runs : List (Nat × Nat)) (s : State) :
    ∀ s', (execReleaseDynamicCapacity h count runs s) = .next s' → s.Onward s' := by
  intro s' h
  simp only [execReleaseDynamicCapacity] at h
  (repeat' split at h) <;> (cases Host.Outcome.next.inj h; exact .of_held (by simp))

theorem execExtentTimeout_onward (s : State) :
    ∀ s', (execExtentTimeout s) = .next s' → s.Onward s' := by
  intro s' h
  simp only [execExtentTimeout] at h
  (repeat' split at h) <;> (have e := Host.Outcome.next.inj h; subst e; rw [onward_iff]; simp)

theorem execExtentReturnFree_onward (h : HostIx) (dpa : Nat) (s : State) :
    ∀ s', (execExtentReturnFree h dpa s) = .next s' → s.Onward s' := by
  intro s' h
  simp only [execExtentReturnFree] at h
  (repeat' split at h) <;> (cases Host.Outcome.next.inj h; exact .of_held (by simp))

end Sys2Proof.Machine
end

