-- ==== Sys2Proof/Laws/CfgSpace.lean ====
section
/-!
SUPPORT. What the operations of Machine/CfgSpace.lean do to the queue, the fuses and the time.
-/
namespace Sys2Proof.Machine

@[simp] theorem updUsp_held (s : State) (n : Nat) (f : Usp → Usp) :
    (State.updUsp s n f).held = s.held := by
  simp [State.updUsp]

@[simp] theorem bridgeWrite_held (s : State) (n v reg w : Nat) :
    (State.bridgeWrite s n v reg w).held = s.held := by
  unfold State.bridgeWrite
  (repeat' split) <;> simp

@[simp] theorem uspWrite_held (s : State) (n reg w : Nat) :
    (State.uspWrite s n reg w).held = s.held := by
  unfold State.uspWrite
  extract_lets f1 setBar old
  have hb : ∀ x, (setBar x).held = s.held := fun x => rfl
  clear_value f1 setBar old
  generalize 2 ^ 32 = k1
  generalize 2 ^ 16 = k2
  generalize 2 ^ 23 = k3
  repeat' split
  all_goals first | (with_reducible rfl) | exact hb _ | exact updUsp_held _ _ _ | exact msixSetControl_held _ _ _ _ | rfl

@[simp] theorem mgmtWrite_held (s : State) (n reg w : Nat) :
    (State.mgmtWrite s n reg w).held = s.held := by
  unfold State.mgmtWrite
  generalize 2 ^ 32 = k1
  generalize 2 ^ 16 = k2
  generalize 2 ^ 17 = k3
  generalize 2 ^ 12 = k4
  repeat' split
  all_goals first | (with_reducible rfl) | exact updUsp_held _ _ _ | exact msixSetControl_held _ _ _ _

@[simp] theorem cfgPut_held (s : State) (n : Nat) (d : CfgDest) (reg w : Nat) :
    (State.cfgPut s n d reg w).held = s.held := by
  unfold State.cfgPut
  (repeat' split) <;> simp

@[simp] theorem cfgWrite_held (s : State) (n : Nat) (d : CfgDest) (reg mask w : Nat) :
    (State.cfgWrite s n d reg mask w).held = s.held := by
  simp [State.cfgWrite]

@[simp] theorem mgmtMemWrite_held (s : State) (n off bytes data : Nat) :
    (State.mgmtMemWrite s n off bytes data).held = s.held := by
  simp [State.mgmtMemWrite]

end Sys2Proof.Machine
end

