-- ==== Sys2Proof/Laws/Gpf.lean ====
section
/-!
SUPPORT. What the operations of Machine/Gpf.lean do to the queue, the fuses and the time.
-/
namespace Sys2Proof.Machine

@[simp] theorem settleFlush_held (s : State) :
    (State.settleFlush s).held = s.held := by
  simp [State.settleFlush]

@[simp] theorem queueWarn_held (s : State) (l : List WarnEv) (clear gpf : Bool) :
    (State.queueWarn s l clear gpf).held = s.held := by
  simp [State.queueWarn]

@[simp] theorem startFlush_held (s : State) :
    (State.startFlush s).held = s.held := by
  simp [State.startFlush]

@[simp] theorem buildWarnings_held (s : State) :
    (State.buildWarnings s).held = s.held := by
  simp [State.buildWarnings]

@[simp] theorem stampWarning_held (s : State) (clear : Bool) (src : Nat) :
    (State.stampWarning s clear src).held = s.held := by
  simp [State.stampWarning]

theorem execPowerWarningMessage_onward (s : State) :
    ∀ s', (execPowerWarningMessage s) = .next s' → s.Onward s' := by
  intro s' h
  simp only [execPowerWarningMessage] at h
  (repeat' split at h) <;> (cases Host.Outcome.next.inj h; exact .of_held (by simp))

theorem execVbusWarnAssert_onward (s : State) :
    ∀ s', (execVbusWarnAssert s) = .next s' → s.Onward s' := by
  intro s' h
  simp only [execVbusWarnAssert] at h
  (repeat' split at h) <;> (cases Host.Outcome.next.inj h; exact .of_held (by simp))

theorem execVbusWarnClear_onward (s : State) :
    ∀ s', (execVbusWarnClear s) = .next s' → s.Onward s' := by
  intro s' h
  simp only [execVbusWarnClear] at h
  (repeat' split at h) <;> (cases Host.Outcome.next.inj h; exact .of_held (by simp))

theorem execFeedWarningAssert_onward (n : SlotIx) (s : State) :
    ∀ s', (execFeedWarningAssert n s) = .next s' → s.Onward s' := by
  intro s' h
  simp only [execFeedWarningAssert] at h
  (repeat' split at h) <;> (cases Host.Outcome.next.inj h; exact .of_held (by simp))

theorem execFeedWarningClear_onward (n : SlotIx) (s : State) :
    ∀ s', (execFeedWarningClear n s) = .next s' → s.Onward s' := by
  intro s' h
  simp only [execFeedWarningClear] at h
  (repeat' split at h) <;> (cases Host.Outcome.next.inj h; exact .of_held (by simp))

theorem execHostGpfPhase2Request_onward (h : HostIx) (s : State) :
    ∀ s', (execHostGpfPhase2Request h s) = .next s' → s.Onward s' := by
  intro s' h
  simp only [execHostGpfPhase2Request] at h
  (repeat' split at h) <;> (cases Host.Outcome.next.inj h; exact .of_held (by simp))

theorem execGpfTargetForward_onward (m : TargetIx) (s : State) :
    ∀ s', (execGpfTargetForward m s) = .next s' → s.Onward s' := by
  intro s' h
  simp only [execGpfTargetForward] at h
  (repeat' split at h) <;> (cases Host.Outcome.next.inj h; exact .of_held (by simp))

theorem execGpfHostWaitExpiry_onward (s : State) :
    ∀ s', (execGpfHostWaitExpiry s) = .next s' → s.Onward s' := by
  intro t_ h_
  unfold execGpfHostWaitExpiry at h_
  dsimp only at h_
  (repeat' split at h_) <;> (have e_ := Host.Outcome.next.inj h_; subst e_)
  · exact .refl _
  · refine .trans (t := s.advance (s.pw.gpf.startedAt + s.c K.GPF_HOST_WAIT * Config.us)) (advance_onward s _) (.of_held ?_)
    exact (raise_held _ _ _ _ _ _).trans (pw_held _ _)

theorem execGpfTargetComplete_onward (m : TargetIx) (s : State) :
    ∀ s', (execGpfTargetComplete m s) = .next s' → s.Onward s' := by
  intro s' h
  simp only [execGpfTargetComplete] at h
  (repeat' split at h) <;> (cases Host.Outcome.next.inj h; exact .of_held (by simp))

end Sys2Proof.Machine
end

