-- ==== Sys2Proof/Laws/Movers.lean ====
section
/-!
SUPPORT. What the operations of Machine/Movers.lean do to the queue, the fuses and the time.
-/
namespace Sys2Proof.Machine

@[simp] theorem saveSlice_held (s : State) (sl m off : Nat) :
    (State.saveSlice s sl m off).held = s.held := by
  simp [State.saveSlice]

@[simp] theorem sliceAccept_held (s : State) (v : Nat) (r : List Byte) :
    (State.sliceAccept s v r).held = s.held := by
  unfold State.sliceAccept
  (repeat' split) <;> simp

@[simp] theorem ownSliceCmd_held (v : Nat) (r : List Byte) (s : State) :
    (ownSliceCmd v r s).2.held = s.held := by
  unfold ownSliceCmd
  (repeat' split) <;> simp

@[simp] theorem completion_held (s : State) (sl raw reason done crc faultAddr : Nat) :
    (State.completion s sl raw reason done crc faultAddr).held = s.held := by
  simp [State.completion]

@[simp] theorem sliceIrq_held (s : State) (sl : Nat) :
    (State.sliceIrq s sl).held = s.held := by
  simp [State.sliceIrq]

@[simp] theorem finishDesc_held (s : State) (sl : Nat) (a : ActiveDesc) :
    (State.finishDesc s sl a).held = s.held := by
  simp [State.finishDesc]

@[simp] theorem startDesc_held (s : State) (sl : Nat) (d : Desc) (list : List Byte) (at_ crc : Nat) :
    (State.startDesc s sl d list at_ crc).2.held = s.held := by
  simp only [State.startDesc]
  (repeat' (first | (simp [*]; done) | split | (with_reducible refine (foldl_held _ (fun s a => ?_) _ _).trans ?_) | (rename_i h; have h' := held_of_eq h; simp at h'; simp [h']; done) | simp [*]))

@[simp] theorem issueChunk_held (s : State) (sl : Nat) (a : ActiveDesc) :
    (State.issueChunk s sl a).held = s.held := by
  simp [State.issueChunk]

@[simp] theorem noteRun_held (s : State) (e sl : Nat) :
    (State.noteRun s e sl).held = s.held := by
  simp [State.noteRun]

@[simp] theorem submit_held (s : State) (sl q raw : Nat) :
    (State.submit s sl q raw).held = s.held := by
  simp [State.submit]

@[simp] theorem sliceDoorbell_held (s : State) (p rid sl w : Nat) :
    (State.sliceDoorbell s p rid sl w).held = s.held := by
  simp [State.sliceDoorbell]

@[simp] theorem ringConsWrite_held (s : State) (sl v : Nat) :
    (State.ringConsWrite s sl v).held = s.held := by
  unfold State.ringConsWrite
  (repeat' split) <;> simp

@[simp] theorem pageWrite_held (s : State) (p rid h sl off n : Nat) (pasid : Option Nat) (data : Nat) :
    (State.pageWrite s p rid h sl off n pasid data).held = s.held := by
  simp [State.pageWrite]

@[simp] theorem pageCommand_held (s : State) (p : Nat) (f : Nat → Nat → State) (h : ∀ q n, (f q n).held = s.held) :
    (s.pageCommand p f).held = s.held := by
  unfold State.pageCommand
  dsimp only
  split
  · rfl
  · exact h _ _

@[simp] theorem ownEvacCmd_held (v : Nat) (s : State) :
    (ownEvacCmd v s).2.held = s.held := by
  simp only [ownEvacCmd]
  (repeat' split) <;> simp [*]

@[simp] theorem setExtent_held (s : State) (x : Extent) :
    (State.setExtent s x).held = s.held := by
  simp [State.setExtent]

@[simp] theorem copyGranule_held (s : State) (e : Evac) (from_ to_ : Nat × Nat) :
    (State.copyGranule s e from_ to_).held = s.held := by
  simp [State.copyGranule]

theorem execSliceCreate_onward (sess : SessRef) (cmd : BitVec 512) (s : State) :
    ∀ s', (execSliceCreate sess cmd s) = .next s' → s.Onward s' := by
  intro s' h
  simp only [execSliceCreate] at h
  (repeat' split at h) <;> (cases Host.Outcome.next.inj h; exact .of_held (by simp))

theorem execSliceDestroy_onward (sess : SessRef) (cmd : BitVec 512) (s : State) :
    ∀ s', (execSliceDestroy sess cmd s) = .next s' → s.Onward s' := by
  intro s' h
  simp only [execSliceDestroy] at h
  (repeat' split at h) <;> (cases Host.Outcome.next.inj h; exact .of_held (by simp))

theorem execSliceFreeze_onward (sess : SessRef) (cmd : BitVec 512) (s : State) :
    ∀ s', (execSliceFreeze sess cmd s) = .next s' → s.Onward s' := by
  intro s' h
  simp only [execSliceFreeze] at h
  (repeat' split at h) <;> (cases Host.Outcome.next.inj h; exact .of_held (by simp))

theorem execSliceSave_onward (sess : SessRef) (cmd : BitVec 512) (s : State) :
    ∀ s', (execSliceSave sess cmd s) = .next s' → s.Onward s' := by
  intro s' h
  simp only [execSliceSave] at h
  (repeat' split at h) <;> (cases Host.Outcome.next.inj h; exact .of_held (by simp))

theorem execSliceRestore_onward (sess : SessRef) (cmd : BitVec 512) (record : List Byte) (s : State) :
    ∀ s', (execSliceRestore sess cmd record s) = .next s' → s.Onward s' := by
  intro s' h
  simp only [execSliceRestore] at h
  (repeat' split at h) <;> (cases Host.Outcome.next.inj h; exact .of_held (by simp))

theorem execSliceThaw_onward (sess : SessRef) (cmd : BitVec 512) (s : State) :
    ∀ s', (execSliceThaw sess cmd s) = .next s' → s.Onward s' := by
  intro s' h
  simp only [execSliceThaw] at h
  (repeat' split at h) <;> (cases Host.Outcome.next.inj h; exact .of_held (by simp))

theorem execSliceFrozen_onward (sl : SliceIx) (s : State) :
    ∀ s', (execSliceFrozen sl s) = .next s' → s.Onward s' := by
  intro s' h
  simp only [execSliceFrozen] at h
  (repeat' split at h) <;> (cases Host.Outcome.next.inj h; exact .of_held (by simp))

theorem execDescriptorFinish_onward (sl : SliceIx) (s : State) :
    ∀ s', (execDescriptorFinish sl s) = .next s' → s.Onward s' := by
  intro s' h
  simp only [execDescriptorFinish] at h
  (repeat' split at h) <;> (cases Host.Outcome.next.inj h; exact .of_held (by simp))

theorem execDescriptorStart_onward (sl : SliceIx) (list : List Byte) (s : State) :
    ∀ s', (execDescriptorStart sl list s) = .next s' → s.Onward s' := by
  intro s' h
  simp only [execDescriptorStart] at h
  (repeat' split at h) <;> (cases Host.Outcome.next.inj h; exact .of_held (by simp))

theorem execChunkIssue_onward (e : EngineIx) (s : State) :
    ∀ s', (execChunkIssue e s) = .next s' → s.Onward s' := by
  intro s' h
  simp only [execChunkIssue] at h
  (repeat' split at h) <;> (cases Host.Outcome.next.inj h; exact .of_held (by simp))

theorem execChunkReadReturn_onward (id : Nat) (status : MemStatus) (data : List Byte) (s : State) :
    ∀ s', (execChunkReadReturn id status data s) = .next s' → s.Onward s' := by
  intro s' h
  simp only [execChunkReadReturn] at h
  (repeat' split at h) <;> (cases Host.Outcome.next.inj h; exact .of_held (by simp))

theorem execSubmit_onward (p : PortIx) (sl : SliceIx) (offset : BitVec 12) (pasid : Option (BitVec 20)) (desc : List Byte) (s : State) :
    ∀ s', (execSubmit p sl offset pasid desc s) = .next s' → s.Onward s' := by
  intro s' h
  simp only [execSubmit] at h
  (repeat' split at h) <;> (cases Host.Outcome.next.inj h; exact .of_held (by simp))

theorem execSliceFence_onward (p : PortIx) (sl : SliceIx) (offset : BitVec 12) (nbytes : Nat) (pasid : Option (BitVec 20)) (word : BitVec 128) (s : State) :
    ∀ s', (execSliceFence p sl offset nbytes pasid word s) = .next s' → s.Onward s' := by
  intro s' h
  simp only [execSliceFence] at h
  (repeat' split at h) <;> (cases Host.Outcome.next.inj h; exact .of_held (by simp))

theorem execRingCons_onward (p : PortIx) (sl : SliceIx) (offset : BitVec 12) (nbytes : Nat) (pasid : Option (BitVec 20)) (v : Word64) (s : State) :
    ∀ s', (execRingCons p sl offset nbytes pasid v s) = .next s' → s.Onward s' := by
  intro s' h
  simp only [execRingCons] at h
  (repeat' split at h) <;> (cases Host.Outcome.next.inj h; exact .of_held (by simp))

theorem execEvacCmd_onward (sess : SessRef) (cmd : BitVec 128) (s : State) :
    ∀ s', (execEvacCmd sess cmd s) = .next s' → s.Onward s' := by
  intro s' h
  simp only [execEvacCmd] at h
  (repeat' split at h) <;> (cases Host.Outcome.next.inj h; exact .of_held (by simp))

end Sys2Proof.Machine
end

