-- ==== Sys2Proof/Laws/Requests.lean ====
section
/-!
SUPPORT. What the operations of Machine/Requests.lean do to the queue, the fuses and the time.
-/
namespace Sys2Proof.Machine

@[simp] theorem Ingress.answer_held (x : Ingress) (s : State) (status data : Nat) :
    (Ingress.answer x s status data).held = s.held := by
  simp [Ingress.answer]

@[simp] theorem takeCredits_held (s : State) (p : Nat) (r : Req) :
    (State.takeCredits s p r).held = s.held := by
  simp [State.takeCredits]

@[simp] theorem dropView_held (s : State) (x : Ingress) :
    (State.dropView s x).held = s.held := by
  simp [State.dropView]

@[simp] theorem Ingress.miss_held (x : Ingress) (s : State) :
    (Ingress.miss x s).held = s.held := by
  simp [Ingress.miss]

@[simp] theorem Ingress.refused_held (x : Ingress) (s : State) (f : GFault) :
    (Ingress.refused x s f).held = s.held := by
  unfold Ingress.refused
  (repeat' split) <;> simp

@[simp] theorem countOverride_held (s : State) (p : Nat) (r : Req) :
    (State.countOverride s p r).held = s.held := by
  simp [State.countOverride]

@[simp] theorem waitTag_held (s : State) (x : Ingress) :
    (State.waitTag s x).held = s.held := by
  simp only [State.waitTag]
  (repeat' split) <;> simp [*]

@[simp] theorem Ingress.toWindow_held (x : Ingress) (w line : Nat) (s : State) :
    (Ingress.toWindow x w line s).held = s.held := by
  simp [Ingress.toWindow]

@[simp] theorem Ingress.toPort_held (x : Ingress) (q ld addr : Nat) (cls : Cls) (vppb : Nat) (s : State) :
    (Ingress.toPort x q ld addr cls vppb s).held = s.held := by
  simp [Ingress.toPort]

@[simp] theorem Ingress.linePart_held (x : Ingress) (parent : Nat) (cls : Cls) (s : State) (a n : Nat) :
    (Ingress.linePart x parent cls s a n).held = s.held := by
  unfold Ingress.linePart
  (repeat' split) <;> simp

@[simp] theorem Ingress.viaLines_held (x : Ingress) (cls : Cls) (s : State) :
    (Ingress.viaLines x cls s).held = s.held := by
  simp [Ingress.viaLines]

@[simp] theorem Ingress.lost_held (x : Ingress) (s : State) :
    (Ingress.lost x s).held = s.held := by
  simp [Ingress.lost]

@[simp] theorem Ingress.deliver_held (x : Ingress) (d : Dest) (s : State) :
    (Ingress.deliver x d s).held = s.held := by
  unfold Ingress.deliver
  (repeat' split) <;> simp

@[simp] theorem Ingress.unsupported_held (x : Ingress) (s : State) :
    (Ingress.unsupported x s).held = s.held := by
  simp [Ingress.unsupported]

@[simp] theorem Ingress.place_held (x : Ingress) (s : State) :
    (Ingress.place x s).held = s.held := by
  simp [Ingress.place]

@[simp] theorem holdOrPlace_held (s : State) (x : Ingress) :
    (State.holdOrPlace s x).held = s.held := by
  simp [State.holdOrPlace]

@[simp] theorem releaseEvac_held (s : State) :
    (State.releaseEvac s).held = s.held := by
  simp [State.releaseEvac]

@[simp] theorem Ingress.steps_held (x : Ingress) (s : State) :
    (Ingress.steps x s).held = s.held := by
  simp only [Ingress.steps]
  (repeat' split) <;> simp [*]

@[simp] theorem moveGranule_held (s : State) (e : Evac) (x : Extent) (t g : Nat) :
    (State.moveGranule s e x t g).held = s.held := by
  simp [State.moveGranule]

@[simp] theorem Ingress.config_held (x : Ingress) (s : State) :
    (Ingress.config x s).held = s.held := by
  simp only [Ingress.config]
  (repeat' split) <;> simp [*]

@[simp] theorem Ingress.message_held (x : Ingress) (s : State) :
    (Ingress.message x s).held = s.held := by
  simp [Ingress.message]

@[simp] theorem completionArrival_held (s : State) (p : Nat) (r : Req) :
    (State.completionArrival s p r).held = s.held := by
  unfold State.completionArrival
  (repeat' split) <;> simp

@[simp] theorem viral_held (s : State) (p : Nat) :
    (State.viral s p).held = s.held := by
  simp [State.viral]

@[simp] theorem headerParity_held (s : State) (p : Nat) (r : Req) :
    (State.headerParity s p r).held = s.held := by
  simp [State.headerParity]

@[simp] theorem flitCheck_held (s : State) (p : Nat) :
    (State.flitCheck s p).held = s.held := by
  simp only [State.flitCheck]
  (repeat' (first | (simp [*]; done) | split | (with_reducible refine (foldl_held _ (fun s a => ?_) _ _).trans ?_) | (rename_i h; have h' := held_of_eq h; simp at h'; simp [h']; done) | simp [*]))

@[simp] theorem requestIn_held (s : State) (q : Nat) (req : Req) :
    (State.requestIn s q req).held = s.held := by
  simp only [State.requestIn]
  (repeat' split) <;> simp [*]

theorem execEvacGranuleMove_onward (s : State) :
    ∀ s', (execEvacGranuleMove s) = .next s' → s.Onward s' := by
  intro s' h
  simp only [execEvacGranuleMove] at h
  (repeat' split at h) <;> (cases Host.Outcome.next.inj h; exact .of_held (by simp))

theorem execRequestArrival_onward (p : PortIx) (at_ : Nat) (req : Req) (s : State) :
    ∀ s', (execRequestArrival p at_ req s) = .next s' → s.Onward s' := by
  intro s' h
  simp only [execRequestArrival] at h
  (repeat' split at h) <;> (have e := Host.Outcome.next.inj h; subst e; rw [onward_iff]; simp)

end Sys2Proof.Machine
end

