-- ==== Sys2Proof/Laws/Gen.lean ====
section
/-!
SUPPORT. What the operations of Machine/Gen.lean do to the queue, the fuses and the time.
-/
namespace Sys2Proof.Machine

@[simp] theorem commitChecks_held (s : State) (g : KMap Nat) :
    (State.commitChecks s g).2.held = s.held := by
  simp only [State.commitChecks]
  (repeat' split) <;> simp [*]

@[simp] theorem dropDraft_held (s : State) :
    (State.dropDraft s).held = s.held := by
  simp [State.dropDraft]

@[simp] theorem commitRefused_held (s : State) (code detail : Nat) :
    (State.commitRefused s code detail).2.held = s.held := by
  simp [State.commitRefused]

@[simp] theorem ownGenCommit_held (sid : Nat) (s : State) :
    (ownGenCommit sid s).2.held = s.held := by
  have hc := commitChecks_held s s.gen.draft
  unfold ownGenCommit
  (repeat' split) <;> simp_all

@[simp] theorem rollbackNow_held (s : State) :
    (State.rollbackNow s).held = s.held := by
  simp [State.rollbackNow]

@[simp] theorem ownGenConfirm_held (s : State) :
    (ownGenConfirm s).2.held = s.held := by
  unfold ownGenConfirm
  (repeat' split) <;> simp

@[simp] theorem ownGenRollback_held (s : State) :
    (ownGenRollback s).2.held = s.held := by
  unfold ownGenRollback
  (repeat' split) <;> simp

@[simp] theorem ownDraftDiscard_held (sid : Nat) (s : State) :
    (ownDraftDiscard sid s).2.held = s.held := by
  unfold ownDraftDiscard
  (repeat' split) <;> simp

@[simp] theorem beforeSwitch_held (s : State) (new : KMap Nat) :
    (State.beforeSwitch s new).held = s.held := by
  simp [State.beforeSwitch]

@[simp] theorem noDepartures_held (s : State) (w : Nat) :
    (State.noDepartures s w).held = s.held := by
  simp [State.noDepartures]

@[simp] theorem switchWindow_held (s : State) (old : KMap Nat) (w : Nat) :
    (State.switchWindow s old w).held = s.held := by
  simp [State.switchWindow]

@[simp] theorem switchTags_held (s : State) (old : KMap Nat) (m : Nat) :
    (State.switchTags s old m).held = s.held := by
  simp [State.switchTags]

@[simp] theorem afterSwitch_held (s : State) (old : KMap Nat) :
    (State.afterSwitch s old).held = s.held := by
  unfold State.afterSwitch
  dsimp only
  have g : ∀ (c : Prop) [Decidable c] (a b : State), a.held = b.held → (if c then a else b).held = b.held := by
    intro c _ a b h
    split
    · exact h
    · rfl
  rw [updCtState_held, foldl_held _ (fun s a => by simp), foldl_held _ (fun s a => g _ _ _ (by simp)), foldl_held _ (fun s a => by simp),
    g _ _ _ (by simp), foldl_held _ (fun s a => g _ _ _ (by simp)), foldl_held _ (fun s a => g _ _ _ (by simp)),
    foldl_held _ (fun s a => g _ _ _ (by simp)), g _ _ _ (by simp), foldl_held _ (fun s a => by simp)]

@[simp] theorem switchTo_held (s : State) (new : KMap Nat) :
    (State.switchTo s new).held = s.held := by
  simp [State.switchTo]

@[simp] theorem publishCommit_held (s : State) :
    (State.publishCommit s).held = s.held := by
  simp [State.publishCommit]

@[simp] theorem publishRollback_held (s : State) :
    (State.publishRollback s).held = s.held := by
  simp [State.publishRollback]

theorem execGenCommit_onward (sess : SessRef) (v : Byte) (s : State) :
    ∀ s', (execGenCommit sess v s) = .next s' → s.Onward s' := by
  intro s' h
  simp only [execGenCommit] at h
  (repeat' split at h) <;> (cases Host.Outcome.next.inj h; exact .of_held (by simp))

theorem execGenConfirm_onward (sess : SessRef) (v : Byte) (s : State) :
    ∀ s', (execGenConfirm sess v s) = .next s' → s.Onward s' := by
  intro s' h
  simp only [execGenConfirm] at h
  (repeat' split at h) <;> (cases Host.Outcome.next.inj h; exact .of_held (by simp))

theorem execGenRollback_onward (sess : SessRef) (v : Byte) (s : State) :
    ∀ s', (execGenRollback sess v s) = .next s' → s.Onward s' := by
  intro s' h
  simp only [execGenRollback] at h
  (repeat' split at h) <;> (cases Host.Outcome.next.inj h; exact .of_held (by simp))

theorem execDraftDiscard_onward (sess : SessRef) (v : Byte) (s : State) :
    ∀ s', (execDraftDiscard sess v s) = .next s' → s.Onward s' := by
  intro s' h
  simp only [execDraftDiscard] at h
  (repeat' split at h) <;> (cases Host.Outcome.next.inj h; exact .of_held (by simp))

theorem execConfirmTimerExpiry_onward (s : State) :
    ∀ s', (execConfirmTimerExpiry s) = .next s' → s.Onward s' := by
  intro s' h
  simp only [execConfirmTimerExpiry] at h
  (repeat' split at h) <;> (have e := Host.Outcome.next.inj h; subst e; rw [onward_iff]; simp)

theorem execDraftIdleExpiry_onward (s : State) :
    ∀ s', (execDraftIdleExpiry s) = .next s' → s.Onward s' := by
  intro s' h
  simp only [execDraftIdleExpiry] at h
  (repeat' split at h) <;> (have e := Host.Outcome.next.inj h; subst e; rw [onward_iff]; simp)

theorem execGenerationPublish_onward (s : State) :
    ∀ s', (execGenerationPublish s) = .next s' → s.Onward s' := by
  intro s' h
  simp only [execGenerationPublish] at h
  (repeat' split at h) <;> (have e := Host.Outcome.next.inj h; subst e; rw [onward_iff]; simp)

theorem execGuardEpochPublish_onward (s : State) :
    ∀ s', (execGuardEpochPublish s) = .next s' → s.Onward s' := by
  intro s' h
  simp only [execGuardEpochPublish] at h
  (repeat' split at h) <;> (have e := Host.Outcome.next.inj h; subst e; rw [onward_iff]; simp)

theorem execDataPathImagesLoaded_onward (s : State) :
    ∀ s', (execDataPathImagesLoaded s) = .next s' → s.Onward s' := by
  intro s' h
  simp only [execDataPathImagesLoaded] at h
  (repeat' split at h) <;> (have e := Host.Outcome.next.inj h; subst e; rw [onward_iff]; repeat' (first | (simp [*]; done) | split | (with_reducible refine heldOnward_foldl _ (fun s a => ?_) _ _ _ ?_) | simp [*]))

end Sys2Proof.Machine
end

