-- ==== Sys2Proof/Laws/OdRead.lean ====
section
/-!
SUPPORT. What the operations of Machine/OdRead.lean do to the queue, the fuses and the time.
-/
namespace Sys2Proof.Machine

theorem onward_ite {c : Prop} [Decidable c] {s : State} {a b : OdAns × State} (ha : s.Onward a.2) (hb : s.Onward b.2) :
    s.Onward (if c then a else b).2 := by split <;> assumption

theorem held_ite2 {c : Prop} [Decidable c] {s : State} {a b : OdAns × State} (ha : a.2.held = s.held) (hb : b.2.held = s.held) :
    (if c then a else b).2.held = s.held := by split <;> assumption

@[simp] theorem afterRead_held (s : State) (r : OdRow) (key : Nat) :
    (State.afterRead s r key).held = s.held := by
  unfold State.afterRead
  (repeat' split) <;> simp

theorem odGet_held (s : State) (sid key : Nat) (v : List Byte × State) (h : s.odGet sid key = .inr v) : v.2.held = s.held := by
  unfold State.odGet at h
  split at h <;> cases h
  simp

@[simp] theorem ownFeatRequest_held (sid v : Nat) (s : State) :
    (ownFeatRequest sid v s).2.held = s.held := by
  simp [ownFeatRequest]

@[simp] theorem ownDraftView_held (sid v : Nat) (s : State) :
    (ownDraftView sid v s).2.held = s.held := by
  simp [ownDraftView]

@[simp] theorem ownNtfObject_held (k v : Nat) (s : State) :
    (ownNtfObject k v s).2.held = s.held := by
  simp only [ownNtfObject]
  (repeat' split) <;> simp [*]

@[simp] theorem ownEvtInj_held (n v : Nat) (s : State) :
    (ownEvtInj n v s).2.held = s.held := by
  simp [ownEvtInj]

@[simp] theorem recordBytes_held (s : State) (n : Nat) :
    (State.recordBytes s n).2.held = s.held := by
  simp [State.recordBytes]

@[simp] theorem ownSliceAny_held (v : Nat) (s : State) :
    (ownSliceAny v s).2.held = s.held := by
  unfold ownSliceAny
  (repeat' split) <;> simp

theorem ownLow_onward (sid key v : Nat) (d : List Byte) (s : State) : s.Onward (ownLow sid key v d s).2 := by
  unfold ownLow
  repeat' (with_reducible refine onward_ite ?_ ?_)
  all_goals first
    | exact ownLcAdvance_onward _ _ _
    | exact ownLcToken_onward _ _
    | exact ownLcScrap_onward _ _ _
    | exact ownVrootRevoke0_onward _
    | exact ownDevkeyGen_onward _
    | (refine State.Onward.of_held ?_; simp; done)

@[simp] theorem ownFabric_held (key v : Nat) (s : State) :
    (ownFabric key v s).2.held = s.held := by
  simp only [ownFabric]
  (repeat' split) <;> simp [*]

@[simp] theorem ownHigh_held (key v : Nat) (s : State) :
    (ownHigh key v s).2.held = s.held := by
  unfold ownHigh
  extract_lets ix sb
  clear_value ix sb
  repeat' (with_reducible refine held_ite2 ?_ ?_)
  all_goals first
    | (simp; done)
    | (split <;> simp)

theorem odOwn_onward (sid key : Nat) (d : List Byte) (s : State) : s.Onward (odOwn sid key d s).2 := by
  unfold odOwn
  repeat' split
  · exact ownLow_onward _ _ _ _ _
  · exact .of_held (by simp)
  · exact .of_held (by simp)

theorem odPut_onward (s : State) (sid key : Nat) (d : List Byte) : s.Onward (s.odPut sid key d).2 := by
  unfold State.odPut
  exact odWrite_onward _ _ _ _ _ _ (odOwn_onward _ _ _)

@[simp] theorem odAfter_held (s : State) (key : Nat) (a : OdAns) :
    (State.odAfter s key a).held = s.held := by
  simp [State.odAfter]

theorem execObjectWrite_onward (sess : SessRef) (index : BitVec 16) (sub : Byte) (data : List Byte) (s : State) :
    ∀ s', (execObjectWrite sess index sub data s) = .next s' → s.Onward s' := by
  intro t_ h_
  unfold execObjectWrite at h_
  dsimp only at h_
  split at h_ <;> (have e_ := Host.Outcome.next.inj h_; subst e_)
  · exact .refl _
  · exact .of_held (by simp)
  · rename_i u hu
    refine .trans (.of_held (sessionFor_held s _ u hu)) ?_
    exact .trans (odPut_onward u _ _ _) (.of_held ((odAfter_held _ _ _).trans (answerOd_held _ _ _)))

theorem execFeatRequest_onward (sess : SessRef) (v : Word64) (s : State) :
    ∀ s', (execFeatRequest sess v s) = .next s' → s.Onward s' := by
  intro s' h
  simp only [execFeatRequest] at h
  (repeat' split at h) <;> (cases Host.Outcome.next.inj h; exact .of_held (by simp))

end Sys2Proof.Machine
end

