-- ==== Sys2Proof/Laws/Tick.lean ====
section
/-!
SUPPORT. What the operations of Machine/Tick.lean do to the queue, the fuses and the time.
-/
namespace Sys2Proof.Machine

@[simp] theorem writeBackSector_getD_held (s : State) (k : Nat) : ((s.writeBackSector k).getD s).held = s.held := by
  cases h : s.writeBackSector k with
  | none => rfl
  | some t => exact writeBackSector_held _ _ _ h

theorem updCtState_onward (s u : State) (x : TimeSt) (h : s.Onward u) : s.Onward ({ u with tm := x } : State).updCtState :=
  h.trans (.of_held (by rw [updCtState_held]; rfl))

theorem passBoundary_onward (s : State) : s.Onward s.passBoundary := by
  unfold State.passBoundary
  exact updCtState_onward _ _ _ (advance_onward s _)

@[simp] theorem countTick_held (s : State) :
    (State.countTick s).held = s.held := by
  simp [State.countTick]

@[simp] theorem scrubEntry_held (s : State) (w line : Nat) :
    (State.scrubEntry s w line).held = s.held := by
  unfold State.scrubEntry
  dsimp only
  (repeat' split)
  all_goals first
    | (simp; done)
    | (have h1 := pushInternal_held _ _ _ _ _ ‹State.pushInternal _ _ _ _ = some _›; simp [h1]; done)

@[simp] theorem scrubDir_held (s : State) :
    (State.scrubDir s).held = s.held := by
  simp only [State.scrubDir]
  (repeat' (first | (simp [*]; done) | split | (with_reducible refine (foldl_held _ (fun s a => ?_) _ _).trans ?_) | (rename_i h; have h' := held_of_eq h; simp at h'; simp [h']; done) | simp [*]))

@[simp] theorem scrubTags_held (s : State) :
    (State.scrubTags s).held = s.held := by
  simp only [State.scrubTags]
  (repeat' (first | (simp [*]; done) | split | (with_reducible refine (foldl_held _ (fun s a => ?_) _ _).trans ?_) | (rename_i h; have h' := held_of_eq h; simp at h'; simp [h']; done) | simp [*]))

@[simp] theorem snapObject_held (s : State) (key : Nat) :
    (State.snapObject s key).held = s.held := by
  unfold State.snapObject
  (repeat' split) <;> simp

@[simp] theorem telemetry_held (s : State) :
    (State.telemetry s).held = s.held := by
  simp [State.telemetry]

@[simp] theorem tickTimers_held (s : State) :
    (State.tickTimers s).held = s.held := by
  simp [State.tickTimers]

@[simp] theorem tickItem_held (s : State) (k : Nat) :
    (State.tickItem s k).held = s.held := by
  unfold State.tickItem
  (repeat' split) <;> simp

@[simp] theorem publishItem_held (ready : State → Nat → Bool) (s : State) (k : Nat) :
    (State.publishItem ready s k).held = s.held := by
  simp [State.publishItem]

@[simp] theorem runItems_held (s : State) :
    (State.runItems s).held = s.held := by
  simp [State.runItems]

@[simp] theorem finishItems_held (s : State) :
    (State.finishItems s).held = s.held := by
  simp [State.finishItems]

@[simp] theorem stateCheck_held (s : State) (upset : Bool) :
    (State.stateCheck s upset).2.held = s.held := by
  simp [State.stateCheck]

@[simp] theorem tickOverrun_held (s : State) :
    (State.tickOverrun s).held = s.held := by
  simp [State.tickOverrun]

@[simp] theorem endSlow_held (s : State) :
    (State.endSlow s).held = s.held := by
  unfold State.endSlow
  (repeat' split) <;> simp

@[simp] theorem settleHeld_held (s : State) :
    (State.settleHeld s).held = s.held := by
  simp [State.settleHeld]

theorem execTickBoundary_onward (fault : TickFault) (s : State) :
    ∀ s', (execTickBoundary fault s) = .next s' → s.Onward s' := by
  intro t_ h_
  unfold execTickBoundary at h_
  split at h_
  · have e_ := Host.Outcome.next.inj h_; subst e_; exact .refl _
  · dsimp only at h_
    have h1 : s.Onward s.finishItems.countTick.passBoundary := .trans (.of_held (by simp)) (passBoundary_onward _)
    generalize s.finishItems.countTick.passBoundary = u at h_ h1
    have h2 : (u.endSlow.stateCheck fault.upset).2.held = u.held := by simp
    generalize u.endSlow.stateCheck fault.upset = r at h_ h2
    split at h_ <;> (have e_ := Host.Outcome.next.inj h_; subst e_)
    · exact h1.trans (.of_held (by simp [h2]))
    · refine h1.trans (.of_held ?_)
      simp [h2]

end Sys2Proof.Machine
end

