-- ==== Sys2Proof/Laws/Csr.lean ====
section
/-!
SUPPORT. What the operations of Machine/Csr.lean do to the queue, the fuses and the time.
-/
namespace Sys2Proof.Machine

@[simp] theorem laneWord_held (s : State) (l i : Nat) :
    (State.laneWord s l i).2.held = s.held := by
  simp only [State.laneWord]
  (repeat' split) <;> simp [*]

@[simp] theorem csrValue_held (s : State) (x0_ : CsrReg) :
    (State.csrValue s x0_).2.held = s.held := by
  unfold State.csrValue
  (repeat' split) <;> simp

@[simp] theorem diagPut_held (s : State) (sm d v : Nat) :
    (State.diagPut s sm d v).held = s.held := by
  simp [State.diagPut]

@[simp] theorem lanePut_held (s : State) (l i v : Nat) :
    (State.lanePut s l i v).held = s.held := by
  unfold State.lanePut
  (repeat' split) <;> simp

@[simp] theorem csrPut_held (s : State) (via : CsrVia) (v : Nat) (x0_ : CsrReg) :
    (State.csrPut s via v x0_).held = s.held := by
  unfold State.csrPut
  (repeat' split) <;> simp

@[simp] theorem csrBadAccess_held (s : State) (via : CsrVia) (die off : Nat) (write : Bool) :
    (State.csrBadAccess s via die off write).held = s.held := by
  simp [State.csrBadAccess]

@[simp] theorem csrGet_held (s : State) (via : CsrVia) (die off n : Nat) :
    (State.csrGet s via die off n).2.held = s.held := by
  unfold State.csrGet
  (repeat' split) <;> simp

@[simp] theorem csrSet_held (s : State) (via : CsrVia) (die off n v : Nat) :
    (State.csrSet s via die off n v).held = s.held := by
  simp [State.csrSet]

@[simp] theorem csrReturn_held (s : State) (via : CsrVia) (die off v : Nat) :
    (State.csrReturn s via die off v).held = s.held := by
  unfold State.csrReturn
  (repeat' split) <;> simp

theorem execRegisterRead_onward (via : CsrVia) (die : DieIx) (offset : Word32) (nbytes : Nat) (s : State) :
    ∀ s', (execRegisterRead via die offset nbytes s) = .next s' → s.Onward s' := by
  intro s' h
  simp only [execRegisterRead] at h
  (repeat' split at h) <;> (cases Host.Outcome.next.inj h; exact .of_held (by simp))

theorem execRegisterWrite_onward (via : CsrVia) (die : DieIx) (offset : Word32) (nbytes : Nat) (value : Word32) (s : State) :
    ∀ s', (execRegisterWrite via die offset nbytes value s) = .next s' → s.Onward s' := by
  intro s' h
  simp only [execRegisterWrite] at h
  (repeat' split at h) <;> (cases Host.Outcome.next.inj h; exact .of_held (by simp))

end Sys2Proof.Machine
end

