-- ==== Sys2Proof/Laws/Cores.lean ====
section
/-!
SUPPORT. What the operations of Machine/Cores.lean do to the queue, the fuses and the time.
-/
namespace Sys2Proof.Machine

@[simp] theorem coreFault_held (s : State) (c : Nat) (n : Needs) (a : Nat) (g : GFault) :
    (State.coreFault s c n a g).held = s.held := by
  simp [State.coreFault]

@[simp] theorem coreEcc_held (s : State) (c a : Nat) (reads : Bool) :
    (State.coreEcc s c a reads).held = s.held := by
  unfold State.coreEcc
  (repeat' split) <;> simp

@[simp] theorem ifUp_held (s : State) (f : State → State) (h_f : ∀ s_, (f s_).held = s_.held) :
    (State.ifUp s f).held = s.held := by
  simp [State.ifUp, *]

@[simp] theorem setRd_held (s : State) (c v : Nat) :
    (State.setRd s c v).held = s.held := by
  simp [State.setRd]

@[simp] theorem fabricLoad_held (s : State) (c a n tag : Nat) :
    (State.fabricLoad s c a n tag).held = s.held := by
  simp [State.fabricLoad]

@[simp] theorem bufRoom_held (s : State) (c : Nat) :
    (State.bufRoom s c).held = s.held := by
  unfold State.bufRoom
  (repeat' split) <;> simp

@[simp] theorem bufStore_held (s : State) (c a n data : Nat) (fabric : Bool) :
    (State.bufStore s c a n data fabric).held = s.held := by
  simp [State.bufStore]

@[simp] theorem coreStore_held (s : State) (c a n data : Nat) (fabric : Bool) :
    (State.coreStore s c a n data fabric).held = s.held := by
  simp [State.coreStore]

@[simp] theorem coreDevice_held (s : State) (c : CoreIx) (op : CoreOp) (die off n : Nat) :
    (State.coreDevice s c op die off n).held = s.held := by
  unfold State.coreDevice
  (repeat' split) <;> simp

@[simp] theorem corePerform_held (s : State) (c : CoreIx) (op : CoreOp) (a n : Nat) :
    (State.corePerform s c op a n).held = s.held := by
  unfold State.corePerform
  (repeat' split) <;> simp

@[simp] theorem coreCond_held (s : State) (c a n w off : Nat) (write : Bool) (data : Nat) :
    (State.coreCond s c a n w off write data).held = s.held := by
  simp [State.coreCond]

@[simp] theorem loadReserve_held (s : State) (c : CoreIx) (a n : Nat) :
    (State.loadReserve s c a n).held = s.held := by
  unfold State.loadReserve
  (repeat' split) <;> simp

@[simp] theorem condSram_held (s : State) (c a n data : Nat) :
    (State.condSram s c a n data).held = s.held := by
  simp [State.condSram]

@[simp] theorem storeCond_held (s : State) (c : CoreIx) (a n data : Nat) :
    (State.storeCond s c a n data).held = s.held := by
  unfold State.storeCond
  (repeat' split) <;> simp

theorem execCoreMemoryAccess_onward (c : CoreIx) (op : CoreOp) (addr : Word64) (nbytes : Fin 9) (s : State) :
    ∀ s', (execCoreMemoryAccess c op addr nbytes s) = .next s' → s.Onward s' := by
  intro s' h
  simp only [execCoreMemoryAccess] at h
  (repeat' split at h) <;> (cases Host.Outcome.next.inj h; exact .of_held (by simp))

theorem execLdres_onward (c : CoreIx) (addr : Word64) (eight : Bool) (s : State) :
    ∀ s', (execLdres c addr eight s) = .next s' → s.Onward s' := by
  intro s' h
  simp only [execLdres] at h
  (repeat' split at h) <;> (cases Host.Outcome.next.inj h; exact .of_held (by simp))

theorem execStcond_onward (c : CoreIx) (addr : Word64) (eight : Bool) (data : Word64) (s : State) :
    ∀ s', (execStcond c addr eight data s) = .next s' → s.Onward s' := by
  intro s' h
  simp only [execStcond] at h
  (repeat' split at h) <;> (cases Host.Outcome.next.inj h; exact .of_held (by simp))

end Sys2Proof.Machine
end

