-- ==== Sys2Proof/Laws/Can.lean ====
section
/-!
SUPPORT. What the operations of Machine/Can.lean do to the queue, the fuses and the time.
-/
namespace Sys2Proof.Machine

@[simp] theorem canAbort_held (s : State) (dst txn key : Nat) (a : OdAns) :
    (State.canAbort s dst txn key a).held = s.held := by
  simp [State.canAbort]

@[simp] theorem contest_held (s : State) :
    (State.contest s).held = s.held := by
  simp [State.contest]

@[simp] theorem dropAddress_held (s : State) :
    (State.dropAddress s).held = s.held := by
  simp [State.dropAddress]

@[simp] theorem frameSeen_held (s : State) (src : Nat) :
    (State.frameSeen s src).held = s.held := by
  simp [State.frameSeen]

@[simp] theorem claimSeen_held (s : State) (src serial : Nat) :
    (State.claimSeen s src serial).held = s.held := by
  simp [State.claimSeen]

theorem withPeer_onward (s : State) (src txn key : Nat) (f : State → State) (h : ∀ s : State, s.Onward (f s)) :
    s.Onward (s.withPeer src txn key f) := by
  unfold State.withPeer
  dsimp only
  split
  · exact .of_held (by simp)
  · exact .of_held (by simp)
  · rename_i t ht
    exact .trans (.of_held (by simp [sessionFor_held _ _ t ht])) (h t)

@[simp] theorem canRead_held (s : State) (src txn key : Nat) : (s.canRead src txn key).held = s.held := by
  unfold State.canRead
  (repeat' split)
  · simp
  · simp
  · simp
  · rename_i h
    simp [odGet_held _ _ _ _ h]

theorem canWrite_onward (s : State) (src txn key : Nat) (d : List Byte) : s.Onward (s.canWrite src txn key d) := by
  unfold State.canWrite
  refine .trans (odPut_onward s (sidCan src) key d) (.of_held ?_)
  simp only [odAfter_held]
  split <;> simp

@[simp] theorem setSeg_held (s : State) (src : Nat) (x : Option Seg) :
    (State.setSeg s src x).held = s.held := by
  simp [State.setSeg]

@[simp] theorem segAbort_held (s : State) (src : Nat) (x : Seg) (code : Nat) :
    (State.segAbort s src x code).held = s.held := by
  simp [State.segAbort]

@[simp] theorem sendBlock_held (s : State) (src txn : Nat) (d : List Byte) (i j : Nat) :
    (State.sendBlock s src txn d i j).held = s.held := by
  simp [State.sendBlock]

@[simp] theorem startBlock_held (s : State) (src : Nat) (x : Seg) (d : List Byte) :
    (State.startBlock s src x d).held = s.held := by
  simp [State.startBlock]

@[simp] theorem segReply_held (s : State) (src txn key dir size crc : Nat) :
    (State.segReply s src txn key dir size crc).held = s.held := by
  simp [State.segReply]

@[simp] theorem segRead_held (s : State) (src txn key : Nat) : (s.segRead src txn key).held = s.held := by
  unfold State.segRead
  split
  · simp
  · rename_i h
    simp [odGet_held _ _ _ _ h]

@[simp] theorem segWrite_held (s : State) (src txn key size crc : Nat) :
    (State.segWrite s src txn key size crc).held = s.held := by
  unfold State.segWrite
  (repeat' split) <;> simp

@[simp] theorem segAck_held (s : State) (src txn seq status : Nat) :
    (State.segAck s src txn seq status).held = s.held := by
  simp [State.segAck]

theorem segDone_onward (s : State) (src : Nat) (x : Seg) : s.Onward (s.segDone src x) := by
  unfold State.segDone
  split
  · exact .of_held (by simp)
  · split
    · exact .of_held (by simp)
    · refine .trans (.of_held (t := s.setSeg src none) (by simp)) ?_
      refine .trans (odPut_onward _ (sidCan src) x.key x.data) (.of_held ?_)
      simp only [odAfter_held]
      split <;> simp

theorem segTake_onward (s : State) (src : Nat) (x : Seg) (seq : Nat) (last : Bool) (d : List Byte) :
    s.Onward (s.segTake src x seq last d) := by
  unfold State.segTake
  dsimp only
  repeat' split
  all_goals first
    | exact segDone_onward _ _ _
    | (refine State.Onward.of_held ?_; simp; done)

@[simp] theorem segAcked_held (s : State) (src : Nat) (x : Seg) (seq status : Nat) :
    (State.segAcked s src x seq status).held = s.held := by
  simp [State.segAcked]

theorem execAddrClaim_onward (src : BitVec 7) (serial : Word64) (s : State) :
    ∀ s', (execAddrClaim src serial s) = .next s' → s.Onward s' := by
  intro s' h
  simp only [execAddrClaim] at h
  (repeat' split at h) <;> (cases Host.Outcome.next.inj h; exact .of_held (by simp))

theorem execAddrAssign_onward (data : List Byte) (s : State) :
    ∀ s', (execAddrAssign data s) = .next s' → s.Onward s' := by
  intro s' h
  simp only [execAddrAssign] at h
  (repeat' split at h) <;> (cases Host.Outcome.next.inj h; exact .of_held (by simp))

theorem execAddrClaimTimerExpiry_onward (s : State) :
    ∀ s', (execAddrClaimTimerExpiry s) = .next s' → s.Onward s' := by
  intro s' h
  simp only [execAddrClaimTimerExpiry] at h
  (repeat' split at h) <;> (have e := Host.Outcome.next.inj h; subst e; rw [onward_iff]; simp)

theorem execAddrRetryExpiry_onward (s : State) :
    ∀ s', (execAddrRetryExpiry s) = .next s' → s.Onward s' := by
  intro s' h
  simp only [execAddrRetryExpiry] at h
  (repeat' split at h) <;> (have e := Host.Outcome.next.inj h; subst e; rw [onward_iff]; simp)

theorem execCanErrorStateChange_onward (state : Fin 3) (tec rec_ : Byte) (s : State) :
    ∀ s', (execCanErrorStateChange state tec rec_ s) = .next s' → s.Onward s' := by
  intro s' h
  simp only [execCanErrorStateChange] at h
  (repeat' split at h) <;> (cases Host.Outcome.next.inj h; exact .of_held (by simp))

theorem execIllegalFuncFrame_onward (classical : Bool) (s : State) :
    ∀ s', (execIllegalFuncFrame classical s) = .next s' → s.Onward s' := by
  intro s' h
  simp only [execIllegalFuncFrame] at h
  (repeat' split at h) <;> (cases Host.Outcome.next.inj h; exact .of_held (by simp))

theorem execReadReq_onward (src : BitVec 7) (txn : BitVec 6) (data : List Byte) (s : State) :
    ∀ s', (execReadReq src txn data s) = .next s' → s.Onward s' := by
  intro t_ h_
  have e_ := Host.Outcome.next.inj h_
  subst e_
  refine withPeer_onward _ _ _ _ _ (fun u => ?_)
  try dsimp only
  repeat' split
  all_goals first
    | exact canWrite_onward _ _ _ _ _
    | exact segTake_onward _ _ _ _ _ _
    | (refine State.Onward.of_held ?_; simp; done)

theorem execWriteReq_onward (src : BitVec 7) (txn : BitVec 6) (data : List Byte) (s : State) :
    ∀ s', (execWriteReq src txn data s) = .next s' → s.Onward s' := by
  intro t_ h_
  have e_ := Host.Outcome.next.inj h_
  subst e_
  refine withPeer_onward _ _ _ _ _ (fun u => ?_)
  try dsimp only
  repeat' split
  all_goals first
    | exact canWrite_onward _ _ _ _ _
    | exact segTake_onward _ _ _ _ _ _
    | (refine State.Onward.of_held ?_; simp; done)

theorem execSegInit_onward (src : BitVec 7) (txn : BitVec 6) (data : List Byte) (s : State) :
    ∀ s', (execSegInit src txn data s) = .next s' → s.Onward s' := by
  intro t_ h_
  have e_ := Host.Outcome.next.inj h_
  subst e_
  refine withPeer_onward _ _ _ _ _ (fun u => ?_)
  try dsimp only
  repeat' split
  all_goals first
    | exact canWrite_onward _ _ _ _ _
    | exact segTake_onward _ _ _ _ _ _
    | (refine State.Onward.of_held ?_; simp; done)

theorem execSegData_onward (src : BitVec 7) (txn : BitVec 6) (data : List Byte) (s : State) :
    ∀ s', (execSegData src txn data s) = .next s' → s.Onward s' := by
  intro t_ h_
  have e_ := Host.Outcome.next.inj h_
  subst e_
  refine withPeer_onward _ _ _ _ _ (fun u => ?_)
  try dsimp only
  repeat' split
  all_goals first
    | exact canWrite_onward _ _ _ _ _
    | exact segTake_onward _ _ _ _ _ _
    | (refine State.Onward.of_held ?_; simp; done)

theorem execSegAck_onward (src : BitVec 7) (txn : BitVec 6) (data : List Byte) (s : State) :
    ∀ s', (execSegAck src txn data s) = .next s' → s.Onward s' := by
  intro t_ h_
  have e_ := Host.Outcome.next.inj h_
  subst e_
  refine withPeer_onward _ _ _ _ _ (fun u => ?_)
  try dsimp only
  repeat' split
  all_goals first
    | exact canWrite_onward _ _ _ _ _
    | exact segTake_onward _ _ _ _ _ _
    | (refine State.Onward.of_held ?_; simp; done)

theorem execSegAckTimerExpiry_onward (src : BitVec 7) (s : State) :
    ∀ s', (execSegAckTimerExpiry src s) = .next s' → s.Onward s' := by
  intro s' h
  simp only [execSegAckTimerExpiry] at h
  (repeat' split at h) <;> (have e := Host.Outcome.next.inj h; subst e; rw [onward_iff]; simp)

theorem execSegTimeout_onward (src : BitVec 7) (s : State) :
    ∀ s', (execSegTimeout src s) = .next s' → s.Onward s' := by
  intro s' h
  simp only [execSegTimeout] at h
  (repeat' split at h) <;> (have e := Host.Outcome.next.inj h; subst e; rw [onward_iff]; simp)

theorem execAbortFrame_onward (src : BitVec 7) (txn : BitVec 6) (data : List Byte) (s : State) :
    ∀ s', (execAbortFrame src txn data s) = .next s' → s.Onward s' := by
  intro t_ h_
  have e_ := Host.Outcome.next.inj h_
  subst e_
  refine withPeer_onward _ _ _ _ _ (fun u => ?_)
  try dsimp only
  repeat' split
  all_goals first
    | exact canWrite_onward _ _ _ _ _
    | exact segTake_onward _ _ _ _ _ _
    | (refine State.Onward.of_held ?_; simp; done)

theorem execNotifySample_onward (k : Fin 32) (s : State) :
    ∀ s', (execNotifySample k s) = .next s' → s.Onward s' := by
  intro s' h
  simp only [execNotifySample] at h
  (repeat' split at h) <;> (cases Host.Outcome.next.inj h; exact .of_held (by simp))

theorem execSessionIdleExpiry_onward (sess : SessRef) (s : State) :
    ∀ s', (execSessionIdleExpiry sess s) = .next s' → s.Onward s' := by
  intro s' h
  simp only [execSessionIdleExpiry] at h
  (repeat' split at h) <;> (have e := Host.Outcome.next.inj h; subst e; rw [onward_iff]; simp)

end Sys2Proof.Machine
end

