-- ==== Sys2Proof/Laws/Mailbox.lean ====
section
/-!
SUPPORT. What the operations of Machine/Mailbox.lean do to the queue, the fuses and the time.
-/
namespace Sys2Proof.Machine

@[simp] theorem mbox_held (s : State) (h rc : Nat) (out : List Nat) :
    (State.mbox s h rc out).held = s.held := by
  simp [State.mbox]

@[simp] theorem onMbox_held (s : State) (h : Nat) (f : State → State) (h_f : ∀ s_, (f s_).held = s_.held) :
    (State.onMbox s h f).held = s.held := by
  simp [State.onMbox, *]

@[simp] theorem onFm_held (s : State) (h : Nat) (f : State → State) (h_f : ∀ s_, (f s_).held = s_.held) :
    (State.onFm s h f).held = s.held := by
  simp [State.onFm, *]

@[simp] theorem odAnswer_held (s : State) (h : Nat) (a : OdAns) (size : Nat) (d : List Byte) :
    (State.odAnswer s h a size d).held = s.held := by
  simp [State.odAnswer]

@[simp] theorem odReadPart_held (s : State) (sid key off len : Nat) : (s.odReadPart sid key off len).2.2.2.held = s.held := by
  unfold State.odReadPart
  split
  · rfl
  · split
    · rfl
    · split
      · rfl
      · rename_i h
        simp [odGet_held _ _ _ _ h]

theorem odAccess_onward (s : State) (h : Nat) (d : List Byte) : s.Onward (s.odAccess h d) := by
  unfold State.odAccess
  extract_lets sid op key off len r r2
  have hr : r.2.2.2.held = s.held := by simp [r]
  clear_value op key off len r
  repeat' split
  all_goals first
    | (refine State.Onward.of_held ?_; simp [hr]; done)
    | exact .trans (odPut_onward s sid key (d.drop 16)) (.of_held (by simp [r2]))

@[simp] theorem cardAsk_held (s : State) (h p : Nat) (args : List Nat) :
    (State.cardAsk s h p args).held = s.held := by
  simp [State.cardAsk]

@[simp] theorem fmCommand_held (s : State) (h key v : Nat) (own : State → OdAns × State) (h_own : ∀ s_, (own s_).2.held = s_.held) :
    (State.fmCommand s h key v own).held = s.held := by
  simp [State.fmCommand, *]

@[simp] theorem fmBindCmd_held (c : Nat) (s : State) :
    (fmBindCmd c s).2.held = s.held := by
  unfold fmBindCmd
  (repeat' split) <;> simp

@[simp] theorem ldsSet_held (s : State) (p : Nat) :
    (State.ldsSet s p).held = s.held := by
  simp [State.ldsSet]

theorem execIdentify_onward (h : HostIx) (s : State) :
    ∀ s', (execIdentify h s) = .next s' → s.Onward s' := by
  intro s' h
  simp only [execIdentify] at h
  (repeat' split at h) <;> (cases Host.Outcome.next.inj h; exact .of_held (by simp))

theorem execGetResponseMessageLimit_onward (h : HostIx) (s : State) :
    ∀ s', (execGetResponseMessageLimit h s) = .next s' → s.Onward s' := by
  intro s' h
  simp only [execGetResponseMessageLimit] at h
  (repeat' split at h) <;> (cases Host.Outcome.next.inj h; exact .of_held (by simp))

theorem execSetResponseMessageLimit_onward (h : HostIx) (limit : Byte) (s : State) :
    ∀ s', (execSetResponseMessageLimit h limit s) = .next s' → s.Onward s' := by
  intro s' h
  simp only [execSetResponseMessageLimit] at h
  (repeat' split at h) <;> (cases Host.Outcome.next.inj h; exact .of_held (by simp))

theorem execGetSupportedLogs_onward (h : HostIx) (s : State) :
    ∀ s', (execGetSupportedLogs h s) = .next s' → s.Onward s' := by
  intro s' h
  simp only [execGetSupportedLogs] at h
  (repeat' split at h) <;> (cases Host.Outcome.next.inj h; exact .of_held (by simp))

theorem execGetLog_onward (h : HostIx) (log : BitVec 128) (offset : Nat) (length : Nat) (s : State) :
    ∀ s', (execGetLog h log offset length s) = .next s' → s.Onward s' := by
  intro s' h
  simp only [execGetLog] at h
  (repeat' split at h) <;> (cases Host.Outcome.next.inj h; exact .of_held (by simp))

theorem execMailboxUnsupportedCommand_onward (h : HostIx) (_opcode : BitVec 16) (s : State) :
    ∀ s', (execMailboxUnsupportedCommand h _opcode s) = .next s' → s.Onward s' := by
  intro s' h
  simp only [execMailboxUnsupportedCommand] at h
  (repeat' split at h) <;> (cases Host.Outcome.next.inj h; exact .of_held (by simp))

theorem execOdAccessRead_onward (h : HostIx) (input : List Byte) (s : State) :
    ∀ s', (execOdAccessRead h input s) = .next s' → s.Onward s' := by
  intro t_ h_
  have e_ := Host.Outcome.next.inj h_
  subst e_
  unfold State.onMbox
  split
  · exact .trans (.of_held (by simp)) (odAccess_onward _ _ _)
  · exact .refl _

theorem execOdAccessWrite_onward (h : HostIx) (input : List Byte) (s : State) :
    ∀ s', (execOdAccessWrite h input s) = .next s' → s.Onward s' := by
  intro t_ h_
  have e_ := Host.Outcome.next.inj h_
  subst e_
  unfold State.onMbox
  split
  · exact .trans (.of_held (by simp)) (odAccess_onward _ _ _)
  · exact .refl _

theorem execIdentifySwitchDevice_onward (h : HostIx) (s : State) :
    ∀ s', (execIdentifySwitchDevice h s) = .next s' → s.Onward s' := by
  intro s' h
  simp only [execIdentifySwitchDevice] at h
  (repeat' split at h) <;> (cases Host.Outcome.next.inj h; exact .of_held (by simp))

theorem execGetPhysicalPortState_onward (h : HostIx) (p : PortIx) (s : State) :
    ∀ s', (execGetPhysicalPortState h p s) = .next s' → s.Onward s' := by
  intro s' h
  simp only [execGetPhysicalPortState] at h
  (repeat' split at h) <;> (cases Host.Outcome.next.inj h; exact .of_held (by simp))

theorem execPhysicalPortControl_onward (h : HostIx) (p : PortIx) (op : Byte) (s : State) :
    ∀ s', (execPhysicalPortControl h p op s) = .next s' → s.Onward s' := by
  intro s' h
  simp only [execPhysicalPortControl] at h
  (repeat' split at h) <;> (cases Host.Outcome.next.inj h; exact .of_held (by simp))

theorem execSendPpbCxlIoConfigRequest_onward (h : HostIx) (p : PortIx) (reg : BitVec 12) (write : Bool) (data : Word32) (s : State) :
    ∀ s', (execSendPpbCxlIoConfigRequest h p reg write data s) = .next s' → s.Onward s' := by
  intro s' h
  simp only [execSendPpbCxlIoConfigRequest] at h
  (repeat' split at h) <;> (cases Host.Outcome.next.inj h; exact .of_held (by simp))

theorem execGetVirtualCxlSwitchInfo_onward (h : HostIx) (n : HostIx) (s : State) :
    ∀ s', (execGetVirtualCxlSwitchInfo h n s) = .next s' → s.Onward s' := by
  intro s' h
  simp only [execGetVirtualCxlSwitchInfo] at h
  (repeat' split at h) <;> (cases Host.Outcome.next.inj h; exact .of_held (by simp))

theorem execBindVppb_onward (h : HostIx) (cmd : BitVec 64) (s : State) :
    ∀ s', (execBindVppb h cmd s) = .next s' → s.Onward s' := by
  intro s' h
  simp only [execBindVppb] at h
  (repeat' split at h) <;> (cases Host.Outcome.next.inj h; exact .of_held (by simp))

theorem execUnbindVppb_onward (h : HostIx) (cmd : BitVec 64) (s : State) :
    ∀ s', (execUnbindVppb h cmd s) = .next s' → s.Onward s' := by
  intro s' h
  simp only [execUnbindVppb] at h
  (repeat' split at h) <;> (cases Host.Outcome.next.inj h; exact .of_held (by simp))

theorem execGenerateAerEvent_onward (h : HostIx) (n : HostIx) (v : Fin 49) (error : Word32) (s : State) :
    ∀ s', (execGenerateAerEvent h n v error s) = .next s' → s.Onward s' := by
  intro s' h
  simp only [execGenerateAerEvent] at h
  (repeat' split at h) <;> (cases Host.Outcome.next.inj h; exact .of_held (by simp))

theorem execTunnelManagementCommand_onward (h : HostIx) (p : PortIx) (payload : List Byte) (s : State) :
    ∀ s', (execTunnelManagementCommand h p payload s) = .next s' → s.Onward s' := by
  intro s' h
  simp only [execTunnelManagementCommand] at h
  (repeat' split at h) <;> (cases Host.Outcome.next.inj h; exact .of_held (by simp))

theorem execGetDcdInfo_onward (h : HostIx) (s : State) :
    ∀ s', (execGetDcdInfo h s) = .next s' → s.Onward s' := by
  intro s' h
  simp only [execGetDcdInfo] at h
  (repeat' split at h) <;> (cases Host.Outcome.next.inj h; exact .of_held (by simp))

theorem execGetHostDcRegionConfiguration_onward (h : HostIx) (n : HostIx) (s : State) :
    ∀ s', (execGetHostDcRegionConfiguration h n s) = .next s' → s.Onward s' := by
  intro s' h
  simp only [execGetHostDcRegionConfiguration] at h
  (repeat' split at h) <;> (cases Host.Outcome.next.inj h; exact .of_held (by simp))

theorem execGetDcRegionExtentLists_onward (h : HostIx) (n : HostIx) (s : State) :
    ∀ s', (execGetDcRegionExtentLists h n s) = .next s' → s.Onward s' := by
  intro s' h
  simp only [execGetDcRegionExtentLists] at h
  (repeat' split at h) <;> (cases Host.Outcome.next.inj h; exact .of_held (by simp))

theorem execInitiateDynamicCapacityAdd_onward (h : HostIx) (cmd : BitVec 128) (s : State) :
    ∀ s', (execInitiateDynamicCapacityAdd h cmd s) = .next s' → s.Onward s' := by
  intro s' h
  simp only [execInitiateDynamicCapacityAdd] at h
  (repeat' split at h) <;> (cases Host.Outcome.next.inj h; exact .of_held (by simp))

theorem execInitiateDynamicCapacityRelease_onward (h : HostIx) (cmd : BitVec 128) (s : State) :
    ∀ s', (execInitiateDynamicCapacityRelease h cmd s) = .next s' → s.Onward s' := by
  intro s' h
  simp only [execInitiateDynamicCapacityRelease] at h
  (repeat' split at h) <;> (cases Host.Outcome.next.inj h; exact .of_held (by simp))

theorem execSetDcRegionConfiguration_onward (h : HostIx) (s : State) :
    ∀ s', (execSetDcRegionConfiguration h s) = .next s' → s.Onward s' := by
  intro s' h
  simp only [execSetDcRegionConfiguration] at h
  (repeat' split at h) <;> (cases Host.Outcome.next.inj h; exact .of_held (by simp))

end Sys2Proof.Machine
end

