-- ==== Sys2Proof/Laws/Service.lean ====
section
/-!
SUPPORT. What the operations of Machine/Service.lean do to the queue, the fuses and the time.
-/
namespace Sys2Proof.Machine

@[simp] theorem svcSend_held (s : State) (session seq op status : Nat) (payload : List Nat) :
    (State.svcSend s session seq op status payload).held = s.held := by
  simp [State.svcSend]

@[simp] theorem svcAnswer_held (s : State) (session seq op status : Nat) (payload : List Nat) :
    (State.svcAnswer s session seq op status payload).held = s.held := by
  simp [State.svcAnswer]

@[simp] theorem svcDrop_held (s : State) :
    (State.svcDrop s).held = s.held := by
  simp [State.svcDrop]

@[simp] theorem svcRequest_held (s : State) (f : SvcFrame) (op : Nat) (inRom ok : Bool) (act : State → State) (h_act : ∀ s_, (act s_).held = s_.held) :
    (State.svcRequest s f op inRom ok act).held = s.held := by
  simp only [State.svcRequest]
  (repeat' split) <;> simp [*]

@[simp] theorem svcOutside_held (s : State) (f : SvcFrame) (op : Nat) (act : State → State) (h_act : ∀ s_, (act s_).held = s_.held) :
    (State.svcOutside s f op act).held = s.held := by
  simp [State.svcOutside, *]

@[simp] theorem setBlob_held (s : State) (session : Nat) (b : Option Blob) :
    (State.setBlob s session b).held = s.held := by
  simp [State.setBlob]

@[simp] theorem dropBlob_held (s : State) (session : Nat) :
    (State.dropBlob s session).held = s.held := by
  simp [State.dropBlob]

@[simp] theorem blobRefuse_held (s : State) (session : Nat) (b : Blob) (reason : Nat) :
    (State.blobRefuse s session b reason).held = s.held := by
  simp [State.blobRefuse]

@[simp] theorem imageArrived_held (s : State) (b : Blob) (old : Nat) :
    (State.imageArrived s b old).2.held = s.held := by
  simp only [State.imageArrived]
  (repeat' split) <;> simp [*]

@[simp] theorem romStart_held (s : State) :
    (State.romStart s).held = s.held := by
  simp [State.romStart]

@[simp] theorem endImage_held (s : State) (session seq : Nat) (b : Blob) :
    (State.endImage s session seq b).held = s.held := by
  simp [State.endImage]

theorem endMessage_onward (s : State) (session seq : Nat) (b : Blob) : s.Onward (s.endMessage session seq b) := by
  unfold State.endMessage
  extract_lets u r v
  have hu : u.held = s.held := by simp [u]
  have hr : u.Onward r.2 := odPut_onward u _ _ _
  have hv : v.held = r.2.held := by simp only [v]; split <;> simp
  clear_value u r v
  exact .trans (.of_held hu) (hr.trans (.of_held (by simp [hv])))

theorem svcRequest_onward (s : State) (f : SvcFrame) (op : Nat) (inRom ok : Bool) (act : State → State)
    (h : ∀ s : State, s.Onward (act s)) : s.Onward (s.svcRequest f op inRom ok act) := by
  unfold State.svcRequest
  dsimp only
  repeat' split
  all_goals first
    | (with_reducible exact .refl _)
    | exact .trans (.of_held (by simp)) (h _)
    | exact .of_held (by simp)

theorem execDiscover_onward (f : SvcFrame) (s : State) :
    ∀ s', (execDiscover f s) = .next s' → s.Onward s' := by
  intro s' h
  simp only [execDiscover] at h
  (repeat' split at h) <;> (cases Host.Outcome.next.inj h; exact .of_held (by simp))

theorem execOpenSession_onward (f : SvcFrame) (s : State) :
    ∀ s', (execOpenSession f s) = .next s' → s.Onward s' := by
  intro s' h
  simp only [execOpenSession] at h
  (repeat' split at h) <;> (cases Host.Outcome.next.inj h; exact .of_held (by simp))

theorem execCloseSession_onward (h : SvcHead) (payload : List Byte) (s : State) :
    ∀ s', (execCloseSession h payload s) = .next s' → s.Onward s' := by
  intro s' h
  simp only [execCloseSession] at h
  (repeat' split at h) <;> (cases Host.Outcome.next.inj h; exact .of_held (by simp))

theorem execOdRead_onward (h : SvcHead) (index : BitVec 16) (sub rsv : Byte) (offset length : Word32) (s : State) :
    ∀ s', (execOdRead h index sub rsv offset length s) = .next s' → s.Onward s' := by
  intro s' h
  simp only [execOdRead] at h
  (repeat' split at h) <;> (cases Host.Outcome.next.inj h; exact .of_held (by simp))

theorem execOdWrite_onward (h : SvcHead) (index : BitVec 16) (sub rsv : Byte) (offset : Word32) (rest : List Byte) (s : State) :
    ∀ s', (execOdWrite h index sub rsv offset rest s) = .next s' → s.Onward s' := by
  intro t_ h_
  have e_ := Host.Outcome.next.inj h_
  subst e_
  refine svcRequest_onward _ _ _ _ _ _ (fun u => ?_)
  dsimp only
  split
  · exact .of_held (by simp)
  · exact .trans (odPut_onward u _ _ _) (.of_held ((odAfter_held _ _ _).trans (svcAnswer_held _ _ _ _ _ _)))

theorem execCsrRead_onward (h : SvcHead) (die : Byte) (rsv : BitVec 24) (offset : Word32) (s : State) :
    ∀ s', (execCsrRead h die rsv offset s) = .next s' → s.Onward s' := by
  intro s' h
  simp only [execCsrRead] at h
  (repeat' split at h) <;> (cases Host.Outcome.next.inj h; exact .of_held (by simp))

theorem execCsrWrite_onward (h : SvcHead) (die : Byte) (rsv : BitVec 24) (offset value : Word32) (s : State) :
    ∀ s', (execCsrWrite h die rsv offset value s) = .next s' → s.Onward s' := by
  intro s' h
  simp only [execCsrWrite] at h
  (repeat' split at h) <;> (cases Host.Outcome.next.inj h; exact .of_held (by simp))

theorem execServicePortBadOp_onward (h : SvcHead) (op : Byte) (payload : List Byte) (s : State) :
    ∀ s', (execServicePortBadOp h op payload s) = .next s' → s.Onward s' := by
  intro s' h
  simp only [execServicePortBadOp] at h
  (repeat' split at h) <;> (cases Host.Outcome.next.inj h; exact .of_held (by simp))

theorem execBlobBegin_onward (h : SvcHead) (kind : Byte) (rsv : BitVec 24) (total crc : Word32) (s : State) :
    ∀ s', (execBlobBegin h kind rsv total crc s) = .next s' → s.Onward s' := by
  intro s' h
  simp only [execBlobBegin] at h
  (repeat' split at h) <;> (cases Host.Outcome.next.inj h; exact .of_held (by simp))

theorem execBlobData_onward (h : SvcHead) (offset len : Word32) (bytes : List Byte) (s : State) :
    ∀ s', (execBlobData h offset len bytes s) = .next s' → s.Onward s' := by
  intro t_ h_
  have e_ := Host.Outcome.next.inj h_
  subst e_
  refine svcRequest_onward _ _ _ _ _ _ (fun u => .of_held ?_)
  dsimp only
  repeat' split
  all_goals first | (simp; done) | (simp; split <;> simp)

theorem execBlobEnd_onward (h : SvcHead) (payload : List Byte) (s : State) :
    ∀ s', (execBlobEnd h payload s) = .next s' → s.Onward s' := by
  intro t_ h_
  have e_ := Host.Outcome.next.inj h_
  subst e_
  refine svcRequest_onward _ _ _ _ _ _ (fun u => ?_)
  try dsimp only
  repeat' split
  all_goals first | exact endMessage_onward _ _ _ _ | (refine State.Onward.of_held ?_; simp; done)

theorem execBlobStatus_onward (h : SvcHead) (payload : List Byte) (s : State) :
    ∀ s', (execBlobStatus h payload s) = .next s' → s.Onward s' := by
  intro s' h
  simp only [execBlobStatus] at h
  (repeat' split at h) <;> (cases Host.Outcome.next.inj h; exact .of_held (by simp))

theorem execBlobAbort_onward (h : SvcHead) (payload : List Byte) (s : State) :
    ∀ s', (execBlobAbort h payload s) = .next s' → s.Onward s' := by
  intro s' h
  simp only [execBlobAbort] at h
  (repeat' split at h) <;> (cases Host.Outcome.next.inj h; exact .of_held (by simp))

theorem execBlobIdleExpiry_onward (sess : SessRef) (s : State) :
    ∀ s', (execBlobIdleExpiry sess s) = .next s' → s.Onward s' := by
  intro s' h
  simp only [execBlobIdleExpiry] at h
  (repeat' split at h) <;> (have e := Host.Outcome.next.inj h; subst e; rw [onward_iff]; simp)

end Sys2Proof.Machine
end

