-- ==== Sys2Proof/Laws/Onward.lean ====
section
/-!
SUPPORT. What every command and every step does to the queue, the fuses and the time.
-/
namespace Sys2Proof.Machine

/-- Every command leaves the queue, gains fuses at most, and does not turn time back. -/
theorem exec_onward (i : Instr) (s s' : State) (hx : exec i s = .next s') : s.Onward s' := by
  cases i with
  | tickBoundary fault => exact execTickBoundary_onward fault s s' hx
  | requalifyCheck n => exact execRequalifyCheck_onward n s s' hx
  | generationPublish => exact execGenerationPublish_onward s s' hx
  | guardEpochPublish => exact execGuardEpochPublish_onward s s' hx
  | ref100Loss => exact execRef100Loss_onward s s' hx
  | ref100Return => exact execRef100Return_onward s s' hx
  | requestArrival p at_ req => exact execRequestArrival_onward p at_ req s s' hx
  | tileForwardToLanding ix => exact execTileForwardToLanding_onward ix s s' hx
  | cardingMatchSlot extra => exact execCardingMatchSlot_onward extra s s' hx
  | fullingStage1 => exact execFullingStage1_onward s s' hx
  | fullingStage2 => exact execFullingStage2_onward s s' hx
  | startDrainToCarding => exact execStartDrainToCarding_onward s s' hx
  | cardingStart => exact execCardingStart_onward s s' hx
  | matcherSelftestDone pass => exact execMatcherSelftestDone_onward pass s s' hx
  | agentMergeAdmit p cls => exact execAgentMergeAdmit_onward p cls s s' hx
  | egressClassPick p => exact execEgressClassPick_onward p s s' hx
  | crownRequestArrive src => exact execCrownRequestArrive_onward src s s' hx
  | crownEntryServe w line => exact execCrownEntryServe_onward w line s s' hx
  | birspReceive h w line rsp => exact execBirspReceive_onward h w line rsp s s' hx
  | biconflictReceive h w line => exact execBiconflictReceive_onward h w line s s' hx
  | snoopTimeout h w line => exact execSnoopTimeout_onward h w line s s' hx
  | targetResponseReceive id status data => exact execTargetResponseReceive_onward id status data s s' hx
  | brimFill t => exact execBrimFill_onward t s s' hx
  | brimRead t => exact execBrimRead_onward t s s' hx
  | brimInv t => exact execBrimInv_onward t s s' hx
  | brimAckReceive t => exact execBrimAckReceive_onward t s s' hx
  | windowInitComplete w => exact execWindowInitComplete_onward w s s' hx
  | resyncStart sess w v => exact execResyncStart_onward sess w v s s' hx
  | resyncLineCopy w => exact execResyncLineCopy_onward w s s' hx
  | departureMarkerArrive h => exact execDepartureMarkerArrive_onward h s s' hx
  | departureSweepStep => exact execDepartureSweepStep_onward s s' hx
  | fenceDoorbell p rid offset nbytes word => exact execFenceDoorbell_onward p rid offset nbytes word s s' hx
  | fenceEnd id => exact execFenceEnd_onward id s s' hx
  | fenceTimeout id => exact execFenceTimeout_onward id s s' hx
  | barCore c => exact execBarCore_onward c s s' hx
  | barClu c => exact execBarClu_onward c s s' hx
  | barSys c => exact execBarSys_onward c s s' hx
  | barSysTimeout c => exact execBarSysTimeout_onward c s s' hx
  | ldres c addr eight => exact execLdres_onward c addr eight s s' hx
  | stcond c addr eight data => exact execStcond_onward c addr eight data s s' hx
  | storeBufferRelease c ix => exact execStoreBufferRelease_onward c ix s s' hx
  | coreException c => exact execCoreException_onward c s s' hx
  | ctLoad sess v => exact execCtLoad_onward sess v s s' hx
  | ctLoadEdge => exact execCtLoadEdge_onward s s' hx
  | syncEdge at_ => exact execSyncEdge_onward at_ s s' hx
  | syncMiss => exact execSyncMiss_onward s s' hx
  | trigEdge line level at_ width => exact execTrigEdge_onward line level at_ width s s' hx
  | holdoffEnd line level => exact execHoldoffEnd_onward line level s s' hx
  | triggerMessageBuild => exact execTriggerMessageBuild_onward s s' hx
  | timeMessageSend => exact execTimeMessageSend_onward s s' hx
  | outAt sess line v => exact execOutAt_onward sess line v s s' hx
  | outCancel sess line v => exact execOutCancel_onward sess line v s s' hx
  | pulseAssert line => exact execPulseAssert_onward line s s' hx
  | pulseRelease line => exact execPulseRelease_onward line s s' hx
  | triggerFencePoint id => exact execTriggerFencePoint_onward id s s' hx
  | tfenceWaitExpiry id => exact execTfenceWaitExpiry_onward id s s' hx
  | frzArm sess w v => exact execFrzArm_onward sess w v s s' hx
  | frzRelease sess w v => exact execFrzRelease_onward sess w v s s' hx
  | freezePoint w => exact execFreezePoint_onward w s s' hx
  | freezeSweepStep w => exact execFreezeSweepStep_onward w s s' hx
  | freezeComplete w => exact execFreezeComplete_onward w s s' hx
  | captureFeedWrite p rid addr data => exact execCaptureFeedWrite_onward p rid addr data s s' hx
  | ringFlushTimeout sl => exact execRingFlushTimeout_onward sl s s' hx
  | ringCons p sl offset nbytes pasid v => exact execRingCons_onward p sl offset nbytes pasid v s s' hx
  | portRoleWrite sess p v => exact execPortRoleWrite_onward sess p v s s' hx
  | portAgentWrite sess p v => exact execPortAgentWrite_onward sess p v s s' hx
  | portPoolWrite sess p v => exact execPortPoolWrite_onward sess p v s s' hx
  | portSlotWrite sess p v => exact execPortSlotWrite_onward sess p v s s' hx
  | hdmDecoderCommit h ix set => exact execHdmDecoderCommit_onward h ix set s s' hx
  | bindCmdBind sess cmd => exact execBindCmdBind_onward sess cmd s s' hx
  | unbindWaitLinkDown sess cmd => exact execUnbindWaitLinkDown_onward sess cmd s s' hx
  | unbindManagedHotRemove sess cmd => exact execUnbindManagedHotRemove_onward sess cmd s s' hx
  | unbindSurpriseHotRemove sess cmd => exact execUnbindSurpriseHotRemove_onward sess cmd s s' hx
  | bindingPublish => exact execBindingPublish_onward s s' hx
  | unbindTimeout => exact execUnbindTimeout_onward s s' hx
  | extentAdd sess cmd => exact execExtentAdd_onward sess cmd s s' hx
  | extentZeroFillDone => exact execExtentZeroFillDone_onward s s' hx
  | addDynamicCapacityResponse h count runs => exact execAddDynamicCapacityResponse_onward h count runs s s' hx
  | extentReleaseByHost sess cmd => exact execExtentReleaseByHost_onward sess cmd s s' hx
  | extentForcedRelease sess cmd => exact execExtentForcedRelease_onward sess cmd s s' hx
  | releaseDynamicCapacity h count runs => exact execReleaseDynamicCapacity_onward h count runs s s' hx
  | extentTimeout => exact execExtentTimeout_onward s s' hx
  | extentReturnFree h dpa => exact execExtentReturnFree_onward h dpa s s' hx
  | powerControllerOn h v => exact execPowerControllerOn_onward h v s s' hx
  | powerControllerOff h v => exact execPowerControllerOff_onward h v s s' hx
  | slotControlWrite h v value => exact execSlotControlWrite_onward h v value s s' hx
  | perstRelease slot => exact execPerstRelease_onward slot s s' hx
  | slotOffAfterPerst slot => exact execSlotOffAfterPerst_onward slot s s' hx
  | hostLinkDisable h v disable => exact execHostLinkDisable_onward h v disable s s' hx
  | presenceChange slot edge => exact execPresenceChange_onward slot edge s s' hx
  | surpriseLinkLoss p => exact execSurpriseLinkLoss_onward p s s' hx
  | rspTimeout id => exact execRspTimeout_onward id s s' hx
  | linkEnable sess p v => exact execLinkEnable_onward sess p v s s' hx
  | linkRetrain sess p v => exact execLinkRetrain_onward sess p v s s' hx
  | partnerHotReset p => exact execPartnerHotReset_onward p s s' hx
  | linkActive p info => exact execLinkActive_onward p info s s' hx
  | linkRecovery p cause back => exact execLinkRecovery_onward p cause back s s' hx
  | loopbackEntry p => exact execLoopbackEntry_onward p s s' hx
  | l1Entry p => exact execL1Entry_onward p s s' hx
  | l0pWidthChange p width => exact execL0pWidthChange_onward p width s s' hx
  | laneMargining lane on => exact execLaneMargining_onward lane on s s' hx
  | eyeCmd sess p cmd => exact execEyeCmd_onward sess p cmd s s' hx
  | eyeScanPoint p errors => exact execEyeScanPoint_onward p errors s s' hx
  | laneTestConfig via lane value => exact execLaneTestConfig_onward via lane value s s' hx
  | bitslip via lane => exact execBitslip_onward via lane s s' hx
  | bitslipDone lane => exact execBitslipDone_onward lane s s' hx
  | errClr via lane => exact execErrClr_onward via lane s s' hx
  | seamUnitLaunch sm d k => exact execSeamUnitLaunch_onward sm d k s s' hx
  | seamUnitReceive sm d k u => exact execSeamUnitReceive_onward sm d k u s s' hx
  | seamReplayTimerExpiry sm d seq => exact execSeamReplayTimerExpiry_onward sm d seq s s' hx
  | seamAckUnitSend sm d k => exact execSeamAckUnitSend_onward sm d k s s' hx
  | keepaliveSend sm d k => exact execKeepaliveSend_onward sm d k s s' hx
  | checkSend sm d k => exact execCheckSend_onward sm d k s s' hx
  | checkEvaluate sm d => exact execCheckEvaluate_onward sm d s s' hx
  | seamRetrainStart sm => exact execSeamRetrainStart_onward sm s s' hx
  | seamRetrainComplete ended => exact execSeamRetrainComplete_onward ended s s' hx
  | retrainNow sess sm v => exact execRetrainNow_onward sess sm v s s' hx
  | seamStrandDown sm d k => exact execSeamStrandDown_onward sm d k s s' hx
  | timingStrandDown sm d => exact execTimingStrandDown_onward sm d s s' hx
  | strandRetry sm d k pass badWires => exact execStrandRetry_onward sm d k pass badWires s s' hx
  | timingFlitReceive sm d f => exact execTimingFlitReceive_onward sm d f s s' hx
  | tickMark sm step => exact execTickMark_onward sm step s s' hx
  | isolate sess sm v => exact execIsolate_onward sess sm v s s' hx
  | seamHealthy sm => exact execSeamHealthy_onward sm s s' hx
  | injOnce via sm d k on => exact execInjOnce_onward via sm d k on s s' hx
  | injPersist via sm d k on => exact execInjPersist_onward via sm d k on s s' hx
  | seamWireInject via sm d k wire => exact execSeamWireInject_onward via sm d k wire s s' hx
  | kaHold via sm d k on => exact execKaHold_onward via sm d k on s s' hx
  | sliceCreate sess cmd => exact execSliceCreate_onward sess cmd s s' hx
  | sliceDestroy sess cmd => exact execSliceDestroy_onward sess cmd s s' hx
  | sliceFreeze sess cmd => exact execSliceFreeze_onward sess cmd s s' hx
  | sliceFrozen sl => exact execSliceFrozen_onward sl s s' hx
  | sliceSave sess cmd => exact execSliceSave_onward sess cmd s s' hx
  | sliceRestore sess cmd record => exact execSliceRestore_onward sess cmd record s s' hx
  | sliceThaw sess cmd => exact execSliceThaw_onward sess cmd s s' hx
  | submit p sl offset pasid desc => exact execSubmit_onward p sl offset pasid desc s s' hx
  | sliceFence p sl offset nbytes pasid word => exact execSliceFence_onward p sl offset nbytes pasid word s s' hx
  | descriptorStart sl list => exact execDescriptorStart_onward sl list s s' hx
  | chunkIssue e => exact execChunkIssue_onward e s s' hx
  | chunkReadReturn id status data => exact execChunkReadReturn_onward id status data s s' hx
  | descriptorFinish sl => exact execDescriptorFinish_onward sl s s' hx
  | evacCmd sess cmd => exact execEvacCmd_onward sess cmd s s' hx
  | evacGranuleMove => exact execEvacGranuleMove_onward s s' hx
  | tagCmd sess cmd => exact execTagCmd_onward sess cmd s s' hx
  | tagCmdWritten => exact execTagCmdWritten_onward s s' hx
  | tagFillComplete m => exact execTagFillComplete_onward m s s' hx
  | sliceRgnCmd sess cmd => exact execSliceRgnCmd_onward sess cmd s s' hx
  | guardPublish sess v => exact execGuardPublish_onward sess v s s' hx
  | guardSync sess v => exact execGuardSync_onward sess v s s' hx
  | guardSyncDone => exact execGuardSyncDone_onward s s' hx
  | guardSyncTimeout => exact execGuardSyncTimeout_onward s s' hx
  | coreRegionBaseHi via c k value => exact execCoreRegionBaseHi_onward via c k value s s' hx
  | vbusReverseTurnOff b => exact execVbusReverseTurnOff_onward b s s' hx
  | vbusOvervoltageOff b => exact execVbusOvervoltageOff_onward b s s' hx
  | vbusOringOn b => exact execVbusOringOn_onward b s s' hx
  | powerOnResetRelease ga => exact execPowerOnResetRelease_onward ga s s' hx
  | vbusWarnAssert => exact execVbusWarnAssert_onward s s' hx
  | vbusWarnClear => exact execVbusWarnClear_onward s s' hx
  | vbusBelow33 => exact execVbusBelow33_onward s s' hx
  | vbusRecover36 => exact execVbusRecover36_onward s s' hx
  | vbusBelow31 => exact execVbusBelow31_onward s s' hx
  | railStart r => exact execRailStart_onward r s s' hx
  | railUp r => exact execRailUp_onward r s s' hx
  | railStartTimeout r => exact execRailStartTimeout_onward r s s' hx
  | railFault r status => exact execRailFault_onward r status s s' hx
  | railOffStep r => exact execRailOffStep_onward r s s' hx
  | railRetry => exact execRailRetry_onward s s' hx
  | railRestart sess v => exact execRailRestart_onward sess v s s' hx
  | pmbusPoll r ack status mv ma mc => exact execPmbusPoll_onward r ack status mv ma mc s s' hx
  | dataPathRelease => exact execDataPathRelease_onward s s' hx
  | slotCmdOn sess slot => exact execSlotCmdOn_onward sess slot s s' hx
  | slotCmdOff sess slot => exact execSlotCmdOff_onward sess slot s s' hx
  | forceOff sess slot v => exact execForceOff_onward sess slot v s s' hx
  | rampStart slot mv => exact execRampStart_onward slot mv s s' hx
  | gateFullyOn slot mv => exact execGateFullyOn_onward slot mv s s' hx
  | currentLimitEnter slot ma => exact execCurrentLimitEnter_onward slot ma s s' hx
  | faultTimerStop slot ma => exact execFaultTimerStop_onward slot ma s s' hx
  | faultTimerExpiry slot => exact execFaultTimerExpiry_onward slot s s' hx
  | fastTrip slot => exact execFastTrip_onward slot s s' hx
  | rampTimeout slot => exact execRampTimeout_onward slot s s' hx
  | tripFailure slot => exact execTripFailure_onward slot s s' hx
  | supplyOutOfRange slot high => exact execSupplyOutOfRange_onward slot high s s' hx
  | supplyReturn slot => exact execSupplyReturn_onward slot s s' hx
  | passFetWatchFire slot => exact execPassFetWatchFire_onward slot s s' hx
  | dischargeEnd slot => exact execDischargeEnd_onward slot s s' hx
  | chanReset sess slot v => exact execChanReset_onward sess slot v s s' hx
  | channelSelftestDone slot pass => exact execChannelSelftestDone_onward slot pass s s' hx
  | lockoutClear sess slot v => exact execLockoutClear_onward sess slot v s s' hx
  | feedSwitchover slot b => exact execFeedSwitchover_onward slot b s s' hx
  | feedWarningAssert slot => exact execFeedWarningAssert_onward slot s s' hx
  | feedWarningClear slot => exact execFeedWarningClear_onward slot s s' hx
  | redundancyLost slot b => exact execRedundancyLost_onward slot b s s' hx
  | redundancyRegained slot => exact execRedundancyRegained_onward slot s s' hx
  | powerWarningMessage => exact execPowerWarningMessage_onward s s' hx
  | hostGpfPhase2Request h => exact execHostGpfPhase2Request_onward h s s' hx
  | gpfTargetForward m => exact execGpfTargetForward_onward m s s' hx
  | gpfHostWaitExpiry => exact execGpfHostWaitExpiry_onward s s' hx
  | eventDeliver n => exact execEventDeliver_onward n s s' hx
  | escalationTimerExpiry n => exact execEscalationTimerExpiry_onward n s s' hx
  | safeExit sess v => exact execSafeExit_onward sess v s s' hx
  | pendingAck via n => exact execPendingAck_onward via n s s' hx
  | evtAck sess n v => exact execEvtAck_onward sess n v s s' hx
  | ackMapWrite h map => exact execAckMapWrite_onward h map s s' hx
  | clr via n => exact execClr_onward via n s s' hx
  | evtClear sess n v => exact execEvtClear_onward sess n v s s' hx
  | ferValidRelease via n => exact execFerValidRelease_onward via n s s' hx
  | evtInj via n value => exact execEvtInj_onward via n value s s' hx
  | emcy => exact execEmcy_onward s s' hx
  | readReq src txn data => exact execReadReq_onward src txn data s s' hx
  | writeReq src txn data => exact execWriteReq_onward src txn data s s' hx
  | segInit src txn data => exact execSegInit_onward src txn data s s' hx
  | segData src txn data => exact execSegData_onward src txn data s s' hx
  | segAck src txn data => exact execSegAck_onward src txn data s s' hx
  | segAckTimerExpiry src => exact execSegAckTimerExpiry_onward src s s' hx
  | segTimeout src => exact execSegTimeout_onward src s s' hx
  | abortFrame src txn data => exact execAbortFrame_onward src txn data s s' hx
  | illegalFuncFrame classical => exact execIllegalFuncFrame_onward classical s s' hx
  | addrClaim src serial => exact execAddrClaim_onward src serial s s' hx
  | addrAssign data => exact execAddrAssign_onward data s s' hx
  | addrClaimTimerExpiry => exact execAddrClaimTimerExpiry_onward s s' hx
  | addrRetryExpiry => exact execAddrRetryExpiry_onward s s' hx
  | canErrorStateChange state tec rec_ => exact execCanErrorStateChange_onward state tec rec_ s s' hx
  | sessionIdleExpiry sess => exact execSessionIdleExpiry_onward sess s s' hx
  | objectWrite sess index sub data => exact execObjectWrite_onward sess index sub data s s' hx
  | featRequest sess v => exact execFeatRequest_onward sess v s s' hx
  | genCommit sess v => exact execGenCommit_onward sess v s s' hx
  | genConfirm sess v => exact execGenConfirm_onward sess v s s' hx
  | genRollback sess v => exact execGenRollback_onward sess v s s' hx
  | draftDiscard sess v => exact execDraftDiscard_onward sess v s s' hx
  | confirmTimerExpiry => exact execConfirmTimerExpiry_onward s s' hx
  | draftIdleExpiry => exact execDraftIdleExpiry_onward s s' hx
  | notifySample k => exact execNotifySample_onward k s s' hx
  | identify h => exact execIdentify_onward h s s' hx
  | getResponseMessageLimit h => exact execGetResponseMessageLimit_onward h s s' hx
  | setResponseMessageLimit h limit => exact execSetResponseMessageLimit_onward h limit s s' hx
  | getSupportedLogs h => exact execGetSupportedLogs_onward h s s' hx
  | getLog h log offset length => exact execGetLog_onward h log offset length s s' hx
  | odAccessRead h input => exact execOdAccessRead_onward h input s s' hx
  | odAccessWrite h input => exact execOdAccessWrite_onward h input s s' hx
  | mailboxUnsupportedCommand h opcode => exact execMailboxUnsupportedCommand_onward h opcode s s' hx
  | identifySwitchDevice h => exact execIdentifySwitchDevice_onward h s s' hx
  | getPhysicalPortState h p => exact execGetPhysicalPortState_onward h p s s' hx
  | physicalPortControl h p op => exact execPhysicalPortControl_onward h p op s s' hx
  | sendPpbCxlIoConfigRequest h p reg write data => exact execSendPpbCxlIoConfigRequest_onward h p reg write data s s' hx
  | getVirtualCxlSwitchInfo h n => exact execGetVirtualCxlSwitchInfo_onward h n s s' hx
  | bindVppb h cmd => exact execBindVppb_onward h cmd s s' hx
  | unbindVppb h cmd => exact execUnbindVppb_onward h cmd s s' hx
  | generateAerEvent h n v error => exact execGenerateAerEvent_onward h n v error s s' hx
  | tunnelManagementCommand h p payload => exact execTunnelManagementCommand_onward h p payload s s' hx
  | getDcdInfo h => exact execGetDcdInfo_onward h s s' hx
  | getHostDcRegionConfiguration h n => exact execGetHostDcRegionConfiguration_onward h n s s' hx
  | getDcRegionExtentLists h n => exact execGetDcRegionExtentLists_onward h n s s' hx
  | initiateDynamicCapacityAdd h cmd => exact execInitiateDynamicCapacityAdd_onward h cmd s s' hx
  | initiateDynamicCapacityRelease h cmd => exact execInitiateDynamicCapacityRelease_onward h cmd s s' hx
  | setDcRegionConfiguration h => exact execSetDcRegionConfiguration_onward h s s' hx
  | discover f => exact execDiscover_onward f s s' hx
  | openSession f => exact execOpenSession_onward f s s' hx
  | closeSession h payload => exact execCloseSession_onward h payload s s' hx
  | odRead h index sub rsv offset length => exact execOdRead_onward h index sub rsv offset length s s' hx
  | odWrite h index sub rsv offset rest => exact execOdWrite_onward h index sub rsv offset rest s s' hx
  | csrRead h die rsv offset => exact execCsrRead_onward h die rsv offset s s' hx
  | csrWrite h die rsv offset value => exact execCsrWrite_onward h die rsv offset value s s' hx
  | servicePortBadOp h op payload => exact execServicePortBadOp_onward h op payload s s' hx
  | blobBegin h kind rsv total crc => exact execBlobBegin_onward h kind rsv total crc s s' hx
  | blobData h offset len bytes => exact execBlobData_onward h offset len bytes s s' hx
  | blobEnd h payload => exact execBlobEnd_onward h payload s s' hx
  | blobStatus h payload => exact execBlobStatus_onward h payload s s' hx
  | blobAbort h payload => exact execBlobAbort_onward h payload s s' hx
  | blobIdleExpiry sess => exact execBlobIdleExpiry_onward sess s s' hx
  | lcAdvance sess v => exact execLcAdvance_onward sess v s s' hx
  | lcToken sess token => exact execLcToken_onward sess token s s' hx
  | lcScrap sess v => exact execLcScrap_onward sess v s s' hx
  | vrootRevoke0 sess v => exact execVrootRevoke0_onward sess v s s' hx
  | jtagOpen sess v => exact execJtagOpen_onward sess v s s' hx
  | custKeyHash sess v => exact execCustKeyHash_onward sess v s s' hx
  | authResponse sess response => exact execAuthResponse_onward sess response s s' hx
  | devkeyGen sess v => exact execDevkeyGen_onward sess v s s' hx
  | devkeyCert sess cert => exact execDevkeyCert_onward sess cert s s' hx
  | attestNonce sess nonce => exact execAttestNonce_onward sess nonce s s' hx
  | attestReportReady sess => exact execAttestReportReady_onward sess s s' hx
  | fwInstall sess v => exact execFwInstall_onward sess v s s' hx
  | partSwapComplete k ok => exact execPartSwapComplete_onward k ok s s' hx
  | imageHealthReport k healthy => exact execImageHealthReport_onward k healthy s s' hx
  | probationExpiry k => exact execProbationExpiry_onward k s s' hx
  | fwReject sess v => exact execFwReject_onward sess v s s' hx
  | fwDiscard sess v => exact execFwDiscard_onward sess v s s' hx
  | appletRemove sess slot v => exact execAppletRemove_onward sess slot v s s' hx
  | dataPathImagesLoaded => exact execDataPathImagesLoaded_onward s s' hx
  | hkRstN ga => exact execHkRstN_onward ga s s' hx
  | resetHk sess v => exact execResetHk_onward sess v s s' hx
  | resetHub sess v => exact execResetHub_onward sess v s s' hx
  | hkWatchdog => exact execHkWatchdog_onward s s' hx
  | resetRelease dom => exact execResetRelease_onward dom s s' hx
  | cxlHotReset p vppb => exact execCxlHotReset_onward p vppb s s' hx
  | temperaturePoll mc => exact execTemperaturePoll_onward mc s s' hx
  | thermalShutdown => exact execThermalShutdown_onward s s' hx
  | thermalRecovery => exact execThermalRecovery_onward s s' hx
  | companionOverTemperature b => exact execCompanionOverTemperature_onward b s s' hx
  | companionTemperatureRecover b => exact execCompanionTemperatureRecover_onward b s s' hx
  | registerWrite via die offset nbytes value => exact execRegisterWrite_onward via die offset nbytes value s s' hx
  | partnerDetect p => exact execPartnerDetect_onward p s s' hx
  | l1Exit p => exact execL1Exit_onward p s s' hx
  | loopbackExit p => exact execLoopbackExit_onward p s s' hx
  | servicePortLinkChange up => exact execServicePortLinkChange_onward up s s' hx
  | spcOscillatorOutOfRange b bad => exact execSpcOscillatorOutOfRange_onward b bad s s' hx
  | tileSwapDeadline => exact execTileSwapDeadline_onward s s' hx
  | gpfTargetComplete m => exact execGpfTargetComplete_onward m s s' hx
  | coreMemoryAccess c op addr nbytes => exact execCoreMemoryAccess_onward c op addr nbytes s s' hx
  | registerRead via die offset nbytes => exact execRegisterRead_onward via die offset nbytes s s' hx
  | jtagTapAccess scan => exact execJtagTapAccess_onward scan s s' hx

/-- A step with a command waiting. -/
theorem step_cons (s : State) (c : Instr) (rest : List Instr) (h : s.pending = c :: rest) : step s = exec c { s with pending := rest } := by
  unfold step; rw [h]

/-- A step with none. -/
theorem step_nil (s : State) (h : s.pending = []) : step s = .next ({ s with now := s.now + Config.fclk } : State).runItems := by
  unfold step; rw [h]

/-- Every step gains fuses at most and does not turn time back. -/
theorem step_onward (s t : State) (h : step s = .next t) : s.life.fuses.Grew t.life.fuses ∧ s.now ≤ t.now := by
  cases hp : s.pending with
  | nil =>
    rw [step_nil s hp] at h
    cases Host.Outcome.next.inj h
    have h1 : State.Onward _ _ := .of_held (runItems_held { s with now := s.now + Config.fclk })
    exact ⟨h1.fuses, Nat.le_trans (Nat.le_add_right _ _) h1.now⟩
  | cons c rest =>
    rw [step_cons s c rest hp] at h
    have := exec_onward c _ t h
    exact ⟨this.fuses, this.now⟩

end Sys2Proof.Machine
end

