-- ==== Sys2Proof/Laws/State.lean ====
section
/-!
SUPPORT. Small laws of the state's updates: the fields and named values that an update leaves alone, and a value read after
it is written.
-/
namespace Sys2Proof.Machine

theorem kmap_get_set_other' {α : Type} [DecidableEq α] (d e : α) (m : KMap α) {k j : Nat} (v : α) (h : j ≠ k) :
    KMap.get e (KMap.set d m k v) j = KMap.get e m j := by
  unfold KMap.set
  split
  · exact (kmap_get_erase e m k j).trans (if_neg h)
  · exact (kmap_get_insert e m k j v).trans (if_neg h)

theorem state_o (s : State) (k : Nat) : s.o k = KMap.get (odDefault k) s.od k := rfl

/-! setO -/

@[simp] theorem setO_now (s : State) (key v : Nat) : (s.setO key v).now = s.now := rfl
@[simp] theorem setO_freeIx (s : State) (key v : Nat) : (s.setO key v).freeIx = s.freeIx := rfl
@[simp] theorem setO_csr (s : State) (key v : Nat) : (s.setO key v).csr = s.csr := rfl
@[simp] theorem setO_ev (s : State) (key v : Nat) : (s.setO key v).ev = s.ev := rfl
@[simp] theorem setO_mg (s : State) (key v : Nat) : (s.setO key v).mg = s.mg := rfl
@[simp] theorem setO_gen (s : State) (key v : Nat) : (s.setO key v).gen = s.gen := rfl
@[simp] theorem setO_life (s : State) (key v : Nat) : (s.setO key v).life = s.life := rfl
@[simp] theorem setO_st (s : State) (key v : Nat) : (s.setO key v).st = s.st := rfl
@[simp] theorem setO_pw (s : State) (key v : Nat) : (s.setO key v).pw = s.pw := rfl
@[simp] theorem setO_tm (s : State) (key v : Nat) : (s.setO key v).tm = s.tm := rfl
@[simp] theorem setO_pl (s : State) (key v : Nat) : (s.setO key v).pl = s.pl := rfl
@[simp] theorem setO_cr (s : State) (key v : Nat) : (s.setO key v).cr = s.cr := rfl
@[simp] theorem setO_ord (s : State) (key v : Nat) : (s.setO key v).ord = s.ord := rfl
@[simp] theorem setO_fab (s : State) (key v : Nat) : (s.setO key v).fab = s.fab := rfl
@[simp] theorem setO_seams (s : State) (key v : Nat) : (s.setO key v).seams = s.seams := rfl
@[simp] theorem setO_mv (s : State) (key v : Nat) : (s.setO key v).mv = s.mv := rfl
@[simp] theorem setO_gd (s : State) (key v : Nat) : (s.setO key v).gd = s.gd := rfl
@[simp] theorem setO_out (s : State) (key v : Nat) : (s.setO key v).out = s.out := rfl
@[simp] theorem setO_pending (s : State) (key v : Nat) : (s.setO key v).pending = s.pending := rfl
theorem setO_od_eq (s : State) (key v : Nat) :
    (s.setO key v).od = KMap.set (odDefault key) s.od key v := rfl
@[simp] theorem setO_at_c (s : State) (key v : Nat) (j : Nat) : (s.setO key v).c j = s.c j := rfl
@[simp] theorem setO_at_blk (s : State) (key v : Nat) (j : Nat) : (s.setO key v).blk j = s.blk j := rfl
@[simp] theorem setO_at_port (s : State) (key v : Nat) (j : Nat) : (s.setO key v).port j = s.port j := rfl
@[simp] theorem setO_at_slot (s : State) (key v : Nat) (j : Nat) : (s.setO key v).slot j = s.slot j := rfl
@[simp] theorem setO_at_vppb (s : State) (key v : Nat) (j i' : Nat) : (s.setO key v).vppb j i' = s.vppb j i' := rfl
@[simp] theorem setO_at_binding (s : State) (key v : Nat) (j i' : Nat) : (s.setO key v).binding j i' = s.binding j i' := rfl
@[simp] theorem setO_at_sess (s : State) (key v : Nat) (j : Nat) : (s.setO key v).sess? j = s.sess? j := rfl
@[simp] theorem setO_at_coreAt (s : State) (key v : Nat) (j : Nat) : (s.setO key v).coreAt j = s.coreAt j := rfl
@[simp] theorem setO_at_slice (s : State) (key v : Nat) (j : Nat) : (s.setO key v).slice j = s.slice j := rfl
@[simp] theorem setO_at_win (s : State) (key v : Nat) (j : Nat) : (s.setO key v).win j = s.win j := rfl
@[simp] theorem setO_at_rail (s : State) (key v : Nat) (j : Nat) : (s.setO key v).rail j = s.rail j := rfl
@[simp] theorem setO_at_part (s : State) (key v : Nat) (j : Nat) : (s.setO key v).part j = s.part j := rfl
@[simp] theorem setO_at_line (s : State) (key v : Nat) (j : Nat) : (s.setO key v).line j = s.line j := rfl
@[simp] theorem setO_at_strandOf (s : State) (key v : Nat) (j i' k' : Nat) : (s.setO key v).strandOf j i' k' = s.strandOf j i' k' := rfl
@[simp] theorem setO_at_sdir (s : State) (key v : Nat) (j i' : Nat) : (s.setO key v).sdir j i' = s.sdir j i' := rfl
@[simp] theorem setO_at_isVcsUp (s : State) (key v : Nat) (j : Nat) : (s.setO key v).isVcsUp j = s.isVcsUp j := rfl
@[simp] theorem setO_at_txn (s : State) (key v : Nat) (j : Nat) : (s.setO key v).txn? j = s.txn? j := rfl
@[simp] theorem setO_at_hubHeld (s : State) (key v : Nat) : (s.setO key v).hubHeld = s.hubHeld := rfl
@[simp] theorem setO_at_islandUp (s : State) (key v : Nat) : (s.setO key v).islandUp = s.islandUp := rfl
@[simp] theorem setO_at_lcState (s : State) (key v : Nat) : (s.setO key v).lcState = s.lcState := rfl

/-! addO -/

@[simp] theorem addO_now (s : State) (key n : Nat) : (s.addO key n).now = s.now := rfl
@[simp] theorem addO_freeIx (s : State) (key n : Nat) : (s.addO key n).freeIx = s.freeIx := rfl
@[simp] theorem addO_csr (s : State) (key n : Nat) : (s.addO key n).csr = s.csr := rfl
@[simp] theorem addO_ev (s : State) (key n : Nat) : (s.addO key n).ev = s.ev := rfl
@[simp] theorem addO_mg (s : State) (key n : Nat) : (s.addO key n).mg = s.mg := rfl
@[simp] theorem addO_gen (s : State) (key n : Nat) : (s.addO key n).gen = s.gen := rfl
@[simp] theorem addO_life (s : State) (key n : Nat) : (s.addO key n).life = s.life := rfl
@[simp] theorem addO_st (s : State) (key n : Nat) : (s.addO key n).st = s.st := rfl
@[simp] theorem addO_pw (s : State) (key n : Nat) : (s.addO key n).pw = s.pw := rfl
@[simp] theorem addO_tm (s : State) (key n : Nat) : (s.addO key n).tm = s.tm := rfl
@[simp] theorem addO_pl (s : State) (key n : Nat) : (s.addO key n).pl = s.pl := rfl
@[simp] theorem addO_cr (s : State) (key n : Nat) : (s.addO key n).cr = s.cr := rfl
@[simp] theorem addO_ord (s : State) (key n : Nat) : (s.addO key n).ord = s.ord := rfl
@[simp] theorem addO_fab (s : State) (key n : Nat) : (s.addO key n).fab = s.fab := rfl
@[simp] theorem addO_seams (s : State) (key n : Nat) : (s.addO key n).seams = s.seams := rfl
@[simp] theorem addO_mv (s : State) (key n : Nat) : (s.addO key n).mv = s.mv := rfl
@[simp] theorem addO_gd (s : State) (key n : Nat) : (s.addO key n).gd = s.gd := rfl
@[simp] theorem addO_out (s : State) (key n : Nat) : (s.addO key n).out = s.out := rfl
@[simp] theorem addO_pending (s : State) (key n : Nat) : (s.addO key n).pending = s.pending := rfl
@[simp] theorem addO_at_c (s : State) (key n : Nat) (j : Nat) : (s.addO key n).c j = s.c j := rfl
@[simp] theorem addO_at_blk (s : State) (key n : Nat) (j : Nat) : (s.addO key n).blk j = s.blk j := rfl
@[simp] theorem addO_at_port (s : State) (key n : Nat) (j : Nat) : (s.addO key n).port j = s.port j := rfl
@[simp] theorem addO_at_slot (s : State) (key n : Nat) (j : Nat) : (s.addO key n).slot j = s.slot j := rfl
@[simp] theorem addO_at_vppb (s : State) (key n : Nat) (j i' : Nat) : (s.addO key n).vppb j i' = s.vppb j i' := rfl
@[simp] theorem addO_at_binding (s : State) (key n : Nat) (j i' : Nat) : (s.addO key n).binding j i' = s.binding j i' := rfl
@[simp] theorem addO_at_sess (s : State) (key n : Nat) (j : Nat) : (s.addO key n).sess? j = s.sess? j := rfl
@[simp] theorem addO_at_coreAt (s : State) (key n : Nat) (j : Nat) : (s.addO key n).coreAt j = s.coreAt j := rfl
@[simp] theorem addO_at_slice (s : State) (key n : Nat) (j : Nat) : (s.addO key n).slice j = s.slice j := rfl
@[simp] theorem addO_at_win (s : State) (key n : Nat) (j : Nat) : (s.addO key n).win j = s.win j := rfl
@[simp] theorem addO_at_rail (s : State) (key n : Nat) (j : Nat) : (s.addO key n).rail j = s.rail j := rfl
@[simp] theorem addO_at_part (s : State) (key n : Nat) (j : Nat) : (s.addO key n).part j = s.part j := rfl
@[simp] theorem addO_at_line (s : State) (key n : Nat) (j : Nat) : (s.addO key n).line j = s.line j := rfl
@[simp] theorem addO_at_strandOf (s : State) (key n : Nat) (j i' k' : Nat) : (s.addO key n).strandOf j i' k' = s.strandOf j i' k' := rfl
@[simp] theorem addO_at_sdir (s : State) (key n : Nat) (j i' : Nat) : (s.addO key n).sdir j i' = s.sdir j i' := rfl
@[simp] theorem addO_at_isVcsUp (s : State) (key n : Nat) (j : Nat) : (s.addO key n).isVcsUp j = s.isVcsUp j := rfl
@[simp] theorem addO_at_txn (s : State) (key n : Nat) (j : Nat) : (s.addO key n).txn? j = s.txn? j := rfl
@[simp] theorem addO_at_hubHeld (s : State) (key n : Nat) : (s.addO key n).hubHeld = s.hubHeld := rfl
@[simp] theorem addO_at_islandUp (s : State) (key n : Nat) : (s.addO key n).islandUp = s.islandUp := rfl
@[simp] theorem addO_at_lcState (s : State) (key n : Nat) : (s.addO key n).lcState = s.lcState := rfl

/-! incO -/

@[simp] theorem incO_now (s : State) (key : Nat) : (s.incO key).now = s.now := rfl
@[simp] theorem incO_freeIx (s : State) (key : Nat) : (s.incO key).freeIx = s.freeIx := rfl
@[simp] theorem incO_csr (s : State) (key : Nat) : (s.incO key).csr = s.csr := rfl
@[simp] theorem incO_ev (s : State) (key : Nat) : (s.incO key).ev = s.ev := rfl
@[simp] theorem incO_mg (s : State) (key : Nat) : (s.incO key).mg = s.mg := rfl
@[simp] theorem incO_gen (s : State) (key : Nat) : (s.incO key).gen = s.gen := rfl
@[simp] theorem incO_life (s : State) (key : Nat) : (s.incO key).life = s.life := rfl
@[simp] theorem incO_st (s : State) (key : Nat) : (s.incO key).st = s.st := rfl
@[simp] theorem incO_pw (s : State) (key : Nat) : (s.incO key).pw = s.pw := rfl
@[simp] theorem incO_tm (s : State) (key : Nat) : (s.incO key).tm = s.tm := rfl
@[simp] theorem incO_pl (s : State) (key : Nat) : (s.incO key).pl = s.pl := rfl
@[simp] theorem incO_cr (s : State) (key : Nat) : (s.incO key).cr = s.cr := rfl
@[simp] theorem incO_ord (s : State) (key : Nat) : (s.incO key).ord = s.ord := rfl
@[simp] theorem incO_fab (s : State) (key : Nat) : (s.incO key).fab = s.fab := rfl
@[simp] theorem incO_seams (s : State) (key : Nat) : (s.incO key).seams = s.seams := rfl
@[simp] theorem incO_mv (s : State) (key : Nat) : (s.incO key).mv = s.mv := rfl
@[simp] theorem incO_gd (s : State) (key : Nat) : (s.incO key).gd = s.gd := rfl
@[simp] theorem incO_out (s : State) (key : Nat) : (s.incO key).out = s.out := rfl
@[simp] theorem incO_pending (s : State) (key : Nat) : (s.incO key).pending = s.pending := rfl
@[simp] theorem incO_at_c (s : State) (key : Nat) (j : Nat) : (s.incO key).c j = s.c j := rfl
@[simp] theorem incO_at_blk (s : State) (key : Nat) (j : Nat) : (s.incO key).blk j = s.blk j := rfl
@[simp] theorem incO_at_port (s : State) (key : Nat) (j : Nat) : (s.incO key).port j = s.port j := rfl
@[simp] theorem incO_at_slot (s : State) (key : Nat) (j : Nat) : (s.incO key).slot j = s.slot j := rfl
@[simp] theorem incO_at_vppb (s : State) (key : Nat) (j i' : Nat) : (s.incO key).vppb j i' = s.vppb j i' := rfl
@[simp] theorem incO_at_binding (s : State) (key : Nat) (j i' : Nat) : (s.incO key).binding j i' = s.binding j i' := rfl
@[simp] theorem incO_at_sess (s : State) (key : Nat) (j : Nat) : (s.incO key).sess? j = s.sess? j := rfl
@[simp] theorem incO_at_coreAt (s : State) (key : Nat) (j : Nat) : (s.incO key).coreAt j = s.coreAt j := rfl
@[simp] theorem incO_at_slice (s : State) (key : Nat) (j : Nat) : (s.incO key).slice j = s.slice j := rfl
@[simp] theorem incO_at_win (s : State) (key : Nat) (j : Nat) : (s.incO key).win j = s.win j := rfl
@[simp] theorem incO_at_rail (s : State) (key : Nat) (j : Nat) : (s.incO key).rail j = s.rail j := rfl
@[simp] theorem incO_at_part (s : State) (key : Nat) (j : Nat) : (s.incO key).part j = s.part j := rfl
@[simp] theorem incO_at_line (s : State) (key : Nat) (j : Nat) : (s.incO key).line j = s.line j := rfl
@[simp] theorem incO_at_strandOf (s : State) (key : Nat) (j i' k' : Nat) : (s.incO key).strandOf j i' k' = s.strandOf j i' k' := rfl
@[simp] theorem incO_at_sdir (s : State) (key : Nat) (j i' : Nat) : (s.incO key).sdir j i' = s.sdir j i' := rfl
@[simp] theorem incO_at_isVcsUp (s : State) (key : Nat) (j : Nat) : (s.incO key).isVcsUp j = s.isVcsUp j := rfl
@[simp] theorem incO_at_txn (s : State) (key : Nat) (j : Nat) : (s.incO key).txn? j = s.txn? j := rfl
@[simp] theorem incO_at_hubHeld (s : State) (key : Nat) : (s.incO key).hubHeld = s.hubHeld := rfl
@[simp] theorem incO_at_islandUp (s : State) (key : Nat) : (s.incO key).islandUp = s.islandUp := rfl
@[simp] theorem incO_at_lcState (s : State) (key : Nat) : (s.incO key).lcState = s.lcState := rfl

/-! setCsr -/

@[simp] theorem setCsr_now (s : State) (die off v : Nat) : (s.setCsr die off v).now = s.now := rfl
@[simp] theorem setCsr_freeIx (s : State) (die off v : Nat) : (s.setCsr die off v).freeIx = s.freeIx := rfl
@[simp] theorem setCsr_od (s : State) (die off v : Nat) : (s.setCsr die off v).od = s.od := rfl
@[simp] theorem setCsr_ev (s : State) (die off v : Nat) : (s.setCsr die off v).ev = s.ev := rfl
@[simp] theorem setCsr_mg (s : State) (die off v : Nat) : (s.setCsr die off v).mg = s.mg := rfl
@[simp] theorem setCsr_gen (s : State) (die off v : Nat) : (s.setCsr die off v).gen = s.gen := rfl
@[simp] theorem setCsr_life (s : State) (die off v : Nat) : (s.setCsr die off v).life = s.life := rfl
@[simp] theorem setCsr_st (s : State) (die off v : Nat) : (s.setCsr die off v).st = s.st := rfl
@[simp] theorem setCsr_pw (s : State) (die off v : Nat) : (s.setCsr die off v).pw = s.pw := rfl
@[simp] theorem setCsr_tm (s : State) (die off v : Nat) : (s.setCsr die off v).tm = s.tm := rfl
@[simp] theorem setCsr_pl (s : State) (die off v : Nat) : (s.setCsr die off v).pl = s.pl := rfl
@[simp] theorem setCsr_cr (s : State) (die off v : Nat) : (s.setCsr die off v).cr = s.cr := rfl
@[simp] theorem setCsr_ord (s : State) (die off v : Nat) : (s.setCsr die off v).ord = s.ord := rfl
@[simp] theorem setCsr_fab (s : State) (die off v : Nat) : (s.setCsr die off v).fab = s.fab := rfl
@[simp] theorem setCsr_seams (s : State) (die off v : Nat) : (s.setCsr die off v).seams = s.seams := rfl
@[simp] theorem setCsr_mv (s : State) (die off v : Nat) : (s.setCsr die off v).mv = s.mv := rfl
@[simp] theorem setCsr_gd (s : State) (die off v : Nat) : (s.setCsr die off v).gd = s.gd := rfl
@[simp] theorem setCsr_out (s : State) (die off v : Nat) : (s.setCsr die off v).out = s.out := rfl
@[simp] theorem setCsr_pending (s : State) (die off v : Nat) : (s.setCsr die off v).pending = s.pending := rfl
theorem setCsr_csr_eq (s : State) (die off v : Nat) :
    (s.setCsr die off v).csr = KMap.set 0 s.csr (die * 2 ^ 32 + off) v := rfl
@[simp] theorem setCsr_at_o (s : State) (die off v : Nat) (j : Nat) : (s.setCsr die off v).o j = s.o j := rfl
@[simp] theorem setCsr_at_c (s : State) (die off v : Nat) (j : Nat) : (s.setCsr die off v).c j = s.c j := rfl
@[simp] theorem setCsr_at_blk (s : State) (die off v : Nat) (j : Nat) : (s.setCsr die off v).blk j = s.blk j := rfl
@[simp] theorem setCsr_at_port (s : State) (die off v : Nat) (j : Nat) : (s.setCsr die off v).port j = s.port j := rfl
@[simp] theorem setCsr_at_slot (s : State) (die off v : Nat) (j : Nat) : (s.setCsr die off v).slot j = s.slot j := rfl
@[simp] theorem setCsr_at_vppb (s : State) (die off v : Nat) (j i' : Nat) : (s.setCsr die off v).vppb j i' = s.vppb j i' := rfl
@[simp] theorem setCsr_at_binding (s : State) (die off v : Nat) (j i' : Nat) : (s.setCsr die off v).binding j i' = s.binding j i' := rfl
@[simp] theorem setCsr_at_sess (s : State) (die off v : Nat) (j : Nat) : (s.setCsr die off v).sess? j = s.sess? j := rfl
@[simp] theorem setCsr_at_coreAt (s : State) (die off v : Nat) (j : Nat) : (s.setCsr die off v).coreAt j = s.coreAt j := rfl
@[simp] theorem setCsr_at_slice (s : State) (die off v : Nat) (j : Nat) : (s.setCsr die off v).slice j = s.slice j := rfl
@[simp] theorem setCsr_at_win (s : State) (die off v : Nat) (j : Nat) : (s.setCsr die off v).win j = s.win j := rfl
@[simp] theorem setCsr_at_rail (s : State) (die off v : Nat) (j : Nat) : (s.setCsr die off v).rail j = s.rail j := rfl
@[simp] theorem setCsr_at_part (s : State) (die off v : Nat) (j : Nat) : (s.setCsr die off v).part j = s.part j := rfl
@[simp] theorem setCsr_at_line (s : State) (die off v : Nat) (j : Nat) : (s.setCsr die off v).line j = s.line j := rfl
@[simp] theorem setCsr_at_strandOf (s : State) (die off v : Nat) (j i' k' : Nat) : (s.setCsr die off v).strandOf j i' k' = s.strandOf j i' k' := rfl
@[simp] theorem setCsr_at_sdir (s : State) (die off v : Nat) (j i' : Nat) : (s.setCsr die off v).sdir j i' = s.sdir j i' := rfl
@[simp] theorem setCsr_at_isVcsUp (s : State) (die off v : Nat) (j : Nat) : (s.setCsr die off v).isVcsUp j = s.isVcsUp j := rfl
@[simp] theorem setCsr_at_txn (s : State) (die off v : Nat) (j : Nat) : (s.setCsr die off v).txn? j = s.txn? j := rfl
@[simp] theorem setCsr_at_hubHeld (s : State) (die off v : Nat) : (s.setCsr die off v).hubHeld = s.hubHeld := rfl
@[simp] theorem setCsr_at_islandUp (s : State) (die off v : Nat) : (s.setCsr die off v).islandUp = s.islandUp := rfl
@[simp] theorem setCsr_at_lcState (s : State) (die off v : Nat) : (s.setCsr die off v).lcState = s.lcState := rfl

/-! emit -/

@[simp] theorem emit_now (s : State) (k : OutKind) (dst : Nat) (args : List Nat) : (s.emit k dst args).now = s.now := rfl
@[simp] theorem emit_freeIx (s : State) (k : OutKind) (dst : Nat) (args : List Nat) : (s.emit k dst args).freeIx = s.freeIx := rfl
@[simp] theorem emit_od (s : State) (k : OutKind) (dst : Nat) (args : List Nat) : (s.emit k dst args).od = s.od := rfl
@[simp] theorem emit_csr (s : State) (k : OutKind) (dst : Nat) (args : List Nat) : (s.emit k dst args).csr = s.csr := rfl
@[simp] theorem emit_ev (s : State) (k : OutKind) (dst : Nat) (args : List Nat) : (s.emit k dst args).ev = s.ev := rfl
@[simp] theorem emit_mg (s : State) (k : OutKind) (dst : Nat) (args : List Nat) : (s.emit k dst args).mg = s.mg := rfl
@[simp] theorem emit_gen (s : State) (k : OutKind) (dst : Nat) (args : List Nat) : (s.emit k dst args).gen = s.gen := rfl
@[simp] theorem emit_life (s : State) (k : OutKind) (dst : Nat) (args : List Nat) : (s.emit k dst args).life = s.life := rfl
@[simp] theorem emit_st (s : State) (k : OutKind) (dst : Nat) (args : List Nat) : (s.emit k dst args).st = s.st := rfl
@[simp] theorem emit_pw (s : State) (k : OutKind) (dst : Nat) (args : List Nat) : (s.emit k dst args).pw = s.pw := rfl
@[simp] theorem emit_tm (s : State) (k : OutKind) (dst : Nat) (args : List Nat) : (s.emit k dst args).tm = s.tm := rfl
@[simp] theorem emit_pl (s : State) (k : OutKind) (dst : Nat) (args : List Nat) : (s.emit k dst args).pl = s.pl := rfl
@[simp] theorem emit_cr (s : State) (k : OutKind) (dst : Nat) (args : List Nat) : (s.emit k dst args).cr = s.cr := rfl
@[simp] theorem emit_ord (s : State) (k : OutKind) (dst : Nat) (args : List Nat) : (s.emit k dst args).ord = s.ord := rfl
@[simp] theorem emit_fab (s : State) (k : OutKind) (dst : Nat) (args : List Nat) : (s.emit k dst args).fab = s.fab := rfl
@[simp] theorem emit_seams (s : State) (k : OutKind) (dst : Nat) (args : List Nat) : (s.emit k dst args).seams = s.seams := rfl
@[simp] theorem emit_mv (s : State) (k : OutKind) (dst : Nat) (args : List Nat) : (s.emit k dst args).mv = s.mv := rfl
@[simp] theorem emit_gd (s : State) (k : OutKind) (dst : Nat) (args : List Nat) : (s.emit k dst args).gd = s.gd := rfl
@[simp] theorem emit_pending (s : State) (k : OutKind) (dst : Nat) (args : List Nat) : (s.emit k dst args).pending = s.pending := rfl
theorem emit_out_eq (s : State) (k : OutKind) (dst : Nat) (args : List Nat) :
    (s.emit k dst args).out = { kind := k, dst := dst, args := args } :: s.out := rfl
@[simp] theorem emit_at_o (s : State) (k : OutKind) (dst : Nat) (args : List Nat) (j : Nat) : (s.emit k dst args).o j = s.o j := rfl
@[simp] theorem emit_at_c (s : State) (k : OutKind) (dst : Nat) (args : List Nat) (j : Nat) : (s.emit k dst args).c j = s.c j := rfl
@[simp] theorem emit_at_blk (s : State) (k : OutKind) (dst : Nat) (args : List Nat) (j : Nat) : (s.emit k dst args).blk j = s.blk j := rfl
@[simp] theorem emit_at_port (s : State) (k : OutKind) (dst : Nat) (args : List Nat) (j : Nat) : (s.emit k dst args).port j = s.port j := rfl
@[simp] theorem emit_at_slot (s : State) (k : OutKind) (dst : Nat) (args : List Nat) (j : Nat) : (s.emit k dst args).slot j = s.slot j := rfl
@[simp] theorem emit_at_vppb (s : State) (k : OutKind) (dst : Nat) (args : List Nat) (j i' : Nat) : (s.emit k dst args).vppb j i' = s.vppb j i' := rfl
@[simp] theorem emit_at_binding (s : State) (k : OutKind) (dst : Nat) (args : List Nat) (j i' : Nat) : (s.emit k dst args).binding j i' = s.binding j i' := rfl
@[simp] theorem emit_at_sess (s : State) (k : OutKind) (dst : Nat) (args : List Nat) (j : Nat) : (s.emit k dst args).sess? j = s.sess? j := rfl
@[simp] theorem emit_at_coreAt (s : State) (k : OutKind) (dst : Nat) (args : List Nat) (j : Nat) : (s.emit k dst args).coreAt j = s.coreAt j := rfl
@[simp] theorem emit_at_slice (s : State) (k : OutKind) (dst : Nat) (args : List Nat) (j : Nat) : (s.emit k dst args).slice j = s.slice j := rfl
@[simp] theorem emit_at_win (s : State) (k : OutKind) (dst : Nat) (args : List Nat) (j : Nat) : (s.emit k dst args).win j = s.win j := rfl
@[simp] theorem emit_at_rail (s : State) (k : OutKind) (dst : Nat) (args : List Nat) (j : Nat) : (s.emit k dst args).rail j = s.rail j := rfl
@[simp] theorem emit_at_part (s : State) (k : OutKind) (dst : Nat) (args : List Nat) (j : Nat) : (s.emit k dst args).part j = s.part j := rfl
@[simp] theorem emit_at_line (s : State) (k : OutKind) (dst : Nat) (args : List Nat) (j : Nat) : (s.emit k dst args).line j = s.line j := rfl
@[simp] theorem emit_at_strandOf (s : State) (k : OutKind) (dst : Nat) (args : List Nat) (j i' k' : Nat) : (s.emit k dst args).strandOf j i' k' = s.strandOf j i' k' := rfl
@[simp] theorem emit_at_sdir (s : State) (k : OutKind) (dst : Nat) (args : List Nat) (j i' : Nat) : (s.emit k dst args).sdir j i' = s.sdir j i' := rfl
@[simp] theorem emit_at_isVcsUp (s : State) (k : OutKind) (dst : Nat) (args : List Nat) (j : Nat) : (s.emit k dst args).isVcsUp j = s.isVcsUp j := rfl
@[simp] theorem emit_at_txn (s : State) (k : OutKind) (dst : Nat) (args : List Nat) (j : Nat) : (s.emit k dst args).txn? j = s.txn? j := rfl
@[simp] theorem emit_at_hubHeld (s : State) (k : OutKind) (dst : Nat) (args : List Nat) : (s.emit k dst args).hubHeld = s.hubHeld := rfl
@[simp] theorem emit_at_islandUp (s : State) (k : OutKind) (dst : Nat) (args : List Nat) : (s.emit k dst args).islandUp = s.islandUp := rfl
@[simp] theorem emit_at_lcState (s : State) (k : OutKind) (dst : Nat) (args : List Nat) : (s.emit k dst args).lcState = s.lcState := rfl

/-! freeNext -/

@[simp] theorem freeNext_now (s : State) : (s.freeNext).now = s.now := rfl
@[simp] theorem freeNext_od (s : State) : (s.freeNext).od = s.od := rfl
@[simp] theorem freeNext_csr (s : State) : (s.freeNext).csr = s.csr := rfl
@[simp] theorem freeNext_ev (s : State) : (s.freeNext).ev = s.ev := rfl
@[simp] theorem freeNext_mg (s : State) : (s.freeNext).mg = s.mg := rfl
@[simp] theorem freeNext_gen (s : State) : (s.freeNext).gen = s.gen := rfl
@[simp] theorem freeNext_life (s : State) : (s.freeNext).life = s.life := rfl
@[simp] theorem freeNext_st (s : State) : (s.freeNext).st = s.st := rfl
@[simp] theorem freeNext_pw (s : State) : (s.freeNext).pw = s.pw := rfl
@[simp] theorem freeNext_tm (s : State) : (s.freeNext).tm = s.tm := rfl
@[simp] theorem freeNext_pl (s : State) : (s.freeNext).pl = s.pl := rfl
@[simp] theorem freeNext_cr (s : State) : (s.freeNext).cr = s.cr := rfl
@[simp] theorem freeNext_ord (s : State) : (s.freeNext).ord = s.ord := rfl
@[simp] theorem freeNext_fab (s : State) : (s.freeNext).fab = s.fab := rfl
@[simp] theorem freeNext_seams (s : State) : (s.freeNext).seams = s.seams := rfl
@[simp] theorem freeNext_mv (s : State) : (s.freeNext).mv = s.mv := rfl
@[simp] theorem freeNext_gd (s : State) : (s.freeNext).gd = s.gd := rfl
@[simp] theorem freeNext_out (s : State) : (s.freeNext).out = s.out := rfl
@[simp] theorem freeNext_pending (s : State) : (s.freeNext).pending = s.pending := rfl
theorem freeNext_freeIx_eq (s : State) :
    (s.freeNext).freeIx = s.freeIx + 1 := rfl
@[simp] theorem freeNext_at_o (s : State) (j : Nat) : (s.freeNext).o j = s.o j := rfl
@[simp] theorem freeNext_at_c (s : State) (j : Nat) : (s.freeNext).c j = s.c j := rfl
@[simp] theorem freeNext_at_blk (s : State) (j : Nat) : (s.freeNext).blk j = s.blk j := rfl
@[simp] theorem freeNext_at_port (s : State) (j : Nat) : (s.freeNext).port j = s.port j := rfl
@[simp] theorem freeNext_at_slot (s : State) (j : Nat) : (s.freeNext).slot j = s.slot j := rfl
@[simp] theorem freeNext_at_vppb (s : State) (j i' : Nat) : (s.freeNext).vppb j i' = s.vppb j i' := rfl
@[simp] theorem freeNext_at_binding (s : State) (j i' : Nat) : (s.freeNext).binding j i' = s.binding j i' := rfl
@[simp] theorem freeNext_at_sess (s : State) (j : Nat) : (s.freeNext).sess? j = s.sess? j := rfl
@[simp] theorem freeNext_at_coreAt (s : State) (j : Nat) : (s.freeNext).coreAt j = s.coreAt j := rfl
@[simp] theorem freeNext_at_slice (s : State) (j : Nat) : (s.freeNext).slice j = s.slice j := rfl
@[simp] theorem freeNext_at_win (s : State) (j : Nat) : (s.freeNext).win j = s.win j := rfl
@[simp] theorem freeNext_at_rail (s : State) (j : Nat) : (s.freeNext).rail j = s.rail j := rfl
@[simp] theorem freeNext_at_part (s : State) (j : Nat) : (s.freeNext).part j = s.part j := rfl
@[simp] theorem freeNext_at_line (s : State) (j : Nat) : (s.freeNext).line j = s.line j := rfl
@[simp] theorem freeNext_at_strandOf (s : State) (j i' k' : Nat) : (s.freeNext).strandOf j i' k' = s.strandOf j i' k' := rfl
@[simp] theorem freeNext_at_sdir (s : State) (j i' : Nat) : (s.freeNext).sdir j i' = s.sdir j i' := rfl
@[simp] theorem freeNext_at_isVcsUp (s : State) (j : Nat) : (s.freeNext).isVcsUp j = s.isVcsUp j := rfl
@[simp] theorem freeNext_at_txn (s : State) (j : Nat) : (s.freeNext).txn? j = s.txn? j := rfl
@[simp] theorem freeNext_at_hubHeld (s : State) : (s.freeNext).hubHeld = s.hubHeld := rfl
@[simp] theorem freeNext_at_islandUp (s : State) : (s.freeNext).islandUp = s.islandUp := rfl
@[simp] theorem freeNext_at_lcState (s : State) : (s.freeNext).lcState = s.lcState := rfl

/-! advance -/

@[simp] theorem advance_freeIx (s : State) (t : Nat) : (s.advance t).freeIx = s.freeIx := by unfold State.advance; split <;> rfl
@[simp] theorem advance_od (s : State) (t : Nat) : (s.advance t).od = s.od := by unfold State.advance; split <;> rfl
@[simp] theorem advance_csr (s : State) (t : Nat) : (s.advance t).csr = s.csr := by unfold State.advance; split <;> rfl
@[simp] theorem advance_ev (s : State) (t : Nat) : (s.advance t).ev = s.ev := by unfold State.advance; split <;> rfl
@[simp] theorem advance_mg (s : State) (t : Nat) : (s.advance t).mg = s.mg := by unfold State.advance; split <;> rfl
@[simp] theorem advance_gen (s : State) (t : Nat) : (s.advance t).gen = s.gen := by unfold State.advance; split <;> rfl
@[simp] theorem advance_life (s : State) (t : Nat) : (s.advance t).life = s.life := by unfold State.advance; split <;> rfl
@[simp] theorem advance_st (s : State) (t : Nat) : (s.advance t).st = s.st := by unfold State.advance; split <;> rfl
@[simp] theorem advance_pw (s : State) (t : Nat) : (s.advance t).pw = s.pw := by unfold State.advance; split <;> rfl
@[simp] theorem advance_tm (s : State) (t : Nat) : (s.advance t).tm = s.tm := by unfold State.advance; split <;> rfl
@[simp] theorem advance_pl (s : State) (t : Nat) : (s.advance t).pl = s.pl := by unfold State.advance; split <;> rfl
@[simp] theorem advance_cr (s : State) (t : Nat) : (s.advance t).cr = s.cr := by unfold State.advance; split <;> rfl
@[simp] theorem advance_ord (s : State) (t : Nat) : (s.advance t).ord = s.ord := by unfold State.advance; split <;> rfl
@[simp] theorem advance_fab (s : State) (t : Nat) : (s.advance t).fab = s.fab := by unfold State.advance; split <;> rfl
@[simp] theorem advance_seams (s : State) (t : Nat) : (s.advance t).seams = s.seams := by unfold State.advance; split <;> rfl
@[simp] theorem advance_mv (s : State) (t : Nat) : (s.advance t).mv = s.mv := by unfold State.advance; split <;> rfl
@[simp] theorem advance_gd (s : State) (t : Nat) : (s.advance t).gd = s.gd := by unfold State.advance; split <;> rfl
@[simp] theorem advance_out (s : State) (t : Nat) : (s.advance t).out = s.out := by unfold State.advance; split <;> rfl
@[simp] theorem advance_pending (s : State) (t : Nat) : (s.advance t).pending = s.pending := by unfold State.advance; split <;> rfl
@[simp] theorem advance_at_o (s : State) (t : Nat) (j : Nat) : (s.advance t).o j = s.o j := by unfold State.advance; split <;> rfl
@[simp] theorem advance_at_c (s : State) (t : Nat) (j : Nat) : (s.advance t).c j = s.c j := by unfold State.advance; split <;> rfl
@[simp] theorem advance_at_blk (s : State) (t : Nat) (j : Nat) : (s.advance t).blk j = s.blk j := by unfold State.advance; split <;> rfl
@[simp] theorem advance_at_port (s : State) (t : Nat) (j : Nat) : (s.advance t).port j = s.port j := by unfold State.advance; split <;> rfl
@[simp] theorem advance_at_slot (s : State) (t : Nat) (j : Nat) : (s.advance t).slot j = s.slot j := by unfold State.advance; split <;> rfl
@[simp] theorem advance_at_vppb (s : State) (t : Nat) (j i' : Nat) : (s.advance t).vppb j i' = s.vppb j i' := by unfold State.advance; split <;> rfl
@[simp] theorem advance_at_binding (s : State) (t : Nat) (j i' : Nat) : (s.advance t).binding j i' = s.binding j i' := by unfold State.advance; split <;> rfl
@[simp] theorem advance_at_sess (s : State) (t : Nat) (j : Nat) : (s.advance t).sess? j = s.sess? j := by unfold State.advance; split <;> rfl
@[simp] theorem advance_at_coreAt (s : State) (t : Nat) (j : Nat) : (s.advance t).coreAt j = s.coreAt j := by unfold State.advance; split <;> rfl
@[simp] theorem advance_at_slice (s : State) (t : Nat) (j : Nat) : (s.advance t).slice j = s.slice j := by unfold State.advance; split <;> rfl
@[simp] theorem advance_at_win (s : State) (t : Nat) (j : Nat) : (s.advance t).win j = s.win j := by unfold State.advance; split <;> rfl
@[simp] theorem advance_at_rail (s : State) (t : Nat) (j : Nat) : (s.advance t).rail j = s.rail j := by unfold State.advance; split <;> rfl
@[simp] theorem advance_at_part (s : State) (t : Nat) (j : Nat) : (s.advance t).part j = s.part j := by unfold State.advance; split <;> rfl
@[simp] theorem advance_at_line (s : State) (t : Nat) (j : Nat) : (s.advance t).line j = s.line j := by unfold State.advance; split <;> rfl
@[simp] theorem advance_at_strandOf (s : State) (t : Nat) (j i' k' : Nat) : (s.advance t).strandOf j i' k' = s.strandOf j i' k' := by unfold State.advance; split <;> rfl
@[simp] theorem advance_at_sdir (s : State) (t : Nat) (j i' : Nat) : (s.advance t).sdir j i' = s.sdir j i' := by unfold State.advance; split <;> rfl
@[simp] theorem advance_at_isVcsUp (s : State) (t : Nat) (j : Nat) : (s.advance t).isVcsUp j = s.isVcsUp j := by unfold State.advance; split <;> rfl
@[simp] theorem advance_at_txn (s : State) (t : Nat) (j : Nat) : (s.advance t).txn? j = s.txn? j := by unfold State.advance; split <;> rfl
@[simp] theorem advance_at_hubHeld (s : State) (t : Nat) : (s.advance t).hubHeld = s.hubHeld := by unfold State.advance; split <;> rfl
@[simp] theorem advance_at_islandUp (s : State) (t : Nat) : (s.advance t).islandUp = s.islandUp := by unfold State.advance; split <;> rfl
@[simp] theorem advance_at_lcState (s : State) (t : Nat) : (s.advance t).lcState = s.lcState := by unfold State.advance; split <;> rfl

/-! setBlk -/

@[simp] theorem setBlk_now (s : State) (n : Nat) (b : EvtBlock) : (s.setBlk n b).now = s.now := rfl
@[simp] theorem setBlk_freeIx (s : State) (n : Nat) (b : EvtBlock) : (s.setBlk n b).freeIx = s.freeIx := rfl
@[simp] theorem setBlk_od (s : State) (n : Nat) (b : EvtBlock) : (s.setBlk n b).od = s.od := rfl
@[simp] theorem setBlk_csr (s : State) (n : Nat) (b : EvtBlock) : (s.setBlk n b).csr = s.csr := rfl
@[simp] theorem setBlk_mg (s : State) (n : Nat) (b : EvtBlock) : (s.setBlk n b).mg = s.mg := rfl
@[simp] theorem setBlk_gen (s : State) (n : Nat) (b : EvtBlock) : (s.setBlk n b).gen = s.gen := rfl
@[simp] theorem setBlk_life (s : State) (n : Nat) (b : EvtBlock) : (s.setBlk n b).life = s.life := rfl
@[simp] theorem setBlk_st (s : State) (n : Nat) (b : EvtBlock) : (s.setBlk n b).st = s.st := rfl
@[simp] theorem setBlk_pw (s : State) (n : Nat) (b : EvtBlock) : (s.setBlk n b).pw = s.pw := rfl
@[simp] theorem setBlk_tm (s : State) (n : Nat) (b : EvtBlock) : (s.setBlk n b).tm = s.tm := rfl
@[simp] theorem setBlk_pl (s : State) (n : Nat) (b : EvtBlock) : (s.setBlk n b).pl = s.pl := rfl
@[simp] theorem setBlk_cr (s : State) (n : Nat) (b : EvtBlock) : (s.setBlk n b).cr = s.cr := rfl
@[simp] theorem setBlk_ord (s : State) (n : Nat) (b : EvtBlock) : (s.setBlk n b).ord = s.ord := rfl
@[simp] theorem setBlk_fab (s : State) (n : Nat) (b : EvtBlock) : (s.setBlk n b).fab = s.fab := rfl
@[simp] theorem setBlk_seams (s : State) (n : Nat) (b : EvtBlock) : (s.setBlk n b).seams = s.seams := rfl
@[simp] theorem setBlk_mv (s : State) (n : Nat) (b : EvtBlock) : (s.setBlk n b).mv = s.mv := rfl
@[simp] theorem setBlk_gd (s : State) (n : Nat) (b : EvtBlock) : (s.setBlk n b).gd = s.gd := rfl
@[simp] theorem setBlk_out (s : State) (n : Nat) (b : EvtBlock) : (s.setBlk n b).out = s.out := rfl
@[simp] theorem setBlk_pending (s : State) (n : Nat) (b : EvtBlock) : (s.setBlk n b).pending = s.pending := rfl
theorem setBlk_ev_eq (s : State) (n : Nat) (b : EvtBlock) :
    (s.setBlk n b).ev = { s.ev with blk := KMap.set {} s.ev.blk n b } := rfl
@[simp] theorem setBlk_at_o (s : State) (n : Nat) (b : EvtBlock) (j : Nat) : (s.setBlk n b).o j = s.o j := rfl
@[simp] theorem setBlk_at_c (s : State) (n : Nat) (b : EvtBlock) (j : Nat) : (s.setBlk n b).c j = s.c j := rfl
@[simp] theorem setBlk_at_port (s : State) (n : Nat) (b : EvtBlock) (j : Nat) : (s.setBlk n b).port j = s.port j := rfl
@[simp] theorem setBlk_at_slot (s : State) (n : Nat) (b : EvtBlock) (j : Nat) : (s.setBlk n b).slot j = s.slot j := rfl
@[simp] theorem setBlk_at_vppb (s : State) (n : Nat) (b : EvtBlock) (j i' : Nat) : (s.setBlk n b).vppb j i' = s.vppb j i' := rfl
@[simp] theorem setBlk_at_binding (s : State) (n : Nat) (b : EvtBlock) (j i' : Nat) : (s.setBlk n b).binding j i' = s.binding j i' := rfl
@[simp] theorem setBlk_at_sess (s : State) (n : Nat) (b : EvtBlock) (j : Nat) : (s.setBlk n b).sess? j = s.sess? j := rfl
@[simp] theorem setBlk_at_coreAt (s : State) (n : Nat) (b : EvtBlock) (j : Nat) : (s.setBlk n b).coreAt j = s.coreAt j := rfl
@[simp] theorem setBlk_at_slice (s : State) (n : Nat) (b : EvtBlock) (j : Nat) : (s.setBlk n b).slice j = s.slice j := rfl
@[simp] theorem setBlk_at_win (s : State) (n : Nat) (b : EvtBlock) (j : Nat) : (s.setBlk n b).win j = s.win j := rfl
@[simp] theorem setBlk_at_rail (s : State) (n : Nat) (b : EvtBlock) (j : Nat) : (s.setBlk n b).rail j = s.rail j := rfl
@[simp] theorem setBlk_at_part (s : State) (n : Nat) (b : EvtBlock) (j : Nat) : (s.setBlk n b).part j = s.part j := rfl
@[simp] theorem setBlk_at_line (s : State) (n : Nat) (b : EvtBlock) (j : Nat) : (s.setBlk n b).line j = s.line j := rfl
@[simp] theorem setBlk_at_strandOf (s : State) (n : Nat) (b : EvtBlock) (j i' k' : Nat) : (s.setBlk n b).strandOf j i' k' = s.strandOf j i' k' := rfl
@[simp] theorem setBlk_at_sdir (s : State) (n : Nat) (b : EvtBlock) (j i' : Nat) : (s.setBlk n b).sdir j i' = s.sdir j i' := rfl
@[simp] theorem setBlk_at_isVcsUp (s : State) (n : Nat) (b : EvtBlock) (j : Nat) : (s.setBlk n b).isVcsUp j = s.isVcsUp j := rfl
@[simp] theorem setBlk_at_txn (s : State) (n : Nat) (b : EvtBlock) (j : Nat) : (s.setBlk n b).txn? j = s.txn? j := rfl
@[simp] theorem setBlk_at_hubHeld (s : State) (n : Nat) (b : EvtBlock) : (s.setBlk n b).hubHeld = s.hubHeld := rfl
@[simp] theorem setBlk_at_islandUp (s : State) (n : Nat) (b : EvtBlock) : (s.setBlk n b).islandUp = s.islandUp := rfl
@[simp] theorem setBlk_at_lcState (s : State) (n : Nat) (b : EvtBlock) : (s.setBlk n b).lcState = s.lcState := rfl

/-! raiseCore -/

@[simp] theorem raiseCore_now (s : State) (n cls code : Nat) (lasting : Bool) (src : Src) : (s.raiseCore n cls code lasting src).now = s.now := by unfold State.raiseCore; split <;> rfl
@[simp] theorem raiseCore_freeIx (s : State) (n cls code : Nat) (lasting : Bool) (src : Src) : (s.raiseCore n cls code lasting src).freeIx = s.freeIx := by unfold State.raiseCore; split <;> rfl
@[simp] theorem raiseCore_od (s : State) (n cls code : Nat) (lasting : Bool) (src : Src) : (s.raiseCore n cls code lasting src).od = s.od := by unfold State.raiseCore; split <;> rfl
@[simp] theorem raiseCore_csr (s : State) (n cls code : Nat) (lasting : Bool) (src : Src) : (s.raiseCore n cls code lasting src).csr = s.csr := by unfold State.raiseCore; split <;> rfl
@[simp] theorem raiseCore_mg (s : State) (n cls code : Nat) (lasting : Bool) (src : Src) : (s.raiseCore n cls code lasting src).mg = s.mg := by unfold State.raiseCore; split <;> rfl
@[simp] theorem raiseCore_gen (s : State) (n cls code : Nat) (lasting : Bool) (src : Src) : (s.raiseCore n cls code lasting src).gen = s.gen := by unfold State.raiseCore; split <;> rfl
@[simp] theorem raiseCore_life (s : State) (n cls code : Nat) (lasting : Bool) (src : Src) : (s.raiseCore n cls code lasting src).life = s.life := by unfold State.raiseCore; split <;> rfl
@[simp] theorem raiseCore_st (s : State) (n cls code : Nat) (lasting : Bool) (src : Src) : (s.raiseCore n cls code lasting src).st = s.st := by unfold State.raiseCore; split <;> rfl
@[simp] theorem raiseCore_pw (s : State) (n cls code : Nat) (lasting : Bool) (src : Src) : (s.raiseCore n cls code lasting src).pw = s.pw := by unfold State.raiseCore; split <;> rfl
@[simp] theorem raiseCore_tm (s : State) (n cls code : Nat) (lasting : Bool) (src : Src) : (s.raiseCore n cls code lasting src).tm = s.tm := by unfold State.raiseCore; split <;> rfl
@[simp] theorem raiseCore_pl (s : State) (n cls code : Nat) (lasting : Bool) (src : Src) : (s.raiseCore n cls code lasting src).pl = s.pl := by unfold State.raiseCore; split <;> rfl
@[simp] theorem raiseCore_cr (s : State) (n cls code : Nat) (lasting : Bool) (src : Src) : (s.raiseCore n cls code lasting src).cr = s.cr := by unfold State.raiseCore; split <;> rfl
@[simp] theorem raiseCore_ord (s : State) (n cls code : Nat) (lasting : Bool) (src : Src) : (s.raiseCore n cls code lasting src).ord = s.ord := by unfold State.raiseCore; split <;> rfl
@[simp] theorem raiseCore_fab (s : State) (n cls code : Nat) (lasting : Bool) (src : Src) : (s.raiseCore n cls code lasting src).fab = s.fab := by unfold State.raiseCore; split <;> rfl
@[simp] theorem raiseCore_seams (s : State) (n cls code : Nat) (lasting : Bool) (src : Src) : (s.raiseCore n cls code lasting src).seams = s.seams := by unfold State.raiseCore; split <;> rfl
@[simp] theorem raiseCore_mv (s : State) (n cls code : Nat) (lasting : Bool) (src : Src) : (s.raiseCore n cls code lasting src).mv = s.mv := by unfold State.raiseCore; split <;> rfl
@[simp] theorem raiseCore_gd (s : State) (n cls code : Nat) (lasting : Bool) (src : Src) : (s.raiseCore n cls code lasting src).gd = s.gd := by unfold State.raiseCore; split <;> rfl
@[simp] theorem raiseCore_out (s : State) (n cls code : Nat) (lasting : Bool) (src : Src) : (s.raiseCore n cls code lasting src).out = s.out := by unfold State.raiseCore; split <;> rfl
@[simp] theorem raiseCore_pending (s : State) (n cls code : Nat) (lasting : Bool) (src : Src) : (s.raiseCore n cls code lasting src).pending = s.pending := by unfold State.raiseCore; split <;> rfl
@[simp] theorem raiseCore_at_o (s : State) (n cls code : Nat) (lasting : Bool) (src : Src) (j : Nat) : (s.raiseCore n cls code lasting src).o j = s.o j := by unfold State.raiseCore; split <;> rfl
@[simp] theorem raiseCore_at_c (s : State) (n cls code : Nat) (lasting : Bool) (src : Src) (j : Nat) : (s.raiseCore n cls code lasting src).c j = s.c j := by unfold State.raiseCore; split <;> rfl
@[simp] theorem raiseCore_at_port (s : State) (n cls code : Nat) (lasting : Bool) (src : Src) (j : Nat) : (s.raiseCore n cls code lasting src).port j = s.port j := by unfold State.raiseCore; split <;> rfl
@[simp] theorem raiseCore_at_slot (s : State) (n cls code : Nat) (lasting : Bool) (src : Src) (j : Nat) : (s.raiseCore n cls code lasting src).slot j = s.slot j := by unfold State.raiseCore; split <;> rfl
@[simp] theorem raiseCore_at_vppb (s : State) (n cls code : Nat) (lasting : Bool) (src : Src) (j i' : Nat) : (s.raiseCore n cls code lasting src).vppb j i' = s.vppb j i' := by unfold State.raiseCore; split <;> rfl
@[simp] theorem raiseCore_at_binding (s : State) (n cls code : Nat) (lasting : Bool) (src : Src) (j i' : Nat) : (s.raiseCore n cls code lasting src).binding j i' = s.binding j i' := by unfold State.raiseCore; split <;> rfl
@[simp] theorem raiseCore_at_sess (s : State) (n cls code : Nat) (lasting : Bool) (src : Src) (j : Nat) : (s.raiseCore n cls code lasting src).sess? j = s.sess? j := by unfold State.raiseCore; split <;> rfl
@[simp] theorem raiseCore_at_coreAt (s : State) (n cls code : Nat) (lasting : Bool) (src : Src) (j : Nat) : (s.raiseCore n cls code lasting src).coreAt j = s.coreAt j := by unfold State.raiseCore; split <;> rfl
@[simp] theorem raiseCore_at_slice (s : State) (n cls code : Nat) (lasting : Bool) (src : Src) (j : Nat) : (s.raiseCore n cls code lasting src).slice j = s.slice j := by unfold State.raiseCore; split <;> rfl
@[simp] theorem raiseCore_at_win (s : State) (n cls code : Nat) (lasting : Bool) (src : Src) (j : Nat) : (s.raiseCore n cls code lasting src).win j = s.win j := by unfold State.raiseCore; split <;> rfl
@[simp] theorem raiseCore_at_rail (s : State) (n cls code : Nat) (lasting : Bool) (src : Src) (j : Nat) : (s.raiseCore n cls code lasting src).rail j = s.rail j := by unfold State.raiseCore; split <;> rfl
@[simp] theorem raiseCore_at_part (s : State) (n cls code : Nat) (lasting : Bool) (src : Src) (j : Nat) : (s.raiseCore n cls code lasting src).part j = s.part j := by unfold State.raiseCore; split <;> rfl
@[simp] theorem raiseCore_at_line (s : State) (n cls code : Nat) (lasting : Bool) (src : Src) (j : Nat) : (s.raiseCore n cls code lasting src).line j = s.line j := by unfold State.raiseCore; split <;> rfl
@[simp] theorem raiseCore_at_strandOf (s : State) (n cls code : Nat) (lasting : Bool) (src : Src) (j i' k' : Nat) : (s.raiseCore n cls code lasting src).strandOf j i' k' = s.strandOf j i' k' := by unfold State.raiseCore; split <;> rfl
@[simp] theorem raiseCore_at_sdir (s : State) (n cls code : Nat) (lasting : Bool) (src : Src) (j i' : Nat) : (s.raiseCore n cls code lasting src).sdir j i' = s.sdir j i' := by unfold State.raiseCore; split <;> rfl
@[simp] theorem raiseCore_at_isVcsUp (s : State) (n cls code : Nat) (lasting : Bool) (src : Src) (j : Nat) : (s.raiseCore n cls code lasting src).isVcsUp j = s.isVcsUp j := by unfold State.raiseCore; split <;> rfl
@[simp] theorem raiseCore_at_txn (s : State) (n cls code : Nat) (lasting : Bool) (src : Src) (j : Nat) : (s.raiseCore n cls code lasting src).txn? j = s.txn? j := by unfold State.raiseCore; split <;> rfl
@[simp] theorem raiseCore_at_hubHeld (s : State) (n cls code : Nat) (lasting : Bool) (src : Src) : (s.raiseCore n cls code lasting src).hubHeld = s.hubHeld := by unfold State.raiseCore; split <;> rfl
@[simp] theorem raiseCore_at_islandUp (s : State) (n cls code : Nat) (lasting : Bool) (src : Src) : (s.raiseCore n cls code lasting src).islandUp = s.islandUp := by unfold State.raiseCore; split <;> rfl
@[simp] theorem raiseCore_at_lcState (s : State) (n cls code : Nat) (lasting : Bool) (src : Src) : (s.raiseCore n cls code lasting src).lcState = s.lcState := by unfold State.raiseCore; split <;> rfl

/-! causeEnds -/

@[simp] theorem causeEnds_now (s : State) (n : Nat) : (s.causeEnds n).now = s.now := rfl
@[simp] theorem causeEnds_freeIx (s : State) (n : Nat) : (s.causeEnds n).freeIx = s.freeIx := rfl
@[simp] theorem causeEnds_od (s : State) (n : Nat) : (s.causeEnds n).od = s.od := rfl
@[simp] theorem causeEnds_csr (s : State) (n : Nat) : (s.causeEnds n).csr = s.csr := rfl
@[simp] theorem causeEnds_mg (s : State) (n : Nat) : (s.causeEnds n).mg = s.mg := rfl
@[simp] theorem causeEnds_gen (s : State) (n : Nat) : (s.causeEnds n).gen = s.gen := rfl
@[simp] theorem causeEnds_life (s : State) (n : Nat) : (s.causeEnds n).life = s.life := rfl
@[simp] theorem causeEnds_st (s : State) (n : Nat) : (s.causeEnds n).st = s.st := rfl
@[simp] theorem causeEnds_pw (s : State) (n : Nat) : (s.causeEnds n).pw = s.pw := rfl
@[simp] theorem causeEnds_tm (s : State) (n : Nat) : (s.causeEnds n).tm = s.tm := rfl
@[simp] theorem causeEnds_pl (s : State) (n : Nat) : (s.causeEnds n).pl = s.pl := rfl
@[simp] theorem causeEnds_cr (s : State) (n : Nat) : (s.causeEnds n).cr = s.cr := rfl
@[simp] theorem causeEnds_ord (s : State) (n : Nat) : (s.causeEnds n).ord = s.ord := rfl
@[simp] theorem causeEnds_fab (s : State) (n : Nat) : (s.causeEnds n).fab = s.fab := rfl
@[simp] theorem causeEnds_seams (s : State) (n : Nat) : (s.causeEnds n).seams = s.seams := rfl
@[simp] theorem causeEnds_mv (s : State) (n : Nat) : (s.causeEnds n).mv = s.mv := rfl
@[simp] theorem causeEnds_gd (s : State) (n : Nat) : (s.causeEnds n).gd = s.gd := rfl
@[simp] theorem causeEnds_out (s : State) (n : Nat) : (s.causeEnds n).out = s.out := rfl
@[simp] theorem causeEnds_pending (s : State) (n : Nat) : (s.causeEnds n).pending = s.pending := rfl
@[simp] theorem causeEnds_at_o (s : State) (n : Nat) (j : Nat) : (s.causeEnds n).o j = s.o j := rfl
@[simp] theorem causeEnds_at_c (s : State) (n : Nat) (j : Nat) : (s.causeEnds n).c j = s.c j := rfl
@[simp] theorem causeEnds_at_port (s : State) (n : Nat) (j : Nat) : (s.causeEnds n).port j = s.port j := rfl
@[simp] theorem causeEnds_at_slot (s : State) (n : Nat) (j : Nat) : (s.causeEnds n).slot j = s.slot j := rfl
@[simp] theorem causeEnds_at_vppb (s : State) (n : Nat) (j i' : Nat) : (s.causeEnds n).vppb j i' = s.vppb j i' := rfl
@[simp] theorem causeEnds_at_binding (s : State) (n : Nat) (j i' : Nat) : (s.causeEnds n).binding j i' = s.binding j i' := rfl
@[simp] theorem causeEnds_at_sess (s : State) (n : Nat) (j : Nat) : (s.causeEnds n).sess? j = s.sess? j := rfl
@[simp] theorem causeEnds_at_coreAt (s : State) (n : Nat) (j : Nat) : (s.causeEnds n).coreAt j = s.coreAt j := rfl
@[simp] theorem causeEnds_at_slice (s : State) (n : Nat) (j : Nat) : (s.causeEnds n).slice j = s.slice j := rfl
@[simp] theorem causeEnds_at_win (s : State) (n : Nat) (j : Nat) : (s.causeEnds n).win j = s.win j := rfl
@[simp] theorem causeEnds_at_rail (s : State) (n : Nat) (j : Nat) : (s.causeEnds n).rail j = s.rail j := rfl
@[simp] theorem causeEnds_at_part (s : State) (n : Nat) (j : Nat) : (s.causeEnds n).part j = s.part j := rfl
@[simp] theorem causeEnds_at_line (s : State) (n : Nat) (j : Nat) : (s.causeEnds n).line j = s.line j := rfl
@[simp] theorem causeEnds_at_strandOf (s : State) (n : Nat) (j i' k' : Nat) : (s.causeEnds n).strandOf j i' k' = s.strandOf j i' k' := rfl
@[simp] theorem causeEnds_at_sdir (s : State) (n : Nat) (j i' : Nat) : (s.causeEnds n).sdir j i' = s.sdir j i' := rfl
@[simp] theorem causeEnds_at_isVcsUp (s : State) (n : Nat) (j : Nat) : (s.causeEnds n).isVcsUp j = s.isVcsUp j := rfl
@[simp] theorem causeEnds_at_txn (s : State) (n : Nat) (j : Nat) : (s.causeEnds n).txn? j = s.txn? j := rfl
@[simp] theorem causeEnds_at_hubHeld (s : State) (n : Nat) : (s.causeEnds n).hubHeld = s.hubHeld := rfl
@[simp] theorem causeEnds_at_islandUp (s : State) (n : Nat) : (s.causeEnds n).islandUp = s.islandUp := rfl
@[simp] theorem causeEnds_at_lcState (s : State) (n : Nat) : (s.causeEnds n).lcState = s.lcState := rfl

/-! updStrand -/

@[simp] theorem updStrand_now (s : State) (sm d k : Nat) (f : Strand → Strand) : (s.updStrand sm d k f).now = s.now := rfl
@[simp] theorem updStrand_freeIx (s : State) (sm d k : Nat) (f : Strand → Strand) : (s.updStrand sm d k f).freeIx = s.freeIx := rfl
@[simp] theorem updStrand_od (s : State) (sm d k : Nat) (f : Strand → Strand) : (s.updStrand sm d k f).od = s.od := rfl
@[simp] theorem updStrand_csr (s : State) (sm d k : Nat) (f : Strand → Strand) : (s.updStrand sm d k f).csr = s.csr := rfl
@[simp] theorem updStrand_ev (s : State) (sm d k : Nat) (f : Strand → Strand) : (s.updStrand sm d k f).ev = s.ev := rfl
@[simp] theorem updStrand_mg (s : State) (sm d k : Nat) (f : Strand → Strand) : (s.updStrand sm d k f).mg = s.mg := rfl
@[simp] theorem updStrand_gen (s : State) (sm d k : Nat) (f : Strand → Strand) : (s.updStrand sm d k f).gen = s.gen := rfl
@[simp] theorem updStrand_life (s : State) (sm d k : Nat) (f : Strand → Strand) : (s.updStrand sm d k f).life = s.life := rfl
@[simp] theorem updStrand_st (s : State) (sm d k : Nat) (f : Strand → Strand) : (s.updStrand sm d k f).st = s.st := rfl
@[simp] theorem updStrand_pw (s : State) (sm d k : Nat) (f : Strand → Strand) : (s.updStrand sm d k f).pw = s.pw := rfl
@[simp] theorem updStrand_tm (s : State) (sm d k : Nat) (f : Strand → Strand) : (s.updStrand sm d k f).tm = s.tm := rfl
@[simp] theorem updStrand_pl (s : State) (sm d k : Nat) (f : Strand → Strand) : (s.updStrand sm d k f).pl = s.pl := rfl
@[simp] theorem updStrand_cr (s : State) (sm d k : Nat) (f : Strand → Strand) : (s.updStrand sm d k f).cr = s.cr := rfl
@[simp] theorem updStrand_ord (s : State) (sm d k : Nat) (f : Strand → Strand) : (s.updStrand sm d k f).ord = s.ord := rfl
@[simp] theorem updStrand_fab (s : State) (sm d k : Nat) (f : Strand → Strand) : (s.updStrand sm d k f).fab = s.fab := rfl
@[simp] theorem updStrand_mv (s : State) (sm d k : Nat) (f : Strand → Strand) : (s.updStrand sm d k f).mv = s.mv := rfl
@[simp] theorem updStrand_gd (s : State) (sm d k : Nat) (f : Strand → Strand) : (s.updStrand sm d k f).gd = s.gd := rfl
@[simp] theorem updStrand_out (s : State) (sm d k : Nat) (f : Strand → Strand) : (s.updStrand sm d k f).out = s.out := rfl
@[simp] theorem updStrand_pending (s : State) (sm d k : Nat) (f : Strand → Strand) : (s.updStrand sm d k f).pending = s.pending := rfl
theorem updStrand_seams_eq (s : State) (sm d k : Nat) (f : Strand → Strand) :
    (s.updStrand sm d k f).seams = { s.seams with strand := KMap.upd {} s.seams.strand ((sm * 2 + d) * 9 + k) f } := rfl
@[simp] theorem updStrand_at_o (s : State) (sm d k : Nat) (f : Strand → Strand) (j : Nat) : (s.updStrand sm d k f).o j = s.o j := rfl
@[simp] theorem updStrand_at_c (s : State) (sm d k : Nat) (f : Strand → Strand) (j : Nat) : (s.updStrand sm d k f).c j = s.c j := rfl
@[simp] theorem updStrand_at_blk (s : State) (sm d k : Nat) (f : Strand → Strand) (j : Nat) : (s.updStrand sm d k f).blk j = s.blk j := rfl
@[simp] theorem updStrand_at_port (s : State) (sm d k : Nat) (f : Strand → Strand) (j : Nat) : (s.updStrand sm d k f).port j = s.port j := rfl
@[simp] theorem updStrand_at_slot (s : State) (sm d k : Nat) (f : Strand → Strand) (j : Nat) : (s.updStrand sm d k f).slot j = s.slot j := rfl
@[simp] theorem updStrand_at_vppb (s : State) (sm d k : Nat) (f : Strand → Strand) (j i' : Nat) : (s.updStrand sm d k f).vppb j i' = s.vppb j i' := rfl
@[simp] theorem updStrand_at_binding (s : State) (sm d k : Nat) (f : Strand → Strand) (j i' : Nat) : (s.updStrand sm d k f).binding j i' = s.binding j i' := rfl
@[simp] theorem updStrand_at_sess (s : State) (sm d k : Nat) (f : Strand → Strand) (j : Nat) : (s.updStrand sm d k f).sess? j = s.sess? j := rfl
@[simp] theorem updStrand_at_coreAt (s : State) (sm d k : Nat) (f : Strand → Strand) (j : Nat) : (s.updStrand sm d k f).coreAt j = s.coreAt j := rfl
@[simp] theorem updStrand_at_slice (s : State) (sm d k : Nat) (f : Strand → Strand) (j : Nat) : (s.updStrand sm d k f).slice j = s.slice j := rfl
@[simp] theorem updStrand_at_win (s : State) (sm d k : Nat) (f : Strand → Strand) (j : Nat) : (s.updStrand sm d k f).win j = s.win j := rfl
@[simp] theorem updStrand_at_rail (s : State) (sm d k : Nat) (f : Strand → Strand) (j : Nat) : (s.updStrand sm d k f).rail j = s.rail j := rfl
@[simp] theorem updStrand_at_part (s : State) (sm d k : Nat) (f : Strand → Strand) (j : Nat) : (s.updStrand sm d k f).part j = s.part j := rfl
@[simp] theorem updStrand_at_line (s : State) (sm d k : Nat) (f : Strand → Strand) (j : Nat) : (s.updStrand sm d k f).line j = s.line j := rfl
@[simp] theorem updStrand_at_isVcsUp (s : State) (sm d k : Nat) (f : Strand → Strand) (j : Nat) : (s.updStrand sm d k f).isVcsUp j = s.isVcsUp j := rfl
@[simp] theorem updStrand_at_txn (s : State) (sm d k : Nat) (f : Strand → Strand) (j : Nat) : (s.updStrand sm d k f).txn? j = s.txn? j := rfl
@[simp] theorem updStrand_at_hubHeld (s : State) (sm d k : Nat) (f : Strand → Strand) : (s.updStrand sm d k f).hubHeld = s.hubHeld := rfl
@[simp] theorem updStrand_at_islandUp (s : State) (sm d k : Nat) (f : Strand → Strand) : (s.updStrand sm d k f).islandUp = s.islandUp := rfl
@[simp] theorem updStrand_at_lcState (s : State) (sm d k : Nat) (f : Strand → Strand) : (s.updStrand sm d k f).lcState = s.lcState := rfl

/-! updPort -/

@[simp] theorem updPort_now (s : State) (p : Nat) (f : Port → Port) : (s.updPort p f).now = s.now := rfl
@[simp] theorem updPort_freeIx (s : State) (p : Nat) (f : Port → Port) : (s.updPort p f).freeIx = s.freeIx := rfl
@[simp] theorem updPort_od (s : State) (p : Nat) (f : Port → Port) : (s.updPort p f).od = s.od := rfl
@[simp] theorem updPort_csr (s : State) (p : Nat) (f : Port → Port) : (s.updPort p f).csr = s.csr := rfl
@[simp] theorem updPort_ev (s : State) (p : Nat) (f : Port → Port) : (s.updPort p f).ev = s.ev := rfl
@[simp] theorem updPort_mg (s : State) (p : Nat) (f : Port → Port) : (s.updPort p f).mg = s.mg := rfl
@[simp] theorem updPort_gen (s : State) (p : Nat) (f : Port → Port) : (s.updPort p f).gen = s.gen := rfl
@[simp] theorem updPort_life (s : State) (p : Nat) (f : Port → Port) : (s.updPort p f).life = s.life := rfl
@[simp] theorem updPort_st (s : State) (p : Nat) (f : Port → Port) : (s.updPort p f).st = s.st := rfl
@[simp] theorem updPort_pw (s : State) (p : Nat) (f : Port → Port) : (s.updPort p f).pw = s.pw := rfl
@[simp] theorem updPort_tm (s : State) (p : Nat) (f : Port → Port) : (s.updPort p f).tm = s.tm := rfl
@[simp] theorem updPort_pl (s : State) (p : Nat) (f : Port → Port) : (s.updPort p f).pl = s.pl := rfl
@[simp] theorem updPort_cr (s : State) (p : Nat) (f : Port → Port) : (s.updPort p f).cr = s.cr := rfl
@[simp] theorem updPort_ord (s : State) (p : Nat) (f : Port → Port) : (s.updPort p f).ord = s.ord := rfl
@[simp] theorem updPort_seams (s : State) (p : Nat) (f : Port → Port) : (s.updPort p f).seams = s.seams := rfl
@[simp] theorem updPort_mv (s : State) (p : Nat) (f : Port → Port) : (s.updPort p f).mv = s.mv := rfl
@[simp] theorem updPort_gd (s : State) (p : Nat) (f : Port → Port) : (s.updPort p f).gd = s.gd := rfl
@[simp] theorem updPort_out (s : State) (p : Nat) (f : Port → Port) : (s.updPort p f).out = s.out := rfl
@[simp] theorem updPort_pending (s : State) (p : Nat) (f : Port → Port) : (s.updPort p f).pending = s.pending := rfl
theorem updPort_fab_eq (s : State) (p : Nat) (f : Port → Port) :
    (s.updPort p f).fab = { s.fab with port := KMap.upd {} s.fab.port p f } := rfl
@[simp] theorem updPort_at_o (s : State) (p : Nat) (f : Port → Port) (j : Nat) : (s.updPort p f).o j = s.o j := rfl
@[simp] theorem updPort_at_c (s : State) (p : Nat) (f : Port → Port) (j : Nat) : (s.updPort p f).c j = s.c j := rfl
@[simp] theorem updPort_at_blk (s : State) (p : Nat) (f : Port → Port) (j : Nat) : (s.updPort p f).blk j = s.blk j := rfl
@[simp] theorem updPort_at_slot (s : State) (p : Nat) (f : Port → Port) (j : Nat) : (s.updPort p f).slot j = s.slot j := rfl
@[simp] theorem updPort_at_sess (s : State) (p : Nat) (f : Port → Port) (j : Nat) : (s.updPort p f).sess? j = s.sess? j := rfl
@[simp] theorem updPort_at_coreAt (s : State) (p : Nat) (f : Port → Port) (j : Nat) : (s.updPort p f).coreAt j = s.coreAt j := rfl
@[simp] theorem updPort_at_slice (s : State) (p : Nat) (f : Port → Port) (j : Nat) : (s.updPort p f).slice j = s.slice j := rfl
@[simp] theorem updPort_at_win (s : State) (p : Nat) (f : Port → Port) (j : Nat) : (s.updPort p f).win j = s.win j := rfl
@[simp] theorem updPort_at_rail (s : State) (p : Nat) (f : Port → Port) (j : Nat) : (s.updPort p f).rail j = s.rail j := rfl
@[simp] theorem updPort_at_part (s : State) (p : Nat) (f : Port → Port) (j : Nat) : (s.updPort p f).part j = s.part j := rfl
@[simp] theorem updPort_at_line (s : State) (p : Nat) (f : Port → Port) (j : Nat) : (s.updPort p f).line j = s.line j := rfl
@[simp] theorem updPort_at_strandOf (s : State) (p : Nat) (f : Port → Port) (j i' k' : Nat) : (s.updPort p f).strandOf j i' k' = s.strandOf j i' k' := rfl
@[simp] theorem updPort_at_sdir (s : State) (p : Nat) (f : Port → Port) (j i' : Nat) : (s.updPort p f).sdir j i' = s.sdir j i' := rfl
@[simp] theorem updPort_at_txn (s : State) (p : Nat) (f : Port → Port) (j : Nat) : (s.updPort p f).txn? j = s.txn? j := rfl
@[simp] theorem updPort_at_hubHeld (s : State) (p : Nat) (f : Port → Port) : (s.updPort p f).hubHeld = s.hubHeld := rfl
@[simp] theorem updPort_at_islandUp (s : State) (p : Nat) (f : Port → Port) : (s.updPort p f).islandUp = s.islandUp := rfl
@[simp] theorem updPort_at_lcState (s : State) (p : Nat) (f : Port → Port) : (s.updPort p f).lcState = s.lcState := rfl

/-! updSlot -/

@[simp] theorem updSlot_now (s : State) (n : Nat) (f : Slot → Slot) : (s.updSlot n f).now = s.now := rfl
@[simp] theorem updSlot_freeIx (s : State) (n : Nat) (f : Slot → Slot) : (s.updSlot n f).freeIx = s.freeIx := rfl
@[simp] theorem updSlot_od (s : State) (n : Nat) (f : Slot → Slot) : (s.updSlot n f).od = s.od := rfl
@[simp] theorem updSlot_csr (s : State) (n : Nat) (f : Slot → Slot) : (s.updSlot n f).csr = s.csr := rfl
@[simp] theorem updSlot_ev (s : State) (n : Nat) (f : Slot → Slot) : (s.updSlot n f).ev = s.ev := rfl
@[simp] theorem updSlot_mg (s : State) (n : Nat) (f : Slot → Slot) : (s.updSlot n f).mg = s.mg := rfl
@[simp] theorem updSlot_gen (s : State) (n : Nat) (f : Slot → Slot) : (s.updSlot n f).gen = s.gen := rfl
@[simp] theorem updSlot_life (s : State) (n : Nat) (f : Slot → Slot) : (s.updSlot n f).life = s.life := rfl
@[simp] theorem updSlot_st (s : State) (n : Nat) (f : Slot → Slot) : (s.updSlot n f).st = s.st := rfl
@[simp] theorem updSlot_tm (s : State) (n : Nat) (f : Slot → Slot) : (s.updSlot n f).tm = s.tm := rfl
@[simp] theorem updSlot_pl (s : State) (n : Nat) (f : Slot → Slot) : (s.updSlot n f).pl = s.pl := rfl
@[simp] theorem updSlot_cr (s : State) (n : Nat) (f : Slot → Slot) : (s.updSlot n f).cr = s.cr := rfl
@[simp] theorem updSlot_ord (s : State) (n : Nat) (f : Slot → Slot) : (s.updSlot n f).ord = s.ord := rfl
@[simp] theorem updSlot_fab (s : State) (n : Nat) (f : Slot → Slot) : (s.updSlot n f).fab = s.fab := rfl
@[simp] theorem updSlot_seams (s : State) (n : Nat) (f : Slot → Slot) : (s.updSlot n f).seams = s.seams := rfl
@[simp] theorem updSlot_mv (s : State) (n : Nat) (f : Slot → Slot) : (s.updSlot n f).mv = s.mv := rfl
@[simp] theorem updSlot_gd (s : State) (n : Nat) (f : Slot → Slot) : (s.updSlot n f).gd = s.gd := rfl
@[simp] theorem updSlot_out (s : State) (n : Nat) (f : Slot → Slot) : (s.updSlot n f).out = s.out := rfl
@[simp] theorem updSlot_pending (s : State) (n : Nat) (f : Slot → Slot) : (s.updSlot n f).pending = s.pending := rfl
theorem updSlot_pw_eq (s : State) (n : Nat) (f : Slot → Slot) :
    (s.updSlot n f).pw = { s.pw with slot := KMap.upd {} s.pw.slot n f } := rfl
@[simp] theorem updSlot_at_o (s : State) (n : Nat) (f : Slot → Slot) (j : Nat) : (s.updSlot n f).o j = s.o j := rfl
@[simp] theorem updSlot_at_c (s : State) (n : Nat) (f : Slot → Slot) (j : Nat) : (s.updSlot n f).c j = s.c j := rfl
@[simp] theorem updSlot_at_blk (s : State) (n : Nat) (f : Slot → Slot) (j : Nat) : (s.updSlot n f).blk j = s.blk j := rfl
@[simp] theorem updSlot_at_port (s : State) (n : Nat) (f : Slot → Slot) (j : Nat) : (s.updSlot n f).port j = s.port j := rfl
@[simp] theorem updSlot_at_vppb (s : State) (n : Nat) (f : Slot → Slot) (j i' : Nat) : (s.updSlot n f).vppb j i' = s.vppb j i' := rfl
@[simp] theorem updSlot_at_binding (s : State) (n : Nat) (f : Slot → Slot) (j i' : Nat) : (s.updSlot n f).binding j i' = s.binding j i' := rfl
@[simp] theorem updSlot_at_sess (s : State) (n : Nat) (f : Slot → Slot) (j : Nat) : (s.updSlot n f).sess? j = s.sess? j := rfl
@[simp] theorem updSlot_at_coreAt (s : State) (n : Nat) (f : Slot → Slot) (j : Nat) : (s.updSlot n f).coreAt j = s.coreAt j := rfl
@[simp] theorem updSlot_at_slice (s : State) (n : Nat) (f : Slot → Slot) (j : Nat) : (s.updSlot n f).slice j = s.slice j := rfl
@[simp] theorem updSlot_at_win (s : State) (n : Nat) (f : Slot → Slot) (j : Nat) : (s.updSlot n f).win j = s.win j := rfl
@[simp] theorem updSlot_at_part (s : State) (n : Nat) (f : Slot → Slot) (j : Nat) : (s.updSlot n f).part j = s.part j := rfl
@[simp] theorem updSlot_at_line (s : State) (n : Nat) (f : Slot → Slot) (j : Nat) : (s.updSlot n f).line j = s.line j := rfl
@[simp] theorem updSlot_at_strandOf (s : State) (n : Nat) (f : Slot → Slot) (j i' k' : Nat) : (s.updSlot n f).strandOf j i' k' = s.strandOf j i' k' := rfl
@[simp] theorem updSlot_at_sdir (s : State) (n : Nat) (f : Slot → Slot) (j i' : Nat) : (s.updSlot n f).sdir j i' = s.sdir j i' := rfl
@[simp] theorem updSlot_at_isVcsUp (s : State) (n : Nat) (f : Slot → Slot) (j : Nat) : (s.updSlot n f).isVcsUp j = s.isVcsUp j := rfl
@[simp] theorem updSlot_at_txn (s : State) (n : Nat) (f : Slot → Slot) (j : Nat) : (s.updSlot n f).txn? j = s.txn? j := rfl
@[simp] theorem updSlot_at_hubHeld (s : State) (n : Nat) (f : Slot → Slot) : (s.updSlot n f).hubHeld = s.hubHeld := rfl
@[simp] theorem updSlot_at_islandUp (s : State) (n : Nat) (f : Slot → Slot) : (s.updSlot n f).islandUp = s.islandUp := rfl
@[simp] theorem updSlot_at_lcState (s : State) (n : Nat) (f : Slot → Slot) : (s.updSlot n f).lcState = s.lcState := rfl

/-! updVppb -/

@[simp] theorem updVppb_now (s : State) (n v : Nat) (f : Vppb → Vppb) : (s.updVppb n v f).now = s.now := rfl
@[simp] theorem updVppb_freeIx (s : State) (n v : Nat) (f : Vppb → Vppb) : (s.updVppb n v f).freeIx = s.freeIx := rfl
@[simp] theorem updVppb_od (s : State) (n v : Nat) (f : Vppb → Vppb) : (s.updVppb n v f).od = s.od := rfl
@[simp] theorem updVppb_csr (s : State) (n v : Nat) (f : Vppb → Vppb) : (s.updVppb n v f).csr = s.csr := rfl
@[simp] theorem updVppb_ev (s : State) (n v : Nat) (f : Vppb → Vppb) : (s.updVppb n v f).ev = s.ev := rfl
@[simp] theorem updVppb_mg (s : State) (n v : Nat) (f : Vppb → Vppb) : (s.updVppb n v f).mg = s.mg := rfl
@[simp] theorem updVppb_gen (s : State) (n v : Nat) (f : Vppb → Vppb) : (s.updVppb n v f).gen = s.gen := rfl
@[simp] theorem updVppb_life (s : State) (n v : Nat) (f : Vppb → Vppb) : (s.updVppb n v f).life = s.life := rfl
@[simp] theorem updVppb_st (s : State) (n v : Nat) (f : Vppb → Vppb) : (s.updVppb n v f).st = s.st := rfl
@[simp] theorem updVppb_pw (s : State) (n v : Nat) (f : Vppb → Vppb) : (s.updVppb n v f).pw = s.pw := rfl
@[simp] theorem updVppb_tm (s : State) (n v : Nat) (f : Vppb → Vppb) : (s.updVppb n v f).tm = s.tm := rfl
@[simp] theorem updVppb_pl (s : State) (n v : Nat) (f : Vppb → Vppb) : (s.updVppb n v f).pl = s.pl := rfl
@[simp] theorem updVppb_cr (s : State) (n v : Nat) (f : Vppb → Vppb) : (s.updVppb n v f).cr = s.cr := rfl
@[simp] theorem updVppb_ord (s : State) (n v : Nat) (f : Vppb → Vppb) : (s.updVppb n v f).ord = s.ord := rfl
@[simp] theorem updVppb_seams (s : State) (n v : Nat) (f : Vppb → Vppb) : (s.updVppb n v f).seams = s.seams := rfl
@[simp] theorem updVppb_mv (s : State) (n v : Nat) (f : Vppb → Vppb) : (s.updVppb n v f).mv = s.mv := rfl
@[simp] theorem updVppb_gd (s : State) (n v : Nat) (f : Vppb → Vppb) : (s.updVppb n v f).gd = s.gd := rfl
@[simp] theorem updVppb_out (s : State) (n v : Nat) (f : Vppb → Vppb) : (s.updVppb n v f).out = s.out := rfl
@[simp] theorem updVppb_pending (s : State) (n v : Nat) (f : Vppb → Vppb) : (s.updVppb n v f).pending = s.pending := rfl
theorem updVppb_fab_eq (s : State) (n v : Nat) (f : Vppb → Vppb) :
    (s.updVppb n v f).fab = { s.fab with vppb := KMap.upd {} s.fab.vppb (n * 64 + v) f } := rfl
@[simp] theorem updVppb_at_o (s : State) (n v : Nat) (f : Vppb → Vppb) (j : Nat) : (s.updVppb n v f).o j = s.o j := rfl
@[simp] theorem updVppb_at_c (s : State) (n v : Nat) (f : Vppb → Vppb) (j : Nat) : (s.updVppb n v f).c j = s.c j := rfl
@[simp] theorem updVppb_at_blk (s : State) (n v : Nat) (f : Vppb → Vppb) (j : Nat) : (s.updVppb n v f).blk j = s.blk j := rfl
@[simp] theorem updVppb_at_slot (s : State) (n v : Nat) (f : Vppb → Vppb) (j : Nat) : (s.updVppb n v f).slot j = s.slot j := rfl
@[simp] theorem updVppb_at_sess (s : State) (n v : Nat) (f : Vppb → Vppb) (j : Nat) : (s.updVppb n v f).sess? j = s.sess? j := rfl
@[simp] theorem updVppb_at_coreAt (s : State) (n v : Nat) (f : Vppb → Vppb) (j : Nat) : (s.updVppb n v f).coreAt j = s.coreAt j := rfl
@[simp] theorem updVppb_at_slice (s : State) (n v : Nat) (f : Vppb → Vppb) (j : Nat) : (s.updVppb n v f).slice j = s.slice j := rfl
@[simp] theorem updVppb_at_win (s : State) (n v : Nat) (f : Vppb → Vppb) (j : Nat) : (s.updVppb n v f).win j = s.win j := rfl
@[simp] theorem updVppb_at_rail (s : State) (n v : Nat) (f : Vppb → Vppb) (j : Nat) : (s.updVppb n v f).rail j = s.rail j := rfl
@[simp] theorem updVppb_at_part (s : State) (n v : Nat) (f : Vppb → Vppb) (j : Nat) : (s.updVppb n v f).part j = s.part j := rfl
@[simp] theorem updVppb_at_line (s : State) (n v : Nat) (f : Vppb → Vppb) (j : Nat) : (s.updVppb n v f).line j = s.line j := rfl
@[simp] theorem updVppb_at_strandOf (s : State) (n v : Nat) (f : Vppb → Vppb) (j i' k' : Nat) : (s.updVppb n v f).strandOf j i' k' = s.strandOf j i' k' := rfl
@[simp] theorem updVppb_at_sdir (s : State) (n v : Nat) (f : Vppb → Vppb) (j i' : Nat) : (s.updVppb n v f).sdir j i' = s.sdir j i' := rfl
@[simp] theorem updVppb_at_txn (s : State) (n v : Nat) (f : Vppb → Vppb) (j : Nat) : (s.updVppb n v f).txn? j = s.txn? j := rfl
@[simp] theorem updVppb_at_hubHeld (s : State) (n v : Nat) (f : Vppb → Vppb) : (s.updVppb n v f).hubHeld = s.hubHeld := rfl
@[simp] theorem updVppb_at_islandUp (s : State) (n v : Nat) (f : Vppb → Vppb) : (s.updVppb n v f).islandUp = s.islandUp := rfl
@[simp] theorem updVppb_at_lcState (s : State) (n v : Nat) (f : Vppb → Vppb) : (s.updVppb n v f).lcState = s.lcState := rfl

/-! updSess -/

@[simp] theorem updSess_now (s : State) (sid : Nat) (f : Session → Session) : (s.updSess sid f).now = s.now := rfl
@[simp] theorem updSess_freeIx (s : State) (sid : Nat) (f : Session → Session) : (s.updSess sid f).freeIx = s.freeIx := rfl
@[simp] theorem updSess_od (s : State) (sid : Nat) (f : Session → Session) : (s.updSess sid f).od = s.od := rfl
@[simp] theorem updSess_csr (s : State) (sid : Nat) (f : Session → Session) : (s.updSess sid f).csr = s.csr := rfl
@[simp] theorem updSess_ev (s : State) (sid : Nat) (f : Session → Session) : (s.updSess sid f).ev = s.ev := rfl
@[simp] theorem updSess_gen (s : State) (sid : Nat) (f : Session → Session) : (s.updSess sid f).gen = s.gen := rfl
@[simp] theorem updSess_life (s : State) (sid : Nat) (f : Session → Session) : (s.updSess sid f).life = s.life := rfl
@[simp] theorem updSess_st (s : State) (sid : Nat) (f : Session → Session) : (s.updSess sid f).st = s.st := rfl
@[simp] theorem updSess_pw (s : State) (sid : Nat) (f : Session → Session) : (s.updSess sid f).pw = s.pw := rfl
@[simp] theorem updSess_tm (s : State) (sid : Nat) (f : Session → Session) : (s.updSess sid f).tm = s.tm := rfl
@[simp] theorem updSess_pl (s : State) (sid : Nat) (f : Session → Session) : (s.updSess sid f).pl = s.pl := rfl
@[simp] theorem updSess_cr (s : State) (sid : Nat) (f : Session → Session) : (s.updSess sid f).cr = s.cr := rfl
@[simp] theorem updSess_ord (s : State) (sid : Nat) (f : Session → Session) : (s.updSess sid f).ord = s.ord := rfl
@[simp] theorem updSess_fab (s : State) (sid : Nat) (f : Session → Session) : (s.updSess sid f).fab = s.fab := rfl
@[simp] theorem updSess_seams (s : State) (sid : Nat) (f : Session → Session) : (s.updSess sid f).seams = s.seams := rfl
@[simp] theorem updSess_mv (s : State) (sid : Nat) (f : Session → Session) : (s.updSess sid f).mv = s.mv := rfl
@[simp] theorem updSess_gd (s : State) (sid : Nat) (f : Session → Session) : (s.updSess sid f).gd = s.gd := rfl
@[simp] theorem updSess_out (s : State) (sid : Nat) (f : Session → Session) : (s.updSess sid f).out = s.out := rfl
@[simp] theorem updSess_pending (s : State) (sid : Nat) (f : Session → Session) : (s.updSess sid f).pending = s.pending := rfl
theorem updSess_mg_eq (s : State) (sid : Nat) (f : Session → Session) :
    (s.updSess sid f).mg = { s.mg with sess := KMap.upd none s.mg.sess sid (Option.map f) } := rfl
@[simp] theorem updSess_at_o (s : State) (sid : Nat) (f : Session → Session) (j : Nat) : (s.updSess sid f).o j = s.o j := rfl
@[simp] theorem updSess_at_c (s : State) (sid : Nat) (f : Session → Session) (j : Nat) : (s.updSess sid f).c j = s.c j := rfl
@[simp] theorem updSess_at_blk (s : State) (sid : Nat) (f : Session → Session) (j : Nat) : (s.updSess sid f).blk j = s.blk j := rfl
@[simp] theorem updSess_at_port (s : State) (sid : Nat) (f : Session → Session) (j : Nat) : (s.updSess sid f).port j = s.port j := rfl
@[simp] theorem updSess_at_slot (s : State) (sid : Nat) (f : Session → Session) (j : Nat) : (s.updSess sid f).slot j = s.slot j := rfl
@[simp] theorem updSess_at_vppb (s : State) (sid : Nat) (f : Session → Session) (j i' : Nat) : (s.updSess sid f).vppb j i' = s.vppb j i' := rfl
@[simp] theorem updSess_at_binding (s : State) (sid : Nat) (f : Session → Session) (j i' : Nat) : (s.updSess sid f).binding j i' = s.binding j i' := rfl
@[simp] theorem updSess_at_coreAt (s : State) (sid : Nat) (f : Session → Session) (j : Nat) : (s.updSess sid f).coreAt j = s.coreAt j := rfl
@[simp] theorem updSess_at_slice (s : State) (sid : Nat) (f : Session → Session) (j : Nat) : (s.updSess sid f).slice j = s.slice j := rfl
@[simp] theorem updSess_at_win (s : State) (sid : Nat) (f : Session → Session) (j : Nat) : (s.updSess sid f).win j = s.win j := rfl
@[simp] theorem updSess_at_rail (s : State) (sid : Nat) (f : Session → Session) (j : Nat) : (s.updSess sid f).rail j = s.rail j := rfl
@[simp] theorem updSess_at_part (s : State) (sid : Nat) (f : Session → Session) (j : Nat) : (s.updSess sid f).part j = s.part j := rfl
@[simp] theorem updSess_at_line (s : State) (sid : Nat) (f : Session → Session) (j : Nat) : (s.updSess sid f).line j = s.line j := rfl
@[simp] theorem updSess_at_strandOf (s : State) (sid : Nat) (f : Session → Session) (j i' k' : Nat) : (s.updSess sid f).strandOf j i' k' = s.strandOf j i' k' := rfl
@[simp] theorem updSess_at_sdir (s : State) (sid : Nat) (f : Session → Session) (j i' : Nat) : (s.updSess sid f).sdir j i' = s.sdir j i' := rfl
@[simp] theorem updSess_at_isVcsUp (s : State) (sid : Nat) (f : Session → Session) (j : Nat) : (s.updSess sid f).isVcsUp j = s.isVcsUp j := rfl
@[simp] theorem updSess_at_txn (s : State) (sid : Nat) (f : Session → Session) (j : Nat) : (s.updSess sid f).txn? j = s.txn? j := rfl
@[simp] theorem updSess_at_hubHeld (s : State) (sid : Nat) (f : Session → Session) : (s.updSess sid f).hubHeld = s.hubHeld := rfl
@[simp] theorem updSess_at_islandUp (s : State) (sid : Nat) (f : Session → Session) : (s.updSess sid f).islandUp = s.islandUp := rfl
@[simp] theorem updSess_at_lcState (s : State) (sid : Nat) (f : Session → Session) : (s.updSess sid f).lcState = s.lcState := rfl

/-! updCore -/

@[simp] theorem updCore_now (s : State) (c : Nat) (f : SvcCore → SvcCore) : (s.updCore c f).now = s.now := rfl
@[simp] theorem updCore_freeIx (s : State) (c : Nat) (f : SvcCore → SvcCore) : (s.updCore c f).freeIx = s.freeIx := rfl
@[simp] theorem updCore_od (s : State) (c : Nat) (f : SvcCore → SvcCore) : (s.updCore c f).od = s.od := rfl
@[simp] theorem updCore_csr (s : State) (c : Nat) (f : SvcCore → SvcCore) : (s.updCore c f).csr = s.csr := rfl
@[simp] theorem updCore_ev (s : State) (c : Nat) (f : SvcCore → SvcCore) : (s.updCore c f).ev = s.ev := rfl
@[simp] theorem updCore_mg (s : State) (c : Nat) (f : SvcCore → SvcCore) : (s.updCore c f).mg = s.mg := rfl
@[simp] theorem updCore_gen (s : State) (c : Nat) (f : SvcCore → SvcCore) : (s.updCore c f).gen = s.gen := rfl
@[simp] theorem updCore_life (s : State) (c : Nat) (f : SvcCore → SvcCore) : (s.updCore c f).life = s.life := rfl
@[simp] theorem updCore_st (s : State) (c : Nat) (f : SvcCore → SvcCore) : (s.updCore c f).st = s.st := rfl
@[simp] theorem updCore_pw (s : State) (c : Nat) (f : SvcCore → SvcCore) : (s.updCore c f).pw = s.pw := rfl
@[simp] theorem updCore_tm (s : State) (c : Nat) (f : SvcCore → SvcCore) : (s.updCore c f).tm = s.tm := rfl
@[simp] theorem updCore_pl (s : State) (c : Nat) (f : SvcCore → SvcCore) : (s.updCore c f).pl = s.pl := rfl
@[simp] theorem updCore_cr (s : State) (c : Nat) (f : SvcCore → SvcCore) : (s.updCore c f).cr = s.cr := rfl
@[simp] theorem updCore_fab (s : State) (c : Nat) (f : SvcCore → SvcCore) : (s.updCore c f).fab = s.fab := rfl
@[simp] theorem updCore_seams (s : State) (c : Nat) (f : SvcCore → SvcCore) : (s.updCore c f).seams = s.seams := rfl
@[simp] theorem updCore_mv (s : State) (c : Nat) (f : SvcCore → SvcCore) : (s.updCore c f).mv = s.mv := rfl
@[simp] theorem updCore_gd (s : State) (c : Nat) (f : SvcCore → SvcCore) : (s.updCore c f).gd = s.gd := rfl
@[simp] theorem updCore_out (s : State) (c : Nat) (f : SvcCore → SvcCore) : (s.updCore c f).out = s.out := rfl
@[simp] theorem updCore_pending (s : State) (c : Nat) (f : SvcCore → SvcCore) : (s.updCore c f).pending = s.pending := rfl
theorem updCore_ord_eq (s : State) (c : Nat) (f : SvcCore → SvcCore) :
    (s.updCore c f).ord = { s.ord with core := KMap.upd {} s.ord.core c f } := rfl
@[simp] theorem updCore_at_o (s : State) (c : Nat) (f : SvcCore → SvcCore) (j : Nat) : (s.updCore c f).o j = s.o j := rfl
@[simp] theorem updCore_at_c (s : State) (c : Nat) (f : SvcCore → SvcCore) (j : Nat) : (s.updCore c f).c j = s.c j := rfl
@[simp] theorem updCore_at_blk (s : State) (c : Nat) (f : SvcCore → SvcCore) (j : Nat) : (s.updCore c f).blk j = s.blk j := rfl
@[simp] theorem updCore_at_port (s : State) (c : Nat) (f : SvcCore → SvcCore) (j : Nat) : (s.updCore c f).port j = s.port j := rfl
@[simp] theorem updCore_at_slot (s : State) (c : Nat) (f : SvcCore → SvcCore) (j : Nat) : (s.updCore c f).slot j = s.slot j := rfl
@[simp] theorem updCore_at_vppb (s : State) (c : Nat) (f : SvcCore → SvcCore) (j i' : Nat) : (s.updCore c f).vppb j i' = s.vppb j i' := rfl
@[simp] theorem updCore_at_binding (s : State) (c : Nat) (f : SvcCore → SvcCore) (j i' : Nat) : (s.updCore c f).binding j i' = s.binding j i' := rfl
@[simp] theorem updCore_at_sess (s : State) (c : Nat) (f : SvcCore → SvcCore) (j : Nat) : (s.updCore c f).sess? j = s.sess? j := rfl
@[simp] theorem updCore_at_slice (s : State) (c : Nat) (f : SvcCore → SvcCore) (j : Nat) : (s.updCore c f).slice j = s.slice j := rfl
@[simp] theorem updCore_at_win (s : State) (c : Nat) (f : SvcCore → SvcCore) (j : Nat) : (s.updCore c f).win j = s.win j := rfl
@[simp] theorem updCore_at_rail (s : State) (c : Nat) (f : SvcCore → SvcCore) (j : Nat) : (s.updCore c f).rail j = s.rail j := rfl
@[simp] theorem updCore_at_part (s : State) (c : Nat) (f : SvcCore → SvcCore) (j : Nat) : (s.updCore c f).part j = s.part j := rfl
@[simp] theorem updCore_at_line (s : State) (c : Nat) (f : SvcCore → SvcCore) (j : Nat) : (s.updCore c f).line j = s.line j := rfl
@[simp] theorem updCore_at_strandOf (s : State) (c : Nat) (f : SvcCore → SvcCore) (j i' k' : Nat) : (s.updCore c f).strandOf j i' k' = s.strandOf j i' k' := rfl
@[simp] theorem updCore_at_sdir (s : State) (c : Nat) (f : SvcCore → SvcCore) (j i' : Nat) : (s.updCore c f).sdir j i' = s.sdir j i' := rfl
@[simp] theorem updCore_at_isVcsUp (s : State) (c : Nat) (f : SvcCore → SvcCore) (j : Nat) : (s.updCore c f).isVcsUp j = s.isVcsUp j := rfl
@[simp] theorem updCore_at_hubHeld (s : State) (c : Nat) (f : SvcCore → SvcCore) : (s.updCore c f).hubHeld = s.hubHeld := rfl
@[simp] theorem updCore_at_islandUp (s : State) (c : Nat) (f : SvcCore → SvcCore) : (s.updCore c f).islandUp = s.islandUp := rfl
@[simp] theorem updCore_at_lcState (s : State) (c : Nat) (f : SvcCore → SvcCore) : (s.updCore c f).lcState = s.lcState := rfl

/-! updSlice -/

@[simp] theorem updSlice_now (s : State) (n : Nat) (f : Slice → Slice) : (s.updSlice n f).now = s.now := rfl
@[simp] theorem updSlice_freeIx (s : State) (n : Nat) (f : Slice → Slice) : (s.updSlice n f).freeIx = s.freeIx := rfl
@[simp] theorem updSlice_od (s : State) (n : Nat) (f : Slice → Slice) : (s.updSlice n f).od = s.od := rfl
@[simp] theorem updSlice_csr (s : State) (n : Nat) (f : Slice → Slice) : (s.updSlice n f).csr = s.csr := rfl
@[simp] theorem updSlice_ev (s : State) (n : Nat) (f : Slice → Slice) : (s.updSlice n f).ev = s.ev := rfl
@[simp] theorem updSlice_mg (s : State) (n : Nat) (f : Slice → Slice) : (s.updSlice n f).mg = s.mg := rfl
@[simp] theorem updSlice_gen (s : State) (n : Nat) (f : Slice → Slice) : (s.updSlice n f).gen = s.gen := rfl
@[simp] theorem updSlice_life (s : State) (n : Nat) (f : Slice → Slice) : (s.updSlice n f).life = s.life := rfl
@[simp] theorem updSlice_st (s : State) (n : Nat) (f : Slice → Slice) : (s.updSlice n f).st = s.st := rfl
@[simp] theorem updSlice_pw (s : State) (n : Nat) (f : Slice → Slice) : (s.updSlice n f).pw = s.pw := rfl
@[simp] theorem updSlice_tm (s : State) (n : Nat) (f : Slice → Slice) : (s.updSlice n f).tm = s.tm := rfl
@[simp] theorem updSlice_pl (s : State) (n : Nat) (f : Slice → Slice) : (s.updSlice n f).pl = s.pl := rfl
@[simp] theorem updSlice_cr (s : State) (n : Nat) (f : Slice → Slice) : (s.updSlice n f).cr = s.cr := rfl
@[simp] theorem updSlice_ord (s : State) (n : Nat) (f : Slice → Slice) : (s.updSlice n f).ord = s.ord := rfl
@[simp] theorem updSlice_fab (s : State) (n : Nat) (f : Slice → Slice) : (s.updSlice n f).fab = s.fab := rfl
@[simp] theorem updSlice_seams (s : State) (n : Nat) (f : Slice → Slice) : (s.updSlice n f).seams = s.seams := rfl
@[simp] theorem updSlice_gd (s : State) (n : Nat) (f : Slice → Slice) : (s.updSlice n f).gd = s.gd := rfl
@[simp] theorem updSlice_out (s : State) (n : Nat) (f : Slice → Slice) : (s.updSlice n f).out = s.out := rfl
@[simp] theorem updSlice_pending (s : State) (n : Nat) (f : Slice → Slice) : (s.updSlice n f).pending = s.pending := rfl
theorem updSlice_mv_eq (s : State) (n : Nat) (f : Slice → Slice) :
    (s.updSlice n f).mv = { s.mv with slice := KMap.upd {} s.mv.slice n f } := rfl
@[simp] theorem updSlice_at_o (s : State) (n : Nat) (f : Slice → Slice) (j : Nat) : (s.updSlice n f).o j = s.o j := rfl
@[simp] theorem updSlice_at_c (s : State) (n : Nat) (f : Slice → Slice) (j : Nat) : (s.updSlice n f).c j = s.c j := rfl
@[simp] theorem updSlice_at_blk (s : State) (n : Nat) (f : Slice → Slice) (j : Nat) : (s.updSlice n f).blk j = s.blk j := rfl
@[simp] theorem updSlice_at_port (s : State) (n : Nat) (f : Slice → Slice) (j : Nat) : (s.updSlice n f).port j = s.port j := rfl
@[simp] theorem updSlice_at_slot (s : State) (n : Nat) (f : Slice → Slice) (j : Nat) : (s.updSlice n f).slot j = s.slot j := rfl
@[simp] theorem updSlice_at_vppb (s : State) (n : Nat) (f : Slice → Slice) (j i' : Nat) : (s.updSlice n f).vppb j i' = s.vppb j i' := rfl
@[simp] theorem updSlice_at_binding (s : State) (n : Nat) (f : Slice → Slice) (j i' : Nat) : (s.updSlice n f).binding j i' = s.binding j i' := rfl
@[simp] theorem updSlice_at_sess (s : State) (n : Nat) (f : Slice → Slice) (j : Nat) : (s.updSlice n f).sess? j = s.sess? j := rfl
@[simp] theorem updSlice_at_coreAt (s : State) (n : Nat) (f : Slice → Slice) (j : Nat) : (s.updSlice n f).coreAt j = s.coreAt j := rfl
@[simp] theorem updSlice_at_win (s : State) (n : Nat) (f : Slice → Slice) (j : Nat) : (s.updSlice n f).win j = s.win j := rfl
@[simp] theorem updSlice_at_rail (s : State) (n : Nat) (f : Slice → Slice) (j : Nat) : (s.updSlice n f).rail j = s.rail j := rfl
@[simp] theorem updSlice_at_part (s : State) (n : Nat) (f : Slice → Slice) (j : Nat) : (s.updSlice n f).part j = s.part j := rfl
@[simp] theorem updSlice_at_line (s : State) (n : Nat) (f : Slice → Slice) (j : Nat) : (s.updSlice n f).line j = s.line j := rfl
@[simp] theorem updSlice_at_strandOf (s : State) (n : Nat) (f : Slice → Slice) (j i' k' : Nat) : (s.updSlice n f).strandOf j i' k' = s.strandOf j i' k' := rfl
@[simp] theorem updSlice_at_sdir (s : State) (n : Nat) (f : Slice → Slice) (j i' : Nat) : (s.updSlice n f).sdir j i' = s.sdir j i' := rfl
@[simp] theorem updSlice_at_isVcsUp (s : State) (n : Nat) (f : Slice → Slice) (j : Nat) : (s.updSlice n f).isVcsUp j = s.isVcsUp j := rfl
@[simp] theorem updSlice_at_txn (s : State) (n : Nat) (f : Slice → Slice) (j : Nat) : (s.updSlice n f).txn? j = s.txn? j := rfl
@[simp] theorem updSlice_at_hubHeld (s : State) (n : Nat) (f : Slice → Slice) : (s.updSlice n f).hubHeld = s.hubHeld := rfl
@[simp] theorem updSlice_at_islandUp (s : State) (n : Nat) (f : Slice → Slice) : (s.updSlice n f).islandUp = s.islandUp := rfl
@[simp] theorem updSlice_at_lcState (s : State) (n : Nat) (f : Slice → Slice) : (s.updSlice n f).lcState = s.lcState := rfl

/-! updWin -/

@[simp] theorem updWin_now (s : State) (w : Nat) (f : Window → Window) : (s.updWin w f).now = s.now := rfl
@[simp] theorem updWin_freeIx (s : State) (w : Nat) (f : Window → Window) : (s.updWin w f).freeIx = s.freeIx := rfl
@[simp] theorem updWin_od (s : State) (w : Nat) (f : Window → Window) : (s.updWin w f).od = s.od := rfl
@[simp] theorem updWin_csr (s : State) (w : Nat) (f : Window → Window) : (s.updWin w f).csr = s.csr := rfl
@[simp] theorem updWin_ev (s : State) (w : Nat) (f : Window → Window) : (s.updWin w f).ev = s.ev := rfl
@[simp] theorem updWin_mg (s : State) (w : Nat) (f : Window → Window) : (s.updWin w f).mg = s.mg := rfl
@[simp] theorem updWin_gen (s : State) (w : Nat) (f : Window → Window) : (s.updWin w f).gen = s.gen := rfl
@[simp] theorem updWin_life (s : State) (w : Nat) (f : Window → Window) : (s.updWin w f).life = s.life := rfl
@[simp] theorem updWin_st (s : State) (w : Nat) (f : Window → Window) : (s.updWin w f).st = s.st := rfl
@[simp] theorem updWin_pw (s : State) (w : Nat) (f : Window → Window) : (s.updWin w f).pw = s.pw := rfl
@[simp] theorem updWin_tm (s : State) (w : Nat) (f : Window → Window) : (s.updWin w f).tm = s.tm := rfl
@[simp] theorem updWin_pl (s : State) (w : Nat) (f : Window → Window) : (s.updWin w f).pl = s.pl := rfl
@[simp] theorem updWin_ord (s : State) (w : Nat) (f : Window → Window) : (s.updWin w f).ord = s.ord := rfl
@[simp] theorem updWin_fab (s : State) (w : Nat) (f : Window → Window) : (s.updWin w f).fab = s.fab := rfl
@[simp] theorem updWin_seams (s : State) (w : Nat) (f : Window → Window) : (s.updWin w f).seams = s.seams := rfl
@[simp] theorem updWin_mv (s : State) (w : Nat) (f : Window → Window) : (s.updWin w f).mv = s.mv := rfl
@[simp] theorem updWin_gd (s : State) (w : Nat) (f : Window → Window) : (s.updWin w f).gd = s.gd := rfl
@[simp] theorem updWin_out (s : State) (w : Nat) (f : Window → Window) : (s.updWin w f).out = s.out := rfl
@[simp] theorem updWin_pending (s : State) (w : Nat) (f : Window → Window) : (s.updWin w f).pending = s.pending := rfl
theorem updWin_cr_eq (s : State) (w : Nat) (f : Window → Window) :
    (s.updWin w f).cr = { s.cr with win := KMap.upd {} s.cr.win w f } := rfl
@[simp] theorem updWin_at_o (s : State) (w : Nat) (f : Window → Window) (j : Nat) : (s.updWin w f).o j = s.o j := rfl
@[simp] theorem updWin_at_c (s : State) (w : Nat) (f : Window → Window) (j : Nat) : (s.updWin w f).c j = s.c j := rfl
@[simp] theorem updWin_at_blk (s : State) (w : Nat) (f : Window → Window) (j : Nat) : (s.updWin w f).blk j = s.blk j := rfl
@[simp] theorem updWin_at_port (s : State) (w : Nat) (f : Window → Window) (j : Nat) : (s.updWin w f).port j = s.port j := rfl
@[simp] theorem updWin_at_slot (s : State) (w : Nat) (f : Window → Window) (j : Nat) : (s.updWin w f).slot j = s.slot j := rfl
@[simp] theorem updWin_at_vppb (s : State) (w : Nat) (f : Window → Window) (j i' : Nat) : (s.updWin w f).vppb j i' = s.vppb j i' := rfl
@[simp] theorem updWin_at_binding (s : State) (w : Nat) (f : Window → Window) (j i' : Nat) : (s.updWin w f).binding j i' = s.binding j i' := rfl
@[simp] theorem updWin_at_sess (s : State) (w : Nat) (f : Window → Window) (j : Nat) : (s.updWin w f).sess? j = s.sess? j := rfl
@[simp] theorem updWin_at_coreAt (s : State) (w : Nat) (f : Window → Window) (j : Nat) : (s.updWin w f).coreAt j = s.coreAt j := rfl
@[simp] theorem updWin_at_slice (s : State) (w : Nat) (f : Window → Window) (j : Nat) : (s.updWin w f).slice j = s.slice j := rfl
@[simp] theorem updWin_at_rail (s : State) (w : Nat) (f : Window → Window) (j : Nat) : (s.updWin w f).rail j = s.rail j := rfl
@[simp] theorem updWin_at_part (s : State) (w : Nat) (f : Window → Window) (j : Nat) : (s.updWin w f).part j = s.part j := rfl
@[simp] theorem updWin_at_line (s : State) (w : Nat) (f : Window → Window) (j : Nat) : (s.updWin w f).line j = s.line j := rfl
@[simp] theorem updWin_at_strandOf (s : State) (w : Nat) (f : Window → Window) (j i' k' : Nat) : (s.updWin w f).strandOf j i' k' = s.strandOf j i' k' := rfl
@[simp] theorem updWin_at_sdir (s : State) (w : Nat) (f : Window → Window) (j i' : Nat) : (s.updWin w f).sdir j i' = s.sdir j i' := rfl
@[simp] theorem updWin_at_isVcsUp (s : State) (w : Nat) (f : Window → Window) (j : Nat) : (s.updWin w f).isVcsUp j = s.isVcsUp j := rfl
@[simp] theorem updWin_at_txn (s : State) (w : Nat) (f : Window → Window) (j : Nat) : (s.updWin w f).txn? j = s.txn? j := rfl
@[simp] theorem updWin_at_hubHeld (s : State) (w : Nat) (f : Window → Window) : (s.updWin w f).hubHeld = s.hubHeld := rfl
@[simp] theorem updWin_at_islandUp (s : State) (w : Nat) (f : Window → Window) : (s.updWin w f).islandUp = s.islandUp := rfl
@[simp] theorem updWin_at_lcState (s : State) (w : Nat) (f : Window → Window) : (s.updWin w f).lcState = s.lcState := rfl

/-! mapFences -/

@[simp] theorem mapFences_now (s : State) (g : Fence → Fence) : (s.mapFences g).now = s.now := rfl
@[simp] theorem mapFences_freeIx (s : State) (g : Fence → Fence) : (s.mapFences g).freeIx = s.freeIx := rfl
@[simp] theorem mapFences_od (s : State) (g : Fence → Fence) : (s.mapFences g).od = s.od := rfl
@[simp] theorem mapFences_csr (s : State) (g : Fence → Fence) : (s.mapFences g).csr = s.csr := rfl
@[simp] theorem mapFences_ev (s : State) (g : Fence → Fence) : (s.mapFences g).ev = s.ev := rfl
@[simp] theorem mapFences_mg (s : State) (g : Fence → Fence) : (s.mapFences g).mg = s.mg := rfl
@[simp] theorem mapFences_gen (s : State) (g : Fence → Fence) : (s.mapFences g).gen = s.gen := rfl
@[simp] theorem mapFences_life (s : State) (g : Fence → Fence) : (s.mapFences g).life = s.life := rfl
@[simp] theorem mapFences_st (s : State) (g : Fence → Fence) : (s.mapFences g).st = s.st := rfl
@[simp] theorem mapFences_pw (s : State) (g : Fence → Fence) : (s.mapFences g).pw = s.pw := rfl
@[simp] theorem mapFences_tm (s : State) (g : Fence → Fence) : (s.mapFences g).tm = s.tm := rfl
@[simp] theorem mapFences_pl (s : State) (g : Fence → Fence) : (s.mapFences g).pl = s.pl := rfl
@[simp] theorem mapFences_cr (s : State) (g : Fence → Fence) : (s.mapFences g).cr = s.cr := rfl
@[simp] theorem mapFences_fab (s : State) (g : Fence → Fence) : (s.mapFences g).fab = s.fab := rfl
@[simp] theorem mapFences_seams (s : State) (g : Fence → Fence) : (s.mapFences g).seams = s.seams := rfl
@[simp] theorem mapFences_mv (s : State) (g : Fence → Fence) : (s.mapFences g).mv = s.mv := rfl
@[simp] theorem mapFences_gd (s : State) (g : Fence → Fence) : (s.mapFences g).gd = s.gd := rfl
@[simp] theorem mapFences_out (s : State) (g : Fence → Fence) : (s.mapFences g).out = s.out := rfl
@[simp] theorem mapFences_pending (s : State) (g : Fence → Fence) : (s.mapFences g).pending = s.pending := rfl
theorem mapFences_ord_eq (s : State) (g : Fence → Fence) :
    (s.mapFences g).ord = { s.ord with fence := KMap.mapVals none (fun _ f => f.map g) s.ord.fence } := rfl
@[simp] theorem mapFences_at_o (s : State) (g : Fence → Fence) (j : Nat) : (s.mapFences g).o j = s.o j := rfl
@[simp] theorem mapFences_at_c (s : State) (g : Fence → Fence) (j : Nat) : (s.mapFences g).c j = s.c j := rfl
@[simp] theorem mapFences_at_blk (s : State) (g : Fence → Fence) (j : Nat) : (s.mapFences g).blk j = s.blk j := rfl
@[simp] theorem mapFences_at_port (s : State) (g : Fence → Fence) (j : Nat) : (s.mapFences g).port j = s.port j := rfl
@[simp] theorem mapFences_at_slot (s : State) (g : Fence → Fence) (j : Nat) : (s.mapFences g).slot j = s.slot j := rfl
@[simp] theorem mapFences_at_vppb (s : State) (g : Fence → Fence) (j i' : Nat) : (s.mapFences g).vppb j i' = s.vppb j i' := rfl
@[simp] theorem mapFences_at_binding (s : State) (g : Fence → Fence) (j i' : Nat) : (s.mapFences g).binding j i' = s.binding j i' := rfl
@[simp] theorem mapFences_at_sess (s : State) (g : Fence → Fence) (j : Nat) : (s.mapFences g).sess? j = s.sess? j := rfl
@[simp] theorem mapFences_at_slice (s : State) (g : Fence → Fence) (j : Nat) : (s.mapFences g).slice j = s.slice j := rfl
@[simp] theorem mapFences_at_win (s : State) (g : Fence → Fence) (j : Nat) : (s.mapFences g).win j = s.win j := rfl
@[simp] theorem mapFences_at_rail (s : State) (g : Fence → Fence) (j : Nat) : (s.mapFences g).rail j = s.rail j := rfl
@[simp] theorem mapFences_at_part (s : State) (g : Fence → Fence) (j : Nat) : (s.mapFences g).part j = s.part j := rfl
@[simp] theorem mapFences_at_line (s : State) (g : Fence → Fence) (j : Nat) : (s.mapFences g).line j = s.line j := rfl
@[simp] theorem mapFences_at_strandOf (s : State) (g : Fence → Fence) (j i' k' : Nat) : (s.mapFences g).strandOf j i' k' = s.strandOf j i' k' := rfl
@[simp] theorem mapFences_at_sdir (s : State) (g : Fence → Fence) (j i' : Nat) : (s.mapFences g).sdir j i' = s.sdir j i' := rfl
@[simp] theorem mapFences_at_isVcsUp (s : State) (g : Fence → Fence) (j : Nat) : (s.mapFences g).isVcsUp j = s.isVcsUp j := rfl
@[simp] theorem mapFences_at_hubHeld (s : State) (g : Fence → Fence) : (s.mapFences g).hubHeld = s.hubHeld := rfl
@[simp] theorem mapFences_at_islandUp (s : State) (g : Fence → Fence) : (s.mapFences g).islandUp = s.islandUp := rfl
@[simp] theorem mapFences_at_lcState (s : State) (g : Fence → Fence) : (s.mapFences g).lcState = s.lcState := rfl

/-! updSdir -/

@[simp] theorem updSdir_now (s : State) (sm d : Nat) (f : SeamDir → SeamDir) : (s.updSdir sm d f).now = s.now := rfl
@[simp] theorem updSdir_freeIx (s : State) (sm d : Nat) (f : SeamDir → SeamDir) : (s.updSdir sm d f).freeIx = s.freeIx := rfl
@[simp] theorem updSdir_od (s : State) (sm d : Nat) (f : SeamDir → SeamDir) : (s.updSdir sm d f).od = s.od := rfl
@[simp] theorem updSdir_csr (s : State) (sm d : Nat) (f : SeamDir → SeamDir) : (s.updSdir sm d f).csr = s.csr := rfl
@[simp] theorem updSdir_ev (s : State) (sm d : Nat) (f : SeamDir → SeamDir) : (s.updSdir sm d f).ev = s.ev := rfl
@[simp] theorem updSdir_mg (s : State) (sm d : Nat) (f : SeamDir → SeamDir) : (s.updSdir sm d f).mg = s.mg := rfl
@[simp] theorem updSdir_gen (s : State) (sm d : Nat) (f : SeamDir → SeamDir) : (s.updSdir sm d f).gen = s.gen := rfl
@[simp] theorem updSdir_life (s : State) (sm d : Nat) (f : SeamDir → SeamDir) : (s.updSdir sm d f).life = s.life := rfl
@[simp] theorem updSdir_st (s : State) (sm d : Nat) (f : SeamDir → SeamDir) : (s.updSdir sm d f).st = s.st := rfl
@[simp] theorem updSdir_pw (s : State) (sm d : Nat) (f : SeamDir → SeamDir) : (s.updSdir sm d f).pw = s.pw := rfl
@[simp] theorem updSdir_tm (s : State) (sm d : Nat) (f : SeamDir → SeamDir) : (s.updSdir sm d f).tm = s.tm := rfl
@[simp] theorem updSdir_pl (s : State) (sm d : Nat) (f : SeamDir → SeamDir) : (s.updSdir sm d f).pl = s.pl := rfl
@[simp] theorem updSdir_cr (s : State) (sm d : Nat) (f : SeamDir → SeamDir) : (s.updSdir sm d f).cr = s.cr := rfl
@[simp] theorem updSdir_ord (s : State) (sm d : Nat) (f : SeamDir → SeamDir) : (s.updSdir sm d f).ord = s.ord := rfl
@[simp] theorem updSdir_fab (s : State) (sm d : Nat) (f : SeamDir → SeamDir) : (s.updSdir sm d f).fab = s.fab := rfl
@[simp] theorem updSdir_mv (s : State) (sm d : Nat) (f : SeamDir → SeamDir) : (s.updSdir sm d f).mv = s.mv := rfl
@[simp] theorem updSdir_gd (s : State) (sm d : Nat) (f : SeamDir → SeamDir) : (s.updSdir sm d f).gd = s.gd := rfl
@[simp] theorem updSdir_out (s : State) (sm d : Nat) (f : SeamDir → SeamDir) : (s.updSdir sm d f).out = s.out := rfl
@[simp] theorem updSdir_pending (s : State) (sm d : Nat) (f : SeamDir → SeamDir) : (s.updSdir sm d f).pending = s.pending := rfl
theorem updSdir_seams_eq (s : State) (sm d : Nat) (f : SeamDir → SeamDir) :
    (s.updSdir sm d f).seams = { s.seams with dir := KMap.upd {} s.seams.dir (sm * 2 + d) f } := rfl
@[simp] theorem updSdir_at_o (s : State) (sm d : Nat) (f : SeamDir → SeamDir) (j : Nat) : (s.updSdir sm d f).o j = s.o j := rfl
@[simp] theorem updSdir_at_c (s : State) (sm d : Nat) (f : SeamDir → SeamDir) (j : Nat) : (s.updSdir sm d f).c j = s.c j := rfl
@[simp] theorem updSdir_at_blk (s : State) (sm d : Nat) (f : SeamDir → SeamDir) (j : Nat) : (s.updSdir sm d f).blk j = s.blk j := rfl
@[simp] theorem updSdir_at_port (s : State) (sm d : Nat) (f : SeamDir → SeamDir) (j : Nat) : (s.updSdir sm d f).port j = s.port j := rfl
@[simp] theorem updSdir_at_slot (s : State) (sm d : Nat) (f : SeamDir → SeamDir) (j : Nat) : (s.updSdir sm d f).slot j = s.slot j := rfl
@[simp] theorem updSdir_at_vppb (s : State) (sm d : Nat) (f : SeamDir → SeamDir) (j i' : Nat) : (s.updSdir sm d f).vppb j i' = s.vppb j i' := rfl
@[simp] theorem updSdir_at_binding (s : State) (sm d : Nat) (f : SeamDir → SeamDir) (j i' : Nat) : (s.updSdir sm d f).binding j i' = s.binding j i' := rfl
@[simp] theorem updSdir_at_sess (s : State) (sm d : Nat) (f : SeamDir → SeamDir) (j : Nat) : (s.updSdir sm d f).sess? j = s.sess? j := rfl
@[simp] theorem updSdir_at_coreAt (s : State) (sm d : Nat) (f : SeamDir → SeamDir) (j : Nat) : (s.updSdir sm d f).coreAt j = s.coreAt j := rfl
@[simp] theorem updSdir_at_slice (s : State) (sm d : Nat) (f : SeamDir → SeamDir) (j : Nat) : (s.updSdir sm d f).slice j = s.slice j := rfl
@[simp] theorem updSdir_at_win (s : State) (sm d : Nat) (f : SeamDir → SeamDir) (j : Nat) : (s.updSdir sm d f).win j = s.win j := rfl
@[simp] theorem updSdir_at_rail (s : State) (sm d : Nat) (f : SeamDir → SeamDir) (j : Nat) : (s.updSdir sm d f).rail j = s.rail j := rfl
@[simp] theorem updSdir_at_part (s : State) (sm d : Nat) (f : SeamDir → SeamDir) (j : Nat) : (s.updSdir sm d f).part j = s.part j := rfl
@[simp] theorem updSdir_at_line (s : State) (sm d : Nat) (f : SeamDir → SeamDir) (j : Nat) : (s.updSdir sm d f).line j = s.line j := rfl
@[simp] theorem updSdir_at_isVcsUp (s : State) (sm d : Nat) (f : SeamDir → SeamDir) (j : Nat) : (s.updSdir sm d f).isVcsUp j = s.isVcsUp j := rfl
@[simp] theorem updSdir_at_txn (s : State) (sm d : Nat) (f : SeamDir → SeamDir) (j : Nat) : (s.updSdir sm d f).txn? j = s.txn? j := rfl
@[simp] theorem updSdir_at_hubHeld (s : State) (sm d : Nat) (f : SeamDir → SeamDir) : (s.updSdir sm d f).hubHeld = s.hubHeld := rfl
@[simp] theorem updSdir_at_islandUp (s : State) (sm d : Nat) (f : SeamDir → SeamDir) : (s.updSdir sm d f).islandUp = s.islandUp := rfl
@[simp] theorem updSdir_at_lcState (s : State) (sm d : Nat) (f : SeamDir → SeamDir) : (s.updSdir sm d f).lcState = s.lcState := rfl

/-! updTiming -/

@[simp] theorem updTiming_now (s : State) (sm d : Nat) (f : Timing → Timing) : (s.updTiming sm d f).now = s.now := rfl
@[simp] theorem updTiming_freeIx (s : State) (sm d : Nat) (f : Timing → Timing) : (s.updTiming sm d f).freeIx = s.freeIx := rfl
@[simp] theorem updTiming_od (s : State) (sm d : Nat) (f : Timing → Timing) : (s.updTiming sm d f).od = s.od := rfl
@[simp] theorem updTiming_csr (s : State) (sm d : Nat) (f : Timing → Timing) : (s.updTiming sm d f).csr = s.csr := rfl
@[simp] theorem updTiming_ev (s : State) (sm d : Nat) (f : Timing → Timing) : (s.updTiming sm d f).ev = s.ev := rfl
@[simp] theorem updTiming_mg (s : State) (sm d : Nat) (f : Timing → Timing) : (s.updTiming sm d f).mg = s.mg := rfl
@[simp] theorem updTiming_gen (s : State) (sm d : Nat) (f : Timing → Timing) : (s.updTiming sm d f).gen = s.gen := rfl
@[simp] theorem updTiming_life (s : State) (sm d : Nat) (f : Timing → Timing) : (s.updTiming sm d f).life = s.life := rfl
@[simp] theorem updTiming_st (s : State) (sm d : Nat) (f : Timing → Timing) : (s.updTiming sm d f).st = s.st := rfl
@[simp] theorem updTiming_pw (s : State) (sm d : Nat) (f : Timing → Timing) : (s.updTiming sm d f).pw = s.pw := rfl
@[simp] theorem updTiming_tm (s : State) (sm d : Nat) (f : Timing → Timing) : (s.updTiming sm d f).tm = s.tm := rfl
@[simp] theorem updTiming_pl (s : State) (sm d : Nat) (f : Timing → Timing) : (s.updTiming sm d f).pl = s.pl := rfl
@[simp] theorem updTiming_cr (s : State) (sm d : Nat) (f : Timing → Timing) : (s.updTiming sm d f).cr = s.cr := rfl
@[simp] theorem updTiming_ord (s : State) (sm d : Nat) (f : Timing → Timing) : (s.updTiming sm d f).ord = s.ord := rfl
@[simp] theorem updTiming_fab (s : State) (sm d : Nat) (f : Timing → Timing) : (s.updTiming sm d f).fab = s.fab := rfl
@[simp] theorem updTiming_mv (s : State) (sm d : Nat) (f : Timing → Timing) : (s.updTiming sm d f).mv = s.mv := rfl
@[simp] theorem updTiming_gd (s : State) (sm d : Nat) (f : Timing → Timing) : (s.updTiming sm d f).gd = s.gd := rfl
@[simp] theorem updTiming_out (s : State) (sm d : Nat) (f : Timing → Timing) : (s.updTiming sm d f).out = s.out := rfl
@[simp] theorem updTiming_pending (s : State) (sm d : Nat) (f : Timing → Timing) : (s.updTiming sm d f).pending = s.pending := rfl
theorem updTiming_seams_eq (s : State) (sm d : Nat) (f : Timing → Timing) :
    (s.updTiming sm d f).seams = { s.seams with timing := KMap.upd {} s.seams.timing (sm * 2 + d) f } := rfl
@[simp] theorem updTiming_at_o (s : State) (sm d : Nat) (f : Timing → Timing) (j : Nat) : (s.updTiming sm d f).o j = s.o j := rfl
@[simp] theorem updTiming_at_c (s : State) (sm d : Nat) (f : Timing → Timing) (j : Nat) : (s.updTiming sm d f).c j = s.c j := rfl
@[simp] theorem updTiming_at_blk (s : State) (sm d : Nat) (f : Timing → Timing) (j : Nat) : (s.updTiming sm d f).blk j = s.blk j := rfl
@[simp] theorem updTiming_at_port (s : State) (sm d : Nat) (f : Timing → Timing) (j : Nat) : (s.updTiming sm d f).port j = s.port j := rfl
@[simp] theorem updTiming_at_slot (s : State) (sm d : Nat) (f : Timing → Timing) (j : Nat) : (s.updTiming sm d f).slot j = s.slot j := rfl
@[simp] theorem updTiming_at_vppb (s : State) (sm d : Nat) (f : Timing → Timing) (j i' : Nat) : (s.updTiming sm d f).vppb j i' = s.vppb j i' := rfl
@[simp] theorem updTiming_at_binding (s : State) (sm d : Nat) (f : Timing → Timing) (j i' : Nat) : (s.updTiming sm d f).binding j i' = s.binding j i' := rfl
@[simp] theorem updTiming_at_sess (s : State) (sm d : Nat) (f : Timing → Timing) (j : Nat) : (s.updTiming sm d f).sess? j = s.sess? j := rfl
@[simp] theorem updTiming_at_coreAt (s : State) (sm d : Nat) (f : Timing → Timing) (j : Nat) : (s.updTiming sm d f).coreAt j = s.coreAt j := rfl
@[simp] theorem updTiming_at_slice (s : State) (sm d : Nat) (f : Timing → Timing) (j : Nat) : (s.updTiming sm d f).slice j = s.slice j := rfl
@[simp] theorem updTiming_at_win (s : State) (sm d : Nat) (f : Timing → Timing) (j : Nat) : (s.updTiming sm d f).win j = s.win j := rfl
@[simp] theorem updTiming_at_rail (s : State) (sm d : Nat) (f : Timing → Timing) (j : Nat) : (s.updTiming sm d f).rail j = s.rail j := rfl
@[simp] theorem updTiming_at_part (s : State) (sm d : Nat) (f : Timing → Timing) (j : Nat) : (s.updTiming sm d f).part j = s.part j := rfl
@[simp] theorem updTiming_at_line (s : State) (sm d : Nat) (f : Timing → Timing) (j : Nat) : (s.updTiming sm d f).line j = s.line j := rfl
@[simp] theorem updTiming_at_isVcsUp (s : State) (sm d : Nat) (f : Timing → Timing) (j : Nat) : (s.updTiming sm d f).isVcsUp j = s.isVcsUp j := rfl
@[simp] theorem updTiming_at_txn (s : State) (sm d : Nat) (f : Timing → Timing) (j : Nat) : (s.updTiming sm d f).txn? j = s.txn? j := rfl
@[simp] theorem updTiming_at_hubHeld (s : State) (sm d : Nat) (f : Timing → Timing) : (s.updTiming sm d f).hubHeld = s.hubHeld := rfl
@[simp] theorem updTiming_at_islandUp (s : State) (sm d : Nat) (f : Timing → Timing) : (s.updTiming sm d f).islandUp = s.islandUp := rfl
@[simp] theorem updTiming_at_lcState (s : State) (sm d : Nat) (f : Timing → Timing) : (s.updTiming sm d f).lcState = s.lcState := rfl

/-! setSched -/

@[simp] theorem setSched_now (s : State) (q : Nat) (cls : Cls) (x : Sched) : (s.setSched q cls x).now = s.now := rfl
@[simp] theorem setSched_freeIx (s : State) (q : Nat) (cls : Cls) (x : Sched) : (s.setSched q cls x).freeIx = s.freeIx := rfl
@[simp] theorem setSched_od (s : State) (q : Nat) (cls : Cls) (x : Sched) : (s.setSched q cls x).od = s.od := rfl
@[simp] theorem setSched_csr (s : State) (q : Nat) (cls : Cls) (x : Sched) : (s.setSched q cls x).csr = s.csr := rfl
@[simp] theorem setSched_ev (s : State) (q : Nat) (cls : Cls) (x : Sched) : (s.setSched q cls x).ev = s.ev := rfl
@[simp] theorem setSched_mg (s : State) (q : Nat) (cls : Cls) (x : Sched) : (s.setSched q cls x).mg = s.mg := rfl
@[simp] theorem setSched_gen (s : State) (q : Nat) (cls : Cls) (x : Sched) : (s.setSched q cls x).gen = s.gen := rfl
@[simp] theorem setSched_life (s : State) (q : Nat) (cls : Cls) (x : Sched) : (s.setSched q cls x).life = s.life := rfl
@[simp] theorem setSched_st (s : State) (q : Nat) (cls : Cls) (x : Sched) : (s.setSched q cls x).st = s.st := rfl
@[simp] theorem setSched_pw (s : State) (q : Nat) (cls : Cls) (x : Sched) : (s.setSched q cls x).pw = s.pw := rfl
@[simp] theorem setSched_tm (s : State) (q : Nat) (cls : Cls) (x : Sched) : (s.setSched q cls x).tm = s.tm := rfl
@[simp] theorem setSched_cr (s : State) (q : Nat) (cls : Cls) (x : Sched) : (s.setSched q cls x).cr = s.cr := rfl
@[simp] theorem setSched_ord (s : State) (q : Nat) (cls : Cls) (x : Sched) : (s.setSched q cls x).ord = s.ord := rfl
@[simp] theorem setSched_fab (s : State) (q : Nat) (cls : Cls) (x : Sched) : (s.setSched q cls x).fab = s.fab := rfl
@[simp] theorem setSched_seams (s : State) (q : Nat) (cls : Cls) (x : Sched) : (s.setSched q cls x).seams = s.seams := rfl
@[simp] theorem setSched_mv (s : State) (q : Nat) (cls : Cls) (x : Sched) : (s.setSched q cls x).mv = s.mv := rfl
@[simp] theorem setSched_gd (s : State) (q : Nat) (cls : Cls) (x : Sched) : (s.setSched q cls x).gd = s.gd := rfl
@[simp] theorem setSched_out (s : State) (q : Nat) (cls : Cls) (x : Sched) : (s.setSched q cls x).out = s.out := rfl
@[simp] theorem setSched_pending (s : State) (q : Nat) (cls : Cls) (x : Sched) : (s.setSched q cls x).pending = s.pending := rfl
theorem setSched_pl_eq (s : State) (q : Nat) (cls : Cls) (x : Sched) :
    (s.setSched q cls x).pl = { s.pl with sched := KMap.set {} s.pl.sched (q * 4 + clsNum cls) x } := rfl
@[simp] theorem setSched_at_o (s : State) (q : Nat) (cls : Cls) (x : Sched) (j : Nat) : (s.setSched q cls x).o j = s.o j := rfl
@[simp] theorem setSched_at_c (s : State) (q : Nat) (cls : Cls) (x : Sched) (j : Nat) : (s.setSched q cls x).c j = s.c j := rfl
@[simp] theorem setSched_at_blk (s : State) (q : Nat) (cls : Cls) (x : Sched) (j : Nat) : (s.setSched q cls x).blk j = s.blk j := rfl
@[simp] theorem setSched_at_port (s : State) (q : Nat) (cls : Cls) (x : Sched) (j : Nat) : (s.setSched q cls x).port j = s.port j := rfl
@[simp] theorem setSched_at_slot (s : State) (q : Nat) (cls : Cls) (x : Sched) (j : Nat) : (s.setSched q cls x).slot j = s.slot j := rfl
@[simp] theorem setSched_at_vppb (s : State) (q : Nat) (cls : Cls) (x : Sched) (j i' : Nat) : (s.setSched q cls x).vppb j i' = s.vppb j i' := rfl
@[simp] theorem setSched_at_binding (s : State) (q : Nat) (cls : Cls) (x : Sched) (j i' : Nat) : (s.setSched q cls x).binding j i' = s.binding j i' := rfl
@[simp] theorem setSched_at_sess (s : State) (q : Nat) (cls : Cls) (x : Sched) (j : Nat) : (s.setSched q cls x).sess? j = s.sess? j := rfl
@[simp] theorem setSched_at_coreAt (s : State) (q : Nat) (cls : Cls) (x : Sched) (j : Nat) : (s.setSched q cls x).coreAt j = s.coreAt j := rfl
@[simp] theorem setSched_at_slice (s : State) (q : Nat) (cls : Cls) (x : Sched) (j : Nat) : (s.setSched q cls x).slice j = s.slice j := rfl
@[simp] theorem setSched_at_win (s : State) (q : Nat) (cls : Cls) (x : Sched) (j : Nat) : (s.setSched q cls x).win j = s.win j := rfl
@[simp] theorem setSched_at_rail (s : State) (q : Nat) (cls : Cls) (x : Sched) (j : Nat) : (s.setSched q cls x).rail j = s.rail j := rfl
@[simp] theorem setSched_at_part (s : State) (q : Nat) (cls : Cls) (x : Sched) (j : Nat) : (s.setSched q cls x).part j = s.part j := rfl
@[simp] theorem setSched_at_line (s : State) (q : Nat) (cls : Cls) (x : Sched) (j : Nat) : (s.setSched q cls x).line j = s.line j := rfl
@[simp] theorem setSched_at_strandOf (s : State) (q : Nat) (cls : Cls) (x : Sched) (j i' k' : Nat) : (s.setSched q cls x).strandOf j i' k' = s.strandOf j i' k' := rfl
@[simp] theorem setSched_at_sdir (s : State) (q : Nat) (cls : Cls) (x : Sched) (j i' : Nat) : (s.setSched q cls x).sdir j i' = s.sdir j i' := rfl
@[simp] theorem setSched_at_isVcsUp (s : State) (q : Nat) (cls : Cls) (x : Sched) (j : Nat) : (s.setSched q cls x).isVcsUp j = s.isVcsUp j := rfl
@[simp] theorem setSched_at_txn (s : State) (q : Nat) (cls : Cls) (x : Sched) (j : Nat) : (s.setSched q cls x).txn? j = s.txn? j := rfl
@[simp] theorem setSched_at_hubHeld (s : State) (q : Nat) (cls : Cls) (x : Sched) : (s.setSched q cls x).hubHeld = s.hubHeld := rfl
@[simp] theorem setSched_at_islandUp (s : State) (q : Nat) (cls : Cls) (x : Sched) : (s.setSched q cls x).islandUp = s.islandUp := rfl
@[simp] theorem setSched_at_lcState (s : State) (q : Nat) (cls : Cls) (x : Sched) : (s.setSched q cls x).lcState = s.lcState := rfl

/-! updRail -/

@[simp] theorem updRail_now (s : State) (r : Nat) (f : Rail → Rail) : (s.updRail r f).now = s.now := rfl
@[simp] theorem updRail_freeIx (s : State) (r : Nat) (f : Rail → Rail) : (s.updRail r f).freeIx = s.freeIx := rfl
@[simp] theorem updRail_od (s : State) (r : Nat) (f : Rail → Rail) : (s.updRail r f).od = s.od := rfl
@[simp] theorem updRail_csr (s : State) (r : Nat) (f : Rail → Rail) : (s.updRail r f).csr = s.csr := rfl
@[simp] theorem updRail_ev (s : State) (r : Nat) (f : Rail → Rail) : (s.updRail r f).ev = s.ev := rfl
@[simp] theorem updRail_mg (s : State) (r : Nat) (f : Rail → Rail) : (s.updRail r f).mg = s.mg := rfl
@[simp] theorem updRail_gen (s : State) (r : Nat) (f : Rail → Rail) : (s.updRail r f).gen = s.gen := rfl
@[simp] theorem updRail_life (s : State) (r : Nat) (f : Rail → Rail) : (s.updRail r f).life = s.life := rfl
@[simp] theorem updRail_st (s : State) (r : Nat) (f : Rail → Rail) : (s.updRail r f).st = s.st := rfl
@[simp] theorem updRail_tm (s : State) (r : Nat) (f : Rail → Rail) : (s.updRail r f).tm = s.tm := rfl
@[simp] theorem updRail_pl (s : State) (r : Nat) (f : Rail → Rail) : (s.updRail r f).pl = s.pl := rfl
@[simp] theorem updRail_cr (s : State) (r : Nat) (f : Rail → Rail) : (s.updRail r f).cr = s.cr := rfl
@[simp] theorem updRail_ord (s : State) (r : Nat) (f : Rail → Rail) : (s.updRail r f).ord = s.ord := rfl
@[simp] theorem updRail_fab (s : State) (r : Nat) (f : Rail → Rail) : (s.updRail r f).fab = s.fab := rfl
@[simp] theorem updRail_seams (s : State) (r : Nat) (f : Rail → Rail) : (s.updRail r f).seams = s.seams := rfl
@[simp] theorem updRail_mv (s : State) (r : Nat) (f : Rail → Rail) : (s.updRail r f).mv = s.mv := rfl
@[simp] theorem updRail_gd (s : State) (r : Nat) (f : Rail → Rail) : (s.updRail r f).gd = s.gd := rfl
@[simp] theorem updRail_out (s : State) (r : Nat) (f : Rail → Rail) : (s.updRail r f).out = s.out := rfl
@[simp] theorem updRail_pending (s : State) (r : Nat) (f : Rail → Rail) : (s.updRail r f).pending = s.pending := rfl
theorem updRail_pw_eq (s : State) (r : Nat) (f : Rail → Rail) :
    (s.updRail r f).pw = { s.pw with rail := KMap.upd {} s.pw.rail r f } := rfl
@[simp] theorem updRail_at_o (s : State) (r : Nat) (f : Rail → Rail) (j : Nat) : (s.updRail r f).o j = s.o j := rfl
@[simp] theorem updRail_at_c (s : State) (r : Nat) (f : Rail → Rail) (j : Nat) : (s.updRail r f).c j = s.c j := rfl
@[simp] theorem updRail_at_blk (s : State) (r : Nat) (f : Rail → Rail) (j : Nat) : (s.updRail r f).blk j = s.blk j := rfl
@[simp] theorem updRail_at_port (s : State) (r : Nat) (f : Rail → Rail) (j : Nat) : (s.updRail r f).port j = s.port j := rfl
@[simp] theorem updRail_at_vppb (s : State) (r : Nat) (f : Rail → Rail) (j i' : Nat) : (s.updRail r f).vppb j i' = s.vppb j i' := rfl
@[simp] theorem updRail_at_binding (s : State) (r : Nat) (f : Rail → Rail) (j i' : Nat) : (s.updRail r f).binding j i' = s.binding j i' := rfl
@[simp] theorem updRail_at_sess (s : State) (r : Nat) (f : Rail → Rail) (j : Nat) : (s.updRail r f).sess? j = s.sess? j := rfl
@[simp] theorem updRail_at_coreAt (s : State) (r : Nat) (f : Rail → Rail) (j : Nat) : (s.updRail r f).coreAt j = s.coreAt j := rfl
@[simp] theorem updRail_at_slice (s : State) (r : Nat) (f : Rail → Rail) (j : Nat) : (s.updRail r f).slice j = s.slice j := rfl
@[simp] theorem updRail_at_win (s : State) (r : Nat) (f : Rail → Rail) (j : Nat) : (s.updRail r f).win j = s.win j := rfl
@[simp] theorem updRail_at_part (s : State) (r : Nat) (f : Rail → Rail) (j : Nat) : (s.updRail r f).part j = s.part j := rfl
@[simp] theorem updRail_at_line (s : State) (r : Nat) (f : Rail → Rail) (j : Nat) : (s.updRail r f).line j = s.line j := rfl
@[simp] theorem updRail_at_strandOf (s : State) (r : Nat) (f : Rail → Rail) (j i' k' : Nat) : (s.updRail r f).strandOf j i' k' = s.strandOf j i' k' := rfl
@[simp] theorem updRail_at_sdir (s : State) (r : Nat) (f : Rail → Rail) (j i' : Nat) : (s.updRail r f).sdir j i' = s.sdir j i' := rfl
@[simp] theorem updRail_at_isVcsUp (s : State) (r : Nat) (f : Rail → Rail) (j : Nat) : (s.updRail r f).isVcsUp j = s.isVcsUp j := rfl
@[simp] theorem updRail_at_txn (s : State) (r : Nat) (f : Rail → Rail) (j : Nat) : (s.updRail r f).txn? j = s.txn? j := rfl
@[simp] theorem updRail_at_hubHeld (s : State) (r : Nat) (f : Rail → Rail) : (s.updRail r f).hubHeld = s.hubHeld := rfl
@[simp] theorem updRail_at_islandUp (s : State) (r : Nat) (f : Rail → Rail) : (s.updRail r f).islandUp = s.islandUp := rfl
@[simp] theorem updRail_at_lcState (s : State) (r : Nat) (f : Rail → Rail) : (s.updRail r f).lcState = s.lcState := rfl

/-! updPart -/

@[simp] theorem updPart_now (s : State) (k : Nat) (f : Part → Part) : (s.updPart k f).now = s.now := rfl
@[simp] theorem updPart_freeIx (s : State) (k : Nat) (f : Part → Part) : (s.updPart k f).freeIx = s.freeIx := rfl
@[simp] theorem updPart_od (s : State) (k : Nat) (f : Part → Part) : (s.updPart k f).od = s.od := rfl
@[simp] theorem updPart_csr (s : State) (k : Nat) (f : Part → Part) : (s.updPart k f).csr = s.csr := rfl
@[simp] theorem updPart_ev (s : State) (k : Nat) (f : Part → Part) : (s.updPart k f).ev = s.ev := rfl
@[simp] theorem updPart_mg (s : State) (k : Nat) (f : Part → Part) : (s.updPart k f).mg = s.mg := rfl
@[simp] theorem updPart_gen (s : State) (k : Nat) (f : Part → Part) : (s.updPart k f).gen = s.gen := rfl
@[simp] theorem updPart_st (s : State) (k : Nat) (f : Part → Part) : (s.updPart k f).st = s.st := rfl
@[simp] theorem updPart_pw (s : State) (k : Nat) (f : Part → Part) : (s.updPart k f).pw = s.pw := rfl
@[simp] theorem updPart_tm (s : State) (k : Nat) (f : Part → Part) : (s.updPart k f).tm = s.tm := rfl
@[simp] theorem updPart_pl (s : State) (k : Nat) (f : Part → Part) : (s.updPart k f).pl = s.pl := rfl
@[simp] theorem updPart_cr (s : State) (k : Nat) (f : Part → Part) : (s.updPart k f).cr = s.cr := rfl
@[simp] theorem updPart_ord (s : State) (k : Nat) (f : Part → Part) : (s.updPart k f).ord = s.ord := rfl
@[simp] theorem updPart_fab (s : State) (k : Nat) (f : Part → Part) : (s.updPart k f).fab = s.fab := rfl
@[simp] theorem updPart_seams (s : State) (k : Nat) (f : Part → Part) : (s.updPart k f).seams = s.seams := rfl
@[simp] theorem updPart_mv (s : State) (k : Nat) (f : Part → Part) : (s.updPart k f).mv = s.mv := rfl
@[simp] theorem updPart_gd (s : State) (k : Nat) (f : Part → Part) : (s.updPart k f).gd = s.gd := rfl
@[simp] theorem updPart_out (s : State) (k : Nat) (f : Part → Part) : (s.updPart k f).out = s.out := rfl
@[simp] theorem updPart_pending (s : State) (k : Nat) (f : Part → Part) : (s.updPart k f).pending = s.pending := rfl
theorem updPart_life_eq (s : State) (k : Nat) (f : Part → Part) :
    (s.updPart k f).life = { s.life with parts := KMap.upd {} s.life.parts k f } := rfl
@[simp] theorem updPart_at_o (s : State) (k : Nat) (f : Part → Part) (j : Nat) : (s.updPart k f).o j = s.o j := rfl
@[simp] theorem updPart_at_c (s : State) (k : Nat) (f : Part → Part) (j : Nat) : (s.updPart k f).c j = s.c j := rfl
@[simp] theorem updPart_at_blk (s : State) (k : Nat) (f : Part → Part) (j : Nat) : (s.updPart k f).blk j = s.blk j := rfl
@[simp] theorem updPart_at_port (s : State) (k : Nat) (f : Part → Part) (j : Nat) : (s.updPart k f).port j = s.port j := rfl
@[simp] theorem updPart_at_slot (s : State) (k : Nat) (f : Part → Part) (j : Nat) : (s.updPart k f).slot j = s.slot j := rfl
@[simp] theorem updPart_at_vppb (s : State) (k : Nat) (f : Part → Part) (j i' : Nat) : (s.updPart k f).vppb j i' = s.vppb j i' := rfl
@[simp] theorem updPart_at_binding (s : State) (k : Nat) (f : Part → Part) (j i' : Nat) : (s.updPart k f).binding j i' = s.binding j i' := rfl
@[simp] theorem updPart_at_sess (s : State) (k : Nat) (f : Part → Part) (j : Nat) : (s.updPart k f).sess? j = s.sess? j := rfl
@[simp] theorem updPart_at_coreAt (s : State) (k : Nat) (f : Part → Part) (j : Nat) : (s.updPart k f).coreAt j = s.coreAt j := rfl
@[simp] theorem updPart_at_slice (s : State) (k : Nat) (f : Part → Part) (j : Nat) : (s.updPart k f).slice j = s.slice j := rfl
@[simp] theorem updPart_at_win (s : State) (k : Nat) (f : Part → Part) (j : Nat) : (s.updPart k f).win j = s.win j := rfl
@[simp] theorem updPart_at_rail (s : State) (k : Nat) (f : Part → Part) (j : Nat) : (s.updPart k f).rail j = s.rail j := rfl
@[simp] theorem updPart_at_line (s : State) (k : Nat) (f : Part → Part) (j : Nat) : (s.updPart k f).line j = s.line j := rfl
@[simp] theorem updPart_at_strandOf (s : State) (k : Nat) (f : Part → Part) (j i' k' : Nat) : (s.updPart k f).strandOf j i' k' = s.strandOf j i' k' := rfl
@[simp] theorem updPart_at_sdir (s : State) (k : Nat) (f : Part → Part) (j i' : Nat) : (s.updPart k f).sdir j i' = s.sdir j i' := rfl
@[simp] theorem updPart_at_isVcsUp (s : State) (k : Nat) (f : Part → Part) (j : Nat) : (s.updPart k f).isVcsUp j = s.isVcsUp j := rfl
@[simp] theorem updPart_at_txn (s : State) (k : Nat) (f : Part → Part) (j : Nat) : (s.updPart k f).txn? j = s.txn? j := rfl
@[simp] theorem updPart_at_hubHeld (s : State) (k : Nat) (f : Part → Part) : (s.updPart k f).hubHeld = s.hubHeld := rfl
@[simp] theorem updPart_at_islandUp (s : State) (k : Nat) (f : Part → Part) : (s.updPart k f).islandUp = s.islandUp := rfl

/-! setApplet -/

@[simp] theorem setApplet_now (s : State) (a : Nat) (i : Option Image) (st : Nat) : (s.setApplet a i st).now = s.now := rfl
@[simp] theorem setApplet_freeIx (s : State) (a : Nat) (i : Option Image) (st : Nat) : (s.setApplet a i st).freeIx = s.freeIx := rfl
@[simp] theorem setApplet_od (s : State) (a : Nat) (i : Option Image) (st : Nat) : (s.setApplet a i st).od = s.od := rfl
@[simp] theorem setApplet_csr (s : State) (a : Nat) (i : Option Image) (st : Nat) : (s.setApplet a i st).csr = s.csr := rfl
@[simp] theorem setApplet_ev (s : State) (a : Nat) (i : Option Image) (st : Nat) : (s.setApplet a i st).ev = s.ev := rfl
@[simp] theorem setApplet_mg (s : State) (a : Nat) (i : Option Image) (st : Nat) : (s.setApplet a i st).mg = s.mg := rfl
@[simp] theorem setApplet_gen (s : State) (a : Nat) (i : Option Image) (st : Nat) : (s.setApplet a i st).gen = s.gen := rfl
@[simp] theorem setApplet_st (s : State) (a : Nat) (i : Option Image) (st : Nat) : (s.setApplet a i st).st = s.st := rfl
@[simp] theorem setApplet_pw (s : State) (a : Nat) (i : Option Image) (st : Nat) : (s.setApplet a i st).pw = s.pw := rfl
@[simp] theorem setApplet_tm (s : State) (a : Nat) (i : Option Image) (st : Nat) : (s.setApplet a i st).tm = s.tm := rfl
@[simp] theorem setApplet_pl (s : State) (a : Nat) (i : Option Image) (st : Nat) : (s.setApplet a i st).pl = s.pl := rfl
@[simp] theorem setApplet_cr (s : State) (a : Nat) (i : Option Image) (st : Nat) : (s.setApplet a i st).cr = s.cr := rfl
@[simp] theorem setApplet_ord (s : State) (a : Nat) (i : Option Image) (st : Nat) : (s.setApplet a i st).ord = s.ord := rfl
@[simp] theorem setApplet_fab (s : State) (a : Nat) (i : Option Image) (st : Nat) : (s.setApplet a i st).fab = s.fab := rfl
@[simp] theorem setApplet_seams (s : State) (a : Nat) (i : Option Image) (st : Nat) : (s.setApplet a i st).seams = s.seams := rfl
@[simp] theorem setApplet_mv (s : State) (a : Nat) (i : Option Image) (st : Nat) : (s.setApplet a i st).mv = s.mv := rfl
@[simp] theorem setApplet_gd (s : State) (a : Nat) (i : Option Image) (st : Nat) : (s.setApplet a i st).gd = s.gd := rfl
@[simp] theorem setApplet_out (s : State) (a : Nat) (i : Option Image) (st : Nat) : (s.setApplet a i st).out = s.out := rfl
@[simp] theorem setApplet_pending (s : State) (a : Nat) (i : Option Image) (st : Nat) : (s.setApplet a i st).pending = s.pending := rfl
theorem setApplet_life_eq (s : State) (a : Nat) (i : Option Image) (st : Nat) :
    (s.setApplet a i st).life = { s.life with applets := KMap.set none s.life.applets a i, appState := KMap.set 0 s.life.appState a st } := rfl
@[simp] theorem setApplet_at_o (s : State) (a : Nat) (i : Option Image) (st : Nat) (j : Nat) : (s.setApplet a i st).o j = s.o j := rfl
@[simp] theorem setApplet_at_c (s : State) (a : Nat) (i : Option Image) (st : Nat) (j : Nat) : (s.setApplet a i st).c j = s.c j := rfl
@[simp] theorem setApplet_at_blk (s : State) (a : Nat) (i : Option Image) (st : Nat) (j : Nat) : (s.setApplet a i st).blk j = s.blk j := rfl
@[simp] theorem setApplet_at_port (s : State) (a : Nat) (i : Option Image) (st : Nat) (j : Nat) : (s.setApplet a i st).port j = s.port j := rfl
@[simp] theorem setApplet_at_slot (s : State) (a : Nat) (i : Option Image) (st : Nat) (j : Nat) : (s.setApplet a i st).slot j = s.slot j := rfl
@[simp] theorem setApplet_at_vppb (s : State) (a : Nat) (i : Option Image) (st : Nat) (j i' : Nat) : (s.setApplet a i st).vppb j i' = s.vppb j i' := rfl
@[simp] theorem setApplet_at_binding (s : State) (a : Nat) (i : Option Image) (st : Nat) (j i' : Nat) : (s.setApplet a i st).binding j i' = s.binding j i' := rfl
@[simp] theorem setApplet_at_sess (s : State) (a : Nat) (i : Option Image) (st : Nat) (j : Nat) : (s.setApplet a i st).sess? j = s.sess? j := rfl
@[simp] theorem setApplet_at_coreAt (s : State) (a : Nat) (i : Option Image) (st : Nat) (j : Nat) : (s.setApplet a i st).coreAt j = s.coreAt j := rfl
@[simp] theorem setApplet_at_slice (s : State) (a : Nat) (i : Option Image) (st : Nat) (j : Nat) : (s.setApplet a i st).slice j = s.slice j := rfl
@[simp] theorem setApplet_at_win (s : State) (a : Nat) (i : Option Image) (st : Nat) (j : Nat) : (s.setApplet a i st).win j = s.win j := rfl
@[simp] theorem setApplet_at_rail (s : State) (a : Nat) (i : Option Image) (st : Nat) (j : Nat) : (s.setApplet a i st).rail j = s.rail j := rfl
@[simp] theorem setApplet_at_line (s : State) (a : Nat) (i : Option Image) (st : Nat) (j : Nat) : (s.setApplet a i st).line j = s.line j := rfl
@[simp] theorem setApplet_at_strandOf (s : State) (a : Nat) (i : Option Image) (st : Nat) (j i' k' : Nat) : (s.setApplet a i st).strandOf j i' k' = s.strandOf j i' k' := rfl
@[simp] theorem setApplet_at_sdir (s : State) (a : Nat) (i : Option Image) (st : Nat) (j i' : Nat) : (s.setApplet a i st).sdir j i' = s.sdir j i' := rfl
@[simp] theorem setApplet_at_isVcsUp (s : State) (a : Nat) (i : Option Image) (st : Nat) (j : Nat) : (s.setApplet a i st).isVcsUp j = s.isVcsUp j := rfl
@[simp] theorem setApplet_at_txn (s : State) (a : Nat) (i : Option Image) (st : Nat) (j : Nat) : (s.setApplet a i st).txn? j = s.txn? j := rfl
@[simp] theorem setApplet_at_hubHeld (s : State) (a : Nat) (i : Option Image) (st : Nat) : (s.setApplet a i st).hubHeld = s.hubHeld := rfl
@[simp] theorem setApplet_at_islandUp (s : State) (a : Nat) (i : Option Image) (st : Nat) : (s.setApplet a i st).islandUp = s.islandUp := rfl

/-! updLine -/

@[simp] theorem updLine_now (s : State) (n : Nat) (f : Line → Line) : (s.updLine n f).now = s.now := rfl
@[simp] theorem updLine_freeIx (s : State) (n : Nat) (f : Line → Line) : (s.updLine n f).freeIx = s.freeIx := rfl
@[simp] theorem updLine_od (s : State) (n : Nat) (f : Line → Line) : (s.updLine n f).od = s.od := rfl
@[simp] theorem updLine_csr (s : State) (n : Nat) (f : Line → Line) : (s.updLine n f).csr = s.csr := rfl
@[simp] theorem updLine_ev (s : State) (n : Nat) (f : Line → Line) : (s.updLine n f).ev = s.ev := rfl
@[simp] theorem updLine_mg (s : State) (n : Nat) (f : Line → Line) : (s.updLine n f).mg = s.mg := rfl
@[simp] theorem updLine_gen (s : State) (n : Nat) (f : Line → Line) : (s.updLine n f).gen = s.gen := rfl
@[simp] theorem updLine_life (s : State) (n : Nat) (f : Line → Line) : (s.updLine n f).life = s.life := rfl
@[simp] theorem updLine_st (s : State) (n : Nat) (f : Line → Line) : (s.updLine n f).st = s.st := rfl
@[simp] theorem updLine_pw (s : State) (n : Nat) (f : Line → Line) : (s.updLine n f).pw = s.pw := rfl
@[simp] theorem updLine_pl (s : State) (n : Nat) (f : Line → Line) : (s.updLine n f).pl = s.pl := rfl
@[simp] theorem updLine_cr (s : State) (n : Nat) (f : Line → Line) : (s.updLine n f).cr = s.cr := rfl
@[simp] theorem updLine_ord (s : State) (n : Nat) (f : Line → Line) : (s.updLine n f).ord = s.ord := rfl
@[simp] theorem updLine_fab (s : State) (n : Nat) (f : Line → Line) : (s.updLine n f).fab = s.fab := rfl
@[simp] theorem updLine_seams (s : State) (n : Nat) (f : Line → Line) : (s.updLine n f).seams = s.seams := rfl
@[simp] theorem updLine_mv (s : State) (n : Nat) (f : Line → Line) : (s.updLine n f).mv = s.mv := rfl
@[simp] theorem updLine_gd (s : State) (n : Nat) (f : Line → Line) : (s.updLine n f).gd = s.gd := rfl
@[simp] theorem updLine_out (s : State) (n : Nat) (f : Line → Line) : (s.updLine n f).out = s.out := rfl
@[simp] theorem updLine_pending (s : State) (n : Nat) (f : Line → Line) : (s.updLine n f).pending = s.pending := rfl
theorem updLine_tm_eq (s : State) (n : Nat) (f : Line → Line) :
    (s.updLine n f).tm = { s.tm with line := KMap.upd {} s.tm.line n f } := rfl
@[simp] theorem updLine_at_o (s : State) (n : Nat) (f : Line → Line) (j : Nat) : (s.updLine n f).o j = s.o j := rfl
@[simp] theorem updLine_at_c (s : State) (n : Nat) (f : Line → Line) (j : Nat) : (s.updLine n f).c j = s.c j := rfl
@[simp] theorem updLine_at_blk (s : State) (n : Nat) (f : Line → Line) (j : Nat) : (s.updLine n f).blk j = s.blk j := rfl
@[simp] theorem updLine_at_port (s : State) (n : Nat) (f : Line → Line) (j : Nat) : (s.updLine n f).port j = s.port j := rfl
@[simp] theorem updLine_at_slot (s : State) (n : Nat) (f : Line → Line) (j : Nat) : (s.updLine n f).slot j = s.slot j := rfl
@[simp] theorem updLine_at_vppb (s : State) (n : Nat) (f : Line → Line) (j i' : Nat) : (s.updLine n f).vppb j i' = s.vppb j i' := rfl
@[simp] theorem updLine_at_binding (s : State) (n : Nat) (f : Line → Line) (j i' : Nat) : (s.updLine n f).binding j i' = s.binding j i' := rfl
@[simp] theorem updLine_at_sess (s : State) (n : Nat) (f : Line → Line) (j : Nat) : (s.updLine n f).sess? j = s.sess? j := rfl
@[simp] theorem updLine_at_coreAt (s : State) (n : Nat) (f : Line → Line) (j : Nat) : (s.updLine n f).coreAt j = s.coreAt j := rfl
@[simp] theorem updLine_at_slice (s : State) (n : Nat) (f : Line → Line) (j : Nat) : (s.updLine n f).slice j = s.slice j := rfl
@[simp] theorem updLine_at_win (s : State) (n : Nat) (f : Line → Line) (j : Nat) : (s.updLine n f).win j = s.win j := rfl
@[simp] theorem updLine_at_rail (s : State) (n : Nat) (f : Line → Line) (j : Nat) : (s.updLine n f).rail j = s.rail j := rfl
@[simp] theorem updLine_at_part (s : State) (n : Nat) (f : Line → Line) (j : Nat) : (s.updLine n f).part j = s.part j := rfl
@[simp] theorem updLine_at_strandOf (s : State) (n : Nat) (f : Line → Line) (j i' k' : Nat) : (s.updLine n f).strandOf j i' k' = s.strandOf j i' k' := rfl
@[simp] theorem updLine_at_sdir (s : State) (n : Nat) (f : Line → Line) (j i' : Nat) : (s.updLine n f).sdir j i' = s.sdir j i' := rfl
@[simp] theorem updLine_at_isVcsUp (s : State) (n : Nat) (f : Line → Line) (j : Nat) : (s.updLine n f).isVcsUp j = s.isVcsUp j := rfl
@[simp] theorem updLine_at_txn (s : State) (n : Nat) (f : Line → Line) (j : Nat) : (s.updLine n f).txn? j = s.txn? j := rfl
@[simp] theorem updLine_at_hubHeld (s : State) (n : Nat) (f : Line → Line) : (s.updLine n f).hubHeld = s.hubHeld := rfl
@[simp] theorem updLine_at_islandUp (s : State) (n : Nat) (f : Line → Line) : (s.updLine n f).islandUp = s.islandUp := rfl
@[simp] theorem updLine_at_lcState (s : State) (n : Nat) (f : Line → Line) : (s.updLine n f).lcState = s.lcState := rfl

/-! setShaper -/

@[simp] theorem setShaper_now (s : State) (pr : Nat) (x : Shaper) : (s.setShaper pr x).now = s.now := rfl
@[simp] theorem setShaper_freeIx (s : State) (pr : Nat) (x : Shaper) : (s.setShaper pr x).freeIx = s.freeIx := rfl
@[simp] theorem setShaper_od (s : State) (pr : Nat) (x : Shaper) : (s.setShaper pr x).od = s.od := rfl
@[simp] theorem setShaper_csr (s : State) (pr : Nat) (x : Shaper) : (s.setShaper pr x).csr = s.csr := rfl
@[simp] theorem setShaper_ev (s : State) (pr : Nat) (x : Shaper) : (s.setShaper pr x).ev = s.ev := rfl
@[simp] theorem setShaper_mg (s : State) (pr : Nat) (x : Shaper) : (s.setShaper pr x).mg = s.mg := rfl
@[simp] theorem setShaper_gen (s : State) (pr : Nat) (x : Shaper) : (s.setShaper pr x).gen = s.gen := rfl
@[simp] theorem setShaper_life (s : State) (pr : Nat) (x : Shaper) : (s.setShaper pr x).life = s.life := rfl
@[simp] theorem setShaper_st (s : State) (pr : Nat) (x : Shaper) : (s.setShaper pr x).st = s.st := rfl
@[simp] theorem setShaper_pw (s : State) (pr : Nat) (x : Shaper) : (s.setShaper pr x).pw = s.pw := rfl
@[simp] theorem setShaper_tm (s : State) (pr : Nat) (x : Shaper) : (s.setShaper pr x).tm = s.tm := rfl
@[simp] theorem setShaper_cr (s : State) (pr : Nat) (x : Shaper) : (s.setShaper pr x).cr = s.cr := rfl
@[simp] theorem setShaper_ord (s : State) (pr : Nat) (x : Shaper) : (s.setShaper pr x).ord = s.ord := rfl
@[simp] theorem setShaper_fab (s : State) (pr : Nat) (x : Shaper) : (s.setShaper pr x).fab = s.fab := rfl
@[simp] theorem setShaper_seams (s : State) (pr : Nat) (x : Shaper) : (s.setShaper pr x).seams = s.seams := rfl
@[simp] theorem setShaper_mv (s : State) (pr : Nat) (x : Shaper) : (s.setShaper pr x).mv = s.mv := rfl
@[simp] theorem setShaper_gd (s : State) (pr : Nat) (x : Shaper) : (s.setShaper pr x).gd = s.gd := rfl
@[simp] theorem setShaper_out (s : State) (pr : Nat) (x : Shaper) : (s.setShaper pr x).out = s.out := rfl
@[simp] theorem setShaper_pending (s : State) (pr : Nat) (x : Shaper) : (s.setShaper pr x).pending = s.pending := rfl
theorem setShaper_pl_eq (s : State) (pr : Nat) (x : Shaper) :
    (s.setShaper pr x).pl = { s.pl with shaper := KMap.set {} s.pl.shaper pr x } := rfl
@[simp] theorem setShaper_at_o (s : State) (pr : Nat) (x : Shaper) (j : Nat) : (s.setShaper pr x).o j = s.o j := rfl
@[simp] theorem setShaper_at_c (s : State) (pr : Nat) (x : Shaper) (j : Nat) : (s.setShaper pr x).c j = s.c j := rfl
@[simp] theorem setShaper_at_blk (s : State) (pr : Nat) (x : Shaper) (j : Nat) : (s.setShaper pr x).blk j = s.blk j := rfl
@[simp] theorem setShaper_at_port (s : State) (pr : Nat) (x : Shaper) (j : Nat) : (s.setShaper pr x).port j = s.port j := rfl
@[simp] theorem setShaper_at_slot (s : State) (pr : Nat) (x : Shaper) (j : Nat) : (s.setShaper pr x).slot j = s.slot j := rfl
@[simp] theorem setShaper_at_vppb (s : State) (pr : Nat) (x : Shaper) (j i' : Nat) : (s.setShaper pr x).vppb j i' = s.vppb j i' := rfl
@[simp] theorem setShaper_at_binding (s : State) (pr : Nat) (x : Shaper) (j i' : Nat) : (s.setShaper pr x).binding j i' = s.binding j i' := rfl
@[simp] theorem setShaper_at_sess (s : State) (pr : Nat) (x : Shaper) (j : Nat) : (s.setShaper pr x).sess? j = s.sess? j := rfl
@[simp] theorem setShaper_at_coreAt (s : State) (pr : Nat) (x : Shaper) (j : Nat) : (s.setShaper pr x).coreAt j = s.coreAt j := rfl
@[simp] theorem setShaper_at_slice (s : State) (pr : Nat) (x : Shaper) (j : Nat) : (s.setShaper pr x).slice j = s.slice j := rfl
@[simp] theorem setShaper_at_win (s : State) (pr : Nat) (x : Shaper) (j : Nat) : (s.setShaper pr x).win j = s.win j := rfl
@[simp] theorem setShaper_at_rail (s : State) (pr : Nat) (x : Shaper) (j : Nat) : (s.setShaper pr x).rail j = s.rail j := rfl
@[simp] theorem setShaper_at_part (s : State) (pr : Nat) (x : Shaper) (j : Nat) : (s.setShaper pr x).part j = s.part j := rfl
@[simp] theorem setShaper_at_line (s : State) (pr : Nat) (x : Shaper) (j : Nat) : (s.setShaper pr x).line j = s.line j := rfl
@[simp] theorem setShaper_at_strandOf (s : State) (pr : Nat) (x : Shaper) (j i' k' : Nat) : (s.setShaper pr x).strandOf j i' k' = s.strandOf j i' k' := rfl
@[simp] theorem setShaper_at_sdir (s : State) (pr : Nat) (x : Shaper) (j i' : Nat) : (s.setShaper pr x).sdir j i' = s.sdir j i' := rfl
@[simp] theorem setShaper_at_isVcsUp (s : State) (pr : Nat) (x : Shaper) (j : Nat) : (s.setShaper pr x).isVcsUp j = s.isVcsUp j := rfl
@[simp] theorem setShaper_at_txn (s : State) (pr : Nat) (x : Shaper) (j : Nat) : (s.setShaper pr x).txn? j = s.txn? j := rfl
@[simp] theorem setShaper_at_hubHeld (s : State) (pr : Nat) (x : Shaper) : (s.setShaper pr x).hubHeld = s.hubHeld := rfl
@[simp] theorem setShaper_at_islandUp (s : State) (pr : Nat) (x : Shaper) : (s.setShaper pr x).islandUp = s.islandUp := rfl
@[simp] theorem setShaper_at_lcState (s : State) (pr : Nat) (x : Shaper) : (s.setShaper pr x).lcState = s.lcState := rfl

/-! setPolicer -/

@[simp] theorem setPolicer_now (s : State) (p : Nat) (x : Policer) : (s.setPolicer p x).now = s.now := rfl
@[simp] theorem setPolicer_freeIx (s : State) (p : Nat) (x : Policer) : (s.setPolicer p x).freeIx = s.freeIx := rfl
@[simp] theorem setPolicer_od (s : State) (p : Nat) (x : Policer) : (s.setPolicer p x).od = s.od := rfl
@[simp] theorem setPolicer_csr (s : State) (p : Nat) (x : Policer) : (s.setPolicer p x).csr = s.csr := rfl
@[simp] theorem setPolicer_ev (s : State) (p : Nat) (x : Policer) : (s.setPolicer p x).ev = s.ev := rfl
@[simp] theorem setPolicer_mg (s : State) (p : Nat) (x : Policer) : (s.setPolicer p x).mg = s.mg := rfl
@[simp] theorem setPolicer_gen (s : State) (p : Nat) (x : Policer) : (s.setPolicer p x).gen = s.gen := rfl
@[simp] theorem setPolicer_life (s : State) (p : Nat) (x : Policer) : (s.setPolicer p x).life = s.life := rfl
@[simp] theorem setPolicer_st (s : State) (p : Nat) (x : Policer) : (s.setPolicer p x).st = s.st := rfl
@[simp] theorem setPolicer_pw (s : State) (p : Nat) (x : Policer) : (s.setPolicer p x).pw = s.pw := rfl
@[simp] theorem setPolicer_tm (s : State) (p : Nat) (x : Policer) : (s.setPolicer p x).tm = s.tm := rfl
@[simp] theorem setPolicer_cr (s : State) (p : Nat) (x : Policer) : (s.setPolicer p x).cr = s.cr := rfl
@[simp] theorem setPolicer_ord (s : State) (p : Nat) (x : Policer) : (s.setPolicer p x).ord = s.ord := rfl
@[simp] theorem setPolicer_fab (s : State) (p : Nat) (x : Policer) : (s.setPolicer p x).fab = s.fab := rfl
@[simp] theorem setPolicer_seams (s : State) (p : Nat) (x : Policer) : (s.setPolicer p x).seams = s.seams := rfl
@[simp] theorem setPolicer_mv (s : State) (p : Nat) (x : Policer) : (s.setPolicer p x).mv = s.mv := rfl
@[simp] theorem setPolicer_gd (s : State) (p : Nat) (x : Policer) : (s.setPolicer p x).gd = s.gd := rfl
@[simp] theorem setPolicer_out (s : State) (p : Nat) (x : Policer) : (s.setPolicer p x).out = s.out := rfl
@[simp] theorem setPolicer_pending (s : State) (p : Nat) (x : Policer) : (s.setPolicer p x).pending = s.pending := rfl
theorem setPolicer_pl_eq (s : State) (p : Nat) (x : Policer) :
    (s.setPolicer p x).pl = { s.pl with policer := KMap.set {} s.pl.policer p x } := rfl
@[simp] theorem setPolicer_at_o (s : State) (p : Nat) (x : Policer) (j : Nat) : (s.setPolicer p x).o j = s.o j := rfl
@[simp] theorem setPolicer_at_c (s : State) (p : Nat) (x : Policer) (j : Nat) : (s.setPolicer p x).c j = s.c j := rfl
@[simp] theorem setPolicer_at_blk (s : State) (p : Nat) (x : Policer) (j : Nat) : (s.setPolicer p x).blk j = s.blk j := rfl
@[simp] theorem setPolicer_at_port (s : State) (p : Nat) (x : Policer) (j : Nat) : (s.setPolicer p x).port j = s.port j := rfl
@[simp] theorem setPolicer_at_slot (s : State) (p : Nat) (x : Policer) (j : Nat) : (s.setPolicer p x).slot j = s.slot j := rfl
@[simp] theorem setPolicer_at_vppb (s : State) (p : Nat) (x : Policer) (j i' : Nat) : (s.setPolicer p x).vppb j i' = s.vppb j i' := rfl
@[simp] theorem setPolicer_at_binding (s : State) (p : Nat) (x : Policer) (j i' : Nat) : (s.setPolicer p x).binding j i' = s.binding j i' := rfl
@[simp] theorem setPolicer_at_sess (s : State) (p : Nat) (x : Policer) (j : Nat) : (s.setPolicer p x).sess? j = s.sess? j := rfl
@[simp] theorem setPolicer_at_coreAt (s : State) (p : Nat) (x : Policer) (j : Nat) : (s.setPolicer p x).coreAt j = s.coreAt j := rfl
@[simp] theorem setPolicer_at_slice (s : State) (p : Nat) (x : Policer) (j : Nat) : (s.setPolicer p x).slice j = s.slice j := rfl
@[simp] theorem setPolicer_at_win (s : State) (p : Nat) (x : Policer) (j : Nat) : (s.setPolicer p x).win j = s.win j := rfl
@[simp] theorem setPolicer_at_rail (s : State) (p : Nat) (x : Policer) (j : Nat) : (s.setPolicer p x).rail j = s.rail j := rfl
@[simp] theorem setPolicer_at_part (s : State) (p : Nat) (x : Policer) (j : Nat) : (s.setPolicer p x).part j = s.part j := rfl
@[simp] theorem setPolicer_at_line (s : State) (p : Nat) (x : Policer) (j : Nat) : (s.setPolicer p x).line j = s.line j := rfl
@[simp] theorem setPolicer_at_strandOf (s : State) (p : Nat) (x : Policer) (j i' k' : Nat) : (s.setPolicer p x).strandOf j i' k' = s.strandOf j i' k' := rfl
@[simp] theorem setPolicer_at_sdir (s : State) (p : Nat) (x : Policer) (j i' : Nat) : (s.setPolicer p x).sdir j i' = s.sdir j i' := rfl
@[simp] theorem setPolicer_at_isVcsUp (s : State) (p : Nat) (x : Policer) (j : Nat) : (s.setPolicer p x).isVcsUp j = s.isVcsUp j := rfl
@[simp] theorem setPolicer_at_txn (s : State) (p : Nat) (x : Policer) (j : Nat) : (s.setPolicer p x).txn? j = s.txn? j := rfl
@[simp] theorem setPolicer_at_hubHeld (s : State) (p : Nat) (x : Policer) : (s.setPolicer p x).hubHeld = s.hubHeld := rfl
@[simp] theorem setPolicer_at_islandUp (s : State) (p : Nat) (x : Policer) : (s.setPolicer p x).islandUp = s.islandUp := rfl
@[simp] theorem setPolicer_at_lcState (s : State) (p : Nat) (x : Policer) : (s.setPolicer p x).lcState = s.lcState := rfl

/-! setAdv -/

@[simp] theorem setAdv_now (s : State) (p : Nat) (cls : Cls) (n : Nat) : (s.setAdv p cls n).now = s.now := rfl
@[simp] theorem setAdv_freeIx (s : State) (p : Nat) (cls : Cls) (n : Nat) : (s.setAdv p cls n).freeIx = s.freeIx := rfl
@[simp] theorem setAdv_od (s : State) (p : Nat) (cls : Cls) (n : Nat) : (s.setAdv p cls n).od = s.od := rfl
@[simp] theorem setAdv_csr (s : State) (p : Nat) (cls : Cls) (n : Nat) : (s.setAdv p cls n).csr = s.csr := rfl
@[simp] theorem setAdv_ev (s : State) (p : Nat) (cls : Cls) (n : Nat) : (s.setAdv p cls n).ev = s.ev := rfl
@[simp] theorem setAdv_mg (s : State) (p : Nat) (cls : Cls) (n : Nat) : (s.setAdv p cls n).mg = s.mg := rfl
@[simp] theorem setAdv_gen (s : State) (p : Nat) (cls : Cls) (n : Nat) : (s.setAdv p cls n).gen = s.gen := rfl
@[simp] theorem setAdv_life (s : State) (p : Nat) (cls : Cls) (n : Nat) : (s.setAdv p cls n).life = s.life := rfl
@[simp] theorem setAdv_st (s : State) (p : Nat) (cls : Cls) (n : Nat) : (s.setAdv p cls n).st = s.st := rfl
@[simp] theorem setAdv_pw (s : State) (p : Nat) (cls : Cls) (n : Nat) : (s.setAdv p cls n).pw = s.pw := rfl
@[simp] theorem setAdv_tm (s : State) (p : Nat) (cls : Cls) (n : Nat) : (s.setAdv p cls n).tm = s.tm := rfl
@[simp] theorem setAdv_cr (s : State) (p : Nat) (cls : Cls) (n : Nat) : (s.setAdv p cls n).cr = s.cr := rfl
@[simp] theorem setAdv_ord (s : State) (p : Nat) (cls : Cls) (n : Nat) : (s.setAdv p cls n).ord = s.ord := rfl
@[simp] theorem setAdv_fab (s : State) (p : Nat) (cls : Cls) (n : Nat) : (s.setAdv p cls n).fab = s.fab := rfl
@[simp] theorem setAdv_seams (s : State) (p : Nat) (cls : Cls) (n : Nat) : (s.setAdv p cls n).seams = s.seams := rfl
@[simp] theorem setAdv_mv (s : State) (p : Nat) (cls : Cls) (n : Nat) : (s.setAdv p cls n).mv = s.mv := rfl
@[simp] theorem setAdv_gd (s : State) (p : Nat) (cls : Cls) (n : Nat) : (s.setAdv p cls n).gd = s.gd := rfl
@[simp] theorem setAdv_out (s : State) (p : Nat) (cls : Cls) (n : Nat) : (s.setAdv p cls n).out = s.out := rfl
@[simp] theorem setAdv_pending (s : State) (p : Nat) (cls : Cls) (n : Nat) : (s.setAdv p cls n).pending = s.pending := rfl
theorem setAdv_pl_eq (s : State) (p : Nat) (cls : Cls) (n : Nat) :
    (s.setAdv p cls n).pl = { s.pl with adv := KMap.set 0 s.pl.adv (p * 4 + clsNum cls) n } := rfl
@[simp] theorem setAdv_at_o (s : State) (p : Nat) (cls : Cls) (n : Nat) (j : Nat) : (s.setAdv p cls n).o j = s.o j := rfl
@[simp] theorem setAdv_at_c (s : State) (p : Nat) (cls : Cls) (n : Nat) (j : Nat) : (s.setAdv p cls n).c j = s.c j := rfl
@[simp] theorem setAdv_at_blk (s : State) (p : Nat) (cls : Cls) (n : Nat) (j : Nat) : (s.setAdv p cls n).blk j = s.blk j := rfl
@[simp] theorem setAdv_at_port (s : State) (p : Nat) (cls : Cls) (n : Nat) (j : Nat) : (s.setAdv p cls n).port j = s.port j := rfl
@[simp] theorem setAdv_at_slot (s : State) (p : Nat) (cls : Cls) (n : Nat) (j : Nat) : (s.setAdv p cls n).slot j = s.slot j := rfl
@[simp] theorem setAdv_at_vppb (s : State) (p : Nat) (cls : Cls) (n : Nat) (j i' : Nat) : (s.setAdv p cls n).vppb j i' = s.vppb j i' := rfl
@[simp] theorem setAdv_at_binding (s : State) (p : Nat) (cls : Cls) (n : Nat) (j i' : Nat) : (s.setAdv p cls n).binding j i' = s.binding j i' := rfl
@[simp] theorem setAdv_at_sess (s : State) (p : Nat) (cls : Cls) (n : Nat) (j : Nat) : (s.setAdv p cls n).sess? j = s.sess? j := rfl
@[simp] theorem setAdv_at_coreAt (s : State) (p : Nat) (cls : Cls) (n : Nat) (j : Nat) : (s.setAdv p cls n).coreAt j = s.coreAt j := rfl
@[simp] theorem setAdv_at_slice (s : State) (p : Nat) (cls : Cls) (n : Nat) (j : Nat) : (s.setAdv p cls n).slice j = s.slice j := rfl
@[simp] theorem setAdv_at_win (s : State) (p : Nat) (cls : Cls) (n : Nat) (j : Nat) : (s.setAdv p cls n).win j = s.win j := rfl
@[simp] theorem setAdv_at_rail (s : State) (p : Nat) (cls : Cls) (n : Nat) (j : Nat) : (s.setAdv p cls n).rail j = s.rail j := rfl
@[simp] theorem setAdv_at_part (s : State) (p : Nat) (cls : Cls) (n : Nat) (j : Nat) : (s.setAdv p cls n).part j = s.part j := rfl
@[simp] theorem setAdv_at_line (s : State) (p : Nat) (cls : Cls) (n : Nat) (j : Nat) : (s.setAdv p cls n).line j = s.line j := rfl
@[simp] theorem setAdv_at_strandOf (s : State) (p : Nat) (cls : Cls) (n : Nat) (j i' k' : Nat) : (s.setAdv p cls n).strandOf j i' k' = s.strandOf j i' k' := rfl
@[simp] theorem setAdv_at_sdir (s : State) (p : Nat) (cls : Cls) (n : Nat) (j i' : Nat) : (s.setAdv p cls n).sdir j i' = s.sdir j i' := rfl
@[simp] theorem setAdv_at_isVcsUp (s : State) (p : Nat) (cls : Cls) (n : Nat) (j : Nat) : (s.setAdv p cls n).isVcsUp j = s.isVcsUp j := rfl
@[simp] theorem setAdv_at_txn (s : State) (p : Nat) (cls : Cls) (n : Nat) (j : Nat) : (s.setAdv p cls n).txn? j = s.txn? j := rfl
@[simp] theorem setAdv_at_hubHeld (s : State) (p : Nat) (cls : Cls) (n : Nat) : (s.setAdv p cls n).hubHeld = s.hubHeld := rfl
@[simp] theorem setAdv_at_islandUp (s : State) (p : Nat) (cls : Cls) (n : Nat) : (s.setAdv p cls n).islandUp = s.islandUp := rfl
@[simp] theorem setAdv_at_lcState (s : State) (p : Nat) (cls : Cls) (n : Nat) : (s.setAdv p cls n).lcState = s.lcState := rfl

/-! setMsix -/

@[simp] theorem setMsix_now (s : State) (h fn e v : Nat) : (s.setMsix h fn e v).now = s.now := rfl
@[simp] theorem setMsix_freeIx (s : State) (h fn e v : Nat) : (s.setMsix h fn e v).freeIx = s.freeIx := rfl
@[simp] theorem setMsix_od (s : State) (h fn e v : Nat) : (s.setMsix h fn e v).od = s.od := rfl
@[simp] theorem setMsix_csr (s : State) (h fn e v : Nat) : (s.setMsix h fn e v).csr = s.csr := rfl
@[simp] theorem setMsix_mg (s : State) (h fn e v : Nat) : (s.setMsix h fn e v).mg = s.mg := rfl
@[simp] theorem setMsix_gen (s : State) (h fn e v : Nat) : (s.setMsix h fn e v).gen = s.gen := rfl
@[simp] theorem setMsix_life (s : State) (h fn e v : Nat) : (s.setMsix h fn e v).life = s.life := rfl
@[simp] theorem setMsix_st (s : State) (h fn e v : Nat) : (s.setMsix h fn e v).st = s.st := rfl
@[simp] theorem setMsix_pw (s : State) (h fn e v : Nat) : (s.setMsix h fn e v).pw = s.pw := rfl
@[simp] theorem setMsix_tm (s : State) (h fn e v : Nat) : (s.setMsix h fn e v).tm = s.tm := rfl
@[simp] theorem setMsix_pl (s : State) (h fn e v : Nat) : (s.setMsix h fn e v).pl = s.pl := rfl
@[simp] theorem setMsix_cr (s : State) (h fn e v : Nat) : (s.setMsix h fn e v).cr = s.cr := rfl
@[simp] theorem setMsix_ord (s : State) (h fn e v : Nat) : (s.setMsix h fn e v).ord = s.ord := rfl
@[simp] theorem setMsix_fab (s : State) (h fn e v : Nat) : (s.setMsix h fn e v).fab = s.fab := rfl
@[simp] theorem setMsix_seams (s : State) (h fn e v : Nat) : (s.setMsix h fn e v).seams = s.seams := rfl
@[simp] theorem setMsix_mv (s : State) (h fn e v : Nat) : (s.setMsix h fn e v).mv = s.mv := rfl
@[simp] theorem setMsix_gd (s : State) (h fn e v : Nat) : (s.setMsix h fn e v).gd = s.gd := rfl
@[simp] theorem setMsix_out (s : State) (h fn e v : Nat) : (s.setMsix h fn e v).out = s.out := rfl
@[simp] theorem setMsix_pending (s : State) (h fn e v : Nat) : (s.setMsix h fn e v).pending = s.pending := rfl
theorem setMsix_ev_eq (s : State) (h fn e v : Nat) :
    (s.setMsix h fn e v).ev = { s.ev with msix := KMap.set (2 ^ 96) s.ev.msix (msixKey h fn e) v } := rfl
@[simp] theorem setMsix_at_o (s : State) (h fn e v : Nat) (j : Nat) : (s.setMsix h fn e v).o j = s.o j := rfl
@[simp] theorem setMsix_at_c (s : State) (h fn e v : Nat) (j : Nat) : (s.setMsix h fn e v).c j = s.c j := rfl
@[simp] theorem setMsix_at_port (s : State) (h fn e v : Nat) (j : Nat) : (s.setMsix h fn e v).port j = s.port j := rfl
@[simp] theorem setMsix_at_slot (s : State) (h fn e v : Nat) (j : Nat) : (s.setMsix h fn e v).slot j = s.slot j := rfl
@[simp] theorem setMsix_at_vppb (s : State) (h fn e v : Nat) (j i' : Nat) : (s.setMsix h fn e v).vppb j i' = s.vppb j i' := rfl
@[simp] theorem setMsix_at_binding (s : State) (h fn e v : Nat) (j i' : Nat) : (s.setMsix h fn e v).binding j i' = s.binding j i' := rfl
@[simp] theorem setMsix_at_sess (s : State) (h fn e v : Nat) (j : Nat) : (s.setMsix h fn e v).sess? j = s.sess? j := rfl
@[simp] theorem setMsix_at_coreAt (s : State) (h fn e v : Nat) (j : Nat) : (s.setMsix h fn e v).coreAt j = s.coreAt j := rfl
@[simp] theorem setMsix_at_slice (s : State) (h fn e v : Nat) (j : Nat) : (s.setMsix h fn e v).slice j = s.slice j := rfl
@[simp] theorem setMsix_at_win (s : State) (h fn e v : Nat) (j : Nat) : (s.setMsix h fn e v).win j = s.win j := rfl
@[simp] theorem setMsix_at_rail (s : State) (h fn e v : Nat) (j : Nat) : (s.setMsix h fn e v).rail j = s.rail j := rfl
@[simp] theorem setMsix_at_part (s : State) (h fn e v : Nat) (j : Nat) : (s.setMsix h fn e v).part j = s.part j := rfl
@[simp] theorem setMsix_at_line (s : State) (h fn e v : Nat) (j : Nat) : (s.setMsix h fn e v).line j = s.line j := rfl
@[simp] theorem setMsix_at_strandOf (s : State) (h fn e v : Nat) (j i' k' : Nat) : (s.setMsix h fn e v).strandOf j i' k' = s.strandOf j i' k' := rfl
@[simp] theorem setMsix_at_sdir (s : State) (h fn e v : Nat) (j i' : Nat) : (s.setMsix h fn e v).sdir j i' = s.sdir j i' := rfl
@[simp] theorem setMsix_at_isVcsUp (s : State) (h fn e v : Nat) (j : Nat) : (s.setMsix h fn e v).isVcsUp j = s.isVcsUp j := rfl
@[simp] theorem setMsix_at_txn (s : State) (h fn e v : Nat) (j : Nat) : (s.setMsix h fn e v).txn? j = s.txn? j := rfl
@[simp] theorem setMsix_at_hubHeld (s : State) (h fn e v : Nat) : (s.setMsix h fn e v).hubHeld = s.hubHeld := rfl
@[simp] theorem setMsix_at_islandUp (s : State) (h fn e v : Nat) : (s.setMsix h fn e v).islandUp = s.islandUp := rfl
@[simp] theorem setMsix_at_lcState (s : State) (h fn e v : Nat) : (s.setMsix h fn e v).lcState = s.lcState := rfl

/-! updUsp -/

@[simp] theorem updUsp_now (s : State) (n : Nat) (f : Usp → Usp) : (s.updUsp n f).now = s.now := rfl
@[simp] theorem updUsp_freeIx (s : State) (n : Nat) (f : Usp → Usp) : (s.updUsp n f).freeIx = s.freeIx := rfl
@[simp] theorem updUsp_od (s : State) (n : Nat) (f : Usp → Usp) : (s.updUsp n f).od = s.od := rfl
@[simp] theorem updUsp_csr (s : State) (n : Nat) (f : Usp → Usp) : (s.updUsp n f).csr = s.csr := rfl
@[simp] theorem updUsp_ev (s : State) (n : Nat) (f : Usp → Usp) : (s.updUsp n f).ev = s.ev := rfl
@[simp] theorem updUsp_mg (s : State) (n : Nat) (f : Usp → Usp) : (s.updUsp n f).mg = s.mg := rfl
@[simp] theorem updUsp_gen (s : State) (n : Nat) (f : Usp → Usp) : (s.updUsp n f).gen = s.gen := rfl
@[simp] theorem updUsp_life (s : State) (n : Nat) (f : Usp → Usp) : (s.updUsp n f).life = s.life := rfl
@[simp] theorem updUsp_st (s : State) (n : Nat) (f : Usp → Usp) : (s.updUsp n f).st = s.st := rfl
@[simp] theorem updUsp_pw (s : State) (n : Nat) (f : Usp → Usp) : (s.updUsp n f).pw = s.pw := rfl
@[simp] theorem updUsp_tm (s : State) (n : Nat) (f : Usp → Usp) : (s.updUsp n f).tm = s.tm := rfl
@[simp] theorem updUsp_pl (s : State) (n : Nat) (f : Usp → Usp) : (s.updUsp n f).pl = s.pl := rfl
@[simp] theorem updUsp_cr (s : State) (n : Nat) (f : Usp → Usp) : (s.updUsp n f).cr = s.cr := rfl
@[simp] theorem updUsp_ord (s : State) (n : Nat) (f : Usp → Usp) : (s.updUsp n f).ord = s.ord := rfl
@[simp] theorem updUsp_seams (s : State) (n : Nat) (f : Usp → Usp) : (s.updUsp n f).seams = s.seams := rfl
@[simp] theorem updUsp_mv (s : State) (n : Nat) (f : Usp → Usp) : (s.updUsp n f).mv = s.mv := rfl
@[simp] theorem updUsp_gd (s : State) (n : Nat) (f : Usp → Usp) : (s.updUsp n f).gd = s.gd := rfl
@[simp] theorem updUsp_out (s : State) (n : Nat) (f : Usp → Usp) : (s.updUsp n f).out = s.out := rfl
@[simp] theorem updUsp_pending (s : State) (n : Nat) (f : Usp → Usp) : (s.updUsp n f).pending = s.pending := rfl
theorem updUsp_fab_eq (s : State) (n : Nat) (f : Usp → Usp) :
    (s.updUsp n f).fab = { s.fab with usp := KMap.upd {} s.fab.usp n f } := rfl
@[simp] theorem updUsp_at_o (s : State) (n : Nat) (f : Usp → Usp) (j : Nat) : (s.updUsp n f).o j = s.o j := rfl
@[simp] theorem updUsp_at_c (s : State) (n : Nat) (f : Usp → Usp) (j : Nat) : (s.updUsp n f).c j = s.c j := rfl
@[simp] theorem updUsp_at_blk (s : State) (n : Nat) (f : Usp → Usp) (j : Nat) : (s.updUsp n f).blk j = s.blk j := rfl
@[simp] theorem updUsp_at_slot (s : State) (n : Nat) (f : Usp → Usp) (j : Nat) : (s.updUsp n f).slot j = s.slot j := rfl
@[simp] theorem updUsp_at_sess (s : State) (n : Nat) (f : Usp → Usp) (j : Nat) : (s.updUsp n f).sess? j = s.sess? j := rfl
@[simp] theorem updUsp_at_coreAt (s : State) (n : Nat) (f : Usp → Usp) (j : Nat) : (s.updUsp n f).coreAt j = s.coreAt j := rfl
@[simp] theorem updUsp_at_slice (s : State) (n : Nat) (f : Usp → Usp) (j : Nat) : (s.updUsp n f).slice j = s.slice j := rfl
@[simp] theorem updUsp_at_win (s : State) (n : Nat) (f : Usp → Usp) (j : Nat) : (s.updUsp n f).win j = s.win j := rfl
@[simp] theorem updUsp_at_rail (s : State) (n : Nat) (f : Usp → Usp) (j : Nat) : (s.updUsp n f).rail j = s.rail j := rfl
@[simp] theorem updUsp_at_part (s : State) (n : Nat) (f : Usp → Usp) (j : Nat) : (s.updUsp n f).part j = s.part j := rfl
@[simp] theorem updUsp_at_line (s : State) (n : Nat) (f : Usp → Usp) (j : Nat) : (s.updUsp n f).line j = s.line j := rfl
@[simp] theorem updUsp_at_strandOf (s : State) (n : Nat) (f : Usp → Usp) (j i' k' : Nat) : (s.updUsp n f).strandOf j i' k' = s.strandOf j i' k' := rfl
@[simp] theorem updUsp_at_sdir (s : State) (n : Nat) (f : Usp → Usp) (j i' : Nat) : (s.updUsp n f).sdir j i' = s.sdir j i' := rfl
@[simp] theorem updUsp_at_txn (s : State) (n : Nat) (f : Usp → Usp) (j : Nat) : (s.updUsp n f).txn? j = s.txn? j := rfl
@[simp] theorem updUsp_at_hubHeld (s : State) (n : Nat) (f : Usp → Usp) : (s.updUsp n f).hubHeld = s.hubHeld := rfl
@[simp] theorem updUsp_at_islandUp (s : State) (n : Nat) (f : Usp → Usp) : (s.updUsp n f).islandUp = s.islandUp := rfl
@[simp] theorem updUsp_at_lcState (s : State) (n : Nat) (f : Usp → Usp) : (s.updUsp n f).lcState = s.lcState := rfl

/-! toCrown -/

@[simp] theorem toCrown_now (s : State) (w line : Nat) (e : LineEntry) : (s.toCrown w line e).now = s.now := rfl
@[simp] theorem toCrown_freeIx (s : State) (w line : Nat) (e : LineEntry) : (s.toCrown w line e).freeIx = s.freeIx := rfl
@[simp] theorem toCrown_od (s : State) (w line : Nat) (e : LineEntry) : (s.toCrown w line e).od = s.od := rfl
@[simp] theorem toCrown_csr (s : State) (w line : Nat) (e : LineEntry) : (s.toCrown w line e).csr = s.csr := rfl
@[simp] theorem toCrown_ev (s : State) (w line : Nat) (e : LineEntry) : (s.toCrown w line e).ev = s.ev := rfl
@[simp] theorem toCrown_mg (s : State) (w line : Nat) (e : LineEntry) : (s.toCrown w line e).mg = s.mg := rfl
@[simp] theorem toCrown_gen (s : State) (w line : Nat) (e : LineEntry) : (s.toCrown w line e).gen = s.gen := rfl
@[simp] theorem toCrown_life (s : State) (w line : Nat) (e : LineEntry) : (s.toCrown w line e).life = s.life := rfl
@[simp] theorem toCrown_st (s : State) (w line : Nat) (e : LineEntry) : (s.toCrown w line e).st = s.st := rfl
@[simp] theorem toCrown_pw (s : State) (w line : Nat) (e : LineEntry) : (s.toCrown w line e).pw = s.pw := rfl
@[simp] theorem toCrown_tm (s : State) (w line : Nat) (e : LineEntry) : (s.toCrown w line e).tm = s.tm := rfl
@[simp] theorem toCrown_pl (s : State) (w line : Nat) (e : LineEntry) : (s.toCrown w line e).pl = s.pl := rfl
@[simp] theorem toCrown_ord (s : State) (w line : Nat) (e : LineEntry) : (s.toCrown w line e).ord = s.ord := rfl
@[simp] theorem toCrown_fab (s : State) (w line : Nat) (e : LineEntry) : (s.toCrown w line e).fab = s.fab := rfl
@[simp] theorem toCrown_seams (s : State) (w line : Nat) (e : LineEntry) : (s.toCrown w line e).seams = s.seams := rfl
@[simp] theorem toCrown_mv (s : State) (w line : Nat) (e : LineEntry) : (s.toCrown w line e).mv = s.mv := rfl
@[simp] theorem toCrown_gd (s : State) (w line : Nat) (e : LineEntry) : (s.toCrown w line e).gd = s.gd := rfl
@[simp] theorem toCrown_out (s : State) (w line : Nat) (e : LineEntry) : (s.toCrown w line e).out = s.out := rfl
@[simp] theorem toCrown_pending (s : State) (w line : Nat) (e : LineEntry) : (s.toCrown w line e).pending = s.pending := rfl
theorem toCrown_cr_eq (s : State) (w line : Nat) (e : LineEntry) :
    (s.toCrown w line e).cr = { s.cr with inbound := KMap.upd [] s.cr.inbound 4 (· ++ [{ w := w, line := line, entry := e, cells := 0 }]) } := rfl
@[simp] theorem toCrown_at_o (s : State) (w line : Nat) (e : LineEntry) (j : Nat) : (s.toCrown w line e).o j = s.o j := rfl
@[simp] theorem toCrown_at_c (s : State) (w line : Nat) (e : LineEntry) (j : Nat) : (s.toCrown w line e).c j = s.c j := rfl
@[simp] theorem toCrown_at_blk (s : State) (w line : Nat) (e : LineEntry) (j : Nat) : (s.toCrown w line e).blk j = s.blk j := rfl
@[simp] theorem toCrown_at_port (s : State) (w line : Nat) (e : LineEntry) (j : Nat) : (s.toCrown w line e).port j = s.port j := rfl
@[simp] theorem toCrown_at_slot (s : State) (w line : Nat) (e : LineEntry) (j : Nat) : (s.toCrown w line e).slot j = s.slot j := rfl
@[simp] theorem toCrown_at_vppb (s : State) (w line : Nat) (e : LineEntry) (j i' : Nat) : (s.toCrown w line e).vppb j i' = s.vppb j i' := rfl
@[simp] theorem toCrown_at_binding (s : State) (w line : Nat) (e : LineEntry) (j i' : Nat) : (s.toCrown w line e).binding j i' = s.binding j i' := rfl
@[simp] theorem toCrown_at_sess (s : State) (w line : Nat) (e : LineEntry) (j : Nat) : (s.toCrown w line e).sess? j = s.sess? j := rfl
@[simp] theorem toCrown_at_coreAt (s : State) (w line : Nat) (e : LineEntry) (j : Nat) : (s.toCrown w line e).coreAt j = s.coreAt j := rfl
@[simp] theorem toCrown_at_slice (s : State) (w line : Nat) (e : LineEntry) (j : Nat) : (s.toCrown w line e).slice j = s.slice j := rfl
@[simp] theorem toCrown_at_rail (s : State) (w line : Nat) (e : LineEntry) (j : Nat) : (s.toCrown w line e).rail j = s.rail j := rfl
@[simp] theorem toCrown_at_part (s : State) (w line : Nat) (e : LineEntry) (j : Nat) : (s.toCrown w line e).part j = s.part j := rfl
@[simp] theorem toCrown_at_line (s : State) (w line : Nat) (e : LineEntry) (j : Nat) : (s.toCrown w line e).line j = s.line j := rfl
@[simp] theorem toCrown_at_strandOf (s : State) (w line : Nat) (e : LineEntry) (j i' k' : Nat) : (s.toCrown w line e).strandOf j i' k' = s.strandOf j i' k' := rfl
@[simp] theorem toCrown_at_sdir (s : State) (w line : Nat) (e : LineEntry) (j i' : Nat) : (s.toCrown w line e).sdir j i' = s.sdir j i' := rfl
@[simp] theorem toCrown_at_isVcsUp (s : State) (w line : Nat) (e : LineEntry) (j : Nat) : (s.toCrown w line e).isVcsUp j = s.isVcsUp j := rfl
@[simp] theorem toCrown_at_txn (s : State) (w line : Nat) (e : LineEntry) (j : Nat) : (s.toCrown w line e).txn? j = s.txn? j := rfl
@[simp] theorem toCrown_at_hubHeld (s : State) (w line : Nat) (e : LineEntry) : (s.toCrown w line e).hubHeld = s.hubHeld := rfl
@[simp] theorem toCrown_at_islandUp (s : State) (w line : Nat) (e : LineEntry) : (s.toCrown w line e).islandUp = s.islandUp := rfl
@[simp] theorem toCrown_at_lcState (s : State) (w line : Nat) (e : LineEntry) : (s.toCrown w line e).lcState = s.lcState := rfl

/-! noteError -/

@[simp] theorem noteError_now (s : State) (agent port : Nat) : (s.noteError agent port).now = s.now := rfl
@[simp] theorem noteError_freeIx (s : State) (agent port : Nat) : (s.noteError agent port).freeIx = s.freeIx := rfl
@[simp] theorem noteError_od (s : State) (agent port : Nat) : (s.noteError agent port).od = s.od := rfl
@[simp] theorem noteError_csr (s : State) (agent port : Nat) : (s.noteError agent port).csr = s.csr := rfl
@[simp] theorem noteError_ev (s : State) (agent port : Nat) : (s.noteError agent port).ev = s.ev := rfl
@[simp] theorem noteError_mg (s : State) (agent port : Nat) : (s.noteError agent port).mg = s.mg := rfl
@[simp] theorem noteError_gen (s : State) (agent port : Nat) : (s.noteError agent port).gen = s.gen := rfl
@[simp] theorem noteError_life (s : State) (agent port : Nat) : (s.noteError agent port).life = s.life := rfl
@[simp] theorem noteError_st (s : State) (agent port : Nat) : (s.noteError agent port).st = s.st := rfl
@[simp] theorem noteError_pw (s : State) (agent port : Nat) : (s.noteError agent port).pw = s.pw := rfl
@[simp] theorem noteError_tm (s : State) (agent port : Nat) : (s.noteError agent port).tm = s.tm := rfl
@[simp] theorem noteError_pl (s : State) (agent port : Nat) : (s.noteError agent port).pl = s.pl := rfl
@[simp] theorem noteError_cr (s : State) (agent port : Nat) : (s.noteError agent port).cr = s.cr := rfl
@[simp] theorem noteError_fab (s : State) (agent port : Nat) : (s.noteError agent port).fab = s.fab := rfl
@[simp] theorem noteError_seams (s : State) (agent port : Nat) : (s.noteError agent port).seams = s.seams := rfl
@[simp] theorem noteError_mv (s : State) (agent port : Nat) : (s.noteError agent port).mv = s.mv := rfl
@[simp] theorem noteError_gd (s : State) (agent port : Nat) : (s.noteError agent port).gd = s.gd := rfl
@[simp] theorem noteError_out (s : State) (agent port : Nat) : (s.noteError agent port).out = s.out := rfl
@[simp] theorem noteError_pending (s : State) (agent port : Nat) : (s.noteError agent port).pending = s.pending := rfl
theorem noteError_ord_eq (s : State) (agent port : Nat) :
    (s.noteError agent port).ord = { s.ord with errSince := KMap.upd 0 s.ord.errSince agent (fun n => if n == 0 then port + 1 else n) } := rfl
@[simp] theorem noteError_at_o (s : State) (agent port : Nat) (j : Nat) : (s.noteError agent port).o j = s.o j := rfl
@[simp] theorem noteError_at_c (s : State) (agent port : Nat) (j : Nat) : (s.noteError agent port).c j = s.c j := rfl
@[simp] theorem noteError_at_blk (s : State) (agent port : Nat) (j : Nat) : (s.noteError agent port).blk j = s.blk j := rfl
@[simp] theorem noteError_at_port (s : State) (agent port : Nat) (j : Nat) : (s.noteError agent port).port j = s.port j := rfl
@[simp] theorem noteError_at_slot (s : State) (agent port : Nat) (j : Nat) : (s.noteError agent port).slot j = s.slot j := rfl
@[simp] theorem noteError_at_vppb (s : State) (agent port : Nat) (j i' : Nat) : (s.noteError agent port).vppb j i' = s.vppb j i' := rfl
@[simp] theorem noteError_at_binding (s : State) (agent port : Nat) (j i' : Nat) : (s.noteError agent port).binding j i' = s.binding j i' := rfl
@[simp] theorem noteError_at_sess (s : State) (agent port : Nat) (j : Nat) : (s.noteError agent port).sess? j = s.sess? j := rfl
@[simp] theorem noteError_at_slice (s : State) (agent port : Nat) (j : Nat) : (s.noteError agent port).slice j = s.slice j := rfl
@[simp] theorem noteError_at_win (s : State) (agent port : Nat) (j : Nat) : (s.noteError agent port).win j = s.win j := rfl
@[simp] theorem noteError_at_rail (s : State) (agent port : Nat) (j : Nat) : (s.noteError agent port).rail j = s.rail j := rfl
@[simp] theorem noteError_at_part (s : State) (agent port : Nat) (j : Nat) : (s.noteError agent port).part j = s.part j := rfl
@[simp] theorem noteError_at_line (s : State) (agent port : Nat) (j : Nat) : (s.noteError agent port).line j = s.line j := rfl
@[simp] theorem noteError_at_strandOf (s : State) (agent port : Nat) (j i' k' : Nat) : (s.noteError agent port).strandOf j i' k' = s.strandOf j i' k' := rfl
@[simp] theorem noteError_at_sdir (s : State) (agent port : Nat) (j i' : Nat) : (s.noteError agent port).sdir j i' = s.sdir j i' := rfl
@[simp] theorem noteError_at_isVcsUp (s : State) (agent port : Nat) (j : Nat) : (s.noteError agent port).isVcsUp j = s.isVcsUp j := rfl
@[simp] theorem noteError_at_hubHeld (s : State) (agent port : Nat) : (s.noteError agent port).hubHeld = s.hubHeld := rfl
@[simp] theorem noteError_at_islandUp (s : State) (agent port : Nat) : (s.noteError agent port).islandUp = s.islandUp := rfl
@[simp] theorem noteError_at_lcState (s : State) (agent port : Nat) : (s.noteError agent port).lcState = s.lcState := rfl

/-! setExtent -/

@[simp] theorem setExtent_now (s : State) (x : Extent) : (s.setExtent x).now = s.now := rfl
@[simp] theorem setExtent_freeIx (s : State) (x : Extent) : (s.setExtent x).freeIx = s.freeIx := rfl
@[simp] theorem setExtent_od (s : State) (x : Extent) : (s.setExtent x).od = s.od := rfl
@[simp] theorem setExtent_csr (s : State) (x : Extent) : (s.setExtent x).csr = s.csr := rfl
@[simp] theorem setExtent_ev (s : State) (x : Extent) : (s.setExtent x).ev = s.ev := rfl
@[simp] theorem setExtent_mg (s : State) (x : Extent) : (s.setExtent x).mg = s.mg := rfl
@[simp] theorem setExtent_gen (s : State) (x : Extent) : (s.setExtent x).gen = s.gen := rfl
@[simp] theorem setExtent_life (s : State) (x : Extent) : (s.setExtent x).life = s.life := rfl
@[simp] theorem setExtent_st (s : State) (x : Extent) : (s.setExtent x).st = s.st := rfl
@[simp] theorem setExtent_pw (s : State) (x : Extent) : (s.setExtent x).pw = s.pw := rfl
@[simp] theorem setExtent_tm (s : State) (x : Extent) : (s.setExtent x).tm = s.tm := rfl
@[simp] theorem setExtent_pl (s : State) (x : Extent) : (s.setExtent x).pl = s.pl := rfl
@[simp] theorem setExtent_cr (s : State) (x : Extent) : (s.setExtent x).cr = s.cr := rfl
@[simp] theorem setExtent_ord (s : State) (x : Extent) : (s.setExtent x).ord = s.ord := rfl
@[simp] theorem setExtent_seams (s : State) (x : Extent) : (s.setExtent x).seams = s.seams := rfl
@[simp] theorem setExtent_mv (s : State) (x : Extent) : (s.setExtent x).mv = s.mv := rfl
@[simp] theorem setExtent_gd (s : State) (x : Extent) : (s.setExtent x).gd = s.gd := rfl
@[simp] theorem setExtent_out (s : State) (x : Extent) : (s.setExtent x).out = s.out := rfl
@[simp] theorem setExtent_pending (s : State) (x : Extent) : (s.setExtent x).pending = s.pending := rfl
theorem setExtent_fab_eq (s : State) (x : Extent) :
    (s.setExtent x).fab = { s.fab with extents := s.fab.extents.map (fun y => if y.vcs == x.vcs && y.dpa == x.dpa && y.state ≠ .unmapped then x else y) } := rfl
@[simp] theorem setExtent_at_o (s : State) (x : Extent) (j : Nat) : (s.setExtent x).o j = s.o j := rfl
@[simp] theorem setExtent_at_c (s : State) (x : Extent) (j : Nat) : (s.setExtent x).c j = s.c j := rfl
@[simp] theorem setExtent_at_blk (s : State) (x : Extent) (j : Nat) : (s.setExtent x).blk j = s.blk j := rfl
@[simp] theorem setExtent_at_slot (s : State) (x : Extent) (j : Nat) : (s.setExtent x).slot j = s.slot j := rfl
@[simp] theorem setExtent_at_sess (s : State) (x : Extent) (j : Nat) : (s.setExtent x).sess? j = s.sess? j := rfl
@[simp] theorem setExtent_at_coreAt (s : State) (x : Extent) (j : Nat) : (s.setExtent x).coreAt j = s.coreAt j := rfl
@[simp] theorem setExtent_at_slice (s : State) (x : Extent) (j : Nat) : (s.setExtent x).slice j = s.slice j := rfl
@[simp] theorem setExtent_at_win (s : State) (x : Extent) (j : Nat) : (s.setExtent x).win j = s.win j := rfl
@[simp] theorem setExtent_at_rail (s : State) (x : Extent) (j : Nat) : (s.setExtent x).rail j = s.rail j := rfl
@[simp] theorem setExtent_at_part (s : State) (x : Extent) (j : Nat) : (s.setExtent x).part j = s.part j := rfl
@[simp] theorem setExtent_at_line (s : State) (x : Extent) (j : Nat) : (s.setExtent x).line j = s.line j := rfl
@[simp] theorem setExtent_at_strandOf (s : State) (x : Extent) (j i' k' : Nat) : (s.setExtent x).strandOf j i' k' = s.strandOf j i' k' := rfl
@[simp] theorem setExtent_at_sdir (s : State) (x : Extent) (j i' : Nat) : (s.setExtent x).sdir j i' = s.sdir j i' := rfl
@[simp] theorem setExtent_at_txn (s : State) (x : Extent) (j : Nat) : (s.setExtent x).txn? j = s.txn? j := rfl
@[simp] theorem setExtent_at_hubHeld (s : State) (x : Extent) : (s.setExtent x).hubHeld = s.hubHeld := rfl
@[simp] theorem setExtent_at_islandUp (s : State) (x : Extent) : (s.setExtent x).islandUp = s.islandUp := rfl
@[simp] theorem setExtent_at_lcState (s : State) (x : Extent) : (s.setExtent x).lcState = s.lcState := rfl

/-! blameAt -/

@[simp] theorem blameAt_now (s : State) (id p : Nat) : (s.blameAt id p).now = s.now := rfl
@[simp] theorem blameAt_freeIx (s : State) (id p : Nat) : (s.blameAt id p).freeIx = s.freeIx := rfl
@[simp] theorem blameAt_od (s : State) (id p : Nat) : (s.blameAt id p).od = s.od := rfl
@[simp] theorem blameAt_csr (s : State) (id p : Nat) : (s.blameAt id p).csr = s.csr := rfl
@[simp] theorem blameAt_ev (s : State) (id p : Nat) : (s.blameAt id p).ev = s.ev := rfl
@[simp] theorem blameAt_mg (s : State) (id p : Nat) : (s.blameAt id p).mg = s.mg := rfl
@[simp] theorem blameAt_gen (s : State) (id p : Nat) : (s.blameAt id p).gen = s.gen := rfl
@[simp] theorem blameAt_life (s : State) (id p : Nat) : (s.blameAt id p).life = s.life := rfl
@[simp] theorem blameAt_st (s : State) (id p : Nat) : (s.blameAt id p).st = s.st := rfl
@[simp] theorem blameAt_pw (s : State) (id p : Nat) : (s.blameAt id p).pw = s.pw := rfl
@[simp] theorem blameAt_tm (s : State) (id p : Nat) : (s.blameAt id p).tm = s.tm := rfl
@[simp] theorem blameAt_pl (s : State) (id p : Nat) : (s.blameAt id p).pl = s.pl := rfl
@[simp] theorem blameAt_cr (s : State) (id p : Nat) : (s.blameAt id p).cr = s.cr := rfl
@[simp] theorem blameAt_fab (s : State) (id p : Nat) : (s.blameAt id p).fab = s.fab := rfl
@[simp] theorem blameAt_seams (s : State) (id p : Nat) : (s.blameAt id p).seams = s.seams := rfl
@[simp] theorem blameAt_mv (s : State) (id p : Nat) : (s.blameAt id p).mv = s.mv := rfl
@[simp] theorem blameAt_gd (s : State) (id p : Nat) : (s.blameAt id p).gd = s.gd := rfl
@[simp] theorem blameAt_out (s : State) (id p : Nat) : (s.blameAt id p).out = s.out := rfl
@[simp] theorem blameAt_pending (s : State) (id p : Nat) : (s.blameAt id p).pending = s.pending := rfl
theorem blameAt_ord_eq (s : State) (id p : Nat) :
    (s.blameAt id p).ord = { s.ord with txn := KMap.upd none s.ord.txn id (fun t => t.map (fun t => { t with blame := p })) } := rfl
@[simp] theorem blameAt_at_o (s : State) (id p : Nat) (j : Nat) : (s.blameAt id p).o j = s.o j := rfl
@[simp] theorem blameAt_at_c (s : State) (id p : Nat) (j : Nat) : (s.blameAt id p).c j = s.c j := rfl
@[simp] theorem blameAt_at_blk (s : State) (id p : Nat) (j : Nat) : (s.blameAt id p).blk j = s.blk j := rfl
@[simp] theorem blameAt_at_port (s : State) (id p : Nat) (j : Nat) : (s.blameAt id p).port j = s.port j := rfl
@[simp] theorem blameAt_at_slot (s : State) (id p : Nat) (j : Nat) : (s.blameAt id p).slot j = s.slot j := rfl
@[simp] theorem blameAt_at_vppb (s : State) (id p : Nat) (j i' : Nat) : (s.blameAt id p).vppb j i' = s.vppb j i' := rfl
@[simp] theorem blameAt_at_binding (s : State) (id p : Nat) (j i' : Nat) : (s.blameAt id p).binding j i' = s.binding j i' := rfl
@[simp] theorem blameAt_at_sess (s : State) (id p : Nat) (j : Nat) : (s.blameAt id p).sess? j = s.sess? j := rfl
@[simp] theorem blameAt_at_slice (s : State) (id p : Nat) (j : Nat) : (s.blameAt id p).slice j = s.slice j := rfl
@[simp] theorem blameAt_at_win (s : State) (id p : Nat) (j : Nat) : (s.blameAt id p).win j = s.win j := rfl
@[simp] theorem blameAt_at_rail (s : State) (id p : Nat) (j : Nat) : (s.blameAt id p).rail j = s.rail j := rfl
@[simp] theorem blameAt_at_part (s : State) (id p : Nat) (j : Nat) : (s.blameAt id p).part j = s.part j := rfl
@[simp] theorem blameAt_at_line (s : State) (id p : Nat) (j : Nat) : (s.blameAt id p).line j = s.line j := rfl
@[simp] theorem blameAt_at_strandOf (s : State) (id p : Nat) (j i' k' : Nat) : (s.blameAt id p).strandOf j i' k' = s.strandOf j i' k' := rfl
@[simp] theorem blameAt_at_sdir (s : State) (id p : Nat) (j i' : Nat) : (s.blameAt id p).sdir j i' = s.sdir j i' := rfl
@[simp] theorem blameAt_at_isVcsUp (s : State) (id p : Nat) (j : Nat) : (s.blameAt id p).isVcsUp j = s.isVcsUp j := rfl
@[simp] theorem blameAt_at_hubHeld (s : State) (id p : Nat) : (s.blameAt id p).hubHeld = s.hubHeld := rfl
@[simp] theorem blameAt_at_islandUp (s : State) (id p : Nat) : (s.blameAt id p).islandUp = s.islandUp := rfl
@[simp] theorem blameAt_at_lcState (s : State) (id p : Nat) : (s.blameAt id p).lcState = s.lcState := rfl

/-! setLineQ -/

@[simp] theorem setLineQ_now (s : State) (w line : Nat) (l : List LineEntry) : (s.setLineQ w line l).now = s.now := rfl
@[simp] theorem setLineQ_freeIx (s : State) (w line : Nat) (l : List LineEntry) : (s.setLineQ w line l).freeIx = s.freeIx := rfl
@[simp] theorem setLineQ_od (s : State) (w line : Nat) (l : List LineEntry) : (s.setLineQ w line l).od = s.od := rfl
@[simp] theorem setLineQ_csr (s : State) (w line : Nat) (l : List LineEntry) : (s.setLineQ w line l).csr = s.csr := rfl
@[simp] theorem setLineQ_ev (s : State) (w line : Nat) (l : List LineEntry) : (s.setLineQ w line l).ev = s.ev := rfl
@[simp] theorem setLineQ_mg (s : State) (w line : Nat) (l : List LineEntry) : (s.setLineQ w line l).mg = s.mg := rfl
@[simp] theorem setLineQ_gen (s : State) (w line : Nat) (l : List LineEntry) : (s.setLineQ w line l).gen = s.gen := rfl
@[simp] theorem setLineQ_life (s : State) (w line : Nat) (l : List LineEntry) : (s.setLineQ w line l).life = s.life := rfl
@[simp] theorem setLineQ_st (s : State) (w line : Nat) (l : List LineEntry) : (s.setLineQ w line l).st = s.st := rfl
@[simp] theorem setLineQ_pw (s : State) (w line : Nat) (l : List LineEntry) : (s.setLineQ w line l).pw = s.pw := rfl
@[simp] theorem setLineQ_tm (s : State) (w line : Nat) (l : List LineEntry) : (s.setLineQ w line l).tm = s.tm := rfl
@[simp] theorem setLineQ_pl (s : State) (w line : Nat) (l : List LineEntry) : (s.setLineQ w line l).pl = s.pl := rfl
@[simp] theorem setLineQ_ord (s : State) (w line : Nat) (l : List LineEntry) : (s.setLineQ w line l).ord = s.ord := rfl
@[simp] theorem setLineQ_fab (s : State) (w line : Nat) (l : List LineEntry) : (s.setLineQ w line l).fab = s.fab := rfl
@[simp] theorem setLineQ_seams (s : State) (w line : Nat) (l : List LineEntry) : (s.setLineQ w line l).seams = s.seams := rfl
@[simp] theorem setLineQ_mv (s : State) (w line : Nat) (l : List LineEntry) : (s.setLineQ w line l).mv = s.mv := rfl
@[simp] theorem setLineQ_gd (s : State) (w line : Nat) (l : List LineEntry) : (s.setLineQ w line l).gd = s.gd := rfl
@[simp] theorem setLineQ_out (s : State) (w line : Nat) (l : List LineEntry) : (s.setLineQ w line l).out = s.out := rfl
@[simp] theorem setLineQ_pending (s : State) (w line : Nat) (l : List LineEntry) : (s.setLineQ w line l).pending = s.pending := rfl
theorem setLineQ_cr_eq (s : State) (w line : Nat) (l : List LineEntry) :
    (s.setLineQ w line l).cr = { s.cr with queue := KMap.set [] s.cr.queue (dirKey w line) l } := rfl
@[simp] theorem setLineQ_at_o (s : State) (w line : Nat) (l : List LineEntry) (j : Nat) : (s.setLineQ w line l).o j = s.o j := rfl
@[simp] theorem setLineQ_at_c (s : State) (w line : Nat) (l : List LineEntry) (j : Nat) : (s.setLineQ w line l).c j = s.c j := rfl
@[simp] theorem setLineQ_at_blk (s : State) (w line : Nat) (l : List LineEntry) (j : Nat) : (s.setLineQ w line l).blk j = s.blk j := rfl
@[simp] theorem setLineQ_at_port (s : State) (w line : Nat) (l : List LineEntry) (j : Nat) : (s.setLineQ w line l).port j = s.port j := rfl
@[simp] theorem setLineQ_at_slot (s : State) (w line : Nat) (l : List LineEntry) (j : Nat) : (s.setLineQ w line l).slot j = s.slot j := rfl
@[simp] theorem setLineQ_at_vppb (s : State) (w line : Nat) (l : List LineEntry) (j i' : Nat) : (s.setLineQ w line l).vppb j i' = s.vppb j i' := rfl
@[simp] theorem setLineQ_at_binding (s : State) (w line : Nat) (l : List LineEntry) (j i' : Nat) : (s.setLineQ w line l).binding j i' = s.binding j i' := rfl
@[simp] theorem setLineQ_at_sess (s : State) (w line : Nat) (l : List LineEntry) (j : Nat) : (s.setLineQ w line l).sess? j = s.sess? j := rfl
@[simp] theorem setLineQ_at_coreAt (s : State) (w line : Nat) (l : List LineEntry) (j : Nat) : (s.setLineQ w line l).coreAt j = s.coreAt j := rfl
@[simp] theorem setLineQ_at_slice (s : State) (w line : Nat) (l : List LineEntry) (j : Nat) : (s.setLineQ w line l).slice j = s.slice j := rfl
@[simp] theorem setLineQ_at_rail (s : State) (w line : Nat) (l : List LineEntry) (j : Nat) : (s.setLineQ w line l).rail j = s.rail j := rfl
@[simp] theorem setLineQ_at_part (s : State) (w line : Nat) (l : List LineEntry) (j : Nat) : (s.setLineQ w line l).part j = s.part j := rfl
@[simp] theorem setLineQ_at_line (s : State) (w line : Nat) (l : List LineEntry) (j : Nat) : (s.setLineQ w line l).line j = s.line j := rfl
@[simp] theorem setLineQ_at_strandOf (s : State) (w line : Nat) (l : List LineEntry) (j i' k' : Nat) : (s.setLineQ w line l).strandOf j i' k' = s.strandOf j i' k' := rfl
@[simp] theorem setLineQ_at_sdir (s : State) (w line : Nat) (l : List LineEntry) (j i' : Nat) : (s.setLineQ w line l).sdir j i' = s.sdir j i' := rfl
@[simp] theorem setLineQ_at_isVcsUp (s : State) (w line : Nat) (l : List LineEntry) (j : Nat) : (s.setLineQ w line l).isVcsUp j = s.isVcsUp j := rfl
@[simp] theorem setLineQ_at_txn (s : State) (w line : Nat) (l : List LineEntry) (j : Nat) : (s.setLineQ w line l).txn? j = s.txn? j := rfl
@[simp] theorem setLineQ_at_hubHeld (s : State) (w line : Nat) (l : List LineEntry) : (s.setLineQ w line l).hubHeld = s.hubHeld := rfl
@[simp] theorem setLineQ_at_islandUp (s : State) (w line : Nat) (l : List LineEntry) : (s.setLineQ w line l).islandUp = s.islandUp := rfl
@[simp] theorem setLineQ_at_lcState (s : State) (w line : Nat) (l : List LineEntry) : (s.setLineQ w line l).lcState = s.lcState := rfl

/-! updSeam -/

@[simp] theorem updSeam_now (s : State) (sm : Nat) (f : Seam → Seam) : (s.updSeam sm f).now = s.now := rfl
@[simp] theorem updSeam_freeIx (s : State) (sm : Nat) (f : Seam → Seam) : (s.updSeam sm f).freeIx = s.freeIx := rfl
@[simp] theorem updSeam_od (s : State) (sm : Nat) (f : Seam → Seam) : (s.updSeam sm f).od = s.od := rfl
@[simp] theorem updSeam_csr (s : State) (sm : Nat) (f : Seam → Seam) : (s.updSeam sm f).csr = s.csr := rfl
@[simp] theorem updSeam_ev (s : State) (sm : Nat) (f : Seam → Seam) : (s.updSeam sm f).ev = s.ev := rfl
@[simp] theorem updSeam_mg (s : State) (sm : Nat) (f : Seam → Seam) : (s.updSeam sm f).mg = s.mg := rfl
@[simp] theorem updSeam_gen (s : State) (sm : Nat) (f : Seam → Seam) : (s.updSeam sm f).gen = s.gen := rfl
@[simp] theorem updSeam_life (s : State) (sm : Nat) (f : Seam → Seam) : (s.updSeam sm f).life = s.life := rfl
@[simp] theorem updSeam_st (s : State) (sm : Nat) (f : Seam → Seam) : (s.updSeam sm f).st = s.st := rfl
@[simp] theorem updSeam_pw (s : State) (sm : Nat) (f : Seam → Seam) : (s.updSeam sm f).pw = s.pw := rfl
@[simp] theorem updSeam_tm (s : State) (sm : Nat) (f : Seam → Seam) : (s.updSeam sm f).tm = s.tm := rfl
@[simp] theorem updSeam_pl (s : State) (sm : Nat) (f : Seam → Seam) : (s.updSeam sm f).pl = s.pl := rfl
@[simp] theorem updSeam_cr (s : State) (sm : Nat) (f : Seam → Seam) : (s.updSeam sm f).cr = s.cr := rfl
@[simp] theorem updSeam_ord (s : State) (sm : Nat) (f : Seam → Seam) : (s.updSeam sm f).ord = s.ord := rfl
@[simp] theorem updSeam_fab (s : State) (sm : Nat) (f : Seam → Seam) : (s.updSeam sm f).fab = s.fab := rfl
@[simp] theorem updSeam_mv (s : State) (sm : Nat) (f : Seam → Seam) : (s.updSeam sm f).mv = s.mv := rfl
@[simp] theorem updSeam_gd (s : State) (sm : Nat) (f : Seam → Seam) : (s.updSeam sm f).gd = s.gd := rfl
@[simp] theorem updSeam_out (s : State) (sm : Nat) (f : Seam → Seam) : (s.updSeam sm f).out = s.out := rfl
@[simp] theorem updSeam_pending (s : State) (sm : Nat) (f : Seam → Seam) : (s.updSeam sm f).pending = s.pending := rfl
theorem updSeam_seams_eq (s : State) (sm : Nat) (f : Seam → Seam) :
    (s.updSeam sm f).seams = { s.seams with seam := KMap.upd {} s.seams.seam sm f } := rfl
@[simp] theorem updSeam_at_o (s : State) (sm : Nat) (f : Seam → Seam) (j : Nat) : (s.updSeam sm f).o j = s.o j := rfl
@[simp] theorem updSeam_at_c (s : State) (sm : Nat) (f : Seam → Seam) (j : Nat) : (s.updSeam sm f).c j = s.c j := rfl
@[simp] theorem updSeam_at_blk (s : State) (sm : Nat) (f : Seam → Seam) (j : Nat) : (s.updSeam sm f).blk j = s.blk j := rfl
@[simp] theorem updSeam_at_port (s : State) (sm : Nat) (f : Seam → Seam) (j : Nat) : (s.updSeam sm f).port j = s.port j := rfl
@[simp] theorem updSeam_at_slot (s : State) (sm : Nat) (f : Seam → Seam) (j : Nat) : (s.updSeam sm f).slot j = s.slot j := rfl
@[simp] theorem updSeam_at_vppb (s : State) (sm : Nat) (f : Seam → Seam) (j i' : Nat) : (s.updSeam sm f).vppb j i' = s.vppb j i' := rfl
@[simp] theorem updSeam_at_binding (s : State) (sm : Nat) (f : Seam → Seam) (j i' : Nat) : (s.updSeam sm f).binding j i' = s.binding j i' := rfl
@[simp] theorem updSeam_at_sess (s : State) (sm : Nat) (f : Seam → Seam) (j : Nat) : (s.updSeam sm f).sess? j = s.sess? j := rfl
@[simp] theorem updSeam_at_coreAt (s : State) (sm : Nat) (f : Seam → Seam) (j : Nat) : (s.updSeam sm f).coreAt j = s.coreAt j := rfl
@[simp] theorem updSeam_at_slice (s : State) (sm : Nat) (f : Seam → Seam) (j : Nat) : (s.updSeam sm f).slice j = s.slice j := rfl
@[simp] theorem updSeam_at_win (s : State) (sm : Nat) (f : Seam → Seam) (j : Nat) : (s.updSeam sm f).win j = s.win j := rfl
@[simp] theorem updSeam_at_rail (s : State) (sm : Nat) (f : Seam → Seam) (j : Nat) : (s.updSeam sm f).rail j = s.rail j := rfl
@[simp] theorem updSeam_at_part (s : State) (sm : Nat) (f : Seam → Seam) (j : Nat) : (s.updSeam sm f).part j = s.part j := rfl
@[simp] theorem updSeam_at_line (s : State) (sm : Nat) (f : Seam → Seam) (j : Nat) : (s.updSeam sm f).line j = s.line j := rfl
@[simp] theorem updSeam_at_isVcsUp (s : State) (sm : Nat) (f : Seam → Seam) (j : Nat) : (s.updSeam sm f).isVcsUp j = s.isVcsUp j := rfl
@[simp] theorem updSeam_at_txn (s : State) (sm : Nat) (f : Seam → Seam) (j : Nat) : (s.updSeam sm f).txn? j = s.txn? j := rfl
@[simp] theorem updSeam_at_hubHeld (s : State) (sm : Nat) (f : Seam → Seam) : (s.updSeam sm f).hubHeld = s.hubHeld := rfl
@[simp] theorem updSeam_at_islandUp (s : State) (sm : Nat) (f : Seam → Seam) : (s.updSeam sm f).islandUp = s.islandUp := rfl
@[simp] theorem updSeam_at_lcState (s : State) (sm : Nat) (f : Seam → Seam) : (s.updSeam sm f).lcState = s.lcState := rfl

/-! countSnoop -/

@[simp] theorem countSnoop_now (s : State) (h : Nat) (up : Bool) : (s.countSnoop h up).now = s.now := rfl
@[simp] theorem countSnoop_freeIx (s : State) (h : Nat) (up : Bool) : (s.countSnoop h up).freeIx = s.freeIx := rfl
@[simp] theorem countSnoop_od (s : State) (h : Nat) (up : Bool) : (s.countSnoop h up).od = s.od := rfl
@[simp] theorem countSnoop_csr (s : State) (h : Nat) (up : Bool) : (s.countSnoop h up).csr = s.csr := rfl
@[simp] theorem countSnoop_ev (s : State) (h : Nat) (up : Bool) : (s.countSnoop h up).ev = s.ev := rfl
@[simp] theorem countSnoop_mg (s : State) (h : Nat) (up : Bool) : (s.countSnoop h up).mg = s.mg := rfl
@[simp] theorem countSnoop_gen (s : State) (h : Nat) (up : Bool) : (s.countSnoop h up).gen = s.gen := rfl
@[simp] theorem countSnoop_life (s : State) (h : Nat) (up : Bool) : (s.countSnoop h up).life = s.life := rfl
@[simp] theorem countSnoop_st (s : State) (h : Nat) (up : Bool) : (s.countSnoop h up).st = s.st := rfl
@[simp] theorem countSnoop_pw (s : State) (h : Nat) (up : Bool) : (s.countSnoop h up).pw = s.pw := rfl
@[simp] theorem countSnoop_tm (s : State) (h : Nat) (up : Bool) : (s.countSnoop h up).tm = s.tm := rfl
@[simp] theorem countSnoop_pl (s : State) (h : Nat) (up : Bool) : (s.countSnoop h up).pl = s.pl := rfl
@[simp] theorem countSnoop_ord (s : State) (h : Nat) (up : Bool) : (s.countSnoop h up).ord = s.ord := rfl
@[simp] theorem countSnoop_fab (s : State) (h : Nat) (up : Bool) : (s.countSnoop h up).fab = s.fab := rfl
@[simp] theorem countSnoop_seams (s : State) (h : Nat) (up : Bool) : (s.countSnoop h up).seams = s.seams := rfl
@[simp] theorem countSnoop_mv (s : State) (h : Nat) (up : Bool) : (s.countSnoop h up).mv = s.mv := rfl
@[simp] theorem countSnoop_gd (s : State) (h : Nat) (up : Bool) : (s.countSnoop h up).gd = s.gd := rfl
@[simp] theorem countSnoop_out (s : State) (h : Nat) (up : Bool) : (s.countSnoop h up).out = s.out := rfl
@[simp] theorem countSnoop_pending (s : State) (h : Nat) (up : Bool) : (s.countSnoop h up).pending = s.pending := rfl
theorem countSnoop_cr_eq (s : State) (h : Nat) (up : Bool) :
    (s.countSnoop h up).cr = { s.cr with snoops := KMap.upd 0 s.cr.snoops h (fun n => if up then n + 1 else n - 1) } := rfl
@[simp] theorem countSnoop_at_o (s : State) (h : Nat) (up : Bool) (j : Nat) : (s.countSnoop h up).o j = s.o j := rfl
@[simp] theorem countSnoop_at_c (s : State) (h : Nat) (up : Bool) (j : Nat) : (s.countSnoop h up).c j = s.c j := rfl
@[simp] theorem countSnoop_at_blk (s : State) (h : Nat) (up : Bool) (j : Nat) : (s.countSnoop h up).blk j = s.blk j := rfl
@[simp] theorem countSnoop_at_port (s : State) (h : Nat) (up : Bool) (j : Nat) : (s.countSnoop h up).port j = s.port j := rfl
@[simp] theorem countSnoop_at_slot (s : State) (h : Nat) (up : Bool) (j : Nat) : (s.countSnoop h up).slot j = s.slot j := rfl
@[simp] theorem countSnoop_at_vppb (s : State) (h : Nat) (up : Bool) (j i' : Nat) : (s.countSnoop h up).vppb j i' = s.vppb j i' := rfl
@[simp] theorem countSnoop_at_binding (s : State) (h : Nat) (up : Bool) (j i' : Nat) : (s.countSnoop h up).binding j i' = s.binding j i' := rfl
@[simp] theorem countSnoop_at_sess (s : State) (h : Nat) (up : Bool) (j : Nat) : (s.countSnoop h up).sess? j = s.sess? j := rfl
@[simp] theorem countSnoop_at_coreAt (s : State) (h : Nat) (up : Bool) (j : Nat) : (s.countSnoop h up).coreAt j = s.coreAt j := rfl
@[simp] theorem countSnoop_at_slice (s : State) (h : Nat) (up : Bool) (j : Nat) : (s.countSnoop h up).slice j = s.slice j := rfl
@[simp] theorem countSnoop_at_rail (s : State) (h : Nat) (up : Bool) (j : Nat) : (s.countSnoop h up).rail j = s.rail j := rfl
@[simp] theorem countSnoop_at_part (s : State) (h : Nat) (up : Bool) (j : Nat) : (s.countSnoop h up).part j = s.part j := rfl
@[simp] theorem countSnoop_at_line (s : State) (h : Nat) (up : Bool) (j : Nat) : (s.countSnoop h up).line j = s.line j := rfl
@[simp] theorem countSnoop_at_strandOf (s : State) (h : Nat) (up : Bool) (j i' k' : Nat) : (s.countSnoop h up).strandOf j i' k' = s.strandOf j i' k' := rfl
@[simp] theorem countSnoop_at_sdir (s : State) (h : Nat) (up : Bool) (j i' : Nat) : (s.countSnoop h up).sdir j i' = s.sdir j i' := rfl
@[simp] theorem countSnoop_at_isVcsUp (s : State) (h : Nat) (up : Bool) (j : Nat) : (s.countSnoop h up).isVcsUp j = s.isVcsUp j := rfl
@[simp] theorem countSnoop_at_txn (s : State) (h : Nat) (up : Bool) (j : Nat) : (s.countSnoop h up).txn? j = s.txn? j := rfl
@[simp] theorem countSnoop_at_hubHeld (s : State) (h : Nat) (up : Bool) : (s.countSnoop h up).hubHeld = s.hubHeld := rfl
@[simp] theorem countSnoop_at_islandUp (s : State) (h : Nat) (up : Bool) : (s.countSnoop h up).islandUp = s.islandUp := rfl
@[simp] theorem countSnoop_at_lcState (s : State) (h : Nat) (up : Bool) : (s.countSnoop h up).lcState = s.lcState := rfl

/-! updLane -/

@[simp] theorem updLane_now (s : State) (l : Nat) (f : Lane → Lane) : (s.updLane l f).now = s.now := rfl
@[simp] theorem updLane_freeIx (s : State) (l : Nat) (f : Lane → Lane) : (s.updLane l f).freeIx = s.freeIx := rfl
@[simp] theorem updLane_od (s : State) (l : Nat) (f : Lane → Lane) : (s.updLane l f).od = s.od := rfl
@[simp] theorem updLane_csr (s : State) (l : Nat) (f : Lane → Lane) : (s.updLane l f).csr = s.csr := rfl
@[simp] theorem updLane_ev (s : State) (l : Nat) (f : Lane → Lane) : (s.updLane l f).ev = s.ev := rfl
@[simp] theorem updLane_mg (s : State) (l : Nat) (f : Lane → Lane) : (s.updLane l f).mg = s.mg := rfl
@[simp] theorem updLane_gen (s : State) (l : Nat) (f : Lane → Lane) : (s.updLane l f).gen = s.gen := rfl
@[simp] theorem updLane_life (s : State) (l : Nat) (f : Lane → Lane) : (s.updLane l f).life = s.life := rfl
@[simp] theorem updLane_st (s : State) (l : Nat) (f : Lane → Lane) : (s.updLane l f).st = s.st := rfl
@[simp] theorem updLane_pw (s : State) (l : Nat) (f : Lane → Lane) : (s.updLane l f).pw = s.pw := rfl
@[simp] theorem updLane_tm (s : State) (l : Nat) (f : Lane → Lane) : (s.updLane l f).tm = s.tm := rfl
@[simp] theorem updLane_pl (s : State) (l : Nat) (f : Lane → Lane) : (s.updLane l f).pl = s.pl := rfl
@[simp] theorem updLane_cr (s : State) (l : Nat) (f : Lane → Lane) : (s.updLane l f).cr = s.cr := rfl
@[simp] theorem updLane_ord (s : State) (l : Nat) (f : Lane → Lane) : (s.updLane l f).ord = s.ord := rfl
@[simp] theorem updLane_seams (s : State) (l : Nat) (f : Lane → Lane) : (s.updLane l f).seams = s.seams := rfl
@[simp] theorem updLane_mv (s : State) (l : Nat) (f : Lane → Lane) : (s.updLane l f).mv = s.mv := rfl
@[simp] theorem updLane_gd (s : State) (l : Nat) (f : Lane → Lane) : (s.updLane l f).gd = s.gd := rfl
@[simp] theorem updLane_out (s : State) (l : Nat) (f : Lane → Lane) : (s.updLane l f).out = s.out := rfl
@[simp] theorem updLane_pending (s : State) (l : Nat) (f : Lane → Lane) : (s.updLane l f).pending = s.pending := rfl
theorem updLane_fab_eq (s : State) (l : Nat) (f : Lane → Lane) :
    (s.updLane l f).fab = { s.fab with lane := KMap.upd {} s.fab.lane l f } := rfl
@[simp] theorem updLane_at_o (s : State) (l : Nat) (f : Lane → Lane) (j : Nat) : (s.updLane l f).o j = s.o j := rfl
@[simp] theorem updLane_at_c (s : State) (l : Nat) (f : Lane → Lane) (j : Nat) : (s.updLane l f).c j = s.c j := rfl
@[simp] theorem updLane_at_blk (s : State) (l : Nat) (f : Lane → Lane) (j : Nat) : (s.updLane l f).blk j = s.blk j := rfl
@[simp] theorem updLane_at_slot (s : State) (l : Nat) (f : Lane → Lane) (j : Nat) : (s.updLane l f).slot j = s.slot j := rfl
@[simp] theorem updLane_at_sess (s : State) (l : Nat) (f : Lane → Lane) (j : Nat) : (s.updLane l f).sess? j = s.sess? j := rfl
@[simp] theorem updLane_at_coreAt (s : State) (l : Nat) (f : Lane → Lane) (j : Nat) : (s.updLane l f).coreAt j = s.coreAt j := rfl
@[simp] theorem updLane_at_slice (s : State) (l : Nat) (f : Lane → Lane) (j : Nat) : (s.updLane l f).slice j = s.slice j := rfl
@[simp] theorem updLane_at_win (s : State) (l : Nat) (f : Lane → Lane) (j : Nat) : (s.updLane l f).win j = s.win j := rfl
@[simp] theorem updLane_at_rail (s : State) (l : Nat) (f : Lane → Lane) (j : Nat) : (s.updLane l f).rail j = s.rail j := rfl
@[simp] theorem updLane_at_part (s : State) (l : Nat) (f : Lane → Lane) (j : Nat) : (s.updLane l f).part j = s.part j := rfl
@[simp] theorem updLane_at_line (s : State) (l : Nat) (f : Lane → Lane) (j : Nat) : (s.updLane l f).line j = s.line j := rfl
@[simp] theorem updLane_at_strandOf (s : State) (l : Nat) (f : Lane → Lane) (j i' k' : Nat) : (s.updLane l f).strandOf j i' k' = s.strandOf j i' k' := rfl
@[simp] theorem updLane_at_sdir (s : State) (l : Nat) (f : Lane → Lane) (j i' : Nat) : (s.updLane l f).sdir j i' = s.sdir j i' := rfl
@[simp] theorem updLane_at_txn (s : State) (l : Nat) (f : Lane → Lane) (j : Nat) : (s.updLane l f).txn? j = s.txn? j := rfl
@[simp] theorem updLane_at_hubHeld (s : State) (l : Nat) (f : Lane → Lane) : (s.updLane l f).hubHeld = s.hubHeld := rfl
@[simp] theorem updLane_at_islandUp (s : State) (l : Nat) (f : Lane → Lane) : (s.updLane l f).islandUp = s.islandUp := rfl
@[simp] theorem updLane_at_lcState (s : State) (l : Nat) (f : Lane → Lane) : (s.updLane l f).lcState = s.lcState := rfl

/-! setSeg -/

@[simp] theorem setSeg_now (s : State) (src : Nat) (x : Option Seg) : (s.setSeg src x).now = s.now := rfl
@[simp] theorem setSeg_freeIx (s : State) (src : Nat) (x : Option Seg) : (s.setSeg src x).freeIx = s.freeIx := rfl
@[simp] theorem setSeg_od (s : State) (src : Nat) (x : Option Seg) : (s.setSeg src x).od = s.od := rfl
@[simp] theorem setSeg_csr (s : State) (src : Nat) (x : Option Seg) : (s.setSeg src x).csr = s.csr := rfl
@[simp] theorem setSeg_ev (s : State) (src : Nat) (x : Option Seg) : (s.setSeg src x).ev = s.ev := rfl
@[simp] theorem setSeg_gen (s : State) (src : Nat) (x : Option Seg) : (s.setSeg src x).gen = s.gen := rfl
@[simp] theorem setSeg_life (s : State) (src : Nat) (x : Option Seg) : (s.setSeg src x).life = s.life := rfl
@[simp] theorem setSeg_st (s : State) (src : Nat) (x : Option Seg) : (s.setSeg src x).st = s.st := rfl
@[simp] theorem setSeg_pw (s : State) (src : Nat) (x : Option Seg) : (s.setSeg src x).pw = s.pw := rfl
@[simp] theorem setSeg_tm (s : State) (src : Nat) (x : Option Seg) : (s.setSeg src x).tm = s.tm := rfl
@[simp] theorem setSeg_pl (s : State) (src : Nat) (x : Option Seg) : (s.setSeg src x).pl = s.pl := rfl
@[simp] theorem setSeg_cr (s : State) (src : Nat) (x : Option Seg) : (s.setSeg src x).cr = s.cr := rfl
@[simp] theorem setSeg_ord (s : State) (src : Nat) (x : Option Seg) : (s.setSeg src x).ord = s.ord := rfl
@[simp] theorem setSeg_fab (s : State) (src : Nat) (x : Option Seg) : (s.setSeg src x).fab = s.fab := rfl
@[simp] theorem setSeg_seams (s : State) (src : Nat) (x : Option Seg) : (s.setSeg src x).seams = s.seams := rfl
@[simp] theorem setSeg_mv (s : State) (src : Nat) (x : Option Seg) : (s.setSeg src x).mv = s.mv := rfl
@[simp] theorem setSeg_gd (s : State) (src : Nat) (x : Option Seg) : (s.setSeg src x).gd = s.gd := rfl
@[simp] theorem setSeg_out (s : State) (src : Nat) (x : Option Seg) : (s.setSeg src x).out = s.out := rfl
@[simp] theorem setSeg_pending (s : State) (src : Nat) (x : Option Seg) : (s.setSeg src x).pending = s.pending := rfl
theorem setSeg_mg_eq (s : State) (src : Nat) (x : Option Seg) :
    (s.setSeg src x).mg = { s.mg with seg := KMap.set none s.mg.seg (sidCan src) x } := rfl
@[simp] theorem setSeg_at_o (s : State) (src : Nat) (x : Option Seg) (j : Nat) : (s.setSeg src x).o j = s.o j := rfl
@[simp] theorem setSeg_at_c (s : State) (src : Nat) (x : Option Seg) (j : Nat) : (s.setSeg src x).c j = s.c j := rfl
@[simp] theorem setSeg_at_blk (s : State) (src : Nat) (x : Option Seg) (j : Nat) : (s.setSeg src x).blk j = s.blk j := rfl
@[simp] theorem setSeg_at_port (s : State) (src : Nat) (x : Option Seg) (j : Nat) : (s.setSeg src x).port j = s.port j := rfl
@[simp] theorem setSeg_at_slot (s : State) (src : Nat) (x : Option Seg) (j : Nat) : (s.setSeg src x).slot j = s.slot j := rfl
@[simp] theorem setSeg_at_vppb (s : State) (src : Nat) (x : Option Seg) (j i' : Nat) : (s.setSeg src x).vppb j i' = s.vppb j i' := rfl
@[simp] theorem setSeg_at_binding (s : State) (src : Nat) (x : Option Seg) (j i' : Nat) : (s.setSeg src x).binding j i' = s.binding j i' := rfl
@[simp] theorem setSeg_at_coreAt (s : State) (src : Nat) (x : Option Seg) (j : Nat) : (s.setSeg src x).coreAt j = s.coreAt j := rfl
@[simp] theorem setSeg_at_slice (s : State) (src : Nat) (x : Option Seg) (j : Nat) : (s.setSeg src x).slice j = s.slice j := rfl
@[simp] theorem setSeg_at_win (s : State) (src : Nat) (x : Option Seg) (j : Nat) : (s.setSeg src x).win j = s.win j := rfl
@[simp] theorem setSeg_at_rail (s : State) (src : Nat) (x : Option Seg) (j : Nat) : (s.setSeg src x).rail j = s.rail j := rfl
@[simp] theorem setSeg_at_part (s : State) (src : Nat) (x : Option Seg) (j : Nat) : (s.setSeg src x).part j = s.part j := rfl
@[simp] theorem setSeg_at_line (s : State) (src : Nat) (x : Option Seg) (j : Nat) : (s.setSeg src x).line j = s.line j := rfl
@[simp] theorem setSeg_at_strandOf (s : State) (src : Nat) (x : Option Seg) (j i' k' : Nat) : (s.setSeg src x).strandOf j i' k' = s.strandOf j i' k' := rfl
@[simp] theorem setSeg_at_sdir (s : State) (src : Nat) (x : Option Seg) (j i' : Nat) : (s.setSeg src x).sdir j i' = s.sdir j i' := rfl
@[simp] theorem setSeg_at_isVcsUp (s : State) (src : Nat) (x : Option Seg) (j : Nat) : (s.setSeg src x).isVcsUp j = s.isVcsUp j := rfl
@[simp] theorem setSeg_at_txn (s : State) (src : Nat) (x : Option Seg) (j : Nat) : (s.setSeg src x).txn? j = s.txn? j := rfl
@[simp] theorem setSeg_at_hubHeld (s : State) (src : Nat) (x : Option Seg) : (s.setSeg src x).hubHeld = s.hubHeld := rfl
@[simp] theorem setSeg_at_islandUp (s : State) (src : Nat) (x : Option Seg) : (s.setSeg src x).islandUp = s.islandUp := rfl
@[simp] theorem setSeg_at_lcState (s : State) (src : Nat) (x : Option Seg) : (s.setSeg src x).lcState = s.lcState := rfl

/-! answerOd -/

@[simp] theorem answerOd_now (s : State) (sid : Nat) (a : OdAns) : (s.answerOd sid a).now = s.now := rfl
@[simp] theorem answerOd_freeIx (s : State) (sid : Nat) (a : OdAns) : (s.answerOd sid a).freeIx = s.freeIx := rfl
@[simp] theorem answerOd_od (s : State) (sid : Nat) (a : OdAns) : (s.answerOd sid a).od = s.od := rfl
@[simp] theorem answerOd_csr (s : State) (sid : Nat) (a : OdAns) : (s.answerOd sid a).csr = s.csr := rfl
@[simp] theorem answerOd_ev (s : State) (sid : Nat) (a : OdAns) : (s.answerOd sid a).ev = s.ev := rfl
@[simp] theorem answerOd_mg (s : State) (sid : Nat) (a : OdAns) : (s.answerOd sid a).mg = s.mg := rfl
@[simp] theorem answerOd_gen (s : State) (sid : Nat) (a : OdAns) : (s.answerOd sid a).gen = s.gen := rfl
@[simp] theorem answerOd_life (s : State) (sid : Nat) (a : OdAns) : (s.answerOd sid a).life = s.life := rfl
@[simp] theorem answerOd_st (s : State) (sid : Nat) (a : OdAns) : (s.answerOd sid a).st = s.st := rfl
@[simp] theorem answerOd_pw (s : State) (sid : Nat) (a : OdAns) : (s.answerOd sid a).pw = s.pw := rfl
@[simp] theorem answerOd_tm (s : State) (sid : Nat) (a : OdAns) : (s.answerOd sid a).tm = s.tm := rfl
@[simp] theorem answerOd_pl (s : State) (sid : Nat) (a : OdAns) : (s.answerOd sid a).pl = s.pl := rfl
@[simp] theorem answerOd_cr (s : State) (sid : Nat) (a : OdAns) : (s.answerOd sid a).cr = s.cr := rfl
@[simp] theorem answerOd_ord (s : State) (sid : Nat) (a : OdAns) : (s.answerOd sid a).ord = s.ord := rfl
@[simp] theorem answerOd_fab (s : State) (sid : Nat) (a : OdAns) : (s.answerOd sid a).fab = s.fab := rfl
@[simp] theorem answerOd_seams (s : State) (sid : Nat) (a : OdAns) : (s.answerOd sid a).seams = s.seams := rfl
@[simp] theorem answerOd_mv (s : State) (sid : Nat) (a : OdAns) : (s.answerOd sid a).mv = s.mv := rfl
@[simp] theorem answerOd_gd (s : State) (sid : Nat) (a : OdAns) : (s.answerOd sid a).gd = s.gd := rfl
@[simp] theorem answerOd_pending (s : State) (sid : Nat) (a : OdAns) : (s.answerOd sid a).pending = s.pending := rfl
@[simp] theorem answerOd_at_o (s : State) (sid : Nat) (a : OdAns) (j : Nat) : (s.answerOd sid a).o j = s.o j := rfl
@[simp] theorem answerOd_at_c (s : State) (sid : Nat) (a : OdAns) (j : Nat) : (s.answerOd sid a).c j = s.c j := rfl
@[simp] theorem answerOd_at_blk (s : State) (sid : Nat) (a : OdAns) (j : Nat) : (s.answerOd sid a).blk j = s.blk j := rfl
@[simp] theorem answerOd_at_port (s : State) (sid : Nat) (a : OdAns) (j : Nat) : (s.answerOd sid a).port j = s.port j := rfl
@[simp] theorem answerOd_at_slot (s : State) (sid : Nat) (a : OdAns) (j : Nat) : (s.answerOd sid a).slot j = s.slot j := rfl
@[simp] theorem answerOd_at_vppb (s : State) (sid : Nat) (a : OdAns) (j i' : Nat) : (s.answerOd sid a).vppb j i' = s.vppb j i' := rfl
@[simp] theorem answerOd_at_binding (s : State) (sid : Nat) (a : OdAns) (j i' : Nat) : (s.answerOd sid a).binding j i' = s.binding j i' := rfl
@[simp] theorem answerOd_at_sess (s : State) (sid : Nat) (a : OdAns) (j : Nat) : (s.answerOd sid a).sess? j = s.sess? j := rfl
@[simp] theorem answerOd_at_coreAt (s : State) (sid : Nat) (a : OdAns) (j : Nat) : (s.answerOd sid a).coreAt j = s.coreAt j := rfl
@[simp] theorem answerOd_at_slice (s : State) (sid : Nat) (a : OdAns) (j : Nat) : (s.answerOd sid a).slice j = s.slice j := rfl
@[simp] theorem answerOd_at_win (s : State) (sid : Nat) (a : OdAns) (j : Nat) : (s.answerOd sid a).win j = s.win j := rfl
@[simp] theorem answerOd_at_rail (s : State) (sid : Nat) (a : OdAns) (j : Nat) : (s.answerOd sid a).rail j = s.rail j := rfl
@[simp] theorem answerOd_at_part (s : State) (sid : Nat) (a : OdAns) (j : Nat) : (s.answerOd sid a).part j = s.part j := rfl
@[simp] theorem answerOd_at_line (s : State) (sid : Nat) (a : OdAns) (j : Nat) : (s.answerOd sid a).line j = s.line j := rfl
@[simp] theorem answerOd_at_strandOf (s : State) (sid : Nat) (a : OdAns) (j i' k' : Nat) : (s.answerOd sid a).strandOf j i' k' = s.strandOf j i' k' := rfl
@[simp] theorem answerOd_at_sdir (s : State) (sid : Nat) (a : OdAns) (j i' : Nat) : (s.answerOd sid a).sdir j i' = s.sdir j i' := rfl
@[simp] theorem answerOd_at_isVcsUp (s : State) (sid : Nat) (a : OdAns) (j : Nat) : (s.answerOd sid a).isVcsUp j = s.isVcsUp j := rfl
@[simp] theorem answerOd_at_txn (s : State) (sid : Nat) (a : OdAns) (j : Nat) : (s.answerOd sid a).txn? j = s.txn? j := rfl
@[simp] theorem answerOd_at_hubHeld (s : State) (sid : Nat) (a : OdAns) : (s.answerOd sid a).hubHeld = s.hubHeld := rfl
@[simp] theorem answerOd_at_islandUp (s : State) (sid : Nat) (a : OdAns) : (s.answerOd sid a).islandUp = s.islandUp := rfl
@[simp] theorem answerOd_at_lcState (s : State) (sid : Nat) (a : OdAns) : (s.answerOd sid a).lcState = s.lcState := rfl

/-! gepochCount -/

@[simp] theorem gepochCount_now (s : State) (e : Nat) (up : Bool) : (s.gepochCount e up).now = s.now := rfl
@[simp] theorem gepochCount_freeIx (s : State) (e : Nat) (up : Bool) : (s.gepochCount e up).freeIx = s.freeIx := rfl
@[simp] theorem gepochCount_od (s : State) (e : Nat) (up : Bool) : (s.gepochCount e up).od = s.od := rfl
@[simp] theorem gepochCount_csr (s : State) (e : Nat) (up : Bool) : (s.gepochCount e up).csr = s.csr := rfl
@[simp] theorem gepochCount_ev (s : State) (e : Nat) (up : Bool) : (s.gepochCount e up).ev = s.ev := rfl
@[simp] theorem gepochCount_mg (s : State) (e : Nat) (up : Bool) : (s.gepochCount e up).mg = s.mg := rfl
@[simp] theorem gepochCount_gen (s : State) (e : Nat) (up : Bool) : (s.gepochCount e up).gen = s.gen := rfl
@[simp] theorem gepochCount_life (s : State) (e : Nat) (up : Bool) : (s.gepochCount e up).life = s.life := rfl
@[simp] theorem gepochCount_st (s : State) (e : Nat) (up : Bool) : (s.gepochCount e up).st = s.st := rfl
@[simp] theorem gepochCount_pw (s : State) (e : Nat) (up : Bool) : (s.gepochCount e up).pw = s.pw := rfl
@[simp] theorem gepochCount_tm (s : State) (e : Nat) (up : Bool) : (s.gepochCount e up).tm = s.tm := rfl
@[simp] theorem gepochCount_pl (s : State) (e : Nat) (up : Bool) : (s.gepochCount e up).pl = s.pl := rfl
@[simp] theorem gepochCount_cr (s : State) (e : Nat) (up : Bool) : (s.gepochCount e up).cr = s.cr := rfl
@[simp] theorem gepochCount_ord (s : State) (e : Nat) (up : Bool) : (s.gepochCount e up).ord = s.ord := rfl
@[simp] theorem gepochCount_fab (s : State) (e : Nat) (up : Bool) : (s.gepochCount e up).fab = s.fab := rfl
@[simp] theorem gepochCount_seams (s : State) (e : Nat) (up : Bool) : (s.gepochCount e up).seams = s.seams := rfl
@[simp] theorem gepochCount_mv (s : State) (e : Nat) (up : Bool) : (s.gepochCount e up).mv = s.mv := rfl
@[simp] theorem gepochCount_out (s : State) (e : Nat) (up : Bool) : (s.gepochCount e up).out = s.out := rfl
@[simp] theorem gepochCount_pending (s : State) (e : Nat) (up : Bool) : (s.gepochCount e up).pending = s.pending := rfl
theorem gepochCount_gd_eq (s : State) (e : Nat) (up : Bool) :
    (s.gepochCount e up).gd = { s.gd with counts := KMap.upd 0 s.gd.counts (e % 16) (fun n => if up then n + 1 else n - 1) } := rfl
@[simp] theorem gepochCount_at_o (s : State) (e : Nat) (up : Bool) (j : Nat) : (s.gepochCount e up).o j = s.o j := rfl
@[simp] theorem gepochCount_at_c (s : State) (e : Nat) (up : Bool) (j : Nat) : (s.gepochCount e up).c j = s.c j := rfl
@[simp] theorem gepochCount_at_blk (s : State) (e : Nat) (up : Bool) (j : Nat) : (s.gepochCount e up).blk j = s.blk j := rfl
@[simp] theorem gepochCount_at_port (s : State) (e : Nat) (up : Bool) (j : Nat) : (s.gepochCount e up).port j = s.port j := rfl
@[simp] theorem gepochCount_at_slot (s : State) (e : Nat) (up : Bool) (j : Nat) : (s.gepochCount e up).slot j = s.slot j := rfl
@[simp] theorem gepochCount_at_vppb (s : State) (e : Nat) (up : Bool) (j i' : Nat) : (s.gepochCount e up).vppb j i' = s.vppb j i' := rfl
@[simp] theorem gepochCount_at_binding (s : State) (e : Nat) (up : Bool) (j i' : Nat) : (s.gepochCount e up).binding j i' = s.binding j i' := rfl
@[simp] theorem gepochCount_at_sess (s : State) (e : Nat) (up : Bool) (j : Nat) : (s.gepochCount e up).sess? j = s.sess? j := rfl
@[simp] theorem gepochCount_at_coreAt (s : State) (e : Nat) (up : Bool) (j : Nat) : (s.gepochCount e up).coreAt j = s.coreAt j := rfl
@[simp] theorem gepochCount_at_slice (s : State) (e : Nat) (up : Bool) (j : Nat) : (s.gepochCount e up).slice j = s.slice j := rfl
@[simp] theorem gepochCount_at_win (s : State) (e : Nat) (up : Bool) (j : Nat) : (s.gepochCount e up).win j = s.win j := rfl
@[simp] theorem gepochCount_at_rail (s : State) (e : Nat) (up : Bool) (j : Nat) : (s.gepochCount e up).rail j = s.rail j := rfl
@[simp] theorem gepochCount_at_part (s : State) (e : Nat) (up : Bool) (j : Nat) : (s.gepochCount e up).part j = s.part j := rfl
@[simp] theorem gepochCount_at_line (s : State) (e : Nat) (up : Bool) (j : Nat) : (s.gepochCount e up).line j = s.line j := rfl
@[simp] theorem gepochCount_at_strandOf (s : State) (e : Nat) (up : Bool) (j i' k' : Nat) : (s.gepochCount e up).strandOf j i' k' = s.strandOf j i' k' := rfl
@[simp] theorem gepochCount_at_sdir (s : State) (e : Nat) (up : Bool) (j i' : Nat) : (s.gepochCount e up).sdir j i' = s.sdir j i' := rfl
@[simp] theorem gepochCount_at_isVcsUp (s : State) (e : Nat) (up : Bool) (j : Nat) : (s.gepochCount e up).isVcsUp j = s.isVcsUp j := rfl
@[simp] theorem gepochCount_at_txn (s : State) (e : Nat) (up : Bool) (j : Nat) : (s.gepochCount e up).txn? j = s.txn? j := rfl
@[simp] theorem gepochCount_at_hubHeld (s : State) (e : Nat) (up : Bool) : (s.gepochCount e up).hubHeld = s.hubHeld := rfl
@[simp] theorem gepochCount_at_islandUp (s : State) (e : Nat) (up : Bool) : (s.gepochCount e up).islandUp = s.islandUp := rfl
@[simp] theorem gepochCount_at_lcState (s : State) (e : Nat) (up : Bool) : (s.gepochCount e up).lcState = s.lcState := rfl

/-! hubCauseEnds -/

@[simp] theorem hubCauseEnds_now (s : State) (cause : Nat) : (s.hubCauseEnds cause).now = s.now := rfl
@[simp] theorem hubCauseEnds_freeIx (s : State) (cause : Nat) : (s.hubCauseEnds cause).freeIx = s.freeIx := rfl
@[simp] theorem hubCauseEnds_od (s : State) (cause : Nat) : (s.hubCauseEnds cause).od = s.od := rfl
@[simp] theorem hubCauseEnds_csr (s : State) (cause : Nat) : (s.hubCauseEnds cause).csr = s.csr := rfl
@[simp] theorem hubCauseEnds_ev (s : State) (cause : Nat) : (s.hubCauseEnds cause).ev = s.ev := rfl
@[simp] theorem hubCauseEnds_mg (s : State) (cause : Nat) : (s.hubCauseEnds cause).mg = s.mg := rfl
@[simp] theorem hubCauseEnds_gen (s : State) (cause : Nat) : (s.hubCauseEnds cause).gen = s.gen := rfl
@[simp] theorem hubCauseEnds_life (s : State) (cause : Nat) : (s.hubCauseEnds cause).life = s.life := rfl
@[simp] theorem hubCauseEnds_pw (s : State) (cause : Nat) : (s.hubCauseEnds cause).pw = s.pw := rfl
@[simp] theorem hubCauseEnds_tm (s : State) (cause : Nat) : (s.hubCauseEnds cause).tm = s.tm := rfl
@[simp] theorem hubCauseEnds_pl (s : State) (cause : Nat) : (s.hubCauseEnds cause).pl = s.pl := rfl
@[simp] theorem hubCauseEnds_cr (s : State) (cause : Nat) : (s.hubCauseEnds cause).cr = s.cr := rfl
@[simp] theorem hubCauseEnds_ord (s : State) (cause : Nat) : (s.hubCauseEnds cause).ord = s.ord := rfl
@[simp] theorem hubCauseEnds_fab (s : State) (cause : Nat) : (s.hubCauseEnds cause).fab = s.fab := rfl
@[simp] theorem hubCauseEnds_seams (s : State) (cause : Nat) : (s.hubCauseEnds cause).seams = s.seams := rfl
@[simp] theorem hubCauseEnds_mv (s : State) (cause : Nat) : (s.hubCauseEnds cause).mv = s.mv := rfl
@[simp] theorem hubCauseEnds_gd (s : State) (cause : Nat) : (s.hubCauseEnds cause).gd = s.gd := rfl
@[simp] theorem hubCauseEnds_out (s : State) (cause : Nat) : (s.hubCauseEnds cause).out = s.out := rfl
@[simp] theorem hubCauseEnds_pending (s : State) (cause : Nat) : (s.hubCauseEnds cause).pending = s.pending := rfl
theorem hubCauseEnds_st_eq (s : State) (cause : Nat) :
    (s.hubCauseEnds cause).st = { s.st with hubCauses := s.st.hubCauses.filter (· ≠ cause) } := rfl
@[simp] theorem hubCauseEnds_at_o (s : State) (cause : Nat) (j : Nat) : (s.hubCauseEnds cause).o j = s.o j := rfl
@[simp] theorem hubCauseEnds_at_c (s : State) (cause : Nat) (j : Nat) : (s.hubCauseEnds cause).c j = s.c j := rfl
@[simp] theorem hubCauseEnds_at_blk (s : State) (cause : Nat) (j : Nat) : (s.hubCauseEnds cause).blk j = s.blk j := rfl
@[simp] theorem hubCauseEnds_at_port (s : State) (cause : Nat) (j : Nat) : (s.hubCauseEnds cause).port j = s.port j := rfl
@[simp] theorem hubCauseEnds_at_slot (s : State) (cause : Nat) (j : Nat) : (s.hubCauseEnds cause).slot j = s.slot j := rfl
@[simp] theorem hubCauseEnds_at_vppb (s : State) (cause : Nat) (j i' : Nat) : (s.hubCauseEnds cause).vppb j i' = s.vppb j i' := rfl
@[simp] theorem hubCauseEnds_at_binding (s : State) (cause : Nat) (j i' : Nat) : (s.hubCauseEnds cause).binding j i' = s.binding j i' := rfl
@[simp] theorem hubCauseEnds_at_sess (s : State) (cause : Nat) (j : Nat) : (s.hubCauseEnds cause).sess? j = s.sess? j := rfl
@[simp] theorem hubCauseEnds_at_coreAt (s : State) (cause : Nat) (j : Nat) : (s.hubCauseEnds cause).coreAt j = s.coreAt j := rfl
@[simp] theorem hubCauseEnds_at_slice (s : State) (cause : Nat) (j : Nat) : (s.hubCauseEnds cause).slice j = s.slice j := rfl
@[simp] theorem hubCauseEnds_at_win (s : State) (cause : Nat) (j : Nat) : (s.hubCauseEnds cause).win j = s.win j := rfl
@[simp] theorem hubCauseEnds_at_rail (s : State) (cause : Nat) (j : Nat) : (s.hubCauseEnds cause).rail j = s.rail j := rfl
@[simp] theorem hubCauseEnds_at_part (s : State) (cause : Nat) (j : Nat) : (s.hubCauseEnds cause).part j = s.part j := rfl
@[simp] theorem hubCauseEnds_at_line (s : State) (cause : Nat) (j : Nat) : (s.hubCauseEnds cause).line j = s.line j := rfl
@[simp] theorem hubCauseEnds_at_strandOf (s : State) (cause : Nat) (j i' k' : Nat) : (s.hubCauseEnds cause).strandOf j i' k' = s.strandOf j i' k' := rfl
@[simp] theorem hubCauseEnds_at_sdir (s : State) (cause : Nat) (j i' : Nat) : (s.hubCauseEnds cause).sdir j i' = s.sdir j i' := rfl
@[simp] theorem hubCauseEnds_at_isVcsUp (s : State) (cause : Nat) (j : Nat) : (s.hubCauseEnds cause).isVcsUp j = s.isVcsUp j := rfl
@[simp] theorem hubCauseEnds_at_txn (s : State) (cause : Nat) (j : Nat) : (s.hubCauseEnds cause).txn? j = s.txn? j := rfl
@[simp] theorem hubCauseEnds_at_lcState (s : State) (cause : Nat) : (s.hubCauseEnds cause).lcState = s.lcState := rfl

/-! setLanes -/

@[simp] theorem setLanes_now (s : State) (ls : List Nat) (st : Nat) : (s.setLanes ls st).now = s.now := rfl
@[simp] theorem setLanes_freeIx (s : State) (ls : List Nat) (st : Nat) : (s.setLanes ls st).freeIx = s.freeIx := rfl
@[simp] theorem setLanes_od (s : State) (ls : List Nat) (st : Nat) : (s.setLanes ls st).od = s.od := rfl
@[simp] theorem setLanes_csr (s : State) (ls : List Nat) (st : Nat) : (s.setLanes ls st).csr = s.csr := rfl
@[simp] theorem setLanes_ev (s : State) (ls : List Nat) (st : Nat) : (s.setLanes ls st).ev = s.ev := rfl
@[simp] theorem setLanes_mg (s : State) (ls : List Nat) (st : Nat) : (s.setLanes ls st).mg = s.mg := rfl
@[simp] theorem setLanes_gen (s : State) (ls : List Nat) (st : Nat) : (s.setLanes ls st).gen = s.gen := rfl
@[simp] theorem setLanes_life (s : State) (ls : List Nat) (st : Nat) : (s.setLanes ls st).life = s.life := rfl
@[simp] theorem setLanes_st (s : State) (ls : List Nat) (st : Nat) : (s.setLanes ls st).st = s.st := rfl
@[simp] theorem setLanes_pw (s : State) (ls : List Nat) (st : Nat) : (s.setLanes ls st).pw = s.pw := rfl
@[simp] theorem setLanes_tm (s : State) (ls : List Nat) (st : Nat) : (s.setLanes ls st).tm = s.tm := rfl
@[simp] theorem setLanes_pl (s : State) (ls : List Nat) (st : Nat) : (s.setLanes ls st).pl = s.pl := rfl
@[simp] theorem setLanes_cr (s : State) (ls : List Nat) (st : Nat) : (s.setLanes ls st).cr = s.cr := rfl
@[simp] theorem setLanes_ord (s : State) (ls : List Nat) (st : Nat) : (s.setLanes ls st).ord = s.ord := rfl
@[simp] theorem setLanes_seams (s : State) (ls : List Nat) (st : Nat) : (s.setLanes ls st).seams = s.seams := rfl
@[simp] theorem setLanes_mv (s : State) (ls : List Nat) (st : Nat) : (s.setLanes ls st).mv = s.mv := rfl
@[simp] theorem setLanes_gd (s : State) (ls : List Nat) (st : Nat) : (s.setLanes ls st).gd = s.gd := rfl
@[simp] theorem setLanes_out (s : State) (ls : List Nat) (st : Nat) : (s.setLanes ls st).out = s.out := rfl
@[simp] theorem setLanes_pending (s : State) (ls : List Nat) (st : Nat) : (s.setLanes ls st).pending = s.pending := rfl
theorem setLanes_fab_eq (s : State) (ls : List Nat) (st : Nat) :
    (s.setLanes ls st).fab = { s.fab with lane := ls.foldl (fun m l => KMap.upd {} m l (fun x => { x with power := st })) s.fab.lane } := rfl
@[simp] theorem setLanes_at_o (s : State) (ls : List Nat) (st : Nat) (j : Nat) : (s.setLanes ls st).o j = s.o j := rfl
@[simp] theorem setLanes_at_c (s : State) (ls : List Nat) (st : Nat) (j : Nat) : (s.setLanes ls st).c j = s.c j := rfl
@[simp] theorem setLanes_at_blk (s : State) (ls : List Nat) (st : Nat) (j : Nat) : (s.setLanes ls st).blk j = s.blk j := rfl
@[simp] theorem setLanes_at_slot (s : State) (ls : List Nat) (st : Nat) (j : Nat) : (s.setLanes ls st).slot j = s.slot j := rfl
@[simp] theorem setLanes_at_sess (s : State) (ls : List Nat) (st : Nat) (j : Nat) : (s.setLanes ls st).sess? j = s.sess? j := rfl
@[simp] theorem setLanes_at_coreAt (s : State) (ls : List Nat) (st : Nat) (j : Nat) : (s.setLanes ls st).coreAt j = s.coreAt j := rfl
@[simp] theorem setLanes_at_slice (s : State) (ls : List Nat) (st : Nat) (j : Nat) : (s.setLanes ls st).slice j = s.slice j := rfl
@[simp] theorem setLanes_at_win (s : State) (ls : List Nat) (st : Nat) (j : Nat) : (s.setLanes ls st).win j = s.win j := rfl
@[simp] theorem setLanes_at_rail (s : State) (ls : List Nat) (st : Nat) (j : Nat) : (s.setLanes ls st).rail j = s.rail j := rfl
@[simp] theorem setLanes_at_part (s : State) (ls : List Nat) (st : Nat) (j : Nat) : (s.setLanes ls st).part j = s.part j := rfl
@[simp] theorem setLanes_at_line (s : State) (ls : List Nat) (st : Nat) (j : Nat) : (s.setLanes ls st).line j = s.line j := rfl
@[simp] theorem setLanes_at_strandOf (s : State) (ls : List Nat) (st : Nat) (j i' k' : Nat) : (s.setLanes ls st).strandOf j i' k' = s.strandOf j i' k' := rfl
@[simp] theorem setLanes_at_sdir (s : State) (ls : List Nat) (st : Nat) (j i' : Nat) : (s.setLanes ls st).sdir j i' = s.sdir j i' := rfl
@[simp] theorem setLanes_at_txn (s : State) (ls : List Nat) (st : Nat) (j : Nat) : (s.setLanes ls st).txn? j = s.txn? j := rfl
@[simp] theorem setLanes_at_hubHeld (s : State) (ls : List Nat) (st : Nat) : (s.setLanes ls st).hubHeld = s.hubHeld := rfl
@[simp] theorem setLanes_at_islandUp (s : State) (ls : List Nat) (st : Nat) : (s.setLanes ls st).islandUp = s.islandUp := rfl
@[simp] theorem setLanes_at_lcState (s : State) (ls : List Nat) (st : Nat) : (s.setLanes ls st).lcState = s.lcState := rfl

/-! Values read after they are written -/

theorem setO_at_o (s : State) (k v j : Nat) : (s.setO k v).o j = if j = k then v else s.o j := by
  show KMap.get (odDefault j) (KMap.set (odDefault k) s.od k v) j = _
  by_cases h : j = k
  · subst h; simp
  · rw [if_neg h]
    exact kmap_get_set_other' _ _ _ _ h

@[simp] theorem setO_at_o_same (s : State) (k v : Nat) : (s.setO k v).o k = v := by rw [setO_at_o, if_pos rfl]

theorem setO_at_o_other (s : State) {k v j : Nat} (h : j ≠ k) : (s.setO k v).o j = s.o j := by rw [setO_at_o, if_neg h]

theorem setBlk_at_blk (s : State) (n m : Nat) (b : EvtBlock) : (s.setBlk n b).blk m = if m = n then b else s.blk m := by
  unfold State.blk State.setBlk; exact kmap_get_set _ _ _ _ _

@[simp] theorem setBlk_at_blk_same (s : State) (n : Nat) (b : EvtBlock) : (s.setBlk n b).blk n = b := by
  rw [setBlk_at_blk, if_pos rfl]

theorem kmap_get_upd {α : Type} [DecidableEq α] (d : α) (m : KMap α) (k j : Nat) (f : α → α) :
    KMap.get d (KMap.upd d m k f) j = if j = k then f (KMap.get d m k) else KMap.get d m j := kmap_get_set _ _ _ _ _

theorem updPort_at_port (s : State) (n m : Nat) (f : Port → Port) :
    (s.updPort n f).port m = if m = n then f (s.port n) else s.port m := by
  unfold State.port State.updPort; exact kmap_get_upd _ _ _ _ _

@[simp] theorem updPort_at_port_same (s : State) (n : Nat) (f : Port → Port) : (s.updPort n f).port n = f (s.port n) := by
  rw [updPort_at_port, if_pos rfl]

theorem updSlot_at_slot (s : State) (n m : Nat) (f : Slot → Slot) :
    (s.updSlot n f).slot m = if m = n then f (s.slot n) else s.slot m := by
  unfold State.slot State.updSlot; exact kmap_get_upd _ _ _ _ _

@[simp] theorem updSlot_at_slot_same (s : State) (n : Nat) (f : Slot → Slot) : (s.updSlot n f).slot n = f (s.slot n) := by
  rw [updSlot_at_slot, if_pos rfl]

theorem updCore_at_coreAt (s : State) (n m : Nat) (f : SvcCore → SvcCore) :
    (s.updCore n f).coreAt m = if m = n then f (s.coreAt n) else s.coreAt m := by
  unfold State.coreAt State.updCore; exact kmap_get_upd _ _ _ _ _

@[simp] theorem updCore_at_coreAt_same (s : State) (n : Nat) (f : SvcCore → SvcCore) : (s.updCore n f).coreAt n = f (s.coreAt n) := by
  rw [updCore_at_coreAt, if_pos rfl]

theorem updSlice_at_slice (s : State) (n m : Nat) (f : Slice → Slice) :
    (s.updSlice n f).slice m = if m = n then f (s.slice n) else s.slice m := by
  unfold State.slice State.updSlice; exact kmap_get_upd _ _ _ _ _

@[simp] theorem updSlice_at_slice_same (s : State) (n : Nat) (f : Slice → Slice) : (s.updSlice n f).slice n = f (s.slice n) := by
  rw [updSlice_at_slice, if_pos rfl]

theorem updWin_at_win (s : State) (n m : Nat) (f : Window → Window) :
    (s.updWin n f).win m = if m = n then f (s.win n) else s.win m := by
  unfold State.win State.updWin; exact kmap_get_upd _ _ _ _ _

@[simp] theorem updWin_at_win_same (s : State) (n : Nat) (f : Window → Window) : (s.updWin n f).win n = f (s.win n) := by
  rw [updWin_at_win, if_pos rfl]

theorem updRail_at_rail (s : State) (n m : Nat) (f : Rail → Rail) :
    (s.updRail n f).rail m = if m = n then f (s.rail n) else s.rail m := by
  unfold State.rail State.updRail; exact kmap_get_upd _ _ _ _ _

@[simp] theorem updRail_at_rail_same (s : State) (n : Nat) (f : Rail → Rail) : (s.updRail n f).rail n = f (s.rail n) := by
  rw [updRail_at_rail, if_pos rfl]

theorem updPart_at_part (s : State) (n m : Nat) (f : Part → Part) :
    (s.updPart n f).part m = if m = n then f (s.part n) else s.part m := by
  unfold State.part State.updPart; exact kmap_get_upd _ _ _ _ _

@[simp] theorem updPart_at_part_same (s : State) (n : Nat) (f : Part → Part) : (s.updPart n f).part n = f (s.part n) := by
  rw [updPart_at_part, if_pos rfl]

theorem updLine_at_line (s : State) (n m : Nat) (f : Line → Line) :
    (s.updLine n f).line m = if m = n then f (s.line n) else s.line m := by
  unfold State.line State.updLine; exact kmap_get_upd _ _ _ _ _

@[simp] theorem updLine_at_line_same (s : State) (n : Nat) (f : Line → Line) : (s.updLine n f).line n = f (s.line n) := by
  rw [updLine_at_line, if_pos rfl]

@[simp] theorem setBlk_ev_msix (s : State) (n : Nat) (b : EvtBlock) : (s.setBlk n b).ev.msix = s.ev.msix := rfl
@[simp] theorem setBlk_ev_msixPend (s : State) (n : Nat) (b : EvtBlock) : (s.setBlk n b).ev.msixPend = s.ev.msixPend := rfl
@[simp] theorem setBlk_ev_emcy (s : State) (n : Nat) (b : EvtBlock) : (s.setBlk n b).ev.emcy = s.ev.emcy := rfl
@[simp] theorem setBlk_ev_safe (s : State) (n : Nat) (b : EvtBlock) : (s.setBlk n b).ev.safe = s.ev.safe := rfl
@[simp] theorem setBlk_ev_restarts (s : State) (n : Nat) (b : EvtBlock) : (s.setBlk n b).ev.restarts = s.ev.restarts := rfl

/-- A raise of a class below fatal only writes its block. -/
theorem raise_below_fatal (s : State) (n cls code : Nat) (lasting : Bool) (src : Src) (h : cls ≠ 3) :
    s.raise n cls code lasting src = s.raiseCore n cls code lasting src := by
  unfold State.raise
  simp [h]

end Sys2Proof.Machine
end

