-- ==== Sys2Proof/Laws/Write.lean ====
section
/-!
SUPPORT. What an accepted write does.
-/
namespace Sys2Proof.Machine

/-- A read of another key than the one written, whatever its own default. -/
theorem kmap_get_set_apart {α : Type} [DecidableEq α] (d d' : α) (m : KMap α) {k j : Nat} (v : α) (h : j ≠ k) :
    KMap.get d (KMap.set d' m k v) j = KMap.get d m j := by
  unfold KMap.set
  split
  · rw [kmap_get_erase, if_neg h]
  · rw [kmap_get_insert, if_neg h]

/-- An object that is set reads its value. -/
@[simp] theorem o_setO (s : State) (k v : Nat) : (s.setO k v).o k = v := kmap_get_set_same _ _ _ _

/-- Setting an object leaves every other one. -/
theorem o_setO_other (s : State) {k j : Nat} (v : Nat) (h : j ≠ k) : (s.setO k v).o j = s.o j := kmap_get_set_apart _ _ _ _ h

/-- Setting a value in a generation's contents. -/
@[simp] theorem cfgOf_set (m : KMap Nat) (k v : Nat) : cfgOf (KMap.set (odDefault k) m k v) k = v := kmap_get_set_same _ _ _ _

/-- Setting a value leaves every other one. -/
theorem cfgOf_set_other (m : KMap Nat) {k j : Nat} (v : Nat) (h : j ≠ k) : cfgOf (KMap.set (odDefault k) m k v) j = cfgOf m j :=
  kmap_get_set_apart _ _ _ _ h

theorem odCommand_accepts {s : State} {sid key len v : Nat} {u : State} (own : State → OdAns × State)
    (h : s.accepts sid key len v u) : s.odCommand sid key len v own = (own u).2.answerOd sid (own u).1 := by
  obtain ⟨hs, r, he, hl, hv, hw, ha⟩ := h
  unfold State.odCommand State.odWrite
  simp [hs, he, hl, hv, hw, ha]

theorem odCommandThen_accepts {s : State} {sid key len v : Nat} {u : State} (own : State → OdAns) (after : State → State)
    (h : s.accepts sid key len v u) (ho : (own u).abort = 0) :
    s.odCommandThen sid key len v own after = after (u.answerOd sid (own u)) := by
  obtain ⟨hs, r, he, hl, hv, hw, ha⟩ := h
  unfold State.odCommandThen State.odWrite
  simp [hs, he, hl, hv, hw, ha, ho]

theorem csrDo_open {s : State} {via : CsrVia} {die : Nat} (f : State → State) (h : s.csrOpen via die = true) :
    s.csrDo via die f = f s := by
  simp only [State.csrOpen, Bool.and_eq_true] at h
  simp [State.csrDo, h.1, h.2]

theorem svcRequest_takes {s u : State} {f : SvcFrame} (op : Nat) (inRom ok : Bool) (act : State → State)
    (h : s.svcTakes f u) :
    s.svcRequest f op inRom ok act = if ok then act u else u.svcAnswer f.session.toNat f.seq.toNat op 0x0801 := by
  obtain ⟨h1, h2, hv, ⟨x, h3, h4, h5⟩, h6⟩ := h
  subst h6
  unfold State.svcRequest
  cases ok <;> simp [h1, hv, h3, h4, ← h5, h2]

theorem onMbox_takes {s u : State} {h : Nat} (f : State → State) (e : s.mboxTakes h u) : s.onMbox h f = f u := by
  obtain ⟨h1, h2⟩ := e
  simp [State.onMbox, h1, h2]

theorem onFm_takes {s u : State} {h : Nat} (f : State → State) (e : s.fmTakes h u) : s.onFm h f = f u := by
  unfold State.onFm
  rw [onMbox_takes _ e.1]
  simp [e.2]

end Sys2Proof.Machine
end

