-- ==== Sys2Proof/WellFormed.lean ====
section
/-!
DEFINITION. What the outside world can send: the bounds that frames, payloads and accesses have by their format. A
meaning is total on ill-formed commands too; this says which are outside the formats of the spec.
-/
namespace Sys2Proof

/-- A CAN FD data field: up to 64 bytes, in the lengths that CAN FD has. -/
def canLength (n : Nat) : Bool := n ≤ 8 || [12, 16, 20, 24, 32, 48, 64].contains n

/-- Sizes of a naturally aligned access (R6, R147). -/
def accessSize (n : Nat) : Bool := [1, 2, 4, 8].contains n

/-- A session is named by its path and number (R508). -/
def sessOk (s : SessRef) : Bool :=
  (s % 256 == 1 && 1 ≤ s / 256 && s / 256 ≤ 0x7F) || (s % 256 == 2 && s / 256 < 64)
    || (s % 256 == 3 && 1 ≤ s / 256 && s / 256 ≤ 0xFFFE)

/-- A request flit's byte counts fit its kind (R20, R80). -/
def Req.ok (r : Req) : Bool := r.bytes ≤ 4096 && r.hdr ≤ r.pkt && r.tc < 8

/-- Cells carry at most 64 bytes of payload (R38). -/
def Cell.ok (c : Cell) : Bool := c.bytes ≤ 64 && c.egress < 96 && c.colourCode < 4

/-- The command is one that the formats of the spec admit. -/
def wellFormed : Instr → Bool
  | .requestArrival _ _ req => req.ok
  | .fenceDoorbell _ _ _ n _ | .sliceFence _ _ _ n _ _ | .ringCons _ _ _ n _ _ => 1 ≤ n && n ≤ 64
  | .captureFeedWrite _ _ _ d => 1 ≤ d.length && d.length ≤ 4096
  | .submit _ _ _ _ d => d.length ≤ 64
  | .chunkReadReturn _ _ d => d.length ≤ 4096
  | .seamUnitReceive _ _ _ u => u.items.all (fun i => i.cell.ok && i.dest < 128) && u.wireErrors.all (· < 64)
  | .readReq _ _ d | .writeReq _ _ d | .segInit _ _ d | .segData _ _ d | .segAck _ _ d | .abortFrame _ _ d =>
    canLength d.length
  | .addrAssign d => canLength d.length
  | .odAccessRead _ d | .odAccessWrite _ d => d.length ≤ 16384
  | .discover f | .openSession f => f.payload.length ≤ 1484
  | .closeSession _ d | .servicePortBadOp _ _ d | .blobEnd _ d | .blobStatus _ d | .blobAbort _ d => d.length ≤ 1484
  | .odWrite _ _ _ _ _ d | .blobData _ _ _ d => d.length ≤ 1476
  | .objectWrite sess _ _ d => sessOk sess && d.length ≤ 65536
  | .registerWrite _ _ _ n _ | .registerRead _ _ _ n => accessSize n
  | .coreMemoryAccess _ _ _ n => accessSize n.val
  | .temperaturePoll mc => mc.length == 7
  | .lcToken sess d | .authResponse sess d | .devkeyCert sess d => sessOk sess && d.length ≤ 65536
  | .sliceRestore sess _ r => sessOk sess && r.length ≤ 1049088
  | _ => true

end Sys2Proof
end

