-- ==== Sys2Proof/Tests/Slice0.lean ====
section
/-!
SUPPORT. Tests: states and operands that meet the hypotheses of each clause of the statements, an ill-formed command for each check of
WellFormed.lean, and single commands whose results the spec gives.
-/
namespace Sys2Proof.Tests

open Sys2Proof Sys2Proof.Machine

set_option Elab.async false

/-- A running device at one second: the data path is released, every seam strand is up, VCS 0 to 2 are up with their mailboxes open, and
service-port session 1 is open with the maker role. -/
def run : State :=
  { State.reset with
    now := 10 ^ 12
    st := { State.reset.st with porHeld := false, released := true, refPresent := true }
    mg := { sess := [(sidMailbox 0, some { role := 0, feat := 2 ^ 64 - 1, lastAt := 10 ^ 12 }), (sidSvc 1, some { role := 3, feat := 2 ^ 64 - 1, lastAt := 10 ^ 12 })], svcLinkUp := true }
    gen := { active := [(K.FM_HOST, 0)] }
    fab := { vcsUp := [(0, true), (1, true), (2, true)] }
    seams := { strand := (List.range 72).map (fun k => (k, { status := 2, upAt := 1, lastAt := 10 ^ 12 })) } }

def accB (s : State) (sid key len v : Nat) : Bool :=
  match s.writeEarly sid key v with
  | .inl _ => false
  | .inr r => decide (r.late len v = none) && !(decide (r.home = .event) && blockReserved (evtOfKey key)) && s.writeReach r key
      && decide (r.access ≠ .rws)

theorem accepts_of {s u : State} {sid key len v : Nat} (h : s.sessionFor sid = .ready u) (hb : accB u sid key len v = true) :
    s.accepts sid key len v u := by
  unfold accB at hb
  split at hb
  · cases hb
  · rename_i r e
    simp only [Bool.and_eq_true, decide_eq_true_eq, Bool.not_eq_true'] at hb
    exact ⟨h, r, e, hb.1.1.1, by simpa using hb.1.1.2, hb.1.2, hb.2⟩
/-- The state with an object of the active generation. -/
def withC (s : State) (k v : Nat) : State := { s with gen := { s.gen with active := (k, v) :: s.gen.active } }

/-- The machine in which a request of a session acts. -/
def readyD (s : State) (sid : Nat) : State := match s.sessionFor sid with | .ready u => u | _ => s
def isReady (s : State) (sid : Nat) : Bool := match s.sessionFor sid with | .ready _ => true | _ => false
theorem ready_of {s : State} {sid : Nat} (h : isReady s sid = true) : s.sessionFor sid = .ready (readyD s sid) := by
  unfold isReady at h
  unfold readyD
  split at h
  · rename_i u e; rw [e]
  · cases h
theorem some_getD {α : Type} {x : Option α} (d : α) (h : x.isSome = true) : x = some (x.getD d) := by
  cases x with
  | none => cases h
  | some a => rfl

def takesB (s : State) (f : SvcFrame) : Bool :=
  s.svcServes && !s.st.recovery && decide (f.version = 1)
    && (match s.sess? (sidSvc f.session.toNat) with
        | some x => decide (f.seq.toNat ≠ x.lastSeq) && decide (f.seq.toNat = seqAfter x.lastSeq)
        | none => false)
theorem svcTakes_of {s : State} {f : SvcFrame} (h : takesB s f = true) :
    s.svcTakes f (s.updSess (sidSvc f.session.toNat) (fun x => { x with lastAt := s.now })) := by
  unfold takesB at h
  simp only [Bool.and_eq_true, Bool.not_eq_true', decide_eq_true_eq] at h
  obtain ⟨⟨⟨h1, h2⟩, h3⟩, h4⟩ := h
  refine ⟨h1, h2, h3, ?_, rfl⟩
  split at h4
  · rename_i x e
    simp only [Bool.and_eq_true, decide_eq_true_eq] at h4
    exact ⟨x, e, h4.1, h4.2⟩
  · cases h4
theorem parts {α β γ δ : Type} {x : α × β × γ × δ} {a : α} (h : x.1 = a) : x = (a, x.2.1, x.2.2.1, x.2.2.2) := by
  obtain ⟨x1, x2, x3, x4⟩ := x
  cases h
  rfl

theorem pair {α β : Type} {x : α × β} {a : α} (h : x.1 = a) : x = (a, x.2) := by
  obtain ⟨x1, x2⟩ := x
  cases h
  rfl

/-- A draft of session `sidSvc 1`, equal to the active generation, ready to be committed. -/
def drafted : State :=
  { ((run.setO K.DRAFT_STATE 1).setO K.DRAFT_OWNER (sidSvc 1)) with
    gen := { ((run.setO K.DRAFT_STATE 1).setO K.DRAFT_OWNER (sidSvc 1)).gen with draft := run.gen.active } }

theorem drafted_gangs : ((List.range 96).filter (fun p => drafted.gangReason drafted.gen.draft p ≠ 0)).isEmpty = true := by decide +kernel
theorem drafted_limits : limitsBad drafted.gen.draft = false := by decide +kernel
theorem drafted_windows : drafted.windowReason drafted.gen.draft = 0 := by decide +kernel
theorem drafted_freezes : drafted.freezeReason drafted.gen.draft = 0 := by decide +kernel
theorem drafted_apertures : drafted.apertureBad drafted.gen.draft = false := by decide +kernel
theorem drafted_traffic : trafficReason drafted.gen.draft = 0 := by decide +kernel
theorem drafted_tags : drafted.tagStoreBad drafted.gen.draft = false := by decide +kernel
theorem drafted_guards : guardsDiffer drafted.gen.active drafted.gen.draft = false := by decide +kernel
theorem drafted_slots : slotReason drafted.gen.draft = 0 := by decide +kernel

/-- Every check of R493 passes. -/
theorem drafted_passes : drafted.commitChecks drafted.gen.draft = (0, drafted) := by
  simp only [State.commitChecks, drafted_gangs, drafted_limits, drafted_windows, drafted_freezes, drafted_apertures, drafted_traffic,
    drafted_tags, drafted_guards, drafted_slots, ne_eq, not_true_eq_false, Bool.not_true, Bool.false_and, Bool.false_eq_true, if_false]

/-- Two pool targets, 0 behind port 0 and 1 behind port 1, with nothing on them. -/
def twoPools : State :=
  [0, 1].foldl (fun (s : State) p => ((((s.setO (K.ROLE p) 2).setO (K.AGENT p) p).setO (K.POOL p) 1).setO (K.AGENT_KIND p) 2).setO (K.PORT_STATE p) 2) run

/-- The mailbox's session has the operator role. -/
def fmRun : State := { run with mg := { run.mg with sess := [(sidMailbox 0, some { role := 2, feat := 1, lastAt := 10 ^ 12 })] } }
/-- The machine in which a command of mailbox 0 acts. -/
def boxed (s : State) : State := s.updSess (sidMailbox 0) (fun x => { x with lastAt := run.now })
/-- The row of an object that exists. -/
def rowOf (k : Nat) : OdRow := (odRow? k).getD ⟨"", 0, 0, 0, 0, 0, .u 1, .ro, .const 0, .any, .island, 0⟩

/-! ### What the statements assume can be met -/

theorem test_StepRunsFrontCommand_met :
    ∃ (c : Instr) (s : State) (rest : List Instr), s.pending = c :: rest :=
  ⟨.departureSweepStep, { run with pending := [.departureSweepStep] }, [], by decide +kernel⟩

theorem test_EventBlockAcknowledged_met_1 :
    (∃ (sess : SessRef) (n : EventIx) (v : Byte) (s u : State), s.accepts sess (K.EVT_ACK n) 1 v.toNat u ∧ (6 ≤ u.tm.item ∨ (u.blk
      n).timer = none) ∧ (u.blk n).isHot 0 u.now = false)
    ∧ (∃ (via : CsrVia) (n : EventIx) (s : State), s.csrOpen via (blockDie n) = true ∧ (6 ≤ s.tm.item ∨ (s.blk n).timer = none) ∧ (s.blk
      n).isHot 0 s.now = false)
    ∧ (∃ (via : CsrVia) (n : EventIx) (t : Nat) (s : State), s.csrOpen via (blockDie n) = true ∧ 6 ≤ s.tm.item ∧ (s.blk n).timer = some
      t ∧ (s.blk n).isHot 0 s.now = true)
    ∧ (∃ (via : CsrVia) (n : EventIx) (s : State), s.csrOpen via (blockDie n) = true)
    ∧ (∃ (via : CsrVia) (n : EventIx) (s : State), s.csrOpen via (blockDie n) = true ∧ (s.blk n).cls = 1 ∧ (s.blk n).isHot 3 s.now =
      false)
    ∧ (∃ (via : CsrVia) (n : EventIx) (s : State), s.csrOpen via (blockDie n) = true ∧ (s.blk n).cls = 2 ∧ (s.blk n).cause = true)
    ∧ (∃ (sess : SessRef) (n : EventIx) (v : Byte) (s u : State), s.accepts sess (K.EVT_CLEAR n) 1 v.toNat u ∧ (u.blk n).cls = 1 ∧
      (u.blk n).isHot 3 u.now = false)
    ∧ (∃ (sess : SessRef) (n : EventIx) (v : Byte) (s u : State), s.accepts sess (K.EVT_CLEAR n) 1 v.toNat u ∧ (u.blk n).cls = 2 ∧
      (u.blk n).cause = true) :=
  ⟨⟨sidSvc 1, 0, 1, run, run, accepts_of rfl (by decide +kernel), by decide +kernel, by decide +kernel⟩, ⟨.service (sidSvc 1), 0, run,
    by decide +kernel, by decide +kernel, by decide +kernel⟩, ⟨.service (sidSvc 1), 0, 0, run.setBlk 0
    { timer := some 0, hot := 1, hotAt := 10 ^ 12 }, by decide +kernel, by decide +kernel, by decide +kernel, by decide +kernel⟩,
    ⟨.service (sidSvc 1), 0, run, by decide +kernel⟩, ⟨.service (sidSvc 1), 0, run.setBlk 0 { cls := 1 }, by decide +kernel,
    by decide +kernel, by decide +kernel⟩, ⟨.service (sidSvc 1), 0, run.setBlk 0 { cls := 2, cause := true }, by decide +kernel,
    by decide +kernel, by decide +kernel⟩, ⟨sidSvc 1, 0, 1, run.setBlk 0 { cls := 1 }, run.setBlk 0 { cls := 1 }, accepts_of rfl
    (by decide +kernel), by decide +kernel, by decide +kernel⟩, ⟨sidSvc 1, 0, 1, run.setBlk 0 { cls := 2, cause := true }, run.setBlk 0
    { cls := 2, cause := true }, accepts_of rfl (by decide +kernel), by decide +kernel, by decide +kernel⟩⟩

theorem test_EventBlockAcknowledged_met_2 :
    (∃ (sess : SessRef) (v : Byte) (s u : State), s.accepts sess K.SAFE_EXIT 1 v.toNat u ∧ u.ev.safe = true)
    ∧ (∃ (sess : SessRef) (v : Byte) (s u : State), s.accepts sess K.SAFE_EXIT 1 v.toNat u ∧ u.ev.safe = false) :=
  ⟨⟨sidSvc 1, 1, { run with ev := { safe := true } }, { run with ev := { safe := true } }, accepts_of rfl (by decide +kernel),
    by decide +kernel⟩, ⟨sidSvc 1, 1, run, run, accepts_of rfl (by decide +kernel), by decide +kernel⟩⟩

theorem test_EventChangeDelivered_met :
    (∃ (n : EventIx) (h : Nat) (s : State), blockDie n < 5 ∧ s.hubHeld = false ∧ 4 ≤ s.tm.item ∧ (s.blk n).owed = true ∧ s.routedHosts n
      = [h] ∧ s.isVcsUp h = true ∧ bit (s.c (K.EVT_ROUTE n)) 2 = false)
    ∧ (∃ (n : EventIx) (s : State), 456 ≤ n.val ∧ n.val < 528 ∧ s.hkServes = false ∧ (s.blk n).changed = true ∧ (KMap.get []
      s.pw.spcHeld ((n - 456) / 36)).length < 32)
    ∧ (∃ (body : Nat) (rest : List Nat) (s : State), s.ev.emcy = body :: rest ∧ s.o K.NODE_ADDR ≠ 0 ∧ s.o K.CAN_STATE ≠ 2 ∧ s.islandUp =
      true)
    ∧ (∃ (h : HostIx) (s : State), s.isVcsUp h = true ∧ 6 ≤ s.tm.item)
    ∧ (∃ (n : EventIx) (s : State), (s.blk n).requal = true ∧ s.requalified n = true)
    ∧ (∃ (n : EventIx) (e : Nat) (s : State), blockKind n = .engine e ∧ (s.blk n).timer = some 1 ∧ (s.blk n).pending = true ∧ (s.blk
      n).step = 1 ∧ 2 < s.ceiling n (s.blk n).cls ∧ (s.blk n).timerAt < s.tm.tickStart ∧ (s.blk n).counted ≠ s.tm.ticks ∧ s.hubHeld =
      false ∧ s.tm.overrun = false ∧ s.itemRuns 6 = true)
    ∧ (∃ (via : CsrVia) (n : EventIx) (v : Word32) (s : State), s.csrOpen via (blockDie n) = true ∧ blockReserved n = false ∧ bits
      v.toNat 4 3 = 3)
    ∧ (∃ (via : CsrVia) (n : EventIx) (v : Word32) (s : State), s.csrOpen via (blockDie n) = true ∧ blockReserved n = false ∧ s.injOpen
      = true ∧ bits v.toNat 2 0 < checkers n ∧ bits v.toNat 4 3 ≠ 3 ∧ bits v.toNat 2 0 ≠ 0 ∧ bit v.toNat 6 = true) :=
  ⟨⟨573, 0, (withC run (K.EVT_ROUTE 573) 1).setBlk 573 { owed := true }, by decide +kernel, by decide +kernel, by decide +kernel,
    by decide +kernel, by decide +kernel, by decide +kernel, by decide +kernel⟩, ⟨456,
    { run.setBlk 456 { changed := true } with st := { run.st with hkHeld := true } }, by decide +kernel, by decide +kernel,
    by decide +kernel, by decide +kernel, by decide +kernel⟩, ⟨7, [], ({ run with ev := { emcy := [7] } } : State).setO K.NODE_ADDR 5,
    by decide +kernel, by decide +kernel, by decide +kernel, by decide +kernel⟩, ⟨0, run, by decide +kernel, by decide +kernel⟩, ⟨0,
    run.setBlk 0 { requal := true }, by decide +kernel, by decide +kernel⟩, ⟨552, 0,
    { (withC run (K.ESC_CEIL 552) 0x44).setBlk 552 { timer := some 1, pending := true, step := 1, cls := 2 } with tm := { tickStart := 10, ticks := 3 } },
    by decide +kernel, by decide +kernel, by decide +kernel, by decide +kernel, by decide +kernel, by decide +kernel, by decide +kernel,
    by decide +kernel, by decide +kernel, by decide +kernel⟩, ⟨.service (sidSvc 1), 0, 24, run, by decide +kernel, by decide +kernel,
    by decide +kernel⟩, ⟨.service (sidSvc 1), 528, 0x41, run, by decide +kernel, by decide +kernel, by decide +kernel,
    by decide +kernel, by decide +kernel, by decide +kernel, by decide +kernel⟩⟩

theorem test_SupplyInputsAndLevels_met :
    (∃ (b : Bool) (s : State), s.oring b = .conducting)
    ∧ (∃ (b : Bool) (s : State), s.oring b ≠ .offOver)
    ∧ (∃ (s : State), s.st.porHeld = false ∧ s.pw.below33 = false)
    ∧ (∃ (s : State), s.pw.below33 = true)
    ∧ (∃ (s : State), s.st.porHeld = false)
    ∧ (∃ (s : State), s.st.thermal = false ∧ s.islandUp = true)
    ∧ (∃ (s : State), s.st.thermal = true)
    ∧ (∃ (mc : List Int) (s u : State), s.islandServes = true ∧ mc.length = 7 ∧ (u = (List.range 7).foldl (fun s k => s.setO (tjKey k)
      (toSigned 32 (mc.getD k 0))) s) ∧ hottest mc ≤ ofSigned 32 (u.o K.TJ_PEAK) ∧ u.st.warnTemp = false ∧ hottest mc ≤ (u.c K.TJ_WARN :
      Int)) :=
  ⟨⟨true, { run with pw := { run.pw with inA := .conducting, inB := .conducting } }, by decide +kernel⟩, ⟨true, run, by decide +kernel⟩,
    ⟨run, by decide +kernel, by decide +kernel⟩, ⟨{ run with pw := { run.pw with below33 := true } }, by decide +kernel⟩, ⟨run,
    by decide +kernel⟩, ⟨run, by decide +kernel, by decide +kernel⟩, ⟨{ run with st := { run.st with thermal := true } },
    by decide +kernel⟩, ⟨[0, 0, 0, 0, 0, 0, 0], run, _, by decide +kernel, by decide +kernel, rfl, by decide +kernel, by decide +kernel,
    by decide +kernel⟩⟩

theorem test_CoreRailsSequenced_met_1 :
    (∃ (s : State), s.o K.RAIL_SEQ_STATE = 1 ∧ s.pw.turningOff = false ∧ (s.rail 0).on = false ∧ (s.rail 0).asked = true ∧ s.islandUp =
      true)
    ∧ (∃ (r : Fin 4) (s u : State), r.val ≠ 0 ∧ s.o K.RAIL_SEQ_STATE = 1 ∧ s.pw.turningOff = false ∧ (s.rail r).on = false ∧ s.islandUp
      = true ∧ s.o (K.RAIL_STATE (r - 1)) = 2 ∧ (s.rail r).asked = true ∧ u = s.advance ((s.rail (r - 1)).upAt + 500000000))
    ∧ (∃ (r : Fin 4) (s : State), s.o (K.RAIL_STATE r) = 1 ∧ (s.rail r).on = true ∧ r.val ≠ 3)
    ∧ (∃ (s u : State), s.o (K.RAIL_STATE 3) = 1 ∧ (s.rail 3).on = true ∧ (u = ((s.updRail 3 (fun x => { x with upAt := s.now })).setO
      (K.RAIL_STATE 3) 2).causeEnds 608))
    ∧ (∃ (r : Fin 4) (s : State), s.o (K.RAIL_STATE r) = 1 ∧ (s.rail r).on = true)
    ∧ (∃ (r : Fin 4) (s : State), s.o (K.RAIL_STATE r) = 2)
    ∧ (∃ (r : Fin 4) (s : State), s.pw.turningOff = true ∧ s.railsOn.head? = some r.val)
    ∧ (∃ (at_ : Nat) (s : State), s.pw.retryAt = some at_) :=
  ⟨⟨(run.setO K.RAIL_SEQ_STATE 1).updRail 0 (fun x => { x with asked := true }), by decide +kernel, by decide +kernel,
    by decide +kernel, by decide +kernel, by decide +kernel⟩, ⟨1, ((run.setO K.RAIL_SEQ_STATE 1).setO (K.RAIL_STATE 0) 2).updRail 1 (fun
    x => { x with asked := true }), _, by decide +kernel, by decide +kernel, by decide +kernel, by decide +kernel, by decide +kernel,
    by decide +kernel, by decide +kernel, rfl⟩, ⟨0, (run.setO (K.RAIL_STATE 0) 1).updRail 0 (fun x => { x with on := true }),
    by decide +kernel, by decide +kernel, by decide +kernel⟩, ⟨(run.setO (K.RAIL_STATE 3) 1).updRail 3 (fun x => { x with on := true }),
    _, by decide +kernel, by decide +kernel, rfl⟩, ⟨3, (run.setO (K.RAIL_STATE 3) 1).updRail 3 (fun x => { x with on := true }),
    by decide +kernel, by decide +kernel⟩, ⟨0, run.setO (K.RAIL_STATE 0) 2, by decide +kernel⟩, ⟨3,
    { run.updRail 3 (fun x => { x with on := true }) with pw := { (run.updRail 3 (fun x => { x with on := true })).pw with turningOff := true } },
    by decide +kernel, by decide +kernel⟩, ⟨5, { run with pw := { run.pw with retryAt := some 5 } }, by decide +kernel⟩⟩

theorem test_CoreRailsSequenced_met_2 :
    (∃ (sess : SessRef) (v : Byte) (s u : State), s.accepts sess K.RAIL_RESTART 1 v.toNat u ∧ u.o K.RAIL_SEQ_STATE = 3)
    ∧ (∃ (sess : SessRef) (v : Byte) (s u : State), s.accepts sess K.RAIL_RESTART 1 v.toNat u ∧ u.o K.RAIL_SEQ_STATE ≠ 3)
    ∧ (∃ (r : Fin 4) (st : BitVec 16) (s u : State), s.islandServes = true ∧ railStatusBad st.toNat = false ∧ (u = (((((s.pmbus r 0x79
      0).updRail r (fun x => { x with nacks := 0 })).pmbus r 0x8B 0).pmbus r 0x8C 0).pmbus r 0x8D 0)))
    ∧ (∃ (at_ : Nat) (s u : State), s.pw.dieRelAt = some at_ ∧ u =
      { s.advance at_ with pw := { (s.advance at_).pw with dieRelAt := none } } ∧ u.mayReleaseHub = true) :=
  ⟨⟨sidSvc 1, 1, run.setO K.RAIL_SEQ_STATE 3, run.setO K.RAIL_SEQ_STATE 3, accepts_of rfl (by decide +kernel), by decide +kernel⟩,
    ⟨sidSvc 1, 1, run, run, accepts_of rfl (by decide +kernel), by decide +kernel⟩, ⟨0, 0, run, _, by decide +kernel, by decide +kernel,
    rfl⟩, ⟨5, ({ run with st := { run.st with released := false }, pw := { run.pw with dieRelAt := some 5 } } : State).setO
    K.RAIL_SEQ_STATE 2, _, by decide +kernel, rfl, by decide +kernel⟩⟩

theorem test_SlotCommandsAndRamp_met_1 :
    (∃ (sess : SessRef) (n : SlotIx) (s u : State), s.accepts sess (K.SLOT_CMD n) 1 1 u ∧ (u.slotOwner n).isSome = false ∧ (u.slot
      n).state = .off ∧ u.slotPresent n = true ∧ u.slotHot n = false)
    ∧ (∃ (sess : SessRef) (n : SlotIx) (s u : State), s.accepts sess (K.SLOT_CMD n) 1 1 u ∧ (u.slotOwner n).isSome = true)
    ∧ (∃ (sess : SessRef) (n : SlotIx) (s u : State), s.accepts sess (K.SLOT_CMD n) 1 0 u ∧ (u.slotOwner n).isSome = false ∧ ((u.slot
      n).state = .on ∨ (u.slot n).state = .ramp))
    ∧ (∃ (sess : SessRef) (n : SlotIx) (s u : State), s.accepts sess (K.SLOT_CMD n) 1 0 u ∧ (u.slotOwner n).isSome = false ∧ (u.slot
      n).state = .lockout)
    ∧ (∃ (sess : SessRef) (n : SlotIx) (v : Byte) (s u : State), s.accepts sess (K.FORCE_OFF n) 1 v.toNat u)
    ∧ (∃ (n : SlotIx) (mv : Nat) (s u : State), u = s.setO (K.V_OUT_MV n) (mv % 2 ^ 32) ∧ (u.slot n).state = .off ∧ (u.slot n).onWaits =
      true ∧ mv < 2500)
    ∧ (∃ (n : SlotIx) (mv : Nat) (s u : State), u = s.setO (K.V_OUT_MV n) (mv % 2 ^ 32) ∧ (u.slot n).state = .ramp ∧ (u.slot n).timerOn
      = false)
    ∧ (∃ (n : SlotIx) (s : State), (s.slot n).state = .supplyWait ∧ (s.slot n).cmdOn = true) :=
  ⟨⟨sidSvc 1, 0, run.updSlot 0 (fun x => { x with prsntKnown := true, prsnt := true }), run.updSlot 0 (fun x =>
    { x with prsntKnown := true, prsnt := true }), accepts_of rfl (by decide +kernel), by decide +kernel, by decide +kernel,
    by decide +kernel, by decide +kernel⟩, ⟨sidSvc 1, 0, ((({ run with fab := { run.fab with bind := [(0, some (1, 5, 0))] } } :
    State).setO (K.SLOT 5) 0).setO (K.ROLE 5) 3).setO (K.HP_OWNER 5) 1,
    ((({ run with fab := { run.fab with bind := [(0, some (1, 5, 0))] } } : State).setO (K.SLOT 5) 0).setO (K.ROLE 5) 3).setO
    (K.HP_OWNER 5) 1, accepts_of rfl (by decide +kernel), by decide +kernel⟩, ⟨sidSvc 1, 0, run.updSlot 0 (fun x =>
    { x with state := .on }), run.updSlot 0 (fun x => { x with state := .on }), accepts_of rfl (by decide +kernel), by decide +kernel,
    by decide +kernel⟩, ⟨sidSvc 1, 0, run.updSlot 0 (fun x => { x with state := .lockout }), run.updSlot 0 (fun x =>
    { x with state := .lockout }), accepts_of rfl (by decide +kernel), by decide +kernel, by decide +kernel⟩, ⟨sidSvc 1, 0, 1, run, run,
    accepts_of rfl (by decide +kernel)⟩, ⟨0, 5, run.updSlot 0 (fun x => { x with onWaits := true }), _, rfl, by decide +kernel,
    by decide +kernel, by decide +kernel⟩, ⟨0, 5, run.updSlot 0 (fun x => { x with state := .ramp }), _, rfl, by decide +kernel,
    by decide +kernel⟩, ⟨23, run.updSlot 23 (fun x => { x with state := .supplyWait, cmdOn := true }), by decide +kernel,
    by decide +kernel⟩⟩

theorem test_SlotCommandsAndRamp_met_2 :
    (∃ (n : SlotIx) (s u : State), (s.slot n).discharging = true ∧ (s.slot n).state ≠ .lockout ∧ u = s.advance ((s.slot n).enteredAt +
      s.c (K.DSCHG_TIME n) * 1000000000))
    ∧ (∃ (n : SlotIx) (s : State), (s.slot n).state = .ramp)
    ∧ (∃ (sess : SessRef) (n : SlotIx) (v : Byte) (s u : State), s.accepts sess (K.CHAN_RESET n) 1 v.toNat u ∧ (u.slot n).state =
      .lockout)
    ∧ (∃ (sess : SessRef) (n : SlotIx) (v : Byte) (s u : State), s.accepts sess (K.CHAN_RESET n) 1 v.toNat u ∧ (u.slot n).state = .on)
    ∧ (∃ (n : SlotIx) (s : State), (s.slot n).selftest = .running)
    ∧ (∃ (sess : SessRef) (n : SlotIx) (v : Byte) (s u w : State), s.accepts sess (K.LOCKOUT_CLEAR n) 1 v.toNat u ∧ (u.slot n).state =
      .lockout ∧ (u.slot n).selftest = .passed ∧ (w = u.updSlot n (fun x =>
      { x with state := .off, feedA := x.feedAGood, feedB := x.feedBGood, lockRec := false, watch := true, discharging := true, enteredAt := u.now, selftest := .none })))
    ∧ (∃ (sess : SessRef) (n : SlotIx) (v : Byte) (s u : State), s.accepts sess (K.LOCKOUT_CLEAR n) 1 v.toNat u ∧ (u.slot n).state ≠
      .lockout) :=
  ⟨⟨0, run.updSlot 0 (fun x => { x with discharging := true }), _, by decide +kernel, by decide +kernel, rfl⟩, ⟨0, run.updSlot 0 (fun x
    => { x with state := .ramp }), by decide +kernel⟩, ⟨sidSvc 1, 0, 1, run.updSlot 0 (fun x => { x with state := .lockout }),
    run.updSlot 0 (fun x => { x with state := .lockout }), accepts_of rfl (by decide +kernel), by decide +kernel⟩, ⟨sidSvc 1, 0, 1,
    run.updSlot 0 (fun x => { x with state := .on }), run.updSlot 0 (fun x => { x with state := .on }), accepts_of rfl
    (by decide +kernel), by decide +kernel⟩, ⟨0, run.updSlot 0 (fun x => { x with selftest := .running }), by decide +kernel⟩, ⟨sidSvc
    1, 0, 1, run.updSlot 0 (fun x => { x with state := .lockout, selftest := .passed }), run.updSlot 0 (fun x =>
    { x with state := .lockout, selftest := .passed }), _, accepts_of rfl (by decide +kernel), by decide +kernel, by decide +kernel,
    rfl⟩, ⟨sidSvc 1, 0, 1, run, run, accepts_of rfl (by decide +kernel), by decide +kernel⟩⟩

theorem test_SlotTripsAndFeeds_met_1 :
    (∃ (n : SlotIx) (ma : Nat) (s u : State), u = s.setO (K.I_OUT_MA n) (ma % 2 ^ 32) ∧ ((u.slot n).state = .on ∨ (u.slot n).state =
      .ramp) ∧ (u.slot n).timerOn = false ∧ u.c (K.LIMIT_MA n) < ma)
    ∧ (∃ (n : SlotIx) (ma : Nat) (s u : State), u = s.setO (K.I_OUT_MA n) (ma % 2 ^ 32) ∧ (u.slot n).timerOn = true ∧ ma * 100 < u.c
      (K.LIMIT_MA n) * 95)
    ∧ (∃ (n : SlotIx) (s : State), (s.slot n).timerOn = true)
    ∧ (∃ (n : SlotIx) (s u : State), ((s.slot n).state = .ramp ∨ (s.slot n).state = .on) ∧ (u = s.updSlot n (fun x =>
      { x.gateOff .tripped s.now with cmdOn := false })))
    ∧ (∃ (n : SlotIx) (s : State), (s.slot n).tripCheck ≠ 0 ∧ (s.slot n).state = .tripped)
    ∧ (∃ (n : SlotIx) (s : State), (s.slot n).watch = true ∧ (s.slot n).state = .off)
    ∧ (∃ (n : SlotIx) (s u : State), (s.slot n).state = .on ∧ (u = s.updSlot n (fun x => x.gateOff .supplyWait s.now)))
    ∧ (∃ (n : SlotIx) (s : State), (s.slot n).state ≠ .lockout) :=
  ⟨⟨0, 100000, run.updSlot 0 (fun x => { x with state := .on }), _, rfl, by decide +kernel, by decide +kernel, by decide +kernel⟩, ⟨0,
    0, run.updSlot 0 (fun x => { x with timerOn := true }), _, rfl, by decide +kernel, by decide +kernel⟩, ⟨0, run.updSlot 0 (fun x =>
    { x with timerOn := true }), by decide +kernel⟩, ⟨0, run.updSlot 0 (fun x => { x with state := .ramp }), _, by decide +kernel, rfl⟩,
    ⟨0, run.updSlot 0 (fun x => { x with state := .tripped, tripCheck := 2 }), by decide +kernel, by decide +kernel⟩, ⟨0, run.updSlot 0
    (fun x => { x with watch := true }), by decide +kernel, by decide +kernel⟩, ⟨0, run.updSlot 0 (fun x => { x with state := .on }), _,
    by decide +kernel, rfl⟩, ⟨0, run, by decide +kernel⟩⟩

theorem test_SlotTripsAndFeeds_met_2 :
    (∃ (n : SlotIx) (b : Bool) (s u : State), (s.slot n).redLost = false ∧ (u = s.updSlot n (fun x =>
      { x with redLost := true, feedAGood := b, feedBGood := !b })))
    ∧ (∃ (n : SlotIx) (s u : State), (s.slot n).redLost = true ∧ (u = s.updSlot n (fun x =>
      { x with redLost := false, feedAGood := true, feedBGood := true })))
    ∧ (∃ (n : SlotIx) (at_ : Nat) (s u : State), (s.slot n).prsntKnown = false ∧ s.slotPort n = none ∧ (s.slot n).autoDue = false ∧ (u =
      (s.advance (at_ + s.debounce n)).updSlot n (fun x => { x with prsntKnown := true, prsnt := true }))) :=
  ⟨⟨0, true, run, _, by decide +kernel, rfl⟩, ⟨0, run.updSlot 0 (fun x => { x with redLost := true }), _, by decide +kernel, rfl⟩, ⟨0,
    0, run, _, by decide +kernel, by decide +kernel, by decide +kernel, rfl⟩⟩

theorem test_FirmwareInstalledAndConfirmed_met_1 :
    (∃ (sess : SessRef) (v : Byte) (s u : State) (named : List Nat), s.accepts sess K.FW_INSTALL 1 v.toNat u ∧ (named = (List.range
      8).filterMap (fun i => if bit v.toNat i then some (i + 1) else none)) ∧ named.all u.stagedFor = true ∧ u.installing = false ∧
      named.any u.onProbation = false ∧ u.o K.GEN_STATE = 0 ∧ named.contains 8 = false ∧ named.contains 3 = false ∧ named.contains 6 =
      false ∧ u.chainOk named = true)
    ∧ (∃ (sess : SessRef) (v : Byte) (s u : State), s.accepts sess K.FW_INSTALL 1 v.toNat u ∧ u.installing = true ∧ (((List.range
      8).filterMap (fun i => if bit v.toNat i then some (i + 1) else none)).all u.stagedFor = true))
    ∧ (∃ (k : Fin 8) (s u : State), k.val ≠ 0 ∧ k.val ≠ 7 ∧ s.life.swapping = some k.val ∧ (k.val ≤ 2 → (List.range 4).any (fun t =>
      s.tileHeld t || !s.seamUp t) = false) ∧ (u = (s.updPart k (fun p =>
      { p with active := p.other, other := (s.part k).active, staged := false, probEnd := some (s.now + (p.other.getD {}).probationMs * Config.ms) })).swapEnds))
    ∧ (∃ (s u : State), u = { s with life := { s.life with swapping := none } })
    ∧ (∃ (k : Fin 8) (at_ : Nat) (s : State), (s.part k).probEnd = some at_ ∧ s.now < at_)
    ∧ (∃ (k : Fin 8) (at_ : Nat) (s : State), (s.part k).probEnd = some at_)
    ∧ (∃ (k : Fin 8) (at_ : Nat) (s : State), (s.part k).probEnd = some at_)
    ∧ (∃ (sess : SessRef) (v : Byte) (k : Nat) (s u : State), s.accepts sess K.FW_REJECT 1 v.toNat u ∧ (List.range 9).find?
      u.onProbation = some k) :=
  ⟨⟨sidSvc 1, 16, run.updPart 5 (fun p => { p with other := some (resetImage 5), staged := true }), run.updPart 5 (fun p =>
    { p with other := some (resetImage 5), staged := true }), _, accepts_of rfl (by decide +kernel), rfl, by decide +kernel,
    by decide +kernel, by decide +kernel, by decide +kernel, by decide +kernel, by decide +kernel, by decide +kernel,
    by decide +kernel⟩, ⟨sidSvc 1, 16,
    { run.updPart 5 (fun p => { p with other := some (resetImage 5), staged := true }) with life := { (run.updPart 5 (fun p => { p with other := some (resetImage 5), staged := true })).life with swapping := some 6 } },
    { run.updPart 5 (fun p => { p with other := some (resetImage 5), staged := true }) with life := { (run.updPart 5 (fun p => { p with other := some (resetImage 5), staged := true })).life with swapping := some 6 } },
    accepts_of rfl (by decide +kernel), by decide +kernel, by decide +kernel⟩, ⟨6,
    { run with life := { run.life with swapping := some 6 } }, _, by decide +kernel, by decide +kernel, by decide +kernel,
    by decide +kernel, rfl⟩, ⟨run, _, rfl⟩, ⟨5, 2 * 10 ^ 12, run.updPart 5 (fun p => { p with probEnd := some (2 * 10 ^ 12) }),
    by decide +kernel, by decide +kernel⟩, ⟨5, 2 * 10 ^ 12, run.updPart 5 (fun p => { p with probEnd := some (2 * 10 ^ 12) }),
    by decide +kernel⟩, ⟨5, 2 * 10 ^ 12, run.updPart 5 (fun p => { p with probEnd := some (2 * 10 ^ 12) }), by decide +kernel⟩, ⟨sidSvc
    1, 1, 5, run.updPart 5 (fun p => { p with probEnd := some (2 * 10 ^ 12) }), run.updPart 5 (fun p =>
    { p with probEnd := some (2 * 10 ^ 12) }), accepts_of rfl (by decide +kernel), by decide +kernel⟩⟩

theorem test_FirmwareInstalledAndConfirmed_met_2 :
    (∃ (sess : SessRef) (v : Byte) (s u : State), s.accepts sess K.FW_REJECT 1 v.toNat u ∧ (List.range 9).find? u.onProbation = none)
    ∧ (∃ (sess : SessRef) (v : Byte) (s u : State), s.accepts sess K.FW_DISCARD 1 v.toNat u ∧ u.installing = true)
    ∧ (∃ (sess : SessRef) (v : Byte) (s u : State), s.accepts sess K.FW_DISCARD 1 v.toNat u ∧ u.installing = false ∧ v.toNat = 0x80)
    ∧ (∃ (sess : SessRef) (a : Fin 8) (v : Byte) (s u : State), s.accepts sess (K.APPLET_REMOVE a) 1 v.toNat u)
    ∧ (∃ (k : Nat) (s : State), s.life.swapping = some k ∧ (k = 1 ∨ k = 2)) :=
  ⟨⟨sidSvc 1, 1, run, run, accepts_of rfl (by decide +kernel), by decide +kernel⟩, ⟨sidSvc 1, 0x80,
    { run with life := { run.life with swapping := some 6 } }, { run with life := { run.life with swapping := some 6 } }, accepts_of rfl
    (by decide +kernel), by decide +kernel⟩, ⟨sidSvc 1, 0x80, run, run, accepts_of rfl (by decide +kernel), by decide +kernel,
    by decide +kernel⟩, ⟨sidSvc 1, 0, 1, run, run, accepts_of rfl (by decide +kernel)⟩, ⟨1,
    { run with life := { run.life with swapping := some 1 } }, by decide +kernel, by decide +kernel⟩⟩

theorem test_LifeCycleTransitionsMade_met_1 :
    (∃ (sess : SessRef) (s u : State), s.accepts sess K.LC_ADVANCE 1 1 u ∧ u.lcState = 0 ∧ u.role sess = 3 ∧ u.life.certHeld = true ∧
      u.lcBlocked = 0)
    ∧ (∃ (sess : SessRef) (s u : State), s.accepts sess K.LC_ADVANCE 1 2 u ∧ u.lcState = 1 ∧ u.lcBlocked = 0)
    ∧ (∃ (sess : SessRef) (s u : State), s.accepts sess K.LC_ADVANCE 1 2 u ∧ u.lcState ≠ 1)
    ∧ (∃ (sess : SessRef) (d : List Byte) (ok : Bool) (s u w : State), s.accepts sess K.LC_TOKEN d.length (leNat d) u ∧ (u.lcState = 1 ∨
      u.lcState = 2) ∧ u.lcBlocked = 0 ∧ ok = (u.tokenOk d [0x4B, 0x48, 0x52, 0x54] u.life.lcChallenge 0 && leAt d 4 1 == 3 && leAt d 5
      1 ≠ 0) ∧ w = ({ u with life := { u.life with lcChallenge := u.entropyVal } } : State).freeNext)
    ∧ (∃ (sess : SessRef) (v : Word64) (s u : State), s.accepts sess K.LC_SCRAP 8 v.toNat u ∧ (u.lcState = 1 ∨ u.lcState = 2) ∧
      u.lcBlocked = 0 ∧ v.toNat = u.life.fuses.serial)
    ∧ (∃ (sess : SessRef) (v : Word64) (s u : State), s.accepts sess K.LC_SCRAP 8 v.toNat u ∧ (u.lcState = 1 ∨ u.lcState = 2) ∧
      u.lcBlocked = 0 ∧ v.toNat ≠ u.life.fuses.serial)
    ∧ (∃ (sess : SessRef) (v : Byte) (s u : State), s.accepts sess K.VROOT_REVOKE0 1 v.toNat u ∧ u.life.fuses.vroot1.isSome = true)
    ∧ (∃ (sess : SessRef) (v : Byte) (s u : State), s.accepts sess K.JTAG_OPEN 1 v.toNat u ∧ u.lcState = 2) :=
  ⟨⟨sidSvc 1, { run with life := { run.life with fuses := { run.life.fuses with lc := 0x00 } } },
    { run with life := { run.life with fuses := { run.life.fuses with lc := 0x00 } } }, accepts_of rfl (by decide +kernel),
    by decide +kernel, by decide +kernel, by decide +kernel, by decide +kernel⟩, ⟨sidSvc 1, run, run, accepts_of rfl
    (by decide +kernel), by decide +kernel, by decide +kernel⟩, ⟨sidSvc 1,
    { run with life := { run.life with fuses := { run.life.fuses with lc := 0x00 } } },
    { run with life := { run.life with fuses := { run.life.fuses with lc := 0x00 } } }, accepts_of rfl (by decide +kernel),
    by decide +kernel⟩, ⟨sidSvc 1, List.replicate 3088 0, _, run, run, _, accepts_of rfl (by decide +kernel), by decide +kernel,
    by decide +kernel, rfl, rfl⟩, ⟨sidSvc 1, 1, run, run, accepts_of rfl (by decide +kernel), by decide +kernel, by decide +kernel,
    by decide +kernel⟩, ⟨sidSvc 1, 0, run, run, accepts_of rfl (by decide +kernel), by decide +kernel, by decide +kernel,
    by decide +kernel⟩, ⟨sidSvc 1, 1, { run with life := { run.life with fuses := { run.life.fuses with vroot1 := some 0 } } },
    { run with life := { run.life with fuses := { run.life.fuses with vroot1 := some 0 } } }, accepts_of rfl (by decide +kernel),
    by decide +kernel⟩, ⟨sidSvc 1, 1, { run with life := { run.life with fuses := { run.life.fuses with lc := 0x0F } } },
    { run with life := { run.life with fuses := { run.life.fuses with lc := 0x0F } } }, accepts_of rfl (by decide +kernel),
    by decide +kernel⟩⟩

theorem test_LifeCycleTransitionsMade_met_2 :
    (∃ (sess : SessRef) (v : BitVec 256) (s u : State), s.accepts sess K.CUST_KEY_HASH 32 v.toNat u)
    ∧ (∃ (sess : SessRef) (d : List Byte) (ok : Bool) (s u w : State), s.accepts sess K.AUTH_RESPONSE d.length (leNat d) u ∧ ok =
      (u.tokenOk d [0x4B, 0x48, 0x41, 0x55] (u.session sess).challenge sess && ((leAt d 4 1 == 2 && leAt d 5 1 == 0) || (leAt d 4 1 == 3
      && (leAt d 5 1 == 1 || leAt d 5 1 == 2) && sidPath sess == 3)) && u.gainedOk (leAt d 4 1)) ∧ (w = (u.updSess sess (fun x =>
      { x with challenge := u.entropyVal })).freeNext))
    ∧ (∃ (i : TapInstr) (s u : State), s.tapOpen i = true ∧ s.st.porHeld = false ∧ u = { s with life := { s.life with tap := i } } ∧ i =
      .bypass)
    ∧ (∃ (i : TapInstr) (s u : State), s.tapOpen i = true ∧ s.st.porHeld = false ∧ u = { s with life := { s.life with tap := i } } ∧ i =
      .idcode)
    ∧ (∃ (i : TapInstr) (s u : State), s.tapOpen i = true ∧ s.st.porHeld = false ∧ u = { s with life := { s.life with tap := i } } ∧ i =
      .sample)
    ∧ (∃ (i : TapInstr) (s u : State), s.tapOpen i = true ∧ s.st.porHeld = false ∧ u = { s with life := { s.life with tap := i } } ∧ i =
      .extest)
    ∧ (∃ (i : TapInstr) (s : State), s.tapOpen i = false) :=
  ⟨⟨sidSvc 1, 0, run, run, accepts_of rfl (by decide +kernel)⟩, ⟨sidSvc 1, List.replicate 3088 0, _, run, run, _, accepts_of rfl
    (by decide +kernel), rfl, rfl⟩, ⟨.bypass, run, _, by decide +kernel, by decide +kernel, rfl, by decide +kernel⟩, ⟨.idcode, run, _,
    by decide +kernel, by decide +kernel, rfl, by decide +kernel⟩, ⟨.sample,
    { run with life := { run.life with fuses := { run.life.fuses with lc := 0x00 } } }, _, by decide +kernel, by decide +kernel, rfl,
    by decide +kernel⟩, ⟨.extest, { run with life := { run.life with fuses := { run.life.fuses with lc := 0x00 } } }, _,
    by decide +kernel, by decide +kernel, rfl, by decide +kernel⟩, ⟨.internalDebug, run, by decide +kernel⟩⟩

theorem test_DeviceKeyAndAttestation_met :
    (∃ (sess : SessRef) (v : Byte) (s u : State), s.accepts sess K.DEVKEY_GEN 1 v.toNat u ∧ u.life.fuses.devPub = none)
    ∧ (∃ (sess : SessRef) (v : Byte) (s u : State), s.accepts sess K.DEVKEY_GEN 1 v.toNat u ∧ u.life.fuses.devPub.isSome = true)
    ∧ (∃ (sess : SessRef) (d : List Byte) (ok : Bool) (s u : State), s.accepts sess K.DEVKEY_CERT d.length (leNat d) u ∧ u.role sess = 3
      ∧ ok = u.certOk d)
    ∧ (∃ (sess : SessRef) (nonce : BitVec 256) (s u : State), s.accepts sess K.ATTEST_NONCE 32 nonce.toNat u ∧ u.attestOpen = true ∧
      u.sigReady = true ∧ u.life.lastReport = none ∧ u.life.signing = none)
    ∧ (∃ (sess : SessRef) (nonce : BitVec 256) (at_ : Nat) (s u : State), s.accepts sess K.ATTEST_NONCE 32 nonce.toNat u ∧ u.attestOpen
      = true ∧ u.life.lastReport = some at_ ∧ u.now < at_ + 20000 * 1000000000)
    ∧ (∃ (sess : SessRef) (s u : State), s.life.signing = some sess ∧ s.sigReady = true ∧ s.attestOpen = true ∧ s.life.sigB <
      s.life.sigLimit ∧ (u = ({ s with life := { s.life with sigB := s.life.sigB + 1, signing := none } } : State).updSess sess (fun x
      =>
      { x with attState := 2, attReport := s.reportBody (s.session sess).attNonce (32768 * s.life.sigT + s.life.sigB) + 2 ^ 4096 * (Config.hssSign (32768 * s.life.sigT + s.life.sigB) (s.reportBody (s.session sess).attNonce (32768 * s.life.sigT + s.life.sigB))).toNat }))
      ∧ u.sigExhausted = false)
    ∧ (∃ (sess : SessRef) (s : State), s.life.signing = some sess ∧ (s.sigReady && s.attestOpen) = false) :=
  ⟨⟨sidSvc 1, 1, { run with life := { run.life with fuses := { run.life.fuses with lc := 0x00, devPub := none } } },
    { run with life := { run.life with fuses := { run.life.fuses with lc := 0x00, devPub := none } } }, accepts_of rfl
    (by decide +kernel), by decide +kernel⟩, ⟨sidSvc 1, 1,
    { run with life := { run.life with fuses := { run.life.fuses with lc := 0x00 } } },
    { run with life := { run.life with fuses := { run.life.fuses with lc := 0x00 } } }, accepts_of rfl (by decide +kernel),
    by decide +kernel⟩, ⟨sidSvc 1, List.replicate 3092 0, _,
    { run with life := { run.life with fuses := { run.life.fuses with lc := 0x00 } } },
    { run with life := { run.life with fuses := { run.life.fuses with lc := 0x00 } } }, accepts_of rfl (by decide +kernel),
    by decide +kernel, rfl⟩, ⟨sidSvc 1, 0, run, run, accepts_of rfl (by decide +kernel), by decide +kernel, by decide +kernel,
    by decide +kernel, by decide +kernel⟩, ⟨sidSvc 1, 0, 10 ^ 12, { run with life := { run.life with lastReport := some (10 ^ 12) } },
    { run with life := { run.life with lastReport := some (10 ^ 12) } }, accepts_of rfl (by decide +kernel), by decide +kernel,
    by decide +kernel, by decide +kernel⟩, ⟨sidSvc 1, { run with life := { run.life with signing := some (sidSvc 1) } }, _,
    by decide +kernel, by decide +kernel, by decide +kernel, by decide +kernel, rfl, by decide +kernel⟩, ⟨sidSvc 1,
    { run with life := { run.life with signing := some (sidSvc 1), sigOff := true } }, by decide +kernel, by decide +kernel⟩⟩

theorem test_ResetsTakenAndReleased_met_1 :
    (∃ (ga : BitVec 6) (s u : State), s.st.porHeld = true ∧ u =
      { s with st := { s.st with porHeld := false }, mg := { s.mg with gaPins := ga.toNat }, tm := { s.tm with ticks := 0 } })
    ∧ (∃ (s : State), s.st.hkHeld = true)
    ∧ (∃ (s : State), s.st.hubIn = true ∧ s.mayReleaseHub = true)
    ∧ (∃ (t : TileIx) (s : State), s.hubHeld = false ∧ KMap.get false s.st.tileHeld t = true ∧ s.o (K.ISOLATE t) ≠ 1)
    ∧ (∃ (p : PortIx) (s : State), s.tileHeld (tileOf p) = false ∧ s.o (K.LINK_ENABLE p) ≠ 0)
    ∧ (∃ (sess : SessRef) (v : Byte) (s u : State), s.accepts sess K.RESET_HK 1 v.toNat u)
    ∧ (∃ (sess : SessRef) (v : Byte) (s u : State), s.accepts sess K.RESET_HUB 1 v.toNat u ∧ u.o K.WARN_STATE ≠ 2)
    ∧ (∃ (sess : SessRef) (v : Byte) (s u : State), s.accepts sess K.RESET_HUB 1 v.toNat u ∧ u.o K.WARN_STATE = 2) :=
  ⟨⟨0, State.reset, _, by decide +kernel, rfl⟩, ⟨{ run with st := { run.st with hkHeld := true } }, by decide +kernel⟩,
    ⟨({ run with st := { run.st with hubIn := true } } : State).setO K.RAIL_SEQ_STATE 2, by decide +kernel, by decide +kernel⟩, ⟨0,
    { run with st := { run.st with tileHeld := [(0, true)] } }, by decide +kernel, by decide +kernel, by decide +kernel⟩, ⟨0, run.setO
    (K.LINK_ENABLE 0) 1, by decide +kernel, by decide +kernel⟩, ⟨sidSvc 1, 1, run, run, accepts_of rfl (by decide +kernel)⟩, ⟨sidSvc 1,
    1, run, run, accepts_of rfl (by decide +kernel), by decide +kernel⟩, ⟨sidSvc 1, 1, run.setO K.WARN_STATE 2, run.setO K.WARN_STATE 2,
    accepts_of rfl (by decide +kernel), by decide +kernel⟩⟩

theorem test_ResetsTakenAndReleased_met_2 :
    (∃ (ga : BitVec 6) (s u : State), s.st.porHeld = false ∧ u = ({ s with mg := { s.mg with gaPins := ga.toNat } } : State).hkReset 2)
    ∧ (∃ (s : State), s.islandUp = true)
    ∧ (∃ (up : Bool) (s : State), s.islandUp = true ∧ s.mg.svcLinkUp ≠ up)
    ∧ (∃ (b : Bool), b = true)
    ∧ (∃ (s : State), s.st.porHeld = false)
    ∧ (∃ (s : State), s.st.porHeld = true)
    ∧ (∃ (s : State), s.st.hkHeld = true) :=
  ⟨⟨0, run, _, by decide +kernel, rfl⟩, ⟨run, by decide +kernel⟩, ⟨false, run, by decide +kernel, by decide +kernel⟩, ⟨_, rfl⟩, ⟨run,
    by decide +kernel⟩, ⟨State.reset, by decide +kernel⟩, ⟨{ run with st := { run.st with hkHeld := true } }, by decide +kernel⟩⟩

theorem test_ChassisTimeLoadedAndSynchronised_met_1 :
    (∃ (s u : State), u = { s with st := { s.st with refPresent := false, holdover := true } })
    ∧ (∃ (s u : State), u = { s with st := { s.st with refPresent := true, holdover := false }, tm := { s.tm with refSeen := true } })
    ∧ (∃ (sess : SessRef) (v : Word64) (s u : State), s.accepts sess K.CT_LOAD 8 v.toNat u)
    ∧ (∃ (v : Nat) (s : State), s.tm.load = some v ∧ s.hubHeld = false ∧ s.cycle = 0 ∧ s.loadHeld = false ∧ s.loadAligned = true ∧
      s.tm.loadAt < s.tm.tickStart)
    ∧ (∃ (v : Nat) (s : State), s.tm.load = some v ∧ (s.loadHeld = true ∨ s.loadAligned = false))
    ∧ (∃ (at_ : Nat) (s u : State), s.hubHeld = false ∧ s.cB K.SYNC_ENABLE = true ∧ s.tm.synced = false ∧ u = s.advance at_)
    ∧ (∃ (at_ : Nat) (s u w : State), s.hubHeld = false ∧ s.cB K.SYNC_ENABLE = true ∧ s.tm.synced = true ∧ u = s.advance at_ ∧ w =
      { u with tm := { u.tm with lastEdge := at_ } } ∧ (w.phaseError at_).natAbs ≤ 50000)
    ∧ (∃ (s : State), s.cB K.SYNC_ENABLE = false) :=
  ⟨⟨run, _, rfl⟩, ⟨run, _, rfl⟩, ⟨sidSvc 1, 0, run, run, accepts_of rfl (by decide +kernel)⟩, ⟨5,
    { withC run K.SYNC_ENABLE 0 with tm := { run.tm with load := some 5, tickStart := 10 ^ 12, loadAt := 5 } }, by decide +kernel,
    by decide +kernel, by decide +kernel, by decide +kernel, by decide +kernel, by decide +kernel⟩, ⟨5,
    { withC run K.SYNC_ENABLE 1 with tm := { run.tm with load := some 5 } }, by decide +kernel, by decide +kernel⟩, ⟨5, withC run
    K.SYNC_ENABLE 1, _, by decide +kernel, by decide +kernel, by decide +kernel, rfl⟩, ⟨10 ^ 12,
    { withC run K.SYNC_ENABLE 1 with tm := { run.tm with synced := true, lastEdge := 5, tickStart := 10 ^ 12 } }, _, _,
    by decide +kernel, by decide +kernel, by decide +kernel, rfl, rfl, by decide +kernel⟩, ⟨withC run K.SYNC_ENABLE 0,
    by decide +kernel⟩⟩

theorem test_ChassisTimeLoadedAndSynchronised_met_2 :
    (∃ (s u : State), s.hubHeld = false ∧ s.cB K.SYNC_ENABLE = true ∧ s.tm.synced = true ∧ u = s.advance (s.tm.lastEdge + (s.c
      K.SYNC_PERIOD + 1) * Config.us))
    ∧ (∃ (d : Nat), d / Config.fclk < 1600)
    ∧ (∃ (d : Nat), 1600 ≤ d / Config.fclk) :=
  ⟨⟨{ withC run K.SYNC_ENABLE 1 with tm := { run.tm with synced := true } }, _, by decide +kernel, by decide +kernel, by decide +kernel,
    rfl⟩, ⟨0, by decide +kernel⟩, ⟨1000000, by decide +kernel⟩⟩

theorem test_LinesStampedAndPulsesScheduled_met_1 :
    (∃ (n : LineIx) (t w : Nat) (s u : State), s.hubHeld = false ∧ u = s.advance t ∧ w < u.c (K.IN_FILTER n) * 1000)
    ∧ (∃ (n : LineIx) (t w h : Nat) (s u : State), s.hubHeld = false ∧ u = s.advance t ∧ u.c (K.IN_FILTER n) * 1000 ≤ w ∧ (u.line
      n).holdEnd = some h ∧ t < h)
    ∧ (∃ (n : LineIx) (l : Bool) (t w : Nat) (s u : State), s.hubHeld = false ∧ u = s.advance t ∧ u.c (K.IN_FILTER n) * 1000 ≤ w ∧
      (u.line n).holdEnd = none ∧ (u.line n).level = !l)
    ∧ (∃ (s : State), s.hubHeld = true)
    ∧ (∃ (n : LineIx) (h : Nat) (s u : State), (s.line n).holdEnd = some h ∧ s.hubHeld = false ∧ (u = (s.advance h).updLine n (fun x =>
      { x with holdEnd := none })))
    ∧ (∃ (s u : State), s.tm.win ≠ [] ∧ s.hubHeld = false ∧ u = s.advance (s.tm.winAt + 6 * Config.fclk) ∧ u.tm.waiting.length < 64)
    ∧ (∃ (s : State), s.tm.timeDue ≠ 0 ∧ s.hubHeld = false ∧ (s.cB K.SYNC_ENABLE = false ∨ s.onSyncEdge = true) ∧ s.tm.waiting.length <
      64)
    ∧ (∃ (s : State), s.tm.timeDue ≠ 0 ∧ s.hubHeld = false ∧ (s.cB K.SYNC_ENABLE = false ∨ s.onSyncEdge = true) ∧ 64 ≤
      s.tm.waiting.length) :=
  ⟨⟨0, 5, 0, withC run (K.IN_FILTER 0) 1, _, by decide +kernel, rfl, by decide +kernel⟩, ⟨0, 5, 10 ^ 9, 9, run.updLine 0 (fun x =>
    { x with holdEnd := some 9 }), _, by decide +kernel, rfl, by decide +kernel, by decide +kernel, by decide +kernel⟩, ⟨39, true, 0, 10
    ^ 9, run, _, by decide +kernel, rfl, by decide +kernel, by decide +kernel, by decide +kernel⟩, ⟨State.reset, by decide +kernel⟩, ⟨0,
    5, run.updLine 0 (fun x => { x with holdEnd := some 5 }), _, by decide +kernel, by decide +kernel, rfl⟩,
    ⟨{ run with tm := { run.tm with win := [default] } }, _, by decide +kernel, by decide +kernel, rfl, by decide +kernel⟩,
    ⟨{ withC run K.SYNC_ENABLE 0 with tm := { run.tm with timeDue := 1 } }, by decide +kernel, by decide +kernel, by decide +kernel,
    by decide +kernel⟩, ⟨{ withC run K.SYNC_ENABLE 0 with tm := { run.tm with timeDue := 1, waiting := List.replicate 64 default } },
    by decide +kernel, by decide +kernel, by decide +kernel, by decide +kernel⟩⟩

theorem test_LinesStampedAndPulsesScheduled_met_2 :
    (∃ (sess : SessRef) (n : LineIx) (v : Word64) (s u : State), s.accepts sess (K.OUT_AT n) 8 v.toNat u ∧ u.c (K.LINE_DIR n) ≠ 0 ∧
      (u.line n).pulses.length < 8 ∧ u.ct + 2000 ≤ v.toNat ∧ (∀ r, lastRelease (u.line n).pulses = some r → r + 8 ≤ v.toNat))
    ∧ (∃ (sess : SessRef) (n : LineIx) (v : Word64) (s u : State), s.accepts sess (K.OUT_AT n) 8 v.toNat u ∧ u.c (K.LINE_DIR n) ≠ 0 ∧
      (u.line n).pulses.length < 8 ∧ v.toNat < u.ct + 2000)
    ∧ (∃ (sess : SessRef) (n : LineIx) (v : Word64) (s u : State), s.accepts sess (K.OUT_AT n) 8 v.toNat u ∧ u.c (K.LINE_DIR n) = 0)
    ∧ (∃ (sess : SessRef) (n : LineIx) (v : Byte) (s u : State), s.accepts sess (K.OUT_CANCEL n) 1 v.toNat u)
    ∧ (∃ (n : LineIx) (p : Pulse) (ps : List Pulse) (s u : State), (s.line n).pulses = p :: ps ∧ p.begun = false ∧ s.hubHeld = false ∧ u
      = (s.advance (s.psOf p.at_)).setPulses n ({ p with begun := true } :: ps))
    ∧ (∃ (n : LineIx) (p : Pulse) (ps : List Pulse) (s u : State), (s.line n).pulses = p :: ps ∧ p.begun = true ∧ s.hubHeld = false ∧ u
      = (s.advance (s.psOf (p.at_ + p.width))).setPulses n ps ∧ n.val < 16)
    ∧ (∃ (n : LineIx) (p : Pulse) (s u : State), (s.line n).pulses = [p] ∧ p.begun = true ∧ s.hubHeld = false ∧ u = (s.advance (s.psOf
      (p.at_ + p.width))).setPulses n [] ∧ 16 ≤ n.val ∧ u.c (K.LINE_DIR n) ≠ 0) :=
  ⟨⟨sidSvc 1, 0, 10 ^ 12, withC run (K.LINE_DIR 0) 1, withC run (K.LINE_DIR 0) 1, accepts_of rfl (by decide +kernel), by decide +kernel,
    by decide +kernel, by decide +kernel, by decide +kernel⟩, ⟨sidSvc 1, 0, 0, withC run (K.LINE_DIR 0) 1, withC run (K.LINE_DIR 0) 1,
    accepts_of rfl (by decide +kernel), by decide +kernel, by decide +kernel, by decide +kernel⟩, ⟨sidSvc 1, 39, 0, run, run, accepts_of
    rfl (by decide +kernel), by decide +kernel⟩, ⟨sidSvc 1, 0, 1, run, run, accepts_of rfl (by decide +kernel)⟩, ⟨0,
    { at_ := 5, width := 5 }, [], run.updLine 0 (fun x => { x with pulses := [{ at_ := 5, width := 5 }] }), _, by decide +kernel,
    by decide +kernel, by decide +kernel, rfl⟩, ⟨15, { at_ := 5, width := 5, begun := true }, [], run.updLine 15 (fun x =>
    { x with pulses := [{ at_ := 5, width := 5, begun := true }] }), _, by decide +kernel, by decide +kernel, by decide +kernel, rfl,
    by decide +kernel⟩, ⟨16, { at_ := 5, width := 5, begun := true }, (withC run (K.LINE_DIR 16) 1).updLine 16 (fun x =>
    { x with pulses := [{ at_ := 5, width := 5, begun := true }] }), _, by decide +kernel, by decide +kernel, by decide +kernel, rfl,
    by decide +kernel, by decide +kernel⟩⟩

theorem test_PlankMovesCellsAndModes_met_1 :
    (∃ (i : PortIx) (q : Nat) (s w u : State), s.tileHeld (tileOf i) = false ∧ w = s.pushCrown i (KMap.get [] s.pl.toCrown i.val).length
      ∧ firstFrom 96 (KMap.get 0 w.pl.fwdPtr (i.val * 4)) (w.forwardableSys i) = some q ∧ u = w.forwardVoq i q .sys)
    ∧ (∃ (i : PortIx) (n : Nat) (s w u : State), s.tileHeld (tileOf i) = false ∧ w = s.pushCrown i (KMap.get [] s.pl.toCrown
      i.val).length ∧ w.forwardableSys i = [] ∧ firstFrom 288 (KMap.get 0 w.pl.fwdPtr (i.val * 4 + 1)) (w.forwardable i) = some n ∧ u =
      w.forwardVoq i (n / 3) (clsOf (n % 3 + 1)))
    ∧ (∃ (s : State), s.o K.PLANK_MODE = 1 ∧ s.hubHeld = false ∧ (s.injFire 528 1).1 = 0 ∧ (s.injFire 528 1).2.matching.1.any (conflicts
      (s.injFire 528 1).2.matching.1) = false)
    ∧ (∃ (s u : State) (l : List (PortIx × PortIx × Cls)) (m : List Xfer), s.o K.PLANK_MODE = 1 ∧ s.hubHeld = false ∧ (s.injFire 528
      1).1 = 0 ∧ (m = (s.injFire 528 1).2.matching.1 ++ l.map (fun e => { i := e.1.val, o := e.2.1.val, cls := e.2.2 })) ∧ m.any
      (conflicts m) = true ∧ (u = (m.filter (fun x => !conflicts m x)).foldl State.crossPlank (s.injFire 528 1).2.matching.2))
    ∧ (∃ (s : State), s.o K.PLANK_MODE = 0 ∧ s.hubHeld = false)
    ∧ (∃ (s u : State), s.o K.PLANK_MODE ≠ 1 ∧ s.hubHeld = false ∧ u = (List.range 96).foldl State.stage2 s)
    ∧ (∃ (s : State), s.hubHeld = false ∧ s.o K.PLANK_MODE = 0 ∧ s.seamsOk = true ∧ s.o K.MATCH_SELFTEST = 2 ∧ s.cB K.FORCE_FULLING =
      false)
    ∧ (∃ (s : State), s.hubHeld = false ∧ s.o K.PLANK_MODE = 2 ∧ s.pl.full = [] ∧ s.o K.START_PHASE ≠ 3) :=
  ⟨⟨0, 1,
    { run with pl := { voq := [(1 * 4, [{ cls := .sys, colourCode := 0, sop := true, eop := true, mcast := false, source := 0, egress := 1, bytes := 64, seq := 0, pktCells := 1, reseq := false, mcidx := 0, gen := 1, gepoch := 0, rsv := 0, hcrc := 0, data := 0, committed := true, req := 0, credit := 0, lim := .sys }])] } },
    _, _, by decide +kernel, rfl, by decide +kernel, rfl⟩, ⟨0, 3,
    { run with pl := { voq := [(1 * 4 + 1, [{ cls := .coh, colourCode := 0, sop := true, eop := true, mcast := false, source := 0, egress := 1, bytes := 64, seq := 0, pktCells := 1, reseq := false, mcidx := 0, gen := 1, gepoch := 0, rsv := 0, hcrc := 0, data := 0, committed := true, req := 0, credit := 0, lim := .coh }])] } },
    _, _, by decide +kernel, rfl, by decide +kernel, by decide +kernel, rfl⟩, ⟨run.setO K.PLANK_MODE 1, by decide +kernel,
    by decide +kernel, by decide +kernel, by decide +kernel⟩, ⟨run.setO K.PLANK_MODE 1, _, [(0, 1, .coh), (0, 2, .coh)], _,
    by decide +kernel, by decide +kernel, by decide +kernel, rfl, by decide +kernel, rfl⟩, ⟨run.setO K.PLANK_MODE 0, by decide +kernel,
    by decide +kernel⟩, ⟨run, _, by decide +kernel, by decide +kernel, rfl⟩, ⟨((((run.setO K.MATCH_SELFTEST 2).setO (K.HEALTHY 0)
    1).setO (K.HEALTHY 1) 1).setO (K.HEALTHY 2) 1).setO (K.HEALTHY 3) 1, by decide +kernel, by decide +kernel, by decide +kernel,
    by decide +kernel, by decide +kernel⟩, ⟨run.setO K.PLANK_MODE 2, by decide +kernel, by decide +kernel, by decide +kernel,
    by decide +kernel⟩⟩

theorem test_PlankMovesCellsAndModes_met_2 :
    (∃ (s : State), s.pl.full ≠ [])
    ∧ (∃ (s : State), s.hubHeld = false ∧ s.o K.MATCH_SELFTEST = 1)
    ∧ (∃ (s : State), s.hubHeld = false ∧ s.o K.MATCH_SELFTEST = 1)
    ∧ (∃ (p : PortIx) (o : Nat) (m : MergeCell) (l : List MergeCell) (s : State), s.hubHeld = false ∧ s.outputWithRoom p .sys = some o ∧
      KMap.get [] s.pl.merge (p.val * 4 + clsNum .sys) = m :: l)
    ∧ (∃ (p : PortIx) (cls : Cls) (o f : Nat) (m : MergeCell) (s : State), s.hubHeld = false ∧ cls ≠ .sys ∧ s.outputWithRoom p cls =
      some o ∧ (s.nextFlow p cls (fun f => !plankFlow f) = some f) ∧ (KMap.get [] s.pl.merge (p.val * 4 + clsNum cls)).find? (·.flow ==
      f) = some m)
    ∧ (∃ (p : PortIx) (e : Nat × BSlot) (s u : State), s.hubHeld = false ∧ s.linkUp p = true ∧ u = s.freshTokens ∧ u.nextBcast p = some
      e)
    ∧ (∃ (p : PortIx) (o : Nat) (s u : State), s.hubHeld = false ∧ s.linkUp p = true ∧ u = s.freshTokens ∧ u.nextBcast p = none ∧
      u.outputToPick p .sys = some o)
    ∧ (∃ (p : PortIx) (o : Nat) (cls : Cls) (s u : State), s.hubHeld = false ∧ s.linkUp p = true ∧ u = s.freshTokens ∧ u.nextBcast p =
      none ∧ u.outputToPick p .sys = none ∧ u.pickClass p = some cls ∧ u.outputToPick p cls = some o) :=
  ⟨⟨{ run with pl := { full := [(0, some { cls := .coh, colourCode := 0, sop := true, eop := true, mcast := false, source := 0, egress := 1, bytes := 64, seq := 0, pktCells := 1, reseq := false, mcidx := 0, gen := 1, gepoch := 0, rsv := 0, hcrc := 0, data := 0, committed := true, req := 0, credit := 0, lim := .coh })] } },
    by decide +kernel⟩, ⟨run.setO K.MATCH_SELFTEST 1, by decide +kernel, by decide +kernel⟩, ⟨run.setO K.MATCH_SELFTEST 1,
    by decide +kernel, by decide +kernel⟩, ⟨1, 1,
    { flow := 3, cell := { cls := .sys, colourCode := 0, sop := true, eop := true, mcast := false, source := 0, egress := 1, bytes := 64, seq := 0, pktCells := 1, reseq := false, mcidx := 0, gen := 1, gepoch := 0, rsv := 0, hcrc := 0, data := 0, committed := true, req := 0, credit := 0, lim := .sys } },
    [],
    { run with pl := { merge := [(4, [{ flow := 3, cell := { cls := .sys, colourCode := 0, sop := true, eop := true, mcast := false, source := 0, egress := 1, bytes := 64, seq := 0, pktCells := 1, reseq := false, mcidx := 0, gen := 1, gepoch := 0, rsv := 0, hcrc := 0, data := 0, committed := true, req := 0, credit := 0, lim := .sys } }])] } },
    by decide +kernel, by decide +kernel, by decide +kernel⟩, ⟨1, .coh, 1, 0x78,
    { flow := 0x78, cell := { cls := .coh, colourCode := 0, sop := true, eop := true, mcast := false, source := 0, egress := 1, bytes := 64, seq := 0, pktCells := 1, reseq := false, mcidx := 0, gen := 1, gepoch := 0, rsv := 0, hcrc := 0, data := 0, committed := true, req := 0, credit := 0, lim := .coh } },
    { run with pl := { merge := [(5, [{ flow := 0x78, cell := { cls := .coh, colourCode := 0, sop := true, eop := true, mcast := false, source := 0, egress := 1, bytes := 64, seq := 0, pktCells := 1, reseq := false, mcidx := 0, gen := 1, gepoch := 0, rsv := 0, hcrc := 0, data := 0, committed := true, req := 0, credit := 0, lim := .coh } }])], sched := [(5, { flows := [(0x78, { backlog := 1 })] })] } },
    by decide +kernel, by decide +kernel, by decide +kernel, by decide +kernel, by decide +kernel⟩, ⟨1, (0,
    { msg := default, ports := [1], order := 0 }),
    { (run.setO (K.LINK_UP 1) 1) with pl := { bslot := [(0, some { msg := default, ports := [1], order := 0 })] } }, _,
    by decide +kernel, by decide +kernel, rfl, by decide +kernel⟩, ⟨1, 1,
    { (run.setO (K.LINK_UP 1) 1) with pl := { egress := [(4, [{ cls := .sys, colourCode := 0, sop := true, eop := true, mcast := false, source := 0, egress := 1, bytes := 64, seq := 0, pktCells := 1, reseq := false, mcidx := 0, gen := 1, gepoch := 0, rsv := 0, hcrc := 0, data := 0, committed := true, req := 0, credit := 0, lim := .sys }])] } },
    _, by decide +kernel, by decide +kernel, rfl, by decide +kernel, by decide +kernel⟩, ⟨1, 1, .coh,
    { (run.setO (K.LINK_UP 1) 1) with pl := { egress := [(5, [{ cls := .coh, colourCode := 0, sop := true, eop := true, mcast := false, source := 0, egress := 1, bytes := 64, seq := 0, pktCells := 1, reseq := false, mcidx := 0, gen := 1, gepoch := 0, rsv := 0, hcrc := 0, data := 0, committed := true, req := 0, credit := 0, lim := .coh }])] } },
    _, by decide +kernel, by decide +kernel, rfl, by decide +kernel, by decide +kernel, by decide +kernel, by decide +kernel⟩⟩

theorem test_PlankMovesCellsAndModes_met_3 :
    ∃ (s : State) (i p : PortIx) (cls : Cls) (b : Bool) (l : List (PortIx × PortIx × Cls)) (c : _), s.hubHeld = true ∧ c ∈
      [Instr.tileForwardToLanding i, .cardingMatchSlot l, .fullingStage1, .fullingStage2, .startDrainToCarding, .cardingStart,
      .matcherSelftestDone b, .agentMergeAdmit p cls, .egressClassPick p] :=
  ⟨State.reset, 0, 0, .coh, true, default, .fullingStage1, by decide +kernel, by simp⟩

theorem test_GuardsPublishedSyncedAndTagged_met_1 :
    (∃ (sess : SessRef) (v : Byte) (s u : State), s.accepts sess K.GUARD_PUBLISH 1 v.toNat u ∧ u.gd.sliceAt = none ∧ u.epochFree = true)
    ∧ (∃ (sess : SessRef) (v : Byte) (s u : State), s.accepts sess K.GUARD_PUBLISH 1 v.toNat u ∧ u.gd.sliceAt.isSome = true)
    ∧ (∃ (sess : SessRef) (v : Byte) (s u : State), s.accepts sess K.GUARD_PUBLISH 1 v.toNat u ∧ u.gd.sliceAt = none ∧ u.epochFree =
      false)
    ∧ (∃ (sess : SessRef) (v : Byte) (s u : State), s.accepts sess K.GUARD_SYNC 1 v.toNat u)
    ∧ (∃ (s : State), s.o K.SYNC_STATE = 1 ∧ s.syncHolds = true)
    ∧ (∃ (s : State), s.syncHolds = false)
    ∧ (∃ (t : Nat) (s u : State), s.gd.syncAt = some t ∧ s.o K.SYNC_STATE = 1 ∧ u = s.advance (t + s.c K.SYNC_TIMEOUT * Config.us))
    ∧ (∃ (sess : SessRef) (c : BitVec 192) (s u : State), s.accepts sess K.SLICE_RGN_CMD 24 c.toNat u ∧ bits c.toNat 15 11 = 0 ∧ bits
      c.toNat 63 20 = 0 ∧ (u.slice (bits c.toNat 10 0)).state ≠ .free ∧ u.gd.sliceAt = none ∧ regionOk false (c.toNat / 2 ^ 64) = true) :=
  ⟨⟨sidSvc 1, 1, run, run, accepts_of rfl (by decide +kernel), by decide +kernel, by decide +kernel⟩, ⟨sidSvc 1, 1,
    { run with gd := { sliceAt := some 0 } }, { run with gd := { sliceAt := some 0 } }, accepts_of rfl (by decide +kernel),
    by decide +kernel⟩, ⟨sidSvc 1, 1, { run with gd := { counts := [(1, 1)] } }, { run with gd := { counts := [(1, 1)] } }, accepts_of
    rfl (by decide +kernel), by decide +kernel, by decide +kernel⟩, ⟨sidSvc 1, 1, run, run, accepts_of rfl (by decide +kernel)⟩,
    ⟨run.setO K.SYNC_STATE 1, by decide +kernel, by decide +kernel⟩,
    ⟨{ (run.setO K.SYNC_EPOCH 2) with gd := { epoch := 2, counts := [(1, 1)] } }, by decide +kernel⟩, ⟨5,
    { (run.setO K.SYNC_STATE 1) with gd := { syncAt := some 5 } }, _, by decide +kernel, by decide +kernel, rfl⟩, ⟨sidSvc 1, 5,
    { run with mv := { slice := [(5, { state := .active })] } }, { run with mv := { slice := [(5, { state := .active })] } }, accepts_of
    rfl (by decide +kernel), by decide +kernel, by decide +kernel, by decide +kernel, by decide +kernel, by decide +kernel⟩⟩

theorem test_GuardsPublishedSyncedAndTagged_met_2 :
    (∃ (sess : SessRef) (c : BitVec 192) (s u : State), s.accepts sess K.SLICE_RGN_CMD 24 c.toNat u ∧ (bits c.toNat 15 11 ≠ 0 ∨ bits
      c.toNat 63 20 ≠ 0))
    ∧ (∃ (sess : SessRef) (c : BitVec 192) (s u : State), s.accepts sess K.SLICE_RGN_CMD 24 c.toNat u ∧ bits c.toNat 15 11 = 0 ∧ bits
      c.toNat 63 20 = 0 ∧ (u.slice (bits c.toNat 10 0)).state = .free)
    ∧ (∃ (sess : SessRef) (c : BitVec 128) (s u w : State), s.accepts sess K.TAG_CMD 16 c.toNat u ∧ u.tagRefusal c.toNat = 0 ∧ w =
      (u.setO K.TAG_RESULT 0).setO K.TAG_CMD_TAG (bits c.toNat 127 112))
    ∧ (∃ (sess : SessRef) (c : BitVec 128) (s u : State), s.accepts sess K.TAG_CMD 16 c.toNat u ∧ u.tagRefusal c.toNat ≠ 0)
    ∧ (∃ (v : Nat) (s u : State), s.gd.tagCmd = some v ∧ s.gd.tagAt = none ∧ (u = (s.tagPlaces v).foldl (fun (x : State) e =>
      (List.range (bits v 58 32)).foldl (fun (x : State) i => x.setTagLater e.1 (e.2 + i) (bits v 19 16)) x) s))
    ∧ (∃ (m : TargetIx) (s : State), s.o (K.TAG_STATE m) = 1)
    ∧ (∃ (c : CoreIx) (s : State), s.csrOpen (.core c) 4 = true ∧ (s.coreAt c).sup = true)
    ∧ (∃ (d c : CoreIx) (s : State), s.csrOpen (.core d) 4 = true ∧ (s.coreAt c).sup = false) :=
  ⟨⟨sidSvc 1, 0x800, run, run, accepts_of rfl (by decide +kernel), by decide +kernel⟩, ⟨sidSvc 1, 2047, run, run, accepts_of rfl
    (by decide +kernel), by decide +kernel, by decide +kernel, by decide +kernel⟩, ⟨sidSvc 1, 2 ^ 8 + 1 + 2 ^ 32, withC (run.setO
    (K.STATE 1) 2) (K.WIN_SIZE 1) 4096, withC (run.setO (K.STATE 1) 2) (K.WIN_SIZE 1) 4096, _, accepts_of rfl (by decide +kernel),
    by decide +kernel, rfl⟩, ⟨sidSvc 1, 2, run, run, accepts_of rfl (by decide +kernel), by decide +kernel⟩, ⟨1 + 2 ^ 32,
    { run with gd := { tagCmd := some (1 + 2 ^ 32) } }, _, by decide +kernel, by decide +kernel, rfl⟩, ⟨63, run.setO (K.TAG_STATE 63) 1,
    by decide +kernel⟩, ⟨0, run, by decide +kernel, by decide +kernel⟩, ⟨0, 1, run.updCore 1 (fun x => { x with sup := false }),
    by decide +kernel, by decide +kernel⟩⟩

theorem test_GuardsPublishedSyncedAndTagged_met_3 :
    ∃ (s : State) (c k hi r : Nat), r = s.coreWord c k 0 + s.coreWord c k 1 * 2 ^ 32 + s.coreWord c k 2 * 2 ^ 64 + hi % 2 ^ 32 * 2 ^ 96
      ∧ regionOk true r = true :=
  ⟨run, 0, 0, 0, 0, by decide +kernel, by decide +kernel⟩

theorem test_FencesAndRingsServed_met_1 :
    (∃ (id : Nat) (f : Fence) (s : State), s.fence? id = some f ∧ f.kind ≠ .barSys ∧ s.fenceDone f = true)
    ∧ (∃ (id : Nat) (f : Fence) (s : State), s.fence? id = some f ∧ f.waits ≠ [])
    ∧ (∃ (id d : Nat) (f : Fence) (s : State), s.fence? id = some f ∧ f.deadline = some d ∧ f.kind ≠ .barSys ∧ f.ended = false ∧ (f.kind
      = .trigger → f.ctTrig.isSome = true) ∧ s.fenceDone f = false)
    ∧ (∃ (id d : Nat) (f : Fence) (s : State), s.fence? id = some f ∧ f.deadline = some d ∧ f.kind ≠ .barSys ∧ (f.kind = .trigger →
      f.ctTrig.isSome = true) ∧ s.fenceDone f = true)
    ∧ (∃ (id d : Nat) (f : Fence) (s : State), s.fence? id = some f ∧ f.deadline = some d ∧ f.kind = .trigger ∧ f.ended = false ∧
      f.ctTrig = none)
    ∧ (∃ (p : PortIx) (off : BitVec 12) (w : BitVec 128) (n v : Nat) (s : State), s.linkUp (s.lead p) = true ∧ s.vcsOf (s.lead p) = some
      (n, v) ∧ s.cB (K.FENCE_ENABLE n) = true ∧ off.toNat % 16 = 0 ∧ bits w.toNat 63 0 % 16 = 0)
    ∧ (∃ (p : PortIx) (off : BitVec 12) (k n v : Nat) (s : State), s.linkUp (s.lead p) = true ∧ s.vcsOf (s.lead p) = some (n, v) ∧ s.cB
      (K.FENCE_ENABLE n) = true ∧ (k ≠ 16 ∨ off.toNat % 16 ≠ 0))
    ∧ (∃ (p : PortIx) (addr : Word64) (n v : Nat) (e : Nat × Slice) (s : State), s.hubHeld = false ∧ s.linkUp (s.lead p) = true ∧
      s.vcsOf (s.lead p) = some (n, v) ∧ ((s.ringsOf n).find? (fun e => inRange e.2.feedRange addr.toNat) = some e)) :=
  ⟨⟨1, { kind := .fabric, agent := 0 }, { run with ord := { fence := [(1, some { kind := .fabric, agent := 0 })] } }, by decide +kernel,
    by decide +kernel, by decide +kernel⟩, ⟨1, { kind := .fabric, agent := 0, waits := [7] },
    { run with ord := { fence := [(1, some { kind := .fabric, agent := 0, waits := [7] })] } }, by decide +kernel, by decide +kernel⟩,
    ⟨1, 5, { kind := .slice, agent := 0, waits := [7], deadline := some 5 },
    { run with ord := { fence := [(1, some { kind := .slice, agent := 0, waits := [7], deadline := some 5 })] } }, by decide +kernel,
    by decide +kernel, by decide +kernel, by decide +kernel, by decide +kernel, by decide +kernel⟩, ⟨1, 5,
    { kind := .fabric, agent := 0, deadline := some 5 },
    { run with ord := { fence := [(1, some { kind := .fabric, agent := 0, deadline := some 5 })] } }, by decide +kernel,
    by decide +kernel, by decide +kernel, by decide +kernel, by decide +kernel⟩, ⟨1, 5,
    { kind := .trigger, agent := 0, deadline := some 5 },
    { run with ord := { fence := [(1, some { kind := .trigger, agent := 0, deadline := some 5 })] } }, by decide +kernel,
    by decide +kernel, by decide +kernel, by decide +kernel, by decide +kernel⟩, ⟨0, 0xFF0, 0, 0, 63, withC (((run.setO (K.LINK_UP 0)
    1).setO (K.ROLE 0) 1).setO (K.AGENT 0) 0) (K.FENCE_ENABLE 0) 1, by decide +kernel, by decide +kernel, by decide +kernel,
    by decide +kernel, by decide +kernel⟩, ⟨0, 0xFF1, 16, 0, 63, withC (((run.setO (K.LINK_UP 0) 1).setO (K.ROLE 0) 1).setO (K.AGENT 0)
    0) (K.FENCE_ENABLE 0) 1, by decide +kernel, by decide +kernel, by decide +kernel, by decide +kernel⟩, ⟨0, 4096, 0, 63, (3,
    { state := .active, ring := some { feed := 4096 } }),
    { (((run.setO (K.LINK_UP 0) 1).setO (K.ROLE 0) 1).setO (K.AGENT 0) 0) with mv := { slice := [(3, { state := .active, ring := some { feed := 4096 } })] } },
    by decide +kernel, by decide +kernel, by decide +kernel, by decide +kernel⟩⟩

theorem test_FencesAndRingsServed_met_2 :
    (∃ (sl : SliceIx) (r : Ring) (s : State), (s.slice sl).ring = some r ∧ r.flushUs ≠ 0 ∧ r.data ≠ [] ∧ s.hubHeld = false)
    ∧ (∃ (id p : Nat) (f : Fence) (s u w : State), s.fence? id = some f ∧ f.point = some p ∧ f.kind = .trigger ∧ f.ended = false ∧
      f.pointDone = false ∧ s.hubHeld = false ∧ u = s.advance (s.psOf p) ∧ w =
      { u with ord := { u.ord with fence := KMap.set none u.ord.fence id (some { f with pointDone := true }) } })
    ∧ (∃ (h : HostIx) (ix : Fin 49) (set : HdmSettings) (ok clash : Bool) (s u : State), s.isVcsUp h = true ∧ ((s.hdm h ix).committed &&
      (s.hdm h ix).set.lock) = false ∧ (clash = (decide (ix.val < 32) && (rangesMeet (set.base, set.size) (s.fenceRange h) || (s.ringsOf
      h).any (fun e => rangesMeet (set.base, set.size) e.2.feedRange)))) ∧ ok = (hdmFits set ix && s.commitOrder h ix set.base set.size
      && s.hdmHolds h ix set && !clash) ∧ (u =
      { s with fab := { s.fab with hdm := KMap.set {} s.fab.hdm (h.val * 64 + ix.val) (if ok then { set := set, committed := true, err := false } else { s.hdm h ix with committed := false, err := true }) } })) :=
  ⟨⟨3, { flushUs := 1, data := [0] }, { run with mv := { slice := [(3, { ring := some { flushUs := 1, data := [0] } })] } },
    by decide +kernel, by decide +kernel, by decide +kernel, by decide +kernel⟩, ⟨1, 5,
    { kind := .trigger, agent := 0, ctTrig := some 5 },
    { run with ord := { fence := [(1, some { kind := .trigger, agent := 0, ctTrig := some 5 })] } }, _, _, by decide +kernel,
    by decide +kernel, by decide +kernel, by decide +kernel, by decide +kernel, by decide +kernel, rfl, rfl⟩, ⟨0, 48,
    { base := 0, size := 0, ways := 1, granularity := 256, targets := [], lock := false }, _, _, run, _, by decide +kernel,
    by decide +kernel, rfl, rfl, rfl⟩⟩

theorem test_ServiceCoreAccessesPerformed_met_1 :
    (∃ (c : CoreIx) (a : Word64) (n : Fin 9) (x : Nat) (s u w : State), u = s.settleBar c ∧ n.val ≠ 0 ∧ u.coreRuns c = true ∧
      u.coreCheck c { read := true } a.toNat n = none ∧ coreSpace a.toNat = .sram x ∧ w = u.coreEcc c a.toNat true ∧ w.hubHeld = false)
    ∧ (∃ (c : CoreIx) (a : Word64) (n : Fin 9) (x : Nat) (s u w : State), u = s.settleBar c ∧ n.val ≠ 0 ∧ u.coreRuns c = true ∧
      u.coreCheck c { read := true } a.toNat n = none ∧ coreSpace a.toNat = .sram x ∧ w = u.coreEcc c a.toNat true ∧ w.hubHeld = false ∧
      (w.coreAt c).loads < 16)
    ∧ (∃ (c : CoreIx) (x k : Nat) (l : List (Nat × Nat)) (s u : State), u = s.settleBar c ∧ (u.coreAt c).late = (x, k) :: l)
    ∧ (∃ (c : CoreIx) (a : Word64) (n : Fin 9) (s u w : State), u = s.settleBar c ∧ n.val ≠ 0 ∧ u.coreRuns c = true ∧ u.coreCheck c
      { read := true } a.toNat n = none ∧ (∃ i o, coreSpace a.toNat = .window i o) ∧ w = u.coreEcc c a.toNat true ∧ w.hubHeld = false)
    ∧ (∃ (c : CoreIx) (a : Word64) (n : Fin 9) (x : Nat) (s u w : State), u = s.settleBar c ∧ n.val ≠ 0 ∧ u.coreRuns c = true ∧
      u.coreCheck c { write := true } a.toNat n = none ∧ coreSpace a.toNat = .sram x ∧ w = u.coreEcc c a.toNat false ∧ w.hubHeld =
      false)
    ∧ (∃ (c : CoreIx) (a : Word64) (n : Fin 9) (g : GFault) (s u : State), u = s.settleBar c ∧ n.val ≠ 0 ∧ u.coreRuns c = true ∧
      u.coreCheck c { read := true } a.toNat n = some g)
    ∧ (∃ (c : CoreIx) (ix : Fin 32) (b : BufStore) (s u : State), (s.coreAt c).buf[ix.val]? = some b ∧ s.hubHeld = false ∧ ((s.coreAt
      c).buf.take ix.val).any (·.hits b.addr b.bytes) = false ∧ b.fabric = false ∧ (u = s.updCore c (fun x =>
      { x with buf := x.buf.filter (·.id ≠ b.id) })))
    ∧ (∃ (c : CoreIx) (a : Word64) (s u : State), u = s.settleBar c ∧ u.coreRuns c = true ∧ a.toNat % 8 ≠ 0) :=
  ⟨⟨0, 8, 8, 8, run, _, _, rfl, by decide +kernel, by decide +kernel, by decide +kernel, by decide +kernel, rfl, by decide +kernel⟩, ⟨0,
    0x3FFFFF, 1, 0x3FFFFF, run, _, _, rfl, by decide +kernel, by decide +kernel, by decide +kernel, by decide +kernel, rfl,
    by decide +kernel, by decide +kernel⟩, ⟨0, 8, 8, [], run.updCore 0 (fun x => { x with late := [(8, 8)] }), _, rfl,
    by decide +kernel⟩, ⟨0, 0x8000000000000, 8, run, _, _, rfl, by decide +kernel, by decide +kernel, by decide +kernel, ⟨0, 0, by
    decide⟩, rfl, by decide +kernel⟩, ⟨0, 8, 8, 8, run, _, _, rfl, by decide +kernel, by decide +kernel, by decide +kernel,
    by decide +kernel, rfl, by decide +kernel⟩, ⟨0, 0x7FFFFFFFFFFFF, 8, { reason := 8, addr := 0x7FFFFFFFFFFFF }, run, _, rfl,
    by decide +kernel, by decide +kernel, by decide +kernel⟩, ⟨0, 0, { id := 1, addr := 8, bytes := 8, data := 0, fabric := false },
    run.updCore 0 (fun x => { x with buf := [{ id := 1, addr := 8, bytes := 8, data := 0, fabric := false }] }), _, by decide +kernel,
    by decide +kernel, by decide +kernel, by decide +kernel, rfl⟩, ⟨0, 1, run, _, rfl, by decide +kernel, by decide +kernel⟩⟩

theorem test_ServiceCoreAccessesPerformed_met_2 :
    (∃ (c : CoreIx) (a : Word64) (s u w : State), u = s.settleBar c ∧ u.coreRuns c = true ∧ a.toNat % 8 = 0 ∧ u.coreCheck c
      { read := true } a.toNat 8 = none ∧ w = u.coreEcc c a.toNat true ∧ w.hubHeld = false)
    ∧ (∃ (c : CoreIx) (a : Word64) (x : Nat) (s u w t : State), u = s.settleBar c ∧ u.coreRuns c = true ∧ a.toNat % 8 = 0 ∧ u.coreCheck
      c { read := true, write := true } a.toNat 8 = none ∧ coreSpace a.toNat = .sram x ∧ w = u.coreEcc c a.toNat false ∧ w.hubHeld =
      false ∧ w.holdsGranule c a.toNat = true ∧ t = ((((w.clearResv c).performOverlap c a.toNat 8).drainOverlap c a.toNat 8).setRd c 0))
    ∧ (∃ (c : CoreIx) (a : Word64) (x : Nat) (s u w : State), u = s.settleBar c ∧ u.coreRuns c = true ∧ a.toNat % 8 = 0 ∧ u.coreCheck c
      { read := true, write := true } a.toNat 8 = none ∧ coreSpace a.toNat = .sram x ∧ w = u.coreEcc c a.toNat false ∧ w.hubHeld = false
      ∧ w.holdsGranule c a.toNat = false)
    ∧ (∃ (c : CoreIx) (s u : State), u = s.settleBar c ∧ u.coreRuns c = true)
    ∧ (∃ (c : CoreIx) (s u w : State), u = s.settleBar c ∧ u.coreRuns c = true ∧ (w = (u.performLoads c).updCore c (fun x =>
      { x with bar := 3 })))
    ∧ (∃ (c : CoreIx) (e : Nat × Fence) (s u w : State), u = s.settleBar c ∧ u.barFence c = some e ∧ w = (u.advance (e.2.deadline.getD
      u.now)).endBar c)
    ∧ (∃ (s : State), s.hubHeld = false)
    ∧ (∃ (a n b : Nat), (b < a ∨ a + n ≤ b)) :=
  ⟨⟨0, 8, run, _, _, rfl, by decide +kernel, by decide +kernel, by decide +kernel, rfl, by decide +kernel⟩, ⟨0, 8, 8, run.updCore 0 (fun
    x => { x with resv := some { granule := 0, fabric := false } }), _, _, _, rfl, by decide +kernel, by decide +kernel,
    by decide +kernel, by decide +kernel, rfl, by decide +kernel, by decide +kernel, rfl⟩, ⟨0, 8, 8, run, _, _, rfl, by decide +kernel,
    by decide +kernel, by decide +kernel, by decide +kernel, rfl, by decide +kernel, by decide +kernel⟩, ⟨0, run, _, rfl,
    by decide +kernel⟩, ⟨0, run, _, _, rfl, by decide +kernel, rfl⟩, ⟨0, (1, { kind := .barSys, agent := agentCore 0, waits := [7] }),
    ({ run with ord := { fence := [(1, some { kind := .barSys, agent := agentCore 0, waits := [7] })] } } : State).updCore 0 (fun x =>
    { x with bar := 3 }), _, _, rfl, by decide +kernel, rfl⟩, ⟨run, by decide +kernel⟩, ⟨1, 8, 0, by decide +kernel⟩⟩

theorem test_CrownQueuesSnoopsAndBrims_met_1 :
    (∃ (src : Fin 5) (r : CrownReq), ∃ (r' : CrownReq), ∃ (s : State), ∃ (u : State), (KMap.get [] s.cr.inbound src).find? s.takeable =
      some r ∧ s.hubHeld = false ∧ (r.entry.op ≠ .wr ∨ 64 ≤ r.entry.who ∨ s.snooping r.w r.line r.entry.who = false) ∧ u =
      (s.takeInbound src r).track r.entry true ∧ r' = { r with entry := { r.entry with at_ := u.now, src := src.val } } ∧ ((u.lineQ r.w
      r.line).any (fun e => e.who == r.entry.who) = false))
    ∧ (∃ (src : Fin 5) (r : CrownReq), ∃ (r' : CrownReq), ∃ (s : State), ∃ (u : State), (KMap.get [] s.cr.inbound src).find? s.takeable
      = some r ∧ s.hubHeld = false ∧ (r.entry.op ≠ .wr ∨ 64 ≤ r.entry.who ∨ s.snooping r.w r.line r.entry.who = false) ∧ u =
      (s.takeInbound src r).track r.entry true ∧ r' = { r with entry := { r.entry with at_ := u.now, src := src.val } } ∧ ((u.lineQ r.w
      r.line).any (fun e => e.who == r.entry.who) = true))
    ∧ (∃ (src : Fin 5) (r : CrownReq) (e : LineEntry) (l : List LineEntry) (s u : State), (KMap.get [] s.cr.inbound src).find?
      s.takeable = some r ∧ s.hubHeld = false ∧ r.entry.op = .wr ∧ r.entry.who < 64 ∧ s.snooping r.w r.line r.entry.who = true ∧ u =
      s.takeInbound src r ∧ u.lineQ r.w r.line = e :: l)
    ∧ (∃ (src : Fin 5) (s : State), ((KMap.get [] s.cr.inbound src).find? s.takeable = none ∨ s.hubHeld = true))
    ∧ (∃ (s : State), s.hubHeld = false)
    ∧ (∃ (s : State), s.hubHeld = true)
    ∧ (∃ (h : HostIx) (w : WinIx) (line : BitVec 36) (rsp : BiRsp) (e : LineEntry) (l : List LineEntry) (q : Snoop) (s : State),
      s.hubHeld = false ∧ s.lineQ w line.toNat = e :: l ∧ (e.snoops.find? (fun q => q.host == h.val) = some q) ∧ snoopAllows q.kind rsp
      = true)
    ∧ (∃ (h : HostIx) (w : WinIx) (line : BitVec 36) (rsp : BiRsp) (e : LineEntry) (l : List LineEntry) (q : Snoop) (s : State),
      s.hubHeld = false ∧ s.lineQ w line.toNat = e :: l ∧ (e.snoops.find? (fun q => q.host == h.val) = some q) ∧ snoopAllows q.kind rsp
      = false) :=
  ⟨⟨0, { w := 0, line := 7, entry := { op := .rdS, who := 3, port := 5, tile := 0 } }, _,
    { run with cr := { inbound := [(0, [{ w := 0, line := 7, entry := { op := .rdS, who := 3, port := 5, tile := 0 } }])] } }, _,
    by decide +kernel, by decide +kernel, by decide +kernel, rfl, rfl, by decide +kernel⟩, ⟨0,
    { w := 0, line := 7, entry := { op := .rdS, who := 3, port := 5, tile := 0 } }, _,
    { run with cr := { inbound := [(0, [{ w := 0, line := 7, entry := { op := .rdS, who := 3, port := 5, tile := 0 } }])], queue := [(7, [{ op := .rdS, who := 3 }])] } },
    _, by decide +kernel, by decide +kernel, by decide +kernel, rfl, rfl, by decide +kernel⟩, ⟨0,
    { w := 0, line := 7, entry := { op := .wr, who := 3, port := 5, tile := 0 } },
    { op := .rdA, who := 4, stage := .snoop, snoops := [{ host := 3, kind := 2 }] }, [],
    { run with cr := { inbound := [(0, [{ w := 0, line := 7, entry := { op := .wr, who := 3, port := 5, tile := 0 } }])], queue := [(7, [{ op := .rdA, who := 4, stage := .snoop, snoops := [{ host := 3, kind := 2 }] }])] } },
    _, by decide +kernel, by decide +kernel, by decide +kernel, by decide +kernel, by decide +kernel, rfl, by decide +kernel⟩, ⟨0, run,
    by decide +kernel⟩, ⟨run, by decide +kernel⟩, ⟨State.reset, by decide +kernel⟩, ⟨3, 0, 7, .i,
    { op := .rdA, who := 4, stage := .snoop, snoops := [{ host := 3, kind := 2 }] }, [], { host := 3, kind := 2 },
    { run with cr := { queue := [(7, [{ op := .rdA, who := 4, stage := .snoop, snoops := [{ host := 3, kind := 2 }] }])] } },
    by decide +kernel, by decide +kernel, by decide +kernel, by decide +kernel⟩, ⟨3, 0, 7, .s,
    { op := .rdA, who := 4, stage := .snoop, snoops := [{ host := 3, kind := 2 }] }, [], { host := 3, kind := 2 },
    { run with cr := { queue := [(7, [{ op := .rdA, who := 4, stage := .snoop, snoops := [{ host := 3, kind := 2 }] }])] } },
    by decide +kernel, by decide +kernel, by decide +kernel, by decide +kernel⟩⟩

theorem test_CrownQueuesSnoopsAndBrims_met_2 :
    (∃ (w : WinIx) (line : BitVec 36) (s : State), s.hubHeld = false ∧ s.lineQ w line.toNat = [])
    ∧ (∃ (h : HostIx) (w : WinIx) (line : BitVec 36) (s : State) (p : _), s.hubHeld = false ∧ s.carryTo h w line.toNat = none ∧
      ((s.lastDone h w line.toNat).filter s.linkUp).or (s.hostPort h) = some p)
    ∧ (∃ (h : HostIx) (w : WinIx) (line : BitVec 36) (s : State) (k : _), s.hubHeld = false ∧ s.carryTo h w line.toNat = some k)
    ∧ (∃ (h : HostIx) (w : WinIx) (line : BitVec 36) (e : LineEntry) (l : List LineEntry) (q : Snoop) (s u : State), s.hubHeld = false ∧
      s.lineQ w line.toNat = e :: l ∧ (e.snoops.find? (fun q => q.host == h.val) = some q) ∧ u = s.advance (q.at_ + cfgOf (s.genOf
      e.gen) (K.SNOOP_TIMEOUT w) * Config.us))
    ∧ (∃ (t : TileIx) (c : BrimCmd) (s : State), s.brimNext t .fill = some c)
    ∧ (∃ (t : TileIx) (c : BrimCmd) (s : State), s.brimNext t .inv = some c)
    ∧ (∃ (t : TileIx) (c : BrimCmd) (s : State), s.brimNext t .read = some c ∧ KMap.get none s.cr.brim (brimKey t c.w c.line) = none)
    ∧ (∃ (t : TileIx) (c : BrimCmd) (v : Nat) (s u w : State), s.brimNext t .read = some c ∧ KMap.get none s.cr.brim (brimKey t c.w
      c.line) = some v ∧ s.ecc (574 + t.val) 0 1 2 2 = (false, u) ∧ w = u.brimTaken t c
      { tile := t, kind := .read, w := c.w, line := c.line, data := v } ∧ 96 ≤ c.port) :=
  ⟨⟨0, 0, run, by decide +kernel, by decide +kernel⟩, ⟨0, 0, 0, ((run.setO (K.LINK_UP 0) 1).setO (K.ROLE 0) 1).setO (K.AGENT 0) 0, 0,
    by decide +kernel, by decide +kernel, by decide +kernel⟩, ⟨0, 0, 7,
    { ((run.setO (K.LINK_UP 0) 1).setO (K.ROLE 0) 1).setO (K.AGENT 0) 0 with cr := { carry := [(1, some { src := 1, tile := 0, port := 0, w := 0, line := 7, data := 0, fill := true })] } },
    1, by decide +kernel, by decide +kernel⟩, ⟨3, 0, 7, { op := .rdA, who := 4, stage := .snoop, snoops := [{ host := 3, kind := 2 }] },
    [], { host := 3, kind := 2 },
    { run with cr := { queue := [(7, [{ op := .rdA, who := 4, stage := .snoop, snoops := [{ host := 3, kind := 2 }] }])] } }, _,
    by decide +kernel, by decide +kernel, by decide +kernel, rfl⟩, ⟨0, { tile := 0, kind := .fill, w := 0, line := 7 },
    { run with cr := { brimCmd := [(0, [{ tile := 0, kind := .fill, w := 0, line := 7 }])] } }, by decide +kernel⟩, ⟨0,
    { tile := 0, kind := .inv, w := 0, line := 7 },
    { run with cr := { brimCmd := [(0, [{ tile := 0, kind := .inv, w := 0, line := 7 }])] } }, by decide +kernel⟩, ⟨0,
    { tile := 0, kind := .read, w := 0, line := 7 },
    { run with cr := { brimCmd := [(0, [{ tile := 0, kind := .read, w := 0, line := 7 }])] } }, by decide +kernel, by decide +kernel⟩,
    ⟨0, { tile := 0, kind := .read, w := 0, line := 7 }, 5,
    { run with cr := { brimCmd := [(0, [{ tile := 0, kind := .read, w := 0, line := 7 }])], brim := [(brimKey 0 0 7, some 5)] } },
    (({ run with cr := { brimCmd := [(0, [{ tile := 0, kind := .read, w := 0, line := 7 }])], brim := [(brimKey 0 0 7, some 5)] } } :
    State).ecc 574 0 1 2 2).2, _, by decide +kernel, by decide +kernel, pair (by decide +kernel), rfl, by decide +kernel⟩⟩

theorem test_CrownQueuesSnoopsAndBrims_met_3 :
    (∃ (t : TileIx) (c : BrimCmd) (v : Nat) (s u w : State) (x : Txn) (e : LineEntry), s.brimNext t .read = some c ∧ KMap.get none
      s.cr.brim (brimKey t c.w c.line) = some v ∧ s.ecc (574 + t.val) 0 1 2 2 = (false, u) ∧ w = u.brimTaken t c
      { tile := t, kind := .read, w := c.w, line := c.line, data := v } ∧ c.port < 96 ∧ w.txn? c.tag = some x ∧ ((w.served c.w
      c.line).find? (fun e => e.tag == c.tag) = some e))
    ∧ (∃ (t : TileIx) (c : BrimCmd) (v : Nat) (s u : State), s.brimNext t .read = some c ∧ KMap.get none s.cr.brim (brimKey t c.w
      c.line) = some v ∧ s.ecc (574 + t.val) 0 1 2 2 = (true, u))
    ∧ (∃ (t : TileIx) (s : State) (c : _), (s.hubHeld = true ∨ s.tileHeld t = true ∨ s.seamUp t = false) ∧ c ∈ [Instr.brimFill t,
      .brimInv t, .brimRead t])
    ∧ (∃ (t : TileIx) (a : BrimAck) (e : LineEntry) (l : List LineEntry) (s u : State), (s.cr.brimAck.find? (fun a => a.tile == t.val) =
      some a) ∧ s.hubHeld = false ∧ u = { s with cr := { s.cr with brimAck := s.cr.brimAck.erase a } } ∧ u.lineQ a.w a.line = e :: l ∧
      a.kind ≠ .read)
    ∧ (∃ (t : TileIx) (a : BrimAck) (e : LineEntry) (l : List LineEntry) (s u : State), (s.cr.brimAck.find? (fun a => a.tile == t.val) =
      some a) ∧ s.hubHeld = false ∧ u = { s with cr := { s.cr with brimAck := s.cr.brimAck.erase a } } ∧ u.lineQ a.w a.line = e :: l ∧
      a.kind = .read ∧ e.stage = .brimOwn ∧ e.brims.contains t.val = true ∧ a.miss = false)
    ∧ (∃ (t : TileIx) (a : BrimAck) (e : LineEntry) (l : List LineEntry) (s u : State), (s.cr.brimAck.find? (fun a => a.tile == t.val) =
      some a) ∧ s.hubHeld = false ∧ u = { s with cr := { s.cr with brimAck := s.cr.brimAck.erase a } } ∧ u.lineQ a.w a.line = e :: l ∧
      a.kind = .read ∧ e.stage = .brimFwd ∧ e.brims.contains t.val = true ∧ a.miss = false)
    ∧ (∃ (t : TileIx) (a : BrimAck) (e : LineEntry) (l : List LineEntry) (s u : State) (v : _), (s.cr.brimAck.find? (fun a => a.tile ==
      t.val) = some a) ∧ s.hubHeld = false ∧ u = { s with cr := { s.cr with brimAck := s.cr.brimAck.erase a } } ∧ u.lineQ a.w a.line = e
      :: l ∧ a.kind = .read ∧ (e.stage = .brimOwn ∨ e.stage = .brimFwd) ∧ e.brims.contains t.val = true ∧ a.miss = true ∧ u.crownMiss
      a.w a.line t e = (true, v))
    ∧ (∃ (id : Nat) (t : Txn) (s : State), s.txn? id = some t ∧ s.hubHeld = false ∧ t.deadline.isSome = true ∧ t.purpose = .crown) :=
  ⟨⟨0, { tile := 0, kind := .read, w := 0, line := 7, port := 5, tag := 9 }, 5,
    { { run with cr := { brimCmd := [(0, [{ tile := 0, kind := .read, w := 0, line := 7, port := 5, tag := 9 }])], brim := [(brimKey 0 0 7, some 5)], queue := [(7, [{ op := .rdS, who := 3, tag := 9, stage := .brimFwd, brims := [0] }])] } } with ord := { txn := [(9, some { purpose := .port, master := 0, port := 5, dest := 0, write := false, addr := 0, bytes := 64 })] } },
    (({ { run with cr := { brimCmd := [(0, [{ tile := 0, kind := .read, w := 0, line := 7, port := 5, tag := 9 }])], brim := [(brimKey 0 0 7, some 5)], queue := [(7, [{ op := .rdS, who := 3, tag := 9, stage := .brimFwd, brims := [0] }])] } } with ord := { txn := [(9, some { purpose := .port, master := 0, port := 5, dest := 0, write := false, addr := 0, bytes := 64 })] } }
    : State).ecc 574 0 1 2 2).2, _, { purpose := .port, master := 0, port := 5, dest := 0, write := false, addr := 0, bytes := 64 },
    { op := .rdS, who := 3, tag := 9, stage := .brimFwd, brims := [0] }, by decide +kernel, by decide +kernel, pair (by decide +kernel),
    rfl, by decide +kernel, by decide +kernel, by decide +kernel⟩, ⟨0, { tile := 0, kind := .read, w := 0, line := 7 }, 5,
    { run.setBlk 574 { inj := 8 + 2 ^ 22 } with cr := { brimCmd := [(0, [{ tile := 0, kind := .read, w := 0, line := 7 }])], brim := [(brimKey 0 0 7, some 5)] } },
    (({ run.setBlk 574 { inj := 8 + 2 ^ 22 } with cr := { brimCmd := [(0, [{ tile := 0, kind := .read, w := 0, line := 7 }])], brim := [(brimKey 0 0 7, some 5)] } }
    : State).ecc 574 0 1 2 2).2, by decide +kernel, by decide +kernel, pair (by decide +kernel)⟩, ⟨0, State.reset, .brimFill 0,
    by decide +kernel, by simp⟩, ⟨0, { tile := 0, kind := .fill, w := 0, line := 7 },
    { op := .rdS, who := 3, stage := .fill, brims := [0] }, [],
    { run with cr := { brimAck := [{ tile := 0, kind := .fill, w := 0, line := 7 }], queue := [(7, [{ op := .rdS, who := 3, stage := .fill, brims := [0] }])] } },
    _, by decide +kernel, by decide +kernel, rfl, by decide +kernel, by decide +kernel⟩, ⟨0,
    { tile := 0, kind := .read, w := 0, line := 7 }, { op := .rdS, who := 3, stage := .brimOwn, brims := [0] }, [],
    { run with cr := { brimAck := [{ tile := 0, kind := .read, w := 0, line := 7 }], queue := [(7, [{ op := .rdS, who := 3, stage := .brimOwn, brims := [0] }])] } },
    _, by decide +kernel, by decide +kernel, rfl, by decide +kernel, by decide +kernel, by decide +kernel, by decide +kernel,
    by decide +kernel⟩, ⟨0, { tile := 0, kind := .read, w := 0, line := 7 }, { op := .rdS, who := 3, stage := .brimFwd, brims := [0] },
    [],
    { run with cr := { brimAck := [{ tile := 0, kind := .read, w := 0, line := 7 }], queue := [(7, [{ op := .rdS, who := 3, stage := .brimFwd, brims := [0] }])] } },
    _, by decide +kernel, by decide +kernel, rfl, by decide +kernel, by decide +kernel, by decide +kernel, by decide +kernel,
    by decide +kernel⟩, ⟨0, { tile := 0, kind := .read, w := 0, line := 7, miss := true },
    { op := .rdS, who := 3, stage := .brimFwd, brims := [0] }, [],
    { run with cr := { brimAck := [{ tile := 0, kind := .read, w := 0, line := 7, miss := true }], queue := [(7, [{ op := .rdS, who := 3, stage := .brimFwd, brims := [0] }])] } },
    { ({ run with cr := { brimAck := [{ tile := 0, kind := .read, w := 0, line := 7, miss := true }], queue := [(7, [{ op := .rdS, who := 3, stage := .brimFwd, brims := [0] }])] } } : State) with cr := { ({ run with cr := { brimAck := [{ tile := 0, kind := .read, w := 0, line := 7, miss := true }], queue := [(7, [{ op := .rdS, who := 3, stage := .brimFwd, brims := [0] }])] } } : State).cr with brimAck := [] } },
    (({ ({ run with cr := { brimAck := [{ tile := 0, kind := .read, w := 0, line := 7, miss := true }], queue := [(7, [{ op := .rdS, who := 3, stage := .brimFwd, brims := [0] }])] } } : State) with cr := { ({ run with cr := { brimAck := [{ tile := 0, kind := .read, w := 0, line := 7, miss := true }], queue := [(7, [{ op := .rdS, who := 3, stage := .brimFwd, brims := [0] }])] } } : State).cr with brimAck := [] } }
    : State).crownMiss 0 7 0 ({ op := .rdS, who := 3, stage := .brimFwd, brims := [0] })).2, by decide +kernel, by decide +kernel,
    by decide +kernel, by decide +kernel, by decide +kernel, by decide +kernel, by decide +kernel, by decide +kernel, pair
    (by decide +kernel)⟩, ⟨1,
    { purpose := .crown, master := 0, port := 0, dest := 0, write := true, addr := 0, bytes := 64, deadline := some 5 },
    { run with ord := { txn := [(1, some { purpose := .crown, master := 0, port := 0, dest := 0, write := true, addr := 0, bytes := 64, deadline := some 5 })] } },
    by decide +kernel, by decide +kernel, by decide +kernel, by decide +kernel⟩⟩

theorem test_CrownQueuesSnoopsAndBrims_met_4 :
    (∃ (id : Nat) (t : Txn) (s : State), s.txn? id = some t ∧ s.hubHeld = false ∧ t.deadline.isSome = true ∧ (t.purpose = .agent ∨
      t.purpose = .core))
    ∧ (∃ (id : Nat) (t : Txn) (s : State), s.txn? id = some t ∧ s.hubHeld = false ∧ t.deadline.isSome = true ∧ t.purpose = .mover ∧
      t.write = true)
    ∧ (∃ (id : Nat) (t : Txn) (s u : State), s.txn? id = some t ∧ s.hubHeld = false ∧ t.deadline.isSome = true ∧ t.purpose = .shadow ∧
      (u = (s.endTxn id true).updWin t.w (fun v => { v with frz := { v.frz with shadowOut := v.frz.shadowOut - 1 } }))) :=
  ⟨⟨1, { purpose := .core, master := 0, port := 0, dest := 0, write := true, addr := 0, bytes := 64, deadline := some 5 },
    { run with ord := { txn := [(1, some { purpose := .core, master := 0, port := 0, dest := 0, write := true, addr := 0, bytes := 64, deadline := some 5 })] } },
    by decide +kernel, by decide +kernel, by decide +kernel, by decide +kernel⟩, ⟨1,
    { purpose := .mover, master := 0, port := 0, dest := 0, write := true, addr := 0, bytes := 64, deadline := some 5 },
    { run with ord := { txn := [(1, some { purpose := .mover, master := 0, port := 0, dest := 0, write := true, addr := 0, bytes := 64, deadline := some 5 })] } },
    by decide +kernel, by decide +kernel, by decide +kernel, by decide +kernel, by decide +kernel⟩, ⟨1,
    { purpose := .shadow, master := 0, port := 0, dest := 0, write := true, addr := 0, bytes := 64, deadline := some 5 },
    { run with ord := { txn := [(1, some { purpose := .shadow, master := 0, port := 0, dest := 0, write := true, addr := 0, bytes := 64, deadline := some 5 })] } },
    _, by decide +kernel, by decide +kernel, by decide +kernel, by decide +kernel, rfl⟩⟩

theorem test_WindowsInitialisedResyncedAndFrozen_met_1 :
    (∃ (w : WinIx) (s u : State), s.hubHeld = false ∧ s.o (K.STATE w) = 1 ∧ s.cB (K.MIRROR w) = false ∧ (s.targetPort (s.c
      (K.PRIMARY_TARGET w))).isSome = true ∧ (u =
      { s with cr := { s.cr with dir := KMap.keep (fun k => k / 2 ^ 36 ≠ w.val) s.cr.dir, cached := KMap.keep (fun k => k / 2 ^ 36 ≠ w.val) s.cr.cached, sector := KMap.keep (fun k => k / 2 ^ 32 ≠ w.val) s.cr.sector } }))
    ∧ (∃ (sess : SessRef) (w : WinIx) (v : Byte) (s u : State), s.accepts sess (K.RESYNC_START w) 1 v.toNat u ∧ u.o (K.STATE w) = 3 ∧
      u.cB (K.MIRROR w) = true ∧ u.poolBound (u.replicaTarget w (u.lostReplica w)) = true)
    ∧ (∃ (sess : SessRef) (w : WinIx) (v : Byte) (s u : State), s.accepts sess (K.RESYNC_START w) 1 v.toNat u ∧ u.o (K.STATE w) ≠ 3)
    ∧ (∃ (w : WinIx) (s u : State), s.hubHeld = false ∧ s.o (K.STATE w) = 4 ∧ s.internalAt w .resync = false ∧ (s.win w).resyncAt <
      s.winLines w ∧ s.pushInternal w (s.win w).resyncAt .resync = some u)
    ∧ (∃ (op : LineOp) (e : LineEntry) (s : State), e = internalEntry s op ∧ s.trackerFree e = false)
    ∧ (∃ (w line : Nat) (op : LineOp) (e : LineEntry) (s u : State), e = internalEntry s op ∧ s.trackerFree e = true ∧ u = s.track e
      true ∧ ((u.lineQ w line).any (fun x => x.who == 0x178) = false))
    ∧ (∃ (w line : Nat) (op : LineOp) (e : LineEntry) (s u : State), e = internalEntry s op ∧ s.trackerFree e = true ∧ u = s.track e
      true ∧ ((u.lineQ w line).any (fun x => x.who == 0x178) = true))
    ∧ (∃ (h : HostIx) (s : State), s.hubHeld = false ∧ (∀ e ∈ s.cr.leaving, markerHost e.1 = h.val → ∀ n, e.2 = some n → s.requestsAhead
      h n = true)) :=
  ⟨⟨0, (((((run.setO (K.ROLE 0) 2).setO (K.AGENT 0) 0).setO (K.POOL 0) 1).setO (K.AGENT_KIND 0) 2).setO (K.PORT_STATE 0) 2).setO
    (K.STATE 0) 1, _, by decide +kernel, by decide +kernel, by decide +kernel, by decide +kernel, rfl⟩, ⟨sidSvc 1, 0, 1, withC (withC
    ((((((run.setO (K.ROLE 0) 2).setO (K.AGENT 0) 0).setO (K.POOL 0) 1).setO (K.AGENT_KIND 0) 2).setO (K.PORT_STATE 0) 2).setO (K.STATE
    0) 3) (K.MIRROR 0) 1) (K.WIN_SIZE 0) (2 ^ 30), readyD (withC (withC ((((((run.setO (K.ROLE 0) 2).setO (K.AGENT 0) 0).setO (K.POOL 0)
    1).setO (K.AGENT_KIND 0) 2).setO (K.PORT_STATE 0) 2).setO (K.STATE 0) 3) (K.MIRROR 0) 1) (K.WIN_SIZE 0) (2 ^ 30) : State) (sidSvc
    1), accepts_of (ready_of (by decide +kernel)) (by decide +kernel), by decide +kernel, by decide +kernel, by decide +kernel⟩, ⟨sidSvc
    1, 0, 1, run, run, accepts_of rfl (by decide +kernel), by decide +kernel⟩, ⟨0, withC (run.setO (K.STATE 0) 4) (K.WIN_SIZE 0) (2 ^
    30), _, by decide +kernel, by decide +kernel, by decide +kernel, by decide +kernel, rfl⟩, ⟨.repair, _,
    { run with cr := { hub := 1024, perHost := [(0, 64 + 11264)] } }, rfl, by decide +kernel⟩, ⟨0, 0, .repair, _,
    { run with cr := { hub := 1023 } }, _, rfl, by decide +kernel, rfl, by decide +kernel⟩, ⟨0, 0, .repair, _,
    { run with cr := { queue := [(0, [{ op := .frz, who := 0x178 }])] } }, _, rfl, by decide +kernel, rfl, by decide +kernel⟩, ⟨0, run,
    by decide +kernel, by decide +kernel⟩⟩

theorem test_WindowsInitialisedResyncedAndFrozen_met_2 :
    (∃ (h : HostIx) (k n : Nat) (s : State), s.hubHeld = false ∧ s.cr.leaving = [(k, some n)] ∧ markerHost k = h.val ∧ s.requestsAhead h
      n = false)
    ∧ (∃ (w n : Nat) (s u : State), s.hubHeld = false ∧ s.cr.departed ≠ [] ∧ (fromPtr 16 s.cr.sweepW).find? s.departureDue = some w ∧ n
      = KMap.get 0 s.cr.sweepAt w ∧ (u = (List.range 16).foldl (fun (x : State) i => x.sweepLine w (16 * n + i)) s) ∧ (s.o (K.STATE w) <
      2 ∨ s.o (K.STATE w) = 5))
    ∧ (∃ (w n : Nat) (s u : State), s.hubHeld = false ∧ s.cr.departed ≠ [] ∧ (fromPtr 16 s.cr.sweepW).find? s.departureDue = some w ∧ n
      = KMap.get 0 s.cr.sweepAt w ∧ (u = (List.range 16).foldl (fun (x : State) i => x.sweepLine w (16 * n + i)) s) ∧ 2 ≤ s.o (K.STATE
      w) ∧ s.o (K.STATE w) ≠ 5 ∧ ((List.range 16).any (fun i => u.namesDeparted w (16 * n + i)) = true))
    ∧ (∃ (w n : Nat) (s u : State), s.hubHeld = false ∧ s.cr.departed ≠ [] ∧ (fromPtr 16 s.cr.sweepW).find? s.departureDue = some w ∧ n
      = KMap.get 0 s.cr.sweepAt w ∧ (u = (List.range 16).foldl (fun (x : State) i => x.sweepLine w (16 * n + i)) s) ∧ 2 ≤ s.o (K.STATE
      w) ∧ s.o (K.STATE w) ≠ 5 ∧ ((List.range 16).any (fun i => u.namesDeparted w (16 * n + i)) = false))
    ∧ (∃ (s : State), s.cr.departed = [])
    ∧ (∃ (sess : SessRef) (w : WinIx) (v : Byte) (s u : State), s.accepts sess (K.FRZ_ARM w) 1 v.toNat u ∧ u.armRefusal w = 0)
    ∧ (∃ (sess : SessRef) (w : WinIx) (v : Byte) (s u : State), s.accepts sess (K.FRZ_ARM w) 1 v.toNat u ∧ u.armRefusal w ≠ 0)
    ∧ (∃ (sess : SessRef) (w : WinIx) (v : Byte) (s u : State), s.accepts sess (K.FRZ_RELEASE w) 1 v.toNat u ∧ u.o (K.FRZ_STATE w) = 2) :=
  ⟨⟨3, 3, 9, { run with cr := { leaving := [(3, some 9)] } }, by decide +kernel, by decide +kernel, by decide +kernel,
    by decide +kernel⟩, ⟨2, _, { run with cr := { departed := [(3 * 16 + 2, 1)] } }, _, by decide +kernel, by decide +kernel,
    by decide +kernel, rfl, rfl, by decide +kernel⟩, ⟨2, _,
    { (withC (run.setO (K.STATE 2) 2) (K.WIN_SIZE 2) (2 ^ 30)) with cr := { departed := [(3 * 16 + 2, 1)], dir := [(2 * 2 ^ 36, { state := .x, hosts := 3 * 2 ^ 12 + 3 * 64 + 3 })] } },
    _, by decide +kernel, by decide +kernel, by decide +kernel, rfl, rfl, by decide +kernel, by decide +kernel, by decide +kernel⟩, ⟨2,
    _, { (withC (run.setO (K.STATE 2) 2) (K.WIN_SIZE 2) (2 ^ 30)) with cr := { departed := [(3 * 16 + 2, 1)] } }, _, by decide +kernel,
    by decide +kernel, by decide +kernel, rfl, rfl, by decide +kernel, by decide +kernel, by decide +kernel⟩, ⟨run, by decide +kernel⟩,
    ⟨sidSvc 1, 0, 1,
    { (withC (withC ((((((run.setO (K.ROLE 0) 2).setO (K.AGENT 0) 0).setO (K.POOL 0) 1).setO (K.AGENT_KIND 0) 2).setO (K.PORT_STATE 0) 2).setO (K.STATE 0) 2) (K.WIN_SIZE 0) (2 ^ 30)) (K.FRZ_SHADOW_OFFSET 0) (2 ^ 30)) with fab := { run.fab with port := [(0, { capGiB := 16 })] } },
    readyD
    ({ (withC (withC ((((((run.setO (K.ROLE 0) 2).setO (K.AGENT 0) 0).setO (K.POOL 0) 1).setO (K.AGENT_KIND 0) 2).setO (K.PORT_STATE 0) 2).setO (K.STATE 0) 2) (K.WIN_SIZE 0) (2 ^ 30)) (K.FRZ_SHADOW_OFFSET 0) (2 ^ 30)) with fab := { run.fab with port := [(0, { capGiB := 16 })] } }
    : State) (sidSvc 1), accepts_of (ready_of (by decide +kernel)) (by decide +kernel), by decide +kernel⟩, ⟨sidSvc 1, 0, 1, run, run,
    accepts_of rfl (by decide +kernel), by decide +kernel⟩, ⟨sidSvc 1, 0, 1, run.setO (K.FRZ_STATE 0) 2, run.setO (K.FRZ_STATE 0) 2,
    accepts_of rfl (by decide +kernel), by decide +kernel⟩⟩

theorem test_WindowsInitialisedResyncedAndFrozen_met_3 :
    (∃ (sess : SessRef) (w : WinIx) (v : Byte) (s u : State), s.accepts sess (K.FRZ_RELEASE w) 1 v.toNat u ∧ (u.o (K.FRZ_STATE w) = 1 ∨
      u.o (K.FRZ_STATE w) = 3))
    ∧ (∃ (w : WinIx) (p : Nat) (s : State), (s.win w).frz.point = some p ∧ s.hubHeld = false ∧ s.o (K.FRZ_STATE w) = 1 ∧ p ≤ s.ct)
    ∧ (∃ (w : WinIx) (s : State), s.hubHeld = false ∧ (s.win w).frz.sweepOn = true ∧ (s.o (K.FRZ_STATE w) = 2 ∨ s.o (K.FRZ_STATE w) = 4)
      ∧ s.internalAt w .frz = false ∧ s.uncopied w (s.dirEntry w (s.win w).frz.sweep) = false)
    ∧ (∃ (w : WinIx) (s u : State), s.hubHeld = false ∧ (s.win w).frz.sweepOn = true ∧ (s.o (K.FRZ_STATE w) = 2 ∨ s.o (K.FRZ_STATE w) =
      4) ∧ s.internalAt w .frz = false ∧ s.uncopied w (s.dirEntry w (s.win w).frz.sweep) = true ∧ s.pushInternal w (s.win w).frz.sweep
      .frz = some u)
    ∧ (∃ (w : WinIx) (s : State), s.hubHeld = false ∧ s.o (K.FRZ_STATE w) = 2 ∧ (s.win w).frz.sweepOn = false ∧ (s.win w).frz.shadowOut
      = 0 ∧ s.internalAt w .frz = false ∧ s.oldWrites w ((s.win w).frz.point.getD 0) = false)
    ∧ (∃ (w : WinIx) (h : HostIx) (s : State) (c : _), s.hubHeld = true ∧ c ∈ [Instr.windowInitComplete w, .resyncLineCopy w,
      .departureMarkerArrive h, .departureSweepStep, .freezePoint w, .freezeSweepStep w, .freezeComplete w]) :=
  ⟨⟨sidSvc 1, 0, 1, run.setO (K.FRZ_STATE 0) 3, run.setO (K.FRZ_STATE 0) 3, accepts_of rfl (by decide +kernel), by decide +kernel⟩, ⟨0,
    5, ({ (run.setO (K.FRZ_STATE 0) 1) with tm := { run.tm with ctBase := 5 } }).updWin 0 (fun x =>
    { x with frz := { point := some 5 } }), by decide +kernel, by decide +kernel, by decide +kernel, by decide +kernel⟩, ⟨0, ((run.setO
    (K.FRZ_STATE 0) 2)).updWin 0 (fun x => { x with frz := { sweepOn := true } }), by decide +kernel, by decide +kernel,
    by decide +kernel, by decide +kernel, by decide +kernel⟩, ⟨0, ((run.setO (K.FRZ_STATE 0) 4)).updWin 0 (fun x =>
    { x with frz := { sweepOn := true, we := true } }), _, by decide +kernel, by decide +kernel, by decide +kernel, by decide +kernel,
    by decide +kernel, rfl⟩, ⟨0, run.setO (K.FRZ_STATE 0) 2, by decide +kernel, by decide +kernel, by decide +kernel, by decide +kernel,
    by decide +kernel, by decide +kernel⟩, ⟨0, 0, State.reset, .windowInitComplete 0, by decide +kernel, by simp⟩⟩

theorem test_SeamUnitsLaunchedAndReceived_met_1 :
    (∃ (sm : TileIx) (d : Fin 2) (k : Fin 8) (q : Nat) (rest : List Nat) (s u v : State), s.seamLive sm = true ∧ (s.strandOf sm d
      k).carries = true ∧ (s.sdir sm d).resend = q :: rest ∧ (u = s.updStrand sm d k (fun y => { y with sentAt := s.now })) ∧ (v =
      u.updSdir sm d (fun x =>
      { x with resend := rest, replay := x.replay.map (fun w => if w.seq == q then { w with at_ := s.now, strand := k.val } else w), lastOn := KMap.set none x.lastOn k (some q) })))
    ∧ (∃ (sm : TileIx) (d : Fin 2) (k : Fin 8) (x : SeamDir) (s u w : State) (r : (Nat × Nat) × (Nat × Nat)), s.seamLive sm = true ∧
      (s.strandOf sm d k).carries = true ∧ x = s.sdir sm d ∧ x.resend = [] ∧ (s.seam sm).retraining = false ∧ x.replay.length < 1024 ∧
      x.reserve d < 64 ∧ fitting 16 256 x.ready ≠ [] ∧ (u = s.updStrand sm d k (fun y => { y with sentAt := s.now })) ∧ u.launchReturns
      sm d = (r, w))
    ∧ (∃ (sm : TileIx) (d : Fin 2) (x : SeamDir) (s : State), x = s.sdir sm d ∧ x.resend = [] ∧ ((s.seam sm).retraining = true ∨ 1024 ≤
      x.replay.length ∨ 64 ≤ x.reserve d ∨ fitting 16 256 x.ready = []))
    ∧ (∃ (sm : TileIx) (d : Fin 2) (k : Fin 8) (s u : State), s.seamLive sm = true ∧ (s.strandOf sm d k).carries = true ∧ (u =
      ((s.launchReturns sm d).2).updStrand sm d k (fun y => { y with sentAt := s.now })))
    ∧ (∃ (sm : TileIx) (d : Fin 2) (k : Fin 8) (s u : State), s.seamLive sm = true ∧ (s.strandOf sm d k).kaHold = false ∧ (s.strandOf sm
      d k).carries = true ∧ u = s.advance ((s.strandOf sm d k).sentAt + 256000))
    ∧ (∃ (sm : TileIx) (d : Fin 2) (k : Fin 8) (s : State), (s.strandOf sm d k).kaHold = true)
    ∧ (∃ (sm : TileIx) (d : Fin 2) (q : BitVec 12) (v : Sent) (s : State), (s.sdir sm d).replay.find? (·.seq == q.toNat) = some v)
    ∧ (∃ (sm : TileIx) (d : Fin 2) (q : BitVec 12) (s : State), (s.sdir sm d).replay.find? (·.seq == q.toNat) = none) :=
  ⟨⟨0, 0, 0, 5, [], (run).updSdir 0 0 (fun x => { x with resend := [5] }), _, _, by decide +kernel, by decide +kernel,
    by decide +kernel, rfl, rfl⟩, ⟨0, 0, 0, _, (run).updSdir 0 0 (fun x =>
    { x with ready := [{ cell := { cls := .sys, colourCode := 0, sop := true, eop := true, mcast := false, source := 0, egress := 1, bytes := 64, seq := 0, pktCells := 1, reseq := false, mcidx := 0, gen := 1, gepoch := 0, rsv := 0, hcrc := 0, data := 0, committed := true, req := 0, credit := 0, lim := .sys }, dest := 0 }] }),
    _, _, ((0, 0), (0, 0)), by decide +kernel, by decide +kernel, rfl, by decide +kernel, by decide +kernel, by decide +kernel,
    by decide +kernel, by decide +kernel, rfl, rfl⟩, ⟨0, 0, _, run, rfl, by decide +kernel, by decide +kernel⟩, ⟨0, 0, 0, run, _,
    by decide +kernel, by decide +kernel, rfl⟩, ⟨0, 0, 0, run, _, by decide +kernel, by decide +kernel, by decide +kernel, rfl⟩, ⟨0, 0,
    0, (run).updStrand 0 0 0 (fun x => { x with kaHold := true }), by decide +kernel⟩, ⟨0, 0, 5,
    { seq := 5, items := [], cr0 := (0, 0), cr1 := (0, 0), at_ := 0, strand := 0 }, (run).updSdir 0 0 (fun x =>
    { x with replay := [{ seq := 5, items := [], cr0 := (0, 0), cr1 := (0, 0), at_ := 0, strand := 0 }] }), by decide +kernel⟩, ⟨0, 0,
    0, run, by decide +kernel⟩⟩

theorem test_SeamUnitsLaunchedAndReceived_met_2 :
    (∃ (cls : Nat), cls ≠ 3)
    ∧ (∃ (sm : TileIx) (d : Fin 2) (k : Fin 8) (u : SeamUnit) (bad : Bool) (s w : State), s.seamLive sm = true ∧ (s.strandOf sm d
      k).carries = true ∧ s.unitInverted sm d k = (bad, w) ∧ (bad || !u.crcOk) = true)
    ∧ (∃ (sm : TileIx) (d : Fin 2) (k : Fin 8) (s : State), (s.strandOf sm d k).injOnce = false)
    ∧ (∃ (sm : TileIx) (d : Fin 2) (k : Fin 8) (u : SeamUnit) (s : State), s.seamLive sm = true ∧ (s.strandOf sm d k).carries = true ∧
      s.unitInverted sm d k = (false, s) ∧ u.crcOk = true ∧ unitWellFormed u = false)
    ∧ (∃ (sm : TileIx) (d : Fin 2) (k : Fin 8) (u : SeamUnit) (s w c : State), s.seamLive sm = true ∧ (s.strandOf sm d k).carries = true
      ∧ s.unitInverted sm d k = (false, s) ∧ u.crcOk = true ∧ unitWellFormed u = true ∧ (w = (s.updStrand sm d k (fun y =>
      { y with lastAt := s.now })).ackNak sm d u) ∧ c = w.controlUnit sm d k u ∧ u.type = .data)
    ∧ (∃ (sm : TileIx) (d : Fin 2) (k : Fin 8) (u : SeamUnit) (s w c : State), s.seamLive sm = true ∧ (s.strandOf sm d k).carries = true
      ∧ s.unitInverted sm d k = (false, s) ∧ u.crcOk = true ∧ unitWellFormed u = true ∧ (w = (s.updStrand sm d k (fun y =>
      { y with lastAt := s.now })).ackNak sm d u) ∧ c = w.controlUnit sm d k u ∧ u.type = .keepalive)
    ∧ (∃ (sm : TileIx) (d : Fin 2) (k : Fin 8) (u : SeamUnit) (s w c : State), s.seamLive sm = true ∧ (s.strandOf sm d k).carries = true
      ∧ s.unitInverted sm d k = (false, s) ∧ u.crcOk = true ∧ unitWellFormed u = true ∧ (w = (s.updStrand sm d k (fun y =>
      { y with lastAt := s.now })).ackNak sm d u) ∧ c = w.controlUnit sm d k u ∧ u.type = .ack)
    ∧ (∃ (sm : TileIx) (d : Fin 2) (k : Fin 8) (u : SeamUnit) (s w c : State), s.seamLive sm = true ∧ (s.strandOf sm d k).carries = true
      ∧ s.unitInverted sm d k = (false, s) ∧ u.crcOk = true ∧ unitWellFormed u = true ∧ (w = (s.updStrand sm d k (fun y =>
      { y with lastAt := s.now })).ackNak sm d u) ∧ c = w.controlUnit sm d k u ∧ u.type = .check ∧ (c.seam sm).retraining = false) :=
  ⟨⟨0, by decide +kernel⟩, ⟨0, 0, 0, ({ (default : SeamUnit) with type := .ack, crcOk := true } : SeamUnit), _, (run).updStrand 0 0 0
    (fun x => { x with injAll := true }), _, by decide +kernel, by decide +kernel, rfl, by decide +kernel⟩, ⟨0, 0, 0, run,
    by decide +kernel⟩, ⟨0, 0, 0, ({ (default : SeamUnit) with type := .ack, crcOk := true, rsv := 1 } : SeamUnit), run,
    by decide +kernel, by decide +kernel, by decide +kernel, by decide +kernel, by decide +kernel⟩, ⟨0, 0, 0,
    ({ (default : SeamUnit) with type := .data, crcOk := true, items := [{ cell := { cls := .sys, colourCode := 0, sop := true, eop := true, mcast := false, source := 0, egress := 1, bytes := 64, seq := 0, pktCells := 1, reseq := false, mcidx := 0, gen := 1, gepoch := 0, rsv := 0, hcrc := 0, data := 0, committed := true, req := 0, credit := 0, lim := .sys }, dest := 0 }] }
    : SeamUnit), run, _, _, by decide +kernel, by decide +kernel, by decide +kernel, by decide +kernel, by decide +kernel, rfl, rfl,
    by decide +kernel⟩, ⟨0, 0, 0, ({ (default : SeamUnit) with type := .keepalive, crcOk := true } : SeamUnit), run, _, _,
    by decide +kernel, by decide +kernel, by decide +kernel, by decide +kernel, by decide +kernel, rfl, rfl, by decide +kernel⟩, ⟨0, 0,
    0, ({ (default : SeamUnit) with type := .ack, crcOk := true } : SeamUnit), run, _, _, by decide +kernel, by decide +kernel,
    by decide +kernel, by decide +kernel, by decide +kernel, rfl, rfl, by decide +kernel⟩, ⟨0, 0, 0,
    ({ (default : SeamUnit) with type := .check, crcOk := true } : SeamUnit), run, _, _, by decide +kernel, by decide +kernel,
    by decide +kernel, by decide +kernel, by decide +kernel, rfl, rfl, by decide +kernel, by decide +kernel⟩⟩

theorem test_SeamUnitsLaunchedAndReceived_met_3 :
    (∃ (sm : TileIx) (d : Fin 2) (k : Fin 8) (u : SeamUnit) (s w c : State), s.seamLive sm = true ∧ (s.strandOf sm d k).carries = true ∧
      s.unitInverted sm d k = (false, s) ∧ u.crcOk = true ∧ unitWellFormed u = true ∧ (w = (s.updStrand sm d k (fun y =>
      { y with lastAt := s.now })).ackNak sm d u) ∧ c = w.controlUnit sm d k u ∧ u.type = .check ∧ (c.seam sm).retraining = true)
    ∧ (∃ (sm : TileIx) (d : Fin 2) (k : Fin 8) (u : SeamUnit) (s w c : State), s.seamLive sm = true ∧ (s.strandOf sm d k).carries = true
      ∧ s.unitInverted sm d k = (false, s) ∧ u.crcOk = true ∧ unitWellFormed u = true ∧ (w = (s.updStrand sm d k (fun y =>
      { y with lastAt := s.now })).ackNak sm d u) ∧ c = w.controlUnit sm d k u ∧ u.type = .train)
    ∧ (∃ (sm : TileIx) (d : Fin 2) (k : Fin 8) (u : SeamUnit) (s : State) (c : _), (s.seamLive sm && (s.strandOf sm d k).carries) =
      false ∧ c ∈ [Instr.seamUnitLaunch sm d k, .seamAckUnitSend sm d k, .checkSend sm d k, .seamUnitReceive sm d k u])
    ∧ (∃ (sm : TileIx) (d : Fin 2) (c : CheckInfo) (s u v w : State) (pools : List (Nat × Int)) (neg big : Bool), (s.sdir sm d).check =
      some c ∧ (s.seam sm).retraining = false ∧ 2048 ≤ seqDist c.retThru (s.sdir sm (1 - d.val)).nextDel ∧ (pools = (bitList 74
      c.empty).map (fun p => (p, (s.sdir sm d).shortfall d p c.asOf))) ∧ (neg = pools.any (fun e => decide (e.2 < 0))) ∧ (big =
      pools.any (fun e => decide (((allotment d e.1 + 3) / 4 : Nat) ≤ e.2))) ∧ (u = s.updSdir sm d (fun x => { x with check := none }))
      ∧ (v = u.setO (if d.val == 0 then K.SHORTFALL_UP sm else K.SHORTFALL_DN sm) ((pools.map (fun e => min 100 (e.2.toNat * 100 / max 1
      (allotment d e.1)))).foldl max 0)) ∧ (w = (if neg then v.strandRaise sm d 0 2 9 else v)))
    ∧ (∃ (sm : TileIx) (d : Fin 2) (c : CheckInfo) (s : State), (s.sdir sm d).check = some c ∧ ((s.seam sm).retraining = true ∨ seqDist
      c.retThru (s.sdir sm (1 - d.val)).nextDel < 2048)) :=
  ⟨⟨0, 0, 0, ({ (default : SeamUnit) with type := .check, crcOk := true } : SeamUnit), (run).updSeam 0 (fun x =>
    { x with retraining := true }), _, _, by decide +kernel, by decide +kernel, by decide +kernel, by decide +kernel, by decide +kernel,
    rfl, rfl, by decide +kernel, by decide +kernel⟩, ⟨0, 0, 0, ({ (default : SeamUnit) with type := .train, crcOk := true } : SeamUnit),
    run, _, _, by decide +kernel, by decide +kernel, by decide +kernel, by decide +kernel, by decide +kernel, rfl, rfl,
    by decide +kernel⟩, ⟨0, 0, 0, ({ (default : SeamUnit) with type := .ack, crcOk := true } : SeamUnit), State.reset, .seamAckUnitSend
    0 0 0, by decide +kernel, by simp⟩, ⟨0, 0, { empty := 1, asOf := 0, retThru := 2048 }, (run).updSdir 0 0 (fun x =>
    { x with check := some { empty := 1, asOf := 0, retThru := 2048 } }), _, _, _, _, _, _, by decide +kernel, by decide +kernel,
    by decide +kernel, rfl, rfl, rfl, rfl, rfl, rfl⟩, ⟨0, 0, { empty := 1, asOf := 0, retThru := 0 }, (run).updSdir 0 0 (fun x =>
    { x with check := some { empty := 1, asOf := 0, retThru := 0 } }), by decide +kernel, by decide +kernel⟩⟩

theorem test_SeamRetrainsAndStrands_met_1 :
    (∃ (sm : TileIx) (s u : State), s.retrainMay sm = true ∧ (u = s.updSeam sm (fun x =>
      { x with retrainDue := false, atOnce := false, retraining := true })))
    ∧ (∃ (sm : TileIx) (s : State), s.retrainMay sm = false)
    ∧ (∃ (sm : TileIx) (ws : List (Fin 2 × Fin 8 × Fin 66)) (s u w : State), (s.seam sm).retraining = true ∧ (s.sdir sm 0).replay = [] ∧
      (s.sdir sm 1).replay = [] ∧ (u = (List.range 2).foldl (fun (s : State) d => (List.range 8).foldl (fun (s : State) k => if
      (s.strandOf sm d k).status == 3 then (s.updStrand sm d k (fun y =>
      { y.noteBad ((ws.filter (fun e => e.1.val == d && e.2.1.val == k)).map (fun e => e.2.2.val)) with status := 2, lastAt := s.now })).spareStrand
      sm d k else s) (s.updSdir sm d (fun x => x.exchanged d))) s) ∧ (w = u.updSeam sm (fun x =>
      { x with retraining := false, leak := false })) ∧ (s.seam sm).leak = false)
    ∧ (∃ (sm : TileIx) (ws : List (Fin 2 × Fin 8 × Fin 66)) (s u w : State), (s.seam sm).retraining = true ∧ (s.sdir sm 0).replay = [] ∧
      (s.sdir sm 1).replay = [] ∧ (u = (List.range 2).foldl (fun (s : State) d => (List.range 8).foldl (fun (s : State) k => if
      (s.strandOf sm d k).status == 3 then (s.updStrand sm d k (fun y =>
      { y.noteBad ((ws.filter (fun e => e.1.val == d && e.2.1.val == k)).map (fun e => e.2.2.val)) with status := 2, lastAt := s.now })).spareStrand
      sm d k else s) (s.updSdir sm d (fun x => x.exchanged d))) s) ∧ (w = u.updSeam sm (fun x =>
      { x with retraining := false, leak := false })) ∧ (s.seam sm).leak = true)
    ∧ (∃ (sm : TileIx) (s : State), ((s.seam sm).retraining = false ∨ (s.sdir sm 0).replay ≠ [] ∨ (s.sdir sm 1).replay ≠ []))
    ∧ (∃ (sess : SessRef) (sm : TileIx) (v : Byte) (s u : State), s.accepts sess (K.RETRAIN_NOW sm) 1 v.toNat u)
    ∧ (∃ (sm : TileIx) (d : Fin 2) (k : Fin 8) (s u : State), s.seamLive sm = true ∧ (s.strandOf sm d k).carries = true ∧ u = s.advance
      ((s.strandOf sm d k).lastAt + 4 * Config.us))
    ∧ (∃ (sm : TileIx) (s : State), s.seamLive sm = true ∧ (s.strandOf sm 0 8).status = 2) :=
  ⟨⟨0, (run).updSeam 0 (fun x => { x with trainedAt := 1, retrainDue := true }), _, by decide +kernel, rfl⟩, ⟨0, run,
    by decide +kernel⟩, ⟨0, [], (run).updSeam 0 (fun x => { x with retraining := true }), _, _, by decide +kernel, by decide +kernel,
    by decide +kernel, rfl, rfl, by decide +kernel⟩, ⟨0, [], (run).updSeam 0 (fun x => { x with retraining := true, leak := true }), _,
    _, by decide +kernel, by decide +kernel, by decide +kernel, rfl, rfl, by decide +kernel⟩, ⟨0, run, by decide +kernel⟩, ⟨sidSvc 1, 0,
    1, run, run, accepts_of rfl (by decide +kernel)⟩, ⟨0, 0, 0, run, _, by decide +kernel, by decide +kernel, rfl⟩, ⟨0, run,
    by decide +kernel, by decide +kernel⟩⟩

theorem test_SeamRetrainsAndStrands_met_2 :
    (∃ (sm : TileIx) (s : State), s.seamLive sm = true ∧ (s.strandOf sm 1 8).status = 2)
    ∧ (∃ (sm : TileIx) (d : Fin 2) (k : Fin 9) (s : State), s.seamLive sm = true ∧ (s.strandOf sm d k).status < 2 ∧ (s.strandOf sm d
      k).stopped = false)
    ∧ (∃ (sm : TileIx) (d : Fin 2) (k : Fin 9) (s : State), s.seamLive sm = true ∧ (s.strandOf sm d k).status < 2 ∧ (s.strandOf sm d
      k).stopped = false ∧ (s.strandOf sm d k).injAll = false)
    ∧ (∃ (sm d k : Nat) (s u : State), (s.strandOf sm d k).bad = [] ∧ (s.strandOf sm d k).retest = false ∧ k < 8 ∧ (u = (s.updStrand sm
      d k (fun y => { y with status := 2, upAt := s.now, lastAt := s.now, bad := [], retest := false })).strandRaise sm d k 0 0))
    ∧ (∃ (sm : TileIx) (s : State), s.seamLive sm = true ∧ s.strandsHealthy sm = true)
    ∧ (∃ (sm : TileIx) (s : State), (s.seamLive sm = false ∨ s.strandsHealthy sm = false)) :=
  ⟨⟨0, run, by decide +kernel, by decide +kernel⟩, ⟨0, 0, 0, (run).updStrand 0 0 0 (fun x => { x with status := 0 }), by decide +kernel,
    by decide +kernel, by decide +kernel⟩, ⟨0, 0, 0, (run).updStrand 0 0 0 (fun x => { x with status := 1 }), by decide +kernel,
    by decide +kernel, by decide +kernel, by decide +kernel⟩, ⟨0, 0, 0, run, _, by decide +kernel, by decide +kernel, by decide +kernel,
    rfl⟩, ⟨0, run, by decide +kernel, by decide +kernel⟩, ⟨0, State.reset, by decide +kernel⟩⟩

theorem test_TimingStrandsIsolationAndDiagnostics_met_1 :
    (∃ (sm : TileIx) (d : Fin 2) (f : TimingFlit) (bad : Bool) (s w : State), s.seamLive sm = true ∧ (s.strandOf sm d 8).status = 2 ∧
      s.unitInverted sm d 8 = (bad, w) ∧ (bad || !f.crcOk) = true)
    ∧ (∃ (sm : TileIx) (d : Fin 2) (f : TimingFlit) (s : State), s.seamLive sm = true ∧ (s.strandOf sm d 8).status = 2 ∧ s.unitInverted
      sm d 8 = (false, s) ∧ f.crcOk = true ∧ flitWellFormed f = false)
    ∧ (∃ (sm : TileIx) (d : Fin 2) (f : TimingFlit) (s u : State) (ct st : _), s.seamLive sm = true ∧ (s.strandOf sm d 8).status = 2 ∧
      s.unitInverted sm d 8 = (false, s) ∧ f.crcOk = true ∧ flitWellFormed f = true ∧ (u = s.updStrand sm d 8 (fun y =>
      { y with lastAt := s.now })) ∧ f.body = .tick ct st)
    ∧ (∃ (sm : TileIx) (d : Fin 2) (f : TimingFlit) (s u : State) (pairs : _), s.seamLive sm = true ∧ (s.strandOf sm d 8).status = 2 ∧
      s.unitInverted sm d 8 = (false, s) ∧ f.crcOk = true ∧ flitWellFormed f = true ∧ (u = s.updStrand sm d 8 (fun y =>
      { y with lastAt := s.now })) ∧ f.body = .credit pairs)
    ∧ (∃ (sm : TileIx) (d : Fin 2) (f : TimingFlit) (s u : State), s.seamLive sm = true ∧ (s.strandOf sm d 8).status = 2 ∧
      s.unitInverted sm d 8 = (false, s) ∧ f.crcOk = true ∧ flitWellFormed f = true ∧ (u = s.updStrand sm d 8 (fun y =>
      { y with lastAt := s.now })) ∧ (f.body = .idle ∨ f.body = .ack))
    ∧ (∃ (sm : TileIx) (d : Fin 2) (f : TimingFlit) (s u : State) (dist : Nat) (v w : State), s.seamLive sm = true ∧ (s.strandOf sm d
      8).status = 2 ∧ s.unitInverted sm d 8 = (false, s) ∧ f.crcOk = true ∧ flitWellFormed f = true ∧ (u = s.updStrand sm d 8 (fun y =>
      { y with lastAt := s.now })) ∧ flitSequenced f.body = true ∧ dist = (f.fseq + 256 - (u.timing sm d).nextRx) % 256 ∧ (v =
      u.updTiming sm d (fun x => if (KMap.get none x.store f.fseq).isSome then x else
      { x with store := KMap.set none x.store f.fseq (some f.body) })) ∧ w = v.deliverFlits sm d (v.timing sm d).store.length ∧ dist <
      64)
    ∧ (∃ (sm : TileIx) (d : Fin 2) (f : TimingFlit) (s u : State) (dist : Nat) (v w : State), s.seamLive sm = true ∧ (s.strandOf sm d
      8).status = 2 ∧ s.unitInverted sm d 8 = (false, s) ∧ f.crcOk = true ∧ flitWellFormed f = true ∧ (u = s.updStrand sm d 8 (fun y =>
      { y with lastAt := s.now })) ∧ flitSequenced f.body = true ∧ dist = (f.fseq + 256 - (u.timing sm d).nextRx) % 256 ∧ (v =
      u.updTiming sm d (fun x => if (KMap.get none x.store f.fseq).isSome then x else
      { x with store := KMap.set none x.store f.fseq (some f.body) })) ∧ w = v.deliverFlits sm d (v.timing sm d).store.length ∧ 192 ≤
      dist)
    ∧ (∃ (sm : TileIx) (d : Fin 2) (f : TimingFlit) (s u : State) (dist : Nat) (v w : State), s.seamLive sm = true ∧ (s.strandOf sm d
      8).status = 2 ∧ s.unitInverted sm d 8 = (false, s) ∧ f.crcOk = true ∧ flitWellFormed f = true ∧ (u = s.updStrand sm d 8 (fun y =>
      { y with lastAt := s.now })) ∧ flitSequenced f.body = true ∧ dist = (f.fseq + 256 - (u.timing sm d).nextRx) % 256 ∧ (v =
      u.updTiming sm d (fun x => if (KMap.get none x.store f.fseq).isSome then x else
      { x with store := KMap.set none x.store f.fseq (some f.body) })) ∧ w = v.deliverFlits sm d (v.timing sm d).store.length ∧ 64 ≤
      dist ∧ dist < 192) :=
  ⟨⟨0, 0, ({ body := .idle, fseq := 0, fack := none, rsv := 0, crcOk := false } : TimingFlit), _, run, _, by decide +kernel,
    by decide +kernel, rfl, by decide +kernel⟩, ⟨0, 0, ({ body := .illegal, fseq := 0, fack := none, rsv := 0, crcOk := true } :
    TimingFlit), run, by decide +kernel, by decide +kernel, by decide +kernel, by decide +kernel, by decide +kernel⟩, ⟨0, 0,
    ({ body := .tick 5 1, fseq := 0, fack := none, rsv := 0, crcOk := true } : TimingFlit), run, _, 5, 1, by decide +kernel,
    by decide +kernel, by decide +kernel, by decide +kernel, by decide +kernel, rfl, by decide +kernel⟩, ⟨0, 0,
    ({ body := .credit [(3, 1)], fseq := 0, fack := none, rsv := 0, crcOk := true } : TimingFlit), run, _, [(3, 1)], by decide +kernel,
    by decide +kernel, by decide +kernel, by decide +kernel, by decide +kernel, rfl, by decide +kernel⟩, ⟨0, 0,
    ({ body := .ack, fseq := 0, fack := none, rsv := 0, crcOk := true } : TimingFlit), run, _, by decide +kernel, by decide +kernel,
    by decide +kernel, by decide +kernel, by decide +kernel, rfl, by decide +kernel⟩, ⟨0, 0,
    ({ body := .bcast { code := 1, payload := 2 }, fseq := 0, fack := none, rsv := 0, crcOk := true } : TimingFlit), run.updTiming 0 0
    (fun x => { x with nextRx := 193 }), _, _, _, _, by decide +kernel, by decide +kernel, by decide +kernel, by decide +kernel,
    by decide +kernel, rfl, by decide +kernel, rfl, rfl, rfl, by decide +kernel⟩, ⟨0, 0,
    ({ body := .bcast { code := 1, payload := 2 }, fseq := 0, fack := none, rsv := 0, crcOk := true } : TimingFlit), run.updTiming 0 0
    (fun x => { x with nextRx := 64 }), _, _, _, _, by decide +kernel, by decide +kernel, by decide +kernel, by decide +kernel,
    by decide +kernel, rfl, by decide +kernel, rfl, rfl, rfl, by decide +kernel⟩, ⟨0, 0,
    ({ body := .bcast { code := 1, payload := 2 }, fseq := 0, fack := none, rsv := 0, crcOk := true } : TimingFlit), run.updTiming 0 0
    (fun x => { x with nextRx := 65 }), _, _, _, _, by decide +kernel, by decide +kernel, by decide +kernel, by decide +kernel,
    by decide +kernel, rfl, by decide +kernel, rfl, rfl, rfl, by decide +kernel, by decide +kernel⟩⟩

theorem test_TimingStrandsIsolationAndDiagnostics_met_2 :
    (∃ (sm : TileIx) (d : Fin 2) (s : State), (s.seamLive sm = false ∨ (s.strandOf sm d 8).status ≠ 2))
    ∧ (∃ (sm : TileIx) (s : State), s.seamLive sm = true ∧ (s.strandOf sm 1 8).status = 2)
    ∧ (∃ (sm : TileIx) (j : Int) (s : State), s.seamLive sm = true ∧ (s.strandOf sm 1 8).status = 2 ∧ j ≠ 0)
    ∧ (∃ (sess : SessRef) (sm : TileIx) (v : Byte) (s u w : State), s.accepts sess (K.ISOLATE sm) 1 v.toNat u ∧ w = u.setO (K.ISOLATE
      sm) v.toNat ∧ w.hubHeld = true)
    ∧ (∃ (sess : SessRef) (sm : TileIx) (v : Byte) (s u w : State), s.accepts sess (K.ISOLATE sm) 1 v.toNat u ∧ w = u.setO (K.ISOLATE
      sm) v.toNat ∧ w.hubHeld = false ∧ v.toNat = 1 ∧ KMap.get false w.st.tileHeld sm = false)
    ∧ (∃ (sess : SessRef) (sm : TileIx) (v : Byte) (s u w : State), s.accepts sess (K.ISOLATE sm) 1 v.toNat u ∧ w = u.setO (K.ISOLATE
      sm) v.toNat ∧ w.hubHeld = false ∧ v.toNat = 1 ∧ KMap.get false w.st.tileHeld sm = true)
    ∧ (∃ (sess : SessRef) (sm : TileIx) (v : Byte) (s u w : State), s.accepts sess (K.ISOLATE sm) 1 v.toNat u ∧ w = u.setO (K.ISOLATE
      sm) v.toNat ∧ w.hubHeld = false ∧ v.toNat = 0 ∧ KMap.get false w.st.tileHeld sm = true ∧ w.tileFree sm ≤ w.now)
    ∧ (∃ (sess : SessRef) (sm : TileIx) (v : Byte) (s u w : State), s.accepts sess (K.ISOLATE sm) 1 v.toNat u ∧ w = u.setO (K.ISOLATE
      sm) v.toNat ∧ w.hubHeld = false ∧ v.toNat = 0 ∧ (KMap.get false w.st.tileHeld sm = false ∨ w.now < w.tileFree sm)) :=
  ⟨⟨0, 0, State.reset, by decide +kernel⟩, ⟨0, run, by decide +kernel, by decide +kernel⟩, ⟨0, 1, run, by decide +kernel,
    by decide +kernel, by decide +kernel⟩, ⟨sidSvc 1, 0, 1, { run with st := { run.st with hubIn := true } },
    { run with st := { run.st with hubIn := true } }, _, accepts_of rfl (by decide +kernel), rfl, by decide +kernel⟩, ⟨sidSvc 1, 0, 1,
    run, run, _, accepts_of rfl (by decide +kernel), rfl, by decide +kernel, by decide +kernel, by decide +kernel⟩, ⟨sidSvc 1, 0, 1,
    { run with st := { run.st with tileHeld := [(0, true)] } }, { run with st := { run.st with tileHeld := [(0, true)] } }, _,
    accepts_of rfl (by decide +kernel), rfl, by decide +kernel, by decide +kernel, by decide +kernel⟩, ⟨sidSvc 1, 0, 0,
    { run with st := { run.st with tileHeld := [(0, true)] } }, { run with st := { run.st with tileHeld := [(0, true)] } }, _,
    accepts_of rfl (by decide +kernel), rfl, by decide +kernel, by decide +kernel, by decide +kernel, by decide +kernel⟩, ⟨sidSvc 1, 0,
    0, run, run, _, accepts_of rfl (by decide +kernel), rfl, by decide +kernel, by decide +kernel, by decide +kernel⟩⟩

theorem test_TimingStrandsIsolationAndDiagnostics_met_3 :
    (∃ (via : CsrVia) (sm : TileIx) (d : Fin 2) (on : Bool) (s : State), s.csrOpen via (diagDie sm d) = true ∧ (s.injOpen = true ∨ on =
      false))
    ∧ (∃ (via : CsrVia) (sm : TileIx) (d : Fin 2) (w : BitVec 7) (s : State), s.csrOpen via (diagDie sm d) = true ∧ (s.injOpen = true ∨
      w.toNat = 0x7F))
    ∧ (∃ (via : CsrVia) (sm : TileIx) (d : Fin 2) (s : State), s.csrOpen via (diagDie sm d) = true ∧ s.injOpen = false)
    ∧ (∃ (via : CsrVia) (sm : TileIx) (d : Fin 2) (s : State), s.csrOpen via (diagDie sm d) = true ∧ s.injOpen = false)
    ∧ (∃ (via : CsrVia) (sm : TileIx) (d : Fin 2) (s : State), s.csrOpen via (diagDie sm d) = true ∧ s.injOpen = false)
    ∧ (∃ (via : CsrVia) (sm : TileIx) (d : Fin 2) (w : BitVec 7) (s : State), s.csrOpen via (diagDie sm d) = true ∧ s.injOpen = false ∧
      w.toNat ≠ 0x7F) :=
  ⟨⟨.service (sidSvc 1), 0, 0, true, run, by decide +kernel, by decide +kernel⟩, ⟨.service (sidSvc 1), 0, 0, 0, run, by decide +kernel,
    by decide +kernel⟩, ⟨.service (sidSvc 1), 0, 0, { run with life := { run.life with fuses := { run.life.fuses with lc := 0x0F } } },
    by decide +kernel, by decide +kernel⟩, ⟨.service (sidSvc 1), 0, 0,
    { run with life := { run.life with fuses := { run.life.fuses with lc := 0x0F } } }, by decide +kernel, by decide +kernel⟩, ⟨.service
    (sidSvc 1), 0, 0, { run with life := { run.life with fuses := { run.life.fuses with lc := 0x0F } } }, by decide +kernel,
    by decide +kernel⟩, ⟨.service (sidSvc 1), 0, 0, 0,
    { run with life := { run.life with fuses := { run.life.fuses with lc := 0x0F } } }, by decide +kernel, by decide +kernel,
    by decide +kernel⟩⟩

theorem test_LinksTrainedResetAndPowerManaged_met_1 :
    (∃ (p : PortIx) (s u : State), s.tileHeld (tileOf p) = false ∧ s.isMember p = false ∧ (u = s.updPort p (fun q =>
      { q with partner := true })))
    ∧ (∃ (p : PortIx) (i : LinkInfo) (s : State), s.inTraining p = true ∧ s.mayTrain p = true ∧ s.tilesRestart = false ∧ s.linkFits p i
      = false)
    ∧ (∃ (p : PortIx) (i : LinkInfo) (s u w x y : State), s.inTraining p = true ∧ s.mayTrain p = true ∧ s.tilesRestart = false ∧
      s.linkFits p i = true ∧ u = ((((((s.setO (K.LINK_WIDTH p) i.width).setO (K.LINK_RATE p) i.rate).setO (K.FLIT_ACTIVE p)
      i.flit).setO (K.PROTOCOL p) i.protocol).setO (K.LTSSM_STATE p) 3).setO (K.TRAIN_TIME p) (i.timeUs % 2 ^ 32)).setTrainedLanes p i ∧
      (w = (((u.updPort p (fun q =>
      { q with up := true, partner := true, eqKept := true, inL1 := false, looped := false, ide := q.set.ide && decide (i.flit ≠ 0), cxlIde := if i.protocol == 2 then q.set.cxlIde else 0, trained := u.activeMembers p i.width i.reversed, capGiB := i.capacityGiB, isDcd := i.isDcd, biCredits := i.biCredits })).setO
      (K.AGENT_KIND p) (min i.kind 6)).setO (K.LD_COUNT p) (if i.kind == 2 then 1 else min i.lds 16)).setO (K.PORT_SERIAL p)
      ((i.serial.getD 0) % 2 ^ 64)) ∧ x = w.setO (K.LINK_UP p) (b2n !(w.needsCxl p i.protocol)) ∧ (y = (if (s.port p).up then x else
      x.raiseCore (4 * p) 0 1)))
    ∧ (∃ (p : PortIx) (s : State), (s.inTraining p = false ∨ s.mayTrain p = false ∨ s.tilesRestart = true))
    ∧ (∃ (sess : SessRef) (p : PortIx) (v : Byte) (s u : State), s.accepts sess (K.LINK_ENABLE p) 1 v.toNat u ∧ u.isMember p = false ∧
      v.toNat = 0 ∧ (u.o (K.PORT_STATE p) = 3 ∨ u.o (K.PORT_STATE p) = 4))
    ∧ (∃ (sess : SessRef) (p : PortIx) (v : Byte) (s u : State), s.accepts sess (K.LINK_ENABLE p) 1 v.toNat u ∧ u.isMember p = false ∧
      v.toNat = 0 ∧ u.o (K.PORT_STATE p) ≠ 3 ∧ u.o (K.PORT_STATE p) ≠ 4)
    ∧ (∃ (sess : SessRef) (p : PortIx) (v : Byte) (s u : State), s.accepts sess (K.LINK_ENABLE p) 1 v.toNat u ∧ u.isMember p = false ∧
      v.toNat = 1 ∧ u.o (K.LINK_ENABLE p) ≠ 1)
    ∧ (∃ (sess : SessRef) (p : PortIx) (v : Byte) (s u : State), s.accepts sess (K.LINK_ENABLE p) 1 v.toNat u ∧ u.isMember p = false ∧
      v.toNat = 1 ∧ u.o (K.LINK_ENABLE p) = 1) :=
  ⟨⟨0, run, _, by decide +kernel, by decide +kernel, rfl⟩, ⟨0, default,
    { ((run.setO (K.LINK_ENABLE 0) 1).setO (K.LTSSM_STATE 0) 2) with gen := { run.gen with published := true } }, by decide +kernel,
    by decide +kernel, by decide +kernel, by decide +kernel⟩, ⟨0,
    ({ width := 1, rate := 3, flit := 0, protocol := 1, reversed := false, partWidth := 16, partRate := 6, kind := 2, serial := none, lds := 1, capacityGiB := 16, timeUs := 5, polarity := 0, biCredits := 0, isDcd := false }
    : LinkInfo), { ((run.setO (K.LINK_ENABLE 0) 1).setO (K.LTSSM_STATE 0) 2) with gen := { run.gen with published := true } }, _, _, _,
    _, by decide +kernel, by decide +kernel, by decide +kernel, by decide +kernel, rfl, rfl, rfl, rfl⟩, ⟨0, run, by decide +kernel⟩,
    ⟨sidSvc 1, 0, 0, run.setO (K.PORT_STATE 0) 4, run.setO (K.PORT_STATE 0) 4, accepts_of rfl (by decide +kernel), by decide +kernel,
    by decide +kernel, by decide +kernel⟩, ⟨sidSvc 1, 0, 0, run, run, accepts_of rfl (by decide +kernel), by decide +kernel,
    by decide +kernel, by decide +kernel, by decide +kernel⟩, ⟨sidSvc 1, 0, 1, run.setO (K.LINK_ENABLE 0) 0, run.setO (K.LINK_ENABLE 0)
    0, accepts_of rfl (by decide +kernel), by decide +kernel, by decide +kernel, by decide +kernel⟩, ⟨sidSvc 1, 0, 1, run.setO
    (K.LINK_ENABLE 0) 1, run.setO (K.LINK_ENABLE 0) 1, accepts_of rfl (by decide +kernel), by decide +kernel, by decide +kernel,
    by decide +kernel⟩⟩

theorem test_LinksTrainedResetAndPowerManaged_met_2 :
    (∃ (sess : SessRef) (p : PortIx) (v : Byte) (s u : State), s.accepts sess (K.LINK_ENABLE p) 1 v.toNat u ∧ u.isMember p = true)
    ∧ (∃ (sess : SessRef) (p : PortIx) (v : Byte) (s u w : State), s.accepts sess (K.LINK_RETRAIN p) 1 v.toNat u ∧ u.isMember p = false
      ∧ u.tilesRestart = false ∧ (w = u.updPort p (fun q => { q with eqKept := false })))
    ∧ (∃ (sess : SessRef) (p : PortIx) (v : Byte) (s u : State), s.accepts sess (K.LINK_RETRAIN p) 1 v.toNat u ∧ u.isMember p = true)
    ∧ (∃ (sess : SessRef) (p : PortIx) (v : Byte) (s u : State), s.accepts sess (K.LINK_RETRAIN p) 1 v.toNat u ∧ u.isMember p = false ∧
      u.tilesRestart = true)
    ∧ (∃ (s : State) (p : Nat), s.mayTrain p = true ∧ s.linkUp p = false ∧ s.tilesRestart = false)
    ∧ (∃ (s : State) (p : Nat), s.mayTrain p = true ∧ s.linkUp p = false ∧ s.tilesRestart = true)
    ∧ (∃ (s : State) (p : Nat), (s.mayTrain p = false ∨ s.linkUp p = true))
    ∧ (∃ (p : PortIx) (s : State), s.tileHeld (tileOf p) = false ∧ (s.port p).up = true) :=
  ⟨⟨sidSvc 1, 1, 1, withC run (K.PORT_WIDTH 0) 16, withC run (K.PORT_WIDTH 0) 16, accepts_of rfl (by decide +kernel),
    by decide +kernel⟩, ⟨sidSvc 1, 0, 1, run, run, _, accepts_of rfl (by decide +kernel), by decide +kernel, by decide +kernel, rfl⟩,
    ⟨sidSvc 1, 1, 1, withC run (K.PORT_WIDTH 0) 16, withC run (K.PORT_WIDTH 0) 16, accepts_of rfl (by decide +kernel),
    by decide +kernel⟩, ⟨sidSvc 1, 0, 1, { run with life := { run.life with swapping := some 2 } },
    { run with life := { run.life with swapping := some 2 } }, accepts_of rfl (by decide +kernel), by decide +kernel,
    by decide +kernel⟩, ⟨{ ((run.setO (K.LINK_ENABLE 0) 1).setO (K.LTSSM_STATE 0) 2) with gen := { run.gen with published := true } },
    0, by decide +kernel, by decide +kernel, by decide +kernel⟩,
    ⟨{ ({ ((run.setO (K.LINK_ENABLE 0) 1).setO (K.LTSSM_STATE 0) 2) with gen := { run.gen with published := true } }) with life := { run.life with swapping := some 2 } },
    0, by decide +kernel, by decide +kernel, by decide +kernel⟩, ⟨run, 0, by decide +kernel⟩, ⟨0, (run).updPort 0 (fun x =>
    { x with up := true }), by decide +kernel, by decide +kernel⟩⟩

theorem test_LinksTrainedResetAndPowerManaged_met_3 :
    (∃ (p : PortIx) (s : State), (s.tileHeld (tileOf p) = true ∨ (s.port p).up = false))
    ∧ (∃ (h : HostIx) (v : Fin 49) (s : State), s.isVcsUp h = true ∧ 32 ≤ v.val)
    ∧ (∃ (h : HostIx) (v : Fin 49) (kind q ld : Nat) (s u : State), s.isVcsUp h = true ∧ v.val < 32 ∧ s.binding h v = some (kind, q, ld)
      ∧ u = s.emit .card q [3, h.val, v.val] ∧ kind = 2)
    ∧ (∃ (h : HostIx) (v : Fin 49) (kind q ld : Nat) (s u : State), s.isVcsUp h = true ∧ v.val < 32 ∧ s.binding h v = some (kind, q, ld)
      ∧ u = s.emit .card q [3, h.val, v.val] ∧ kind ≠ 2 ∧ (s.port q).up = true) :=
  ⟨⟨0, run, by decide +kernel⟩, ⟨0, 48, run, by decide +kernel, by decide +kernel⟩, ⟨0, 0, 2, 5, 0,
    { run with fab := { run.fab with bind := [(0, some (2, 5, 0))], port := [(5, { up := true })] } }, _, by decide +kernel,
    by decide +kernel, by decide +kernel, rfl, by decide +kernel⟩, ⟨0, 0, 1, 5, 0,
    { run with fab := { run.fab with bind := [(0, some (1, 5, 0))], port := [(5, { up := true })] } }, _, by decide +kernel,
    by decide +kernel, by decide +kernel, rfl, by decide +kernel, by decide +kernel⟩⟩

theorem test_LinkRecoveryLoopbackAndLowPower_met_1 :
    (∃ (p : PortIx) (s u v : State) (cause : RecoveryCause), (s.port p).up = true ∧ [3, 5, 6].contains (s.o (K.LTSSM_STATE p)) = true ∧
      u = ((s.endEyes p 3).setO (K.LTSSM_STATE p) 4).incO (K.RECOVERIES p) ∧ (cause = .uncorrectableFlit → v = (u.incO
      (K.FLITS_UNCORRECTABLE p)).raiseCore (4 * p + 1) 1 0x10) ∧ (cause = .replayTimeout → v = (u.incO (K.REPLAYS p)).raiseCore (4 * p +
      1) 1 0x11) ∧ (cause = .unrequested → v = u.raiseCore (4 * p + 1) 1 0x12) ∧ (cause ≠ .uncorrectableFlit → cause ≠ .replayTimeout →
      cause ≠ .unrequested → v = u) ∧ v.linkUp p = true)
    ∧ (∃ (p : PortIx) (s u v : State) (cause : RecoveryCause), (s.port p).up = true ∧ [3, 5, 6].contains (s.o (K.LTSSM_STATE p)) = true
      ∧ u = ((s.endEyes p 3).setO (K.LTSSM_STATE p) 4).incO (K.RECOVERIES p) ∧ (cause = .uncorrectableFlit → v = (u.incO
      (K.FLITS_UNCORRECTABLE p)).raiseCore (4 * p + 1) 1 0x10) ∧ (cause = .replayTimeout → v = (u.incO (K.REPLAYS p)).raiseCore (4 * p +
      1) 1 0x11) ∧ (cause = .unrequested → v = u.raiseCore (4 * p + 1) 1 0x12) ∧ (cause ≠ .uncorrectableFlit → cause ≠ .replayTimeout →
      cause ≠ .unrequested → v = u) ∧ v.linkUp p = false)
    ∧ (∃ (p : PortIx) (s u v : State) (cause : RecoveryCause), (s.port p).up = true ∧ [3, 5, 6].contains (s.o (K.LTSSM_STATE p)) = true
      ∧ u = ((s.endEyes p 3).setO (K.LTSSM_STATE p) 4).incO (K.RECOVERIES p) ∧ (cause = .uncorrectableFlit → v = (u.incO
      (K.FLITS_UNCORRECTABLE p)).raiseCore (4 * p + 1) 1 0x10) ∧ (cause = .replayTimeout → v = (u.incO (K.REPLAYS p)).raiseCore (4 * p +
      1) 1 0x11) ∧ (cause = .unrequested → v = u.raiseCore (4 * p + 1) 1 0x12) ∧ (cause ≠ .uncorrectableFlit → cause ≠ .replayTimeout →
      cause ≠ .unrequested → v = u) ∧ (∀ r, cause ≠ .rateChange r))
    ∧ (∃ (p : PortIx) (s u v : State) (cause : RecoveryCause) (r : _), (s.port p).up = true ∧ [3, 5, 6].contains (s.o (K.LTSSM_STATE p))
      = true ∧ u = ((s.endEyes p 3).setO (K.LTSSM_STATE p) 4).incO (K.RECOVERIES p) ∧ (cause = .uncorrectableFlit → v = (u.incO
      (K.FLITS_UNCORRECTABLE p)).raiseCore (4 * p + 1) 1 0x10) ∧ (cause = .replayTimeout → v = (u.incO (K.REPLAYS p)).raiseCore (4 * p +
      1) 1 0x11) ∧ (cause = .unrequested → v = u.raiseCore (4 * p + 1) 1 0x12) ∧ (cause ≠ .uncorrectableFlit → cause ≠ .replayTimeout →
      cause ≠ .unrequested → v = u) ∧ cause = .rateChange r ∧ 1 ≤ r ∧ r ≤ (u.port p).set.rate)
    ∧ (∃ (p : PortIx) (s : State), ((s.port p).up = false ∨ [3, 5, 6].contains (s.o (K.LTSSM_STATE p)) = false))
    ∧ (∃ (p : PortIx) (s u : State), s.tileHeld (tileOf p) = false ∧ s.isMember p = false ∧ s.o (K.LINK_ENABLE p) ≠ 0 ∧ (s.port
      p).looped = false ∧ s.o (K.LTSSM_STATE p) ≠ 0 ∧ s.o (K.LTSSM_STATE p) ≠ 7 ∧ (u = (if s.linkUp p then s.portDown p .surprise else
      s)))
    ∧ (∃ (p : PortIx) (s : State), (s.tileHeld (tileOf p) = true ∨ s.o (K.LINK_ENABLE p) = 0 ∨ (s.port p).looped = true))
    ∧ (∃ (p : PortIx) (s : State), (s.port p).looped = true) :=
  ⟨⟨0, ((run.setO (K.LTSSM_STATE 0) 3).setO (K.LINK_UP 0) 1).updPort 0 (fun x => { x with up := true }), _, _, .uncorrectableFlit,
    by decide +kernel, by decide +kernel, rfl, fun _ => rfl, fun h => absurd h (by decide), fun h => absurd h (by decide), fun h =>
    absurd rfl h, by decide +kernel⟩, ⟨0, (run.setO (K.LTSSM_STATE 0) 3).updPort 0 (fun x => { x with up := true }), _, _,
    .uncorrectableFlit, by decide +kernel, by decide +kernel, rfl, fun _ => rfl, fun h => absurd h (by decide), fun h => absurd h (by
    decide), fun h => absurd rfl h, by decide +kernel⟩, ⟨0, ((run.setO (K.LTSSM_STATE 0) 3).setO (K.LINK_UP 0) 1).updPort 0 (fun x =>
    { x with up := true }), _, _, .uncorrectableFlit, by decide +kernel, by decide +kernel, rfl, fun _ => rfl, fun h => absurd h (by
    decide), fun h => absurd h (by decide), fun h => absurd rfl h, by intro r h; cases h⟩, ⟨0, ((run.setO (K.LTSSM_STATE 0) 3).setO
    (K.LINK_UP 0) 1).updPort 0 (fun x => { x with up := true }), _, _, .rateChange 1, 1, by decide +kernel, by decide +kernel, rfl, fun
    h => absurd h (by decide), fun h => absurd h (by decide), fun h => absurd h (by decide), fun _ _ _ => rfl, by decide +kernel,
    by decide +kernel, by decide +kernel⟩, ⟨0, run, by decide +kernel⟩, ⟨0, (run.setO (K.LINK_ENABLE 0) 1).setO (K.LTSSM_STATE 0) 3, _,
    by decide +kernel, by decide +kernel, by decide +kernel, by decide +kernel, by decide +kernel, by decide +kernel, rfl⟩, ⟨0, run.setO
    (K.LINK_ENABLE 0) 0, by decide +kernel⟩, ⟨0, run.updPort 0 (fun x => { x with looped := true }), by decide +kernel⟩⟩

theorem test_LinkRecoveryLoopbackAndLowPower_met_2 :
    (∃ (p : PortIx) (s : State), (s.port p).looped = false)
    ∧ (∃ (p : PortIx) (s u : State), (s.port p).up = true ∧ s.o (K.LTSSM_STATE p) = 3 ∧ (s.port p).set.l1 = true ∧ s.o (K.ROLE p) ≠ 2 ∧
      u = (s.endEyes p 3).setO (K.LTSSM_STATE p) 6)
    ∧ (∃ (p : PortIx) (s : State), ((s.port p).up = false ∨ (s.port p).set.l1 = false ∨ s.o (K.ROLE p) = 2))
    ∧ (∃ (p : PortIx) (s u : State), (s.port p).inL1 = true ∧ u = s.setO (K.LTSSM_STATE p) 3)
    ∧ (∃ (p : PortIx) (s : State), (s.port p).inL1 = false)
    ∧ (∃ (p : PortIx) (w n : Nat) (live idle : List Nat) (s u v : State), (s.port p).up = true ∧ [3, 5].contains (s.o (K.LTSSM_STATE p))
      = true ∧ (s.port p).set.l0p = true ∧ s.o (K.LINK_RATE p) = 6 ∧ n = s.o (K.LINK_WIDTH p) ∧ 2 ≤ n ∧ [1, 2, 4, 8, 16].contains w =
      true ∧ w ≤ n ∧ (live = (List.range w).map (fun k => s.laneOf p k (bit (s.o (K.DEGRADED p)) 2))) ∧ (idle = ((List.range n).map (fun
      k => s.laneOf p k (bit (s.o (K.DEGRADED p)) 2))).filter (fun l => !live.contains l)) ∧ (u = ((idle.foldl (fun (s : State) l =>
      match KMap.get none s.fab.eye (l / 4) with | some e => if e.cmd % 4 == l % 4 then s.endEye (l / 4) 3 else s | none => s)
      s).setLanes idle 1).setLanes live 3) ∧ (v =
      { u with fab := { u.fab with lane := live.foldl (fun m l => KMap.upd {} m l (fun x => { x with on := true })) (idle.foldl (fun m l => KMap.upd {} m l (fun x => { x with on := false })) u.fab.lane) } }))
    ∧ (∃ (p : PortIx) (w : Nat) (s : State), ((s.port p).up = false ∨ (s.port p).set.l0p = false ∨ s.o (K.LINK_RATE p) ≠ 6 ∨ s.o
      (K.LINK_WIDTH p) < 2 ∨ s.o (K.LINK_WIDTH p) < w)) :=
  ⟨⟨0, run, by decide +kernel⟩, ⟨0, (run.setO (K.LTSSM_STATE 0) 3).updPort 0 (fun x => { x with up := true, set := { l1 := true } }), _,
    by decide +kernel, by decide +kernel, by decide +kernel, by decide +kernel, rfl⟩, ⟨0, run, by decide +kernel⟩, ⟨0, run.updPort 0
    (fun x => { x with inL1 := true }), _, by decide +kernel, rfl⟩, ⟨0, run, by decide +kernel⟩, ⟨0, 2, _, _, _, (((run.setO
    (K.LTSSM_STATE 0) 3).updPort 0 (fun x => { x with up := true, set := { l0p := true } })).setO (K.LINK_RATE 0) 6).setO (K.LINK_WIDTH
    0) 16, _, _, by decide +kernel, by decide +kernel, by decide +kernel, by decide +kernel, rfl, by decide +kernel, by decide +kernel,
    by decide +kernel, rfl, rfl, rfl, rfl⟩, ⟨0, 2, run, by decide +kernel⟩⟩

theorem test_LaneTestsMarginingAndEyeScans_met :
    (∃ (l : LaneIx) (s : State), (s.port (s.lead (l.val / 4))).up = true ∧ 4 ≤ s.o (K.LINK_RATE (s.lead (l.val / 4))) ∧ (s.lane l).on =
      true ∧ KMap.get none s.fab.eye (l.val / 4) = none)
    ∧ (∃ (via : CsrVia) (l : LaneIx) (s : State), s.csrOpen via (l.val / 96) = true)
    ∧ (∃ (l : LaneIx) (s : State), bit (s.lane l).test 7 = true ∧ (s.port (s.lead (l.val / 4))).set.rate ≠ 6)
    ∧ (∃ (l : LaneIx) (s : State), bit (s.lane l).test 7 = false)
    ∧ (∃ (sess : SessRef) (p : PortIx) (c : BitVec 128) (s u w : State), s.accepts sess (K.EYE_CMD p) 16 c.toNat u ∧ u.eyeRefusal p
      c.toNat = 0 ∧ w = u.setO (K.EYE_RECORD p) (eyeRecord { cmd := c.toNat, total := eyePoints c.toNat, ctStart := u.ct } 1 (u.o
      (K.LINK_RATE (u.lead p))) 0))
    ∧ (∃ (sess : SessRef) (p : PortIx) (c : BitVec 128) (s u : State), s.accepts sess (K.EYE_CMD p) 16 c.toNat u ∧ u.eyeRefusal p
      c.toNat ≠ 0)
    ∧ (∃ (p : PortIx) (n : BitVec 32) (e : Eye), ∃ (e' : Eye), ∃ (s : State), ∃ (u : State), s.tilesRestart = false ∧ KMap.get none
      s.fab.eye p = some e ∧ (e' =
      { e with pts := (min n.toNat 0xFFFFFF + (if min n.toNat 0xFFFFFF == 0xFFFFFF then 2 ^ 31 else 0)) :: e.pts }) ∧ u =
      { s with fab := { s.fab with eye := KMap.set none s.fab.eye p (some e') } })
    ∧ (∃ (p : PortIx) (s : State), (KMap.get none s.fab.eye p = none ∨ s.tilesRestart = true)) :=
  ⟨⟨0,
    { ((run.setO (K.LTSSM_STATE 0) 3).setO (K.LINK_RATE 0) 6) with fab := { run.fab with lane := [(0, { on := true, power := 3 })], port := [(0, { up := true })] } },
    by decide +kernel, by decide +kernel, by decide +kernel, by decide +kernel⟩, ⟨.service (sidSvc 1), 0, run, by decide +kernel⟩, ⟨0,
    { run with fab := { run.fab with lane := [(0, { test := 128 })], port := [(0, { set := { rate := 5 } })] } }, by decide +kernel,
    by decide +kernel⟩, ⟨0, run, by decide +kernel⟩, ⟨sidSvc 1, 0, 1*2^8 + 1*2^32 + 1*2^56 + 20*2^64,
    { ((run.setO (K.LTSSM_STATE 0) 3).setO (K.LINK_RATE 0) 6) with fab := { run.fab with lane := [(0, { on := true, power := 3 })], port := [(0, { up := true })] } },
    { ((run.setO (K.LTSSM_STATE 0) 3).setO (K.LINK_RATE 0) 6) with fab := { run.fab with lane := [(0, { on := true, power := 3 })], port := [(0, { up := true })] } },
    _, accepts_of rfl (by decide +kernel), by decide +kernel, rfl⟩, ⟨sidSvc 1, 0, 0, run, run, accepts_of rfl (by decide +kernel),
    by decide +kernel⟩, ⟨0, 5, { cmd := 0 }, _, { run with fab := { run.fab with eye := [(0, some { cmd := 0 })] } }, _,
    by decide +kernel, by decide +kernel, rfl, rfl⟩, ⟨0, run, by decide +kernel⟩⟩

theorem test_PortsClaimedAndSlotsCommanded_met_1 :
    (∃ (sess : SessRef) (p : PortIx) (v : Byte) (s u : State) (new : Claim) (acc : Bool), s.accepts sess (K.ROLE p) 1 v.toNat u ∧ new =
      { u.portClaim p with role := v.toNat } ∧ acc = (v.toNat == (u.portClaim p).role && v.toNat ≠ 0 && (u.o (K.PORT_STATE p) == 5 ||
      u.o (K.PORT_STATE p) == 6)) ∧ u.claimRefusal p new acc = 0)
    ∧ (∃ (sess : SessRef) (p : PortIx) (v : Byte) (s u : State), s.accepts sess (K.AGENT p) 1 v.toNat u ∧ u.claimRefusal p
      { u.portClaim p with agent := v.toNat } false = 0)
    ∧ (∃ (sess : SessRef) (p : PortIx) (v : Byte) (s u : State), s.accepts sess (K.POOL p) 1 v.toNat u ∧ u.claimRefusal p
      { u.portClaim p with pool := v.toNat } false = 0)
    ∧ (∃ (sess : SessRef) (p : PortIx) (v : Byte) (s u : State), s.accepts sess (K.SLOT p) 1 v.toNat u ∧ u.claimRefusal p
      { u.portClaim p with slot := v.toNat } false = 0)
    ∧ (∃ (sess : SessRef) (p : PortIx) (v : Byte) (s u : State) (r : Nat), s.accepts sess (K.SLOT p) 1 v.toNat u ∧ r = u.claimRefusal p
      { u.portClaim p with slot := v.toNat } false ∧ r ≠ 0)
    ∧ (∃ (h : HostIx) (s : State), s.isVcsUp h = true)
    ∧ (∃ (h : HostIx) (v : Fin 49) (c : BitVec 16) (k p ld : Nat) (s u : State), s.isVcsUp h = true ∧ s.binding h v = some (k, p, ld) ∧
      s.o (K.SLOT p) < 24 ∧ (u = (s.updVppb h v (fun b => { b with ctl := c.toNat, ind := bits c.toNat 9 6 })).setO (K.INDICATORS p)
      (bits c.toNat 9 6)) ∧ ((bit c.toNat 10 = (s.vppb h v).cmdWait.getD (s.vppb h v).pwrOff ∧ bit c.toNat 10 = true) ∨ u.ownerOf p ≠
      some (h.val, v.val)))
    ∧ (∃ (h : HostIx) (v : Fin 49) (c : BitVec 16) (k p ld : Nat) (s u : State), s.isVcsUp h = true ∧ s.binding h v = some (k, p, ld) ∧
      s.o (K.SLOT p) < 24 ∧ (u = (s.updVppb h v (fun b => { b with ctl := c.toNat, ind := bits c.toNat 9 6 })).setO (K.INDICATORS p)
      (bits c.toNat 9 6)) ∧ bit c.toNat 10 ≠ (s.vppb h v).cmdWait.getD (s.vppb h v).pwrOff ∧ u.ownerOf p = some (h.val, v.val)) :=
  ⟨⟨sidSvc 1, 0, 1, run, run, _, _, accepts_of rfl (by decide +kernel), rfl, rfl, by decide +kernel⟩, ⟨sidSvc 1, 0, 1, run, run,
    accepts_of rfl (by decide +kernel), by decide +kernel⟩, ⟨sidSvc 1, 0, 1, run, run, accepts_of rfl (by decide +kernel),
    by decide +kernel⟩, ⟨sidSvc 1, 0, 1, run, run, accepts_of rfl (by decide +kernel), by decide +kernel⟩, ⟨sidSvc 1, 95, 23, (run.setO
    (K.SLOT 0) 23), (run.setO (K.SLOT 0) 23), _, accepts_of rfl (by decide +kernel), rfl, by decide +kernel⟩, ⟨0, run,
    by decide +kernel⟩, ⟨0, 0, 0x400, 1, 5, 0, (({ run with fab := { run.fab with bind := [(0, some (1, 5, 0))] } } : State).setO
    (K.SLOT 5) 0), _, by decide +kernel, by decide +kernel, by decide +kernel, rfl, by decide +kernel⟩, ⟨0, 0, 0, 1, 5, 0,
    ((({ run with fab := { run.fab with bind := [(0, some (1, 5, 0))] } } : State).setO (K.SLOT 5) 0).setO (K.ROLE 5) 3).setO
    (K.HP_OWNER 5) 1, _, by decide +kernel, by decide +kernel, by decide +kernel, rfl, by decide +kernel, by decide +kernel⟩⟩

theorem test_PortsClaimedAndSlotsCommanded_met_2 :
    (∃ (s : State) (h v k p ld : Nat), s.binding h v = some (k, p, ld) ∧ s.o (K.SLOT p) < 24 ∧ s.ownerOf p = some (h, v) ∧ s.powerBusy
      (s.o (K.SLOT p)) = false ∧ s.hkServes = true)
    ∧ (∃ (s : State) (h v k p ld : Nat), s.binding h v = some (k, p, ld) ∧ s.o (K.SLOT p) < 24 ∧ s.ownerOf p = some (h, v) ∧ s.powerBusy
      (s.o (K.SLOT p)) = true)
    ∧ (∃ (n : SlotIx) (t : Nat) (s u : State), (s.slot n).perstAt = some t ∧ (s.slot n).state = .on ∧ (u = (s.advance t).updSlot n (fun
      x => { x with perst := false, perstAt := none })) ∧ u.slotPort n = none)
    ∧ (∃ (n : SlotIx) (t p : Nat) (s u : State), (s.slot n).perstAt = some t ∧ (s.slot n).state = .on ∧ (u = (s.advance t).updSlot n
      (fun x => { x with perst := false, perstAt := none })) ∧ u.slotPort n = some p ∧ u.tileHeld (tileOf p) = false)
    ∧ (∃ (n : SlotIx) (t : Nat) (s : State), (s.slot n).offDueAt = some t ∧ s.slotOwner n = none)
    ∧ (∃ (h : HostIx) (v : Fin 49) (k p ld : Nat) (s u : State), s.isVcsUp h = true ∧ s.binding h v = some (k, p, ld) ∧ k ≠ 2 ∧
      (s.boundIn p).length = 1 ∧ (u = (s.portDown p .managed).updVppb h v (fun b => { b with linkDis := true, linkView := false })))
    ∧ (∃ (h : HostIx) (v : Fin 49) (k p ld : Nat) (s u : State), s.isVcsUp h = true ∧ s.binding h v = some (k, p, ld) ∧ ((s.boundIn
      p).length ≠ 1 ∨ k = 2) ∧ (u = ((s.updVppb h v (fun b => { b with linkView := false })).vppbStatus h v [8]).updVppb h v (fun b =>
      { b with linkDis := true, linkView := false })))
    ∧ (∃ (h : HostIx) (v : Fin 49) (k p ld : Nat) (s u : State), s.isVcsUp h = true ∧ s.binding h v = some (k, p, ld) ∧ (u = s.updVppb h
      v (fun b => { b with linkDis := false })) ∧ u.tileHeld (tileOf p) = false) :=
  ⟨⟨((({ run with fab := { run.fab with bind := [(0, some (1, 5, 0))] } } : State).setO (K.SLOT 5) 0).setO (K.ROLE 5) 3).setO
    (K.HP_OWNER 5) 1, 0, 0, 1, 5, 0, by decide +kernel, by decide +kernel, by decide +kernel, by decide +kernel, by decide +kernel⟩,
    ⟨(((({ run with fab := { run.fab with bind := [(0, some (1, 5, 0))] } } : State).setO (K.SLOT 5) 0).setO (K.ROLE 5) 3).setO
    (K.HP_OWNER 5) 1).updSlot 0 (fun x => { x with onWaits := true }), 0, 0, 1, 5, 0, by decide +kernel, by decide +kernel,
    by decide +kernel, by decide +kernel⟩, ⟨0, 10 ^ 12, (run).updSlot 0 (fun x => { x with perstAt := some (10 ^ 12), state := .on }),
    _, by decide +kernel, by decide +kernel, rfl, by decide +kernel⟩, ⟨0, 10 ^ 12, 5,
    (((({ run with fab := { run.fab with bind := [(0, some (1, 5, 0))] } } : State).setO (K.SLOT 5) 0).setO (K.ROLE 5) 3).setO
    (K.HP_OWNER 5) 1).updSlot 0 (fun x => { x with perstAt := some (10 ^ 12), state := .on }), _, by decide +kernel, by decide +kernel,
    rfl, by decide +kernel, by decide +kernel⟩, ⟨0, 10 ^ 12, (run).updSlot 0 (fun x => { x with offDueAt := some (10 ^ 12) }),
    by decide +kernel, by decide +kernel⟩, ⟨0, 0, 1, 5, 0, { run with fab := { run.fab with bind := [(0, some (1, 5, 0))] } }, _,
    by decide +kernel, by decide +kernel, by decide +kernel, by decide +kernel, rfl⟩, ⟨0, 0, 2, 5, 0,
    { run with fab := { run.fab with bind := [(0, some (2, 5, 0))] } }, _, by decide +kernel, by decide +kernel, by decide +kernel,
    rfl⟩, ⟨0, 0, 1, 5, 0, { run with fab := { run.fab with bind := [(0, some (1, 5, 0))] } }, _, by decide +kernel, by decide +kernel,
    rfl, by decide +kernel⟩⟩

theorem test_PortsClaimedAndSlotsCommanded_met_3 :
    (∃ (p : PortIx) (s : State), s.linkUp p = true)
    ∧ (∃ (id d : Nat) (t : Txn) (s : State), s.txn? id = some t ∧ t.deadline = some d ∧ s.hubHeld = false) :=
  ⟨⟨0, run.setO (K.LINK_UP 0) 1, by decide +kernel⟩, ⟨1, 5,
    { purpose := .port, master := 0, port := 0, dest := 0, write := true, addr := 0, bytes := 64, deadline := some 5 },
    { run with ord := { txn := [(1, some { purpose := .port, master := 0, port := 0, dest := 0, write := true, addr := 0, bytes := 64, deadline := some 5 })] } },
    by decide +kernel, by decide +kernel, by decide +kernel⟩⟩

theorem test_BindingsPublishedAndExtentsMoved_met_1 :
    (∃ (sess : SessRef) (c : BitVec 64) (s u : State) (i : _), s.accepts sess K.BIND_CMD 8 c.toNat u ∧ i ∈ [Instr.bindCmdBind sess c,
      .unbindWaitLinkDown sess c, .unbindManagedHotRemove sess c, .unbindSurpriseHotRemove sess c] ∧ u.bindRefusal c.toNat = 0)
    ∧ (∃ (sess : SessRef) (c : BitVec 64) (s u : State) (i : _), s.accepts sess K.BIND_CMD 8 c.toNat u ∧ i ∈ [Instr.bindCmdBind sess c,
      .unbindWaitLinkDown sess c, .unbindManagedHotRemove sess c, .unbindSurpriseHotRemove sess c] ∧ u.bindRefusal c.toNat ≠ 0)
    ∧ (∃ (c : Nat), (bindFields c).op = 0)
    ∧ (∃ (c : Nat), (bindFields c).op = 1 ∧ (bindFields c).mode = 2)
    ∧ (∃ (b : BindOp) (s u : State), s.fab.bindOp = some b ∧ s.hubHeld = false ∧ b.ready = true ∧ (u = (if b.unbind then s.publishUnbind
      b else s.publishBind b)))
    ∧ (∃ (b : BindOp) (s : State), s.fab.bindOp = some b ∧ b.ready = false)
    ∧ (∃ (b : BindOp) (s u : State), s.fab.bindOp = some b ∧ b.unbind = true ∧ b.ready = false ∧ u = s.advance b.deadline ∧ u.o
      (K.PORT_STATE b.port) ≠ 4)
    ∧ (∃ (sess : SessRef) (c : BitVec 128) (s u : State) (i : _), s.accepts sess K.EXTENT_CMD 16 c.toNat u ∧ i ∈ [Instr.extentAdd sess
      c, .extentReleaseByHost sess c, .extentForcedRelease sess c] ∧ u.extRefusal c.toNat = 0) :=
  ⟨⟨sidSvc 1, 5 * 2 ^ 16, (((run.setO (K.ROLE 5) 3).setO (K.PORT_STATE 5) 3).setO (K.VCS_STATE 0) 1).setO (K.ROLE 0) 1, (((run.setO
    (K.ROLE 5) 3).setO (K.PORT_STATE 5) 3).setO (K.VCS_STATE 0) 1).setO (K.ROLE 0) 1, .bindCmdBind (sidSvc 1) (5 * 2 ^ 16), accepts_of
    rfl (by decide +kernel), by simp, by decide +kernel⟩, ⟨sidSvc 1, 2 ^ 63, run, run, .unbindSurpriseHotRemove (sidSvc 1) (2 ^ 63),
    accepts_of rfl (by decide +kernel), by simp, by decide +kernel⟩, ⟨0, by decide +kernel⟩, ⟨2 ^ 14 + 2 ^ 29, by decide +kernel,
    by decide +kernel⟩, ⟨{ unbind := true, mode := 0, host := 0, vppb := 0, port := 5, ld := 0, tag := 0, ready := true },
    { run with fab := { run.fab with bindOp := some { unbind := true, mode := 0, host := 0, vppb := 0, port := 5, ld := 0, tag := 0, ready := true } } },
    _, by decide +kernel, by decide +kernel, by decide +kernel, rfl⟩,
    ⟨{ unbind := true, mode := 0, host := 0, vppb := 0, port := 5, ld := 0, tag := 0 },
    { run with fab := { run.fab with bindOp := some { unbind := true, mode := 0, host := 0, vppb := 0, port := 5, ld := 0, tag := 0 } } },
    by decide +kernel, by decide +kernel⟩, ⟨{ unbind := true, mode := 0, host := 0, vppb := 0, port := 5, ld := 0, tag := 0 },
    { run with fab := { run.fab with bindOp := some { unbind := true, mode := 0, host := 0, vppb := 0, port := 5, ld := 0, tag := 0 } } },
    _, by decide +kernel, by decide +kernel, by decide +kernel, rfl, by decide +kernel⟩, ⟨sidSvc 1, 2 ^ 6 + 2 ^ 16 + 3 * 2 ^ 48,
    { (run.setO (K.ROLE 0) 1) with fab := { (run.setO (K.ROLE 0) 1).fab with extents := [{ vcs := 0, dpa := 3, target := 5, tgtGib := 7, state := .mapped }], extOp := none } },
    { (run.setO (K.ROLE 0) 1) with fab := { (run.setO (K.ROLE 0) 1).fab with extents := [{ vcs := 0, dpa := 3, target := 5, tgtGib := 7, state := .mapped }], extOp := none } },
    .extentReleaseByHost (sidSvc 1) (2 ^ 6 + 2 ^ 16 + 3 * 2 ^ 48), accepts_of rfl (by decide +kernel), by simp, by decide +kernel⟩⟩

theorem test_BindingsPublishedAndExtentsMoved_met_2 :
    (∃ (sess : SessRef) (c : BitVec 128) (s u : State) (i : _), s.accepts sess K.EXTENT_CMD 16 c.toNat u ∧ i ∈ [Instr.extentAdd sess c,
      .extentReleaseByHost sess c, .extentForcedRelease sess c] ∧ u.extRefusal c.toNat ≠ 0)
    ∧ (∃ (c : Nat), (extFields c).op = 0)
    ∧ (∃ (s u w : State) (o : ExtentOp) (here : Nat → Bool), s.fab.extOp = some o ∧ s.hubHeld = false ∧ o.add = true ∧ o.asked = false ∧
      (here = (fun k => (s.fab.extents.filter (fun x => x.vcs == o.vcs && o.dpa ≤ x.dpa && x.dpa < o.dpa + o.count && x.state =
      .filling)).any (fun x => k / 2 ^ 33 == x.target && k % 2 ^ 33 / 262144 == x.tgtGib))) ∧ (u =
      { s with gd := { s.gd with tag := KMap.keep (fun k => !here k) s.gd.tag, tagLost := KMap.keep (fun k => !here k) s.gd.tagLost } })
      ∧ (w = u.mapExtents o.vcs o.dpa o.count (fun x => some (if x.state = .filling then { x with state := .offered } else x))))
    ∧ (∃ (h : HostIx) (n : Nat) (runs : List (Nat × Nat)) (o : ExtentOp) (s : State), s.fab.extOp = some o ∧ s.hubHeld = false ∧ o.add =
      true ∧ o.asked = true ∧ o.vcs = h.val ∧ s.isVcsUp h = true ∧ runsOk n runs (s.blockOffered h) = true)
    ∧ (∃ (h : HostIx) (n : Nat) (runs : List (Nat × Nat)) (o : ExtentOp) (s : State), s.fab.extOp = some o ∧ s.hubHeld = false ∧ o.add =
      true ∧ o.asked = true ∧ o.vcs = h.val ∧ s.isVcsUp h = true ∧ runsOk n runs (s.blockOffered h) = false)
    ∧ (∃ (h : HostIx) (n : Nat) (runs : List (Nat × Nat)) (s : State), s.hubHeld = false ∧ s.isVcsUp h = true ∧ runsOk n runs
      (s.blockMapped h) = false)
    ∧ (∃ (h : HostIx) (n : Nat) (runs : List (Nat × Nat)) (s u : State), s.hubHeld = false ∧ s.isVcsUp h = true ∧ runsOk n runs
      (s.blockMapped h) = true ∧ (u = runs.foldl (fun (s : State) r => s.unmapBlocks h r.1 r.2) s) ∧ (∀ o, u.fab.extOp = some o → o.add
      = true ∨ o.vcs ≠ h.val ∨ (List.range o.count).any (fun i => u.blockMapped o.vcs (o.dpa + i)) = true))
    ∧ (∃ (l : List (Nat × Nat)) (r : _), r ∈ l) :=
  ⟨⟨sidSvc 1, 0, run, run, .extentAdd (sidSvc 1) 0, accepts_of rfl (by decide +kernel), by simp, by decide +kernel⟩, ⟨0,
    by decide +kernel⟩,
    ⟨{ (run) with fab := { (run).fab with extents := [{ vcs := 0, dpa := 3, target := 5, tgtGib := 7, state := .filling }], extOp := some { add := true, vcs := 0, dpa := 3, count := 1, tag := 0, asked := false } } },
    _, _, { add := true, vcs := 0, dpa := 3, count := 1, tag := 0, asked := false }, _, by decide +kernel, by decide +kernel,
    by decide +kernel, by decide +kernel, rfl, rfl, rfl⟩, ⟨0, 1, [(3, 1)],
    { add := true, vcs := 0, dpa := 3, count := 1, tag := 0, asked := true },
    { (run) with fab := { (run).fab with extents := [{ vcs := 0, dpa := 3, target := 5, tgtGib := 7, state := .offered }], extOp := some { add := true, vcs := 0, dpa := 3, count := 1, tag := 0, asked := true } } },
    by decide +kernel, by decide +kernel, by decide +kernel, by decide +kernel, by decide +kernel, by decide +kernel,
    by decide +kernel⟩, ⟨0, 2, [(3, 1)], { add := true, vcs := 0, dpa := 3, count := 1, tag := 0, asked := true },
    { (run) with fab := { (run).fab with extents := [{ vcs := 0, dpa := 3, target := 5, tgtGib := 7, state := .offered }], extOp := some { add := true, vcs := 0, dpa := 3, count := 1, tag := 0, asked := true } } },
    by decide +kernel, by decide +kernel, by decide +kernel, by decide +kernel, by decide +kernel, by decide +kernel,
    by decide +kernel⟩, ⟨0, 1, [(3, 1)], run, by decide +kernel, by decide +kernel, by decide +kernel⟩, ⟨0, 1, [(3, 1)],
    { (run) with fab := { (run).fab with extents := [{ vcs := 0, dpa := 3, target := 5, tgtGib := 7, state := .releasing }], extOp := none } },
    _, by decide +kernel, by decide +kernel, by decide +kernel, rfl, by decide +kernel⟩, ⟨[(3, 1)], (3, 1), by decide +kernel⟩⟩

theorem test_BindingsPublishedAndExtentsMoved_met_3 :
    ∃ (o : ExtentOp) (s : State), s.fab.extOp = some o ∧ s.hubHeld = false ∧ o.asked = true ∧ s.isVcsUp o.vcs = true :=
  ⟨{ add := true, vcs := 0, dpa := 3, count := 1, tag := 0, asked := true },
    { (run) with fab := { (run).fab with extents := [{ vcs := 0, dpa := 3, target := 5, tgtGib := 7, state := .offered }], extOp := some { add := true, vcs := 0, dpa := 3, count := 1, tag := 0, asked := true } } },
    by decide +kernel, by decide +kernel, by decide +kernel, by decide +kernel⟩

theorem test_PowerWarningsAndFlush_met_1 :
    (∃ (s : State), s.st.porHeld = false ∧ s.pw.vbusWarn = false)
    ∧ (∃ (s : State), s.st.porHeld = false ∧ s.pw.vbusWarn = true)
    ∧ (∃ (n : SlotIx) (s u : State), s.st.porHeld = false ∧ (s.slot n).warn = false ∧ (u = (s.updSlot n (fun x =>
      { x with warn := true, warnSeen := true, warnAt := s.now })).raiseCore (458 + 3 * n) 1 0x10 false (spcOf n)))
    ∧ (∃ (n : SlotIx) (s u : State), s.st.porHeld = false ∧ (s.slot n).warn = true ∧ (u = (s.updSlot n (fun x =>
      { x with warn := false })).raiseCore (458 + 3 * n) 1 0x11 false (spcOf n)))
    ∧ (∃ (s u w : State), s.pw.win ≠ [] ∧ s.hubHeld = false ∧ u = { s with pw := { s.pw with win := [] } } ∧ (w = (if s.pw.win.any
      (·.gpf) then u.startFlush else u)))
    ∧ (∃ (s : State), (s.pw.win = [] ∨ s.hubHeld = true))
    ∧ (∃ (s u : State) (clear : Bool) (src : Nat) (e : WarnEv), s.hubHeld = false ∧ e =
      { clear := clear, src := src, stamp := s.ct, state := s.ctState, gpf := !clear && s.cB K.GPF_ENABLE && !s.pw.gpf.running && !s.pw.win.any (·.gpf) }
      ∧ (u = (if s.pw.win ≠ [] ∧ s.pw.winAt + 6 * Config.fclk ≤ s.now then s.buildWarnings else s)))
    ∧ (∃ (h : HostIx) (s : State), s.hubHeld = false ∧ s.isVcsUp h = true ∧ s.pw.gpf.running = true ∧ s.pw.gpf.phase2.contains h.val =
      false) :=
  ⟨⟨run, by decide +kernel, by decide +kernel⟩, ⟨{ (run) with pw := { (run).pw with vbusWarn := true } }, by decide +kernel,
    by decide +kernel⟩, ⟨0, run, _, by decide +kernel, by decide +kernel, rfl⟩, ⟨0, (run).updSlot 0 (fun x => { x with warn := true }),
    _, by decide +kernel, by decide +kernel, rfl⟩,
    ⟨{ (run) with pw := { (run).pw with win := [{ clear := false, src := 24, stamp := 5, state := 1, gpf := true }] } }, _, _,
    by decide +kernel, by decide +kernel, rfl, rfl⟩, ⟨run, by decide +kernel⟩, ⟨run, _, false, 24, _, by decide +kernel, rfl, rfl⟩, ⟨0,
    { (run) with pw := { (run).pw with gpf := { running := true } } }, by decide +kernel, by decide +kernel, by decide +kernel,
    by decide +kernel⟩⟩

theorem test_PowerWarningsAndFlush_met_2 :
    (∃ (m : TargetIx) (p : Nat) (s u : State), s.targetPort m = some p ∧ s.hubHeld = false ∧ s.linkUp p = true ∧
      s.pw.gpf.forwarded.contains m.val = false ∧ s.writesIssued m p = true ∧ s.poolBound m = true ∧ s.pw.gpf.running = true ∧
      s.pw.gpf.waitOver = true ∧ u =
      { s with pw := { s.pw with gpf := { s.pw.gpf with forwarded := m.val :: s.pw.gpf.forwarded, limit := KMap.set none s.pw.gpf.limit m (s.flushLimit p) } } })
    ∧ (∃ (m : TargetIx) (p : Nat) (s u : State), s.targetPort m = some p ∧ s.hubHeld = false ∧ s.linkUp p = true ∧
      s.pw.gpf.forwarded.contains m.val = false ∧ s.writesIssued m p = true ∧ s.poolBound m = false ∧ s.boundIn p ≠ [] ∧ ((s.flushHosts
      m p).all (fun h => s.pw.gpf.phase2.contains h) = true) ∧ u =
      { s with pw := { s.pw with gpf := { s.pw.gpf with forwarded := m.val :: s.pw.gpf.forwarded, limit := KMap.set none s.pw.gpf.limit m (s.flushLimit p) } } })
    ∧ (∃ (s u : State), s.pw.gpf.running = true ∧ s.pw.gpf.waitOver = false ∧ s.hubHeld = false ∧ (s.flushTargets.any (fun m =>
      s.poolBound m && !s.pw.gpf.forwarded.contains m && !((s.flushHosts m ((s.targetPort m).getD 0)).all (fun h =>
      s.pw.gpf.phase2.contains h))) = true) ∧ u = s.advance (s.pw.gpf.startedAt + s.c K.GPF_HOST_WAIT * Config.us))
    ∧ (∃ (m : TargetIx) (s : State), s.pw.gpf.forwarded.contains m.val = true ∧ s.pw.gpf.completed.contains m.val = false) :=
  ⟨⟨0, 0,
    { ((((((run.setO (K.ROLE 0) 2).setO (K.AGENT 0) 0).setO (K.POOL 0) 1).setO (K.AGENT_KIND 0) 2).setO (K.PORT_STATE 0) 2).setO (K.LINK_UP 0) 1) with pw := { ((((((run.setO (K.ROLE 0) 2).setO (K.AGENT 0) 0).setO (K.POOL 0) 1).setO (K.AGENT_KIND 0) 2).setO (K.PORT_STATE 0) 2).setO (K.LINK_UP 0) 1).pw with gpf := { running := true, waitOver := true } } },
    _, by decide +kernel, by decide +kernel, by decide +kernel, by decide +kernel, by decide +kernel, by decide +kernel,
    by decide +kernel, by decide +kernel, rfl⟩, ⟨0, 5,
    { (({ run with fab := { run.fab with bind := [(0, some (1, 5, 0))] } } : State).setO (K.ROLE 5) 2 |>.setO (K.AGENT 5) 0 |>.setO (K.LINK_UP 5) 1) with pw := { (({ run with fab := { run.fab with bind := [(0, some (1, 5, 0))] } } : State).setO (K.ROLE 5) 2 |>.setO (K.AGENT 5) 0 |>.setO (K.LINK_UP 5) 1).pw with gpf := { running := true, phase2 := [0] } } },
    _, by decide +kernel, by decide +kernel, by decide +kernel, by decide +kernel, by decide +kernel, by decide +kernel,
    by decide +kernel, by decide +kernel, rfl⟩,
    ⟨{ (withC (withC (withC ((((((run.setO (K.ROLE 0) 2).setO (K.AGENT 0) 0).setO (K.POOL 0) 1).setO (K.AGENT_KIND 0) 2).setO (K.PORT_STATE 0) 2).setO (K.LINK_UP 0) 1) (K.WIN_ENABLE 0) 1) (K.PRIMARY_TARGET 0) 0) (K.HOSTS 0) 1) with pw := { (withC (withC (withC ((((((run.setO (K.ROLE 0) 2).setO (K.AGENT 0) 0).setO (K.POOL 0) 1).setO (K.AGENT_KIND 0) 2).setO (K.PORT_STATE 0) 2).setO (K.LINK_UP 0) 1) (K.WIN_ENABLE 0) 1) (K.PRIMARY_TARGET 0) 0) (K.HOSTS 0) 1).pw with gpf := { running := true } } },
    _, by decide +kernel, by decide +kernel, by decide +kernel, by decide +kernel, rfl⟩, ⟨0,
    { (run) with pw := { (run).pw with gpf := { forwarded := [0] } } }, by decide +kernel, by decide +kernel⟩⟩

theorem test_SlicesCommandedAndDescriptorsRun_met_1 :
    (∃ (sess : SessRef) (c : BitVec 512) (s u : State) (i : _), s.accepts sess K.SLICE_CMD 64 c.toNat u ∧ u.sliceRefusal c.toNat [] = 0
      ∧ i ∈ [Instr.sliceCreate sess c, .sliceDestroy sess c, .sliceFreeze sess c, .sliceSave sess c, .sliceThaw sess c])
    ∧ (∃ (sess : SessRef) (c : BitVec 512) (r : List Byte) (s u : State), s.accepts sess K.SLICE_CMD 64 c.toNat u ∧ u.sliceRefusal
      c.toNat r = 0)
    ∧ (∃ (sess : SessRef) (c : BitVec 512) (s u : State), s.accepts sess K.SLICE_CMD 64 c.toNat u ∧ u.sliceRefusal c.toNat [] ≠ 0)
    ∧ (∃ (s u : State) (v : Nat), u = ((s.setO K.SLICE_TAG (bits v 95 80)).setO K.SLICE_RESULT 0).setO K.SLICE_STATE 2 ∧ bits v 7 0 = 1)
    ∧ (∃ (s u : State) (v : Nat), u = ((s.setO K.SLICE_TAG (bits v 95 80)).setO K.SLICE_RESULT 0).setO K.SLICE_STATE 2 ∧ bits v 7 0 = 2)
    ∧ (∃ (s u : State) (v : Nat), u = ((s.setO K.SLICE_TAG (bits v 95 80)).setO K.SLICE_RESULT 0).setO K.SLICE_STATE 2 ∧ bits v 7 0 = 6)
    ∧ (∃ (sl : SliceIx) (s u : State), s.hubHeld = false ∧ u = s.settleSlice sl ∧ (u.slice sl).state = .freezing ∧ (u.slice sl).active =
      none ∧ (u.slice sl).ending = [])
    ∧ (∃ (sl : SliceIx) (a : ActiveDesc) (s u : State), s.hubHeld = false ∧ u = s.settleSlice sl ∧ firstDone [] (u.slice sl).ending =
      some a) :=
  ⟨⟨sidSvc 1, 2, { run with mv := { slice := [(0, { state := .active })] } },
    { run with mv := { slice := [(0, { state := .active })] } }, .sliceDestroy (sidSvc 1) 2, accepts_of rfl (by decide +kernel),
    by decide +kernel, by simp⟩, ⟨sidSvc 1, 2, [], { run with mv := { slice := [(0, { state := .active })] } },
    { run with mv := { slice := [(0, { state := .active })] } }, accepts_of rfl (by decide +kernel), by decide +kernel⟩, ⟨sidSvc 1, 0,
    run, run, accepts_of rfl (by decide +kernel), by decide +kernel⟩, ⟨run, _, 1, rfl, by decide +kernel⟩, ⟨run, _, 2, rfl,
    by decide +kernel⟩, ⟨run, _, 6, rfl, by decide +kernel⟩, ⟨0, { run with mv := { slice := [(0, { state := .freezing })] } }, _,
    by decide +kernel, rfl, by decide +kernel, by decide +kernel, by decide +kernel⟩, ⟨0,
    { desc := { id := 1, raw := 0, queue := 0 }, reads := [] },
    { run with mv := { slice := [(0, { state := .active, ending := [{ desc := { id := 1, raw := 0, queue := 0 }, reads := [] }] })] } },
    _, by decide +kernel, rfl, by decide +kernel⟩⟩

theorem test_SlicesCommandedAndDescriptorsRun_met_2 :
    (∃ (sl : SliceIx) (q : Nat) (d : Desc) (s u : State), s.hubHeld = false ∧ u = s.settleSlice sl ∧ (u.slice sl).state = .active ∧
      (u.slice sl).active = none ∧ (u.slice sl).resume = none ∧ (u.slice sl).nextQueue = some q ∧ ((u.slice sl).pend.find? (fun d =>
      d.queue == q) = some d) ∧ bit d.raw 8 = false ∧ bit d.raw 10 = false)
    ∧ (∃ (e : EngineIx) (sl def_ : Nat) (a : ActiveDesc) (s u w : State), s.hubHeld = false ∧ (s.blk (552 + e)).contain = false ∧
      s.pickSlice e = some (sl, def_) ∧ (s.slice sl).active = some a ∧ KMap.get 0 s.mv.reads e + s.readsNeeded (s.slice sl) a ≤ 256 ∧ u
      = s.noteRun e sl ∧ u.chunkFault sl a = none ∧ (w = u.updSlice sl (fun x =>
      { x with deficit := if a.issued + x.nextLen == a.total && x.pend.isEmpty then 0 else def_ - x.nextLen })))
    ∧ (∃ (id : Nat) (t : Txn) (s : State), s.txn? id = some t ∧ t.purpose = .mover ∧ s.hubHeld = false)
    ∧ (∃ (p : PortIx) (s : State), s.hubHeld = false ∧ s.linkUp (s.lead p) = true ∧ s.o (K.ROLE (s.lead p)) = 1)
    ∧ (∃ (sess : SessRef) (c : BitVec 128) (s u w : State), s.accepts sess K.EVAC_CMD 16 c.toNat u ∧ u.evacRefusal c.toNat = 0 ∧ w =
      ((u.setO K.EVAC_RESULT 0).setO K.EVAC_TAG (bits c.toNat 47 32)).setO K.EVAC_DONE_EXTENTS 0)
    ∧ (∃ (e : Evac) (s : State), s.mv.evac = some e ∧ s.hubHeld = false ∧ (s.fab.extents.filter (fun x => x.target == e.src) = []))
    ∧ (∃ (e : Evac) (x : Extent) (t g since : Nat) (s : State), s.mv.evac = some e ∧ s.hubHeld = false ∧ (s.fab.extents.filter (fun x =>
      x.target == e.src) ≠ []) ∧ pickExtent (s.movable e.src) = some x ∧ x.moveTo = some (t, g) ∧ e.hold = some (x.tgtGib * 262144 +
      x.mark, since) ∧ ((s.extentUsers x).any (fun id => decide (id < since)) = true))
    ∧ (∃ (e : Evac) (x : Extent) (t g since : Nat) (s u : State), s.mv.evac = some e ∧ s.hubHeld = false ∧ (s.fab.extents.filter (fun x
      => x.target == e.src) ≠ []) ∧ pickExtent (s.movable e.src) = some x ∧ x.moveTo = some (t, g) ∧ e.hold = some (x.tgtGib * 262144 +
      x.mark, since) ∧ ((s.extentUsers x).any (fun id => decide (id < since)) = false) ∧ u =
      { s with mv := { s.mv with evac := some { e with hold := none } } } ∧ x.mark + 1 < 262144) :=
  ⟨⟨0, 0, { id := 1, raw := 0, queue := 0 },
    { run with mv := { slice := [(0, { state := .active, queues := 1, qsize := 4, pend := [{ id := 1, raw := 0, queue := 0 }] })] } },
    _, by decide +kernel, rfl, by decide +kernel, by decide +kernel, by decide +kernel, by decide +kernel, by decide +kernel,
    by decide +kernel, by decide +kernel⟩, ⟨0, 0, 4096,
    { desc := { id := 1, raw := 0, queue := 0 }, src := [(0, 64)], dst := [(4096, 64)], total := 64 },
    { run with mv := { slice := [(0, { state := .active, weight := 1, active := some { desc := { id := 1, raw := 0, queue := 0 }, src := [(0, 64)], dst := [(4096, 64)], total := 64 } })] } },
    _, _, by decide +kernel, by decide +kernel, by decide +kernel, by decide +kernel, by decide +kernel, rfl, by decide +kernel, rfl⟩,
    ⟨1, { purpose := .mover, master := 0, port := 0, dest := 0, write := true, addr := 0, bytes := 64, deadline := some 5 },
    { run with ord := { txn := [(1, some { purpose := .mover, master := 0, port := 0, dest := 0, write := true, addr := 0, bytes := 64, deadline := some 5 })] } },
    by decide +kernel, by decide +kernel, by decide +kernel⟩, ⟨0, (run.setO (K.LINK_UP 0) 1).setO (K.ROLE 0) 1, by decide +kernel,
    by decide +kernel, by decide +kernel⟩, ⟨sidSvc 1, 2 ^ 8, twoPools, readyD twoPools (sidSvc 1), _, accepts_of (ready_of
    (by decide +kernel)) (by decide +kernel), by decide +kernel, rfl⟩, ⟨{ src := 0, dst := 1, engine := 0 },
    { run with mv := { evac := some { src := 0, dst := 1, engine := 0 } } }, by decide +kernel, by decide +kernel, by decide +kernel⟩,
    ⟨{ src := 5, dst := 1, engine := 0, hold := some (7 * 262144, 9) },
    { vcs := 0, dpa := 3, target := 5, tgtGib := 7, state := .mapped, moveTo := some (1, 2) }, 1, 2, 9,
    (({ run with mv := { evac := some { src := 5, dst := 1, engine := 0, hold := some (7 * 262144, 9) } }, fab := { run.fab with extents := [{ vcs := 0, dpa := 3, target := 5, tgtGib := 7, state := .mapped, moveTo := some (1, 2) }] }, ord := { txn := [(1, some { purpose := .port, master := 0, port := 0, dest := 5, write := true, addr := 7 * 2 ^ 30, bytes := 64 })] } }
    : State).setO (K.ROLE 5) 2).setO (K.AGENT 5) 5, by decide +kernel, by decide +kernel, by decide +kernel, by decide +kernel,
    by decide +kernel, by decide +kernel, by decide +kernel⟩, ⟨{ src := 5, dst := 1, engine := 0, hold := some (7 * 262144, 1) },
    { vcs := 0, dpa := 3, target := 5, tgtGib := 7, state := .mapped, moveTo := some (1, 2) }, 1, 2, 1,
    { run with mv := { evac := some { src := 5, dst := 1, engine := 0, hold := some (7 * 262144, 1) } }, fab := { run.fab with extents := [{ vcs := 0, dpa := 3, target := 5, tgtGib := 7, state := .mapped, moveTo := some (1, 2) }] } },
    _, by decide +kernel, by decide +kernel, by decide +kernel, by decide +kernel, by decide +kernel, by decide +kernel,
    by decide +kernel, rfl, by decide +kernel⟩⟩

theorem test_SlicesCommandedAndDescriptorsRun_met_3 :
    ∃ (e : Evac) (x : Extent) (t g since : Nat) (s u : State), s.mv.evac = some e ∧ s.hubHeld = false ∧ (s.fab.extents.filter (fun x =>
      x.target == e.src) ≠ []) ∧ pickExtent (s.movable e.src) = some x ∧ x.moveTo = some (t, g) ∧ e.hold = some (x.tgtGib * 262144 +
      x.mark, since) ∧ ((s.extentUsers x).any (fun id => decide (id < since)) = false) ∧ u =
      { s with mv := { s.mv with evac := some { e with hold := none } } } ∧ 262144 ≤ x.mark + 1 :=
  ⟨{ src := 5, dst := 1, engine := 0, hold := some (7 * 262144 + 262143, 1) },
    { vcs := 0, dpa := 3, target := 5, tgtGib := 7, state := .mapped, mark := 262143, moveTo := some (1, 2) }, 1, 2, 1,
    { run with mv := { evac := some { src := 5, dst := 1, engine := 0, hold := some (7 * 262144 + 262143, 1) } }, fab := { run.fab with extents := [{ vcs := 0, dpa := 3, target := 5, tgtGib := 7, state := .mapped, mark := 262143, moveTo := some (1, 2) }] } },
    _, by decide +kernel, by decide +kernel, by decide +kernel, by decide +kernel, by decide +kernel, by decide +kernel,
    by decide +kernel, rfl, by decide +kernel⟩

theorem test_RequestsCheckedInOrder_met_1 :
    (∃ (p : PortIx) (at_ q : Nat) (r : Req) (s u : State), u = s.advance at_ ∧ q = u.lead p ∧ u.gen.switched = none ∧ (u.tileHeld
      (tileOf q) = true ∨ u.carries q = false ∨ u.advertised q (creditClass r.op) < reserved r.pkt r.hdr))
    ∧ (∃ (p : PortIx) (at_ q : Nat) (r : Req) (s u : State), u = s.advance at_ ∧ q = u.lead p ∧ u.gen.switched = none ∧ u.tileHeld
      (tileOf q) = false ∧ u.carries q = true ∧ reserved r.pkt r.hdr ≤ u.advertised q (creditClass r.op))
    ∧ (∃ (at_ x g : Nat) (s u : State), u = s.advance at_ ∧ u.gen.switched = some (x, g) ∧ x / Config.fclk = u.now / Config.fclk)
    ∧ (∃ (p : PortIx) (at_ x q g : Nat) (r : Req) (s u : State), u = s.advance at_ ∧ q = u.lead p ∧ u.gen.switched = some (x, g) ∧ x /
      Config.fclk ≠ u.now / Config.fclk ∧ u.tileHeld (tileOf q) = false ∧ u.carries q = true ∧ reserved r.pkt r.hdr ≤ u.advertised q
      (creditClass r.op))
    ∧ (∃ (q : Nat) (r : Req) (s w : State) (inj : Nat), s.injFire (4 * q + 2) 0 = (inj, w) ∧ (r.parity = false ∨ inj ≠ 0))
    ∧ (∃ (q : Nat) (r : Req) (s w : State), s.injFire (4 * q + 2) 0 = (0, w) ∧ r.parity = true ∧ r.op = .completion)
    ∧ (∃ (q : Nat) (r : Req) (s w : State), s.injFire (4 * q + 2) 0 = (0, w) ∧ r.parity = true ∧ r.op = .viral)
    ∧ (∃ (q : Nat) (c : Colour) (r : Req) (s w t : State), s.injFire (4 * q + 2) 0 = (0, w) ∧ r.parity = true ∧ r.op ≠ .completion ∧
      r.op ≠ .viral ∧ w.police q (w.meteredBytes r.pkt) = (c, t) ∧ w.ingressOf q r = none) :=
  ⟨⟨0, 5, _,
    ({ op := .ioRead, addr := 0, bytes := 64, tc := 0, rid := 0, tag := 0, pasid := none, cacheId := 0, data := 0, mask := 0, pkt := 64, hdr := 16, parity := true }
    : Req), run, _, rfl, rfl, by decide +kernel, by decide +kernel⟩, ⟨0, 10 ^ 12, _,
    ({ op := .ioRead, addr := 0, bytes := 64, tc := 0, rid := 0, tag := 0, pasid := none, cacheId := 0, data := 0, mask := 0, pkt := 64, hdr := 16, parity := true }
    : Req),
    ({ (((run.setO (K.LINK_UP 0) 1).setO (K.ROLE 0) 1).setO (K.PORT_STATE 0) 2) with pl := { adv := [(0, 99), (1, 99), (2, 99), (3, 99)] } }
    : State), _, rfl, rfl, by decide +kernel, by decide +kernel, by decide +kernel, by decide +kernel⟩, ⟨10 ^ 12, 10 ^ 12, 0,
    { ({ (((run.setO (K.LINK_UP 0) 1).setO (K.ROLE 0) 1).setO (K.PORT_STATE 0) 2) with pl := { adv := [(0, 99), (1, 99), (2, 99), (3, 99)] } } : State) with gen := { ({ (((run.setO (K.LINK_UP 0) 1).setO (K.ROLE 0) 1).setO (K.PORT_STATE 0) 2) with pl := { adv := [(0, 99), (1, 99), (2, 99), (3, 99)] } } : State).gen with switched := some (10 ^ 12, 0) } },
    _, rfl, by decide +kernel, by decide +kernel⟩, ⟨0, 10 ^ 12, 0, _, 0,
    ({ op := .ioRead, addr := 0, bytes := 64, tc := 0, rid := 0, tag := 0, pasid := none, cacheId := 0, data := 0, mask := 0, pkt := 64, hdr := 16, parity := true }
    : Req),
    { ({ (((run.setO (K.LINK_UP 0) 1).setO (K.ROLE 0) 1).setO (K.PORT_STATE 0) 2) with pl := { adv := [(0, 99), (1, 99), (2, 99), (3, 99)] } } : State) with gen := { ({ (((run.setO (K.LINK_UP 0) 1).setO (K.ROLE 0) 1).setO (K.PORT_STATE 0) 2) with pl := { adv := [(0, 99), (1, 99), (2, 99), (3, 99)] } } : State).gen with switched := some (0, 0) } },
    _, rfl, rfl, by decide +kernel, by decide +kernel, by decide +kernel, by decide +kernel, by decide +kernel⟩, ⟨0,
    ({ op := .ioRead, addr := 0, bytes := 64, tc := 0, rid := 0, tag := 0, pasid := none, cacheId := 0, data := 0, mask := 0, pkt := 64, hdr := 16, parity := false }
    : Req), run, _, _, rfl, by decide +kernel⟩, ⟨0,
    ({ op := .completion, addr := 0, bytes := 64, tc := 0, rid := 0, tag := 0, pasid := none, cacheId := 0, data := 0, mask := 0, pkt := 64, hdr := 16, parity := true }
    : Req), run, _, rfl, by decide +kernel, by decide +kernel⟩, ⟨0,
    ({ op := .viral, addr := 0, bytes := 64, tc := 0, rid := 0, tag := 0, pasid := none, cacheId := 0, data := 0, mask := 0, pkt := 64, hdr := 16, parity := true }
    : Req), run, _, rfl, by decide +kernel, by decide +kernel⟩, ⟨0, _,
    ({ op := .ioRead, addr := 0, bytes := 64, tc := 0, rid := 0, tag := 0, pasid := none, cacheId := 0, data := 0, mask := 0, pkt := 64, hdr := 16, parity := true }
    : Req), run, _, _, rfl, by decide +kernel, by decide +kernel, by decide +kernel, rfl, by decide +kernel⟩⟩

theorem test_RequestsCheckedInOrder_met_2 :
    (∃ (q n v : Nat) (c : Colour) (r : Req) (s w t : State) (x : Ingress), s.injFire (4 * q + 2) 0 = (0, w) ∧ r.parity = true ∧ r.op ≠
      .completion ∧ r.op ≠ .viral ∧ w.police q (w.meteredBytes r.pkt) = (c, t) ∧ w.ingressOf q r = some (n, v) ∧ x =
      { p := q, n := n, v := v, host := w.o (K.ROLE q) == 1, colour := c, req := r } ∧ r.op = .config)
    ∧ (∃ (q n v : Nat) (c : Colour) (r : Req) (s w t : State) (x : Ingress), s.injFire (4 * q + 2) 0 = (0, w) ∧ r.parity = true ∧ r.op ≠
      .completion ∧ r.op ≠ .viral ∧ w.police q (w.meteredBytes r.pkt) = (c, t) ∧ w.ingressOf q r = some (n, v) ∧ x =
      { p := q, n := n, v := v, host := w.o (K.ROLE q) == 1, colour := c, req := r } ∧ r.op = .message)
    ∧ (∃ (q n v : Nat) (c : Colour) (r : Req) (s w t : State) (x : Ingress), s.injFire (4 * q + 2) 0 = (0, w) ∧ r.parity = true ∧ r.op ≠
      .completion ∧ r.op ≠ .viral ∧ w.police q (w.meteredBytes r.pkt) = (c, t) ∧ w.ingressOf q r = some (n, v) ∧ x =
      { p := q, n := n, v := v, host := w.o (K.ROLE q) == 1, colour := c, req := r } ∧ r.op ≠ .config ∧ r.op ≠ .message) :=
  ⟨⟨0, 0, 0, _,
    ({ op := .config, addr := 0, bytes := 64, tc := 0, rid := 0, tag := 0, pasid := none, cacheId := 0, data := 0, mask := 0, pkt := 64, hdr := 16, parity := true }
    : Req), ({ run with fab := { run.fab with bind := [(0, some (1, 0, 0))] } } : State).setO (K.ROLE 0) 3, _, _, _, rfl,
    by decide +kernel, by decide +kernel, by decide +kernel, rfl, by decide +kernel, rfl, by decide +kernel⟩, ⟨0, 0, 0, _,
    ({ op := .message, addr := 0, bytes := 64, tc := 0, rid := 0, tag := 0, pasid := none, cacheId := 0, data := 0, mask := 0, pkt := 64, hdr := 16, parity := true }
    : Req), ({ run with fab := { run.fab with bind := [(0, some (1, 0, 0))] } } : State).setO (K.ROLE 0) 3, _, _, _, rfl,
    by decide +kernel, by decide +kernel, by decide +kernel, rfl, by decide +kernel, rfl, by decide +kernel⟩, ⟨0, 0, 0, _,
    ({ op := .ioRead, addr := 0, bytes := 64, tc := 0, rid := 0, tag := 0, pasid := none, cacheId := 0, data := 0, mask := 0, pkt := 64, hdr := 16, parity := true }
    : Req), ({ run with fab := { run.fab with bind := [(0, some (1, 0, 0))] } } : State).setO (K.ROLE 0) 3, _, _, _, rfl,
    by decide +kernel, by decide +kernel, by decide +kernel, rfl, by decide +kernel, rfl, by decide +kernel, by decide +kernel⟩⟩

theorem test_GenerationsCommittedConfirmedRolledBack_met_1 :
    (∃ (sess : SessRef) (v : Byte) (s u w : State), s.accepts sess K.GEN_COMMIT 1 v.toNat u ∧ u.o K.DRAFT_STATE = 1 ∧ u.o K.DRAFT_OWNER
      = sess ∧ u.o K.GEN_STATE = 0 ∧ u.hubHeld = false ∧ u.commitChecks u.gen.draft = (0, w) ∧ guardsDiffer w.gen.active w.gen.draft =
      false)
    ∧ (∃ (sess : SessRef) (v : Byte) (s u : State), s.accepts sess K.GEN_COMMIT 1 v.toNat u ∧ u.o K.DRAFT_STATE ≠ 1)
    ∧ (∃ (sess : SessRef) (v : Byte) (s u : State), s.accepts sess K.GEN_COMMIT 1 v.toNat u ∧ u.o K.DRAFT_STATE = 1 ∧ u.o K.DRAFT_OWNER
      ≠ sess)
    ∧ (∃ (sess : SessRef) (v : Byte) (s u : State), s.accepts sess K.GEN_COMMIT 1 v.toNat u ∧ u.o K.DRAFT_STATE = 1 ∧ u.o K.DRAFT_OWNER
      = sess ∧ u.o K.GEN_STATE ≠ 0) :=
  ⟨⟨_, 1, drafted, drafted, drafted, accepts_of rfl (by decide +kernel), by decide +kernel, rfl, by decide +kernel, by decide +kernel,
    drafted_passes, drafted_guards⟩, ⟨sidSvc 1, 1, run, run, accepts_of rfl (by decide +kernel), by decide +kernel⟩, ⟨sidSvc 1, 1,
    run.setO K.DRAFT_STATE 1, run.setO K.DRAFT_STATE 1, accepts_of rfl (by decide +kernel), by decide +kernel, by decide +kernel⟩, ⟨_,
    1, ((run.setO K.DRAFT_STATE 1).setO K.DRAFT_OWNER (sidSvc 1)).setO K.GEN_STATE 1, ((run.setO K.DRAFT_STATE 1).setO K.DRAFT_OWNER
    (sidSvc 1)).setO K.GEN_STATE 1, accepts_of rfl (by decide +kernel), by decide +kernel, rfl, by decide +kernel⟩⟩

theorem test_GenerationsCommittedConfirmedRolledBack_met_2 :
    (∃ (sess : SessRef) (v : Byte) (s u : State), s.accepts sess K.GEN_COMMIT 1 v.toNat u ∧ u.o K.DRAFT_STATE = 1 ∧ u.o K.DRAFT_OWNER =
      sess ∧ u.o K.GEN_STATE = 0 ∧ u.hubHeld = true)
    ∧ (∃ (sess : SessRef) (v : Byte) (s u : State), s.accepts sess K.GEN_CONFIRM 1 v.toNat u ∧ u.o K.GEN_STATE = 1 ∧ u.now <
      u.gen.confirmAt)
    ∧ (∃ (sess : SessRef) (v : Byte) (s u : State), s.accepts sess K.GEN_ROLLBACK 1 v.toNat u ∧ u.o K.GEN_STATE = 1 ∧ u.gen.confirmAt ≤
      u.now)
    ∧ (∃ (sess : SessRef) (v : Byte) (s u : State), s.accepts sess K.GEN_ROLLBACK 1 v.toNat u ∧ u.o K.GEN_STATE ≠ 2 ∧ (u.o K.GEN_STATE =
      1 → u.now < u.gen.confirmAt) ∧ u.o K.PREV_KEPT = 1) :=
  ⟨⟨_, 1,
    { ((run.setO K.DRAFT_STATE 1).setO K.DRAFT_OWNER (sidSvc 1)) with st := { ((run.setO K.DRAFT_STATE 1).setO K.DRAFT_OWNER (sidSvc 1)).st with hubIn := true } },
    { ((run.setO K.DRAFT_STATE 1).setO K.DRAFT_OWNER (sidSvc 1)) with st := { ((run.setO K.DRAFT_STATE 1).setO K.DRAFT_OWNER (sidSvc 1)).st with hubIn := true } },
    accepts_of rfl (by decide +kernel), by decide +kernel, rfl, by decide +kernel, by decide +kernel⟩, ⟨sidSvc 1, 1,
    { (run.setO K.GEN_STATE 1) with gen := { (run.setO K.GEN_STATE 1).gen with confirmAt := 10 ^ 12 + 1 } },
    { (run.setO K.GEN_STATE 1) with gen := { (run.setO K.GEN_STATE 1).gen with confirmAt := 10 ^ 12 + 1 } }, accepts_of rfl
    (by decide +kernel), by decide +kernel, by decide +kernel⟩, ⟨sidSvc 1, 1,
    { (run.setO K.GEN_STATE 1) with gen := { (run.setO K.GEN_STATE 1).gen with confirmAt := 10 ^ 12 } },
    { (run.setO K.GEN_STATE 1) with gen := { (run.setO K.GEN_STATE 1).gen with confirmAt := 10 ^ 12 } }, accepts_of rfl
    (by decide +kernel), by decide +kernel, by decide +kernel⟩, ⟨sidSvc 1, 1, run.setO K.PREV_KEPT 1, run.setO K.PREV_KEPT 1, accepts_of
    rfl (by decide +kernel), by decide +kernel, by decide +kernel, by decide +kernel⟩⟩

theorem test_GenerationsCommittedConfirmedRolledBack_met_3 :
    (∃ (sess : SessRef) (v : Byte) (s u : State), s.accepts sess K.GEN_ROLLBACK 1 v.toNat u ∧ u.o K.GEN_STATE = 2)
    ∧ (∃ (sess : SessRef) (v : Byte) (s u : State), s.accepts sess K.GEN_ROLLBACK 1 v.toNat u ∧ u.o K.GEN_STATE = 0 ∧ u.o K.PREV_KEPT ≠
      1)
    ∧ (∃ (sess : SessRef) (v : Byte) (s u : State), s.accepts sess K.DRAFT_DISCARD 1 v.toNat u ∧ u.o K.DRAFT_STATE = 1 ∧ u.o
      K.DRAFT_OWNER = sess)
    ∧ (∃ (s : State), s.o K.GEN_STATE = 1 ∧ s.islandUp = true) :=
  ⟨⟨sidSvc 1, 1, run.setO K.GEN_STATE 2, run.setO K.GEN_STATE 2, accepts_of rfl (by decide +kernel), by decide +kernel⟩, ⟨sidSvc 1, 1,
    run, run, accepts_of rfl (by decide +kernel), by decide +kernel, by decide +kernel⟩, ⟨_, 1, (run.setO K.DRAFT_STATE 1).setO
    K.DRAFT_OWNER (sidSvc 1), (run.setO K.DRAFT_STATE 1).setO K.DRAFT_OWNER (sidSvc 1), accepts_of rfl (by decide +kernel),
    by decide +kernel, rfl⟩, ⟨run.setO K.GEN_STATE 1, by decide +kernel, by decide +kernel⟩⟩

theorem test_GenerationsCommittedConfirmedRolledBack_met_4 :
    (∃ (s : State), s.o K.DRAFT_STATE = 1 ∧ s.islandUp = true)
    ∧ (∃ (s u : State), s.gen.commitDue = true ∧ s.genHeld = false ∧ u = (s.advance (s.itemAt 7)).publishCommit)
    ∧ (∃ (s u : State), s.gen.commitDue = false ∧ s.gen.rollbackDue = true ∧ s.genHeld = false ∧ u = (s.advance (s.itemAt
      7)).publishRollback)
    ∧ (∃ (s : State), s.genHeld = true) :=
  ⟨⟨run.setO K.DRAFT_STATE 1, by decide +kernel, by decide +kernel⟩,
    ⟨{ run with tm := { run.tm with ticks := 3 }, gen := { run.gen with commitDue := true } }, _, by decide +kernel, by decide +kernel,
    rfl⟩, ⟨{ run with tm := { run.tm with ticks := 3 }, gen := { run.gen with rollbackDue := true } }, _, by decide +kernel,
    by decide +kernel, by decide +kernel, rfl⟩, ⟨{ run with st := { run.st with hubIn := true } }, by decide +kernel⟩⟩

theorem test_GenerationsCommittedConfirmedRolledBack_met_5 :
    (∃ (s : State), s.hubHeld = false ∧ s.tm.overrun = false ∧ s.itemRuns 7 = true ∧ s.dueNow s.gd.genAt = false ∧ s.nextEpochClear =
      true ∧ (s.dueNow s.gd.sliceAt = true ∨ s.dueNow s.gd.tagAt = true))
    ∧ (∃ (s : State), s.gen.commitDue = false ∧ s.gen.rollbackDue = false)
    ∧ (∃ (s u w x : State), s.hubHeld = false ∧ s.gen.published = false ∧ s.st.recovery = false ∧ (u = [1, 2, 3, 4].foldl (fun (s :
      State) k => match (s.part k).active with | some i => if s.mayRun k i then s else s.fallBack k | none => s) s) ∧ (w = (List.range
      16).foldl (fun (s : State) w => if winOn s.gen.active w && s.o (K.STATE w) == 0 then s.setWinState w 1 else s)
      { u with gen := { u.gen with published := true } }) ∧ (x = (List.range 96).foldl (fun (s : State) p => s.startTraining p) w)) :=
  ⟨⟨{ run with tm := { run.tm with ticks := 3 }, gd := { sliceAt := some 1 } }, by decide +kernel, by decide +kernel, by decide +kernel,
    by decide +kernel, by decide +kernel, by decide +kernel⟩, ⟨run, by decide +kernel, by decide +kernel⟩, ⟨run, _, _, _,
    by decide +kernel, by decide +kernel, by decide +kernel, rfl, rfl, rfl⟩⟩

theorem test_ObjectsAndRegistersAccessed_met_1 :
    (∃ (sess : SessRef) (s u : State), s.sessionFor sess = .ready u)
    ∧ (∃ (sess : SessRef) (s : State), s.sessionFor sess = .silent)
    ∧ (∃ (sess : SessRef) (v : Word64) (s u : State), s.accepts sess K.FEAT_REQUEST 8 v.toNat u)
    ∧ (∃ (s : State), s.hubHeld = true)
    ∧ (∃ (b : Bool) (s u : State), s.hubHeld = false ∧ s.finishItems.countTick.passBoundary.endSlow.stateCheck b = (false, u))
    ∧ (∃ (b : Bool) (s u : State), s.hubHeld = false ∧ s.finishItems.countTick.passBoundary.endSlow.stateCheck b = (true, u))
    ∧ (∃ (s : State) (k : Nat) (f : State → Nat → Bool), s.tm.item + 1 = k ∧ s.itemRuns k = true ∧ f s k = true)
    ∧ (∃ (c : CoreIx) (die : DieIx) (off : Word32) (n v : Nat) (s u : State), s.csrAllowed (.core c) die = true ∧ s.csrGet (.core c) die
      off.toNat n = (v, u)) :=
  ⟨⟨sidSvc 1, run, run, by rfl⟩, ⟨sidSvc 9, run, by rfl⟩, ⟨sidSvc 1, 0, run, run, accepts_of rfl (by decide +kernel)⟩,
    ⟨{ run with st := { run.st with hubIn := true } }, by decide +kernel⟩, ⟨false, run,
    (run.finishItems.countTick.passBoundary.endSlow.stateCheck false).2, by decide +kernel, pair (by decide +kernel)⟩, ⟨true, run,
    (run.finishItems.countTick.passBoundary.endSlow.stateCheck true).2, by decide +kernel, pair (by decide +kernel)⟩, ⟨run, 7, fun _ _
    => true, by decide +kernel, by decide +kernel, by decide +kernel⟩, ⟨0, 4, 0, 4, _, run, _, by decide +kernel, rfl⟩⟩

theorem test_ObjectsAndRegistersAccessed_met_2 :
    (∃ (sess : SessRef) (die : DieIx) (off : Word32) (n v : Nat) (s u : State), s.csrAllowed (.service sess) die = true ∧ s.csrGet
      (.service sess) die off.toNat n = (v, u))
    ∧ (∃ (via : CsrVia) (die : DieIx) (off : Word32) (n : Nat) (s : State), s.csrOpen via die = true ∧ csrMisaligned off.toNat n =
      false)
    ∧ (∃ (via : CsrVia) (die : DieIx) (s : State), s.csrAllowed via die = true ∧ s.dieUp die = false)
    ∧ (∃ (key j : Nat), j ≠ key) :=
  ⟨⟨sidSvc 1, 7, 0, 4, _, run, _, by decide +kernel, rfl⟩, ⟨.service (sidSvc 1), 0, 4, 4, run, by decide +kernel, by decide +kernel⟩,
    ⟨.service (sidSvc 1), 0, { run with st := { run.st with tileHeld := [(0, true)] } }, by decide +kernel, by decide +kernel⟩, ⟨1, 2,
    by decide +kernel⟩⟩

theorem test_CanFramesServed_met_1 :
    (∃ (s u : State), s.islandUp = true ∧ u = s.incO K.FRAMES_RX ∧ u.onBus = true)
    ∧ (∃ (d : List Byte) (s u : State), s.islandUp = true ∧ u = s.incO K.FRAMES_RX ∧ u.onBus = true ∧ d.length = 12 ∧ zeroAt d 9 3 =
      true ∧ 1 ≤ byteAt d 8 ∧ byteAt d 8 ≤ 0x5F ∧ u.o K.ADDR_MODE = 2 ∧ leAt d 0 8 = u.life.fuses.serial)
    ∧ (∃ (s u : State), s.mg.phase = .listening ∧ s.islandUp = true ∧ u = s.advance s.mg.addrAt)
    ∧ (∃ (s u : State), s.mg.phase = .retryWait ∧ s.islandUp = true ∧ u = s.advance s.mg.addrAt)
    ∧ (∃ (st : Fin 3) (tec rc : Byte) (s u : State), s.islandUp = true ∧ u = ((s.setO K.CAN_STATE st.val).setO K.TEC tec.toNat).setO
      K.REC rc.toNat ∧ s.o K.CAN_STATE = st.val)
    ∧ (∃ (st : Fin 3) (tec rc : Byte) (s u : State), s.islandUp = true ∧ u = ((s.setO K.CAN_STATE st.val).setO K.TEC tec.toNat).setO
      K.REC rc.toNat ∧ s.o K.CAN_STATE ≠ st.val ∧ st.val = 0)
    ∧ (∃ (st : Fin 3) (tec rc : Byte) (s u : State), s.islandUp = true ∧ u = ((s.setO K.CAN_STATE st.val).setO K.TEC tec.toNat).setO
      K.REC rc.toNat ∧ s.o K.CAN_STATE ≠ st.val ∧ st.val = 1)
    ∧ (∃ (st : Fin 3) (tec rc : Byte) (s u : State), s.islandUp = true ∧ u = ((s.setO K.CAN_STATE st.val).setO K.TEC tec.toNat).setO
      K.REC rc.toNat ∧ s.o K.CAN_STATE ≠ st.val ∧ st.val = 2) :=
  ⟨⟨run, _, by decide +kernel, rfl, by decide +kernel⟩, ⟨[1, 0, 0, 0, 0, 0, 0, 0, 0x5F, 0, 0, 0], (run.setO K.NODE_ADDR 7).setO
    K.ADDR_MODE 2, _, by decide +kernel, rfl, by decide +kernel, by decide +kernel, by decide +kernel, by decide +kernel,
    by decide +kernel, by decide +kernel, by decide +kernel⟩, ⟨{ (run) with mg := { (run).mg with phase := .listening } }, _,
    by decide +kernel, by decide +kernel, rfl⟩, ⟨{ (run) with mg := { (run).mg with phase := .retryWait } }, _, by decide +kernel,
    by decide +kernel, rfl⟩, ⟨0, 1, 1, run, _, by decide +kernel, rfl, by decide +kernel⟩, ⟨0, 1, 1, run.setO K.CAN_STATE 1, _,
    by decide +kernel, rfl, by decide +kernel, by decide +kernel⟩, ⟨1, 1, 1, run, _, by decide +kernel, rfl, by decide +kernel,
    by decide +kernel⟩, ⟨2, 1, 1, run, _, by decide +kernel, rfl, by decide +kernel, by decide +kernel⟩⟩

theorem test_CanFramesServed_met_2 :
    (∃ (s u : State), s.islandUp = true ∧ u = s.incO K.FRAMES_RX)
    ∧ (∃ (src : BitVec 7) (d : List Byte) (s u : State), (s.frameSeen src.toNat).sessionFor (sidCan src.toNat) = .ready u ∧ d.length = 8
      ∧ zeroAt d 3 5 = true)
    ∧ (∃ (src : BitVec 7) (d : List Byte) (s u : State), (s.frameSeen src.toNat).sessionFor (sidCan src.toNat) = .ready u ∧ d.length ≠
      8)
    ∧ (∃ (src : BitVec 7) (d : List Byte) (s u : State), (s.frameSeen src.toNat).sessionFor (sidCan src.toNat) = .ready u ∧ 1 ≤ byteAt d
      3 ∧ byteAt d 3 ≤ 56 ∧ zeroAt d 4 4 = true ∧ canFits d (8 + byteAt d 3) = true)
    ∧ (∃ (src : BitVec 7) (d : List Byte) (s u : State), (s.frameSeen src.toNat).sessionFor (sidCan src.toNat) = .ready u ∧ byteAt d 3 =
      0)
    ∧ (∃ (src : BitVec 7) (d : List Byte) (s u : State), (s.frameSeen src.toNat).sessionFor (sidCan src.toNat) = .ready u ∧ segInitOk d
      = true ∧ bit (u.session (sidCan src.toNat)).feat 1 = true ∧ u.seg? src.toNat = none ∧ u.mg.seg.length < 4)
    ∧ (∃ (src : BitVec 7) (d : List Byte) (s u : State), (s.frameSeen src.toNat).sessionFor (sidCan src.toNat) = .ready u ∧ d.length = 8
      ∧ byteAt d 3 = 0)
    ∧ (∃ (src : BitVec 7) (txn : BitVec 6) (d : List Byte) (x : Seg) (s u : State), (s.frameSeen src.toNat).sessionFor (sidCan
      src.toNat) = .ready u ∧ u.seg? src.toNat = some x ∧ x.txn = txn.toNat ∧ x.write = true ∧ 1 ≤ byteAt d 2 ∧ byteAt d 2 ≤ 60 ∧
      canFits d (4 + byteAt d 2) = true ∧ byteAt d 3 = 0 ∧ byteAt d 1 ≤ 1 ∧ 1 ≤ byteAt d 0 ∧ byteAt d 0 ≤ 16) :=
  ⟨⟨run, _, by decide +kernel, rfl⟩, ⟨9, [0, 16, 1, 0, 0, 0, 0, 0], run.setO K.NODE_ADDR 7, readyD ((run.setO K.NODE_ADDR 7 :
    State).frameSeen 9) (sidCan 9), ready_of (by decide +kernel), by decide +kernel, by decide +kernel⟩, ⟨9, [], run.setO K.NODE_ADDR 7,
    readyD ((run.setO K.NODE_ADDR 7 : State).frameSeen 9) (sidCan 9), ready_of (by decide +kernel), by decide +kernel⟩, ⟨9, [0, 16, 1,
    1, 0, 0, 0, 0, 5, 0, 0, 0], run.setO K.NODE_ADDR 7, readyD ((run.setO K.NODE_ADDR 7 : State).frameSeen 9) (sidCan 9), ready_of
    (by decide +kernel), by decide +kernel, by decide +kernel, by decide +kernel, by decide +kernel⟩, ⟨9, [0, 16, 1, 0, 0, 0, 0, 0],
    run.setO K.NODE_ADDR 7, readyD ((run.setO K.NODE_ADDR 7 : State).frameSeen 9) (sidCan 9), ready_of (by decide +kernel),
    by decide +kernel⟩, ⟨9, [0, 16, 1, 0, 5, 0, 0, 0, 0, 0, 0, 0, 0, 0, 0, 0],
    { (run.setO K.NODE_ADDR 7) with mg := { run.mg with sess := [(sidCan 9, some { role := 1, feat := 3, lastAt := 10 ^ 12 })] } },
    readyD
    (({ (run.setO K.NODE_ADDR 7) with mg := { run.mg with sess := [(sidCan 9, some { role := 1, feat := 3, lastAt := 10 ^ 12 })] } } :
    State).frameSeen 9) (sidCan 9), ready_of (by decide +kernel), by decide +kernel, by decide +kernel, by decide +kernel,
    by decide +kernel⟩, ⟨9, [0, 16, 1, 0, 0, 0, 0, 0], run.setO K.NODE_ADDR 7, readyD ((run.setO K.NODE_ADDR 7 : State).frameSeen 9)
    (sidCan 9), ready_of (by decide +kernel), by decide +kernel, by decide +kernel⟩, ⟨9, 3, [1, 0, 60, 0, 7, 7, 7, 7, 7, 7, 7, 7, 7, 7,
    7, 7, 7, 7, 7, 7, 7, 7, 7, 7, 7, 7, 7, 7, 7, 7, 7, 7, 7, 7, 7, 7, 7, 7, 7, 7, 7, 7, 7, 7, 7, 7, 7, 7, 7, 7, 7, 7, 7, 7, 7, 7, 7, 7,
    7, 7, 7, 7, 7, 7], { write := true, key := 0x100001, txn := 3, size := 9, crc := 0 },
    { (run.setO K.NODE_ADDR 7) with mg := { run.mg with sess := [(sidCan 9, some { role := 1, feat := 3, lastAt := 10 ^ 12 })], seg := [(sidCan 9, some { write := true, key := 0x100001, txn := 3, size := 9, crc := 0 })] } },
    readyD
    (({ (run.setO K.NODE_ADDR 7) with mg := { run.mg with sess := [(sidCan 9, some { role := 1, feat := 3, lastAt := 10 ^ 12 })], seg := [(sidCan 9, some { write := true, key := 0x100001, txn := 3, size := 9, crc := 0 })] } }
    : State).frameSeen 9) (sidCan 9), ready_of (by decide +kernel), by decide +kernel, by decide +kernel, by decide +kernel,
    by decide +kernel, by decide +kernel, by decide +kernel, by decide +kernel, by decide +kernel, by decide +kernel,
    by decide +kernel⟩⟩

theorem test_CanFramesServed_met_3 :
    (∃ (src : BitVec 7) (txn : BitVec 6) (d : List Byte) (x : Seg) (s u : State), (s.frameSeen src.toNat).sessionFor (sidCan src.toNat)
      = .ready u ∧ u.seg? src.toNat = some x ∧ x.txn = txn.toNat ∧ x.write = false ∧ d.length = 8 ∧ zeroAt d 2 6 = true ∧ byteAt d 1 ≤
      1)
    ∧ (∃ (src : BitVec 7) (s u : State), (s.frameSeen src.toNat).sessionFor (sidCan src.toNat) = .ready u ∧ u.seg? src.toNat = none)
    ∧ (∃ (src : BitVec 7) (x : Seg) (s : State), s.seg? src.toNat = some x ∧ s.canServes = true ∧ x.ackDue = true)
    ∧ (∃ (src : BitVec 7) (x : Seg) (s : State), s.seg? src.toNat = some x ∧ s.canServes = true)
    ∧ (∃ (k : Fin 32) (r : OdRow) (x : Session) (v : Nat) (s u : State), odRow? (s.o (K.NTF_OBJECT k)) = some r ∧ s.sess? (sidCan (s.o
      (K.NTF_DEST k))) = some x ∧ s.sampled (s.o (K.NTF_OBJECT k)) r = some v ∧ bit x.feat 2 = true ∧ s.o (K.NTF_ON_CHANGE k) ≠ 1 ∧
      s.canServes = true ∧ u = { s with mg := { s.mg with lastSent := KMap.set none s.mg.lastSent k (some v) } })
    ∧ (∃ (sess : SessRef) (x : Session) (s : State), s.sess? sess = some x ∧ (sidPath sess = 1 ∨ sidPath sess = 3) ∧ s.islandUp = true) :=
  ⟨⟨9, 3, [1, 0, 0, 0, 0, 0, 0, 0], { write := false, key := 0x100001, txn := 3, size := 9, crc := 0 },
    { (run.setO K.NODE_ADDR 7) with mg := { run.mg with sess := [(sidCan 9, some { role := 1, feat := 3, lastAt := 10 ^ 12 })], seg := [(sidCan 9, some { write := false, key := 0x100001, txn := 3, size := 9, crc := 0 })] } },
    readyD
    (({ (run.setO K.NODE_ADDR 7) with mg := { run.mg with sess := [(sidCan 9, some { role := 1, feat := 3, lastAt := 10 ^ 12 })], seg := [(sidCan 9, some { write := false, key := 0x100001, txn := 3, size := 9, crc := 0 })] } }
    : State).frameSeen 9) (sidCan 9), ready_of (by decide +kernel), by decide +kernel, by decide +kernel, by decide +kernel,
    by decide +kernel, by decide +kernel, by decide +kernel⟩, ⟨9, run.setO K.NODE_ADDR 7, readyD ((run.setO K.NODE_ADDR 7 :
    State).frameSeen 9) (sidCan 9), ready_of (by decide +kernel), by decide +kernel⟩, ⟨9,
    { write := true, key := 0x100001, txn := 3, size := 9, crc := 0, ackDue := true },
    { (run.setO K.NODE_ADDR 7) with mg := { run.mg with sess := [(sidCan 9, some { role := 1, feat := 3, lastAt := 10 ^ 12 })], seg := [(sidCan 9, some { write := true, key := 0x100001, txn := 3, size := 9, crc := 0, ackDue := true })] } },
    by decide +kernel, by decide +kernel, by decide +kernel⟩, ⟨9,
    { write := true, key := 0x100001, txn := 3, size := 9, crc := 0, ackDue := true },
    { (run.setO K.NODE_ADDR 7) with mg := { run.mg with sess := [(sidCan 9, some { role := 1, feat := 3, lastAt := 10 ^ 12 })], seg := [(sidCan 9, some { write := true, key := 0x100001, txn := 3, size := 9, crc := 0, ackDue := true })] } },
    by decide +kernel, by decide +kernel⟩, ⟨0, (rowOf K.GEN_STATE), { role := 1, feat := 7, lastAt := 10 ^ 12 }, 0,
    { (((run.setO K.NODE_ADDR 7).setO (K.NTF_OBJECT 0) K.GEN_STATE).setO (K.NTF_DEST 0) 9).setO (K.NTF_ON_CHANGE 0) 0 with mg := { run.mg with sess := [(sidCan 9, some { role := 1, feat := 7, lastAt := 10 ^ 12 })] } },
    _, by decide +kernel, by decide +kernel, by decide +kernel, by decide +kernel, by decide +kernel, by decide +kernel, rfl⟩, ⟨sidSvc
    1, { role := 3, feat := 2 ^ 64 - 1, lastAt := 10 ^ 12 }, run, by decide +kernel, by decide +kernel, by decide +kernel⟩⟩

theorem test_MailboxCommandsAnswered_met_1 :
    (∃ (h : HostIx) (s u : State), s.mboxTakes h u)
    ∧ (∃ (h : HostIx) (s u : State), s.mboxTakes h u)
    ∧ (∃ (h : HostIx) (s u : State), s.mboxTakes h u)
    ∧ (∃ (h : HostIx) (s u : State) (n : Byte), s.mboxTakes h u ∧ 8 ≤ n.toNat ∧ n.toNat ≤ 20) :=
  ⟨⟨0, run, boxed run, ⟨by decide +kernel, rfl⟩⟩, ⟨0, run, boxed run, ⟨by decide +kernel, rfl⟩⟩, ⟨0, run, boxed run, ⟨by decide +kernel,
    rfl⟩⟩, ⟨0, run, boxed run, 20, ⟨by decide +kernel, rfl⟩, by decide +kernel, by decide +kernel⟩⟩

theorem test_MailboxCommandsAnswered_met_2 :
    (∃ (h : HostIx) (s u : State) (n : Byte), s.mboxTakes h u ∧ n.toNat < 8)
    ∧ (∃ (h : HostIx) (s u : State) (l : BitVec 128) (o n : Nat), s.mboxTakes h u ∧ l.toNat = effectsLog ∧ 1 ≤ n ∧ o + n ≤
      (u.effectsBytes h).length ∧ n ≤ 16384)
    ∧ (∃ (h : HostIx) (s u : State), s.mboxTakes h u)
    ∧ (∃ (h : HostIx) (s u : State), s.mboxTakes h u) :=
  ⟨⟨0, run, boxed run, 7, ⟨by decide +kernel, rfl⟩, by decide +kernel⟩, ⟨0, run, boxed run, BitVec.ofNat 128 effectsLog, 0, 1,
    ⟨by decide +kernel, rfl⟩, by decide +kernel, by decide +kernel, by decide +kernel, by decide +kernel⟩, ⟨0, run, boxed run,
    ⟨by decide +kernel, rfl⟩⟩, ⟨0, run, boxed run, ⟨by decide +kernel, rfl⟩⟩⟩

theorem test_MailboxCommandsAnswered_met_3 :
    (∃ (h : HostIx) (s u : State), s.fmTakes h u)
    ∧ (∃ (h : HostIx) (s u : State), s.fmTakes h u)
    ∧ (∃ (h : HostIx) (s u : State), s.fmTakes h u)
    ∧ (∃ (h : HostIx) (s u : State), s.fmTakes h u) :=
  ⟨⟨0, run, boxed run, ⟨⟨by decide +kernel, rfl⟩, by decide +kernel⟩⟩, ⟨0, run, boxed run, ⟨⟨by decide +kernel, rfl⟩,
    by decide +kernel⟩⟩, ⟨0, run, boxed run, ⟨⟨by decide +kernel, rfl⟩, by decide +kernel⟩⟩, ⟨0, run, boxed run, ⟨⟨by decide +kernel,
    rfl⟩, by decide +kernel⟩⟩⟩

theorem test_MailboxCommandsAnswered_met_4 :
    (∃ (h : HostIx) (s u : State) (n : HostIx), s.fmTakes h u ∧ u.vcsExists n = true)
    ∧ (∃ (h : HostIx) (s u : State) (n : HostIx) (v : Fin 49), s.fmTakes h u ∧ v.val < 32 ∧ u.isVcsUp n = true)
    ∧ (∃ (h : HostIx) (p : PortIx) (s u : State), s.fmTakes h u ∧ u.dieUp (tileOf p) = true)
    ∧ (∃ (h : HostIx) (p : PortIx) (s u : State), s.fmTakes h u ∧ u.dieUp (tileOf p) = false) :=
  ⟨⟨0, run.setO (K.ROLE 0) 1, (run.setO (K.ROLE 0) 1 : State).updSess (sidMailbox 0) (fun x => { x with lastAt := run.now }), 0,
    ⟨⟨by decide +kernel, rfl⟩, by decide +kernel⟩, by decide +kernel⟩, ⟨0, run, boxed run, 0, 0, ⟨⟨by decide +kernel, rfl⟩,
    by decide +kernel⟩, by decide +kernel, by decide +kernel⟩, ⟨0, 0, run, boxed run, ⟨⟨by decide +kernel, rfl⟩, by decide +kernel⟩,
    by decide +kernel⟩, ⟨0, 0, { run with st := { run.st with tileHeld := [(0, true)] } },
    ({ run with st := { run.st with tileHeld := [(0, true)] } } : State).updSess (sidMailbox 0) (fun x => { x with lastAt := run.now }),
    ⟨⟨by decide +kernel, rfl⟩, by decide +kernel⟩, by decide +kernel⟩⟩

theorem test_MailboxCommandsAnswered_met_5 :
    (∃ (h : HostIx) (p : PortIx) (s u : State) (op : Byte), s.fmTakes h u ∧ op.toNat = 2 ∧ u.portBusy p = false ∧ u.tileHeld (tileOf p)
      = false)
    ∧ (∃ (h : HostIx) (s u : State) (op : Byte), s.fmTakes h u ∧ op.toNat ≠ 2)
    ∧ (∃ (h : HostIx) (p : PortIx) (s u : State), s.fmTakes h u ∧ u.o (K.ROLE p) = 2 ∧ u.linkUp p = true)
    ∧ (∃ (h : HostIx) (p : PortIx) (s u : State) (d : List Byte) (w : State), s.fmTakes h u ∧ u.o (K.ROLE p) = 2 ∧ (u.o (K.AGENT_KIND p)
      = 3 ∨ u.o (K.POOL p) = 1) ∧ u.linkUp p = true ∧ w = ((u.emit .card p (7 :: d.map (·.toNat))).mbox h 0 [u.freeVal]).freeNext ∧ (w.o
      (K.AGENT_KIND p) ≠ 3 ∨ setsLds d = false)) :=
  ⟨⟨0, 0, run, boxed run, 2, ⟨⟨by decide +kernel, rfl⟩, by decide +kernel⟩, by decide +kernel, by decide +kernel, by decide +kernel⟩,
    ⟨0, run, boxed run, 1, ⟨⟨by decide +kernel, rfl⟩, by decide +kernel⟩, by decide +kernel⟩, ⟨0, 0, ((run.setO (K.ROLE 0) 2).setO
    (K.LINK_UP 0) 1).setO (K.POOL 0) 1, (((run.setO (K.ROLE 0) 2).setO (K.LINK_UP 0) 1).setO (K.POOL 0) 1 : State).updSess (sidMailbox
    0) (fun x => { x with lastAt := run.now }), ⟨⟨by decide +kernel, rfl⟩, by decide +kernel⟩, by decide +kernel, by decide +kernel⟩,
    ⟨0, 0, ((run.setO (K.ROLE 0) 2).setO (K.LINK_UP 0) 1).setO (K.POOL 0) 1, (((run.setO (K.ROLE 0) 2).setO (K.LINK_UP 0) 1).setO
    (K.POOL 0) 1 : State).updSess (sidMailbox 0) (fun x => { x with lastAt := run.now }), [], _, ⟨⟨by decide +kernel, rfl⟩,
    by decide +kernel⟩, by decide +kernel, by decide +kernel, by decide +kernel, rfl, by decide +kernel⟩⟩

theorem test_MailboxCommandsAnswered_met_6 :
    (∃ (h : HostIx) (p : PortIx) (s u : State) (d : List Byte) (w : State), s.fmTakes h u ∧ u.o (K.ROLE p) = 2 ∧ (u.o (K.AGENT_KIND p) =
      3 ∨ u.o (K.POOL p) = 1) ∧ u.linkUp p = true ∧ w = ((u.emit .card p (7 :: d.map (·.toNat))).mbox h 0 [u.freeVal]).freeNext ∧ w.o
      (K.AGENT_KIND p) = 3 ∧ setsLds d = true ∧ w.linkUp p = true)
    ∧ (∃ (h : HostIx) (p : PortIx) (s u : State), s.fmTakes h u ∧ u.o (K.ROLE p) ≠ 2)
    ∧ (∃ (h : HostIx) (c : BitVec 64) (r : OdRow) (s u : State), s.fmTakes h u ∧ odRow? K.BIND_CMD = some r ∧ u.mayWrite (sidMailbox h)
      r K.BIND_CMD = true ∧ u.lcPermits K.BIND_CMD c.toNat = true ∧ u.bindRefusal c.toNat = 0 ∧ bits c.toNat 15 14 = 0)
    ∧ (∃ (h : HostIx) (c : BitVec 64) (r : OdRow) (s u : State), s.fmTakes h u ∧ odRow? K.BIND_CMD = some r ∧ u.mayWrite (sidMailbox h)
      r K.BIND_CMD = true ∧ u.lcPermits K.BIND_CMD c.toNat = true ∧ u.bindRefusal c.toNat = 0 ∧ bits c.toNat 15 14 = 1) :=
  ⟨⟨0, 0, ((run.setO (K.ROLE 0) 2).setO (K.LINK_UP 0) 1).setO (K.AGENT_KIND 0) 3, (((run.setO (K.ROLE 0) 2).setO (K.LINK_UP 0) 1).setO
    (K.AGENT_KIND 0) 3 : State).updSess (sidMailbox 0) (fun x => { x with lastAt := run.now }), [0, 0, 0, 2, 0x54], _,
    ⟨⟨by decide +kernel, rfl⟩, by decide +kernel⟩, by decide +kernel, by decide +kernel, by decide +kernel, rfl, by decide +kernel,
    by decide +kernel, by decide +kernel⟩, ⟨0, 0, run, boxed run, ⟨⟨by decide +kernel, rfl⟩, by decide +kernel⟩, by decide +kernel⟩, ⟨0,
    5 * 2 ^ 16, (rowOf K.BIND_CMD),
    { (((run.setO (K.ROLE 0) 1).setO (K.ROLE 5) 3).setO (K.PORT_STATE 5) 3) with mg := { run.mg with sess := [(sidMailbox 0, some { role := 2, feat := 1, lastAt := 10 ^ 12 })] } },
    ({ (((run.setO (K.ROLE 0) 1).setO (K.ROLE 5) 3).setO (K.PORT_STATE 5) 3) with mg := { run.mg with sess := [(sidMailbox 0, some { role := 2, feat := 1, lastAt := 10 ^ 12 })] } }
    : State).updSess (sidMailbox 0) (fun x => { x with lastAt := run.now }), ⟨⟨by decide +kernel, rfl⟩, by decide +kernel⟩, some_getD _
    (by decide +kernel), by decide +kernel, by decide +kernel, by decide +kernel, by decide +kernel⟩, ⟨0, 2 ^ 14, (rowOf K.BIND_CMD),
    { (({ ((run.setO (K.ROLE 0) 1).setO (K.ROLE 5) 3).setO (K.PORT_STATE 5) 3 with fab := { run.fab with bind := [(0, some (1, 5, 0))] } })) with mg := { run.mg with sess := [(sidMailbox 0, some { role := 2, feat := 1, lastAt := 10 ^ 12 })] } },
    ({ (({ ((run.setO (K.ROLE 0) 1).setO (K.ROLE 5) 3).setO (K.PORT_STATE 5) 3 with fab := { run.fab with bind := [(0, some (1, 5, 0))] } })) with mg := { run.mg with sess := [(sidMailbox 0, some { role := 2, feat := 1, lastAt := 10 ^ 12 })] } }
    : State).updSess (sidMailbox 0) (fun x => { x with lastAt := run.now }), ⟨⟨by decide +kernel, rfl⟩, by decide +kernel⟩, some_getD _
    (by decide +kernel), by decide +kernel, by decide +kernel, by decide +kernel, by decide +kernel⟩⟩

theorem test_MailboxCommandsAnswered_met_7 :
    (∃ (h : HostIx) (c : BitVec 128) (r : OdRow) (s u : State), s.fmTakes h u ∧ odRow? K.EXTENT_CMD = some r ∧ u.mayWrite (sidMailbox h)
      r K.EXTENT_CMD = true ∧ u.lcPermits K.EXTENT_CMD c.toNat = true ∧ u.extRefusal c.toNat = 0 ∧ bits c.toNat 7 6 = 0)
    ∧ (∃ (h : HostIx) (c : BitVec 128) (r : OdRow) (s u : State), s.fmTakes h u ∧ odRow? K.EXTENT_CMD = some r ∧ u.mayWrite (sidMailbox
      h) r K.EXTENT_CMD = true ∧ u.lcPermits K.EXTENT_CMD c.toNat = true ∧ u.extRefusal c.toNat = 0 ∧ bits c.toNat 7 6 ≠ 0)
    ∧ (∃ (h : HostIx) (s u : State), s.mboxTakes h u ∧ u.c K.FM_HOST ≠ h)
    ∧ (∃ (h : HostIx) (s : State), s.mboxServes h = false) :=
  ⟨⟨0, 2 ^ 16, (rowOf K.EXTENT_CMD),
    { (((((run.setO (K.ROLE 0) 2).setO (K.AGENT 0) 0).setO (K.POOL 0) 1).setO (K.AGENT_KIND 0) 2).setO (K.PORT_STATE 0) 2).setO (K.ROLE 1) 1 with mg := { run.mg with sess := [(sidMailbox 0, some { role := 2, feat := 1, lastAt := 10 ^ 12 })] }, fab := { run.fab with port := [(0, { capGiB := 4 })] } },
    ({ (((((run.setO (K.ROLE 0) 2).setO (K.AGENT 0) 0).setO (K.POOL 0) 1).setO (K.AGENT_KIND 0) 2).setO (K.PORT_STATE 0) 2).setO (K.ROLE 1) 1 with mg := { run.mg with sess := [(sidMailbox 0, some { role := 2, feat := 1, lastAt := 10 ^ 12 })] }, fab := { run.fab with port := [(0, { capGiB := 4 })] } }
    : State).updSess (sidMailbox 0) (fun x => { x with lastAt := run.now }), ⟨⟨by decide +kernel, rfl⟩, by decide +kernel⟩, some_getD _
    (by decide +kernel), by decide +kernel, by decide +kernel, by decide +kernel, by decide +kernel⟩, ⟨0, 2 ^ 6 + 2 ^ 16 + 3 * 2 ^ 48,
    (rowOf K.EXTENT_CMD),
    { (({ (run.setO (K.ROLE 0) 1) with fab := { (run.setO (K.ROLE 0) 1).fab with extents := [{ vcs := 0, dpa := 3, target := 5, tgtGib := 7, state := .mapped }], extOp := none } })) with mg := { run.mg with sess := [(sidMailbox 0, some { role := 2, feat := 1, lastAt := 10 ^ 12 })] } },
    ({ (({ (run.setO (K.ROLE 0) 1) with fab := { (run.setO (K.ROLE 0) 1).fab with extents := [{ vcs := 0, dpa := 3, target := 5, tgtGib := 7, state := .mapped }], extOp := none } })) with mg := { run.mg with sess := [(sidMailbox 0, some { role := 2, feat := 1, lastAt := 10 ^ 12 })] } }
    : State).updSess (sidMailbox 0) (fun x => { x with lastAt := run.now }), ⟨⟨by decide +kernel, rfl⟩, by decide +kernel⟩, some_getD _
    (by decide +kernel), by decide +kernel, by decide +kernel, by decide +kernel, by decide +kernel⟩, ⟨0, withC run K.FM_HOST 3, (withC
    run K.FM_HOST 3 : State).updSess (sidMailbox 0) (fun x => { x with lastAt := run.now }), ⟨by decide +kernel, rfl⟩,
    by decide +kernel⟩, ⟨0, State.reset, by decide +kernel⟩⟩

theorem test_ServicePortServed_met_1 :
    (∃ (f : SvcFrame) (s : State), s.svcServes = true ∧ f.version = 1 ∧ f.session.toNat = 0 ∧ f.fits 0 = true)
    ∧ (∃ (f : SvcFrame) (s : State), s.svcServes = true ∧ f.version = 1 ∧ f.session.toNat = 0 ∧ f.fits 0 = true ∧ 4 ≤ (s.sessionsOn
      3).length)
    ∧ (∃ (f : SvcFrame) (s : State) (u : _), s.svcServes = true ∧ f.version = 1 ∧ f.session.toNat = 0 ∧ f.fits 0 = true ∧ (s.sessionsOn
      3).length < 4 ∧ u = s.openSession (sidSvc s.svcFresh))
    ∧ (∃ (f : SvcFrame) (s : State), s.svcServes = true ∧ f.version = 1 ∧ f.session.toNat = 0 ∧ f.fits 0 = false) :=
  ⟨⟨{ version := 1, session := 0, seq := 1, length := 0, status := 0, rsv := 0, payload := [] }, run, by decide +kernel,
    by decide +kernel, by decide +kernel, by decide +kernel⟩,
    ⟨{ version := 1, session := 0, seq := 1, length := 0, status := 0, rsv := 0, payload := [] },
    { run with mg := { run.mg with sess := [(sidSvc 1, some {}), (sidSvc 2, some {}), (sidSvc 3, some {}), (sidSvc 4, some {})] } },
    by decide +kernel, by decide +kernel, by decide +kernel, by decide +kernel, by decide +kernel⟩,
    ⟨{ version := 1, session := 0, seq := 1, length := 0, status := 0, rsv := 0, payload := [] }, run, _, by decide +kernel,
    by decide +kernel, by decide +kernel, by decide +kernel, by decide +kernel, rfl⟩,
    ⟨{ version := 1, session := 0, seq := 1, length := 1, status := 0, rsv := 0, payload := [] }, run, by decide +kernel,
    by decide +kernel, by decide +kernel, by decide +kernel⟩⟩

theorem test_ServicePortServed_met_2 :
    (∃ (f : SvcFrame) (n : Nat) (s u : State) (h : SvcHead) (p : List Byte), s.svcTakes f u ∧ n = f.session.toNat ∧ f = h.frame p ∧
      f.fits 0 = true)
    ∧ (∃ (f : SvcFrame) (n : Nat) (s u : State) (h : SvcHead) (p : List Byte), s.svcTakes f u ∧ n = f.session.toNat ∧ f = h.frame p ∧
      f.fits 0 = false)
    ∧ (∃ (f : SvcFrame) (n : Nat) (s u : State) (h : SvcHead) (ix : BitVec 16) (sub rv : Byte) (off len : Word32) (sz : Nat) (d : List
      Byte) (w : State), s.svcTakes f u ∧ n = f.session.toNat ∧ f = h.frame (toBytes 2 ix.toNat ++ [sub, rv] ++ toBytes 4 off.toNat ++
      toBytes 4 len.toNat) ∧ f.fits 12 = true ∧ f.at_ 3 1 = 0 ∧ 1 ≤ f.at_ 8 4 ∧ f.at_ 8 4 ≤ 1468 ∧ u.odReadPart (sidSvc n) f.key (f.at_
      4 4) (f.at_ 8 4) = (odOk, sz, d, w))
    ∧ (∃ (f : SvcFrame) (n : Nat) (s u : State) (h : SvcHead) (ix : BitVec 16) (sub rv : Byte) (off len : Word32), s.svcTakes f u ∧ n =
      f.session.toNat ∧ f = h.frame (toBytes 2 ix.toNat ++ [sub, rv] ++ toBytes 4 off.toNat ++ toBytes 4 len.toNat) ∧ (1468 < f.at_ 8 4
      ∨ f.fits 12 = false)) :=
  ⟨⟨_, _, run, _, { version := 1, session := 1, seq := 1, length := 0, status := 0, rsv := 0 }, [], svcTakes_of (by decide +kernel),
    rfl, rfl, by decide +kernel⟩, ⟨_, _, run, _, { version := 1, session := 1, seq := 1, length := 1, status := 0, rsv := 0 }, [0],
    svcTakes_of (by decide +kernel), rfl, rfl, by decide +kernel⟩, ⟨_, _, run, _,
    { version := 1, session := 1, seq := 1, length := 12, status := 0, rsv := 0 }, 0x0300, 2, 0, 0, 1, ((run.updSess (sidSvc 1) (fun x
    => { x with lastAt := run.now })).odReadPart (sidSvc 1) (odKey 0x0300 2) 0 1).2.1, ((run.updSess (sidSvc 1) (fun x =>
    { x with lastAt := run.now })).odReadPart (sidSvc 1) (odKey 0x0300 2) 0 1).2.2.1, ((run.updSess (sidSvc 1) (fun x =>
    { x with lastAt := run.now })).odReadPart (sidSvc 1) (odKey 0x0300 2) 0 1).2.2.2, svcTakes_of (by decide +kernel), rfl, rfl,
    by decide +kernel, by decide +kernel, by decide +kernel, by decide +kernel, parts (by decide +kernel)⟩, ⟨_, _, run, _,
    { version := 1, session := 1, seq := 1, length := 12, status := 0, rsv := 0 }, 0x1000, 1, 0, 0, 1469, svcTakes_of
    (by decide +kernel), rfl, rfl, by decide +kernel⟩⟩

theorem test_ServicePortServed_met_3 :
    (∃ (f : SvcFrame) (n : Nat) (s u : State) (h : SvcHead) (ix : BitVec 16) (sub rv : Byte) (off : Word32) (rest : List Byte) (a :
      OdAns) (w : State), s.svcTakes f u ∧ n = f.session.toNat ∧ f = h.frame (toBytes 2 ix.toNat ++ [sub, rv] ++ toBytes 4 off.toNat ++
      rest) ∧ f.fits (12 + f.at_ 8 4) = true ∧ f.at_ 3 1 = 0 ∧ f.at_ 8 4 ≠ 0 ∧ odWriteForm f.key (f.at_ 4 4) (f.at_ 8 4) = true ∧
      u.odPut (sidSvc n) f.key (f.data.drop 12) = (a, w))
    ∧ (∃ (f : SvcFrame) (n : Nat) (s u : State) (h : SvcHead) (die : Byte) (rv : BitVec 24) (off : Word32), s.svcTakes f u ∧ n =
      f.session.toNat ∧ f = h.frame ([die] ++ toBytes 3 rv.toNat ++ toBytes 4 off.toNat) ∧ f.csrOk 8 = true ∧ u.csrAllowed (.service
      (sidSvc n)) (f.at_ 0 1) = true)
    ∧ (∃ (f : SvcFrame) (n : Nat) (s u : State) (h : SvcHead) (die : Byte) (rv : BitVec 24) (off : Word32), s.svcTakes f u ∧ n =
      f.session.toNat ∧ f = h.frame ([die] ++ toBytes 3 rv.toNat ++ toBytes 4 off.toNat) ∧ f.csrOk 8 = true ∧ u.csrAllowed (.service
      (sidSvc n)) (f.at_ 0 1) = false)
    ∧ (∃ (f : SvcFrame) (n : Nat) (s u : State) (h : SvcHead) (die : Byte) (rv : BitVec 24) (off val : Word32), s.svcTakes f u ∧ n =
      f.session.toNat ∧ f = h.frame ([die] ++ toBytes 3 rv.toNat ++ toBytes 4 off.toNat ++ toBytes 4 val.toNat) ∧ f.csrOk 12 = true ∧
      u.csrAllowed (.service (sidSvc n)) (f.at_ 0 1) = true) :=
  ⟨⟨_, _, run, _, { version := 1, session := 1, seq := 1, length := 13, status := 0, rsv := 0 }, 0x0300, 2, 0, 0, [1, 0, 0, 0, 5],
    ((run.updSess (sidSvc 1) (fun x => { x with lastAt := run.now })).odPut (sidSvc 1) (odKey 0x0300 2) [5]).1, ((run.updSess (sidSvc 1)
    (fun x => { x with lastAt := run.now })).odPut (sidSvc 1) (odKey 0x0300 2) [5]).2, svcTakes_of (by decide +kernel), rfl, rfl,
    by decide +kernel, by decide +kernel, by decide +kernel, by decide +kernel, by decide +kernel⟩, ⟨_, _, run, _,
    { version := 1, session := 1, seq := 1, length := 8, status := 0, rsv := 0 }, 7, 0, 0, svcTakes_of (by decide +kernel), rfl, rfl,
    by decide +kernel, by decide +kernel⟩, ⟨_, _,
    { run with mg := { run.mg with sess := [(sidSvc 1, some { role := 2, feat := 2 ^ 64 - 1, lastAt := 10 ^ 12, blob := none })] } }, _,
    { version := 1, session := 1, seq := 1, length := 8, status := 0, rsv := 0 }, 7, 0, 0, svcTakes_of (by decide +kernel), rfl, rfl,
    by decide +kernel, by decide +kernel⟩, ⟨_, _, run, _, { version := 1, session := 1, seq := 1, length := 12, status := 0, rsv := 0 },
    7, 0, 0, 0, svcTakes_of (by decide +kernel), rfl, rfl, by decide +kernel, by decide +kernel⟩⟩

theorem test_ServicePortServed_met_4 :
    (∃ (f : SvcFrame) (n : Nat) (s u : State) (h : SvcHead) (die : Byte) (rv : BitVec 24) (off val : Word32), s.svcTakes f u ∧ n =
      f.session.toNat ∧ f = h.frame ([die] ++ toBytes 3 rv.toNat ++ toBytes 4 off.toNat ++ toBytes 4 val.toNat) ∧ f.csrOk 12 = true ∧
      u.csrAllowed (.service (sidSvc n)) (f.at_ 0 1) = false)
    ∧ (∃ (f : SvcFrame) (n : Nat) (s u : State) (h : SvcHead) (p : List Byte), s.svcTakes f u ∧ n = f.session.toNat ∧ f = h.frame p)
    ∧ (∃ (f : SvcFrame) (n : Nat) (s u : State) (h : SvcHead) (kd : Byte) (rv : BitVec 24) (tot c : Word32), s.svcTakes f u ∧ n =
      f.session.toNat ∧ f = h.frame ([kd] ++ toBytes 3 rv.toNat ++ toBytes 4 tot.toNat ++ toBytes 4 c.toNat) ∧ f.fits 12 = true ∧ f.at_
      1 3 = 0 ∧ u.blobBeginStatus n (f.at_ 0 1) (f.at_ 4 4) = 0)
    ∧ (∃ (f : SvcFrame) (n : Nat) (s u : State) (h : SvcHead) (kd : Byte) (rv : BitVec 24) (tot c : Word32), s.svcTakes f u ∧ n =
      f.session.toNat ∧ f = h.frame ([kd] ++ toBytes 3 rv.toNat ++ toBytes 4 tot.toNat ++ toBytes 4 c.toNat) ∧ f.fits 12 = true ∧ f.at_
      1 3 = 0 ∧ u.blobBeginStatus n (f.at_ 0 1) (f.at_ 4 4) ≠ 0) :=
  ⟨⟨_, _,
    { run with mg := { run.mg with sess := [(sidSvc 1, some { role := 2, feat := 2 ^ 64 - 1, lastAt := 10 ^ 12, blob := none })] } }, _,
    { version := 1, session := 1, seq := 1, length := 12, status := 0, rsv := 0 }, 7, 0, 0, 0, svcTakes_of (by decide +kernel), rfl,
    rfl, by decide +kernel, by decide +kernel⟩, ⟨_, _, run, _,
    { version := 1, session := 1, seq := 1, length := 0, status := 0, rsv := 0 }, [], svcTakes_of (by decide +kernel), rfl, rfl⟩, ⟨_, _,
    run, _, { version := 1, session := 1, seq := 1, length := 12, status := 0, rsv := 0 }, 0, 0, 0x1000, 0, svcTakes_of
    (by decide +kernel), rfl, rfl, by decide +kernel, by decide +kernel, by decide +kernel⟩, ⟨_, _, run, _,
    { version := 1, session := 1, seq := 1, length := 12, status := 0, rsv := 0 }, 0, 0, 0, 0, svcTakes_of (by decide +kernel), rfl,
    rfl, by decide +kernel, by decide +kernel, by decide +kernel⟩⟩

theorem test_ServicePortServed_met_5 :
    (∃ (f : SvcFrame) (n : Nat) (s u : State) (h : SvcHead) (off len : Word32) (dat d : List Byte) (b : Blob), s.svcTakes f u ∧ n =
      f.session.toNat ∧ f = h.frame (toBytes 4 off.toNat ++ toBytes 4 len.toNat ++ dat) ∧ f.fits (8 + f.at_ 4 2) = true ∧ f.at_ 6 2 = 0
      ∧ d = f.data.drop 8 ∧ d ≠ [] ∧ u.blob? n = some b ∧ b.kind ≠ 0 ∧ b.state = 1 ∧ f.at_ 0 4 = b.data.length ∧ f.at_ 0 4 + d.length ≤
      b.total)
    ∧ (∃ (f : SvcFrame) (n : Nat) (s u : State) (h : SvcHead) (off len : Word32) (dat d : List Byte) (b : Blob), s.svcTakes f u ∧ n =
      f.session.toNat ∧ f = h.frame (toBytes 4 off.toNat ++ toBytes 4 len.toNat ++ dat) ∧ f.fits (8 + f.at_ 4 2) = true ∧ f.at_ 6 2 = 0
      ∧ d = f.data.drop 8 ∧ d ≠ [] ∧ u.blob? n = some b ∧ b.kind ≠ 0 ∧ f.at_ 0 4 ≠ b.data.length)
    ∧ (∃ (f : SvcFrame) (n : Nat) (s u : State) (h : SvcHead) (p : List Byte) (b : Blob), s.svcTakes f u ∧ n = f.session.toNat ∧ f =
      h.frame p ∧ f.fits 0 = true ∧ u.blob? n = some b ∧ b.state = 1 ∧ b.data.length < b.total)
    ∧ (∃ (f : SvcFrame) (n : Nat) (s u : State) (h : SvcHead) (p : List Byte) (b : Blob), s.svcTakes f u ∧ n = f.session.toNat ∧ f =
      h.frame p ∧ f.fits 0 = true ∧ u.blob? n = some b ∧ b.state = 1 ∧ b.total ≤ b.data.length ∧ crc32 b.data ≠ b.crc) :=
  ⟨⟨_, _,
    { run with mg := { run.mg with sess := [(sidSvc 1, some { role := 3, feat := 2 ^ 64 - 1, lastAt := 10 ^ 12, blob := some { kind := 1, total := 4, crc := 0 } })] } },
    _, { version := 1, session := 1, seq := 1, length := 9, status := 0, rsv := 0 }, 0, 1, [5], _, { kind := 1, total := 4, crc := 0 },
    svcTakes_of (by decide +kernel), rfl, rfl, by decide +kernel, by decide +kernel, rfl, by decide +kernel, by decide +kernel,
    by decide +kernel, by decide +kernel, by decide +kernel, by decide +kernel⟩, ⟨_, _,
    { run with mg := { run.mg with sess := [(sidSvc 1, some { role := 3, feat := 2 ^ 64 - 1, lastAt := 10 ^ 12, blob := some { kind := 1, total := 4, crc := 0 } })] } },
    _, { version := 1, session := 1, seq := 1, length := 9, status := 0, rsv := 0 }, 4, 1, [5], _, { kind := 1, total := 4, crc := 0 },
    svcTakes_of (by decide +kernel), rfl, rfl, by decide +kernel, by decide +kernel, rfl, by decide +kernel, by decide +kernel,
    by decide +kernel, by decide +kernel⟩, ⟨_, _,
    { run with mg := { run.mg with sess := [(sidSvc 1, some { role := 3, feat := 2 ^ 64 - 1, lastAt := 10 ^ 12, blob := some { kind := 1, total := 4, crc := 0, data := [5] } })] } },
    _, { version := 1, session := 1, seq := 1, length := 0, status := 0, rsv := 0 }, [],
    { kind := 1, total := 4, crc := 0, data := [5] }, svcTakes_of (by decide +kernel), rfl, rfl, by decide +kernel, by decide +kernel,
    by decide +kernel, by decide +kernel⟩, ⟨_, _,
    { run with mg := { run.mg with sess := [(sidSvc 1, some { role := 3, feat := 2 ^ 64 - 1, lastAt := 10 ^ 12, blob := some { kind := 1, total := 4, crc := 0, data := [5, 5, 5, 5] } })] } },
    _, { version := 1, session := 1, seq := 1, length := 0, status := 0, rsv := 0 }, [],
    { kind := 1, total := 4, crc := 0, data := [5, 5, 5, 5] }, svcTakes_of (by decide +kernel), rfl, rfl, by decide +kernel,
    by decide +kernel, by decide +kernel, by decide +kernel, by decide +kernel⟩⟩

theorem test_ServicePortServed_met_6 :
    (∃ (f : SvcFrame) (n : Nat) (s u : State) (h : SvcHead) (p : List Byte) (b : Blob), s.svcTakes f u ∧ n = f.session.toNat ∧ f =
      h.frame p ∧ f.fits 0 = true ∧ u.blob? n = some b ∧ b.state = 1 ∧ b.total ≤ b.data.length ∧ crc32 b.data = b.crc ∧ b.kind = 0)
    ∧ (∃ (f : SvcFrame) (n : Nat) (s u : State) (h : SvcHead) (p : List Byte) (b : Blob), s.svcTakes f u ∧ n = f.session.toNat ∧ f =
      h.frame p ∧ f.fits 0 = true ∧ u.blob? n = some b ∧ b.state = 1 ∧ b.total ≤ b.data.length ∧ crc32 b.data = b.crc ∧ b.kind ≠ 0)
    ∧ (∃ (f : SvcFrame) (n : Nat) (s u : State) (h : SvcHead) (p : List Byte) (b : Blob), s.svcTakes f u ∧ n = f.session.toNat ∧ f =
      h.frame p ∧ f.fits 0 = true ∧ u.blob? n = some b)
    ∧ (∃ (f : SvcFrame) (n : Nat) (s u : State) (h : SvcHead) (p : List Byte), s.svcTakes f u ∧ n = f.session.toNat ∧ f = h.frame p ∧
      f.fits 0 = true) :=
  ⟨⟨_, _,
    { run with mg := { run.mg with sess := [(sidSvc 1, some { role := 3, feat := 2 ^ 64 - 1, lastAt := 10 ^ 12, blob := some { kind := 0, total := 1, crc := crc32 [5], data := [5] } })] } },
    _, { version := 1, session := 1, seq := 1, length := 0, status := 0, rsv := 0 }, [],
    { kind := 0, total := 1, crc := crc32 [5], data := [5] }, svcTakes_of (by decide +kernel), rfl, rfl, by decide +kernel,
    by decide +kernel, by decide +kernel, by decide +kernel, by decide +kernel, by decide +kernel⟩, ⟨_, _,
    { run with mg := { run.mg with sess := [(sidSvc 1, some { role := 3, feat := 2 ^ 64 - 1, lastAt := 10 ^ 12, blob := some { kind := 1, total := 1, crc := crc32 [5], data := [5] } })] } },
    _, { version := 1, session := 1, seq := 1, length := 0, status := 0, rsv := 0 }, [],
    { kind := 1, total := 1, crc := crc32 [5], data := [5] }, svcTakes_of (by decide +kernel), rfl, rfl, by decide +kernel,
    by decide +kernel, by decide +kernel, by decide +kernel, by decide +kernel, by decide +kernel⟩, ⟨_, _,
    { run with mg := { run.mg with sess := [(sidSvc 1, some { role := 3, feat := 2 ^ 64 - 1, lastAt := 10 ^ 12, blob := some { kind := 1, total := 4, crc := 0 } })] } },
    _, { version := 1, session := 1, seq := 1, length := 0, status := 0, rsv := 0 }, [], { kind := 1, total := 4, crc := 0 },
    svcTakes_of (by decide +kernel), rfl, rfl, by decide +kernel, by decide +kernel⟩, ⟨_, _, run, _,
    { version := 1, session := 1, seq := 1, length := 0, status := 0, rsv := 0 }, [], svcTakes_of (by decide +kernel), rfl, rfl,
    by decide +kernel⟩⟩

theorem test_ServicePortServed_met_7 :
    (∃ (sess : SessRef) (b : Blob) (s : State), sidPath sess = 3 ∧ s.blob? (sidOf sess) = some b)
    ∧ (∃ (h : SvcHead) (p : List Byte) (ix : BitVec 16) (sub rv : Byte) (off len : Word32) (rest : List Byte) (die : Byte) (rv3 : BitVec
      24) (val : Word32) (kd : Byte) (tot c : Word32) (dat : List Byte) (x : Session) (s : State) (i : Instr), s.svcServes = true ∧
      h.version = 1 ∧ s.sess? (sidSvc h.session.toNat) = some x ∧ h.seq.toNat = x.lastSeq ∧ i ∈ [Instr.closeSession h p, .odRead h ix
      sub rv off len, .odWrite h ix sub rv off rest, .csrRead h die rv3 off, .csrWrite h die rv3 off val, .blobBegin h kd rv3 tot c,
      .blobData h off len dat, .blobEnd h p, .blobStatus h p, .blobAbort h p])
    ∧ (∃ (h : SvcHead) (x : Session) (s : State), s.svcServes = true ∧ h.version = 1 ∧ s.sess? (sidSvc h.session.toNat) = some x ∧
      h.seq.toNat ≠ x.lastSeq ∧ h.seq.toNat ≠ seqAfter x.lastSeq)
    ∧ (∃ (h : SvcHead) (p : List Byte) (ix : BitVec 16) (sub rv : Byte) (off len : Word32) (rest : List Byte) (die : Byte) (rv3 : BitVec
      24) (val : Word32) (kd : Byte) (tot c : Word32) (dat : List Byte) (s : State) (i : Instr), s.svcServes = true ∧ (h.version ≠ 1 ∨
      s.sess? (sidSvc h.session.toNat) = none) ∧ i ∈ [Instr.closeSession h p, .odRead h ix sub rv off len, .odWrite h ix sub rv off
      rest, .csrRead h die rv3 off, .csrWrite h die rv3 off val, .blobBegin h kd rv3 tot c, .blobData h off len dat, .blobEnd h p,
      .blobStatus h p, .blobAbort h p]) :=
  ⟨⟨sidSvc 1, { kind := 1, total := 4, crc := 0 },
    { run with mg := { run.mg with sess := [(sidSvc 1, some { role := 3, feat := 2 ^ 64 - 1, lastAt := 10 ^ 12, blob := some { kind := 1, total := 4, crc := 0 } })] } },
    by decide +kernel, by decide +kernel⟩, ⟨{ version := 1, session := 1, seq := 1, length := 0, status := 0, rsv := 0 }, [], 0, 0, 0,
    0, 0, [], 0, 0, 0, 0, 0, 0, [], { role := 3, feat := 2 ^ 64 - 1, lastAt := 10 ^ 12, lastSeq := 1 },
    { run with mg := { run.mg with sess := [(sidSvc 1, some { role := 3, feat := 2 ^ 64 - 1, lastAt := 10 ^ 12, lastSeq := 1 })] } },
    .closeSession { version := 1, session := 1, seq := 1, length := 0, status := 0, rsv := 0 } [], by decide +kernel, by decide +kernel,
    by decide +kernel, by decide +kernel, by simp⟩, ⟨{ version := 1, session := 1, seq := 7, length := 0, status := 0, rsv := 0 },
    { role := 3, feat := 2 ^ 64 - 1, lastAt := 10 ^ 12 }, run, by decide +kernel, by decide +kernel, by decide +kernel,
    by decide +kernel, by decide +kernel⟩, ⟨{ version := 1, session := 9, seq := 1, length := 0, status := 0, rsv := 0 }, [], 0, 0, 0,
    0, 0, [], 0, 0, 0, 0, 0, 0, [], run, .closeSession { version := 1, session := 9, seq := 1, length := 0, status := 0, rsv := 0 } [],
    by decide +kernel, by decide +kernel, by simp⟩⟩

theorem test_RegionsGovernBytes_met :
    ∃ (u : GuardUnit) (n : Needs) (a len b k r : Nat), governing u.regs b = some (k, r) ∧ bit r 1 = false ∧ bit r 2 = false ∧ bit r 3 =
      false ∧ (n.read || n.write || n.exec) = true ∧ a ≤ b ∧ b < a + max 1 len :=
  ⟨{ regs := [1], priv := true, tagAt := fun _ => none }, { read := true }, 0, 1, 0, 0, 1, by decide +kernel, by decide +kernel,
    by decide +kernel, by decide +kernel, by decide +kernel, by decide +kernel, by decide +kernel⟩

theorem test_PointerModeNamesHosts_met :
    (∃ (hs : List Nat) (st : DirState), 1 ≤ hs.length ∧ hs.length ≤ 3 ∧ hs.Nodup ∧ (∀ h ∈ hs, h < 64) ∧ st ≠ .i)
    ∧ (∃ (e : DirEntry), e.state ≠ .i ∧ e.hmode = 0)
    ∧ (∃ (e : DirEntry), e.state ≠ .i ∧ e.hmode = 0)
    ∧ (∃ (e : DirEntry), e.state ≠ .i ∧ e.hmode = 0)
    ∧ (∃ (e : DirEntry), e.state ≠ .i ∧ e.hmode = 0)
    ∧ (∃ (e : DirEntry), e.state ≠ .i) :=
  ⟨⟨[3, 63], .s, by decide +kernel, by decide +kernel, by decide +kernel, by decide +kernel, by decide +kernel⟩, ⟨{ state := .s },
    by decide +kernel, by decide +kernel⟩, ⟨{ state := .s }, by decide +kernel, by decide +kernel⟩, ⟨{ state := .s }, by decide +kernel,
    by decide +kernel⟩, ⟨{ state := .s }, by decide +kernel, by decide +kernel⟩, ⟨{ state := .s }, by decide +kernel⟩⟩

theorem test_HostsAddedAndRemoved_met_1 :
    (∃ (e : DirEntry) (h : Nat), e.hmode = 0 ∧ h < 64 ∧ h ∈ e.ptrs)
    ∧ (∃ (e : DirEntry) (h : Nat), e.hmode = 0 ∧ h < 64 ∧ h ∉ e.ptrs ∧ e.ptrs.length < 3)
    ∧ (∃ (e : DirEntry) (h : Nat), e.hmode = 0 ∧ h < 64 ∧ h ∉ e.ptrs ∧ 3 ≤ e.ptrs.length)
    ∧ (∃ (e : DirEntry) (h : Nat), e.hmode = 0 ∧ h < 64 ∧ h ∉ e.ptrs ∧ 3 ≤ e.ptrs.length)
    ∧ (∃ (e : DirEntry) (h : Nat), e.hmode = 0 ∧ h < 64 ∧ h ∉ e.ptrs ∧ 3 ≤ e.ptrs.length)
    ∧ (∃ (e : DirEntry) (h : Nat), e.hmode = 0 ∧ h < 64 ∧ h ∉ e.ptrs ∧ 3 ≤ e.ptrs.length)
    ∧ (∃ (e : DirEntry) (h : Nat), e.hmode = 0 ∧ h < 64 ∧ h ∉ e.ptrs ∧ 3 ≤ e.ptrs.length)
    ∧ (∃ (e : DirEntry), e.hmode = 1) :=
  ⟨⟨{ state := .s }, 0, by decide +kernel, by decide +kernel, by decide +kernel⟩, ⟨{ state := .s }, 63, by decide +kernel,
    by decide +kernel, by decide +kernel, by decide +kernel⟩, ⟨{ state := .s, hosts := 1 + 2 * 64 + 3 * 4096 }, 63, by decide +kernel,
    by decide +kernel, by decide +kernel, by decide +kernel⟩, ⟨{ state := .s, hosts := 1 + 2 * 64 + 3 * 4096 }, 63, by decide +kernel,
    by decide +kernel, by decide +kernel, by decide +kernel⟩, ⟨{ state := .s, hosts := 1 + 2 * 64 + 3 * 4096 }, 63, by decide +kernel,
    by decide +kernel, by decide +kernel, by decide +kernel⟩, ⟨{ state := .s, hosts := 1 + 2 * 64 + 3 * 4096 }, 63, by decide +kernel,
    by decide +kernel, by decide +kernel, by decide +kernel⟩, ⟨{ state := .s, hosts := 1 + 2 * 64 + 3 * 4096 }, 63, by decide +kernel,
    by decide +kernel, by decide +kernel, by decide +kernel⟩, ⟨{ state := .s, hmode := 1, hosts := 5 }, by decide +kernel⟩⟩

theorem test_HostsAddedAndRemoved_met_2 :
    (∃ (e : DirEntry) (h : Nat), e.hmode = 0 ∧ (∃ x ∈ e.ptrs, x ≠ h))
    ∧ (∃ (e : DirEntry) (h : Nat), e.hmode = 0 ∧ (∀ x ∈ e.ptrs, x = h) ∧ e.brim ≠ 0)
    ∧ (∃ (e : DirEntry) (h : Nat), e.hmode = 0 ∧ (∀ x ∈ e.ptrs, x = h) ∧ e.brim = 0) :=
  ⟨⟨{ state := .s, hosts := 1 + 2 * 64 + 3 * 4096 }, 2, by decide +kernel, by decide +kernel⟩, ⟨{ state := .s, brim := 1 }, 0,
    by decide +kernel, by decide +kernel, by decide +kernel⟩, ⟨{ state := .s }, 0, by decide +kernel, by decide +kernel,
    by decide +kernel⟩⟩

theorem test_SessionFeaturesIntersected_met :
    (∃ (sess : SessRef) (s u : State), s.sessionFor sess = .ready u ∧ (u.sess? sess).isSome = true ∧ bit (u.session sess).feat 0 = true)
    ∧ (∃ (sess : SessRef) (u : State), (u.sess? sess).isSome = true)
    ∧ (∃ (sid : Nat) (s : State), bit (s.session sid).feat 0 = true) :=
  ⟨⟨sidSvc 1, run, run, by rfl, by decide +kernel, by decide +kernel⟩, ⟨sidSvc 1, run, by decide +kernel⟩, ⟨0, run, by decide +kernel⟩⟩

theorem test_RegisterAccessesAligned_met :
    (∃ (c : CoreIx) (die : DieIx) (off : Word32) (n : Nat) (s : State), s.csrOpen (.core c) die = true ∧ (n ≠ 4 ∨ off.toNat % 4 ≠ 0))
    ∧ (∃ (sess : SessRef) (die : DieIx) (off : Word32) (n : Nat) (s : State), s.csrOpen (.service sess) die = true ∧ (n ≠ 4 ∨ off.toNat
      % 4 ≠ 0))
    ∧ (∃ (via : CsrVia) (die : DieIx) (off : Word32) (n : Nat) (s : State), s.csrOpen via die = true ∧ (n ≠ 4 ∨ off.toNat % 4 ≠ 0)) :=
  ⟨⟨0, 0, 0, 0, run, by decide +kernel, by decide +kernel⟩, ⟨sidSvc 1, 0, 0, 0, run, by decide +kernel, by decide +kernel⟩, ⟨.service
    (sidSvc 1), 0, 0, 0, run, by decide +kernel, by decide +kernel⟩⟩

theorem test_UnreachableDiesReadAllOnes_met :
    (∃ (c : CoreIx) (die : DieIx) (s : State), s.csrAllowed (.core c) die = true ∧ s.dieUp die = false)
    ∧ (∃ (sess : SessRef) (die : DieIx) (s : State), s.csrAllowed (.service sess) die = true ∧ s.dieUp die = false) :=
  ⟨⟨0, 0, { run with st := { run.st with tileHeld := [(0, true)] } }, by decide +kernel, by decide +kernel⟩, ⟨sidSvc 1, 0,
    { run with st := { run.st with tileHeld := [(0, true)] } }, by decide +kernel, by decide +kernel⟩⟩

theorem test_BootRomReadsLifeCycleFuse_met :
    (∃ (p n : Nat) (s : State), s.life.fuses.lc = p ∧ (p, n) ∈ [(0x00, 0), (0x03, 1), (0x0F, 2), (0x3F, 3), (0xFF, 4)])
    ∧ (∃ (p : Nat) (s : State), s.life.fuses.lc = p ∧ p ∈ [0x00, 0x03, 0x0F, 0x3F, 0xFF]) :=
  ⟨⟨0x3F, 3, { run with life := { run.life with fuses := { run.life.fuses with lc := 0x3F } } }, by decide +kernel, by simp⟩, ⟨0x3F,
    { run with life := { run.life with fuses := { run.life.fuses with lc := 0x3F } } }, by decide +kernel, by simp⟩⟩

theorem test_ManagerAbortsMapped_met_1 :
    (∃ (a : OdAns), a.abort ≠ 0)
    ∧ (∃ (h : HostIx) (c : BitVec 64) (r : OdRow) (s u w : State) (a : OdAns), s.fmTakes h u ∧ odRow? K.BIND_CMD = some r ∧ u.mayWrite
      (sidMailbox h) r K.BIND_CMD = true ∧ ownBindCmd c.toNat u = (a, w) ∧ a.abort ≠ 0 ∧ bits c.toNat 15 14 = 0) :=
  ⟨⟨{ abort := 5 }, by decide +kernel⟩, ⟨0, 0, (rowOf K.BIND_CMD), fmRun, boxed fmRun, (ownBindCmd (0 : BitVec 64).toNat (boxed
    fmRun)).2, (ownBindCmd (0 : BitVec 64).toNat (boxed fmRun)).1, ⟨⟨by decide +kernel, rfl⟩, by decide +kernel⟩, some_getD _
    (by decide +kernel), by decide +kernel, (Prod.mk.eta).symm, by decide +kernel, by decide +kernel⟩⟩

theorem test_ManagerAbortsMapped_met_2 :
    (∃ (h : HostIx) (c : BitVec 64) (r : OdRow) (s u w : State) (a : OdAns), s.fmTakes h u ∧ odRow? K.BIND_CMD = some r ∧ u.mayWrite
      (sidMailbox h) r K.BIND_CMD = true ∧ ownBindCmd c.toNat u = (a, w) ∧ a.abort ≠ 0 ∧ bits c.toNat 15 14 = 1)
    ∧ (∃ (h : HostIx) (c : BitVec 128) (r : OdRow) (s u w : State) (a : OdAns), s.fmTakes h u ∧ odRow? K.EXTENT_CMD = some r ∧
      u.mayWrite (sidMailbox h) r K.EXTENT_CMD = true ∧ ownExtentCmd c.toNat u = (a, w) ∧ a.abort ≠ 0 ∧ bits c.toNat 7 6 = 0) :=
  ⟨⟨0, 2 ^ 14, (rowOf K.BIND_CMD), fmRun, boxed fmRun, (ownBindCmd (2 ^ 14 : BitVec 64).toNat (boxed fmRun)).2, (ownBindCmd (2 ^ 14 :
    BitVec 64).toNat (boxed fmRun)).1, ⟨⟨by decide +kernel, rfl⟩, by decide +kernel⟩, some_getD _ (by decide +kernel),
    by decide +kernel, (Prod.mk.eta).symm, by decide +kernel, by decide +kernel⟩, ⟨0, 0, (rowOf K.EXTENT_CMD), fmRun, boxed fmRun,
    (ownExtentCmd (0 : BitVec 128).toNat (boxed fmRun)).2, (ownExtentCmd (0 : BitVec 128).toNat (boxed fmRun)).1, ⟨⟨by decide +kernel,
    rfl⟩, by decide +kernel⟩, some_getD _ (by decide +kernel), by decide +kernel, (Prod.mk.eta).symm, by decide +kernel,
    by decide +kernel⟩⟩

theorem test_ManagerAbortsMapped_met_3 :
    (∃ (h : HostIx) (c : BitVec 128) (r : OdRow) (s u w : State) (a : OdAns), s.fmTakes h u ∧ odRow? K.EXTENT_CMD = some r ∧ u.mayWrite
      (sidMailbox h) r K.EXTENT_CMD = true ∧ ownExtentCmd c.toNat u = (a, w) ∧ a.abort ≠ 0 ∧ bits c.toNat 7 6 ≠ 0)
    ∧ (∃ (h : HostIx) (c : BitVec 64) (r : OdRow) (s u : State), s.fmTakes h u ∧ odRow? K.BIND_CMD = some r ∧ u.mayWrite (sidMailbox h)
      r K.BIND_CMD = false ∧ bits c.toNat 15 14 = 0) :=
  ⟨⟨0, 2 ^ 6, (rowOf K.EXTENT_CMD), fmRun, boxed fmRun, (ownExtentCmd (2 ^ 6 : BitVec 128).toNat (boxed fmRun)).2, (ownExtentCmd (2 ^ 6
    : BitVec 128).toNat (boxed fmRun)).1, ⟨⟨by decide +kernel, rfl⟩, by decide +kernel⟩, some_getD _ (by decide +kernel),
    by decide +kernel, (Prod.mk.eta).symm, by decide +kernel, by decide +kernel⟩, ⟨0, 0, (rowOf K.BIND_CMD), run, boxed run,
    ⟨⟨by decide +kernel, rfl⟩, by decide +kernel⟩, some_getD _ (by decide +kernel), by decide +kernel, by decide +kernel⟩⟩

theorem test_ManagerAbortsMapped_met_4 :
    ∃ (h : HostIx) (c : BitVec 64) (r : OdRow) (s u : State), s.fmTakes h u ∧ odRow? K.BIND_CMD = some r ∧ u.mayWrite (sidMailbox h) r
      K.BIND_CMD = false ∧ bits c.toNat 15 14 = 1 :=
  ⟨0, 2 ^ 14, (rowOf K.BIND_CMD), run, boxed run, ⟨⟨by decide +kernel, rfl⟩, by decide +kernel⟩, some_getD _ (by decide +kernel),
    by decide +kernel, by decide +kernel⟩

theorem test_ObjectChecksOrdered_met :
    (∃ (sess : SessRef) (ix : BitVec 16) (sub : Byte) (k : Nat) (s u : State), s.sessionFor sess = .ready u ∧ k = odKey ix.toNat
      sub.toNat ∧ odRow? k = none)
    ∧ (∃ (sess : SessRef) (ix : BitVec 16) (sub : Byte) (d : List Byte) (k v : Nat) (r : OdRow) (s u : State), s.sessionFor sess =
      .ready u ∧ k = odKey ix.toNat sub.toNat ∧ v = leNat d ∧ odRow? k = some r ∧ (bit (u.session sess).feat (featBit ix.toNat) = false
      ∨ r.access = .ro ∨ u.mayWrite sess r k = false ∨ u.lcPermits k v = false ∨ r.type.lengthOk d.length = false ∨ r.check.clean v =
      false ∨ r.check.holds r.type.bytes v = false ∨ (r.type = .bool ∧ 1 < v)))
    ∧ (∃ (sess : SessRef) (ix : BitVec 16) (sub : Byte) (d : List Byte) (k : Nat) (s u : State), k = odKey ix.toNat sub.toNat ∧
      s.accepts sess k d.length (leNat d) u ∧ ((odOwn sess k d u).1.abort ≠ 0 ∨ (k ≠ K.RESET_HUB ∧ k ≠ K.RESET_HK)))
    ∧ (∃ (ix sub : Nat), sub < 256 ∧ odRow? (odKey ix sub) = none)
    ∧ (∃ (sid ix sub : Nat) (r : OdRow) (s : State), sub < 256 ∧ odRow? (odKey ix sub) = some r ∧ (bit (s.session sid).feat (featBit ix)
      = false ∨ s.mayRead sid (odKey ix sub) = false)) :=
  ⟨⟨sidSvc 1, 1, 0, _, run, run, by rfl, rfl, by decide +kernel⟩, ⟨sidSvc 1, 0x0300, 2, [0], _, _, (rowOf K.GEN_STATE), run, run, by
    rfl, rfl, rfl, some_getD _ (by decide +kernel), by decide +kernel⟩, ⟨sidSvc 1, 0x0300, 10, [1], _, run, run, rfl, accepts_of rfl
    (by decide +kernel), by decide +kernel⟩, ⟨1, 0, by decide +kernel, by decide +kernel⟩, ⟨3, 0x0300, 2, (rowOf K.GEN_STATE),
    { run with mg := { run.mg with sess := [(3, some { feat := 0 })] } }, by decide +kernel, some_getD _ (by decide +kernel),
    by decide +kernel⟩⟩

theorem test_AccessCodesAct_met_1 :
    (∃ (r : OdRow), r.access = .wo)
    ∧ (∃ (s : State) (sid key : Nat) (r : OdRow), r.access = .rws ∧ r.home ≠ .event ∧ perSession key = false ∧ ((s.session
      sid).draftView = false ∨ s.o K.DRAFT_STATE ≠ 1))
    ∧ (∃ (s : State) (sid key : Nat) (r : OdRow), r.access = .rws ∧ r.home ≠ .event ∧ perSession key = false ∧ (s.session sid).draftView
      = true ∧ s.o K.DRAFT_STATE = 1)
    ∧ (∃ (s : State) (sid : Nat), s.o K.DRAFT_STATE = 1 ∧ s.o K.DRAFT_OWNER ≠ sid)
    ∧ (∃ (s : State), s.o K.DRAFT_STATE ≠ 1)
    ∧ (∃ (s : State), s.o K.DRAFT_STATE ≠ 1)
    ∧ (∃ (s : State), s.o K.DRAFT_STATE ≠ 1)
    ∧ (∃ (s : State), s.o K.DRAFT_STATE ≠ 1) :=
  ⟨⟨(rowOf (K.SLOT_CMD 0)), by decide +kernel⟩, ⟨run, 259, K.ROLE 0, (rowOf (K.PORT_WIDTH 0)), by decide +kernel, by decide +kernel,
    by decide +kernel, by decide +kernel⟩,
    ⟨{ run.setO K.DRAFT_STATE 1 with mg := { run.mg with sess := [(sidSvc 1, some { role := 3, draftView := true })] } }, 259, K.ROLE 0,
    (rowOf (K.PORT_WIDTH 0)), by decide +kernel, by decide +kernel, by decide +kernel, by decide +kernel, by decide +kernel⟩, ⟨run.setO
    K.DRAFT_STATE 1, 259, by decide +kernel, by decide +kernel⟩, ⟨run, by decide +kernel⟩, ⟨run, by decide +kernel⟩, ⟨run,
    by decide +kernel⟩, ⟨run, by decide +kernel⟩⟩

theorem test_AccessCodesAct_met_2 :
    (∃ (s : State) (key j : Nat), s.o K.DRAFT_STATE ≠ 1 ∧ j ≠ key)
    ∧ (∃ (s : State) (sid : Nat), s.o K.DRAFT_STATE = 1 ∧ s.o K.DRAFT_OWNER = sid)
    ∧ (∃ (s : State) (sid : Nat), s.o K.DRAFT_STATE = 1 ∧ s.o K.DRAFT_OWNER = sid)
    ∧ (∃ (s : State) (sid key j : Nat), s.o K.DRAFT_STATE = 1 ∧ s.o K.DRAFT_OWNER = sid ∧ j ≠ key) :=
  ⟨⟨run, 1, 2, by decide +kernel, by decide +kernel⟩, ⟨(run.setO K.DRAFT_STATE 1).setO K.DRAFT_OWNER 259, 259, by decide +kernel,
    by decide +kernel⟩, ⟨(run.setO K.DRAFT_STATE 1).setO K.DRAFT_OWNER 259, 259, by decide +kernel, by decide +kernel⟩, ⟨(run.setO
    K.DRAFT_STATE 1).setO K.DRAFT_OWNER 259, 259, 1, 2, by decide +kernel, by decide +kernel, by decide +kernel⟩⟩

theorem test_RaisesRecorded_met_1 :
    (∃ (s : State) (n cls code F C E : Nat) (lasting : Bool) (src : Src) (b b0 t : EvtBlock), blockReserved n = false ∧ b = s.blk n ∧ b0
      = b.unclear s.now ∧ t = (s.raiseCore n cls code lasting src).blk n ∧ F = packFer s n cls code src ∧ C = s.ceiling n (max b.cls
      cls) ∧ E = s.c (K.ESC_TICKS n))
    ∧ (∃ (s : State) (n cls code F C E : Nat) (lasting : Bool) (src : Src) (b b0 t : EvtBlock), blockReserved n = false ∧ b = s.blk n ∧
      b0 = b.unclear s.now ∧ t = (s.raiseCore n cls code lasting src).blk n ∧ F = packFer s n cls code src ∧ C = s.ceiling n (max b.cls
      cls) ∧ E = s.c (K.ESC_TICKS n))
    ∧ (∃ (s : State) (n cls code F C E : Nat) (lasting : Bool) (src : Src) (b b0 t : EvtBlock), blockReserved n = false ∧ b = s.blk n ∧
      b0 = b.unclear s.now ∧ t = (s.raiseCore n cls code lasting src).blk n ∧ F = packFer s n cls code src ∧ C = s.ceiling n (max b.cls
      cls) ∧ E = s.c (K.ESC_TICKS n))
    ∧ (∃ (s : State) (n cls code F C E : Nat) (lasting : Bool) (src : Src) (b b0 t : EvtBlock), blockReserved n = false ∧ b = s.blk n ∧
      b0 = b.unclear s.now ∧ t = (s.raiseCore n cls code lasting src).blk n ∧ F = packFer s n cls code src ∧ C = s.ceiling n (max b.cls
      cls) ∧ E = s.c (K.ESC_TICKS n) ∧ cls = 0)
    ∧ (∃ (s : State) (n cls code F C E : Nat) (lasting : Bool) (src : Src) (b b0 t : EvtBlock), blockReserved n = false ∧ b = s.blk n ∧
      b0 = b.unclear s.now ∧ t = (s.raiseCore n cls code lasting src).blk n ∧ F = packFer s n cls code src ∧ C = s.ceiling n (max b.cls
      cls) ∧ E = s.c (K.ESC_TICKS n) ∧ 1 ≤ cls)
    ∧ (∃ (s : State) (n cls code F C E : Nat) (lasting : Bool) (src : Src) (b b0 t : EvtBlock), blockReserved n = false ∧ b = s.blk n ∧
      b0 = b.unclear s.now ∧ t = (s.raiseCore n cls code lasting src).blk n ∧ F = packFer s n cls code src ∧ C = s.ceiling n (max b.cls
      cls) ∧ E = s.c (K.ESC_TICKS n) ∧ 1 ≤ cls)
    ∧ (∃ (s : State) (n cls code F C E : Nat) (lasting : Bool) (src : Src) (b b0 t : EvtBlock), blockReserved n = false ∧ b = s.blk n ∧
      b0 = b.unclear s.now ∧ t = (s.raiseCore n cls code lasting src).blk n ∧ F = packFer s n cls code src ∧ C = s.ceiling n (max b.cls
      cls) ∧ E = s.c (K.ESC_TICKS n) ∧ 1 ≤ cls)
    ∧ (∃ (s : State) (n cls code F C E : Nat) (lasting : Bool) (src : Src) (b b0 t : EvtBlock), blockReserved n = false ∧ b = s.blk n ∧
      b0 = b.unclear s.now ∧ t = (s.raiseCore n cls code lasting src).blk n ∧ F = packFer s n cls code src ∧ C = s.ceiling n (max b.cls
      cls) ∧ E = s.c (K.ESC_TICKS n) ∧ 1 ≤ cls ∧ b0.ferValid = false) :=
  ⟨⟨run, 0, 0, 0, _, _, _, true, default, _, _, _, by decide +kernel, rfl, rfl, rfl, rfl, rfl, rfl⟩, ⟨run, 0, 0, 0, _, _, _, true,
    default, _, _, _, by decide +kernel, rfl, rfl, rfl, rfl, rfl, rfl⟩, ⟨run, 0, 0, 0, _, _, _, true, default, _, _, _,
    by decide +kernel, rfl, rfl, rfl, rfl, rfl, rfl⟩, ⟨run, 0, _, 0, _, _, _, true, default, _, _, _, by decide +kernel, rfl, rfl, rfl,
    rfl, rfl, rfl, rfl⟩, ⟨run, 0, 1, 0, _, _, _, true, default, _, _, _, by decide +kernel, rfl, rfl, rfl, rfl, rfl, rfl,
    by decide +kernel⟩, ⟨run, 0, 1, 0, _, _, _, true, default, _, _, _, by decide +kernel, rfl, rfl, rfl, rfl, rfl, rfl,
    by decide +kernel⟩, ⟨run, 0, 1, 0, _, _, _, true, default, _, _, _, by decide +kernel, rfl, rfl, rfl, rfl, rfl, rfl,
    by decide +kernel⟩, ⟨run, 0, 1, 0, _, _, _, true, default, _, _, _, by decide +kernel, rfl, rfl, rfl, rfl, rfl, rfl,
    by decide +kernel, by decide +kernel⟩⟩

theorem test_RaisesRecorded_met_2 :
    (∃ (s : State) (n cls code F C E : Nat) (lasting : Bool) (src : Src) (b b0 t : EvtBlock), blockReserved n = false ∧ b = s.blk n ∧ b0
      = b.unclear s.now ∧ t = (s.raiseCore n cls code lasting src).blk n ∧ F = packFer s n cls code src ∧ C = s.ceiling n (max b.cls
      cls) ∧ E = s.c (K.ESC_TICKS n) ∧ 1 ≤ cls ∧ b0.ferValid = true)
    ∧ (∃ (s : State) (n cls code F C E : Nat) (lasting : Bool) (src : Src) (b b0 t : EvtBlock), blockReserved n = false ∧ b = s.blk n ∧
      b0 = b.unclear s.now ∧ t = (s.raiseCore n cls code lasting src).blk n ∧ F = packFer s n cls code src ∧ C = s.ceiling n (max b.cls
      cls) ∧ E = s.c (K.ESC_TICKS n) ∧ 1 ≤ cls ∧ b0.cls < cls)
    ∧ (∃ (s : State) (n cls code F C E : Nat) (lasting : Bool) (src : Src) (b b0 t : EvtBlock), blockReserved n = false ∧ b = s.blk n ∧
      b0 = b.unclear s.now ∧ t = (s.raiseCore n cls code lasting src).blk n ∧ F = packFer s n cls code src ∧ C = s.ceiling n (max b.cls
      cls) ∧ E = s.c (K.ESC_TICKS n) ∧ 1 ≤ cls ∧ cls < b0.cls)
    ∧ (∃ (s : State) (n cls code F C E : Nat) (lasting : Bool) (src : Src) (b b0 t : EvtBlock), blockReserved n = false ∧ b = s.blk n ∧
      b0 = b.unclear s.now ∧ t = (s.raiseCore n cls code lasting src).blk n ∧ F = packFer s n cls code src ∧ C = s.ceiling n (max b.cls
      cls) ∧ E = s.c (K.ESC_TICKS n) ∧ 1 ≤ cls ∧ cls = b0.cls)
    ∧ (∃ (s : State) (n cls code F C E : Nat) (lasting : Bool) (src : Src) (b b0 t : EvtBlock), blockReserved n = false ∧ b = s.blk n ∧
      b0 = b.unclear s.now ∧ t = (s.raiseCore n cls code lasting src).blk n ∧ F = packFer s n cls code src ∧ C = s.ceiling n (max b.cls
      cls) ∧ E = s.c (K.ESC_TICKS n) ∧ cls = 3)
    ∧ (∃ (s : State) (n cls code F C E : Nat) (lasting : Bool) (src : Src) (b b0 t : EvtBlock), blockReserved n = false ∧ b = s.blk n ∧
      b0 = b.unclear s.now ∧ t = (s.raiseCore n cls code lasting src).blk n ∧ F = packFer s n cls code src ∧ C = s.ceiling n (max b.cls
      cls) ∧ E = s.c (K.ESC_TICKS n) ∧ (cls = 1 ∨ cls = 2) ∧ b0.requal = false)
    ∧ (∃ (s : State) (n cls code F C E : Nat) (lasting : Bool) (src : Src) (b b0 t : EvtBlock), blockReserved n = false ∧ b = s.blk n ∧
      b0 = b.unclear s.now ∧ t = (s.raiseCore n cls code lasting src).blk n ∧ F = packFer s n cls code src ∧ C = s.ceiling n (max b.cls
      cls) ∧ E = s.c (K.ESC_TICKS n) ∧ (cls = 1 ∨ cls = 2) ∧ b0.requal = false ∧ b0.timer = none)
    ∧ (∃ (s : State) (n cls code F C E : Nat) (lasting : Bool) (src : Src) (b b0 t : EvtBlock) (x : Nat), blockReserved n = false ∧ b =
      s.blk n ∧ b0 = b.unclear s.now ∧ t = (s.raiseCore n cls code lasting src).blk n ∧ F = packFer s n cls code src ∧ C = s.ceiling n
      (max b.cls cls) ∧ E = s.c (K.ESC_TICKS n) ∧ (cls = 1 ∨ cls = 2) ∧ b0.requal = false ∧ b0.timer = some x ∧ 1 < C ∧ t.step < C) :=
  ⟨⟨run.setBlk 0 { cls := 1, ferValid := true }, 0, 1, 0, _, _, _, true, default, _, _, _, by decide +kernel, rfl, rfl, rfl, rfl, rfl,
    rfl, by decide +kernel, by decide +kernel⟩, ⟨run.setBlk 0 { cls := 1 }, 0, 3, 0, _, _, _, true, default, _, _, _, by decide +kernel,
    rfl, rfl, rfl, rfl, rfl, rfl, by decide +kernel, by decide +kernel⟩, ⟨run.setBlk 0 { cls := 3 }, 0, 1, 0, _, _, _, true, default, _,
    _, _, by decide +kernel, rfl, rfl, rfl, rfl, rfl, rfl, by decide +kernel, by decide +kernel⟩, ⟨run.setBlk 0 { cls := 2 }, 0, 2, 0,
    _, _, _, true, default, _, _, _, by decide +kernel, rfl, rfl, rfl, rfl, rfl, rfl, by decide +kernel, by decide +kernel⟩, ⟨run, 0, 3,
    0, _, _, _, true, default, _, _, _, by decide +kernel, rfl, rfl, rfl, rfl, rfl, rfl, by decide +kernel⟩, ⟨run, 0, 1, 0, _, _, _,
    true, default, _, _, _, by decide +kernel, rfl, rfl, rfl, rfl, rfl, rfl, by decide +kernel, by decide +kernel⟩, ⟨run, 0, 2, 0, _, _,
    _, true, default, _, _, _, by decide +kernel, rfl, rfl, rfl, rfl, rfl, rfl, by decide +kernel, by decide +kernel,
    by decide +kernel⟩, ⟨(withC run (K.ESC_CEIL 552) 0x44).setBlk 552 { cls := 1, timer := some 3, step := 1 }, 552, 2, 0, _, _, _,
    true, default, _, _, _, 3, by decide +kernel, rfl, rfl, rfl, rfl, rfl, rfl, by decide +kernel, by decide +kernel, by decide +kernel,
    by decide +kernel, by decide +kernel⟩⟩

theorem test_RaisesRecorded_met_3 :
    (∃ (s : State) (n cls code F C E : Nat) (lasting : Bool) (src : Src) (b b0 t : EvtBlock), blockReserved n = false ∧ b = s.blk n ∧ b0
      = b.unclear s.now ∧ t = (s.raiseCore n cls code lasting src).blk n ∧ F = packFer s n cls code src ∧ C = s.ceiling n (max b.cls
      cls) ∧ E = s.c (K.ESC_TICKS n) ∧ (cls = 1 ∨ cls = 2) ∧ b0.requal = true)
    ∧ (∃ (b : EvtBlock), b.lifted = none)
    ∧ (∃ (b : EvtBlock) (l : Lifted) (now : Nat), b.lifted = some l ∧ sameCycle b.clearedAt now = false)
    ∧ (∃ (b : EvtBlock) (l : Lifted) (now : Nat), b.lifted = some l ∧ sameCycle b.clearedAt now = true)
    ∧ (∃ (n j : Nat), j ≠ n)
    ∧ (∃ (n : Nat), blockReserved n = true) :=
  ⟨⟨run.setBlk 0 { requal := true }, 0, 1, 0, _, _, _, true, default, _, _, _, by decide +kernel, rfl, rfl, rfl, rfl, rfl, rfl,
    by decide +kernel, by decide +kernel⟩, ⟨{}, by decide +kernel⟩,
    ⟨{ lifted := some { cls := 1, step := 1, cause := true, pending := true, contain := false, isolate := false, ferValid := true, timer := none }, clearedAt := 0 },
    { cls := 1, step := 1, cause := true, pending := true, contain := false, isolate := false, ferValid := true, timer := none }, 625,
    by decide +kernel, by decide +kernel⟩,
    ⟨{ lifted := some { cls := 1, step := 1, cause := true, pending := true, contain := false, isolate := false, ferValid := true, timer := none }, clearedAt := 0 },
    { cls := 1, step := 1, cause := true, pending := true, contain := false, isolate := false, ferValid := true, timer := none }, 624,
    by decide +kernel, by decide +kernel⟩, ⟨0, 1, by decide +kernel⟩, ⟨620, by decide +kernel⟩⟩

theorem test_LifeCyclePatternStaysLegal_met :
    ∃ (s t : State), s.lcLegal ∧ Sys2Proof.Machine.step s = .next t :=
  ⟨run, _, by show (0x03 : Nat) ∈ [0x00, 0x03, 0x0F, 0x3F, 0xFF]; decide, rfl⟩

theorem test_FusesOnlyGain_met :
    (∃ (s t : State) (i : Nat), Sys2Proof.Machine.step s = .next t ∧ bit s.life.fuses.lc i = true)
    ∧ (∃ (s t : State), Sys2Proof.Machine.step s = .next t)
    ∧ (∃ (s t : State), Sys2Proof.Machine.step s = .next t)
    ∧ (∃ (s t : State), Sys2Proof.Machine.step s = .next t ∧ s.life.fuses.vroot1.isSome = true)
    ∧ (∃ (s t : State), Sys2Proof.Machine.step s = .next t ∧ s.life.fuses.revoked0 = true)
    ∧ (∃ (s t : State), Sys2Proof.Machine.step s = .next t ∧ s.life.fuses.devPub.isSome = true)
    ∧ (∃ (s t : State), Sys2Proof.Machine.step s = .next t)
    ∧ (∃ (s t : State), Sys2Proof.Machine.step s = .next t) :=
  ⟨⟨run, _, 1, rfl, by decide +kernel⟩, ⟨run, _, rfl⟩, ⟨run, _, rfl⟩,
    ⟨{ run with life := { run.life with fuses := { run.life.fuses with vroot1 := some 1, revoked0 := true } } }, _, rfl,
    by decide +kernel⟩, ⟨{ run with life := { run.life with fuses := { run.life.fuses with vroot1 := some 1, revoked0 := true } } }, _,
    rfl, by decide +kernel⟩, ⟨run, _, rfl, by decide +kernel⟩, ⟨run, _, rfl⟩, ⟨run, _, rfl⟩⟩

theorem test_TimeRunsForward_met :
    ∃ (s t : State), Sys2Proof.Machine.step s = .next t :=
  ⟨run, _, rfl⟩

theorem test_CommandsLeaveTheQueue_met :
    ∃ (i : Instr) (s t : State), exec i s = .next t :=
  ⟨.departureSweepStep, run, _, rfl⟩

theorem test_IdleCyclePasses_met :
    (∃ (s : State), s.pending = [])
    ∧ (∃ (s : State), (s.hubHeld = true ∨ s.tm.overrun = true ∨ (∀ k ∈ [1, 2, 3, 4, 5, 6], s.itemDue k = false)))
    ∧ (∃ (s : State), s.hubHeld = false ∧ s.tm.overrun = false) :=
  ⟨⟨run, by decide +kernel⟩, ⟨{ run with st := { run.st with hubIn := true } }, Or.inl (by decide +kernel)⟩, ⟨run, by decide +kernel,
    by decide +kernel⟩⟩


theorem test_GuardCheckIsBytewise_met : ∃ (u : GuardUnit) (n : Needs) (a len : Nat) (extra : List Nat),
    (∀ x y : Nat, x / 256 = y / 256 → u.tagAt x = u.tagAt y)
    ∧ (∀ (g : Bool) (b : Nat), a ≤ b → b + 1 < a + max 1 len → b + 1 ∉ extra → u.prot g (b + 1) = u.prot g b)
    ∧ (∀ b : Nat, a ≤ b → b + 1 < a + max 1 len → b + 1 ∉ extra → u.dflt n (b + 1) = u.dflt n b) :=
  ⟨{ regs := [1], priv := true, tagAt := fun _ => none }, { read := true }, 0, 2, [], fun _ _ _ => rfl, fun _ _ _ _ _ => rfl,
    fun _ _ _ _ => rfl⟩

theorem small_bit {v j : Nat} (h : v < 2 ^ j) : bit v j = false := by simp [bit, Nat.div_eq_of_lt h]

/-- The state with a pattern of LC_FUSE. -/
def patterned (p : Nat) : State := { State.reset with life := { State.reset.life with fuses := { State.reset.life.fuses with lc := p } } }

theorem test_BootRomReadsLifeCycleFuse_met_interrupted : ∃ (a b i : Nat) (s : State),
    (a, b) ∈ [(0x00, 0x03), (0x03, 0x0F), (0x03, 0x3F), (0x0F, 0x3F), (0x00, 0xFF), (0x03, 0xFF), (0x0F, 0xFF), (0x3F, 0xFF)]
    ∧ s.st.porHeld = true ∧ s.life.fuses.lc ∉ [0x00, 0x03, 0x0F, 0x3F, 0xFF]
    ∧ (∀ j, bit a j = true → bit s.life.fuses.lc j = true) ∧ (∀ j, bit s.life.fuses.lc j = true → bit b j = true)
    ∧ (∀ j, bit b j = true → bit a j = false → (bit s.life.fuses.lc j = true ↔ i ≤ j)) := by
  have small : ∀ v j, v < 4 → bit v (j + 2) = false := fun v j h => small_bit (by
    rw [pow_add]; have := Nat.one_le_two_pow (n := j); omega)
  refine ⟨0, 3, 1, patterned 2, by decide, rfl, by decide, fun j h => by simp [bit] at h, ?_, ?_⟩
  · intro j h
    rcases j with _ | _ | j
    · rfl
    · rfl
    · rw [show (patterned 2).life.fuses.lc = 2 from rfl, small 2 j (by decide)] at h; cases h
  · intro j h _
    rcases j with _ | _ | j
    · decide
    · decide
    · rw [small 3 j (by decide)] at h; cases h

theorem test_BootRomReadsLifeCycleFuse_met_illegal : ∃ s : State, s.life.fuses.lc ∉ [0x00, 0x03, 0x0F, 0x3F, 0xFF]
    ∧ (∀ a b i, (a, b) ∈ [(0x00, 0x03), (0x03, 0x0F), (0x03, 0x3F), (0x0F, 0x3F), (0x00, 0xFF), (0x03, 0xFF), (0x0F, 0xFF), (0x3F, 0xFF)] →
      ¬ ((∀ j, bit a j = true → bit s.life.fuses.lc j = true) ∧ (∀ j, bit s.life.fuses.lc j = true → bit b j = true)
        ∧ (∀ j, bit b j = true → bit a j = false → (bit s.life.fuses.lc j = true ↔ i ≤ j)))) := by
  refine ⟨patterned 0x40, by decide, ?_⟩
  rintro a b i h ⟨h1, h2, h3⟩
  have e1 := h1 0
  have e2 := h2 6
  have e3 := h3 6
  have e4 := h3 7
  simp only [List.mem_cons, Prod.mk.injEq, List.not_mem_nil, or_false] at h
  rcases h with ⟨rfl, rfl⟩ | ⟨rfl, rfl⟩ | ⟨rfl, rfl⟩ | ⟨rfl, rfl⟩ | ⟨rfl, rfl⟩ | ⟨rfl, rfl⟩ | ⟨rfl, rfl⟩ | ⟨rfl, rfl⟩ <;>
    (simp [bit, patterned] at e1 e2 e3 e4; try omega)

/-! ### An ill-formed command for each check -/

theorem test_ill_formed_lengths :
    wellFormed (.readReq 5 0 (List.replicate 9 0)) = false ∧ wellFormed (.addrAssign (List.replicate 11 0)) = false
    ∧ wellFormed (.ringCons 0 0 0 65 none 0) = false ∧ wellFormed (.fenceDoorbell 0 0 0 0 0) = false
    ∧ wellFormed (.temperaturePoll [0]) = false ∧ wellFormed (.captureFeedWrite 0 0 0 []) = false := by decide +kernel

theorem test_ill_formed_sessions :
    wellFormed (.objectWrite 0 0 0 []) = false ∧ wellFormed (.lcToken 0 []) = false
    ∧ wellFormed (.sliceRestore (sidCan 0x80) 0 []) = false := by decide +kernel

theorem test_ill_formed_accesses :
    wellFormed (.registerWrite (.core 0) 0 0 3 0) = false ∧ wellFormed (.registerRead (.core 0) 0 0 16) = false
    ∧ wellFormed (.requestArrival 0 0 { (default : Req) with bytes := 4097 }) = false := by decide +kernel

/-! ### What the spec gives -/

/-- 00_scope.md, its worked example: the bytes of 0x0004_1A00 and its bits. -/
theorem test_little_endian : toBytes 4 0x00041A00 = [0x00, 0x1A, 0x04, 0x00] ∧ bits 0x00041A00 15 8 = 0x1A ∧ bit 0x00041A00 18 = true := by decide

/-- 01_architecture.md: port P37 is on tile T1. -/
theorem test_tile_of_port : tileOf 37 = 1 ∧ tileOf 23 = 0 ∧ tileOf 95 = 3 := by decide

/-- 09_seam_links.md, its worked example: the distance over the wrap. -/
theorem test_seq_distance_wraps : seqDist 0x006 0xFFE = 8 ∧ seqDist 0xFFD 0xFFE = 4095 := by decide

/-- 11_access_guards.md, its worked example: the two regions of port P40. -/
def exampleGuard : GuardUnit :=
  { regs := [0x00024587 + 0x4000000000 * 2 ^ 64, 0x00020003 + 0x5000000000 * 2 ^ 64], priv := true, tagAt := fun _ => some 5 }

theorem test_guard_write_runs_off : guardCheck exampleGuard { write := true } 0x4FFFFFFF00 512
    = some { reason := 2, region := 1, cross := true, key := 0, addr := 0x5000000000 } := by decide +kernel

theorem test_guard_write_inside : guardCheck exampleGuard { write := true } 0x4FFFFFFE00 512 = none := by decide +kernel

/-- 15_lifecycle_firmware.md: an interrupted return from PROVISIONED leaves 0x23, 0x33 or 0x3B and is completed. -/
theorem test_interrupted_return_completed :
    [0x23, 0x33, 0x3B].all (fun p => (patterned p).romFuses.life.fuses.lc == 0x3F) = true := by decide +kernel

/-- 14_management.md, its worked example: OD 0x5017.03 in the bytes of a WRITE_REQ is LIMIT_MA of slot 7. -/
theorem test_write_req_names_limit : odKey (leNat [0x17, 0x50]) 3 = K.LIMIT_MA 7 ∧ leNat [0x4C, 0x1D, 0, 0] = 7500 := by decide

/-- 00_scope.md R6: a register of a die in reset reads as all ones to a core. -/
theorem test_dead_die_reads_ones :
    (match exec (.registerRead (.core 0) 0 0 4) { run with st := { run.st with tileHeld := [(0, true)] } } with
     | .next t => (KMap.get {} t.ord.core 0).rd == 0xFFFFFFFF
     | _ => false) = true := by decide +kernel

end Sys2Proof.Tests
end

section
/-!
PROOFS. The statements of 00_scope.md: steps, time and the queue, the idle cycle, reset, register and object accesses, the tick
boundary, the service port.
-/
namespace Sys2Proof.Machine

/-! ### Steps, time and the queue -/

/-- Settles O1: the queue is the model's own (log entries 7 and 10). -/
theorem stepRunsFrontCommand : Obligations.StepRunsFrontCommand := by
  intro c s rest h
  exact step_cons s c rest h

/-- Settles O51: commands by `exec_onward`, the idle cycle by what it adds to the time, both in `step_onward`. Time and its moves are the
model's choice (log entry 8). -/
theorem timeRunsForward : Obligations.TimeRunsForward := by
  intro s t h
  exact (step_onward s t h).2

/-- Settles O52: the queue is one of the parts that `exec_onward` keeps for every command (log entry 10). -/
theorem commandsLeaveTheQueue : Obligations.CommandsLeaveTheQueue := by
  intro i s t h
  exact (exec_onward i s t h).pending

/-! ### The idle cycle -/

/-- An item that is not ready does not publish. -/
theorem publishItem_of_not_ready {ready : State → Nat → Bool} {s : State} {k : Nat} (h : ready s k = false) :
    State.publishItem ready s k = s := by
  simp [State.publishItem, h]

/-- The next item of the list does its work once, when it starts in this tick and is ready. -/
theorem publishItem_of_ready {ready : State → Nat → Bool} {s : State} {k : Nat} (hk : s.tm.item + 1 = k)
    (hr : s.itemRuns k = true) (h : ready s k = true) :
    State.publishItem ready s k = { s.tickItem k with tm := { (s.tickItem k).tm with item := k } } := by
  simp [State.publishItem, hk, hr, h]

/-- A list of items none of which is due leaves the machine alone. -/
theorem foldl_publishItem_of_none_due (ks : List Nat) (s : State) (h : ∀ k ∈ ks, s.itemDue k = false) :
    ks.foldl (State.publishItem State.itemDue) s = s := by
  induction ks with
  | nil => rfl
  | cons k ks ih =>
    rw [List.foldl_cons, publishItem_of_not_ready (h k List.mem_cons_self)]
    exact ih (fun j hj => h j (List.mem_cons_of_mem _ hj))

theorem runItems_of_no_tick {s : State} (h : s.hubHeld = true ∨ s.tm.overrun = true) : s.runItems = s := by
  unfold State.runItems
  exact if_pos (by simpa using h)

theorem runItems_of_tick {s : State} (hh : s.hubHeld = false) (ho : s.tm.overrun = false) :
    s.runItems = [1, 2, 3, 4, 5, 6].foldl (State.publishItem State.itemDue) s := by
  unfold State.runItems
  exact if_neg (by simp [hh, ho])

/-- Settles O55: an item takes effect only when it is due, so a list with none due is passed over. -/
theorem idleCyclePasses : Obligations.IdleCyclePasses := by
  refine ⟨fun s h => step_nil s h, fun s h => ?_, fun s hh ho => runItems_of_tick hh ho⟩
  by_cases hn : s.hubHeld = true ∨ s.tm.overrun = true
  · exact runItems_of_no_tick hn
  · obtain ⟨hh, ho⟩ := not_or.1 hn
    rw [runItems_of_tick (Bool.eq_false_of_not_eq_true hh) (Bool.eq_false_of_not_eq_true ho)]
    exact foldl_publishItem_of_none_due _ s (h.resolve_left hh |>.resolve_left ho)

/-! ### Reset -/

/-- Settles O54: at reset every sparse table is empty, so each read gives its table's default. -/
theorem resetStateGivenValues : Obligations.ResetStateGivenValues := by
  refine ⟨rfl, rfl, rfl, ?_, fun k => rfl, fun k => rfl, fun n => rfl, fun sid => rfl, reset_sram_wf⟩
  show 0x03 ∈ [0x00, 0x03, 0x0F, 0x3F, 0xFF]
  decide

/-! ### Register accesses (R6, R18) -/

theorem csrOpen_iff {s : State} {via : CsrVia} {die : Nat} :
    s.csrOpen via die = true ↔ s.csrAllowed via die = true ∧ s.dieUp die = true := by
  simp [State.csrOpen]

theorem csrMisaligned_iff {off n : Nat} : csrMisaligned off n = true ↔ n ≠ 4 ∨ off % 4 ≠ 0 := by
  simp [csrMisaligned]

/-- The fault of an access that breaks R6 is correctable: it writes the owning block only. -/
theorem csrBadAccess_eq (s : State) (via : CsrVia) (die off : Nat) (write : Bool) :
    s.csrBadAccess via die off write = s.raiseCore (s.csrOwner die off) 1 0xF0 false
      { master := csrMaster via, access := if write then 0x0C else 0x0B, addr := some (die * 2 ^ 32 + off) } :=
  raise_below_fatal _ _ _ _ _ _ (by decide)

theorem csrGet_misaligned {s : State} {via : CsrVia} {die off n : Nat} (hu : s.dieUp die = true)
    (hm : csrMisaligned off n = true) :
    s.csrGet via die off n = (allOnes n, s.csrBadAccess via die off false) := by
  simp [State.csrGet, hu, hm]

theorem csrSet_misaligned {s : State} {via : CsrVia} {die off n v : Nat} (hu : s.dieUp die = true)
    (hm : csrMisaligned off n = true) : s.csrSet via die off n v = s.csrBadAccess via die off true := by
  simp [State.csrSet, hu, hm]

theorem csrSet_aligned {s : State} {via : CsrVia} {die off n v : Nat} (hu : s.dieUp die = true)
    (hm : csrMisaligned off n = false) : s.csrSet via die off n v = s.csrPut via v (csrReg die off) := by
  simp [State.csrSet, hu, hm]

theorem csrSet_unreachable {s : State} {via : CsrVia} {die off n v : Nat} (hu : s.dieUp die = false) :
    s.csrSet via die off n v = s.csrUnreach via := by
  simp [State.csrSet, hu]

/-- A register read that the gate lets pass returns its value to the issuer. -/
theorem exec_registerRead_allowed {s : State} {via : CsrVia} {die : DieIx} (off : Word32) (n : Nat)
    (h : s.csrAllowed via die = true) :
    exec (.registerRead via die off n) s
      = .next ((s.csrGet via die off.toNat n).2.csrReturn via die off.toNat (s.csrGet via die off.toNat n).1) := by
  show execRegisterRead via die off n s = _
  simp [execRegisterRead, h]

theorem exec_registerWrite_allowed {s : State} {via : CsrVia} {die : DieIx} (off v : Word32) (n : Nat)
    (h : s.csrAllowed via die = true) :
    exec (.registerWrite via die off n v) s = .next (s.csrSet via die off.toNat n v.toNat) := by
  show execRegisterWrite via die off n v s = _
  simp [execRegisterWrite, h]

/-- A read that breaks R6 raises the fault and returns all ones. -/
theorem exec_registerRead_misaligned {s : State} {via : CsrVia} {die : DieIx} {off : Word32} {n : Nat}
    (ho : s.csrOpen via die = true) (hm : n ≠ 4 ∨ off.toNat % 4 ≠ 0) :
    exec (.registerRead via die off n) s
      = .next ((s.raiseCore (s.csrOwner die off.toNat) 1 0xF0 false
          { master := csrMaster via, access := 0x0B, addr := some (die * 2 ^ 32 + off.toNat) }).csrReturn via die off.toNat (allOnes n)) := by
  obtain ⟨ha, hu⟩ := csrOpen_iff.1 ho
  rw [exec_registerRead_allowed off n ha, csrGet_misaligned hu (csrMisaligned_iff.2 hm), csrBadAccess_eq]
  rfl

/-- A write that breaks R6 raises the fault and does no more. -/
theorem exec_registerWrite_misaligned {s : State} {via : CsrVia} {die : DieIx} {off : Word32} (v : Word32) {n : Nat}
    (ho : s.csrOpen via die = true) (hm : n ≠ 4 ∨ off.toNat % 4 ≠ 0) :
    exec (.registerWrite via die off n v) s
      = .next (s.raiseCore (s.csrOwner die off.toNat) 1 0xF0 false
          { master := csrMaster via, access := 0x0C, addr := some (die * 2 ^ 32 + off.toNat) }) := by
  obtain ⟨ha, hu⟩ := csrOpen_iff.1 ho
  rw [exec_registerWrite_allowed off v n ha, csrSet_misaligned hu (csrMisaligned_iff.2 hm), csrBadAccess_eq]
  rfl

/-- Settles O41: the raise is below fatal, so it writes the owning block only; which block owns a register is the model's choice (log
entry 48). -/
theorem registerAccessesAligned : Obligations.RegisterAccessesAligned :=
  ⟨fun _ _ _ _ _ ho hm => exec_registerRead_misaligned ho hm, fun _ _ _ _ _ ho hm => exec_registerRead_misaligned ho hm,
    fun _ _ _ v _ _ ho hm => exec_registerWrite_misaligned v ho hm⟩

/-! ### Access codes of objects (R9, R492) -/

theorem odValue_wo {s : State} {r : OdRow} (sid key : Nat) (h : r.access = .wo) : s.odValue sid r key = 0 := by
  simp [State.odValue, h]

/-- A staged object that is no event's and no session's own reads from the generation, active or drafted. -/
theorem odValue_rws {s : State} {r : OdRow} (sid : Nat) {key : Nat} (ha : r.access = .rws) (he : r.home ≠ .event)
    (hp : perSession key = false) : s.odValue sid r key = s.rwsValue sid key := by
  simp [State.odValue, ha, he, hp]

theorem rwsValue_active {s : State} {sid : Nat} (key : Nat) (h : (s.session sid).draftView = false ∨ s.o K.DRAFT_STATE ≠ 1) :
    s.rwsValue sid key = s.c key := by
  unfold State.rwsValue
  exact if_neg (by rcases h with h | h <;> simp [h])

theorem rwsValue_draft {s : State} {sid : Nat} (key : Nat) (hv : (s.session sid).draftView = true) (hd : s.o K.DRAFT_STATE = 1) :
    s.rwsValue sid key = cfgOf s.gen.draft key := by
  simp [State.rwsValue, hv, hd]

/-- Contents that a staged write starts from: the open draft, else a copy of the generation committed and not yet published,
else of the active one (R492). -/
def State.draftBase (s : State) : KMap Nat :=
  if s.o K.DRAFT_STATE = 1 then s.gen.draft else if s.gen.commitDue then s.gen.committed else s.gen.active

theorem stage_refused {s : State} {sid : Nat} (key v : Nat) (hd : s.o K.DRAFT_STATE = 1) (ho : s.o K.DRAFT_OWNER ≠ sid) :
    s.stage sid key v = (odNo 0x0603, s) := by
  simp [State.stage, hd, ho]

/-- Staging, refused or not, leaves the active generation. -/
theorem stage_active (s : State) (sid key v : Nat) : (s.stage sid key v).2.gen.active = s.gen.active := by
  unfold State.stage
  split <;> rfl

/-- A staged write of the draft's owner, or of the first session that writes, is in the draft. -/
theorem stage_taken {s : State} {sid : Nat} (key v : Nat) (h : s.o K.DRAFT_STATE = 1 → s.o K.DRAFT_OWNER = sid) :
    (s.stage sid key v).1 = odOk ∧ (s.stage sid key v).2.o K.DRAFT_STATE = 1 ∧ (s.stage sid key v).2.o K.DRAFT_OWNER = sid
      ∧ (s.stage sid key v).2.gen.draft = KMap.set (odDefault key) s.draftBase key v := by
  have hs : (s.o K.DRAFT_STATE == 1 && decide (s.o K.DRAFT_OWNER ≠ sid)) = false := by simpa using h
  have h1 : K.DRAFT_STATE ≠ K.DRAFT_CHANGES := by decide
  have h2 : K.DRAFT_STATE ≠ K.DRAFT_OWNER := by decide
  have h3 : K.DRAFT_OWNER ≠ K.DRAFT_CHANGES := by decide
  simp only [State.stage, hs, Bool.false_eq_true, if_false]
  refine ⟨trivial, ?_, ?_, ?_⟩
  · rw [o_setO_other _ _ h1, o_setO_other _ _ h2, o_setO]
  · rw [o_setO_other _ _ h3, o_setO]
  · simp [State.draftBase]

theorem draftBase_open {s : State} (h : s.o K.DRAFT_STATE = 1) : s.draftBase = s.gen.draft := if_pos h

theorem draftBase_closed {s : State} (h : s.o K.DRAFT_STATE ≠ 1) :
    s.draftBase = if s.gen.commitDue then s.gen.committed else s.gen.active := if_neg h

/-- Settles O46: reads by `odValue_wo` and `odValue_rws`, staged writes by `stage_taken` over the contents they start from. -/
theorem accessCodesAct : Obligations.AccessCodesAct := by
  refine ⟨fun s sid key r h => odValue_wo sid key h, fun s sid key r ha he hp => ?_, fun s sid key v j => ?_,
    fun s sid key v hd ho => stage_refused key v hd ho, fun s sid key v j hd => ?_, fun s sid key v j hd ho => ?_,
    fun s key v => ⟨rfl, o_setO s key v⟩⟩
  · rw [odValue_rws sid ha he hp]
    exact ⟨rwsValue_active key, rwsValue_draft key⟩
  · have ha := stage_active s sid key v
    exact ⟨ha, by unfold State.c; rw [ha]⟩
  · obtain ⟨hok, hstate, howner, hdraft⟩ := stage_taken key v (fun h => absurd h hd : s.o K.DRAFT_STATE = 1 → s.o K.DRAFT_OWNER = sid)
    refine ⟨hok, hstate, howner, ?_, fun hj => ?_⟩
    · rw [hdraft, cfgOf_set]
    · rw [hdraft, cfgOf_set_other _ _ hj, draftBase_closed hd]
  · obtain ⟨hok, -, -, hdraft⟩ := stage_taken key v (fun _ => ho : s.o K.DRAFT_STATE = 1 → s.o K.DRAFT_OWNER = sid)
    refine ⟨hok, ?_, fun hj => ?_⟩
    · rw [hdraft, cfgOf_set]
    · rw [hdraft, cfgOf_set_other _ _ hj, draftBase_open hd]

/-! ### Object writes by index, features, the tick boundary -/

theorem exec_objectWrite_ready {s u : State} {sess : SessRef} (ix : BitVec 16) (sub : Byte) (d : List Byte)
    (h : s.sessionFor sess = .ready u) :
    exec (.objectWrite sess ix sub d) s
      = .next (((u.odPut sess (odKey ix.toNat sub.toNat) d).2.answerOd sess (u.odPut sess (odKey ix.toNat sub.toNat) d).1).odAfter
          (odKey ix.toNat sub.toNat) (u.odPut sess (odKey ix.toNat sub.toNat) d).1) := by
  show execObjectWrite sess ix sub d s = _
  simp [execObjectWrite, h]

theorem exec_objectWrite_busy {s : State} {sess : SessRef} (ix : BitVec 16) (sub : Byte) (d : List Byte)
    (h : s.sessionFor sess = .busy) : exec (.objectWrite sess ix sub d) s = .next (s.answerOd sess (odNo 0x0502)) := by
  show execObjectWrite sess ix sub d s = _
  simp [execObjectWrite, h]

theorem exec_objectWrite_silent {s : State} {sess : SessRef} (ix : BitVec 16) (sub : Byte) (d : List Byte)
    (h : s.sessionFor sess = .silent) : exec (.objectWrite sess ix sub d) s = .next s := by
  show execObjectWrite sess ix sub d s = _
  simp [execObjectWrite, h]

theorem exec_featRequest_accepted {s u : State} {sess : SessRef} {v : Word64} (h : s.accepts sess K.FEAT_REQUEST 8 v.toNat u) :
    exec (.featRequest sess v) s
      = .next ((u.updSess sess (fun x => { x with feat := Nat.lor 1 (Nat.land v.toNat (odDefault K.FEAT_DEVICE)) })).answerOd sess odOk) :=
  congrArg _ (odCommand_accepts (ownFeatRequest sess v.toNat) h)

theorem exec_tickBoundary_held {s : State} (f : TickFault) (h : s.hubHeld = true) : exec (.tickBoundary f) s = .next s :=
  if_pos h

/-- The boundary of a tick engine whose state is well: the list begins anew. -/
theorem exec_tickBoundary_well {s u : State} {f : TickFault} (h : s.hubHeld = false)
    (hc : s.finishItems.countTick.passBoundary.endSlow.stateCheck f.upset = (false, u)) :
    exec (.tickBoundary f) s
      = .next (({ u with tm := { u.tm with overrun := false, item := 0, slow := f.slow.map (fun y => (y.1.val, y.2)) } } : State).drainBcast.settleRings
          |>.settleFlush.settleHeld.settleSwap) := by
  show execTickBoundary f s = _
  simp [execTickBoundary, h, hc]

/-- The boundary of a tick engine whose state is bad: the tick is lost. -/
theorem exec_tickBoundary_bad {s u : State} {f : TickFault} (h : s.hubHeld = false)
    (hc : s.finishItems.countTick.passBoundary.endSlow.stateCheck f.upset = (true, u)) :
    exec (.tickBoundary f) s = .next u.tickOverrun := by
  show execTickBoundary f s = _
  simp [execTickBoundary, h, hc]

/-- A change of CT_STATE is noted in the tick engine's times of the source only. -/
theorem updCtState_tm (s : State) : s.updCtState.tm = s.noteRef.tm := by
  unfold State.updCtState
  split <;> simp

/-- The boundary counts the tick, moves CT on by 1,000 ns and begins a tick of the next length. -/
theorem passBoundary_tick (s : State) : s.passBoundary.tm.ticks = s.tm.ticks + 1
    ∧ s.passBoundary.tm.ctBase = (s.tm.ctBase + 1000) % 2 ^ 64
    ∧ s.passBoundary.tm.tickStart = s.tm.tickStart + s.tm.tickLen * Config.fclk
    ∧ s.passBoundary.tm.tickLen = (s.advance (s.tm.tickStart + s.tm.tickLen * Config.fclk)).nextTick.1 := by
  unfold State.passBoundary
  simp only [updCtState_tm]
  simp [State.noteRef]

/-- Settles O32: one lemma above for each command and outcome. The items' publication is the model's choice (log entry 8), the answers of
session accesses to registers too (log entry 49). -/
theorem objectsAndRegistersAccessed : Obligations.ObjectsAndRegistersAccessed := by
  refine ⟨fun sess ix sub d s u h => exec_objectWrite_ready ix sub d h, fun sess ix sub d s h => exec_objectWrite_busy ix sub d h,
    fun sess ix sub d s h => exec_objectWrite_silent ix sub d h, fun sess v s u h => exec_featRequest_accepted h,
    fun b x s h => exec_tickBoundary_held _ h, fun b x s u h hc => exec_tickBoundary_well h hc,
    fun b x s u h hc => exec_tickBoundary_bad h hc, fun s k f hk hr h => publishItem_of_ready hk hr h, passBoundary_tick,
    fun c die off n v s u ha hg => ?_, fun sess die off n v s u ha hg => ?_, fun via die off v n s ho hm => ?_,
    fun via die off v n s ha hu => ?_, fun s key v j => ⟨o_setO s key v, o_setO_other s v⟩⟩
  · rw [exec_registerRead_allowed off n ha, hg]
    rfl
  · rw [exec_registerRead_allowed off n ha, hg]
    rfl
  · obtain ⟨ha, hu⟩ := csrOpen_iff.1 ho
    rw [exec_registerWrite_allowed off v n ha, csrSet_aligned hu hm]
  · rw [exec_registerWrite_allowed off v n ha, csrSet_unreachable hu]
    rfl

/-! ### Every command answers

Every meaning is one next state, or branches and ends each branch in a next state. The meanings with the most branches have a lemma of
their own. -/

theorem execBrimAckReceive_answers (t : TileIx) (s : State) : ∃ s', execBrimAckReceive t s = .next s' := by
  simp only [execBrimAckReceive]
  (repeat' split) <;> exact ⟨_, rfl⟩

theorem execPresenceChange_answers (n : SlotIx) (edge : PresenceEdge) (s : State) : ∃ t, execPresenceChange n edge s = .next t := by
  simp only [execPresenceChange]
  (repeat' split) <;> exact ⟨_, rfl⟩

theorem execLinkActive_answers (p : PortIx) (info : LinkInfo) (s : State) : ∃ t, execLinkActive p info s = .next t := by
  simp only [execLinkActive]
  (repeat' split) <;> exact ⟨_, rfl⟩

theorem execLinkRecovery_answers (p : PortIx) (cause : RecoveryCause) (back : Bool) (s : State) : ∃ t, execLinkRecovery p cause back s = .next t := by
  simp only [execLinkRecovery]
  (repeat' split) <;> exact ⟨_, rfl⟩

theorem execSeamUnitReceive_answers (sm : TileIx) (d : Fin 2) (k : Fin 8) (u : SeamUnit) (s : State) :
    ∃ t, execSeamUnitReceive sm d k u s = .next t := by
  simp only [execSeamUnitReceive]
  (repeat' split) <;> exact ⟨_, rfl⟩

theorem execCheckEvaluate_answers (sm : TileIx) (d : Fin 2) (s : State) : ∃ t, execCheckEvaluate sm d s = .next t := by
  simp only [execCheckEvaluate]
  (repeat' split) <;> exact ⟨_, rfl⟩

theorem execSeamRetrainComplete_answers (ended : RetrainEnd) (s : State) : ∃ t, execSeamRetrainComplete ended s = .next t := by
  simp only [execSeamRetrainComplete]
  (repeat' split) <;> exact ⟨_, rfl⟩

theorem execTimingFlitReceive_answers (sm : TileIx) (d : Fin 2) (f : TimingFlit) (s : State) : ∃ t, execTimingFlitReceive sm d f s = .next t := by
  simp only [execTimingFlitReceive]
  (repeat' split) <;> exact ⟨_, rfl⟩

theorem execEvacGranuleMove_answers (s : State) : ∃ t, execEvacGranuleMove s = .next t := by
  simp only [execEvacGranuleMove]
  (repeat' split) <;> exact ⟨_, rfl⟩

theorem execPartSwapComplete_answers (k : Fin 8) (ok : Bool) (s : State) : ∃ t, execPartSwapComplete k ok s = .next t := by
  simp only [execPartSwapComplete]
  (repeat' split) <;> exact ⟨_, rfl⟩

theorem execTemperaturePoll_answers (mc : List Int) (s : State) : ∃ t, execTemperaturePoll mc s = .next t := by
  simp only [execTemperaturePoll]
  (repeat' split) <;> exact ⟨_, rfl⟩

/-- Every command answers a next state. The commands listed without a lemma of their own branch; those not listed do not. -/
theorem exec_answers (i : Instr) (s : State) : ∃ t, exec i s = .next t := by
  cases i with
  | brimAckReceive t => exact execBrimAckReceive_answers t s
  | presenceChange n edge => exact execPresenceChange_answers n edge s
  | linkActive p info => exact execLinkActive_answers p info s
  | linkRecovery p cause back => exact execLinkRecovery_answers p cause back s
  | seamUnitReceive sm d k u => exact execSeamUnitReceive_answers sm d k u s
  | checkEvaluate sm d => exact execCheckEvaluate_answers sm d s
  | seamRetrainComplete ended => exact execSeamRetrainComplete_answers ended s
  | timingFlitReceive sm d f => exact execTimingFlitReceive_answers sm d f s
  | evacGranuleMove => exact execEvacGranuleMove_answers  s
  | partSwapComplete k ok => exact execPartSwapComplete_answers k ok s
  | temperaturePoll mc => exact execTemperaturePoll_answers mc s
  | tickBoundary | generationPublish | guardEpochPublish | tileForwardToLanding | cardingMatchSlot | fullingStage1 | fullingStage2 |
    startDrainToCarding | cardingStart | matcherSelftestDone | agentMergeAdmit | egressClassPick | crownRequestArrive | birspReceive | snoopTimeout |
    targetResponseReceive | brimFill | brimRead | brimInv | windowInitComplete | resyncLineCopy | departureMarkerArrive | departureSweepStep |
    fenceDoorbell | fenceEnd | fenceTimeout | barSysTimeout | ldres | stcond | storeBufferRelease | ctLoadEdge | syncEdge | syncMiss | holdoffEnd |
    triggerMessageBuild | timeMessageSend | pulseAssert | pulseRelease | triggerFencePoint | tfenceWaitExpiry | freezePoint | freezeSweepStep |
    freezeComplete | captureFeedWrite | ringFlushTimeout | hdmDecoderCommit | bindingPublish | unbindTimeout | extentZeroFillDone |
    addDynamicCapacityResponse | releaseDynamicCapacity | extentTimeout | perstRelease | slotOffAfterPerst | rspTimeout | loopbackEntry | l1Entry |
    l0pWidthChange | laneMargining | eyeScanPoint | bitslipDone | seamUnitLaunch | seamReplayTimerExpiry | keepaliveSend | seamRetrainStart |
    seamStrandDown | timingStrandDown | strandRetry | tickMark | seamHealthy | sliceFrozen | descriptorStart | chunkIssue | chunkReadReturn |
    descriptorFinish | tagCmdWritten | guardSyncTimeout | vbusReverseTurnOff | vbusOvervoltageOff | powerOnResetRelease | vbusWarnAssert |
    vbusWarnClear | vbusBelow33 | vbusRecover36 | vbusBelow31 | railStart | railUp | railStartTimeout | railFault | railOffStep | railRetry |
    pmbusPoll | dataPathRelease | rampStart | gateFullyOn | currentLimitEnter | faultTimerStop | faultTimerExpiry | rampTimeout | tripFailure |
    supplyOutOfRange | supplyReturn | passFetWatchFire | dischargeEnd | channelSelftestDone | feedSwitchover | feedWarningAssert | feedWarningClear |
    redundancyLost | redundancyRegained | powerWarningMessage | hostGpfPhase2Request | gpfTargetForward | gpfHostWaitExpiry | eventDeliver | emcy |
    segAckTimerExpiry | segTimeout | illegalFuncFrame | addrClaimTimerExpiry | addrRetryExpiry | canErrorStateChange | sessionIdleExpiry |
    objectWrite | notifySample | servicePortBadOp | blobIdleExpiry | attestReportReady | imageHealthReport | probationExpiry | dataPathImagesLoaded |
    hkRstN | hkWatchdog | resetRelease | cxlHotReset | thermalShutdown | thermalRecovery | partnerDetect | l1Exit | servicePortLinkChange |
    spcOscillatorOutOfRange | tileSwapDeadline | gpfTargetComplete | coreMemoryAccess | registerRead | jtagTapAccess =>
    simp only [exec, execTickBoundary, execGenerationPublish, execGuardEpochPublish, execTileForwardToLanding, execCardingMatchSlot, execFullingStage1,
      execFullingStage2, execStartDrainToCarding, execCardingStart, execMatcherSelftestDone, execAgentMergeAdmit, execEgressClassPick,
      execCrownRequestArrive, execBirspReceive, execSnoopTimeout, execTargetResponseReceive, execBrimFill, execBrimRead, execBrimInv,
      execWindowInitComplete, execResyncLineCopy, execDepartureMarkerArrive, execDepartureSweepStep, execFenceDoorbell, execFenceEnd,
      execFenceTimeout, execBarSysTimeout, execLdres, execStcond, execStoreBufferRelease, execCtLoadEdge, execSyncEdge, execSyncMiss, execHoldoffEnd,
      execTriggerMessageBuild, execTimeMessageSend, execPulseAssert, execPulseRelease, execTriggerFencePoint, execTfenceWaitExpiry, execFreezePoint,
      execFreezeSweepStep, execFreezeComplete, execCaptureFeedWrite, execRingFlushTimeout, execHdmDecoderCommit, execBindingPublish,
      execUnbindTimeout, execExtentZeroFillDone, execAddDynamicCapacityResponse, execReleaseDynamicCapacity, execExtentTimeout, execPerstRelease,
      execSlotOffAfterPerst, execRspTimeout, execLoopbackEntry, execL1Entry, execL0pWidthChange, execLaneMargining, execEyeScanPoint,
      execBitslipDone, execSeamUnitLaunch, execSeamReplayTimerExpiry, execKeepaliveSend, execSeamRetrainStart, execSeamStrandDown,
      execTimingStrandDown, execStrandRetry, execTickMark, execSeamHealthy, execSliceFrozen, execDescriptorStart, execChunkIssue,
      execChunkReadReturn, execDescriptorFinish, execTagCmdWritten, execGuardSyncTimeout, execVbusReverseTurnOff, execVbusOvervoltageOff,
      execPowerOnResetRelease, execVbusWarnAssert, execVbusWarnClear, execVbusBelow33, execVbusRecover36, execVbusBelow31, execRailStart, execRailUp,
      execRailStartTimeout, execRailFault, execRailOffStep, execRailRetry, execPmbusPoll, execDataPathRelease, execRampStart, execGateFullyOn,
      execCurrentLimitEnter, execFaultTimerStop, execFaultTimerExpiry, execRampTimeout, execTripFailure, execSupplyOutOfRange, execSupplyReturn,
      execPassFetWatchFire, execDischargeEnd, execChannelSelftestDone, execFeedSwitchover, execFeedWarningAssert, execFeedWarningClear,
      execRedundancyLost, execRedundancyRegained, execPowerWarningMessage, execHostGpfPhase2Request, execGpfTargetForward, execGpfHostWaitExpiry,
      execEventDeliver, execEmcy, execSegAckTimerExpiry, execSegTimeout, execIllegalFuncFrame, execAddrClaimTimerExpiry, execAddrRetryExpiry,
      execCanErrorStateChange, execSessionIdleExpiry, execObjectWrite, execNotifySample, execServicePortBadOp, execBlobIdleExpiry,
      execAttestReportReady, execImageHealthReport, execProbationExpiry, execDataPathImagesLoaded, execHkRstN, execHkWatchdog, execResetRelease,
      execCxlHotReset, execThermalShutdown, execThermalRecovery, execPartnerDetect, execL1Exit, execServicePortLinkChange,
      execSpcOscillatorOutOfRange, execTileSwapDeadline, execGpfTargetComplete, execCoreMemoryAccess, execRegisterRead, execJtagTapAccess]
    (repeat' split) <;> exact ⟨_, rfl⟩
  | _ => exact ⟨_, rfl⟩

/-- Settles O53: no command stops the model (log entry 11). -/
theorem everyCommandAnswers : Obligations.EveryCommandAnswers := exec_answers

/-! ### Service-port frames (R504, R505, R507) -/

/-- A request outside sessions that is well formed acts. -/
theorem svcOutside_acts {s : State} {f : SvcFrame} (op : Nat) (act : State → State) (hs : s.svcServes = true) (hv : f.version = 1)
    (hn : f.session.toNat = 0) (hf : f.fits 0 = true) : s.svcOutside f op act = act s := by
  have h0 : f.session = 0 := BitVec.eq_of_toNat_eq (by simpa using hn)
  simp [State.svcOutside, hs, hv, hf, h0]

/-- A request outside sessions that is malformed is answered 0x0801. -/
theorem svcOutside_malformed {s : State} {f : SvcFrame} (op : Nat) (act : State → State) (hs : s.svcServes = true) (hv : f.version = 1)
    (hf : f.fits 0 = false) : s.svcOutside f op act = s.svcSend f.session.toNat f.seq.toNat op 0x0801 [] := by
  simp [State.svcOutside, hs, hv, hf]

/-- The last request again: the kept response is sent again, and nothing acts. -/
theorem svcRequest_repeated {s : State} {f : SvcFrame} {x : Session} (op : Nat) (inRom ok : Bool) (act : State → State)
    (hs : s.svcServes = true) (hv : f.version = 1) (hx : s.sess? (sidSvc f.session.toNat) = some x) (hq : f.seq.toNat = x.lastSeq) :
    s.svcRequest f op inRom ok act
      = (s.updSess (sidSvc f.session.toNat) (fun x => { x with lastAt := s.now })).emit .svc 0 (x.kept.getD []) := by
  simp [State.svcRequest, hs, hv, hx, hq]

/-- A request that is neither the last nor the one after it is answered 0x0704. -/
theorem svcRequest_out_of_order {s : State} {f : SvcFrame} {x : Session} (op : Nat) (inRom ok : Bool) (act : State → State)
    (hs : s.svcServes = true) (hv : f.version = 1) (hx : s.sess? (sidSvc f.session.toNat) = some x) (hl : f.seq.toNat ≠ x.lastSeq)
    (ha : f.seq.toNat ≠ seqAfter x.lastSeq) :
    s.svcRequest f op inRom ok act = s.svcSend f.session.toNat f.seq.toNat op 0x0704 [] := by
  simp [State.svcRequest, hs, hv, hx, hl, ha]

/-- A frame of another version, or of a session that is not open, is discarded. -/
theorem svcRequest_discarded {s : State} {f : SvcFrame} (op : Nat) (inRom ok : Bool) (act : State → State) (hs : s.svcServes = true)
    (hd : f.version ≠ 1 ∨ s.sess? (sidSvc f.session.toNat) = none) : s.svcRequest f op inRom ok act = s.svcDrop := by
  by_cases hv : f.version = 1
  · simp [State.svcRequest, hs, hv, hd.resolve_left (not_not_intro hv)]
  · simp only [State.svcRequest, hs, ne_eq, hv, not_false_eq_true, if_true, Bool.not_true, Bool.false_eq_true, if_false]

/-- The request after the last, well formed, acts. -/
theorem svcRequest_acts {s u : State} {f : SvcFrame} {ok : Bool} (op : Nat) (inRom : Bool) (act : State → State)
    (h : s.svcTakes f u) (hok : ok = true) : s.svcRequest f op inRom ok act = act u := by
  rw [svcRequest_takes op inRom ok act h, if_pos hok]

/-- The request after the last, malformed, is answered 0x0801. -/
theorem svcRequest_malformed {s u : State} {f : SvcFrame} {ok : Bool} (op : Nat) (inRom : Bool) (act : State → State)
    (h : s.svcTakes f u) (hok : ok = false) : s.svcRequest f op inRom ok act = u.svcAnswer f.session.toNat f.seq.toNat op 0x0801 := by
  rw [svcRequest_takes op inRom ok act h, if_neg (by simp [hok])]

/-- Every request within a session is its frame's request, with a meaning of its own. -/
theorem exec_sessionRequest (h : SvcHead) (p : List Byte) (ix : BitVec 16) (sub rv : Byte) (off len : Word32) (rest : List Byte)
    (die : Byte) (rv3 : BitVec 24) (val : Word32) (kd : Byte) (tot c : Word32) (dat : List Byte) :
    ∀ i ∈ [Instr.closeSession h p, .odRead h ix sub rv off len, .odWrite h ix sub rv off rest, .csrRead h die rv3 off, .csrWrite h die rv3 off val,
        .blobBegin h kd rv3 tot c, .blobData h off len dat, .blobEnd h p, .blobStatus h p, .blobAbort h p],
      ∃ (q : List Byte) (op : Nat) (inRom ok : Bool) (act : State → State), ∀ s, exec i s = .next (s.svcRequest (h.frame q) op inRom ok act) := by
  simp only [List.forall_mem_cons]
  refine ⟨?_, ?_, ?_, ?_, ?_, ?_, ?_, ?_, ?_, ?_, by simp⟩ <;> exact ⟨_, _, _, _, _, fun _ => rfl⟩

/-! ### The requests of a session (R506, R529, R530) -/

section
variable {s u : State} {h : SvcHead} {f : SvcFrame}

/-- CLOSE is answered, and the session is closed. -/
theorem exec_closeSession_taken {p : List Byte} (e : f = h.frame p) (ht : s.svcTakes f u) (hf : f.fits 0 = true) :
    exec (.closeSession h p) s
      = .next ((u.svcSend f.session.toNat f.seq.toNat 0x03 0 []).closeSession (sidSvc f.session.toNat)) := by
  subst e
  exact congrArg _ (svcRequest_acts _ _ _ ht hf)

/-- An OD_READ of a length in range that the object's checks let pass answers the object's size and bytes. -/
theorem exec_odRead_taken {ix : BitVec 16} {sub rv : Byte} {off len : Word32} {sz : Nat} {d : List Byte} {w : State}
    (e : f = h.frame (toBytes 2 ix.toNat ++ [sub, rv] ++ toBytes 4 off.toNat ++ toBytes 4 len.toNat)) (ht : s.svcTakes f u)
    (hf : f.fits 12 = true) (hz : f.at_ 3 1 = 0) (h1 : 1 ≤ f.at_ 8 4) (h2 : f.at_ 8 4 ≤ 1468)
    (hr : u.odReadPart (sidSvc f.session.toNat) f.key (f.at_ 4 4) (f.at_ 8 4) = (odOk, sz, d, w)) :
    exec (.odRead h ix sub rv off len) s
      = .next (w.svcAnswer f.session.toNat f.seq.toNat 0x10 0 (sz :: d.length :: d.map (·.toNat))) := by
  subst e
  refine congrArg _ ((svcRequest_acts _ _ _ ht ?_).trans ?_) <;> generalize h.frame _ = f at *
  · simp [hf, hz]
  have hl : ¬ (f.at_ 8 4 == 0 || decide (1468 < f.at_ 8 4)) = true := by simpa using ⟨Nat.ne_of_gt h1, h2⟩
  rw [if_neg hl, hr]
  rfl

/-- An OD_READ that is malformed or longer than a frame is answered 0x0801. -/
theorem exec_odRead_bad {ix : BitVec 16} {sub rv : Byte} {off len : Word32}
    (e : f = h.frame (toBytes 2 ix.toNat ++ [sub, rv] ++ toBytes 4 off.toNat ++ toBytes 4 len.toNat)) (ht : s.svcTakes f u)
    (hb : 1468 < f.at_ 8 4 ∨ f.fits 12 = false) :
    exec (.odRead h ix sub rv off len) s = .next (u.svcAnswer f.session.toNat f.seq.toNat 0x10 0x0801) := by
  subst e
  refine congrArg _ ((svcRequest_takes _ _ _ _ ht).trans ?_)
  generalize h.frame _ = f at *
  rcases hb with hb | hb
  · split
    · exact if_pos (by simp [hb])
    · rfl
  · exact if_neg (by simp [hb])

/-- An OD_WRITE of the object's whole size runs the write and answers its abort code; a reset follows the answer. -/
theorem exec_odWrite_taken {ix : BitVec 16} {sub rv : Byte} {off : Word32} {rest : List Byte} {a : OdAns} {w : State}
    (e : f = h.frame (toBytes 2 ix.toNat ++ [sub, rv] ++ toBytes 4 off.toNat ++ rest)) (ht : s.svcTakes f u)
    (hf : f.fits (12 + f.at_ 8 4) = true) (hz : f.at_ 3 1 = 0) (h1 : f.at_ 8 4 ≠ 0) (hw : odWriteForm f.key (f.at_ 4 4) (f.at_ 8 4) = true)
    (hp : u.odPut (sidSvc f.session.toNat) f.key (f.data.drop 12) = (a, w)) :
    exec (.odWrite h ix sub rv off rest) s = .next ((w.svcAnswer f.session.toNat f.seq.toNat 0x11 a.abort).odAfter f.key a) := by
  subst e
  refine congrArg _ ((svcRequest_acts _ _ _ ht ?_).trans ?_) <;> generalize h.frame _ = f at *
  · simp [hf, hz]
  have hl : ¬ (f.at_ 8 4 == 0 || !odWriteForm f.key (f.at_ 4 4) (f.at_ 8 4)) = true := by simpa using ⟨h1, hw⟩
  rw [if_neg hl, hp]

/-- A CSR_READ answers the register's value in the maker role, and 0x0401 in another. -/
theorem exec_csrRead_taken {die : Byte} {rv : BitVec 24} {off : Word32}
    (e : f = h.frame ([die] ++ toBytes 3 rv.toNat ++ toBytes 4 off.toNat)) (ht : s.svcTakes f u) (hf : f.csrOk 8 = true) :
    exec (.csrRead h die rv off) s
      = .next (if u.csrAllowed (.service (sidSvc f.session.toNat)) (f.at_ 0 1) then
          (u.csrGet (.service (sidSvc f.session.toNat)) (f.at_ 0 1) (f.at_ 4 4) 4).2.svcAnswer f.session.toNat f.seq.toNat 0x30 0
            [(u.csrGet (.service (sidSvc f.session.toNat)) (f.at_ 0 1) (f.at_ 4 4) 4).1]
        else u.svcAnswer f.session.toNat f.seq.toNat 0x30 0x0401) := by
  subst e
  refine congrArg _ ((svcRequest_acts _ _ _ ht hf).trans ?_)
  simp only [Bool.not_eq_true', ← Bool.not_eq_true, ite_not]

/-- A CSR_WRITE writes the register in the maker role, and answers 0x0401 in another. -/
theorem exec_csrWrite_taken {die : Byte} {rv : BitVec 24} {off val : Word32}
    (e : f = h.frame ([die] ++ toBytes 3 rv.toNat ++ toBytes 4 off.toNat ++ toBytes 4 val.toNat)) (ht : s.svcTakes f u)
    (hf : f.csrOk 12 = true) :
    exec (.csrWrite h die rv off val) s
      = .next (if u.csrAllowed (.service (sidSvc f.session.toNat)) (f.at_ 0 1) then
          (u.csrSet (.service (sidSvc f.session.toNat)) (f.at_ 0 1) (f.at_ 4 4) 4 (f.at_ 8 4)).svcAnswer f.session.toNat f.seq.toNat 0x31 0
        else u.svcAnswer f.session.toNat f.seq.toNat 0x31 0x0401) := by
  subst e
  refine congrArg _ ((svcRequest_acts _ _ _ ht hf).trans ?_)
  simp only [Bool.not_eq_true', ← Bool.not_eq_true, ite_not]

/-- An unknown OP of an open session is answered 0x0801. -/
theorem exec_servicePortBadOp_taken {p : List Byte} (op : Byte) (e : f = h.frame p) (ht : s.svcTakes f u) :
    exec (.servicePortBadOp h op p) s = .next (u.svcAnswer f.session.toNat f.seq.toNat op.toNat 0x0801) := by
  subst e
  have ho : (s.sess? (sidSvc (h.frame p).session.toNat)).isSome = true := by
    obtain ⟨-, -, -, ⟨x, hx, -⟩, -⟩ := ht
    exact Option.isSome_of_mem hx
  show execServicePortBadOp h op p s = _
  rw [execServicePortBadOp, if_pos ho]
  exact congrArg _ (svcRequest_malformed _ _ _ ht rfl)

/-- A BLOB_BEGIN with status 0 opens the session's blob; with another it answers the status only. -/
theorem exec_blobBegin_taken {kd : Byte} {rv : BitVec 24} {tot c : Word32}
    (e : f = h.frame ([kd] ++ toBytes 3 rv.toNat ++ toBytes 4 tot.toNat ++ toBytes 4 c.toNat)) (ht : s.svcTakes f u)
    (hf : f.fits 12 = true) (hz : f.at_ 1 3 = 0) :
    exec (.blobBegin h kd rv tot c) s
      = .next ((if u.blobBeginStatus f.session.toNat (f.at_ 0 1) (f.at_ 4 4) ≠ 0 then u
          else (if f.at_ 0 1 == 0 then u.setFwState 1 else u).setBlob f.session.toNat
            (some { kind := f.at_ 0 1, total := f.at_ 4 4, crc := f.at_ 8 4, lastAt := u.now })).svcAnswer f.session.toNat f.seq.toNat 0x20
              (u.blobBeginStatus f.session.toNat (f.at_ 0 1) (f.at_ 4 4))) := by
  subst e
  exact congrArg _ (svcRequest_acts _ _ _ ht (by rw [hf, hz]; rfl))

/-- Data of a response or a token at the next offset, within the total, is appended. -/
theorem exec_blobData_appended {off len : Word32} {dat d : List Byte} {b : Blob}
    (e : f = h.frame (toBytes 4 off.toNat ++ toBytes 4 len.toNat ++ dat)) (ht : s.svcTakes f u) (hf : f.fits (8 + f.at_ 4 2) = true)
    (hz : f.at_ 6 2 = 0) (hd : d = f.data.drop 8) (hn : d ≠ []) (hb : u.blob? f.session.toNat = some b) (hk : b.kind ≠ 0)
    (hst : b.state = 1) (hat : f.at_ 0 4 = b.data.length) (htot : f.at_ 0 4 + d.length ≤ b.total) :
    exec (.blobData h off len dat) s
      = .next ((u.setBlob f.session.toNat (some { b with data := b.data ++ d, lastAt := u.now })).svcAnswer f.session.toNat f.seq.toNat 0x21 0) := by
  subst e hd
  refine congrArg _ ((svcRequest_acts _ _ _ ht ?_).trans ?_) <;> generalize h.frame _ = f at *
  · simpa [hf, hz, -List.length_drop] using hn
  have hg : ¬ (decide (b.state ≠ 1) || decide (f.at_ 0 4 ≠ b.data.length) || decide (b.total < f.at_ 0 4 + (f.data.drop 8).length)) = true := by
    simp only [Bool.or_eq_true, decide_eq_true_eq, not_or, not_not]
    exact ⟨⟨hst, hat⟩, Nat.not_lt.2 htot⟩
  rw [hb]
  refine (if_neg hg).trans ?_
  simp [hk]

/-- Data at another offset is answered 0x0704. -/
theorem exec_blobData_apart {off len : Word32} {dat d : List Byte} {b : Blob}
    (e : f = h.frame (toBytes 4 off.toNat ++ toBytes 4 len.toNat ++ dat)) (ht : s.svcTakes f u) (hf : f.fits (8 + f.at_ 4 2) = true)
    (hz : f.at_ 6 2 = 0) (hd : d = f.data.drop 8) (hn : d ≠ []) (hb : u.blob? f.session.toNat = some b)
    (hat : f.at_ 0 4 ≠ b.data.length) :
    exec (.blobData h off len dat) s = .next (u.svcAnswer f.session.toNat f.seq.toNat 0x21 0x0704) := by
  subst e hd
  refine congrArg _ ((svcRequest_acts _ _ _ ht ?_).trans ?_) <;> generalize h.frame _ = f at *
  · simpa [hf, hz, -List.length_drop] using hn
  rw [hb]
  exact if_pos (by simp [hat])

/-- The end of a blob that is receiving: short, or of another CRC, it is dropped; an image is verified, a message acted on. -/
theorem exec_blobEnd_taken {p : List Byte} {b : Blob} (e : f = h.frame p) (ht : s.svcTakes f u) (hf : f.fits 0 = true)
    (hb : u.blob? f.session.toNat = some b) (hst : b.state = 1) :
    exec (.blobEnd h p) s
      = .next (if b.data.length < b.total then (u.dropBlob f.session.toNat).svcAnswer f.session.toNat f.seq.toNat 0x22 0x0702
        else if crc32 b.data ≠ b.crc then (u.dropBlob f.session.toNat).svcAnswer f.session.toNat f.seq.toNat 0x22 0x0705
        else if b.kind == 0 then (u.setFwState 2).endImage f.session.toNat f.seq.toNat b
        else u.endMessage f.session.toNat f.seq.toNat b) := by
  subst e
  refine congrArg _ ((svcRequest_acts _ _ _ ht hf).trans ?_)
  rw [hb]
  exact if_neg (not_not_intro hst)

theorem exec_blobStatus_taken {p : List Byte} {b : Blob} (e : f = h.frame p) (ht : s.svcTakes f u) (hf : f.fits 0 = true)
    (hb : u.blob? f.session.toNat = some b) :
    exec (.blobStatus h p) s = .next (u.svcAnswer f.session.toNat f.seq.toNat 0x23 0 [b.state, b.reason, b.data.length]) := by
  subst e
  refine congrArg _ ((svcRequest_acts _ _ _ ht hf).trans ?_)
  rw [hb]

theorem exec_blobAbort_taken {p : List Byte} (e : f = h.frame p) (ht : s.svcTakes f u) (hf : f.fits 0 = true) :
    exec (.blobAbort h p) s = .next ((u.dropBlob f.session.toNat).svcAnswer f.session.toNat f.seq.toNat 0x24 0) := by
  subst e
  exact congrArg _ (svcRequest_acts _ _ _ ht hf)

end

/-- Ten seconds of idleness drop the session's blob. -/
theorem exec_blobIdleExpiry_dropped {s : State} {sess : SessRef} {b : Blob} (hp : sidPath sess = 3) (hb : s.blob? (sidOf sess) = some b) :
    exec (.blobIdleExpiry sess) s = .next ((s.advance (b.lastAt + 10000 * Config.ms)).dropBlob (sidOf sess)) := by
  show execBlobIdleExpiry sess s = _
  simp [execBlobIdleExpiry, hp, hb]

/-- Settles O35: each request is taken by `svcRequest` or `svcOutside`, and then acts as its own lemma above says. -/
theorem servicePortServed : Obligations.ServicePortServed := by
  refine ⟨fun f s hs hv hn hf => ⟨?_, fun h4 => ?_, fun u h4 hu => ?_⟩, fun f s hs hv hn hf => ⟨?_, ?_⟩, ?_, ?_,
    fun sess b s hp hb => exec_blobIdleExpiry_dropped hp hb, ?_, fun h p x s hs hv hx hl ha => ?_, ?_⟩
  · exact congrArg _ (svcOutside_acts _ _ hs hv hn hf)
  · refine congrArg _ ((svcOutside_acts _ _ hs hv hn hf).trans ?_)
    exact if_pos h4
  · subst hu
    refine congrArg _ ((svcOutside_acts _ _ hs hv hn hf).trans ?_)
    exact if_neg (Nat.not_le.2 h4)
  · exact congrArg _ ((svcOutside_malformed _ _ hs hv hf).trans (by rw [hn]; rfl))
  · exact congrArg _ ((svcOutside_malformed _ _ hs hv hf).trans (by rw [hn]; rfl))
  · rintro f n s u ht rfl
    refine ⟨fun h p e hf => exec_closeSession_taken e ht hf, fun h p e hf => ?_,
      fun h ix sub rv off len sz d w e hf hz h1 h2 hr => exec_odRead_taken e ht hf hz h1 h2 hr,
      fun h ix sub rv off len e hb => exec_odRead_bad e ht hb,
      fun h ix sub rv off rest a w e hf hz h1 hw hp => exec_odWrite_taken e ht hf hz h1 hw hp,
      fun h die rv off e hf => ⟨fun ha => ?_, fun ha => ?_⟩, fun h die rv off val e hf => ⟨fun ha => ?_, fun ha => ?_⟩,
      fun h p e op => exec_servicePortBadOp_taken op e ht⟩
    · subst e
      exact congrArg _ (svcRequest_malformed _ _ _ ht hf)
    · rw [exec_csrRead_taken e ht hf, if_pos ha]
    · rw [exec_csrRead_taken e ht hf, if_neg (by simp [ha])]
    · rw [exec_csrWrite_taken e ht hf, if_pos ha]
    · rw [exec_csrWrite_taken e ht hf, if_neg (by simp [ha])]
  · rintro f n s u ht rfl
    refine ⟨fun h kd rv tot c e hf hz => ⟨fun h0 => ?_, fun h0 => ?_⟩,
      fun h off len dat d b e hf hz hd hn hb hk =>
        ⟨exec_blobData_appended e ht hf hz hd hn hb hk, exec_blobData_apart e ht hf hz hd hn hb⟩,
      fun h p b e hf hb hst => ⟨fun hl => ?_, fun hl hc => ?_, fun hl hc hk => ?_, fun hl hc hk => ?_⟩,
      fun h p b e hf hb => exec_blobStatus_taken e ht hf hb, fun h p e hf => exec_blobAbort_taken e ht hf⟩
    · rw [exec_blobBegin_taken e ht hf hz, h0, if_neg (not_not_intro rfl)]
    · rw [exec_blobBegin_taken e ht hf hz, if_pos h0]
    · rw [exec_blobEnd_taken e ht hf hb hst, if_pos hl]
    · rw [exec_blobEnd_taken e ht hf hb hst, if_neg (Nat.not_lt.2 hl), if_pos hc]
    · rw [exec_blobEnd_taken e ht hf hb hst, if_neg (Nat.not_lt.2 hl), if_neg (not_not_intro hc), if_pos (by simp [hk])]
    · rw [exec_blobEnd_taken e ht hf hb hst, if_neg (Nat.not_lt.2 hl), if_neg (not_not_intro hc), if_neg (by simp [hk])]
  · intro h p ix sub rv off len rest die rv3 val kd tot c dat x s hs hv hx hq i hi
    obtain ⟨q, op, inRom, ok, act, hexec⟩ := exec_sessionRequest h p ix sub rv off len rest die rv3 val kd tot c dat i hi
    rw [hexec]
    exact congrArg _ (svcRequest_repeated (f := h.frame q) op inRom ok act hs hv hx hq)
  · exact congrArg _ (svcRequest_out_of_order (f := h.frame p) _ _ _ _ hs hv hx hl ha)
  · intro h p ix sub rv off len rest die rv3 val kd tot c dat s hs hd i hi
    obtain ⟨q, op, inRom, ok, act, hexec⟩ := exec_sessionRequest h p ix sub rv off len rest die rv3 val kd tot c dat i hi
    rw [hexec]
    exact congrArg _ (svcRequest_discarded (f := h.frame q) op inRom ok act hs hd)

end Sys2Proof.Machine
end

section
/-!
PROOFS. The statements of 01_architecture.md: chassis time and its sync, the arrival of a request, drafts and generations, register
reads of a die that is held in reset.
-/
namespace Sys2Proof.Machine

/-! ### Register reads of a die that is held in reset (R18, R443) -/

theorem csrGet_unreachable {s : State} {via : CsrVia} {die off n : Nat} (hu : s.dieUp die = false) :
    s.csrGet via die off n = (allOnes n, s.csrUnreach via) := by
  simp [State.csrGet, hu]

/-- A read of a die that is not reachable sets UNREACH in the issuer's block and returns all ones, aligned or not. -/
theorem exec_registerRead_unreachable {s : State} {via : CsrVia} {die : DieIx} (off : Word32) (n : Nat)
    (ha : s.csrAllowed via die = true) (hu : s.dieUp die = false) :
    exec (.registerRead via die off n) s = .next ((s.csrUnreach via).csrReturn via die off.toNat (allOnes n)) := by
  rw [exec_registerRead_allowed off n ha, csrGet_unreachable hu]

/-- Settles O42: `csrBlock` gives the issuer's block. That a session's block is E611 is the model's choice (log entry 49). -/
theorem unreachableDiesReadAllOnes : Obligations.UnreachableDiesReadAllOnes :=
  ⟨fun _ _ off n _ ha hu => exec_registerRead_unreachable off n ha hu, fun _ _ off n _ ha hu => exec_registerRead_unreachable off n ha hu⟩

/-! ### Chassis time: the load (R168, R169, R170) -/

theorem exec_ctLoad_accepted {s u : State} {sess : SessRef} {v : Word64} (h : s.accepts sess K.CT_LOAD 8 v.toNat u) :
    exec (.ctLoad sess v) s = .next ((ownCtLoad v.toNat u).2.answerOd sess (ownCtLoad v.toNat u).1) :=
  congrArg _ (odCommand_accepts (ownCtLoad v.toNat) h)

theorem exec_ctLoadEdge_pending {s : State} {v : Nat} (h : s.tm.load = some v) :
    exec .ctLoadEdge s
      = .next (if s.hubHeld || s.cycle ≠ 0 || s.loadHeld || !s.loadAligned || s.tm.tickStart ≤ s.tm.loadAt then s else s.loadEdge v) := by
  show execCtLoadEdge s = _
  rw [execCtLoadEdge, h]

/-- The boundary where nothing is in the way of the load is its edge. -/
theorem exec_ctLoadEdge_taken {s : State} {v : Nat} (h : s.tm.load = some v) (hh : s.hubHeld = false) (hc : s.cycle = 0)
    (hl : s.loadHeld = false) (ha : s.loadAligned = true) (ht : s.tm.loadAt < s.tm.tickStart) :
    exec .ctLoadEdge s = .next (s.loadEdge v) := by
  rw [exec_ctLoadEdge_pending h, if_neg (by simp [hh, hc, hl, ha, ht])]

/-- A fence, a freeze or the alignment postpones the load. -/
theorem exec_ctLoadEdge_postponed {s : State} {v : Nat} (h : s.tm.load = some v) (hp : s.loadHeld = true ∨ s.loadAligned = false) :
    exec .ctLoadEdge s = .next s := by
  rw [exec_ctLoadEdge_pending h, if_pos (by rcases hp with hp | hp <;> simp [hp])]

theorem onSyncEdge_iff {s : State} :
    s.onSyncEdge = true ↔ s.tm.synced = true ∧ (s.tm.ticks - s.tm.syncTick) % s.c K.SYNC_PERIOD = 0 := by
  simp [State.onSyncEdge]

theorem loadAligned_iff {s : State} :
    s.loadAligned = true ↔ s.c K.CT_LOAD_MODE = 1 ∨ s.cB K.SYNC_ENABLE = false ∨ s.onSyncEdge = true := by
  simp [State.loadAligned, or_assoc]

/-- After the load edge CT is the loaded value and no load is pending. -/
theorem loadEdge_tm (s : State) (v : Nat) :
    (s.loadEdge v).tm.ctBase = v ∧ (s.loadEdge v).tm.load = none ∧ (s.loadEdge v).tm.loaded = true := by
  unfold State.loadEdge
  simp only [updCtState_tm]
  exact ⟨rfl, rfl, rfl⟩

/-! ### Chassis time: sync edges (R172, R173, R174) -/

/-- The first edge aligns the tick. -/
theorem exec_syncEdge_first {s : State} (at_ : Nat) (hh : s.hubHeld = false) (he : s.cB K.SYNC_ENABLE = true) (hs : s.tm.synced = false) :
    exec (.syncEdge at_) s
      = .next { s.advance at_ with tm := { (s.advance at_).tm with
          lastEdge := at_, synced := true, tickLen := alignLength (at_ - (s.advance at_).tm.tickStart), lastSync := at_,
          syncTick := if at_ - (s.advance at_).tm.tickStart < Config.tickPs then (s.advance at_).tm.ticks else (s.advance at_).tm.ticks + 1,
          slewLeft := 0 } } := by
  show execSyncEdge at_ s = _
  simp [execSyncEdge, hh, he, hs]

/-- A later edge is measured. -/
theorem exec_syncEdge_later {s : State} (at_ : Nat) (hh : s.hubHeld = false) (he : s.cB K.SYNC_ENABLE = true) (hs : s.tm.synced = true) :
    exec (.syncEdge at_) s
      = .next (({ s.advance at_ with tm := { (s.advance at_).tm with lastEdge := at_ } } : State).measureSync at_).updCtState := by
  show execSyncEdge at_ s = _
  simp [execSyncEdge, hh, he, hs]

theorem exec_syncEdge_disabled {s : State} (at_ : Nat) (he : s.cB K.SYNC_ENABLE = false) : exec (.syncEdge at_) s = .next s := by
  show execSyncEdge at_ s = _
  simp [execSyncEdge, he]

/-- An edge within 50 ns of its boundary is accepted; far edges before it that were not used are missed. -/
theorem measureSync_near {s : State} {t : Nat} (h : (s.phaseError t).natAbs ≤ 50000) :
    s.measureSync t
      = (({ (s.setO K.SLEW_OFFSET (toSigned 32 (Int.tdiv (s.phaseError t) 1000))) with tm := { s.tm with far := [] } } : State).missFar
          s.tm.far).acceptSync t (s.phaseError t) :=
  if_pos h

theorem exec_syncMiss_counted {s : State} (hh : s.hubHeld = false) (he : s.cB K.SYNC_ENABLE = true) (hs : s.tm.synced = true) :
    exec .syncMiss s
      = .next ({ s.advance (s.tm.lastEdge + (s.c K.SYNC_PERIOD + 1) * Config.us) with
          tm := { (s.advance (s.tm.lastEdge + (s.c K.SYNC_PERIOD + 1) * Config.us)).tm with
            lastEdge := (s.advance (s.tm.lastEdge + (s.c K.SYNC_PERIOD + 1) * Config.us)).now } } : State).syncMiss :=
  if_neg (by simp [hh, he, hs])

theorem alignLength_early {d : Nat} (h : d / Config.fclk < 1600) : alignLength d = 1600 + d / Config.fclk := if_pos h

theorem alignLength_late {d : Nat} (h : 1600 ≤ d / Config.fclk) : alignLength d = min (d / Config.fclk) 3199 := if_neg (Nat.not_lt.2 h)

/-- Settles O12: one lemma above for each command and outcome. The length of a tick whose edge comes early is the model's choice (log
entry 28). -/
theorem chassisTimeLoadedAndSynchronised : Obligations.ChassisTimeLoadedAndSynchronised := by
  refine ⟨?_, ?_, fun sess v s u h => exec_ctLoad_accepted h, fun v s h hh hc hl ha ht => exec_ctLoadEdge_taken h hh hc hl ha ht,
    fun v s h hp => exec_ctLoadEdge_postponed h hp, fun s => ?_, loadEdge_tm, ?_, ?_, fun at_ s he => exec_syncEdge_disabled at_ he, ?_,
    fun d h => alignLength_early h, fun d h => alignLength_late h⟩
  · rintro s u rfl
    rfl
  · rintro s u rfl
    rfl
  · rw [loadAligned_iff, onSyncEdge_iff]
  · rintro at_ s u hh he hs rfl
    exact exec_syncEdge_first at_ hh he hs
  · rintro at_ s u w hh he hs rfl rfl hn
    rw [exec_syncEdge_later at_ hh he hs, measureSync_near hn]
  · rintro s u hh he hs rfl
    exact exec_syncMiss_counted hh he hs

/-! ### A request arrives (R20, R40, R46, R51, R224) -/

/-- What an arrival does under the generation it is decoded by: nothing while the port is held, carries nothing or has not advertised
the credit; else the flit check, the credit and the checks of `requestIn`. -/
def State.arrive (s : State) (q : Nat) (r : Req) : State :=
  if s.tileHeld (tileOf q) || !s.carries q || s.advertised q (creditClass r.op) < reserved r.pkt r.hdr then s
  else ((s.flitCheck q).freshTokens.takeCredits q r).requestIn q r

theorem arrive_waits {s : State} {q : Nat} {r : Req}
    (h : s.tileHeld (tileOf q) = true ∨ s.carries q = false ∨ s.advertised q (creditClass r.op) < reserved r.pkt r.hdr) :
    s.arrive q r = s :=
  if_pos (by rcases h with h | h | h <;> simp [h])

theorem arrive_taken {s : State} {q : Nat} {r : Req} (hh : s.tileHeld (tileOf q) = false) (hc : s.carries q = true)
    (ha : reserved r.pkt r.hdr ≤ s.advertised q (creditClass r.op)) :
    s.arrive q r = ((s.flitCheck q).freshTokens.takeCredits q r).requestIn q r :=
  if_neg (by simp [hh, hc, ha])

theorem exec_requestArrival (p : PortIx) (at_ : Nat) (r : Req) (s : State) :
    exec (.requestArrival p at_ r) s = .next ((s.advance at_).decoded (fun s => s.arrive (s.lead p) r)) := rfl

theorem decoded_unswitched {s : State} (f : State → State) (h : s.gen.switched = none) : s.decoded f = f s := by
  simp [State.decoded, h]

/-- In the cycle of a publication the generation before it decodes. -/
theorem decoded_in_cycle {s : State} (f : State → State) {x g : Nat} (h : s.gen.switched = some (x, g))
    (hx : x / Config.fclk = s.now / Config.fclk) : s.decoded f = s.under g f := by
  simp [State.decoded, h, hx]

theorem decoded_after_cycle {s : State} (f : State → State) {x g : Nat} (h : s.gen.switched = some (x, g))
    (hx : x / Config.fclk ≠ s.now / Config.fclk) : s.decoded f = f s := by
  simp [State.decoded, h, hx]

/-- Paths of a policed request of a bound port. -/
def Ingress.run (x : Ingress) (t : State) : State :=
  match x.req.op with
  | .config => x.config t
  | .message => x.message t
  | _ => x.steps t

section
variable {s w t : State} {q inj : Nat} {r : Req} {c : Colour}

theorem requestIn_bad_header (hi : s.injFire (4 * q + 2) 0 = (inj, w)) (h : r.parity = false ∨ inj ≠ 0) :
    s.requestIn q r = w.headerParity q r := by
  unfold State.requestIn
  rw [hi]
  exact if_pos (by rcases h with h | h <;> simp [h])

theorem requestIn_completion (hi : s.injFire (4 * q + 2) 0 = (0, w)) (hp : r.parity = true) (ho : r.op = .completion) :
    s.requestIn q r = w.completionArrival q r := by
  simp [State.requestIn, hi, hp, ho]

theorem requestIn_viral (hi : s.injFire (4 * q + 2) 0 = (0, w)) (hp : r.parity = true) (ho : r.op = .viral) :
    s.requestIn q r = w.viral q := by
  simp [State.requestIn, hi, hp, ho]

/-- Any other request is policed before its VCS is looked up. -/
theorem requestIn_unbound (hi : s.injFire (4 * q + 2) 0 = (0, w)) (hp : r.parity = true) (hc : r.op ≠ .completion) (hv : r.op ≠ .viral)
    (hpol : w.police q (w.meteredBytes r.pkt) = (c, t)) (hn : w.ingressOf q r = none) :
    s.requestIn q r = Ingress.miss { p := q, n := 0xFF, v := 0xFF, host := false, colour := c, req := r } t := by
  simp [State.requestIn, hi, hp, hc, hv, hpol, hn]

theorem requestIn_bound {n v : Nat} (hi : s.injFire (4 * q + 2) 0 = (0, w)) (hp : r.parity = true) (hc : r.op ≠ .completion)
    (hv : r.op ≠ .viral) (hpol : w.police q (w.meteredBytes r.pkt) = (c, t)) (hn : w.ingressOf q r = some (n, v)) :
    s.requestIn q r = Ingress.run { p := q, n := n, v := v, host := w.o (K.ROLE q) == 1, colour := c, req := r } t := by
  simp only [State.requestIn, hi, hp, hc, hv, hpol, hn]
  rfl

end

theorem run_config (x : Ingress) (t : State) (h : x.req.op = .config) : x.run t = x.config t := by
  simp [Ingress.run, h]

theorem run_message (x : Ingress) (t : State) (h : x.req.op = .message) : x.run t = x.message t := by
  simp [Ingress.run, h]

theorem run_steps (x : Ingress) (t : State) (hc : x.req.op ≠ .config) (hm : x.req.op ≠ .message) : x.run t = x.steps t := by
  unfold Ingress.run
  split
  · contradiction
  · contradiction
  · rfl

/-- The event of a failed header is below fatal, so it writes its block only. -/
theorem headerParity_eq (s : State) (p : Nat) (r : Req) :
    s.headerParity p r
      = if opPosted r.op then s.raiseCore (4 * p + 2) 2 0x25 false { master := p, addr := some r.addr }
        else (s.raiseCore (4 * p + 2) 2 0x25 false { master := p, addr := some r.addr }).answer p r.tag r.rid 2 0 := by
  unfold State.headerParity
  rw [raise_below_fatal _ _ _ _ _ _ (by decide)]

/-- Settles O30: the generation that decodes by `decoded`, the port's gate by `arrive`, the order of the checks by the lemmas on
`requestIn`. That a request without credit waits at its link is the model's choice (log entry 32). -/
theorem requestsCheckedInOrder : Obligations.RequestsCheckedInOrder := by
  refine ⟨?_, ?_, ?_, fun q r s w inj hi h => requestIn_bad_header hi h,
    fun q r s w hi hp => ⟨requestIn_completion hi hp, requestIn_viral hi hp⟩, ?_, fun p r s => headerParity_eq s p r⟩
  · rintro p at_ q r s u rfl rfl hs
    rw [exec_requestArrival, decoded_unswitched _ hs]
    exact ⟨fun h => congrArg _ (arrive_waits h), fun hh hc ha => congrArg _ (arrive_taken hh hc ha)⟩
  · rintro p at_ x g r s u rfl hs hx
    rw [exec_requestArrival, decoded_in_cycle _ hs hx]
    rfl
  · rintro p at_ x q g r s u rfl rfl hs hx hh hc ha
    rw [exec_requestArrival, decoded_after_cycle _ hs hx, arrive_taken hh hc ha]
  · rintro q n v c r s w t x hi hp hc hv hpol
    refine ⟨requestIn_unbound hi hp hc hv hpol, ?_⟩
    rintro hn rfl
    rw [requestIn_bound hi hp hc hv hpol hn]
    exact ⟨fun h => run_config _ t h, fun h => run_message _ t h, fun h hm => run_steps _ t h hm⟩

/-! ### Commit, confirm, roll back, discard (R492, R493, R495, R496) -/

section
variable {s u w : State} {sess : SessRef} {v : Byte} {sid : Nat}

theorem exec_genCommit_accepted (h : s.accepts sess K.GEN_COMMIT 1 v.toNat u) :
    exec (.genCommit sess v) s = .next ((ownGenCommit sess u).2.answerOd sess (ownGenCommit sess u).1) :=
  congrArg _ (odCommand_accepts (ownGenCommit sess) h)

theorem exec_genConfirm_accepted (h : s.accepts sess K.GEN_CONFIRM 1 v.toNat u) :
    exec (.genConfirm sess v) s = .next ((ownGenConfirm u).2.answerOd sess (ownGenConfirm u).1) :=
  congrArg _ (odCommand_accepts ownGenConfirm h)

theorem exec_genRollback_accepted (h : s.accepts sess K.GEN_ROLLBACK 1 v.toNat u) :
    exec (.genRollback sess v) s = .next ((ownGenRollback u).2.answerOd sess (ownGenRollback u).1) :=
  congrArg _ (odCommand_accepts ownGenRollback h)

theorem exec_draftDiscard_accepted (h : s.accepts sess K.DRAFT_DISCARD 1 v.toNat u) :
    exec (.draftDiscard sess v) s = .next ((ownDraftDiscard sess u).2.answerOd sess (ownDraftDiscard sess u).1) :=
  congrArg _ (odCommand_accepts (ownDraftDiscard sess) h)

theorem ownGenCommit_no_draft (h : s.o K.DRAFT_STATE ≠ 1) : ownGenCommit sid s = s.commitRefused 0x0604 0 := if_pos h

theorem ownGenCommit_not_owner (hd : s.o K.DRAFT_STATE = 1) (ho : s.o K.DRAFT_OWNER ≠ sid) :
    ownGenCommit sid s = s.commitRefused 0x0603 0 := by
  simp [ownGenCommit, hd, ho]

theorem ownGenCommit_pending (hd : s.o K.DRAFT_STATE = 1) (ho : s.o K.DRAFT_OWNER = sid) (hg : s.o K.GEN_STATE ≠ 0) :
    ownGenCommit sid s = s.commitRefused 0x0602 0 := by
  simp [ownGenCommit, hd, ho, hg]

theorem ownGenCommit_hub_held (hd : s.o K.DRAFT_STATE = 1) (ho : s.o K.DRAFT_OWNER = sid) (hg : s.o K.GEN_STATE = 0)
    (hh : s.hubHeld = true) : ownGenCommit sid s = s.commitRefused 0x0503 0 := by
  simp [ownGenCommit, hd, ho, hg, hh]

/-- The checks passed, and no port guard's object changes: the draft's contents are due, and the draft is no more. -/
theorem ownGenCommit_due (hd : s.o K.DRAFT_STATE = 1) (ho : s.o K.DRAFT_OWNER = sid) (hg : s.o K.GEN_STATE = 0) (hh : s.hubHeld = false)
    (hc : s.commitChecks s.gen.draft = (0, w)) (hw : guardsDiffer w.gen.active w.gen.draft = false) :
    ownGenCommit sid s
      = (odOk, (({ w with gen := { w.gen with committed := w.gen.draft, commitDue := true, readyTick := w.tm.ticks } } : State).dropDraft).setO
          K.GEN_STATE 2) := by
  simp only [ownGenCommit, hd, ho, hg, hh, hc, hw, ne_eq, not_true_eq_false, Bool.false_eq_true, if_false]

theorem confirmOver_iff : s.confirmOver = true ↔ s.o K.GEN_STATE = 1 ∧ s.gen.confirmAt ≤ s.now := by
  simp [State.confirmOver]

/-- A generation that waits for its confirmation in time, or none, leaves the timer unexpired. -/
theorem confirmOver_eq_false (h : s.o K.GEN_STATE = 1 → s.now < s.gen.confirmAt) : s.confirmOver = false := by
  rw [Bool.eq_false_iff, ne_eq, confirmOver_iff]
  exact fun ⟨hg, ht⟩ => Nat.not_le.2 (h hg) ht

theorem ownGenConfirm_in_time (hg : s.o K.GEN_STATE = 1) (ht : s.now < s.gen.confirmAt) :
    ownGenConfirm s
      = (odOk, ({ s with gen := { s.gen with
          flash := s.gen.active, flashNum := s.o K.GEN_ACTIVE, flashPrev := s.gen.prev, flashPrevNum := s.o K.GEN_PREV,
          flashKept := s.o K.PREV_KEPT == 1 } } : State).setO K.GEN_STATE 0) := by
  simp [ownGenConfirm, confirmOver_eq_false (fun _ => ht), hg]

theorem ownGenRollback_late (h : s.confirmOver = true) : ownGenRollback s = (odNo 0x0602, s.rollbackNow) := if_pos h

theorem ownGenRollback_pending (h : s.o K.GEN_STATE = 2) : ownGenRollback s = (odNo 0x0602, s) := by
  simp [ownGenRollback, confirmOver_eq_false (s := s) (by simp [h]), h]

theorem ownGenRollback_taken (h : s.confirmOver = false) (hg : s.o K.GEN_STATE ≠ 2) (hk : s.o K.PREV_KEPT = 1) :
    ownGenRollback s = (odOk, s.rollbackNow) := by
  simp [ownGenRollback, h, hg, hk]

theorem ownGenRollback_none_kept (h : s.confirmOver = false) (hg : s.o K.GEN_STATE ≠ 2) (hk : s.o K.PREV_KEPT ≠ 1) :
    ownGenRollback s = (odNo 0x0604, s) := by
  simp [ownGenRollback, h, hg, hk]

theorem ownDraftDiscard_owner (hd : s.o K.DRAFT_STATE = 1) (ho : s.o K.DRAFT_OWNER = sid) : ownDraftDiscard sid s = (odOk, s.dropDraft) := by
  simp [ownDraftDiscard, hd, ho]

theorem exec_confirmTimerExpiry_expired (hg : s.o K.GEN_STATE = 1) (hi : s.islandUp = true) :
    exec .confirmTimerExpiry s = .next (s.advance s.gen.confirmAt).rollbackNow :=
  congrArg _ (if_neg (by simp [hg, hi]))

theorem exec_draftIdleExpiry_expired (hd : s.o K.DRAFT_STATE = 1) (hi : s.islandUp = true) :
    exec .draftIdleExpiry s = .next (s.advance (s.gen.draftAt + s.o K.DRAFT_IDLE * 1000 * Config.ms)).dropDraft :=
  congrArg _ (if_neg (by simp [hd, hi]))

end

/-! ### Publication (R33, R393, R494, R496) -/

/-- What is due is published, the commit before a rollback, with the guard epoch that it waits for. -/
theorem exec_generationPublish_due {s u : State} (hd : s.gen.commitDue = true ∨ s.gen.rollbackDue = true) (hh : s.genHeld = false)
    (hu : (if s.gen.commitDue then (s.advance (s.itemAt 7)).publishCommit else (s.advance (s.itemAt 7)).publishRollback) = u) :
    exec .generationPublish s = .next ((if s.gd.genAt.isSome then u.publishEpoch else u).updCoreReady.updPortsReady) := by
  have hg : (s.advance (s.itemAt 7)).gen.commitDue = s.gen.commitDue := by rw [advance_gen]
  rw [← hg] at hu
  subst hu
  exact if_neg (by rcases hd with hd | hd <;> simp [hd, hh])

theorem exec_generationPublish_waits {s : State} (h : s.genHeld = true ∨ s.gen.commitDue = false ∧ s.gen.rollbackDue = false) :
    exec .generationPublish s = .next s :=
  if_pos (by rcases h with h | ⟨hc, hr⟩ <;> simp [*])

theorem genHeld_iff {s : State} :
    s.genHeld = true ↔ s.hubHeld = true ∨ s.tm.overrun = true ∨ s.itemRuns 7 = false ∨ s.tm.ticks ≤ s.gen.readyTick
      ∨ s.gd.genAt.isSome = true ∧ s.nextEpochClear = false := by
  simp [State.genHeld, or_assoc]

/-- Slice sets or tags that are due publish an epoch of their own when no generation takes them along. -/
theorem exec_guardEpochPublish_due {s : State} (hh : s.hubHeld = false) (ho : s.tm.overrun = false) (hr : s.itemRuns 7 = true)
    (hg : s.dueNow s.gd.genAt = false) (hc : s.nextEpochClear = true) (hd : s.dueNow s.gd.sliceAt = true ∨ s.dueNow s.gd.tagAt = true) :
    exec .guardEpochPublish s = .next (s.advance (s.itemAt 7)).publishEpoch := by
  have hopen : ¬ (s.hubHeld || s.tm.overrun || !s.itemRuns 7 || s.dueNow s.gd.genAt || !s.nextEpochClear) = true := by
    simp [hh, ho, hr, hg, hc]
  exact (if_neg hopen).trans (if_pos (by simpa using hd))

/-- An epoch takes the next number; the counts of accesses stay. -/
theorem publishEpoch_gd (s : State) :
    s.publishEpoch.gd.epoch = (s.gd.epoch + 1) % 2 ^ 32 ∧ s.publishEpoch.gd.counts = s.gd.counts := by
  unfold State.publishEpoch
  by_cases hs : s.dueNow s.gd.sliceAt = true <;> by_cases ht : s.dueNow s.gd.tagAt = true <;> simp [hs, ht]

/-- Settles O31: the commands by their own rules, publication by what is due. The choice among the reasons of a refusal and the late
confirmation are the model's (log entry 41). -/
theorem generationsCommittedConfirmedRolledBack : Obligations.GenerationsCommittedConfirmedRolledBack := by
  refine ⟨?_, fun sess v s u h => ?_, ?_, fun sess v s u h => ?_, ?_, fun s hg hi => exec_confirmTimerExpiry_expired hg hi,
    fun s hd hi => exec_draftIdleExpiry_expired hd hi, ?_, ?_, fun s h => exec_generationPublish_waits (.inl h), fun s => genHeld_iff,
    fun s hh ho hr hg hc hd => exec_guardEpochPublish_due hh ho hr hg hc hd, publishEpoch_gd,
    fun s hc hr => exec_generationPublish_waits (.inr ⟨hc, hr⟩), ?_⟩
  · intro sess v s u w h hd ho hg hh hc hw
    rw [exec_genCommit_accepted h, ownGenCommit_due hd ho hg hh hc hw]
    rfl
  · rw [exec_genCommit_accepted h]
    refine ⟨fun hd => ?_, fun hd ho => ?_, fun hd ho hg => ?_, fun hd ho hg hh => ?_⟩
    · rw [ownGenCommit_no_draft hd]
      rfl
    · rw [ownGenCommit_not_owner hd ho]
      rfl
    · rw [ownGenCommit_pending hd ho hg]
      rfl
    · rw [ownGenCommit_hub_held hd ho hg hh]
      rfl
  · intro sess v s u h hg ht
    rw [exec_genConfirm_accepted h, ownGenConfirm_in_time hg ht]
    rfl
  · rw [exec_genRollback_accepted h]
    refine ⟨fun hg ht => ?_, fun hg ht hk => ?_, fun hg => ?_, fun hg hk => ?_⟩
    · rw [ownGenRollback_late (confirmOver_iff.2 ⟨hg, ht⟩)]
      rfl
    · rw [ownGenRollback_taken (confirmOver_eq_false ht) hg hk]
      rfl
    · rw [ownGenRollback_pending hg]
      rfl
    · rw [ownGenRollback_none_kept (confirmOver_eq_false (by simp [hg])) (by simp [hg]) hk]
      rfl
  · intro sess v s u h hd ho
    rw [exec_draftDiscard_accepted h, ownDraftDiscard_owner hd ho]
    rfl
  · rintro s u hc hh rfl
    exact exec_generationPublish_due (.inl hc) hh (if_pos hc)
  · rintro s u hc hr hh rfl
    exact exec_generationPublish_due (.inr hr) hh (if_neg (by simp [hc]))
  · intro s u w x hh hp hr hu hw hx
    rw [hx, hw, hu]
    exact if_neg (by simp [hh, hp, hr])

end Sys2Proof.Machine
end

section
/-!
PROOFS. The statements of 02_plank_switching.md: forwarding to the landing buffers, matching, fulling, the change of plank mode, the agent
merge, the egress pick.
-/
namespace Sys2Proof.Machine

/-! ### Forwarding (R41) -/

section
variable {i : PortIx} {s w : State}

/-- Behind the port's requests for the crown, the SYS VOQ that stands first from its pointer forwards. -/
theorem exec_tileForwardToLanding_sys {q : Nat} (hh : s.tileHeld (tileOf i) = false)
    (hw : w = s.pushCrown i (KMap.get [] s.pl.toCrown i.val).length)
    (hq : firstFrom 96 (KMap.get 0 w.pl.fwdPtr (i.val * 4)) (w.forwardableSys i) = some q) :
    exec (.tileForwardToLanding i) s
      = .next { w.forwardVoq i q .sys with pl := { (w.forwardVoq i q .sys).pl with
          fwdPtr := KMap.set 0 (w.forwardVoq i q .sys).pl.fwdPtr (i.val * 4) ((q + 1) % 96) } } := by
  subst hw
  show execTileForwardToLanding i s = _
  simp [execTileForwardToLanding, hh, hq]

/-- With no SYS cell the (port, class) that stands first from the second pointer forwards. -/
theorem exec_tileForwardToLanding_class {n : Nat} (hh : s.tileHeld (tileOf i) = false)
    (hw : w = s.pushCrown i (KMap.get [] s.pl.toCrown i.val).length) (hs : w.forwardableSys i = [])
    (hn : firstFrom 288 (KMap.get 0 w.pl.fwdPtr (i.val * 4 + 1)) (w.forwardable i) = some n) :
    exec (.tileForwardToLanding i) s
      = .next { w.forwardVoq i (n / 3) (clsOf (n % 3 + 1)) with pl := { (w.forwardVoq i (n / 3) (clsOf (n % 3 + 1))).pl with
          fwdPtr := KMap.set 0 (w.forwardVoq i (n / 3) (clsOf (n % 3 + 1))).pl.fwdPtr (i.val * 4 + 1) ((n + 1) % 288) } } := by
  subst hw
  have hq (ptr : Nat) : firstFrom 96 ptr [] = none := rfl
  show execTileForwardToLanding i s = _
  simp [execTileForwardToLanding, hh, hs, hq, hn]

/-- A held hub holds every tile. -/
theorem tileHeld_of_hubHeld {t : Nat} (h : s.hubHeld = true) : s.tileHeld t = true := by
  simp [State.tileHeld, h]

end

/-! ### Carding (R52, R56) -/

/-- The transfers of a slot that share no input and no output with another one cross the plank. -/
def State.crossUncontested (s : State) (m : List Xfer) : State :=
  (m.filter (fun x => !conflicts m x)).foldl State.crossPlank s

/-- With no conflict in the slot nothing is withheld. -/
theorem crossUncontested_of_no_conflict (s : State) {m : List Xfer} (h : m.any (conflicts m) = false) :
    s.crossUncontested m = m.foldl State.crossPlank s := by
  have hall : m.filter (fun x => !conflicts m x) = m :=
    List.filter_eq_self.2 fun x hx => by simp [List.any_eq_false.1 h x hx]
  rw [State.crossUncontested, hall]

/-- A slot without an injected error: the matched transfers and those of a faulty matcher cross where uncontested, and a conflict fires the
checker. -/
theorem exec_cardingMatchSlot_uninjected {s w : State} {l : List (PortIx × PortIx × Cls)} {m : List Xfer} (hp : s.o K.PLANK_MODE = 1)
    (hh : s.hubHeld = false) (hi : s.injFire 528 1 = (0, w))
    (hm : m = w.matching.1 ++ l.map (fun e => { i := e.1.val, o := e.2.1.val, cls := e.2.2 })) :
    exec (.cardingMatchSlot l) s
      = .next (if m.any (conflicts m) then (w.matching.2.crossUncontested m).conflictFires else w.matching.2.crossUncontested m) := by
  show execCardingMatchSlot l s = _
  simp [execCardingMatchSlot, State.crossUncontested, hp, hh, hi, ← hm]

/-! ### Fulling (R57, R58, R59) -/

theorem exec_fullingStage1_taken {s : State} (hp : s.o K.PLANK_MODE = 0) (hh : s.hubHeld = false) :
    exec .fullingStage1 s = .next ((List.range 96).foldl State.stage1 s) :=
  if_neg (by simp [hp, hh])

theorem exec_fullingStage2_taken {s u : State} (hp : s.o K.PLANK_MODE ≠ 1) (hh : s.hubHeld = false)
    (hu : u = (List.range 96).foldl State.stage2 s) :
    exec .fullingStage2 s = .next { u with pl := { u.pl with pair := (u.pl.pair + 1) % 96 } } := by
  show execFullingStage2 s = _
  rw [execFullingStage2, if_neg (by simp [hp, hh]), hu]

/-! ### The change of plank mode (R61, R62) -/

section
variable {s : State}

theorem exec_startDrainToCarding_taken (hh : s.hubHeld = false) (hp : s.o K.PLANK_MODE = 0) (hs : s.seamsOk = true)
    (ht : s.o K.MATCH_SELFTEST = 2) (hf : s.cB K.FORCE_FULLING = false) :
    exec .startDrainToCarding s = .next (s.setO K.PLANK_MODE 2) :=
  if_neg (by simp [hh, hp, hs, ht, hf])

/-- Outside the start phase that waits for carding, the mode and what is ready for it change. -/
theorem exec_cardingStart_taken (hh : s.hubHeld = false) (hp : s.o K.PLANK_MODE = 2) (he : s.pl.full = []) (hs : s.o K.START_PHASE ≠ 3) :
    exec .cardingStart s = .next (s.setO K.PLANK_MODE 1).updCoreReady.updPortsReady := by
  show execCardingStart s = _
  simp [execCardingStart, hh, hp, he, hs]

/-- A cell in the fulling store keeps carding from starting. -/
theorem exec_cardingStart_waits (h : s.pl.full ≠ []) : exec .cardingStart s = .next s :=
  if_pos (by simp [h])

/-- The end of a running self-test; its failure is below fatal, so it writes block E528 only. -/
theorem exec_matcherSelftestDone_running (pass : Bool) (hh : s.hubHeld = false) (ht : s.o K.MATCH_SELFTEST = 1) :
    exec (.matcherSelftestDone pass) s
      = .next (if pass then s.setO K.MATCH_SELFTEST 2
          else (s.setO K.MATCH_SELFTEST 3).raiseCore 528 2 8 false { master := 0x80 }) := by
  show execMatcherSelftestDone pass s = _
  cases pass <;> simp [execMatcherSelftestDone, hh, ht, raise_below_fatal]

end

/-! ### The agent merge (R42) -/

section
variable {p : PortIx} {o : Nat} {m : MergeCell} {s : State}

/-- SYS cells are admitted in the order in which they were presented. -/
theorem exec_agentMergeAdmit_sys {l : List MergeCell} (hh : s.hubHeld = false) (ho : s.outputWithRoom p .sys = some o)
    (hm : KMap.get [] s.pl.merge (p.val * 4 + clsNum .sys) = m :: l) :
    exec (.agentMergeAdmit p .sys) s = .next (s.admitAgent p o .sys m.flow m.cell) := by
  show execAgentMergeAdmit p .sys s = _
  simp [execAgentMergeAdmit, hh, ho, hm]

/-- Of another class the first waiting cell of the next agent flow is admitted. -/
theorem exec_agentMergeAdmit_class {cls : Cls} {f : Nat} (hh : s.hubHeld = false) (hc : cls ≠ .sys) (ho : s.outputWithRoom p cls = some o)
    (hf : s.nextFlow p cls (fun f => !plankFlow f) = some f)
    (hm : (KMap.get [] s.pl.merge (p.val * 4 + clsNum cls)).find? (·.flow == f) = some m) :
    exec (.agentMergeAdmit p cls) s = .next (s.admitAgent p o cls f m.cell) := by
  show execAgentMergeAdmit p cls s = _
  simp only [execAgentMergeAdmit, hh, ho, hc, hf, hm, Bool.false_eq_true, if_false]

end

/-! ### The egress pick (R213) -/

section
variable {p : PortIx} {s : State}

/-- A tile broadcast goes first. -/
theorem exec_egressClassPick_bcast {e : Nat × BSlot} (hh : s.hubHeld = false) (hl : s.linkUp p = true)
    (hb : s.freshTokens.nextBcast p = some e) : exec (.egressClassPick p) s = .next (s.freshTokens.sendSlot p e) := by
  show execEgressClassPick p s = _
  simp [execEgressClassPick, hh, hl, hb]

/-- With no broadcast a SYS cell goes. -/
theorem exec_egressClassPick_sys {o : Nat} (hh : s.hubHeld = false) (hl : s.linkUp p = true) (hb : s.freshTokens.nextBcast p = none)
    (ho : s.freshTokens.outputToPick p .sys = some o) :
    exec (.egressClassPick p) s = .next (s.freshTokens.dequeue p o .sys) := by
  show execEgressClassPick p s = _
  simp [execEgressClassPick, hh, hl, hb, ho]

/-- With neither, a cell of the class picked goes. -/
theorem exec_egressClassPick_class {o : Nat} {cls : Cls} (hh : s.hubHeld = false) (hl : s.linkUp p = true)
    (hb : s.freshTokens.nextBcast p = none) (hs : s.freshTokens.outputToPick p .sys = none)
    (hc : s.freshTokens.pickClass p = some cls) (ho : s.freshTokens.outputToPick p cls = some o) :
    exec (.egressClassPick p) s = .next ((s.freshTokens.dequeue p o cls).afterPick p cls) := by
  show execEgressClassPick p s = _
  simp [execEgressClassPick, hh, hl, hb, hs, hc, ho]

end

/-! ### The hub held -/

/-- With the hub held no command of the plank changes anything. -/
theorem exec_plank_held {s : State} (i p : PortIx) (cls : Cls) (b : Bool) (l : List (PortIx × PortIx × Cls)) (h : s.hubHeld = true) :
    ∀ c ∈ [Instr.tileForwardToLanding i, .cardingMatchSlot l, .fullingStage1, .fullingStage2, .startDrainToCarding, .cardingStart,
      .matcherSelftestDone b, .agentMergeAdmit p cls, .egressClassPick p], exec c s = .next s := by
  simp only [List.forall_mem_cons]
  exact ⟨if_pos (tileHeld_of_hubHeld h), if_pos (by simp [h]), if_pos (by simp [h]), if_pos (by simp [h]), if_pos (by simp [h]),
    if_pos (by simp [h]), if_pos (by simp [h]), if_pos h, if_pos (by simp [h]), List.forall_mem_nil _⟩

/-- Settles O14: one lemma above for each command and outcome. The order of the matcher's requests, what fulling charges and the reorder
credits of agents are the model's choice (log entry 29), what a SYS item does at the crown's intake too (log entry 30). -/
theorem plankMovesCellsAndModes : Obligations.PlankMovesCellsAndModes := by
  refine ⟨?_, ?_, fun s hp hh hi hc => ?_, ?_, fun s hp hh => exec_fullingStage1_taken hp hh,
    fun s u hp hh hu => exec_fullingStage2_taken hp hh hu, fun s hh hp hs ht hf => exec_startDrainToCarding_taken hh hp hs ht hf,
    fun s hh hp he hs => exec_cardingStart_taken hh hp he hs, fun s h => exec_cardingStart_waits h,
    fun s hh ht => exec_matcherSelftestDone_running true hh ht, fun s hh ht => exec_matcherSelftestDone_running false hh ht,
    fun p o m l s hh ho hm => exec_agentMergeAdmit_sys hh ho hm,
    fun p cls o f m s hh hc ho hf hm => exec_agentMergeAdmit_class hh hc ho hf hm, ?_, ?_, ?_,
    fun s i p cls b l h => exec_plank_held i p cls b l h⟩
  · rintro i q s w u hh hw hq rfl
    exact exec_tileForwardToLanding_sys hh hw hq
  · rintro i n s w u hh hw hs hn rfl
    exact exec_tileForwardToLanding_class hh hw hs hn
  · rw [exec_cardingMatchSlot_uninjected hp hh (Prod.ext hi rfl) (List.append_nil _).symm, hc, if_neg Bool.false_ne_true,
      crossUncontested_of_no_conflict _ hc]
  · rintro s u l m hp hh hi hm hc rfl
    rw [exec_cardingMatchSlot_uninjected hp hh (Prod.ext hi rfl) hm, if_pos hc]
    rfl
  · rintro p e s u hh hl rfl hb
    exact exec_egressClassPick_bcast hh hl hb
  · rintro p o s u hh hl rfl hb hs
    exact exec_egressClassPick_sys hh hl hb hs
  · rintro p o cls s u hh hl rfl hb hs hc ho
    exact exec_egressClassPick_class hh hl hb hs hc ho

end Sys2Proof.Machine
end

section
/-!
PROOFS. The statements of 03_crown_coherence.md: the hosts of a directory entry, the crown's queues, snoops and brim commands, windows over
time.
-/
namespace Sys2Proof.Machine

/-! ### Bits of a number -/

theorem bit_eq_testBit (v i : Nat) : bit v i = v.testBit i := by
  rw [Nat.testBit_eq_decide_div_mod_eq]
  exact beq_eq_decide _ _

/-- A number added at a bit that it has clear sets that bit and no other. -/
theorem testBit_add_two_pow {v i : Nat} (h : v.testBit i = false) (j : Nat) :
    (v + 2 ^ i).testBit j = (v.testBit j || j == i) := by
  have hr : v % 2 ^ i < 2 ^ i := Nat.mod_lt _ (Nat.two_pow_pos i)
  have he : v / 2 ^ i % 2 = 0 := by simpa [Nat.testBit_eq_decide_div_mod_eq] using h
  have hv : v = 2 ^ i * (v / 2 ^ i) + v % 2 ^ i := (Nat.div_add_mod v (2 ^ i)).symm
  have hs : v + 2 ^ i = 2 ^ i * (v / 2 ^ i + 1) + v % 2 ^ i := by rw [Nat.mul_add]; omega
  rw [hs, Nat.testBit_two_pow_mul_add _ hr]
  conv_rhs => rw [hv, Nat.testBit_two_pow_mul_add _ hr]
  rcases Nat.lt_trichotomy j i with hj | rfl | hj
  · simp [hj, hj.ne]
  · simp [Nat.testBit_zero]; omega
  · obtain ⟨k, hk⟩ : ∃ k, j - i = k + 1 := ⟨j - i - 1, by omega⟩
    have hq : (v / 2 ^ i + 1) / 2 = v / 2 ^ i / 2 := by omega
    simp [hj.not_gt, hj.ne', hk, Nat.testBit_succ, hq]

theorem bit_setBit_true (v i j : Nat) : bit (setBit v i true) j = (bit v j || j == i) := by
  unfold setBit
  cases h : bit v i with
  | true =>
    by_cases hj : j = i
    · simp [hj, h]
    · simp [hj]
  | false =>
    rw [bit_eq_testBit] at h
    simpa [bit_eq_testBit] using testBit_add_two_pow h j

/-- The bits of a vector that a list of places has been set in. -/
theorem bit_foldl_setBit (l : List Nat) (v j : Nat) :
    bit (l.foldl (fun v g => setBit v g true) v) j = (bit v j || l.any (· == j)) := by
  induction l generalizing v with
  | nil => simp
  | cons g l ih =>
    rw [List.foldl_cons, ih, bit_setBit_true, List.any_cons, Bool.or_assoc, BEq.comm (a := j)]

theorem bitList_eq_nil_iff (n v : Nat) : bitList n v = [] ↔ v % 2 ^ n = 0 := by
  rw [bitList, List.filter_eq_nil_iff]
  constructor
  · intro h
    refine Nat.zero_of_testBit_eq_false fun i => ?_
    by_cases hi : i < n
    · simpa [Nat.testBit_mod_two_pow, hi, bit_eq_testBit] using h i (List.mem_range.2 hi)
    · simp [Nat.testBit_mod_two_pow, hi]
  · intro h i hi
    have hb := Nat.testBit_mod_two_pow v n i
    simpa [h, List.mem_range.1 hi, bit_eq_testBit] using hb

/-! ### The distinct values of a list -/

theorem nodup_eraseDups (l : List Nat) : l.eraseDups.Nodup := by
  match l with
  | [] => simp
  | a :: l =>
    rw [List.eraseDups_cons, List.nodup_cons]
    exact ⟨by simp [List.mem_eraseDups], nodup_eraseDups _⟩
termination_by l.length
decreasing_by exact Nat.lt_succ_of_le (List.length_filter_le _ _)

theorem length_eraseDups_le (l : List Nat) : l.eraseDups.length ≤ l.length :=
  (List.subperm_of_subset (nodup_eraseDups l) fun _ h => List.mem_eraseDups.1 h).length_le

/-! ### The slots of a pointer-mode entry (R85) -/

/-- The fields of a word of three 6-bit slots. -/
theorem bits_slots {a b c : Nat} (ha : a < 64) (hb : b < 64) (hc : c < 64) :
    bits (a + b * 64 + c * 4096) 5 0 = a ∧ bits (a + b * 64 + c * 4096) 11 6 = b ∧ bits (a + b * 64 + c * 4096) 17 12 = c := by
  simp only [bits]
  omega

theorem getElem?_getD_lt {hs : List Nat} {a n : Nat} (h : ∀ x ∈ hs, x < n) (ha : a < n) (k : Nat) : (hs[k]?).getD a < n := by
  cases he : hs[k]? with
  | none => exact ha
  | some x => exact h x (List.mem_of_getElem? he)

/-- Each slot holds its host, and an unused one repeats slot 0. -/
theorem bits_packHosts {hs : List Nat} (h : ∀ x ∈ hs, x < 64) :
    bits (packHosts hs) 5 0 = hs.headD 0 ∧ bits (packHosts hs) 11 6 = (hs[1]?).getD (hs.headD 0)
      ∧ bits (packHosts hs) 17 12 = (hs[2]?).getD (hs.headD 0) := by
  have h0 : hs.headD 0 < 64 := by
    cases hs with
    | nil => decide
    | cons a l => exact h a List.mem_cons_self
  exact bits_slots h0 (getElem?_getD_lt h h0 1) (getElem?_getD_lt h h0 2)

/-- Slots filled from slot 0, the others repeating it, hold exactly the hosts they were filled with. -/
theorem eraseDups_slots {hs : List Nat} (h1 : 1 ≤ hs.length) (h3 : hs.length ≤ 3) (hn : hs.Nodup) :
    [hs.headD 0, (hs[1]?).getD (hs.headD 0), (hs[2]?).getD (hs.headD 0)].eraseDups = hs := by
  match hs with
  | [a] => simp [List.eraseDups_cons]
  | [a, b] =>
    have hab : b ≠ a := by simpa [eq_comm] using hn
    simp [List.eraseDups_cons, hab]
  | [a, b, c] =>
    obtain ⟨⟨hab, hac⟩, hbc⟩ : (b ≠ a ∧ c ≠ a) ∧ c ≠ b := by simpa [eq_comm] using hn
    simp [List.eraseDups_cons, hab, hac, hbc]

/-- An entry packed with one to three distinct hosts points to exactly those. -/
theorem ptrs_of_packed {e : DirEntry} {hs : List Nat} (he : e.hosts = packHosts hs) (h1 : 1 ≤ hs.length) (h3 : hs.length ≤ 3)
    (hn : hs.Nodup) (hl : ∀ h ∈ hs, h < 64) : e.ptrs = hs := by
  obtain ⟨b0, b1, b2⟩ := bits_packHosts hl
  rw [DirEntry.ptrs, he, b0, b1, b2, eraseDups_slots h1 h3 hn]

theorem ptrs_nodup (e : DirEntry) : e.ptrs.Nodup := nodup_eraseDups _

theorem mem_ptrs {e : DirEntry} {h : Nat} :
    h ∈ e.ptrs ↔ h = bits e.hosts 5 0 ∨ h = bits e.hosts 11 6 ∨ h = bits e.hosts 17 12 := by
  simp [DirEntry.ptrs, List.mem_eraseDups]

theorem ptrs_ne_nil (e : DirEntry) : e.ptrs ≠ [] := List.ne_nil_of_mem (mem_ptrs.2 (.inl rfl))

theorem ptrs_length_le (e : DirEntry) : e.ptrs.length ≤ 3 := length_eraseDups_le _

theorem ptrs_lt (e : DirEntry) : ∀ h ∈ e.ptrs, h < 64 := by
  intro h hm
  rcases mem_ptrs.1 hm with rfl | rfl | rfl <;> exact Nat.mod_lt _ (by decide)

/-! ### The hosts that an entry names (R84, R85) -/

theorem named_pointer {e : DirEntry} (hs : e.state ≠ .i) (hm : e.hmode = 0) : e.named = e.ptrs := by
  simp [DirEntry.named, hs, hm]

/-- A coarse entry names the four hosts of each group in its vector. -/
theorem named_coarse_eq_nil_iff {e : DirEntry} (hs : e.state ≠ .i) (hm : e.hmode ≠ 0) : e.named = [] ↔ e.hosts % 2 ^ 16 = 0 := by
  rw [← bitList_eq_nil_iff]
  simp only [DirEntry.named, hs, hm, if_false, beq_iff_eq, List.flatMap_eq_nil_iff]
  simp [List.eq_nil_iff_forall_not_mem (l := bitList 16 e.hosts)]

/-- Settles O38: the slots are read back by `bits_packHosts`, and an entry in pointer mode names `ptrs`, which holds slot 0. -/
theorem pointerModeNamesHosts : Obligations.PointerModeNamesHosts := by
  refine ⟨fun hs st d brim fwd h1 h3 hn hl hi => ?_, fun e hs hm => ?_, fun e hs => ?_⟩
  · obtain ⟨b0, b1, b2⟩ := bits_packHosts hl
    exact ⟨b0, b1, b2, rfl, (named_pointer hi rfl).trans (ptrs_of_packed rfl h1 h3 hn hl)⟩
  · rw [named_pointer hs hm]
    exact ⟨ptrs_nodup e, List.length_pos_iff.2 (ptrs_ne_nil e), ptrs_length_le e, fun h => mem_ptrs⟩
  · by_cases hm : e.hmode = 0
    · simp [named_pointer hs hm, ptrs_ne_nil, hm]
    · simp [named_coarse_eq_nil_iff hs hm, hm]

/-! ### Hosts added and removed (R88, R89) -/

section
variable {e : DirEntry} {h : Nat}

theorem addHost_coarse (hm : e.hmode = 1) : e.addHost h = { e with hosts := setBit e.hosts (h / 4) true } := by
  simp [DirEntry.addHost, hm]

theorem addHost_known (hm : e.hmode = 0) (hk : h ∈ e.ptrs) : e.addHost h = e := by
  simp [DirEntry.addHost, hm, hk]

theorem addHost_slot (hm : e.hmode = 0) (hk : h ∉ e.ptrs) (hl : e.ptrs.length < 3) :
    e.addHost h = { e with hosts := packHosts (e.ptrs ++ [h]) } := by
  simp [DirEntry.addHost, hm, hk, hl]

theorem addHost_fourth (hm : e.hmode = 0) (hk : h ∉ e.ptrs) (hl : 3 ≤ e.ptrs.length) :
    e.addHost h = { e with state := .s, hmode := 1, fwd := 0, hosts := coarseOf (e.ptrs ++ [h]) } := by
  simp [DirEntry.addHost, hm, hk, Nat.not_lt.2 hl]

/-- The slots after a host has been added in the lowest unused one. -/
theorem ptrs_addHost_slot (hm : e.hmode = 0) (hh : h < 64) (hk : h ∉ e.ptrs) (hl : e.ptrs.length < 3) :
    (e.addHost h).ptrs = e.ptrs ++ [h] := by
  rw [addHost_slot hm hk hl]
  refine ptrs_of_packed rfl (by simp) (by simpa using hl) ?_ ?_
  · exact (ptrs_nodup e).append (List.nodup_singleton h) (by simpa using hk)
  · simpa [or_imp, forall_and] using And.intro (ptrs_lt e) hh

theorem bit_coarseOf (hs : List Nat) (g : Nat) : bit (coarseOf hs) g = hs.any (fun x => x / 4 == g) := by
  rw [coarseOf, bit_foldl_setBit, List.any_map]
  simp [bit, Function.comp_def]

theorem dropHost_some_left (hx : ∃ x ∈ e.ptrs, x ≠ h) :
    e.dropHost h = { e with hosts := packHosts (e.ptrs.filter (· ≠ h)) } := by
  have hf : (e.ptrs.filter (· ≠ h)).isEmpty = false := by
    obtain ⟨x, hx, hne⟩ := hx
    exact List.isEmpty_eq_false_iff.2 (List.ne_nil_of_mem (List.mem_filter.2 ⟨hx, by simpa using hne⟩))
  simp only [DirEntry.dropHost, hf, Bool.not_false, if_true]

/-- The slots after a host has been removed and others are left. -/
theorem ptrs_dropHost_some_left (hx : ∃ x ∈ e.ptrs, x ≠ h) : (e.dropHost h).ptrs = e.ptrs.filter (· ≠ h) := by
  rw [dropHost_some_left hx]
  obtain ⟨x, hx, hne⟩ := hx
  refine ptrs_of_packed rfl (List.length_pos_of_mem (List.mem_filter.2 ⟨hx, by simpa using hne⟩)) ?_ ((ptrs_nodup e).filter _) ?_
  · exact (List.length_filter_le _ _).trans (ptrs_length_le e)
  · exact fun y hy => ptrs_lt e y (List.mem_of_mem_filter hy)

theorem dropHost_last (hx : ∀ x ∈ e.ptrs, x = h) :
    e.dropHost h = if e.brim ≠ 0 then { e with state := .s, hmode := 1, hosts := 0, fwd := 0 } else e.toI := by
  have hf : e.ptrs.filter (· ≠ h) = [] := List.filter_eq_nil_iff.2 (by simpa using hx)
  simp only [DirEntry.dropHost, hf]
  rfl

end

/-- Settles O39: adding and removing leave a pointer-mode entry packed, so its slots are read back by `ptrs_of_packed`. -/
theorem hostsAddedAndRemoved : Obligations.HostsAddedAndRemoved := by
  refine ⟨fun e h hm hh => ⟨addHost_known hm, fun hk hl => ?_, fun hk hl => ?_⟩, fun e h g hm => ?_, fun e h hm hx => ?_,
    fun e h hm hx hb => ?_, fun e h hm hx hb => ?_⟩
  · exact ⟨ptrs_addHost_slot hm hh hk hl, by rw [addHost_slot hm hk hl]⟩
  · rw [addHost_fourth hm hk hl]
    exact ⟨rfl, rfl, rfl, rfl, bit_coarseOf _⟩
  · rw [addHost_coarse hm]
    exact ⟨hm, bit_setBit_true _ _ _⟩
  · exact ⟨ptrs_dropHost_some_left hx, by rw [dropHost_some_left hx]⟩
  · rw [dropHost_last hx, if_pos hb]
  · rw [dropHost_last hx, if_neg (not_not.2 hb)]
    exact ⟨rfl, rfl, rfl, rfl⟩

/-! ### Requests reach the crown (R101, R105, R108) -/

/-- What a write that is served within another entry leaves in it (R101). -/
def LineEntry.withWrite (e x : LineEntry) : LineEntry :=
  { e with wbs := e.wbs ++ [{ txn := x.tag, data := x.data, mask := x.mask, partial_ := x.partial_, ct := x.ct }] }

theorem takeable_iff {s : State} {r : CrownReq} :
    s.takeable r = true ↔ (r.entry.op = .wr ∧ r.entry.who < 64 ∧ s.snooping r.w r.line r.entry.who = true)
      ∨ (s.trackerFree r.entry = true ∧ s.behindMarker r = false) := by
  simp [State.takeable, and_assoc]

section
variable {src : Fin 5} {r : CrownReq} {s : State}

/-- A write of a host that is being snooped for its line is served within the head of the line's queue. -/
theorem exec_crownRequestArrive_write {e : LineEntry} {l : List LineEntry} (hf : (KMap.get [] s.cr.inbound src).find? s.takeable = some r)
    (hh : s.hubHeld = false) (ho : r.entry.op = .wr) (hw : r.entry.who < 64) (hs : s.snooping r.w r.line r.entry.who = true)
    (hq : (s.takeInbound src r).lineQ r.w r.line = e :: l) :
    exec (.crownRequestArrive src) s
      = .next (((s.takeInbound src r).setHead r.w r.line (e.withWrite r.entry)).crownRun r.w r.line crownFuel) := by
  show execCrownRequestArrive src s = _
  simp [execCrownRequestArrive, hf, hh, ho, hw, hs, hq, LineEntry.withWrite]

/-- Any other request takes its tracker entry and joins its line's queue, or waits where its agent has an entry there. -/
theorem exec_crownRequestArrive_other (hf : (KMap.get [] s.cr.inbound src).find? s.takeable = some r) (hh : s.hubHeld = false)
    (hn : r.entry.op ≠ .wr ∨ 64 ≤ r.entry.who ∨ s.snooping r.w r.line r.entry.who = false) {u : State} {r' : CrownReq}
    (hu : (s.takeInbound src r).track r.entry true = u) (hr : { r with entry := { r.entry with at_ := u.now, src := src.val } } = r') :
    exec (.crownRequestArrive src) s
      = .next (if (u.lineQ r.w r.line).any (fun e => e.who == r.entry.who) then { u with cr := { u.cr with heldUp := u.cr.heldUp ++ [r'] } }
          else u.joinQueue r.w r.line r'.entry) := by
  have hc : (r.entry.op = .wr && r.entry.who < 64 && s.snooping r.w r.line r.entry.who) = false := by
    rcases hn with hn | hn | hn <;> simp [hn]
  subst hu hr
  show execCrownRequestArrive src s = _
  simp only [execCrownRequestArrive, hf, hh, hc, Bool.false_eq_true, if_false]

theorem exec_crownRequestArrive_none (hn : (KMap.get [] s.cr.inbound src).find? s.takeable = none ∨ s.hubHeld = true) :
    exec (.crownRequestArrive src) s = .next s := by
  show execCrownRequestArrive src s = _
  cases hf : (KMap.get [] s.cr.inbound src).find? s.takeable with
  | none => simp [execCrownRequestArrive, hf]
  | some r => simp [execCrownRequestArrive, hf, hn.resolve_left (by simp [hf])]

end

theorem exec_crownEntryServe_running {s : State} (w : WinIx) (line : BitVec 36) (hh : s.hubHeld = false) :
    exec (.crownEntryServe w line) s
      = .next ((((List.range 4).foldl (fun (s : State) t => s.pumpBrim t) s).sendLateAcks).crownRun w line.toNat crownFuel) := by
  show execCrownEntryServe w line s = _
  simp only [execCrownEntryServe, hh, Bool.false_eq_true, if_false]

theorem exec_crownEntryServe_held {s : State} (w : WinIx) (line : BitVec 36) (hh : s.hubHeld = true) :
    exec (.crownEntryServe w line) s = .next s :=
  congrArg _ (if_pos hh)

/-! ### Snoop responses, conflicts and timeouts (R102, R103, R104) -/

/-- The contained fault of host h's port about a line (R103, R104). -/
def State.snoopFault (s : State) (h line code : Nat) : State :=
  s.raiseCore (4 * s.hostBlamePort h + 2) 2 code false { master := s.hostBlamePort h, access := 5, addr := some (line * 64) }

/-- A contained fault is below fatal: it writes its block only. -/
theorem raise_snoopFault (s : State) (h line code : Nat) :
    s.raise (4 * s.hostBlamePort h + 2) 2 code false { master := s.hostBlamePort h, access := 5, addr := some (line * 64) }
      = s.snoopFault h line code :=
  raise_below_fatal _ _ _ _ _ _ (by decide)

section
variable {h : HostIx} {w : WinIx} {line : BitVec 36} {s : State} {e : LineEntry} {l : List LineEntry} {q : Snoop}

/-- The snoop that a response of a host for a line answers. -/
theorem head_snoop (hq : s.lineQ w line.toNat = e :: l) (hf : e.snoops.find? (fun q => q.host == h.val) = some q) :
    (s.lineQ w line.toNat).head?.bind (fun e => e.snoops.find? (fun q => q.host == h.val)) = some q := by
  rw [hq]
  exact hf

theorem exec_birspReceive_allowed {rsp : BiRsp} (hh : s.hubHeld = false) (hq : s.lineQ w line.toNat = e :: l)
    (hf : e.snoops.find? (fun q => q.host == h.val) = some q) (ha : snoopAllows q.kind rsp = true) :
    exec (.birspReceive h w line rsp) s = .next (s.snoopAnswered w line.toNat h rsp) := by
  show execBirspReceive h w line rsp s = _
  simp only [execBirspReceive, hh, head_snoop hq hf, ha, if_true, Bool.false_eq_true, if_false]

/-- A response that its snoop does not allow is the fault, and counts as BIRspI. -/
theorem exec_birspReceive_barred {rsp : BiRsp} (hh : s.hubHeld = false) (hq : s.lineQ w line.toNat = e :: l)
    (hf : e.snoops.find? (fun q => q.host == h.val) = some q) (ha : snoopAllows q.kind rsp = false) :
    exec (.birspReceive h w line rsp) s
      = .next ((s.snoopFault h line.toNat 0x22).snoopAnswered w line.toNat h .i) := by
  show execBirspReceive h w line rsp s = _
  simp only [execBirspReceive, hh, head_snoop hq hf, ha, Bool.false_eq_true, if_false, raise_snoopFault]

theorem exec_birspReceive_unmatched (rsp : BiRsp) (hh : s.hubHeld = false) (hq : s.lineQ w line.toNat = []) :
    exec (.birspReceive h w line rsp) s
      = .next (s.snoopFault h line.toNat 0x22) := by
  show execBirspReceive h w line rsp s = _
  simp only [execBirspReceive, hh, hq, List.head?_nil, Option.bind_none, Bool.false_eq_true, if_false, raise_snoopFault]

theorem exec_biconflictReceive_acked {p : Nat} (hh : s.hubHeld = false) (hc : s.carryTo h w line.toNat = none)
    (hp : ((s.lastDone h w line.toNat).filter s.linkUp).or (s.hostPort h) = some p) :
    exec (.biconflictReceive h w line) s
      = .next (s.agentSend 0x78 0 .coh p 16 0 { kind := .conflictAck, dst := h, args := [h, w, line.toNat] }) := by
  show execBiconflictReceive h w line s = _
  simp [execBiconflictReceive, hh, hc, State.ackConflict, hp]

theorem exec_biconflictReceive_behind {k : Nat} (hh : s.hubHeld = false) (hc : s.carryTo h w line.toNat = some k) :
    exec (.biconflictReceive h w line) s
      = .next { s with cr := { s.cr with lateAck := s.cr.lateAck ++ [{ host := h, w := w, line := line.toNat, pkt := k }] } } := by
  show execBiconflictReceive h w line s = _
  simp [execBiconflictReceive, hh, hc]

theorem exec_snoopTimeout_expired {u : State} (hh : s.hubHeld = false) (hq : s.lineQ w line.toNat = e :: l)
    (hf : e.snoops.find? (fun q => q.host == h.val) = some q)
    (hu : s.advance (q.at_ + cfgOf (s.genOf e.gen) (K.SNOOP_TIMEOUT w) * Config.us) = u) :
    exec (.snoopTimeout h w line) s
      = .next ((((u.snoopFault h line.toNat 0x23).portDown (u.hostBlamePort h) .surprise).departHost h).ownerGone w line.toNat h) := by
  subst hu
  have hm : (s.lineQ w line.toNat).head?.bind (fun e => (e.snoops.find? (fun q => q.host == h.val)).map (fun q => (e.gen, q)))
      = some (e.gen, q) := by rw [hq]; simp [hf]
  show execSnoopTimeout h w line s = _
  simp only [execSnoopTimeout, hm, hh, Bool.false_eq_true, if_false, raise_snoopFault]

end

/-! ### Commands to the brim caches (R94, R96, R97) -/

section
variable {t : TileIx} {c : BrimCmd} {s : State}

theorem brimNext_stopped (k : BrimKind) (h : s.hubHeld = true ∨ s.tileHeld t = true ∨ s.seamUp t = false) : s.brimNext t k = none :=
  if_pos (by simpa [or_assoc] using h)

theorem exec_brimFill_taken (hc : s.brimNext t .fill = some c) :
    exec (.brimFill t) s = .next ((s.brimPut t c.w c.line c.data).brimTaken t c { tile := t, kind := .fill, w := c.w, line := c.line }) := by
  show execBrimFill t s = _
  simp only [execBrimFill, hc]

theorem exec_brimInv_taken (hc : s.brimNext t .inv = some c) :
    exec (.brimInv t) s
      = .next (({ s with cr := { s.cr with brim := KMap.set none s.cr.brim (brimKey t c.w c.line) none } } : State).brimTaken
          t c { tile := t, kind := .inv, w := c.w, line := c.line }) := by
  show execBrimInv t s = _
  simp only [execBrimInv, hc]

theorem exec_brimRead_absent (hc : s.brimNext t .read = some c) (hv : KMap.get none s.cr.brim (brimKey t c.w c.line) = none) :
    exec (.brimRead t) s = .next (s.brimTaken t c { tile := t, kind := .read, w := c.w, line := c.line, miss := true }) := by
  show execBrimRead t s = _
  simp only [execBrimRead, hc, hv]

/-- A line whose check bits cannot be corrected is answered as a miss. -/
theorem exec_brimRead_uncorrectable {v : Nat} {u : State} (hc : s.brimNext t .read = some c)
    (hv : KMap.get none s.cr.brim (brimKey t c.w c.line) = some v) (he : s.ecc (574 + t.val) 0 1 2 2 = (true, u)) :
    exec (.brimRead t) s = .next (u.brimTaken t c { tile := t, kind := .read, w := c.w, line := c.line, miss := true }) := by
  show execBrimRead t s = _
  simp only [execBrimRead, hc, hv, he, if_true]

/-- A line that the crown asked for is answered with its data. -/
theorem exec_brimRead_answered {v : Nat} {u : State} (hc : s.brimNext t .read = some c)
    (hv : KMap.get none s.cr.brim (brimKey t c.w c.line) = some v) (he : s.ecc (574 + t.val) 0 1 2 2 = (false, u)) (hp : 96 ≤ c.port) :
    exec (.brimRead t) s = .next (u.brimTaken t c { tile := t, kind := .read, w := c.w, line := c.line, data := v }) := by
  show execBrimRead t s = _
  simp only [execBrimRead, hc, hv, he, Bool.false_eq_true, if_false, Nat.not_lt.2 hp]

/-- A line that a host's read waits for goes on to it, with the grant of its entry. -/
theorem exec_brimRead_forwarded {v : Nat} {u y : State} {x : Txn} {e : LineEntry} (hc : s.brimNext t .read = some c)
    (hv : KMap.get none s.cr.brim (brimKey t c.w c.line) = some v) (he : s.ecc (574 + t.val) 0 1 2 2 = (false, u))
    (hy : u.brimTaken t c { tile := t, kind := .read, w := c.w, line := c.line, data := v } = y) (hp : c.port < 96)
    (hx : y.txn? c.tag = some x) (hs : (y.served c.w c.line).find? (fun e => e.tag == c.tag) = some e) :
    exec (.brimRead t) s
      = .next (y.brimForward t c (e.grant == 1) v { kind := .completion, dst := c.port, args := [x.tag, x.rid, 0, v, e.grant] }) := by
  subst hy
  show execBrimRead t s = _
  simp only [execBrimRead, hc, hv, he, Bool.false_eq_true, if_false, hp, if_true, hx, hs]

/-- With the tile or the hub held or the seam down no command of a brim cache changes anything. -/
theorem exec_brim_stopped (h : s.hubHeld = true ∨ s.tileHeld t = true ∨ s.seamUp t = false) :
    ∀ c ∈ [Instr.brimFill t, .brimInv t, .brimRead t], exec c s = .next s := by
  simp only [List.forall_mem_cons]
  refine ⟨?_, ?_, ?_, List.forall_mem_nil _⟩
  · show execBrimFill t s = _
    simp only [execBrimFill, brimNext_stopped _ h]
  · show execBrimInv t s = _
    simp only [execBrimInv, brimNext_stopped _ h]
  · show execBrimRead t s = _
    simp only [execBrimRead, brimNext_stopped _ h]

end

/-! ### Acknowledgements of the brim caches (R95, R96, R97) -/

/-- The crown has taken an acknowledgement. -/
def State.dropBrimAck (s : State) (a : BrimAck) : State := { s with cr := { s.cr with brimAck := s.cr.brimAck.erase a } }

section
variable {t : TileIx} {a : BrimAck} {e : LineEntry} {l : List LineEntry} {s : State}

theorem exec_brimAckReceive_other (hf : s.cr.brimAck.find? (fun a => a.tile == t.val) = some a) (hh : s.hubHeld = false)
    (hq : (s.dropBrimAck a).lineQ a.w a.line = e :: l) (hk : a.kind ≠ .read) :
    exec (.brimAckReceive t) s
      = .next (((s.dropBrimAck a).setHead a.w a.line { e with brims := e.brims.filter (· ≠ t.val) }).crownRun a.w a.line crownFuel) := by
  unfold State.dropBrimAck at hq ⊢
  show execBrimAckReceive t s = _
  simp [execBrimAckReceive, hf, hh, hq, hk]

/-- The acknowledgement of a READ that the head waits for brings its data, or tells that the tile has not got the line. -/
theorem exec_brimAckReceive_read (hf : s.cr.brimAck.find? (fun a => a.tile == t.val) = some a) (hh : s.hubHeld = false)
    (hq : (s.dropBrimAck a).lineQ a.w a.line = e :: l) (hk : a.kind = .read) (hs : e.stage = .brimOwn ∨ e.stage = .brimFwd)
    (hb : e.brims.contains t.val = true) :
    exec (.brimAckReceive t) s
      = .next (if a.miss then
            if ((s.dropBrimAck a).crownMiss a.w a.line t e).1 then ((s.dropBrimAck a).crownMiss a.w a.line t e).2.crownRun a.w a.line crownFuel
            else ((s.dropBrimAck a).crownMiss a.w a.line t e).2
          else ((if e.stage = .brimFwd then (s.dropBrimAck a).incO (K.FWD_HITS a.w) else s.dropBrimAck a).brimData a.w a.line e a.data).crownRun
            a.w a.line crownFuel) := by
  have hc : (a.kind = .read && (e.stage = .brimOwn || e.stage = .brimFwd) && e.brims.contains t.val) = true := by
    simp only [hk, hb, decide_true, Bool.true_and, Bool.and_true]
    simpa using hs
  unfold State.dropBrimAck at hq ⊢
  show execBrimAckReceive t s = _
  simp only [execBrimAckReceive, hf, hh, hq, hc, Bool.false_eq_true, if_false, if_true]
  split <;> rfl

end

/-! ### Answers of memory targets (R107) -/

section
variable {id : Nat} {t : Txn} {s : State} (st : MemStatus) (d : BitVec 512)
  (ht : s.txn? id = some t) (hh : s.hubHeld = false) (hd : t.deadline.isSome = true)
include ht hh hd

/-- An answer that is awaited, by what its request was made for: a line of the crown. -/
theorem exec_targetResponseReceive_crown (hp : t.purpose = .crown) :
    exec (.targetResponseReceive id st d) s = .next (s.crownAnswer id t st d.toNat) := by
  show execTargetResponseReceive id st d s = _
  simp [execTargetResponseReceive, ht, hh, ← Option.not_isSome, hd, hp]

/-- A request of a hub agent. -/
theorem exec_targetResponseReceive_agent (hp : t.purpose = .agent ∨ t.purpose = .core) :
    exec (.targetResponseReceive id st d) s = .next (s.hubAnswer id st d.toNat) := by
  show execTargetResponseReceive id st d s = _
  rcases hp with hp | hp <;> simp [execTargetResponseReceive, ht, hh, ← Option.not_isSome, hd, hp]

/-- A write of the movers. -/
theorem exec_targetResponseReceive_mover (hp : t.purpose = .mover) (hw : t.write = true) :
    exec (.targetResponseReceive id st d) s = .next (s.hubAnswer id st 0) := by
  show execTargetResponseReceive id st d s = _
  simp [execTargetResponseReceive, ht, hh, ← Option.not_isSome, hd, hp, hw]

/-- A write to a shadow: one in error fails the freeze. -/
theorem exec_targetResponseReceive_shadow {u : State} (hp : t.purpose = .shadow)
    (hu : (s.endTxn id true).updWin t.w (fun v => { v with frz := { v.frz with shadowOut := v.frz.shadowOut - 1 } }) = u) :
    exec (.targetResponseReceive id st d) s = .next (if st = .ok then u else u.failFreeze t.w) := by
  subst hu
  show execTargetResponseReceive id st d s = _
  simp [execTargetResponseReceive, ht, hh, ← Option.not_isSome, hd, hp]

end

/-- Settles O18: one lemma above for each command and outcome. What a snoop allows, the poisoning at a snoop timeout and how a
read that finds no line goes on are the model's choice (log entry 36). -/
theorem crownQueuesSnoopsAndBrims : Obligations.CrownQueuesSnoopsAndBrims := by
  refine ⟨fun s r => takeable_iff, ?_, ?_, fun src s hn => exec_crownRequestArrive_none hn,
    fun w line s => ⟨exec_crownEntryServe_running w line, exec_crownEntryServe_held w line⟩,
    fun h w line rsp e l q s hh hq hf => ⟨exec_birspReceive_allowed hh hq hf, exec_birspReceive_barred hh hq hf⟩,
    fun h w line rsp s hh hq => exec_birspReceive_unmatched rsp hh hq,
    fun h w line s hh => ⟨fun p => exec_biconflictReceive_acked hh, fun k => exec_biconflictReceive_behind hh⟩,
    fun h w line e l q s u hh hq hf hu => exec_snoopTimeout_expired hh hq hf hu.symm,
    fun t c s => exec_brimFill_taken, fun t c s => exec_brimInv_taken, fun t c s => exec_brimRead_absent, ?_,
    fun t c v s u => exec_brimRead_uncorrectable, fun t s => exec_brim_stopped, ?_, ?_⟩
  · rintro src r r' s u hf hh hn rfl rfl
    rw [exec_crownRequestArrive_other hf hh hn rfl rfl]
    exact ⟨fun ha => by rw [ha]; rfl, fun ha => by rw [ha]; rfl⟩
  · rintro src r e l s u hf hh ho hw hs rfl hq
    exact exec_crownRequestArrive_write hf hh ho hw hs hq
  · rintro t c v s u w hc hv he rfl
    exact ⟨exec_brimRead_answered hc hv he, fun x e hp => exec_brimRead_forwarded hc hv he rfl hp⟩
  · rintro t a e l s u hf hh rfl hq
    refine ⟨exec_brimAckReceive_other hf hh hq, fun hk hs hb hm => ?_, fun hk hs hb hm => ?_, fun v hk hs hb hm hv => ?_⟩
    · rw [exec_brimAckReceive_read hf hh hq hk (.inl hs) hb, hm, hs]
      rfl
    · rw [exec_brimAckReceive_read hf hh hq hk (.inr hs) hb, hm, hs]
      rfl
    · rw [exec_brimAckReceive_read hf hh hq hk hs hb, hm, State.dropBrimAck, hv]
      rfl
  · rintro id st d t s u ht hh hd
    exact ⟨exec_targetResponseReceive_crown st d ht hh hd, exec_targetResponseReceive_agent st d ht hh hd,
      exec_targetResponseReceive_mover st d ht hh hd, fun hp hu => exec_targetResponseReceive_shadow st d ht hh hd hp hu.symm⟩

/-! ### Initialisation and resync of a window (R83, R119) -/

/-- Window w's directory is empty, in memory and in the cache. -/
def State.clearDirectory (s : State) (w : Nat) : State :=
  { s with cr := { s.cr with
      dir := KMap.keep (fun k => k / 2 ^ 36 ≠ w) s.cr.dir
      cached := KMap.keep (fun k => k / 2 ^ 36 ≠ w) s.cr.cached
      sector := KMap.keep (fun k => k / 2 ^ 32 ≠ w) s.cr.sector } }

/-- A window that is INITIALISING without a mirror, its target bound, loses its directory and is ACTIVE. -/
theorem exec_windowInitComplete_unmirrored {w : WinIx} {s : State} (hh : s.hubHeld = false) (hs : s.o (K.STATE w) = 1)
    (hm : s.cB (K.MIRROR w) = false) (hb : (s.targetPort (s.c (K.PRIMARY_TARGET w))).isSome = true) :
    exec (.windowInitComplete w) s
      = .next (((s.clearDirectory w).updWin w (fun _ => { live0 := true, live1 := false })).setWinState w 2) := by
  show execWindowInitComplete w s = _
  simp [execWindowInitComplete, State.clearDirectory, hh, hs, hm, hb]

theorem exec_resyncStart_accepted {sess : SessRef} {w : WinIx} {v : Byte} {s u : State} (h : s.accepts sess (K.RESYNC_START w) 1 v.toNat u) :
    exec (.resyncStart sess w v) s = .next ((ownResyncStart w u).2.answerOd sess (ownResyncStart w u).1) :=
  congrArg _ (odCommand_accepts (ownResyncStart w) h)

theorem ownResyncStart_degraded {w : Nat} {s : State} (hs : s.o (K.STATE w) = 3) (hm : s.cB (K.MIRROR w) = true)
    (hb : s.poolBound (s.replicaTarget w (s.lostReplica w)) = true) :
    ownResyncStart w s
      = (odOk, ((s.updWin w (fun v => { v with returning := some (s.lostReplica w), resyncAt := 0 })).setO (K.RESYNC_DONE w) 0).setWinState w 4) := by
  simp [ownResyncStart, hs, hm, hb]

theorem ownResyncStart_elsewhere {w : Nat} {s : State} (hs : s.o (K.STATE w) ≠ 3) : ownResyncStart w s = (odNo 0x0302, s) :=
  if_pos hs

theorem exec_resyncLineCopy_pushed {w : WinIx} {s u : State} (hh : s.hubHeld = false) (hs : s.o (K.STATE w) = 4)
    (hi : s.internalAt w .resync = false) (hl : (s.win w).resyncAt < s.winLines w)
    (hu : s.pushInternal w (s.win w).resyncAt .resync = some u) :
    exec (.resyncLineCopy w) s
      = .next ((u.updWin w (fun v => { v with resyncAt := v.resyncAt + 1 })).crownRun w (s.win w).resyncAt crownFuel) := by
  show execResyncLineCopy w s = _
  simp [execResyncLineCopy, hh, hs, hi, Nat.not_le.2 hl, hu]

/-! ### The internal agent's places in the queues (R105, R108) -/

theorem pushInternal_no_tracker {s : State} {op : LineOp} (w line : Nat) (ht : s.trackerFree (internalEntry s op) = false) :
    s.pushInternal w line op = none := by
  simp [State.pushInternal, ht]

theorem pushInternal_tracked {s : State} {op : LineOp} (w line : Nat) (ht : s.trackerFree (internalEntry s op) = true) {u : State}
    (hu : s.track (internalEntry s op) true = u) :
    s.pushInternal w line op = some (if (u.lineQ w line).any (fun x => x.who == 0x178) then
        { u with cr := { u.cr with heldUp := u.cr.heldUp ++ [{ w := w, line := line, entry := internalEntry s op }] } }
      else u.joinQueue w line (internalEntry s op)) := by
  subst hu
  simp [State.pushInternal, ht]

/-! ### Departures (R120, R121, R123) -/

/-- The markers of host h with none of its requests ahead of them act, in the order in which they left. -/
theorem exec_departureMarkerArrive_running {h : HostIx} {s : State} (hh : s.hubHeld = false) :
    exec (.departureMarkerArrive h) s
      = .next (((s.cr.leaving.filter (fun e => markerHost e.1 == h.val && e.2.any (fun n => !s.requestsAhead h n))).map (·.1)).foldl
          State.markerArrives s) := by
  show execDepartureMarkerArrive h s = _
  simp only [execDepartureMarkerArrive, hh, Bool.false_eq_true, if_false]
  congr 3
  refine List.filter_congr fun e _ => ?_
  cases e.2 <;> rfl

theorem exec_departureSweepStep_none {s : State} (hd : s.cr.departed = []) : exec .departureSweepStep s = .next s :=
  if_pos (by simp [hd])

section
variable {w n : Nat} {s : State} (hh : s.hubHeld = false) (hd : s.cr.departed ≠ [])
  (hw : (fromPtr 16 s.cr.sweepW).find? s.departureDue = some w) (hn : n = KMap.get 0 s.cr.sweepAt w)
include hh hd hw hn

/-- A window that is not open is passed at once. -/
theorem exec_departureSweepStep_closed (hs : s.o (K.STATE w) < 2 ∨ s.o (K.STATE w) = 5) :
    exec .departureSweepStep s = .next (s.sweepPassed w n) := by
  have hc : (decide (s.o (K.STATE w) < 2) || s.o (K.STATE w) == 5) = true := by simpa using hs
  subst hn
  show execDepartureSweepStep s = _
  simp only [execDepartureSweepStep, hh, List.isEmpty_eq_false_iff.2 hd, Bool.or_false, Bool.false_eq_true, if_false, hw, Option.getD_some, hc,
    if_true]

/-- The lines of the sector are met, and the sector is passed when none of them names a departed host any more. -/
theorem exec_departureSweepStep_open (h2 : 2 ≤ s.o (K.STATE w)) (h5 : s.o (K.STATE w) ≠ 5) {u : State}
    (hu : (List.range 16).foldl (fun (x : State) i => x.sweepLine w (16 * n + i)) s = u) :
    exec .departureSweepStep s
      = .next (if (List.range 16).any (fun i => u.namesDeparted w (16 * n + i)) then u else u.sweepPassed w n) := by
  subst hn hu
  show execDepartureSweepStep s = _
  simp [execDepartureSweepStep, hh, hd, hw, Nat.not_lt.2 h2, h5]

end

/-! ### Freezes (R194, R195, R199, R200) -/

section
variable {sess : SessRef} {w : WinIx} {v : Byte} {s u : State}

theorem exec_frzArm_accepted (h : s.accepts sess (K.FRZ_ARM w) 1 v.toNat u) :
    exec (.frzArm sess w v) s = .next ((ownFrzArm w u).2.answerOd sess (ownFrzArm w u).1) :=
  congrArg _ (odCommand_accepts (ownFrzArm w) h)

theorem exec_frzRelease_accepted (h : s.accepts sess (K.FRZ_RELEASE w) 1 v.toNat u) :
    exec (.frzRelease sess w v) s = .next ((ownFrzRelease w u).2.answerOd sess (ownFrzRelease w u).1) :=
  congrArg _ (odCommand_accepts (ownFrzRelease w) h)

end

theorem ownFrzArm_armed {w : Nat} {s : State} (hr : s.armRefusal w = 0) :
    ownFrzArm w s = (odOk, (s.updWin w (fun v => { v with frz := { we := v.frz.we, armedAt := s.now } })).setFrzState w 1) := by
  simp only [ownFrzArm, hr]

theorem ownFrzArm_refused {w : Nat} {s : State} (hr : s.armRefusal w ≠ 0) :
    ownFrzArm w s = (odNo 0x0504 (s.armRefusal w), s.setO (K.FRZ_REFUSAL w) (s.armRefusal w)) := by
  unfold ownFrzArm
  split
  · contradiction
  · rfl

theorem ownFrzRelease_copying {w : Nat} {s : State} (hs : s.o (K.FRZ_STATE w) = 2) :
    ownFrzRelease w s = (odNo 0x0504 6, s.setO (K.FRZ_REFUSAL w) 6) := by
  simp [ownFrzRelease, hs]

theorem ownFrzRelease_released {w : Nat} {s : State} (hs : s.o (K.FRZ_STATE w) = 1 ∨ s.o (K.FRZ_STATE w) = 3) :
    ownFrzRelease w s = (odOk, (s.updWin w (fun v => { v with frz := { we := v.frz.we } })).setFrzState w 0) := by
  rcases hs with hs | hs <;> simp [ownFrzRelease, hs]

section
variable {w : WinIx} {s u : State}

theorem exec_freezePoint_reached {p : Nat} (hp : (s.win w).frz.point = some p) (hh : s.hubHeld = false) (hs : s.o (K.FRZ_STATE w) = 1)
    (hc : p ≤ s.ct) :
    exec (.freezePoint w) s
      = .next (((s.updWin w (fun v => { v with frz := { v.frz with we := !v.frz.we, sweep := 0, sweepOn := true, shadowOut := 0 } })).setO
          (K.FRZ_COPIED w) 0).setFrzState w 2) := by
  show execFreezePoint w s = _
  simp [execFreezePoint, hp, hh, hs, Nat.not_lt.2 hc]

theorem exec_freezeSweepStep_covered (hh : s.hubHeld = false) (ho : (s.win w).frz.sweepOn = true)
    (hs : s.o (K.FRZ_STATE w) = 2 ∨ s.o (K.FRZ_STATE w) = 4) (hi : s.internalAt w .frz = false)
    (hc : s.uncopied w (s.dirEntry w (s.win w).frz.sweep) = false) :
    exec (.freezeSweepStep w) s = .next (s.sweepCovered w (s.win w).frz.sweep) := by
  show execFreezeSweepStep w s = _
  rcases hs with hs | hs <;> simp [execFreezeSweepStep, hh, ho, hs, hi, hc]

theorem exec_freezeSweepStep_copied (hh : s.hubHeld = false) (ho : (s.win w).frz.sweepOn = true)
    (hs : s.o (K.FRZ_STATE w) = 2 ∨ s.o (K.FRZ_STATE w) = 4) (hi : s.internalAt w .frz = false)
    (hc : s.uncopied w (s.dirEntry w (s.win w).frz.sweep) = true) (hu : s.pushInternal w (s.win w).frz.sweep .frz = some u) :
    exec (.freezeSweepStep w) s = .next ((u.sweepCovered w (s.win w).frz.sweep).crownRun w (s.win w).frz.sweep crownFuel) := by
  show execFreezeSweepStep w s = _
  rcases hs with hs | hs <;> simp [execFreezeSweepStep, hh, ho, hs, hi, hc, hu]

theorem exec_freezeComplete_done (hh : s.hubHeld = false) (hs : s.o (K.FRZ_STATE w) = 2) (ho : (s.win w).frz.sweepOn = false)
    (hz : (s.win w).frz.shadowOut = 0) (hi : s.internalAt w .frz = false) (hw : s.oldWrites w ((s.win w).frz.point.getD 0) = false) :
    exec (.freezeComplete w) s = .next (s.setFrzState w 3) := by
  show execFreezeComplete w s = _
  simp [execFreezeComplete, hh, hs, ho, hz, hi, hw]

theorem exec_freezePoint_held (hh : s.hubHeld = true) : exec (.freezePoint w) s = .next s := by
  show execFreezePoint w s = _
  unfold execFreezePoint
  split
  · rfl
  · exact if_pos (by simp [hh])

end

/-- With the hub held no event of a window changes anything. -/
theorem exec_window_held {s : State} (w : WinIx) (h : HostIx) (hh : s.hubHeld = true) :
    ∀ c ∈ [Instr.windowInitComplete w, .resyncLineCopy w, .departureMarkerArrive h, .departureSweepStep, .freezePoint w, .freezeSweepStep w,
      .freezeComplete w], exec c s = .next s := by
  simp only [List.forall_mem_cons]
  exact ⟨if_pos (by simp [hh]), if_pos (by simp [hh]), if_pos hh, if_pos (by simp [hh]), exec_freezePoint_held hh, if_pos (by simp [hh]),
    if_pos (by simp [hh]), List.forall_mem_nil _⟩

/-- Settles O19: one lemma above for each command and outcome. The order of the sweep, the entries that it reads and the restart of
a resync are the model's choice (log entry 36). -/
theorem windowsInitialisedResyncedAndFrozen : Obligations.WindowsInitialisedResyncedAndFrozen := by
  refine ⟨fun w s u hh hs hm hb hu => hu ▸ exec_windowInitComplete_unmirrored hh hs hm hb, fun sess w v s u ha hs hm hb => ?_,
    fun sess w v s u ha hs => ?_, fun w s u => exec_resyncLineCopy_pushed, ?_, fun h s hh ha => ?_, fun h k n s hh hl hk hr => ?_, ?_,
    fun s => exec_departureSweepStep_none, fun sess w v s u ha hr => ?_, fun sess w v s u ha hr => ?_, fun sess w v s u ha hs => ?_,
    fun sess w v s u ha hs => ?_, fun w p s => exec_freezePoint_reached,
    fun w s u hh ho hs hi => ⟨exec_freezeSweepStep_covered hh ho hs hi, exec_freezeSweepStep_copied hh ho hs hi⟩,
    fun w n s => rfl, fun w s => exec_freezeComplete_done, fun w h s => exec_window_held w h⟩
  · rw [exec_resyncStart_accepted ha, ownResyncStart_degraded hs hm hb]
    rfl
  · rw [exec_resyncStart_accepted ha, ownResyncStart_elsewhere hs]
    rfl
  · rintro w line op e s u rfl
    refine ⟨pushInternal_no_tracker w line, fun ht hu ha => ?_, fun ht hu ha => ?_⟩
    · rw [pushInternal_tracked w line ht hu.symm, ha]
      rfl
    · rw [pushInternal_tracked w line ht hu.symm, ha]
      rfl
  · have hn : s.cr.leaving.filter (fun e => markerHost e.1 == h.val && e.2.any (fun n => !s.requestsAhead h n)) = [] :=
      List.filter_eq_nil_iff.2 fun e he => by
        simpa [Option.any_eq_true, Option.eq_some_iff_get_eq] using ha e he
    rw [exec_departureMarkerArrive_running hh, hn]
    rfl
  · rw [exec_departureMarkerArrive_running hh, hl]
    simp [hk, hr]
  · intro w n s u hh hd hw hn hu
    refine ⟨exec_departureSweepStep_closed hh hd hw hn, fun h2 h5 ha => ?_, fun h2 h5 ha => ?_⟩
    · rw [exec_departureSweepStep_open hh hd hw hn h2 h5 hu.symm, if_pos ha]
    · rw [exec_departureSweepStep_open hh hd hw hn h2 h5 hu.symm, if_neg (by simp [ha])]
  · rw [exec_frzArm_accepted ha, ownFrzArm_armed hr]
    rfl
  · rw [exec_frzArm_accepted ha, ownFrzArm_refused hr]
    rfl
  · rw [exec_frzRelease_accepted ha, ownFrzRelease_copying hs]
    rfl
  · rw [exec_frzRelease_accepted ha, ownFrzRelease_released hs]
    rfl

end Sys2Proof.Machine
end

section
/-!
PROOFS. The statements of 04_ordering_fences.md: fences, doorbells, capture rings, HDM decoders, the accesses of the service cores.
-/
namespace Sys2Proof.Machine

/-! ### Ends and timeouts of fences (R136, R141, R189) -/

/-- A fence is done once every covered write and descriptor has ended and, for a trigger fence, its point has come. -/
theorem fenceDone_iff {s : State} {f : Fence} :
    s.fenceDone f = true ↔ f.ended = false ∧ f.waits = [] ∧ f.descs = []
      ∧ (f.kind = .trigger → ∃ p, f.point = some p ∧ p ≤ s.ct) := by
  unfold State.fenceDone
  cases f.point <;> simp [and_assoc, imp_iff_not_or]

section
variable {id d : Nat} {f : Fence} {s : State} (hf : s.fence? id = some f)
include hf

theorem exec_fenceEnd_done (hk : f.kind ≠ .barSys) (hd : s.fenceDone f = true) :
    exec (.fenceEnd id) s = .next (s.endFence id f (if f.error then 1 else 0)) := by
  show execFenceEnd id s = _
  simp [execFenceEnd, hf, hk, hd]

theorem exec_fenceEnd_not_done (hd : s.fenceDone f = false) : exec (.fenceEnd id) s = .next s := by
  show execFenceEnd id s = _
  simp [execFenceEnd, hf, hd]

/-- The deadline of a fence that has not ended, and of a trigger fence after its edge, ends it: as done if it was done before, else
by TIMEOUT. -/
theorem exec_fenceTimeout_runs (hd : f.deadline = some d) (hk : f.kind ≠ .barSys) (he : f.ended = false)
    (ht : f.kind = .trigger → f.ctTrig.isSome = true) :
    exec (.fenceTimeout id) s
      = .next (if s.fenceDone f then s.endFence id f (if f.error then 1 else 0)
          else ((s.advance d).endFence id f 2).raiseCore 550 1 1) := by
  have hn : ¬ (f.kind = .trigger ∧ f.ctTrig = none) := fun ⟨hk, hc⟩ => by simpa [hc] using ht hk
  show execFenceTimeout id s = _
  cases h : s.fenceDone f <;> simp [execFenceTimeout, hf, hd, hk, he, hn, h, raise_below_fatal]

/-- A trigger fence without an edge ends by NO_TRIGGER. -/
theorem exec_tfenceWaitExpiry_unarmed (hd : f.deadline = some d) (hk : f.kind = .trigger) (he : f.ended = false) (hc : f.ctTrig = none) :
    exec (.tfenceWaitExpiry id) s = .next ((s.advance d).endFence id { f with error := false } 5) := by
  show execTfenceWaitExpiry id s = _
  simp [execTfenceWaitExpiry, hf, hd, hk, he, hc]

end

/-! ### Doorbells (R131, R132, R133) -/

/-- A write to the fence aperture that the port's VCS has enabled. -/
theorem exec_fenceDoorbell_claimed {p : PortIx} {n v : Nat} {s : State} (rid : BitVec 16) (off : BitVec 12) (k : Nat) (w : BitVec 128)
    (hl : s.linkUp (s.lead p) = true) (hv : s.vcsOf (s.lead p) = some (n, v)) (he : s.cB (K.FENCE_ENABLE n) = true) :
    exec (.fenceDoorbell p rid off k w) s = .next (s.apertureWrite (s.lead p) rid.toNat n off.toNat k w.toNat) := by
  show execFenceDoorbell p rid off k w s = _
  simp [execFenceDoorbell, hl, hv, he]

theorem apertureWrite_rings {s : State} {p rid n off w : Nat} (ho : off % 16 = 0) (ha : bits w 63 0 % 16 = 0) :
    s.apertureWrite p rid n off 16 w = s.ring (s.doorbellAgent p rid n) p rid w [] :=
  if_neg (by simp [ho, ha])

/-- Another size or an unaligned offset: counted, and reported below fatal at the port. -/
theorem apertureWrite_discarded {s : State} {p rid n off k w : Nat} (h : k ≠ 16 ∨ off % 16 ≠ 0) :
    s.apertureWrite p rid n off k w
      = (s.incO K.DOORBELLS_DISCARDED).raiseCore (4 * p + 2) 1 0x21 false { master := p, access := 2 } :=
  (if_pos (by simpa using Or.inl h)).trans (raise_below_fatal _ _ _ _ _ _ (by decide))

/-! ### Capture rings (R190, R366, R368) -/

theorem exec_captureFeedWrite_claimed {p : PortIx} {addr : Word64} {n v : Nat} {e : Nat × Slice} {s : State} (rid : BitVec 16)
    (data : List Byte) (hh : s.hubHeld = false) (hl : s.linkUp (s.lead p) = true) (hv : s.vcsOf (s.lead p) = some (n, v))
    (he : (s.ringsOf n).find? (fun e => inRange e.2.feedRange addr.toNat) = some e) :
    exec (.captureFeedWrite p rid addr data) s
      = .next (s.feedWrite (s.lead p) rid.toNat e.1 addr.toNat (data.map (·.toNat))) := by
  show execCaptureFeedWrite p rid addr data s = _
  simp [execCaptureFeedWrite, hh, hl, hv, he]

theorem exec_ringFlushTimeout_partial {sl : SliceIx} {r : Ring} {s : State} (hr : (s.slice sl).ring = some r) (hu : r.flushUs ≠ 0)
    (hd : r.data ≠ []) (hh : s.hubHeld = false) :
    exec (.ringFlushTimeout sl) s = .next ((s.advance (r.firstAt + r.flushUs * Config.us)).closeBlock sl false false) := by
  show execRingFlushTimeout sl s = _
  simp [execRingFlushTimeout, hr, hu, hd, hh]

/-- The fence's point is marked as come. -/
def State.markPoint (s : State) (id : Nat) (f : Fence) : State :=
  { s with ord := { s.ord with fence := KMap.set none s.ord.fence id (some { f with pointDone := true }) } }

/-- The slice holds a ring of a participant of set k whose open block has bytes from before CT p. -/
def State.cutsAt (s : State) (k p : Nat) (x : Slice) : Bool :=
  match x.ring with
  | some r => (s.participant k r.port || s.participant k (engineMaster x.engine)) && r.marks.any (fun m => decide (m.ct < p))
  | none => false

/-- At the point of a trigger fence the participants' rings that hold bytes from before it close their block with CUT. -/
theorem exec_triggerFencePoint_reached {id p : Nat} {f : Fence} {s w : State} (hf : s.fence? id = some f) (hp : f.point = some p)
    (hk : f.kind = .trigger) (he : f.ended = false) (hd : f.pointDone = false) (hh : s.hubHeld = false)
    (hw : (s.advance (s.psOf p)).markPoint id f = w) :
    exec (.triggerFencePoint id) s
      = .next ((w.mv.slice.filter (fun e => w.cutsAt f.pset p e.2)).foldl (fun x e => x.closeBlock e.1 true false) w) := by
  subst hw
  show execTriggerFencePoint id s = _
  simp only [execTriggerFencePoint, hf, hp]
  exact if_neg (by simp [hk, he, hd, hh])

/-! ### HDM decoders (R241) -/

/-- Decoder ix of host n's VCS holds x. -/
def State.setHdm (s : State) (n ix : Nat) (x : Hdm) : State :=
  { s with fab := { s.fab with hdm := KMap.set {} s.fab.hdm (n * 64 + ix) x } }

/-- One of decoders 0 to 31 would meet the fence aperture of the VCS or the feed aperture of a ring. -/
def State.hdmClash (s : State) (n ix : Nat) (set : HdmSettings) : Bool :=
  decide (ix < 32) && (rangesMeet (set.base, set.size) (s.fenceRange n)
    || (s.ringsOf n).any (fun e => rangesMeet (set.base, set.size) e.2.feedRange))

/-- The settings fit, keep the order, are held by their targets and meet no aperture. -/
def State.hdmTakes (s : State) (n ix : Nat) (set : HdmSettings) : Bool :=
  hdmFits set ix && s.commitOrder n ix set.base set.size && s.hdmHolds n ix set && !s.hdmClash n ix set

/-- A decoder that is not locked takes such settings; others leave Error Not Committed. -/
theorem exec_hdmDecoderCommit_unlocked {h : HostIx} {ix : Fin 49} {set : HdmSettings} {ok : Bool} {s u : State}
    (hv : s.isVcsUp h = true) (hl : ((s.hdm h ix).committed && (s.hdm h ix).set.lock) = false) (ho : s.hdmTakes h ix set = ok)
    (hu : s.setHdm h ix (if ok then { set := set, committed := true, err := false }
      else { s.hdm h ix with committed := false, err := true }) = u) :
    exec (.hdmDecoderCommit h ix set) s
      = .next (if ix.val < 32 then u.setO (K.DEC_COMMITTED h) (setBit (u.o (K.DEC_COMMITTED h)) ix ok) else u) := by
  subst ho hu
  exact if_neg (by simp [hv, hl])

/-- Settles O16: one lemma above for each command and outcome. The status fixed before the record is written, the errors told by a
fence and which accesses are doorbells are the model's choice (log entry 31). -/
theorem fencesAndRingsServed : Obligations.FencesAndRingsServed := by
  refine ⟨fun id f s hf hk hd => exec_fenceEnd_done hf hk hd, fun id f s hf hw => ?_, fun id d f s hf hd hk he ht hn => ?_,
    fun id d f s hf hd hk ht hn => ?_, fun id d f s hf hd hk he hc => exec_tfenceWaitExpiry_unarmed hf hd hk he hc,
    fun p rid off w n v s hl hv he ho ha => ?_, fun p rid off k w n v s hl hv he hb => ?_,
    fun p rid addr data n v e s hh hl hv he => exec_captureFeedWrite_claimed rid data hh hl hv he,
    fun sl r s hr hu hd hh => exec_ringFlushTimeout_partial hr hu hd hh, ?_,
    ?_⟩
  · have hd : s.fenceDone f = false := Bool.eq_false_iff.2 fun h => hw (fenceDone_iff.1 h).2.1
    exact exec_fenceEnd_not_done hf hd
  · rw [exec_fenceTimeout_runs hf hd hk he ht, if_neg (by simp [hn])]
  · rw [exec_fenceTimeout_runs hf hd hk (fenceDone_iff.1 hn).1 ht, if_pos hn]
  · rw [exec_fenceDoorbell_claimed rid off 16 w hl hv he, apertureWrite_rings ho ha]
  · rw [exec_fenceDoorbell_claimed rid off k w hl hv he, apertureWrite_discarded hb]
  · rintro id p f s u w hf hp hk he hd hh rfl rfl
    exact exec_triggerFencePoint_reached hf hp hk he hd hh rfl
  · rintro h ix set ok clash s u hv hl rfl rfl rfl
    exact exec_hdmDecoderCommit_unlocked hv hl rfl rfl

/-! ### Plain accesses of the service cores (R147, R148, R151, R391) -/

/-- With the hub still up an access goes on. -/
theorem ifUp_running {s : State} (f : State → State) (h : s.hubHeld = false) : s.ifUp f = f s :=
  if_neg (by simp [h])

/-- Operations that read the memory they name. -/
def coreReads : CoreOp → Bool
  | .store _ => false
  | _ => true

section
variable {c : CoreIx} {op : CoreOp} {a : Word64} {n : Fin 9} {s u w : State} (hu : s.settleBar c = u)
include hu

/-- A late load gets its value, whatever the core waits for. -/
theorem exec_coreMemoryAccess_perform : exec (.coreMemoryAccess c .perform a n) s = .next (u.performLoad c) := by
  subst hu
  rfl

section
variable (hp : op ≠ .perform) (hn : n.val ≠ 0) (hr : u.coreRuns c = true)
include hp hn hr

/-- An access of a core that may run, which its region unit lets pass. -/
theorem exec_coreMemoryAccess_passed (hc : u.coreCheck c (coreNeeds op) a.toNat n = none) (hw : u.coreEcc c a.toNat (coreReads op) = w)
    (hh : w.hubHeld = false) : exec (.coreMemoryAccess c op a n) s = .next (w.corePerform c op a.toNat n) := by
  subst hu hw
  show execCoreMemoryAccess c op a n s = _
  simp only [execCoreMemoryAccess, hp, hr, hc, beq_eq_false_iff_ne.2 hn, Bool.not_true, Bool.or_false, Bool.false_eq_true, if_false]
  exact congrArg _ (ifUp_running _ hh)

/-- An access that the region unit refuses is an exception of the core. -/
theorem exec_coreMemoryAccess_refused {g : GFault} (hc : u.coreCheck c (coreNeeds op) a.toNat n = some g) :
    exec (.coreMemoryAccess c op a n) s = .next (u.coreFault c (coreNeeds op) a.toNat g) := by
  subst hu
  show execCoreMemoryAccess c op a n s = _
  simp [execCoreMemoryAccess, hp, hn, hr, hc]

end
end

section
variable {c : CoreIx} {a n x : Nat} {s : State} (hx : coreSpace a = .sram x)
include hx

theorem corePerform_sram_load :
    s.corePerform c .load a n = (s.performOverlap c a n).setRd c (Memory.read ((s.performOverlap c a n).coreSram c) a n) := by
  simp only [State.corePerform, hx]

/-- A core with fewer than 16 loads outstanding may get the value later. -/
theorem corePerform_sram_loadLate (hl : (s.coreAt c).loads < 16) :
    s.corePerform c .loadLate a n
      = (s.performOverlap c a n).updCore c (fun x => { x with loads := x.loads + 1, late := x.late ++ [(a, n)] }) := by
  simp only [State.corePerform, hx]
  exact if_neg (Nat.not_le.2 hl)

theorem corePerform_sram_store (v : Word64) :
    s.corePerform c (.store v) a n = (s.performOverlap c a n).coreStore c a n v.toNat false := by
  simp only [State.corePerform, hx]

end

theorem corePerform_window_load {c : CoreIx} {a i o : Nat} (n : Nat) {s : State} (hx : coreSpace a = .window i o) :
    s.corePerform c .load a n = s.fabricLoad c a n 0 := by
  simp only [State.corePerform, hx]

/-- The first late load reads what the SRAM and the core's own buffered stores hold. -/
theorem performLoad_first {s : State} {c a n : Nat} {l : List (Nat × Nat)} (h : (s.coreAt c).late = (a, n) :: l) :
    s.performLoad c
      = s.updCore c (fun x => { x with late := l, loads := x.loads - 1, rd := Memory.read (s.coreSram c) a n }) := by
  simp only [State.performLoad, h]

/-! ### The store buffer (R147, R148) -/

/-- A store to the SRAM is performed at one moment, and the other cores lose their reservations on its granules. -/
theorem performStore_sram {s u : State} {c : Nat} {b : BufStore} (hb : b.fabric = false)
    (hu : s.updCore c (fun x => { x with buf := x.buf.filter (·.id ≠ b.id) }) = u) :
    s.performStore c b
      = (({ u with ord := { u.ord with sram := Memory.write u.ord.sram b.addr b.bytes b.data } } : State).dropCluster
          (b.addr / 64) c).dropCluster ((b.addr + b.bytes - 1) / 64) c := by
  subst hu
  exact if_neg (by simp [hb])

/-- A buffered store leaves when no older one overlaps it. -/
theorem exec_storeBufferRelease_free {c : CoreIx} {ix : Fin 32} {b : BufStore} {s : State} (hb : (s.coreAt c).buf[ix.val]? = some b)
    (hh : s.hubHeld = false) (ho : ((s.coreAt c).buf.take ix.val).any (·.hits b.addr b.bytes) = false) :
    exec (.storeBufferRelease c ix) s = .next (s.performStore c b) := by
  show execStoreBufferRelease c ix s = _
  simp only [execStoreBufferRelease, hb, hh, ho, Bool.or_false, Bool.false_eq_true, if_false]

/-! ### LDRES and STCOND (R151, R154, R155, R157) -/

section
variable {c : CoreIx} {a : Word64} {s u w : State} (hu : s.settleBar c = u) (hr : u.coreRuns c = true)
include hu hr

theorem exec_ldres_misaligned (ha : a.toNat % 8 ≠ 0) : exec (.ldres c a true) s = .next (u.coreException c causeAlign) := by
  subst hu
  show execLdres c a true s = _
  simp [execLdres, hr, ha]

theorem exec_stcond_misaligned (v : Word64) (ha : a.toNat % 8 ≠ 0) :
    exec (.stcond c a true v) s = .next (u.coreException c causeAlign) := by
  subst hu
  show execStcond c a true v s = _
  simp [execStcond, hr, ha]

theorem exec_ldres_passed (ha : a.toNat % 8 = 0) (hc : u.coreCheck c { read := true } a.toNat 8 = none)
    (hw : u.coreEcc c a.toNat true = w) (hh : w.hubHeld = false) :
    exec (.ldres c a true) s = .next (w.loadReserve c a.toNat 8) := by
  subst hu hw
  show execLdres c a true s = _
  simp [execLdres, ifUp_running, hr, ha, hc, hh]

theorem exec_stcond_passed (v : Word64) (ha : a.toNat % 8 = 0) (hc : u.coreCheck c { read := true, write := true } a.toNat 8 = none)
    (hw : u.coreEcc c a.toNat false = w) (hh : w.hubHeld = false) :
    exec (.stcond c a true v) s = .next (w.storeCond c a.toNat 8 v.toNat) := by
  have hv : v.toNat % 2 ^ (8 * 8) = v.toNat := Nat.mod_eq_of_lt v.isLt
  subst hu hw
  show execStcond c a true v s = _
  simp only [execStcond, ifUp_running _ hh, if_true, hr, ha, hc, hv, Bool.not_true, Bool.false_eq_true, if_false, ne_eq, not_true_eq_false]

end

section
variable {c : CoreIx} {a x : Nat} {s : State} (n v : Nat) (hx : coreSpace a = .sram x)
include hx

theorem storeCond_sram_held (hg : s.holdsGranule c a = true) : s.storeCond c a n v = (s.clearResv c).condSram c a n v := by
  simp only [State.storeCond, hx, hg, if_true]

theorem storeCond_sram_lost (hg : s.holdsGranule c a = false) : s.storeCond c a n v = (s.clearResv c).setRd c 1 := by
  simp only [State.storeCond, hx, hg, Bool.false_eq_true, if_false]

end

/-! ### Barriers (R149, R150) -/

section
variable {c : CoreIx} {s u w : State} (hu : s.settleBar c = u)
include hu

/-- A barrier of the core or the cluster. -/
theorem startBar_local {k : Nat} (hr : u.coreRuns c = true) (hk : k ≠ 3) :
    s.startBar c k = ((u.performLoads c).updCore c (fun x => { x with bar := k })).settleBar c := by
  subst hu
  simp [State.startBar, hr, hk]

/-- A system barrier is a fabric fence of the core over its own fabric writes. -/
theorem startBar_system (hr : u.coreRuns c = true) (hw : (u.performLoads c).updCore c (fun x => { x with bar := 3 }) = w) :
    s.startBar c 3
      = ({ w with ord := { w.ord with
            nextFence := w.ord.nextFence + 1
            fence := KMap.set none w.ord.fence w.ord.nextFence (some {
              kind := .barSys, agent := agentCore c, deadline := some (w.now + w.c K.FENCE_TIMEOUT * Config.us)
              waits := w.txnsWhere (fun t => t.write && t.agent == agentCore c && t.purpose = .core) }) } } : State).settleBar c := by
  subst hu hw
  exact if_neg (by simp [hr])

/-- A system barrier whose time has run out ends, and the core's block reports it below fatal. -/
theorem exec_barSysTimeout_waiting {e : Nat × Fence} (he : u.barFence c = some e)
    (hw : (u.advance (e.2.deadline.getD u.now)).endBar c = w) :
    exec (.barSysTimeout c) s
      = .next ((w.updCore c (fun x => { x with barTimeout := true, barAt := w.now })).raiseCore (568 + c.val) 1 3 false
          { master := 0x70 + c.val }) := by
  subst hu hw
  show execBarSysTimeout c s = _
  simp only [execBarSysTimeout, he]
  rw [raise_below_fatal _ _ _ _ _ _ (by decide)]

end

/-! ### Exceptions (R156, R160) -/

theorem exec_coreException_taken (c : CoreIx) {s : State} (hh : s.hubHeld = false) :
    exec (.coreException c) s = .next (s.coreException c 0) :=
  congrArg _ (if_neg (by simp [hh]))

@[simp] theorem clearResv_at_coreAt_same (s : State) (c : Nat) :
    (s.clearResv c).coreAt c = { s.coreAt c with resv := none, resPend := none } :=
  updCore_at_coreAt_same s c _

/-- The core as an exception leaves it. -/
theorem coreException_at_coreAt_same (s : State) (c cause : Nat) :
    (s.coreException c cause).coreAt c
      = { (s.performLoads c).coreAt c with resv := none, resPend := none, except := cause, sup := true } := by
  simp [State.coreException]

/-- Settles O17: one lemma above for each command and outcome. Late loads, the routing of an access by its address, STCOND's clearing
of every reservation and the numbers of the causes are the model's choice (log entry 43). -/
theorem serviceCoreAccessesPerformed : Obligations.ServiceCoreAccessesPerformed := by
  refine ⟨?_, ?_, ?_, ?_, ?_, ?_, ?_, ?_, ?_, ?_, ?_, ?_, ?_, ?_, fun c s hh => exec_coreException_taken c hh, fun s c cause => ?_,
    memory_read_write, memory_byte_write_outside⟩
  · intro c a n x s u w hu hn hr hc hx hw hh
    rw [exec_coreMemoryAccess_passed (op := .load) hu.symm (by simp) hn hr hc hw.symm hh, corePerform_sram_load hx]
  · intro c a n x s u w hu hn hr hc hx hw hh hl
    rw [exec_coreMemoryAccess_passed (op := .loadLate) hu.symm (by simp) hn hr hc hw.symm hh, corePerform_sram_loadLate hx hl]
  · intro c a n x k l s u hu hl
    rw [exec_coreMemoryAccess_perform hu.symm, performLoad_first hl]
  · rintro c a n s u w hu hn hr hc ⟨i, o, hx⟩ hw hh
    rw [exec_coreMemoryAccess_passed (op := .load) hu.symm (by simp) hn hr hc hw.symm hh, corePerform_window_load n hx]
  · intro c a v n x s u w hu hn hr hc hx hw hh
    rw [exec_coreMemoryAccess_passed (op := .store v) hu.symm (by simp) hn hr hc hw.symm hh, corePerform_sram_store hx]
  · intro c a n g s u hu hn hr hc
    exact exec_coreMemoryAccess_refused (op := .load) hu.symm (by simp) hn hr hc
  · intro c ix b s u hb hh ho hf hu
    rw [exec_storeBufferRelease_free hb hh ho, performStore_sram hf hu.symm]
  · intro c a v s u hu hr ha
    exact ⟨exec_ldres_misaligned hu.symm hr ha, exec_stcond_misaligned hu.symm hr v ha⟩
  · intro c a s u w hu hr ha hc hw hh
    exact exec_ldres_passed hu.symm hr ha hc hw.symm hh
  · rintro c a v x s u w t hu hr ha hc hx hw hh hg rfl
    rw [exec_stcond_passed hu.symm hr v ha hc hw.symm hh, storeCond_sram_held 8 v.toNat hx hg]
    rfl
  · intro c a v x s u w hu hr ha hc hx hw hh hg
    rw [exec_stcond_passed hu.symm hr v ha hc hw.symm hh, storeCond_sram_lost 8 v.toNat hx hg]
  · intro c s u hu hr
    exact ⟨congrArg _ (startBar_local hu.symm hr (by decide)), congrArg _ (startBar_local hu.symm hr (by decide))⟩
  · intro c s u w hu hr hw
    exact congrArg _ (startBar_system hu.symm hr hw.symm)
  · intro c e s u w hu he hw
    exact exec_barSysTimeout_waiting hu.symm he hw.symm
  · rw [coreException_at_coreAt_same]
    exact ⟨rfl, rfl⟩

end Sys2Proof.Machine
end

section
/-!
PROOFS. The statements of 05_chassis_time_triggers.md: edges of the trigger lines, trigger and time messages, scheduled outputs.
-/
namespace Sys2Proof.Machine

/-! ### Edges of a line (R175) -/

theorem exec_trigEdge (n : LineIx) (l : Bool) (t w : Nat) (s : State) : exec (.trigEdge n l t w) s = .next (s.edge n l t w) := rfl

/-- While the hub is held an edge leaves the line's level only. -/
theorem edge_held {s : State} (n : Nat) (l : Bool) (t w : Nat) (hh : s.hubHeld = true) :
    s.edge n l t w = s.updLine n (fun x => { x with level := l }) :=
  if_pos hh

section
variable {s u : State} {n t w : Nat} (l : Bool) (hh : s.hubHeld = false) (hu : s.advance t = u)
include hh hu

/-- The filter takes both edges of a pulse shorter than its length. -/
theorem edge_short (hw : w < u.c (K.IN_FILTER n) * 1000) : s.edge n l t w = u.addO (K.MERGED_COUNT n) 2 := by
  subst hu
  simp only [State.edge, hh, Bool.false_eq_true, if_false]
  exact if_pos hw

theorem edge_heldOff {h : Nat} (hw : u.c (K.IN_FILTER n) * 1000 ≤ w) (hl : (u.line n).holdEnd = some h) (ht : t < h) :
    s.edge n l t w = u.incO (K.MERGED_COUNT n) := by
  subst hu
  simp only [State.edge, hh, Bool.false_eq_true, if_false, if_neg (Nat.not_lt.2 hw), hl]
  exact if_pos (decide_eq_true ht)

/-- Past the filter and outside a holdoff, a change of level is stamped. -/
theorem edge_stamped (hw : u.c (K.IN_FILTER n) * 1000 ≤ w) (hl : (u.line n).holdEnd = none) (hv : (u.line n).level = !l) :
    s.edge n l t w = u.stampEdge n l t := by
  subst hu
  simp only [State.edge, hh, Bool.false_eq_true, if_false, if_neg (Nat.not_lt.2 hw), hl]
  exact if_neg (by rw [hv]; simp)

end

/-- At its end the holdoff is over, and a level that changed meanwhile is stamped there. -/
theorem exec_holdoffEnd_over {s u : State} {n : LineIx} (l : Bool) {h : Nat} (hl : (s.line n).holdEnd = some h)
    (hh : s.hubHeld = false) (hu : (s.advance h).updLine n (fun x => { x with holdEnd := none }) = u) :
    exec (.holdoffEnd n l) s = .next (if (u.line n).level == l then u else u.stampEdge n l h) := by
  subst hu
  show execHoldoffEnd n l s = _
  simp only [execHoldoffEnd, hl]
  exact if_neg (by simp [hh])

/-! ### Trigger and time messages (R178, R179, R180) -/

theorem bcastRoom_iff {s : State} : s.bcastRoom = true ↔ s.tm.waiting.length < 64 := decide_eq_true_iff

/-- With a place for it, the window's edges go out as one message. -/
theorem buildWindow_sent {s : State} (hw : s.tm.win ≠ []) (hr : s.tm.waiting.length < 64) :
    s.buildWindow
      = ({ s with tm := { s.tm with win := [], msgSeq := (s.tm.msgSeq + 1) % 2 ^ 32 } } : State).broadcast
          { code := 1, payload := triggerPayload s.tm.win s.tm.msgSeq } :=
  (if_neg (by simp [hw])).trans (if_pos (bcastRoom_iff.2 hr))

theorem exec_triggerMessageBuild_open {s : State} (hw : s.tm.win ≠ []) (hh : s.hubHeld = false) :
    exec .triggerMessageBuild s = .next (s.advance (s.tm.winAt + 6 * Config.fclk)).buildWindow :=
  if_neg (by simp [hw, hh])

/-- The machine once the oldest due time message is off the count (log entry 28). -/
def State.takeTimeDue (s : State) : State :=
  { s with tm := { s.tm with timeDue := s.tm.timeDue - 1, timeWas := s.tm.timeWas - 1 } }

section
variable {s : State} (hd : s.tm.timeDue ≠ 0) (hh : s.hubHeld = false) (he : s.cB K.SYNC_ENABLE = false ∨ s.onSyncEdge = true)
include hd hh he

/-- A boundary where a time message may go: the oldest that is due takes a place or is skipped. -/
theorem exec_timeMessageSend_due :
    exec .timeMessageSend s
      = if s.takeTimeDue.bcastRoom then
          .next (({ s.takeTimeDue with tm := { s.takeTimeDue.tm with timeSeq := (s.tm.timeSeq + 1) % 2 ^ 32 } } : State).broadcast
            { code := 2, payload := s.tm.ctBase + s.ctState * 2 ^ 64 + s.tm.timeSeq * 2 ^ 96 })
        else .next (s.takeTimeDue.incO K.TIME_MSG_SKIPPED) :=
  if_neg (by rcases he with he | he <;> simp [hd, hh, he])

theorem exec_timeMessageSend_sent (hr : s.tm.waiting.length < 64) :
    exec .timeMessageSend s
      = .next (({ s.takeTimeDue with tm := { s.takeTimeDue.tm with timeSeq := (s.tm.timeSeq + 1) % 2 ^ 32 } } : State).broadcast
          { code := 2, payload := s.tm.ctBase + s.ctState * 2 ^ 64 + s.tm.timeSeq * 2 ^ 96 }) :=
  (exec_timeMessageSend_due hd hh he).trans (if_pos (bcastRoom_iff.2 hr))

theorem exec_timeMessageSend_skipped (hr : 64 ≤ s.tm.waiting.length) :
    exec .timeMessageSend s = .next (s.takeTimeDue.incO K.TIME_MSG_SKIPPED) :=
  (exec_timeMessageSend_due hd hh he).trans (if_neg (mt bcastRoom_iff.1 (Nat.not_lt.2 hr)))

end

/-! ### Pulses scheduled and cancelled (R181) -/

theorem ownOutAt_input {s : State} {n : Nat} (v : Nat) (hd : s.c (K.LINE_DIR n) = 0) : ownOutAt n v s = (odNo 0x0504, s) :=
  if_pos (by simp [hd])

section
variable {s : State} {n v : Nat} (hd : s.c (K.LINE_DIR n) ≠ 0) (hp : (s.line n).pulses.length < 8)
include hd hp

/-- A pulse too near to now is late. -/
theorem ownOutAt_late (hv : v < s.ct + 2000) : ownOutAt n v s = (odNo 0x0504, s.incO (K.OUT_LATE n)) := by
  rw [ownOutAt, if_neg (by simp [hd, hp])]
  exact if_pos (by simp [hv])

/-- A pulse far enough from now and from the last release is queued behind the others. -/
theorem ownOutAt_queued (hv : s.ct + 2000 ≤ v) (hr : ∀ r, lastRelease (s.line n).pulses = some r → r + 8 ≤ v) :
    ownOutAt n v s = (odOk, s.setPulses n ((s.line n).pulses ++ [{ at_ := v, width := s.c (K.OUT_WIDTH n) }])) := by
  rw [ownOutAt, if_neg (by simp [hd, hp])]
  refine if_neg ?_
  cases hl : lastRelease (s.line n).pulses with
  | none => simpa using hv
  | some r => simpa using ⟨hv, hr r hl⟩

end

section
variable {s u : State} {sess : SessRef} {n : LineIx}

theorem exec_outAt_accepted {v : Word64} (h : s.accepts sess (K.OUT_AT n) 8 v.toNat u) :
    exec (.outAt sess n v) s = .next ((ownOutAt n v.toNat u).2.answerOd sess (ownOutAt n v.toNat u).1) :=
  congrArg _ (odCommand_accepts (ownOutAt n v.toNat) h)

theorem exec_outCancel_accepted {v : Byte} (h : s.accepts sess (K.OUT_CANCEL n) 1 v.toNat u) :
    exec (.outCancel sess n v) s = .next ((u.setPulses n ((u.line n).pulses.filter (·.begun))).answerOd sess odOk) :=
  congrArg _ (odCommand_accepts (ownOutCancel n) h)

end

/-! ### Pulses performed (R182) -/

/-- Time in ps from the release of a pulse until the next pulse, which the line stays released for; a millisecond with none pending. -/
def releaseGap (p : Pulse) : List Pulse → Nat
  | [] => Config.ms
  | q :: _ => (q.at_ - (p.at_ + p.width)) * 1000

section
variable {s u : State} {n : LineIx} {p : Pulse} {ps : List Pulse} (hp : (s.line n).pulses = p :: ps) (hh : s.hubHeld = false)
include hp hh

/-- The first pulse begins, and an output asserts its line for the pulse's width. -/
theorem exec_pulseAssert_begins (hb : p.begun = false)
    (hu : (s.advance (s.psOf p.at_)).setPulses n ({ p with begun := true } :: ps) = u) :
    exec (.pulseAssert n) s = .next (if u.c (K.LINE_DIR n) == 0 then u else u.edge n true u.now (p.width * 1000)) := by
  subst hu
  show execPulseAssert n s = _
  simp only [execPulseAssert, hp, advance_at_line, beginFirst]
  exact if_neg (by simp [hb, hh])

/-- The first pulse ends, and a STAR output releases its line until the next pulse. -/
theorem exec_pulseRelease_ends (hb : p.begun = true) (hu : (s.advance (s.psOf (p.at_ + p.width))).setPulses n ps = u) :
    exec (.pulseRelease n) s
      = .next (if n.val < 16 || u.c (K.LINE_DIR n) == 0 then u
          else u.edge n false u.now (releaseGap p ps)) := by
  have hn : ¬(!p.begun || s.hubHeld) = true := by simp [hb, hh]
  subst hu
  show execPulseRelease n s = _
  cases ps <;> simp only [execPulseRelease, hp, if_neg hn, releaseGap]

end

/-- Settles O13: one lemma above for each command and outcome. The stamped edge of a pulse's own assertion, time messages kept as a count
and the boundary of a sync edge are the model's choice (log entry 28). -/
theorem linesStampedAndPulsesScheduled : Obligations.LinesStampedAndPulsesScheduled := by
  refine ⟨?_, ?_, ?_, ?_, fun n l h s u hl hh hu => exec_holdoffEnd_over l hl hh hu.symm, ?_,
    fun s hd hh he hr => exec_timeMessageSend_sent hd hh he hr, fun s hd hh he hr => exec_timeMessageSend_skipped hd hh he hr,
    ?_, ?_, ?_, fun sess n v s u h => exec_outCancel_accepted h,
    fun n p ps s u hp hb hh hu => exec_pulseAssert_begins hp hh hb hu.symm, ?_, ?_⟩
  · intro n l t w s u hh hu hw
    rw [exec_trigEdge, edge_short l hh hu.symm hw]
  · intro n l t w h s u hh hu hw hl ht
    rw [exec_trigEdge, edge_heldOff l hh hu.symm hw hl ht]
  · intro n l t w s u hh hu hw hl hv
    rw [exec_trigEdge, edge_stamped l hh hu.symm hw hl hv]
  · intro n l t w s hh
    rw [exec_trigEdge, edge_held n l t w hh]
  · rintro s u hw hh rfl hr
    rw [exec_triggerMessageBuild_open hw hh, buildWindow_sent (by simpa using hw) hr]
  · intro sess n v s u h hd hp hv hr
    rw [exec_outAt_accepted h, ownOutAt_queued hd hp hv hr]
    rfl
  · intro sess n v s u h hd hp hv
    rw [exec_outAt_accepted h, ownOutAt_late hd hp hv]
    rfl
  · intro sess n v s u h hd
    rw [exec_outAt_accepted h, ownOutAt_input v.toNat hd]
    rfl
  · intro n p ps s u hp hb hh hu hn
    rw [exec_pulseRelease_ends hp hh hb hu.symm, if_pos (by simp [hn])]
  · intro n p s u hp hb hh hu hn hd
    rw [exec_pulseRelease_ends hp hh hb hu.symm, if_neg (by simp [hn, hd]), releaseGap]

end Sys2Proof.Machine
end

section
/-!
PROOFS. The statements of 07_binding_hotplug.md: a port's partner, its training and the resets of its link.
-/
namespace Sys2Proof.Machine

/-! ### A partner found (R282, R299) -/

/-- A partner on a port that is no member is noted; the port trains where its lanes are not OFF. -/
theorem exec_partnerDetect_found {p : PortIx} {s u : State} (hh : s.tileHeld (tileOf p) = false) (hm : s.isMember p = false)
    (hu : s.updPort p (fun q => { q with partner := true }) = u) :
    exec (.partnerDetect p) s = .next (if (KMap.get {} s.fab.lane (4 * p.val)).power == 0 then u else u.startTraining p) := by
  subst hu
  exact if_neg (by simp [hh, hm])

/-! ### The outcome of a training (R235, R276, R278, R284, R285, R300) -/

section
variable {p : PortIx} {i : LinkInfo} {s : State}

/-- An outcome counts only for a port in training, which may train, while the tile processors run. -/
theorem exec_linkActive_ignored (h : s.inTraining p = false ∨ s.mayTrain p = false ∨ s.tilesRestart = true) :
    exec (.linkActive p i) s = .next s :=
  if_pos (by rcases h with h | h | h <;> simp [h])

variable (ht : s.inTraining p = true) (hm : s.mayTrain p = true) (hr : s.tilesRestart = false)
include ht hm hr

theorem exec_linkActive_misfit (hf : s.linkFits p i = false) : exec (.linkActive p i) s = .next (s.setO (K.LTSSM_STATE p) 0) :=
  (if_neg (by simp [ht, hm, hr])).trans (if_pos (by simp [hf]))

/-- An outcome that fits: `u` has the link's own objects, `w` what its agent told, `x` LINK_UP, `y` the event of a first training. -/
theorem exec_linkActive_fits (hf : s.linkFits p i = true) {u w x y : State}
    (hu : u = ((((((s.setO (K.LINK_WIDTH p) i.width).setO (K.LINK_RATE p) i.rate).setO (K.FLIT_ACTIVE p) i.flit).setO
      (K.PROTOCOL p) i.protocol).setO (K.LTSSM_STATE p) 3).setO (K.TRAIN_TIME p) (i.timeUs % 2 ^ 32)).setTrainedLanes p i)
    (hw : w = (((u.updPort p (fun q => { q with
        up := true, partner := true, eqKept := true, inL1 := false, looped := false
        ide := q.set.ide && decide (i.flit ≠ 0), cxlIde := if i.protocol == 2 then q.set.cxlIde else 0
        trained := u.activeMembers p i.width i.reversed, capGiB := i.capacityGiB, isDcd := i.isDcd, biCredits := i.biCredits })).setO
      (K.AGENT_KIND p) (min i.kind 6)).setO (K.LD_COUNT p) (if i.kind == 2 then 1 else min i.lds 16)).setO
      (K.PORT_SERIAL p) ((i.serial.getD 0) % 2 ^ 64))
    (hx : x = w.setO (K.LINK_UP p) (b2n !(w.needsCxl p i.protocol)))
    (hy : y = if (s.port p).up then x else x.raiseCore (4 * p) 0 1) :
    exec (.linkActive p i) s
      = .next (((y.setDegraded p (y.degradedBits p i + b2n (w.needsCxl p i.protocol) * 8)).settlePort p false).updPortsReady) := by
  have hraise : y = if (s.port p).up then x else x.raise (4 * p) 0 1 := by
    rw [hy, raise_below_fatal _ _ _ _ _ _ (by decide)]
  subst hraise hx hw hu
  exact (if_neg (by simp [ht, hm, hr])).trans (if_neg (by simp [hf]))

end

/-! ### LINK_ENABLE (R272, R287, R291) -/

/-- The machine with the test settings of port p's lanes at their reset values. -/
def State.untestLanes (s : State) (p : Nat) : State :=
  { s with fab := { s.fab with lane := (s.lanesOf p).foldl (fun m l => KMap.upd {} m l Lane.untested) s.fab.lane } }

theorem exec_linkEnable_accepted {s u : State} {sess : SessRef} {p : PortIx} {v : Byte} (h : s.accepts sess (K.LINK_ENABLE p) 1 v.toNat u) :
    exec (.linkEnable sess p v) s = .next ((ownLinkEnable p v.toNat u).2.answerOd sess (ownLinkEnable p v.toNat u).1) :=
  congrArg _ (odCommand_accepts (ownLinkEnable p v.toNat) h)

theorem ownLinkEnable_member {s : State} {p : Nat} (v : Nat) (hm : s.isMember p = true) :
    ownLinkEnable p v s = (odOk, s.setO (K.LINK_ENABLE p) v) :=
  if_pos hm

section
variable {s : State} {p : Nat} (hm : s.isMember p = false)
include hm

theorem ownLinkEnable_disable_refused (hs : s.o (K.PORT_STATE p) = 3 ∨ s.o (K.PORT_STATE p) = 4) :
    ownLinkEnable p 0 s = (odNo 0x0501, s) := by
  simp [ownLinkEnable, hm, hs]

theorem ownLinkEnable_disable (h3 : s.o (K.PORT_STATE p) ≠ 3) (h4 : s.o (K.PORT_STATE p) ≠ 4) :
    ownLinkEnable p 0 s = (odOk, (s.setO (K.LINK_ENABLE p) 0).portDown p .disabled) := by
  simp [ownLinkEnable, hm, h3, h4]

theorem ownLinkEnable_enable (he : s.o (K.LINK_ENABLE p) ≠ 1) :
    ownLinkEnable p 1 s = (odOk, (((s.untestLanes p).setO (K.LINK_ENABLE p) 1).setO (K.LTSSM_STATE p) 0).startTraining p) := by
  simp [ownLinkEnable, hm, he, State.untestLanes]

theorem ownLinkEnable_enabled (he : s.o (K.LINK_ENABLE p) = 1) : ownLinkEnable p 1 s = (odOk, s) := by
  simp [ownLinkEnable, hm, he]

end

/-! ### LINK_RETRAIN and the start of a training (R282, R284, R525) -/

theorem exec_linkRetrain_accepted {s u : State} {sess : SessRef} {p : PortIx} {v : Byte}
    (h : s.accepts sess (K.LINK_RETRAIN p) 1 v.toNat u) :
    exec (.linkRetrain sess p v) s = .next ((ownLinkRetrain p u).2.answerOd sess (ownLinkRetrain p u).1) :=
  congrArg _ (odCommand_accepts (ownLinkRetrain p) h)

section
variable {s : State} {p : Nat}

theorem ownLinkRetrain_member (hm : s.isMember p = true) : ownLinkRetrain p s = (odOk, s) := if_pos hm

theorem ownLinkRetrain_waits (hm : s.isMember p = false) (hr : s.tilesRestart = true) :
    ownLinkRetrain p s = (odOk, { s with fab := { s.fab with waitRetrain := insertNat p s.fab.waitRetrain } }) := by
  simp [ownLinkRetrain, hm, hr]

theorem ownLinkRetrain_begins (hm : s.isMember p = false) (hr : s.tilesRestart = false) :
    ownLinkRetrain p s = (odOk, (s.updPort p (fun q => { q with eqKept := false })).retrain p) := by
  simp [ownLinkRetrain, hm, hr]

theorem startTraining_barred (h : s.mayTrain p = false ∨ s.linkUp p = true) : s.startTraining p = s :=
  if_neg (by rcases h with h | h <;> simp [h])

variable (hm : s.mayTrain p = true) (hl : s.linkUp p = false)
include hm hl

theorem startTraining_begins (hr : s.tilesRestart = false) :
    s.startTraining p
      = (((s.setO (K.LTSSM_STATE p) 1).setLanes (s.lanesOf p) 3).beginTraining p).updPort p (fun q => { q with held := false }) := by
  simp [State.startTraining, hm, hl, hr]

theorem startTraining_waits (hr : s.tilesRestart = true) :
    s.startTraining p = { s with fab := { s.fab with waitTrain := insertNat p s.fab.waitTrain } } := by
  simp [State.startTraining, hm, hl, hr]

end

/-! ### Resets of a link (R264, R282, R550) -/

section
variable {p : PortIx} {s : State}

theorem exec_partnerHotReset_up (hh : s.tileHeld (tileOf p) = false) (hu : (s.port p).up = true) :
    exec (.partnerHotReset p) s = .next (((s.portDown p .reset).setO (K.LTSSM_STATE p) 9).startTraining p) :=
  congrArg _ (if_neg (by simp [hh, hu]))

theorem exec_cxlHotReset_up (hh : s.tileHeld (tileOf p) = false) (hu : (s.port p).up = true) :
    exec (.cxlHotReset p none) s = .next (s.linkReset p) :=
  congrArg _ (if_neg (by simp [hh, hu]))

/-- A tile that is held, or a link that is down, has nothing to reset. -/
theorem exec_hotReset_ignored (h : s.tileHeld (tileOf p) = true ∨ (s.port p).up = false) :
    exec (.partnerHotReset p) s = .next s ∧ exec (.cxlHotReset p none) s = .next s := by
  have hskip : (s.tileHeld (tileOf p) || !(s.port p).up) = true := by simpa using h
  exact ⟨congrArg _ (if_pos hskip), congrArg _ (if_pos hskip)⟩

variable {h : HostIx} {v : Fin 49} (hv : s.isVcsUp h = true)
include hv

theorem exec_cxlHotReset_own_ld (h32 : 32 ≤ v.val) :
    exec (.cxlHotReset p (some (h, v))) s = .next { s with fab := { s.fab with hdm := KMap.set {} s.fab.hdm (h.val * 64 + v.val) {} } } :=
  (if_neg (by simp [hv])).trans (if_pos h32)

/-- A reset of a vPPB reaches what is bound there: an LD by a message, anything else by the reset of its link where that is up. -/
theorem exec_cxlHotReset_bound (h32 : v.val < 32) {kind q ld : Nat} (hb : s.binding h v = some (kind, q, ld)) :
    exec (.cxlHotReset p (some (h, v))) s
      = if kind == 2 then .next (s.emit .card q [4, h.val, v.val, ld])
        else .next (if (s.port q).up then (s.emit .card q [3, h.val, v.val]).linkReset q else s) := by
  show execCxlHotReset p (some (h, v)) s = _
  simp only [execCxlHotReset, hv, Bool.not_true, Bool.false_eq_true, if_false, if_neg (Nat.not_le.2 h32), hb]

end

/-- Settles O23: one lemma above for each command and outcome. That a partner's hot reset acts as a port reset, and that a host's
port obeys the serial rule too, are the model's choice (log entry 44). -/
theorem linksTrainedResetAndPowerManaged : Obligations.LinksTrainedResetAndPowerManaged := by
  refine ⟨fun p s u hh hm hu => exec_partnerDetect_found hh hm hu.symm, fun p i s ht hm hr hf => exec_linkActive_misfit ht hm hr hf,
    fun p i s ht hm hr hf u w x y hu hw hx hy => exec_linkActive_fits ht hm hr hf hu hw hx hy, fun p i s h => exec_linkActive_ignored h,
    ?_, ?_, ?_, ?_, ?_, fun s p => rfl, ?_, fun s p h => startTraining_barred h, ?_, fun p s h => exec_hotReset_ignored h,
    fun p h v s hv h32 => exec_cxlHotReset_own_ld hv h32, ?_⟩
  · intro sess p v s u h hm hv
    rw [exec_linkEnable_accepted h, hv]
    refine ⟨fun hs => ?_, fun h3 h4 => ?_⟩
    · rw [ownLinkEnable_disable_refused hm hs]
      rfl
    · rw [ownLinkEnable_disable hm h3 h4]
      rfl
  · intro sess p v s u h hm hv
    rw [exec_linkEnable_accepted h, hv]
    refine ⟨fun he => ?_, fun he => ?_⟩
    · rw [ownLinkEnable_enable hm he]
      rfl
    · rw [ownLinkEnable_enabled hm he]
      rfl
  · intro sess p v s u h hm
    rw [exec_linkEnable_accepted h, ownLinkEnable_member v.toNat hm]
    rfl
  · rintro sess p v s u w h hm hr rfl
    rw [exec_linkRetrain_accepted h, ownLinkRetrain_begins hm hr]
    rfl
  · intro sess p v s u h
    rw [exec_linkRetrain_accepted h]
    refine ⟨fun hm => ?_, fun hm hr => ?_⟩
    · rw [ownLinkRetrain_member hm]
      rfl
    · rw [ownLinkRetrain_waits hm hr]
      rfl
  · exact fun s p hm hl => ⟨startTraining_begins hm hl, startTraining_waits hm hl⟩
  · exact fun p s hh hu => ⟨exec_partnerHotReset_up hh hu, exec_cxlHotReset_up hh hu⟩
  · rintro p h v kind q ld s u hv h32 hb rfl
    rw [exec_cxlHotReset_bound hv h32 hb]
    exact ⟨fun hk => if_pos (by simp [hk]), fun hk hu => (if_neg (by simp [hk])).trans (congrArg _ (if_pos hu))⟩

end Sys2Proof.Machine
end

section
/-!
PROOFS. The statements of 07_binding_hotplug.md: claims of ports, power commands of slots, Slot Control, and links that hosts or
surprises take down.
-/
namespace Sys2Proof.Machine

/-! ### Claims (R234, R235) -/

/-- The write is one of ROLE with its present value to a LOST or MISMATCH port: the present device is accepted (R235). -/
def State.acceptsDevice (s : State) (p : Nat) (new : Claim) (role : Bool) : Bool :=
  role && new.role == (s.portClaim p).role && new.role ≠ 0 && (s.o (K.PORT_STATE p) == 5 || s.o (K.PORT_STATE p) == 6)

section
variable {s u : State} {sess key len v p : Nat} {f : Claim → Claim} {role : Bool} (h : s.accepts sess key len v u)
include h

/-- An accepted write of a claim object with no reason against it gives the port its new claim. -/
theorem odCommand_ownClaim_taken (hr : u.claimRefusal p (f (u.portClaim p)) (u.acceptsDevice p (f (u.portClaim p)) role) = 0) :
    s.odCommand sess key len v (ownClaim p f role)
      = (u.setClaim p (f (u.portClaim p)) (u.acceptsDevice p (f (u.portClaim p)) role)).answerOd sess odOk := by
  unfold State.acceptsDevice at hr ⊢
  rw [odCommand_accepts _ h]
  simp only [ownClaim, hr]

/-- A reason against it is answered and kept. -/
theorem odCommand_ownClaim_refused {r : Nat} (hr : u.claimRefusal p (f (u.portClaim p)) (u.acceptsDevice p (f (u.portClaim p)) role) = r)
    (h0 : r ≠ 0) : s.odCommand sess key len v (ownClaim p f role) = (u.setO (K.PORT_REFUSAL p) r).answerOd sess (odNo 0x0501 r) := by
  obtain ⟨n, rfl⟩ := Nat.exists_eq_succ_of_ne_zero h0
  unfold State.acceptsDevice at hr
  rw [odCommand_accepts _ h]
  simp only [ownClaim, hr]

end

/-! ### Power commands of a host (R257, R259, R260, R261) -/

theorem exec_powerController_up {s : State} (h : HostIx) (v : Fin 49) (hv : s.isVcsUp h = true) :
    exec (.powerControllerOn h v) s = .next (s.powerWrite h v false) ∧ exec (.powerControllerOff h v) s = .next (s.powerWrite h v true) :=
  ⟨congrArg _ (if_pos hv), congrArg _ (if_pos hv)⟩

section
variable {s : State} {h v k p ld : Nat} (hb : s.binding h v = some (k, p, ld)) (hs : s.o (K.SLOT p) < 24)
  (ho : s.ownerOf p = some (h, v)) (off : Bool)
include hb hs ho

/-- A power command of the owner acts while its slot is idle and the island serves the slot. -/
theorem powerWrite_idle (hi : s.powerBusy (s.o (K.SLOT p)) = false) (hk : s.hkServes = true) :
    s.powerWrite h v off = s.powerCommand h v p (s.o (K.SLOT p)) off := by
  simp [State.powerWrite, hb, ho, Nat.not_le.2 hs, hi, hk]

/-- Behind a command in progress it waits. -/
theorem powerWrite_busy (hi : s.powerBusy (s.o (K.SLOT p)) = true) :
    s.powerWrite h v off = s.updVppb h v (fun b => { b with cmdWait := some off }) := by
  simp [State.powerWrite, hb, ho, Nat.not_le.2 hs, hi]

end

/-! ### Slot Control (R258, R259, R260) -/

/-- Slot Control of vPPB v of VCS n holds c, whose indicators port p shows. -/
def State.keepSlotControl (s : State) (n v p c : Nat) : State :=
  (s.updVppb n v (fun b => { b with ctl := c, ind := bits c 9 6 })).setO (K.INDICATORS p) (bits c 9 6)

section
variable {s u : State} {h : HostIx} {v : Fin 49} {c : BitVec 16} {k p ld : Nat} (hv : s.isVcsUp h = true)
  (hb : s.binding h v = some (k, p, ld)) (hs : s.o (K.SLOT p) < 24) (hu : s.keepSlotControl h v p c.toNat = u)
include hv hb hs hu

/-- A write of Slot Control keeps the indicators; the owner's is a power command where it changes Power Controller Control, or
repeats on to a slot that stayed off. -/
theorem exec_slotControlWrite_bound :
    exec (.slotControlWrite h v c) s
      = .next (if (bit c.toNat 10 ≠ (s.vppb h v).cmdWait.getD (s.vppb h v).pwrOff
            || !bit c.toNat 10 && !u.slotPowered (s.o (K.SLOT p)) && !u.powerBusy (s.o (K.SLOT p))) && u.ownerOf p == some (h.val, v.val)
          then u.powerWrite h v (bit c.toNat 10) else u.vppbStatus h v [4]) := by
  subst hu
  refine congrArg _ ((if_pos hv).trans ?_)
  simp only [State.slotControl, hb]
  exact if_neg (Nat.not_le.2 hs)

theorem exec_slotControlWrite_completed
    (hc : (bit c.toNat 10 = (s.vppb h v).cmdWait.getD (s.vppb h v).pwrOff ∧ bit c.toNat 10 = true)
      ∨ u.ownerOf p ≠ some (h.val, v.val)) :
    exec (.slotControlWrite h v c) s = .next (u.vppbStatus h v [4]) := by
  rw [exec_slotControlWrite_bound hv hb hs hu]
  refine congrArg _ (if_neg ?_)
  rcases hc with ⟨heq, hoff⟩ | ho
  · simp [← heq, hoff]
  · simp [ho]

theorem exec_slotControlWrite_power (hc : bit c.toNat 10 ≠ (s.vppb h v).cmdWait.getD (s.vppb h v).pwrOff)
    (ho : u.ownerOf p = some (h.val, v.val)) :
    exec (.slotControlWrite h v c) s = .next (u.powerWrite h v (bit c.toNat 10)) := by
  rw [exec_slotControlWrite_bound hv hb hs hu]
  exact congrArg _ (if_pos (by simp [hc, ho]))

end

/-! ### PERST at its due time (R260, R261) -/

section
variable {s u : State} {n : SlotIx} {t : Nat}

section
variable (hp : (s.slot n).perstAt = some t) (ho : (s.slot n).state = .on)
  (hu : (s.advance t).updSlot n (fun x => { x with perst := false, perstAt := none }) = u)
include hp ho hu

/-- PERST of a slot that no port names is released. -/
theorem exec_perstRelease_unnamed (hn : u.slotPort n = none) : exec (.perstRelease n) s = .next (u.powerNext n) := by
  subst hu
  show execPerstRelease n s = _
  simp only [execPerstRelease, hp, ho, ne_eq, not_true_eq_false, if_false, hn]

/-- The port that names the slot trains. -/
theorem exec_perstRelease_trains {p : Nat} (hn : u.slotPort n = some p) (hh : u.tileHeld (tileOf p) = false) :
    exec (.perstRelease n) s = .next ((u.startTraining p).powerNext n) := by
  subst hu
  show execPerstRelease n s = _
  simp only [execPerstRelease, hp, ho, ne_eq, not_true_eq_false, if_false, hn, hh, Bool.false_eq_true]

end

theorem exec_slotOffAfterPerst_unowned (hd : (s.slot n).offDueAt = some t) (ho : s.slotOwner n = none) :
    exec (.slotOffAfterPerst n) s = .next ((((s.advance t).updSlot n (fun x => { x with offDueAt := none })).slotOff n 0).powerNext n) := by
  show execSlotOffAfterPerst n s = _
  simp only [execSlotOffAfterPerst, hd, ho]

end

/-! ### Link Disable (R255) -/

/-- vPPB v of VCS n is told to hold its link disabled, and shows it so. -/
def State.hideLink (s : State) (n v : Nat) : State := s.updVppb n v (fun b => { b with linkDis := true, linkView := false })

section
variable {s u : State} {h : HostIx} {v : Fin 49} {k p ld : Nat} (hv : s.isVcsUp h = true) (hb : s.binding h v = some (k, p, ld))
include hv hb

/-- Disabling the only binding of an SLD or end device takes its port down. -/
theorem exec_hostLinkDisable_sole (hk : k ≠ 2) (hl : (s.boundIn p).length = 1) (hu : (s.portDown p .managed).hideLink h v = u) :
    exec (.hostLinkDisable h v true) s = .next (u.unbindReady h v (if u.ownerOf p == some (h.val, v.val) then [0] else [0, 1])) := by
  subst hu
  refine congrArg _ ((if_pos hv).trans ?_)
  simp [State.linkDisable, hb, hk, hl, State.hideLink]

/-- Disabling one binding of several, or an LD's, takes down its own view only. -/
theorem exec_hostLinkDisable_shared (hl : (s.boundIn p).length ≠ 1 ∨ k = 2)
    (hu : ((s.updVppb h v (fun b => { b with linkView := false })).vppbStatus h v [8]).hideLink h v = u) :
    exec (.hostLinkDisable h v true) s = .next (u.unbindReady h v (if u.ownerOf p == some (h.val, v.val) then [0] else [0, 1])) := by
  have hsole : ((s.boundIn p).length == 1 && decide (k ≠ 2)) = false := by
    rcases hl with hl | hl <;> simp [hl]
  subst hu
  refine congrArg _ ((if_pos hv).trans ?_)
  simp only [State.linkDisable, hb, hsole]
  rfl

/-- Clearing it shows a link that is up; a link that is down trains. -/
theorem exec_hostLinkDisable_cleared (hu : s.updVppb h v (fun b => { b with linkDis := false }) = u) (hh : u.tileHeld (tileOf p) = false) :
    exec (.hostLinkDisable h v false) s
      = .next (if u.linkUp p then u.vppbsLinkUp p else (u.setO (K.LTSSM_STATE p) 0).startTraining p) := by
  subst hu
  refine congrArg _ ((if_pos hv).trans ?_)
  simp only [State.linkDisable, hb, hh, Bool.false_eq_true, if_false]

end

/-! ### Links lost by surprise (R262, R267) -/

theorem exec_surpriseLinkLoss_up {s : State} {p : PortIx} (hl : s.linkUp p = true) :
    exec (.surpriseLinkLoss p) s = .next (s.portDown p .surprise).settleRings :=
  congrArg _ (if_pos hl)

/-- A request unanswered to its deadline is an uncorrectable fault of its target's port, which goes down. -/
theorem exec_rspTimeout_unanswered {s : State} {id d : Nat} {t : Txn} (ht : s.txn? id = some t) (hd : t.deadline = some d)
    (hh : s.hubHeld = false) :
    exec (.rspTimeout id) s
      = .next (((s.advance d).raiseCore (4 * t.dest + 2) 2 0x24 false
          { master := t.master, access := if t.write then 2 else 1, addr := some t.addr }).portDown t.dest .surprise) := by
  rw [← raise_below_fatal _ _ _ _ _ _ (by decide)]
  show execRspTimeout id s = _
  simp only [execRspTimeout, ht, hd, hh, Bool.false_eq_true, if_false]

/-- Settles O26: one lemma above for each command and outcome. PERST with the gate and the power command that waits are the model's
choice (log entry 27), the states of a port after a loss too (log entry 44). -/
theorem portsClaimedAndSlotsCommanded : Obligations.PortsClaimedAndSlotsCommanded := by
  refine ⟨?_, fun sess p v s u h hr => congrArg _ (odCommand_ownClaim_taken (role := false) h hr),
    fun sess p v s u h hr => congrArg _ (odCommand_ownClaim_taken (role := false) h hr),
    fun sess p v s u h hr => congrArg _ (odCommand_ownClaim_taken (role := false) h hr),
    fun sess p v s u r h hr h0 => congrArg _ (odCommand_ownClaim_refused (role := false) h hr.symm h0),
    fun h v s hv => exec_powerController_up h v hv, ?_,
    fun s h v k p ld off hb hs ho => ⟨powerWrite_idle hb hs ho off, powerWrite_busy hb hs ho off⟩,
    fun n t s u hp ho hu hn => exec_perstRelease_unnamed hp ho hu.symm hn,
    fun n t p s u hp ho hu hn hh => exec_perstRelease_trains hp ho hu.symm hn hh,
    fun n t s hd ho => exec_slotOffAfterPerst_unowned hd ho,
    fun h v k p ld s u hv hb hk hl hu => exec_hostLinkDisable_sole hv hb hk hl hu.symm,
    fun h v k p ld s u hv hb hl hu => exec_hostLinkDisable_shared hv hb hl hu.symm,
    fun h v k p ld s u hv hb hu hh => exec_hostLinkDisable_cleared hv hb hu.symm hh, fun p s hl => exec_surpriseLinkLoss_up hl,
    fun id d t s ht hd hh => exec_rspTimeout_unanswered ht hd hh⟩
  · rintro sess p v s u new acc h rfl rfl hr
    exact congrArg _ (odCommand_ownClaim_taken (role := true) h hr)
  · intro h v c k p ld s u hv hb hs hu
    exact ⟨exec_slotControlWrite_completed hv hb hs hu.symm, exec_slotControlWrite_power hv hb hs hu.symm⟩

end Sys2Proof.Machine
end

section
/-!
PROOFS. The statements of 07_binding_hotplug.md: bind commands and their publication, extents and dynamic capacity.
-/
namespace Sys2Proof.Machine

/-! ### Bind commands (R252, R253, R254, R255) -/

theorem ownBindCmd_accepted {s : State} {c : Nat} (h : s.bindRefusal c = 0) : ownBindCmd c s = (odOk, s.bindAccept c) := by
  simp only [ownBindCmd, h]

/-- A reason against a bind command is answered, as busy where a command is in progress, and kept. -/
theorem ownBindCmd_refused {s : State} {c : Nat} (h : s.bindRefusal c ≠ 0) :
    ownBindCmd c s
      = (odNo (if s.bindRefusal c == 8 then 0x0502 else 0x0504) (s.bindRefusal c), s.setO K.BIND_RESULT (s.bindRefusal c)) := by
  obtain ⟨n, hn⟩ := Nat.exists_eq_succ_of_ne_zero h
  simp only [ownBindCmd, hn]

/-- The four rows of BIND_CMD are one write of the object. -/
theorem exec_bindCmd_accepted {s u : State} {sess : SessRef} {c : BitVec 64} (h : s.accepts sess K.BIND_CMD 8 c.toNat u) :
    ∀ i ∈ [Instr.bindCmdBind sess c, .unbindWaitLinkDown sess c, .unbindManagedHotRemove sess c, .unbindSurpriseHotRemove sess c],
      exec i s = .next ((ownBindCmd c.toNat u).2.answerOd sess (ownBindCmd c.toNat u).1) := by
  simp only [List.forall_mem_cons]
  have hw := odCommand_accepts (ownBindCmd c.toNat) h
  exact ⟨congrArg _ hw, congrArg _ hw, congrArg _ hw, congrArg _ hw, List.forall_mem_nil _⟩

/-- A bind waits for nothing. -/
theorem bindAccept_bind {s : State} {c : Nat} (h : (bindFields c).op = 0) :
    (s.bindAccept c).fab.bindOp.map (fun o => (o.unbind, o.ready, o.host, o.vppb, o.port, o.ld))
      = some (false, true, (bindFields c).host, (bindFields c).vppb, (bindFields c).port, (bindFields c).ld) := by
  simp [State.bindAccept, h]

/-- An unbind in mode 2 waits for nothing. -/
theorem bindAccept_surprise {s : State} {c : Nat} (h : (bindFields c).op = 1) (hm : (bindFields c).mode = 2) :
    (s.bindAccept c).fab.bindOp.map (fun o => (o.unbind, o.ready, o.mode, o.host, o.vppb))
      = some (true, true, 2, (bindFields c).host, (bindFields c).vppb) := by
  simp [State.bindAccept, h, hm]

section
variable {b : BindOp} {s u : State} (hb : s.fab.bindOp = some b)
include hb

theorem exec_bindingPublish_ready (hh : s.hubHeld = false) (hr : b.ready = true)
    (hu : (if b.unbind then s.publishUnbind b else s.publishBind b) = u) :
    exec .bindingPublish s = .next (({ u with fab := { u.fab with bindOp := none } } : State).setO K.BIND_STATE 2) := by
  subst hu
  show execBindingPublish s = _
  simp only [execBindingPublish, hb]
  exact if_neg (by simp [hh, hr])

theorem exec_bindingPublish_waits (hr : b.ready = false) : exec .bindingPublish s = .next s := by
  show execBindingPublish s = _
  simp only [execBindingPublish, hb]
  exact if_pos (by simp [hr])

/-- An unbind that waits past its deadline is given up; a port that was not UNBINDING keeps its state. -/
theorem exec_unbindTimeout_expired (hx : b.unbind = true) (hr : b.ready = false) (hu : s.advance b.deadline = u)
    (hs : u.o (K.PORT_STATE b.port) ≠ 4) :
    exec .unbindTimeout s
      = .next ((({ u with fab := { u.fab with bindOp := none } } : State).setO K.BIND_STATE 4).setO K.BIND_RESULT 9) := by
  subst hu
  have hkeep : (if (s.advance b.deadline).o (K.PORT_STATE b.port) == 4 then (s.advance b.deadline).setO (K.PORT_STATE b.port) 3
      else s.advance b.deadline) = s.advance b.deadline := if_neg (by simpa using hs)
  show execUnbindTimeout s = _
  simp only [execUnbindTimeout, hb, hkeep]
  exact if_neg (by simp [hx, hr])

end

/-! ### Extent commands (R247, R248, R249) -/

theorem ownExtentCmd_accepted {s : State} {c : Nat} (h : s.extRefusal c = 0) : ownExtentCmd c s = (odOk, s.extAccept c) := by
  simp only [ownExtentCmd, h]

theorem ownExtentCmd_refused {s : State} {c : Nat} (h : s.extRefusal c ≠ 0) :
    ownExtentCmd c s
      = (odNo (if s.extRefusal c == 7 then 0x0502 else 0x0504) (s.extRefusal c), s.setO K.EXTENT_RESULT (s.extRefusal c)) := by
  obtain ⟨n, hn⟩ := Nat.exists_eq_succ_of_ne_zero h
  simp only [ownExtentCmd, hn]

/-- The three rows of EXTENT_CMD are one write of the object. -/
theorem exec_extentCmd_accepted {s u : State} {sess : SessRef} {c : BitVec 128} (h : s.accepts sess K.EXTENT_CMD 16 c.toNat u) :
    ∀ i ∈ [Instr.extentAdd sess c, .extentReleaseByHost sess c, .extentForcedRelease sess c],
      exec i s = .next ((ownExtentCmd c.toNat u).2.answerOd sess (ownExtentCmd c.toNat u).1) := by
  simp only [List.forall_mem_cons]
  have hw := odCommand_accepts (ownExtentCmd c.toNat) h
  exact ⟨congrArg _ hw, congrArg _ hw, congrArg _ hw, List.forall_mem_nil _⟩

/-- An add takes one extent for each GiB of its run. -/
theorem extAccept_add {s : State} {c : Nat} (h : (extFields c).op = 0) :
    (s.extAccept c).fab.extents = s.fab.extents ++ (List.range (extFields c).count).map (fun i =>
      { vcs := (extFields c).host, dpa := (extFields c).dpa + i, target := (extFields c).target, tgtGib := (extFields c).gib + i,
        tag := (extFields c).tag }) := by
  simp [State.extAccept, h]

/-! ### The host's part in an extent command (R248, R249, R383) -/

/-- Tag k belongs to a GiB that the add o fills. -/
def State.tagInFill (s : State) (o : ExtentOp) (k : Nat) : Bool :=
  (s.fab.extents.filter (fun x => x.vcs == o.vcs && o.dpa ≤ x.dpa && x.dpa < o.dpa + o.count && x.state = .filling)).any
    (fun x => k / 2 ^ 33 == x.target && k % 2 ^ 33 / 262144 == x.tgtGib)

/-- The machine with the tags of those GiBs at 0. -/
def State.zeroTags (s : State) (here : Nat → Bool) : State :=
  { s with gd := { s.gd with tag := KMap.keep (fun k => !here k) s.gd.tag, tagLost := KMap.keep (fun k => !here k) s.gd.tagLost } }

/-- What of these blocks was being filled is offered. -/
def State.offerExtents (s : State) (o : ExtentOp) : State :=
  s.mapExtents o.vcs o.dpa o.count (fun x => some (if x.state = .filling then { x with state := .offered } else x))

section
variable {s w : State} {o : ExtentOp} (he : s.fab.extOp = some o)
include he

theorem exec_extentZeroFillDone_offers (hh : s.hubHeld = false) (ha : o.add = true) (hq : o.asked = false)
    (hw : (s.zeroTags (s.tagInFill o)).offerExtents o = w) :
    exec .extentZeroFillDone s
      = .next (({ w with fab := { w.fab with
          extOp := some { o with asked := true, deadline := w.now + w.c K.EXTENT_TIMEOUT * Config.ms } } } : State).emit
            .eventRecord o.vcs [0, o.dpa, o.count, o.tag]) := by
  subst hw
  show execExtentZeroFillDone s = _
  simp only [execExtentZeroFillDone, he]
  exact if_neg (by simp [hh, ha, hq])

/-- At the deadline an add drops what it offered, and a release maps again what was to be released. -/
theorem exec_extentTimeout_expired (hh : s.hubHeld = false) (hq : o.asked = true) (hv : s.isVcsUp o.vcs = true) :
    exec .extentTimeout s
      = .next ((if o.add then (s.advance o.deadline).dropOffered o
          else (s.advance o.deadline).mapExtents o.vcs o.dpa o.count
            (fun x => some (if x.state = .releasing then { x with state := .mapped } else x))).extEnd 4) := by
  show execExtentTimeout s = _
  simp only [execExtentTimeout, he, hv, if_true]
  exact if_neg (by simp [hh, hq])

end

/-! ### The mailbox of a capacity LD (R12, R15, R248, R249) -/

/-- A list of runs is taken whole: the count is its length, and every run has blocks, within the 512 GiB, that all meet the condition. -/
theorem runsOk_iff {n : Nat} {l : List (Nat × Nat)} {f : Nat → Bool} :
    runsOk n l f = true ↔ n = l.length ∧ ∀ r ∈ l, 0 < r.2 ∧ r.1 + r.2 ≤ 512 ∧ ∀ i < r.2, f (r.1 + i) = true := by
  simp [runsOk, and_assoc]

section
variable {h : HostIx} {n : Nat} {runs : List (Nat × Nat)} {s u : State} (hh : s.hubHeld = false) (hv : s.isVcsUp h = true)
include hh hv

/-- A response that names offered blocks only maps them, and the others return. -/
theorem exec_addDynamicCapacityResponse_taken {o : ExtentOp} (he : s.fab.extOp = some o) (ha : o.add = true) (hq : o.asked = true)
    (ho : o.vcs = h.val) (hr : runsOk n runs (s.blockOffered h) = true) :
    exec (.addDynamicCapacityResponse h n runs) s = .next ((((s.mapOffered h runs).dropOffered o).extEnd 2).ldAnswer h 0) := by
  show execAddDynamicCapacityResponse h n runs s = _
  simp [execAddDynamicCapacityResponse, hh, hv, he, ha, hq, ho, hr]

theorem exec_addDynamicCapacityResponse_rejected {o : ExtentOp} (he : s.fab.extOp = some o)
    (hr : runsOk n runs (s.blockOffered h) = false) :
    exec (.addDynamicCapacityResponse h n runs) s = .next (s.ldAnswer h 2) := by
  show execAddDynamicCapacityResponse h n runs s = _
  simp [execAddDynamicCapacityResponse, hh, hv, he, hr]

theorem exec_releaseDynamicCapacity_rejected (hr : runsOk n runs (s.blockMapped h) = false) :
    exec (.releaseDynamicCapacity h n runs) s = .next (s.ldAnswer h 2) := by
  show execReleaseDynamicCapacity h n runs s = _
  simp [execReleaseDynamicCapacity, hh, hv, hr]

theorem exec_releaseDynamicCapacity_taken (hr : runsOk n runs (s.blockMapped h) = true)
    (hu : runs.foldl (fun (s : State) r => s.unmapBlocks h r.1 r.2) s = u) :
    exec (.releaseDynamicCapacity h n runs) s = .next ((u.releaseDone h).ldAnswer h 0) := by
  subst hu
  show execReleaseDynamicCapacity h n runs s = _
  simp [execReleaseDynamicCapacity, hh, hv, hr]

end

/-- No release of VCS n waits for these blocks alone: an add, another host's command, or one with a block still mapped goes on. -/
theorem releaseDone_of_waiting {s : State} {n : Nat} (h : ∀ o, s.fab.extOp = some o →
    o.add = true ∨ o.vcs ≠ n ∨ (List.range o.count).any (fun i => s.blockMapped o.vcs (o.dpa + i)) = true) :
    s.releaseDone n = s := by
  unfold State.releaseDone
  cases he : s.fab.extOp with
  | none => rfl
  | some o =>
    refine if_neg ?_
    rcases h o he with ha | hv | hm
    · simp [ha]
    · simp [hv]
    · rw [hm]
      simp

/-- Settles O27: one lemma above for each command and outcome. The choice among reasons is the model's (log entry 13), and so are the codes
of a capacity LD's mailbox and that a response is refused whole (log entry 33). -/
theorem bindingsPublishedAndExtentsMoved : Obligations.BindingsPublishedAndExtentsMoved := by
  refine ⟨?_, fun s c h => bindAccept_bind h, fun s c h hm => bindAccept_surprise h hm,
    fun b s u hb hh hr hu => exec_bindingPublish_ready hb hh hr hu.symm, fun b s hb hr => exec_bindingPublish_waits hb hr,
    fun b s u hb hx hr hu hs => exec_unbindTimeout_expired hb hx hr hu.symm hs, ?_, fun s c h => extAccept_add h, ?_, ?_, ?_,
    fun n l f => runsOk_iff, fun o s he hh hq hv => exec_extentTimeout_expired he hh hq hv, fun h dpa s => rfl⟩
  · intro sess c s u h i hi
    rw [exec_bindCmd_accepted h i hi]
    refine ⟨fun hr => ?_, fun hr => ?_⟩
    · rw [ownBindCmd_accepted hr]
      rfl
    · rw [ownBindCmd_refused hr]
      rfl
  · intro sess c s u h i hi
    rw [exec_extentCmd_accepted h i hi]
    refine ⟨fun hr => ?_, fun hr => ?_⟩
    · rw [ownExtentCmd_accepted hr]
      rfl
    · rw [ownExtentCmd_refused hr]
      rfl
  · rintro s u w o here he hh ha hq rfl rfl hw
    exact exec_extentZeroFillDone_offers he hh ha hq hw.symm
  · intro h n runs o s he hh ha hq ho hv
    exact ⟨exec_addDynamicCapacityResponse_taken hh hv he ha hq ho, exec_addDynamicCapacityResponse_rejected hh hv he⟩
  · intro h n runs s u hh hv
    refine ⟨exec_releaseDynamicCapacity_rejected hh hv, fun hr hu hw => ?_⟩
    rw [exec_releaseDynamicCapacity_taken hh hv hr hu.symm, releaseDone_of_waiting hw]
    rfl

end Sys2Proof.Machine
end

section
/-!
PROOFS. The mailbox commands of 07_binding_hotplug.md and 14_management.md: those of every host, and those of the fabric manager.
-/
namespace Sys2Proof.Machine

/-! ### Who is answered (R500) -/

theorem onMbox_closed {s : State} {h : Nat} (f : State → State) (hm : s.mboxServes h = false) : s.onMbox h f = s :=
  if_neg (by simp [hm])

/-- On the mailbox of another host a fabric-manager command is unsupported. -/
theorem onFm_elsewhere {s u : State} {h : Nat} (f : State → State) (ht : s.mboxTakes h u) (hf : u.c K.FM_HOST ≠ h) :
    s.onFm h f = u.mbox h rcUnsupported [] :=
  (onMbox_takes _ ht).trans (if_neg (by simp [hf]))

/-- A command that the mailbox takes ends as its meaning does in the machine with the session's idle time restarted. -/
theorem next_onMbox {s u t : State} {h : Nat} {f : State → State} (ht : s.mboxTakes h u) (hf : f u = t) :
    (.next (s.onMbox h f) : Host.Outcome State Fault Refusal) = .next t :=
  congrArg _ ((onMbox_takes f ht).trans hf)

theorem next_onFm {s u t : State} {h : Nat} {f : State → State} (ht : s.fmTakes h u) (hf : f u = t) :
    (.next (s.onFm h f) : Host.Outcome State Fault Refusal) = .next t :=
  congrArg _ ((onFm_takes f ht).trans hf)

/-! ### Commands of every mailbox (R500) -/

section
variable {h : HostIx} {s u : State} (ht : s.mboxTakes h u)
include ht

/-- A limit of 8 to 20 is set; one above the payload size acts as that. -/
theorem exec_setResponseMessageLimit_legal {n : Byte} (hl : 8 ≤ n.toNat) (hu : n.toNat ≤ 20) :
    exec (.setResponseMessageLimit h n) s
      = .next (({ u with mg := { u.mg with respLimit := KMap.set 14 u.mg.respLimit h (min n.toNat 14) } } : State).mbox h 0
          [min n.toNat 14]) :=
  next_onMbox ht (if_neg (by simp [hl, hu]))

theorem exec_setResponseMessageLimit_illegal {n : Byte} (hl : n.toNat < 8) :
    exec (.setResponseMessageLimit h n) s = .next (u.mbox h rcInvalidInput []) :=
  next_onMbox ht (if_pos (by simp [hl]))

/-- A part of the Command Effects Log within it is answered with its bytes. -/
theorem exec_getLog_effects {l : BitVec 128} {o n : Nat} (hl : l.toNat = effectsLog) (h1 : 1 ≤ n)
    (ho : o + n ≤ (u.effectsBytes h).length) (hn : n ≤ 16384) :
    exec (.getLog h l o n) s
      = .next (({ u with freeIx := u.freeIx + (u.mboxCommands h).length } : State).mbox h 0
          ((bytesAt (u.effectsBytes h) o n).map (·.toNat))) := by
  have hbad : ¬ (n == 0 || decide ((u.effectsBytes h).length < o + n) || decide (16384 < n)) = true := by
    simp [ho, hn, Nat.ne_of_gt h1]
  exact next_onMbox ht ((if_neg (not_not.2 hl)).trans (if_neg hbad))

end

/-! ### What the fabric manager asks of switches (R246, R502) -/

section
variable {h n : HostIx} {s u : State} (ht : s.fmTakes h u)
include ht

theorem exec_getHostDcRegionConfiguration_existing (hn : u.vcsExists n = true) :
    exec (.getHostDcRegionConfiguration h n) s = .next (u.mbox h 0 [1, 0, 512 * gibBytes, gibBytes]) :=
  next_onFm ht (if_pos hn)

/-- The extents that host n has mapped, those to be released among them. -/
theorem exec_getDcRegionExtentLists_existing (hn : u.vcsExists n = true) {l : List Extent}
    (hl : u.fab.extents.filter (fun x => x.vcs == n.val && (x.state = .mapped || x.state = .releasing)) = l) :
    exec (.getDcRegionExtentLists h n) s = .next (u.mbox h 0 (l.length :: l.flatMap (fun x => [x.dpa, x.tag]))) := by
  subst hl
  exact next_onFm ht (if_neg (by simp [hn]))

/-- An error is noted and told on a vPPB of a switch that is up. -/
theorem exec_generateAerEvent_up {v : Fin 49} (e : Word32) (hv : v.val < 32) (hn : u.isVcsUp n = true) :
    exec (.generateAerEvent h n v e) s
      = .next (((u.updVppb n v (fun b => { b with aer := Nat.lor b.aer e.toNat })).emit .aer n [v.val, e.toNat]).mbox h 0 []) :=
  next_onFm ht (if_neg (by simp [hv, hn]))

end

/-! ### What the fabric manager asks of ports (R240, R502, R503) -/

/-- What the device passes to a card whose link is up is answered with the card's own answer, a free value. -/
theorem cardAsk_up {s : State} {p : Nat} (h : Nat) (args : List Nat) (hl : s.linkUp p = true) :
    s.cardAsk h p args = ((s.emit .card p args).mbox h rcSuccess [s.freeVal]).freeNext :=
  if_neg (by simp [hl])

section
variable {h : HostIx} {p : PortIx} {s u : State} (ht : s.fmTakes h u)
include ht

theorem exec_getPhysicalPortState_reachable (hd : u.dieUp (tileOf p) = true) :
    exec (.getPhysicalPortState h p) s = .next (u.mbox h 0 (u.portInfo p)) :=
  next_onFm ht (if_neg (by simp [hd]))

theorem exec_getPhysicalPortState_unreachable (hd : u.dieUp (tileOf p) = false) :
    exec (.getPhysicalPortState h p) s = .next (u.mbox h rcBusy []) :=
  next_onFm ht (if_pos (by simp [hd]))

/-- Opcode 2 resets the link of a port with no command in progress on a tile that runs. -/
theorem exec_physicalPortControl_reset {op : Byte} (ho : op.toNat = 2) (hb : u.portBusy p = false) (hh : u.tileHeld (tileOf p) = false) :
    exec (.physicalPortControl h p op) s = .next ((u.linkReset p).settleRings.mbox h 0 []) :=
  next_onFm ht ((if_neg (not_not.2 ho)).trans (if_neg (by simp [hb, hh])))

theorem exec_physicalPortControl_other {op : Byte} (ho : op.toNat ≠ 2) :
    exec (.physicalPortControl h p op) s = .next (u.mbox h rcInvalidInput []) :=
  next_onFm ht (if_pos ho)

/-- A configuration write goes to a memory target whose link is up. -/
theorem exec_sendPpbCxlIoConfigRequest_write (r : BitVec 12) (d : Word32) (hr : u.o (K.ROLE p) = 2) (hl : u.linkUp p = true) :
    exec (.sendPpbCxlIoConfigRequest h p r true d) s
      = .next ((u.emit .card p [6, r.toNat, 1, d.toNat]).mbox h 0 [u.freeVal]).freeNext :=
  next_onFm ht ((if_neg (by simp [hr])).trans (cardAsk_up h _ hl))

/-- A tunnelled command goes to an MLD or a pool target; one that sets an MLD's LDs changes their count. -/
theorem exec_tunnelManagementCommand_target {d : List Byte} {w : State} (hr : u.o (K.ROLE p) = 2)
    (hk : u.o (K.AGENT_KIND p) = 3 ∨ u.o (K.POOL p) = 1) (hw : u.cardAsk h p (7 :: d.map (·.toNat)) = w) :
    exec (.tunnelManagementCommand h p d) s
      = .next (if w.o (K.AGENT_KIND p) == 3 && w.linkUp p && setsLds d then w.ldsSet p else w) := by
  subst hw
  exact next_onFm ht (if_neg (by simpa [hr] using or_iff_not_imp_left.1 hk))

theorem exec_tunnelManagementCommand_other (d : List Byte) (hr : u.o (K.ROLE p) ≠ 2) :
    exec (.tunnelManagementCommand h p d) s = .next (u.mbox h rcInvalidInput []) :=
  next_onFm ht (if_pos (by simp [hr]))

end

/-! ### Bind and extent commands of the fabric manager (R247, R252, R502) -/

/-- A command that role and life cycle permit acts by its object's own rule. -/
theorem fmCommand_permitted {s : State} {h key v : Nat} {r : OdRow} (own : State → OdAns × State) (hr : odRow? key = some r)
    (hw : s.mayWrite (sidMailbox h) r key = true) (hl : s.lcPermits key v = true) :
    s.fmCommand h key v own = (own s).2.mbox h (abortRc (own s).1) [] := by
  simp [State.fmCommand, hr, hw, hl, odOk]

section
variable {h : HostIx} {c : BitVec 64} {r : OdRow} {s u : State} (ht : s.fmTakes h u) (hr : odRow? K.BIND_CMD = some r)
  (hw : u.mayWrite (sidMailbox h) r K.BIND_CMD = true) (hl : u.lcPermits K.BIND_CMD c.toNat = true) (hb : u.bindRefusal c.toNat = 0)
include hr hw hl hb

theorem fmCommand_bind_accepted : u.fmCommand h K.BIND_CMD c.toNat (fmBindCmd c.toNat) = (u.bindAccept c.toNat).mbox h rcSuccess [] := by
  rw [fmCommand_permitted _ hr hw hl, show fmBindCmd c.toNat u = _ from ownBindCmd_accepted hb]
  rfl

include ht

theorem exec_bindVppb_accepted (ho : bits c.toNat 15 14 = 0) : exec (.bindVppb h c) s = .next ((u.bindAccept c.toNat).mbox h 0 []) :=
  next_onFm ht ((if_neg (not_not.2 ho)).trans (fmCommand_bind_accepted hr hw hl hb))

theorem exec_unbindVppb_accepted (ho : bits c.toNat 15 14 = 1) : exec (.unbindVppb h c) s = .next ((u.bindAccept c.toNat).mbox h 0 []) :=
  next_onFm ht ((if_neg (not_not.2 ho)).trans (fmCommand_bind_accepted hr hw hl hb))

end

section
variable {h : HostIx} {c : BitVec 128} {r : OdRow} {s u : State} (ht : s.fmTakes h u) (hr : odRow? K.EXTENT_CMD = some r)
  (hw : u.mayWrite (sidMailbox h) r K.EXTENT_CMD = true) (hl : u.lcPermits K.EXTENT_CMD c.toNat = true) (he : u.extRefusal c.toNat = 0)
include hr hw hl he

theorem fmCommand_extent_accepted :
    u.fmCommand h K.EXTENT_CMD c.toNat (ownExtentCmd c.toNat) = (u.extAccept c.toNat).mbox h rcSuccess [] := by
  rw [fmCommand_permitted _ hr hw hl, ownExtentCmd_accepted he]
  rfl

include ht

theorem exec_initiateDynamicCapacityAdd_accepted (ho : bits c.toNat 7 6 = 0) :
    exec (.initiateDynamicCapacityAdd h c) s = .next ((u.extAccept c.toNat).mbox h 0 []) :=
  next_onFm ht ((if_neg (not_not.2 ho)).trans (fmCommand_extent_accepted hr hw hl he))

theorem exec_initiateDynamicCapacityRelease_accepted (ho : bits c.toNat 7 6 ≠ 0) :
    exec (.initiateDynamicCapacityRelease h c) s = .next ((u.extAccept c.toNat).mbox h 0 []) :=
  next_onFm ht ((if_neg (by simpa using ho)).trans (fmCommand_extent_accepted hr hw hl he))

end

/-- Settles O34: commands with one outcome by `onMbox_takes` and `onFm_takes`, the others by one lemma above for each outcome. The return
codes, the limits of a response, opcode 2 and the free answers are the model's choice (log entry 20), Busy for a tile that cannot be
reached and the checks of a fabric-manager command too (log entry 26). -/
theorem mailboxCommandsAnswered : Obligations.MailboxCommandsAnswered := by
  refine ⟨fun h s u ht => ?_, fun h s u ht => ?_, fun h p s u ht => ?_, fun h c r s u ht hr hw hl hb => ?_,
    fun h c r s u ht hr hw hl he => ?_, fun h s u ht hf => ?_, fun h s hm => ?_, fun h rc out s => rfl⟩
  · exact ⟨congrArg _ (onMbox_takes _ ht), congrArg _ (onMbox_takes _ ht), congrArg _ (onMbox_takes _ ht),
      fun n hl hu => exec_setResponseMessageLimit_legal ht hl hu, fun n hl => exec_setResponseMessageLimit_illegal ht hl,
      fun l o n hl h1 ho hn => exec_getLog_effects ht hl h1 ho hn, fun op => congrArg _ (onMbox_takes _ ht),
      fun d => ⟨congrArg _ (onMbox_takes _ ht), congrArg _ (onMbox_takes _ ht)⟩⟩
  · refine ⟨congrArg _ (onFm_takes _ ht), congrArg _ (onFm_takes _ ht), congrArg _ (onFm_takes _ ht),
      fun n => congrArg _ (onFm_takes _ ht), fun n hn => ⟨exec_getHostDcRegionConfiguration_existing ht hn, fun l hl => ?_⟩,
      fun n v e hv hn => exec_generateAerEvent_up ht e hv hn⟩
    exact exec_getDcRegionExtentLists_existing ht hn hl.symm
  · refine ⟨exec_getPhysicalPortState_reachable ht, exec_getPhysicalPortState_unreachable ht,
      fun op ho hb hh => exec_physicalPortControl_reset ht ho hb hh, fun op ho => exec_physicalPortControl_other ht ho,
      fun r d hr hl => exec_sendPpbCxlIoConfigRequest_write ht r d hr hl, fun d w hr hk hl hw => ?_,
      fun d hr => exec_tunnelManagementCommand_other ht d hr⟩
    rw [exec_tunnelManagementCommand_target ht hr hk ((cardAsk_up h _ hl).trans hw.symm)]
    refine ⟨fun hn => congrArg _ (if_neg ?_), fun ha hd hu => congrArg _ (if_pos (by simp [ha, hd, hu]))⟩
    rcases hn with ha | hd
    · simp [ha]
    · simp [hd]
  · exact ⟨exec_bindVppb_accepted ht hr hw hl hb, exec_unbindVppb_accepted ht hr hw hl hb⟩
  · exact ⟨exec_initiateDynamicCapacityAdd_accepted ht hr hw hl he, exec_initiateDynamicCapacityRelease_accepted ht hr hw hl he⟩
  · exact ⟨congrArg _ (onFm_elsewhere _ ht hf), congrArg _ (onFm_elsewhere _ ht hf)⟩
  · exact ⟨congrArg _ (onMbox_closed _ hm), congrArg _ (onMbox_closed _ hm)⟩

end Sys2Proof.Machine
end

section
/-!
PROOFS. The statements of 08_ports_lanes.md: recovery, loopback and low power of a link, and the margining, tests and eye scans of its
lanes.
-/
namespace Sys2Proof.Machine

/-! ### Recovery (R286) -/

/-- What the cause of an entry to Recovery counts and raises. -/
def State.noteRecovery (s : State) (p : Nat) : RecoveryCause → State
  | .uncorrectableFlit => (s.incO (K.FLITS_UNCORRECTABLE p)).raiseCore (4 * p + 1) 1 0x10
  | .replayTimeout => (s.incO (K.REPLAYS p)).raiseCore (4 * p + 1) 1 0x11
  | .unrequested => s.raiseCore (4 * p + 1) 1 0x12
  | .rateChange _ | .partnerRequest => s

/-- The link is in L0 again. -/
def State.backInL0 (s : State) (p : Nat) : State := (s.setO (K.LTSSM_STATE p) 3).updPort p (fun q => { q with inL1 := false })

/-- A rate change within the settings of the last training gives a link that is back its new rate. -/
def State.takeRate (s : State) (p : Nat) : RecoveryCause → State
  | .rateChange r => if 1 ≤ r && r ≤ (s.port p).set.rate then s.setO (K.LINK_RATE p) r else s
  | .uncorrectableFlit | .replayTimeout | .unrequested | .partnerRequest => s

/-- The effects of an entry, told one cause at a time, are those of `noteRecovery`. -/
theorem noteRecovery_of_causes {u v : State} {p : Nat} {cause : RecoveryCause}
    (hf : cause = .uncorrectableFlit → v = (u.incO (K.FLITS_UNCORRECTABLE p)).raiseCore (4 * p + 1) 1 0x10)
    (ht : cause = .replayTimeout → v = (u.incO (K.REPLAYS p)).raiseCore (4 * p + 1) 1 0x11)
    (hq : cause = .unrequested → v = u.raiseCore (4 * p + 1) 1 0x12)
    (ho : cause ≠ .uncorrectableFlit → cause ≠ .replayTimeout → cause ≠ .unrequested → v = u) : u.noteRecovery p cause = v := by
  cases cause with
  | uncorrectableFlit => exact (hf rfl).symm
  | replayTimeout => exact (ht rfl).symm
  | unrequested => exact (hq rfl).symm
  | rateChange r => exact (ho nofun nofun nofun).symm
  | partnerRequest => exact (ho nofun nofun nofun).symm

theorem takeRate_keeps {s : State} {p : Nat} {cause : RecoveryCause} (hc : ∀ r, cause ≠ .rateChange r) : s.takeRate p cause = s := by
  cases cause with
  | rateChange r => exact absurd rfl (hc r)
  | uncorrectableFlit | replayTimeout | unrequested | partnerRequest => rfl

theorem takeRate_backInL0 {s : State} {p r : Nat} (h1 : 1 ≤ r) (hr : r ≤ (s.port p).set.rate) :
    (s.backInL0 p).takeRate p (.rateChange r) = (s.backInL0 p).setO (K.LINK_RATE p) r :=
  if_pos (by simp [State.backInL0, h1, hr])

section
variable {p : PortIx} {cause : RecoveryCause} {s : State}

/-- Only a link that is up and in L0, L0p or L1 enters Recovery. -/
theorem exec_linkRecovery_ignored (b : Bool) (h : (s.port p).up = false ∨ [3, 5, 6].contains (s.o (K.LTSSM_STATE p)) = false) :
    exec (.linkRecovery p cause b) s = .next s :=
  if_pos (by rcases h with h | h <;> simp only [h, Bool.not_false, Bool.true_or, Bool.or_true])

/-- It notes the cause, and comes back or is lost. -/
theorem exec_linkRecovery_entered (b : Bool) {v : State} (hu : (s.port p).up = true)
    (hl : [3, 5, 6].contains (s.o (K.LTSSM_STATE p)) = true) (hv : (s.enterRecovery p).noteRecovery p cause = v) :
    exec (.linkRecovery p cause b) s
      = .next (if b then (v.backInL0 p).takeRate p cause else if v.linkUp p then v.portDown p .surprise else v.linkDown p 0) := by
  subst hv
  refine (if_neg (by rw [hu, hl]; decide)).trans ?_
  cases cause with
  | uncorrectableFlit | replayTimeout | unrequested =>
    simp only [raise_below_fatal _ _ 1 _ _ _ (by decide)]
    cases b <;> rfl
  | rateChange r => cases b <;> rfl
  | partnerRequest => cases b <;> rfl

end

/-! ### Loopback (R292) -/

section
variable {p : PortIx} {s : State}

theorem exec_loopbackEntry_follows {u : State} (hh : s.tileHeld (tileOf p) = false) (hm : s.isMember p = false)
    (he : s.o (K.LINK_ENABLE p) ≠ 0) (hk : (s.port p).looped = false) (h0 : s.o (K.LTSSM_STATE p) ≠ 0) (h7 : s.o (K.LTSSM_STATE p) ≠ 7)
    (hu : (if s.linkUp p then s.portDown p .surprise else s) = u) :
    exec (.loopbackEntry p) s
      = .next (((u.setO (K.LTSSM_STATE p) 8).updPort p (fun q => { q with looped := true })).raiseCore (4 * p) 0 5) := by
  rw [← raise_below_fatal _ _ _ _ _ _ (by decide)]
  subst hu
  exact if_neg (by simp [hh, hm, he, hk, h0, h7])

theorem exec_loopbackEntry_ignored (h : s.tileHeld (tileOf p) = true ∨ s.o (K.LINK_ENABLE p) = 0 ∨ (s.port p).looped = true) :
    exec (.loopbackEntry p) s = .next s :=
  if_pos (by rcases h with h | h | h <;> simp [h])

theorem exec_loopbackExit_trains (hk : (s.port p).looped = true) :
    exec (.loopbackExit p) s
      = .next (((s.setO (K.LTSSM_STATE p) 0).updPort p (fun q => { q with looped := false })).startTraining p) :=
  congrArg _ (if_neg (by simp [hk]))

theorem exec_loopbackExit_ignored (hk : (s.port p).looped = false) : exec (.loopbackExit p) s = .next s :=
  congrArg _ (if_pos (by simp [hk]))

end

/-! ### L1 (R299) -/

/-- The lanes that carry port p's link take power state st (R298). -/
def State.powerLinkLanes (s : State) (p st : Nat) : State :=
  s.setLanes ((s.lanesOf p).filter (fun l => (KMap.get {} s.fab.lane l).on)) st

section
variable {p : PortIx} {s : State}

theorem exec_l1Entry_stands_by {u : State} (hp : (s.port p).up = true) (hl : s.o (K.LTSSM_STATE p) = 3) (ha : (s.port p).set.l1 = true)
    (hr : s.o (K.ROLE p) ≠ 2) (hu : (s.endEyes p 3).setO (K.LTSSM_STATE p) 6 = u) :
    exec (.l1Entry p) s = .next ((u.powerLinkLanes p 2).updPort p (fun q => { q with inL1 := true })) := by
  subst hu
  exact if_neg (by simp [hp, hl, ha, hr])

theorem exec_l1Entry_ignored (h : (s.port p).up = false ∨ (s.port p).set.l1 = false ∨ s.o (K.ROLE p) = 2) :
    exec (.l1Entry p) s = .next s :=
  if_pos (by rcases h with h | h | h <;> simp [h])

theorem exec_l1Exit_returns {u : State} (hi : (s.port p).inL1 = true) (hu : s.setO (K.LTSSM_STATE p) 3 = u) :
    exec (.l1Exit p) s = .next ((u.powerLinkLanes p 3).updPort p (fun q => { q with inL1 := false })) := by
  subst hu
  exact if_neg (by simp [hi])

theorem exec_l1Exit_ignored (hi : (s.port p).inL1 = false) : exec (.l1Exit p) s = .next s := if_pos (by simp [hi])

end

/-! ### L0p (R279, R299) -/

/-- A scan of lane l ends. -/
def State.endLaneEye (s : State) (status l : Nat) : State :=
  match KMap.get none s.fab.eye (l / 4) with
  | some e => if e.cmd % 4 == l % 4 then s.endEye (l / 4) status else s
  | none => s

/-- The lanes listed carry the link, or leave it. -/
def State.setLanesOn (s : State) (b : Bool) (ls : List Nat) : State :=
  { s with fab := { s.fab with lane := ls.foldl (fun m l => KMap.upd {} m l (fun x => { x with on := b })) s.fab.lane } }

/-- Physical lanes of the first n logical lanes of port p's link. -/
def State.firstLanes (s : State) (p n : Nat) : List Nat := (List.range n).map (fun k => s.laneOf p k (bit (s.o (K.DEGRADED p)) 2))

section
variable {p : PortIx} {w : Nat} {s : State}

/-- The lanes left idle lose their scans and nap; those in use are active. -/
theorem exec_l0pWidthChange_resized {live idle : List Nat} (hp : (s.port p).up = true)
    (hl : [3, 5].contains (s.o (K.LTSSM_STATE p)) = true) (ha : (s.port p).set.l0p = true) (hr : s.o (K.LINK_RATE p) = 6)
    (h2 : 2 ≤ s.o (K.LINK_WIDTH p)) (hw : [1, 2, 4, 8, 16].contains w = true) (hn : w ≤ s.o (K.LINK_WIDTH p))
    (hlive : s.firstLanes p w = live) (hidle : (s.firstLanes p (s.o (K.LINK_WIDTH p))).filter (fun l => !live.contains l) = idle) :
    exec (.l0pWidthChange p w) s
      = .next ((((((idle.foldl (·.endLaneEye 3 ·) s).setLanes idle 1).setLanes live 3).setLanesOn false idle).setLanesOn true live).setO
          (K.LTSSM_STATE p) (if w < s.o (K.LINK_WIDTH p) then 5 else 3)) := by
  subst hidle hlive
  exact if_neg (by simp only [hp, hl, ha, hr, hw, Nat.not_lt.2 h2, Nat.not_lt.2 hn]; decide)

theorem exec_l0pWidthChange_ignored (h : (s.port p).up = false ∨ (s.port p).set.l0p = false ∨ s.o (K.LINK_RATE p) ≠ 6
      ∨ s.o (K.LINK_WIDTH p) < 2 ∨ s.o (K.LINK_WIDTH p) < w) :
    exec (.l0pWidthChange p w) s = .next s :=
  if_pos (by rcases h with h | h | h | h | h <;> simp [h])

end

/-- Settles O24: one lemma above for each command and outcome. That an entry to Loopback is a surprise loss, followed by the state of
Loopback, is the model's choice (log entry 44). -/
theorem linkRecoveryLoopbackAndLowPower : Obligations.LinkRecoveryLoopbackAndLowPower := by
  refine ⟨?_, fun p cause b s h => exec_linkRecovery_ignored b h,
    fun p s u hh hm he hk h0 h7 hu => exec_loopbackEntry_follows hh hm he hk h0 h7 hu.symm, fun p s h => exec_loopbackEntry_ignored h,
    fun p s hk => exec_loopbackExit_trains hk, fun p s hk => exec_loopbackExit_ignored hk,
    fun p s u hp hl ha hr hu => exec_l1Entry_stands_by hp hl ha hr hu.symm, fun p s h => exec_l1Entry_ignored h,
    fun p s u hi hu => exec_l1Exit_returns hi hu.symm, fun p s hi => exec_l1Exit_ignored hi, ?_,
    fun p w s h => exec_l0pWidthChange_ignored h⟩
  · intro p s u v hu hl hent cause hf ht hq ho
    have hent : s.enterRecovery p = u := hent.symm
    have hv : (s.enterRecovery p).noteRecovery p cause = v := by
      rw [hent]
      exact noteRecovery_of_causes hf ht hq ho
    rw [exec_linkRecovery_entered false hu hl hv, exec_linkRecovery_entered true hu hl hv]
    refine ⟨fun hup => congrArg _ (if_pos hup), fun hup => congrArg _ (if_neg (Bool.eq_false_iff.1 hup)),
      fun hc => congrArg _ (takeRate_keeps hc), ?_⟩
    rintro r rfl h1 hr
    obtain rfl : v = u := ho nofun nofun nofun
    exact congrArg _ (takeRate_backInL0 h1 hr)
  · intro p w n live idle s u v hp hl ha hr hn h2 hw hwn hlive hidle hu hv
    subst hn
    -- The model's matches and updates under the names of `endLaneEye` and `setLanesOn`.
    have hu : u = ((idle.foldl (·.endLaneEye 3 ·) s).setLanes idle 1).setLanes live 3 := hu
    have hv : v = (u.setLanesOn false idle).setLanesOn true live := hv
    rw [hv, hu]
    exact exec_l0pWidthChange_resized hp hl ha hr h2 hw hwn hlive.symm hidle.symm

/-! ### Margining (R288, R297) -/

theorem endLaneEye_no_scan {s : State} {l : Nat} (status : Nat) (he : KMap.get none s.fab.eye (l / 4) = none) :
    s.endLaneEye status l = s := by
  simp only [State.endLaneEye, he]

/-- Margining of a live lane at 16 GT/s or more; a scan of the lane gives way. -/
theorem exec_laneMargining_on {l : LaneIx} {s : State} (hp : (s.port (s.lead (l.val / 4))).up = true)
    (hr : 4 ≤ s.o (K.LINK_RATE (s.lead (l.val / 4)))) (ho : (s.lane l).on = true) :
    exec (.laneMargining l true) s = .next ((s.endLaneEye 2 l).updLane l (fun x => { x with margin := true })) :=
  if_neg (by simp [hp, ho, hr])

/-! ### Lane tests (R290) -/

/-- A slip that is asked for moves the position on by one, modulo 64 where the last training's rate is below 64 GT/s. -/
theorem exec_bitslipDone_slipped {l : LaneIx} {s : State} (hb : bit (s.lane l).test 7 = true)
    (hr : (s.port (s.lead (l.val / 4))).set.rate ≠ 6) :
    exec (.bitslipDone l) s
      = .next (s.updLane l (fun x => { x with
          test := (s.lane l).test % 128 + (bits (s.lane l).test 13 8 + 1) % 64 * 256 + (s.lane l).test / 2 ^ 14 * 2 ^ 14 })) := by
  refine (if_neg (by simp [hb])).trans ?_
  rw [if_neg (by simp [hr])]

theorem exec_bitslipDone_ignored {l : LaneIx} {s : State} (hb : bit (s.lane l).test 7 = false) : exec (.bitslipDone l) s = .next s :=
  if_pos (by simp [hb])

/-! ### Eye scans (R294, R295, R296, R525) -/

/-- A scan of command c that starts at the time ct. -/
def Eye.begun (c ct : Nat) : Eye := { cmd := c, total := eyePoints c, ctStart := ct }

/-- Quad q runs scan e, and shows no result. -/
def State.runEye (s : State) (q : Nat) (e : Eye) : State :=
  (({ s with fab := { s.fab with eye := KMap.set none s.fab.eye q (some e) } } : State).setO (K.EYE_STATE q) 1).setO (K.EYE_RESULT q) 0

section
variable {sess : SessRef} {p : PortIx} {c : BitVec 128} {s u : State} (h : s.accepts sess (K.EYE_CMD p) 16 c.toNat u)
include h

theorem exec_eyeCmd_starts {w : State} (hr : u.eyeRefusal p c.toNat = 0)
    (hw : u.setO (K.EYE_RECORD p) (eyeRecord (.begun c.toNat u.ct) 1 (u.o (K.LINK_RATE (u.lead p))) 0) = w) :
    exec (.eyeCmd sess p c) s = .next ((w.runEye p (.begun c.toNat u.ct)).answerOd sess odOk) := by
  subst hw
  refine congrArg _ ((odCommand_accepts _ h).trans ?_)
  simp only [ownEyeCmd, hr]
  rfl

theorem exec_eyeCmd_refused {r : Nat} (hr : u.eyeRefusal p c.toNat = r) (h0 : r ≠ 0) :
    exec (.eyeCmd sess p c) s = .next ((u.setO (K.EYE_RESULT p) r).answerOd sess (odNo 0x0504 r)) := by
  obtain ⟨n, rfl⟩ := Nat.exists_eq_succ_of_ne_zero h0
  refine congrArg _ ((odCommand_accepts _ h).trans ?_)
  simp only [ownEyeCmd, hr]

end

section
variable {p : PortIx} {n : BitVec 32} {s : State}

theorem exec_eyeScanPoint_adds {e e' : Eye} {u : State} (hr : s.tilesRestart = false) (he : KMap.get none s.fab.eye p = some e)
    (he' : { e with pts := (min n.toNat 0xFFFFFF + (if min n.toNat 0xFFFFFF == 0xFFFFFF then 2 ^ 31 else 0)) :: e.pts } = e')
    (hu : { s with fab := { s.fab with eye := KMap.set none s.fab.eye p (some e') } } = u) :
    exec (.eyeScanPoint p n) s
      = .next (if e'.total ≤ e'.pts.length then u.endEye p 0
          else u.setO (K.EYE_RECORD p) (eyeRecord e' 1 (u.o (K.LINK_RATE (u.lead p))) 0)) := by
  subst hu he'
  refine (if_neg (by simp [hr])).trans ?_
  simp only [he]
  exact (apply_ite _ _ _ _).symm

theorem exec_eyeScanPoint_ignored (h : KMap.get none s.fab.eye p = none ∨ s.tilesRestart = true) :
    exec (.eyeScanPoint p n) s = .next s := by
  by_cases hr : s.tilesRestart = true
  · exact if_pos hr
  · refine (if_neg hr).trans ?_
    simp only [h.resolve_right hr]

end

/-- Settles O25: one lemma above for each command and outcome. That a position counts modulo 64 or 32 by the rate of the last training is
the model's choice (log entry 44). -/
theorem laneTestsMarginingAndEyeScans : Obligations.LaneTestsMarginingAndEyeScans := by
  refine ⟨fun l s => rfl, fun l s hp hr ho he => ?_,
    fun via l v s ho => ⟨congrArg _ (csrDo_open _ ho), congrArg _ (csrDo_open _ ho), congrArg _ (csrDo_open _ ho)⟩,
    fun l s hb hr => exec_bitslipDone_slipped hb hr, fun l s hb => exec_bitslipDone_ignored hb,
    fun sess p c s u w h hr hw => exec_eyeCmd_starts h hr hw.symm, fun sess p c s u h h0 => exec_eyeCmd_refused h rfl h0,
    fun p n e e' s u hr he he' hu => exec_eyeScanPoint_adds hr he he'.symm hu.symm, fun p n s h => exec_eyeScanPoint_ignored h⟩
  rw [exec_laneMargining_on hp hr ho, endLaneEye_no_scan 2 he]

end Sys2Proof.Machine
end

section
/-!
PROOFS. The statements of 09_seam_links.md: units of the seams, retrains and strands, timing flits, isolation and diagnostics.
-/
namespace Sys2Proof.Machine

/-! ### Events of strands, and seams over time -/

/-- An event of a strand below fatal only writes its block (R338). -/
theorem strandRaise_below_fatal (s : State) (sm d k code : Nat) {cls : Nat} (h : cls ≠ 3) :
    s.strandRaise sm d k cls code = s.raiseCore (strandBlock sm d k) cls code false { master := 0x84 + sm } :=
  raise_below_fatal _ _ _ _ _ _ h

@[simp] theorem advance_seamLive (s : State) (t sm : Nat) : (s.advance t).seamLive sm = s.seamLive sm := by
  unfold State.advance
  split <;> rfl

/-! ### Units that leave (R309, R310, R311, R315, R316, R330) -/

section
variable {sm : TileIx} {d : Fin 2} {k : Fin 8} {s : State}

/-- A new unit needs a seam outside a retrain, under 1,024 units unacknowledged, room in the reserve and an item that fits. -/
theorem exec_seamUnitLaunch_nothing (hq : (s.sdir sm d).resend = [])
    (h : (s.seam sm).retraining = true ∨ 1024 ≤ (s.sdir sm d).replay.length ∨ 64 ≤ (s.sdir sm d).reserve d
      ∨ fitting 16 256 (s.sdir sm d).ready = []) :
    exec (.seamUnitLaunch sm d k) s = .next s := by
  show execSeamUnitLaunch sm d k s = _
  have hnone : ((s.seam sm).retraining || decide (1024 ≤ (s.sdir sm d).replay.length) || decide (64 ≤ (s.sdir sm d).reserve d)
      || (fitting 16 256 (s.sdir sm d).ready).isEmpty) = true := by
    simpa [or_assoc] using h
  simp only [execSeamUnitLaunch, hq, hnone, if_true, ite_self]

variable (hl : s.seamLive sm = true) (hc : (s.strandOf sm d k).carries = true)
include hl hc

theorem exec_seamUnitLaunch_resends {q : Nat} {rest : List Nat} {u v : State} (hq : (s.sdir sm d).resend = q :: rest)
    (hu : s.updStrand sm d k (fun y => { y with sentAt := s.now }) = u)
    (hv : u.updSdir sm d (fun x => { x with
      resend := rest, replay := x.replay.map (fun w => if w.seq == q then { w with at_ := s.now, strand := k.val } else w),
      lastOn := KMap.set none x.lastOn k (some q) }) = v) :
    exec (.seamUnitLaunch sm d k) s
      = .next (if (s.sdir sm d).replay.any (·.seq == q) then v.incO (K.UNITS_REPLAYED sm) else v) := by
  subst hv hu
  refine (if_neg (by simp [hl, hc])).trans ?_
  simp only [hq]

theorem exec_seamUnitLaunch_new {x : SeamDir} {u w : State} {r : (Nat × Nat) × (Nat × Nat)} (hx : s.sdir sm d = x) (hq : x.resend = [])
    (hr : (s.seam sm).retraining = false) (hn : x.replay.length < 1024) (hv : x.reserve d < 64) (hi : fitting 16 256 x.ready ≠ [])
    (hu : s.updStrand sm d k (fun y => { y with sentAt := s.now }) = u) (hw : u.launchReturns sm d = (r, w)) :
    exec (.seamUnitLaunch sm d k) s
      = .next (w.updSdir sm d (fun y => { y with
          nextSeq := (y.nextSeq + 1) % 4096,
          replay := y.replay
            ++ [{ seq := x.nextSeq, items := fitting 16 256 x.ready, cr0 := r.1, cr1 := r.2, at_ := s.now, strand := k.val }],
          ready := y.ready.drop (fitting 16 256 x.ready).length, lastOn := KMap.set none y.lastOn k (some y.nextSeq) })) := by
  subst hx hu
  refine (if_neg (by simp [hl, hc])).trans ?_
  simp only [hq, hw]
  exact if_neg (by simp [hr, Nat.not_le.2 hn, Nat.not_le.2 hv, hi])

theorem launchControl_carries :
    s.launchControl sm d k = ((s.launchReturns sm d).2).updStrand sm d k (fun y => { y with sentAt := s.now }) :=
  if_neg (by simp [hl, hc])

theorem exec_keepaliveSend_carries (hk : (s.strandOf sm d k).kaHold = false) {u : State}
    (hu : s.advance ((s.strandOf sm d k).sentAt + 256000) = u) :
    exec (.keepaliveSend sm d k) s = .next (((u.launchReturns sm d).2).updStrand sm d k (fun y => { y with sentAt := u.now })) := by
  subst hu
  refine (if_neg (by simp [hk, hc])).trans (congrArg _ (launchControl_carries ?_ ?_))
  · rw [advance_seamLive, hl]
  · rw [advance_at_strandOf, hc]

end

section
variable {sm : TileIx} {d : Fin 2} {q : BitVec 12} {s : State}

theorem exec_seamReplayTimerExpiry_found {v : Sent} (hf : (s.sdir sm d).replay.find? (·.seq == q.toNat) = some v) :
    exec (.seamReplayTimerExpiry sm d q) s
      = .next ((s.advance (v.at_ + 64000)).updSdir sm d (fun x => { x with resend := x.resend ++ [q.toNat] })) := by
  show execSeamReplayTimerExpiry sm d q s = _
  simp only [execSeamReplayTimerExpiry, hf]

theorem exec_seamReplayTimerExpiry_left (hf : (s.sdir sm d).replay.find? (·.seq == q.toNat) = none) :
    exec (.seamReplayTimerExpiry sm d q) s = .next s := by
  show execSeamReplayTimerExpiry sm d q s = _
  simp only [execSeamReplayTimerExpiry, hf]

end

/-! ### Units that arrive (R305, R312, R314, R315, R316, R319, R329, R340) -/

/-- The check of a CHECK unit is kept for its sender, but not in a retrain. -/
def State.keepCheck (s : State) (sm : TileIx) (d : Fin 2) (u : SeamUnit) : State :=
  if (s.seam sm).retraining then s
  else s.updSdir sm (1 - d) (fun x => { x with check := some { empty := u.empty, asOf := u.asOf, retThru := u.retThru } })

/-- What a good unit does after its ACK and NAK, by its type. -/
def State.takeUnit (s : State) (sm : TileIx) (d : Fin 2) (k : Fin 8) (u : SeamUnit) : State :=
  match u.type with
  | .data => (s.itemInverted sm d k u).2.dataUnit sm d k (s.itemInverted sm d k u).1
  | .keepalive => (s.controlUnit sm d k u).prevCheck sm d u.prev
  | .ack => s.controlUnit sm d k u
  | .check => (s.controlUnit sm d k u).keepCheck sm d u
  | .train | .bad => s

section
variable {sm : TileIx} {d : Fin 2} {k : Fin 8} {u : SeamUnit} {s : State}

theorem unitInverted_not_once (hi : (s.strandOf sm d k).injOnce = false) :
    s.unitInverted sm d k = ((s.strandOf sm d k).injAll, s) :=
  if_neg (Bool.eq_false_iff.1 hi)

variable (hl : s.seamLive sm = true) (hc : (s.strandOf sm d k).carries = true)
include hl hc

/-- A unit with a bad UCRC, or inverted by a diagnostic, is counted and raises the failing check. -/
theorem exec_seamUnitReceive_bad_crc {bad : Bool} {w : State} (hi : s.unitInverted sm d k = (bad, w)) (hb : (bad || !u.crcOk) = true) :
    exec (.seamUnitReceive sm d k u) s = .next ((w.incO (K.CRC_ERRORS sm)).strandRaise sm d k 1 1) := by
  refine (if_neg (by simp [hl, hc])).trans ?_
  simp only [hi, hb, if_true]

variable (hi : s.unitInverted sm d k = (false, s)) (hg : u.crcOk = true)
include hi hg

theorem exec_seamUnitReceive_broken_fields (hf : unitWellFormed u = false) :
    exec (.seamUnitReceive sm d k u) s = .next (s.strandRaise sm d k 1 1) := by
  refine (if_neg (by simp [hl, hc])).trans ?_
  simp only [hi]
  exact (if_neg (by simp [hg])).trans (if_pos (by simp [hf]))

theorem exec_seamUnitReceive_good (hf : unitWellFormed u = true) {w : State}
    (hw : (s.updStrand sm d k (fun y => { y with lastAt := s.now })).ackNak sm d u = w) :
    exec (.seamUnitReceive sm d k u) s = .next (w.takeUnit sm d k u) := by
  subst hw
  refine (if_neg (by simp [hl, hc])).trans ?_
  simp only [hi]
  refine (if_neg (by simp [hg])).trans ((if_neg (by simp [hf])).trans ?_)
  unfold State.takeUnit
  cases u.type <;> rfl

end

/-- On a strand that does not carry nothing leaves or arrives. -/
theorem exec_of_not_carrying {sm : TileIx} {d : Fin 2} {k : Fin 8} {s : State} (u : SeamUnit)
    (h : (s.seamLive sm && (s.strandOf sm d k).carries) = false) :
    ∀ c ∈ [Instr.seamUnitLaunch sm d k, .seamAckUnitSend sm d k, .checkSend sm d k, .seamUnitReceive sm d k u], exec c s = .next s := by
  have hskip : (!s.seamLive sm || !(s.strandOf sm d k).carries) = true := by simpa [← Bool.not_and] using h
  simp only [List.forall_mem_cons, List.not_mem_nil, false_imp_iff, implies_true, and_true]
  exact ⟨if_pos hskip, congrArg _ (if_pos hskip), congrArg _ (if_pos hskip), if_pos hskip⟩

/-! ### Credit checks (R319, R320) -/

section
variable {sm : TileIx} {d : Fin 2} {c : CheckInfo} {s : State} (hc : (s.sdir sm d).check = some c)
include hc

/-- A check waits for the end of a retrain and for the delivery of RET_THRU. -/
theorem exec_checkEvaluate_waits
    (h : (s.seam sm).retraining = true ∨ seqDist c.retThru (s.sdir sm (1 - d.val)).nextDel < 2048) :
    exec (.checkEvaluate sm d) s = .next s := by
  show execCheckEvaluate sm d s = _
  simp only [execCheckEvaluate, hc]
  exact if_pos (by simpa using h)

theorem exec_checkEvaluate_evaluates {u v w : State} {pools : List (Nat × Int)} {neg big : Bool}
    (hr : (s.seam sm).retraining = false) (ht : 2048 ≤ seqDist c.retThru (s.sdir sm (1 - d.val)).nextDel)
    (hp : (bitList 74 c.empty).map (fun p => (p, (s.sdir sm d).shortfall d p c.asOf)) = pools)
    (hn : pools.any (fun e => decide (e.2 < 0)) = neg)
    (hb : pools.any (fun e => decide (((allotment d e.1 + 3) / 4 : Nat) ≤ e.2)) = big)
    (hu : s.updSdir sm d (fun x => { x with check := none }) = u)
    (hv : u.setO (if d.val == 0 then K.SHORTFALL_UP sm else K.SHORTFALL_DN sm)
      ((pools.map (fun e => min 100 (e.2.toNat * 100 / max 1 (allotment d e.1)))).foldl max 0) = v)
    (hw : (if neg then v.strandRaise sm d 0 2 9 else v) = w) :
    exec (.checkEvaluate sm d) s = .next (if neg || big then w.askRetrain sm true else w) := by
  subst hw hv hu hb hn hp
  show execCheckEvaluate sm d s = _
  simp only [execCheckEvaluate, hc]
  exact if_neg (by simp [hr, Nat.not_lt.2 ht])

end

/-- Settles O20: one lemma above for each command and outcome. That a unit whose fields break R305 raises the code of a failing check, and
that a diagnostic inverts at the receiver, are the model's choice (log entry 30). -/
theorem seamUnitsLaunchedAndReceived : Obligations.SeamUnitsLaunchedAndReceived := by
  refine ⟨fun sm d k q rest s u v hl hc hq hu hv => exec_seamUnitLaunch_resends hl hc hq hu.symm hv.symm,
    fun sm d k x s u w r hl hc hx hq hr hn hv hi hu hw => exec_seamUnitLaunch_new hl hc hx.symm hq hr hn hv hi hu.symm hw,
    ?_, ?_, fun sm d k s u hl hk hc hu => exec_keepaliveSend_carries hl hc hk hu.symm, fun sm d k s hk => if_pos (by simp [hk]),
    fun sm d q v s hf => exec_seamReplayTimerExpiry_found hf, fun sm d q s hf => exec_seamReplayTimerExpiry_left hf,
    fun s sm d k cls code h => strandRaise_below_fatal s sm d k code h,
    fun sm d k u bad s w hl hc hi hb => exec_seamUnitReceive_bad_crc hl hc hi hb, fun sm d k s hi => unitInverted_not_once hi,
    fun sm d k u s hl hc hi hg hf => exec_seamUnitReceive_broken_fields hl hc hi hg hf, ?_,
    fun sm d k u s h => exec_of_not_carrying u h,
    fun sm d c s u v w pools neg big hc hr ht hp hn hb hu hv hw =>
      exec_checkEvaluate_evaluates hc hr ht hp.symm hn.symm hb.symm hu.symm hv.symm hw.symm,
    fun sm d c s hc h => exec_checkEvaluate_waits hc h⟩
  · rintro sm d k x s rfl hq h
    exact exec_seamUnitLaunch_nothing hq h
  · rintro sm d k s u hl hc rfl
    exact ⟨congrArg _ (launchControl_carries hl hc), congrArg _ (launchControl_carries hl hc)⟩
  · rintro sm d k u s w c hl hc hi hg hf hw rfl
    rw [exec_seamUnitReceive_good hl hc hi hg hf hw.symm]
    refine ⟨fun ht => ?_, fun ht => ?_, fun ht => ?_, fun ht hr => ?_, fun ht hr => ?_, fun ht => ?_⟩ <;>
      simp only [State.takeUnit, ht]
    · rw [State.keepCheck, if_neg (by simp [hr])]
    · rw [State.keepCheck, if_pos hr]

/-! ### Retrains (R320, R323, R324) -/

section
variable {sm : TileIx} {s : State}

theorem retrainMay_iff :
    s.retrainMay sm = true ↔ s.seamLive sm = true ∧ (s.seam sm).retrainDue = true ∧ (s.seam sm).retraining = false
      ∧ s.dirAlive sm 0 = true ∧ s.dirAlive sm 1 = true
      ∧ ((s.seam sm).atOnce = true ∨ s.seamQuiet sm = true ∨ (s.seam sm).dueTick + 16 ≤ s.tm.ticks) := by
  simp [State.retrainMay, and_assoc, or_assoc]

theorem exec_seamRetrainStart_may {u : State} (h : s.retrainMay sm = true)
    (hu : s.updSeam sm (fun x => { x with retrainDue := false, atOnce := false, retraining := true }) = u) :
    exec (.seamRetrainStart sm) s
      = .next ((List.range 2).foldl (fun (s : State) d => (List.range 8).foldl (fun (s : State) k =>
          s.updStrand sm d k (fun y => if y.status == 2 then { y with status := 3 } else y)) s) u) := by
  subst hu
  exact if_neg (by simp [h])

theorem exec_seamRetrainStart_may_not (h : s.retrainMay sm = false) : exec (.seamRetrainStart sm) s = .next s :=
  if_pos (by simp [h])

/-- The seam as the credit exchange leaves it: SEQ restarted, the retraining strands up, their bad wires noted and spared. -/
def State.exchange (s : State) (sm : Nat) (ws : List (Fin 2 × Fin 8 × Fin 66)) : State :=
  (List.range 2).foldl (fun (s : State) d => (List.range 8).foldl (fun (s : State) k =>
    if (s.strandOf sm d k).status == 3 then
      (s.updStrand sm d k (fun y => { y.noteBad ((ws.filter (fun e => e.1.val == d && e.2.1.val == k)).map (fun e => e.2.2.val)) with
        status := 2, lastAt := s.now })).spareStrand sm d k
    else s) (s.updSdir sm d (fun x => x.exchanged d))) s

/-- A fold over the two directions of a seam. -/
theorem foldl_directions (f : State → Nat → State) (s : State) : (List.range 2).foldl f s = f (f s 0) 1 := rfl

section
variable {ws : List (Fin 2 × Fin 8 × Fin 66)}

theorem exec_seamRetrainComplete_waits
    (h : (s.seam sm).retraining = false ∨ (s.sdir sm 0).replay ≠ [] ∨ (s.sdir sm 1).replay ≠ []) :
    exec (.seamRetrainComplete ⟨sm, ws⟩) s = .next s := by
  rcases h with h | h
  · exact if_pos (by simp [h])
  · exact ite_eq_left_iff.2 fun _ => if_pos (by simpa [imp_iff_not_or] using h)

theorem exec_seamRetrainComplete_ends {w : State} (hr : (s.seam sm).retraining = true) (h0 : (s.sdir sm 0).replay = [])
    (h1 : (s.sdir sm 1).replay = []) (hw : (s.exchange sm ws).updSeam sm (fun x => { x with retraining := false, leak := false }) = w) :
    exec (.seamRetrainComplete ⟨sm, ws⟩) s
      = .next (if (s.seam sm).leak
          then (((w.strandRaise sm 0 0 1 7).strandRaise sm 1 0 1 7).incO (K.RETRAINS sm)).incO (K.LEAK_RETRAINS sm)
          else ((w.strandRaise sm 0 0 0 0).strandRaise sm 1 0 0 0).incO (K.RETRAINS sm)) := by
  refine (if_neg (by simp [hr])).trans ((if_neg (by simp [h0, h1])).trans ?_)
  dsimp only
  rw [← State.exchange, hw]
  cases (s.seam sm).leak <;> simp only [foldl_directions, Bool.false_eq_true, if_true, if_false]

end

theorem exec_retrainNow_accepted {u : State} {sess : SessRef} {v : Byte} (h : s.accepts sess (K.RETRAIN_NOW sm) 1 v.toNat u) :
    exec (.retrainNow sess sm v) s = .next ((ownRetrainNow sm u).2.answerOd sess (ownRetrainNow sm u).1) :=
  congrArg Host.Outcome.next (odCommand_accepts (ownRetrainNow sm) h)

end

/-! ### Strands down (R330, R331) -/

section
variable {sm : TileIx} {s : State} (hl : s.seamLive sm = true)
include hl

theorem exec_seamStrandDown_carries {d : Fin 2} {k : Fin 8} {u : State} (hc : (s.strandOf sm d k).carries = true)
    (hu : s.advance ((s.strandOf sm d k).lastAt + 4 * Config.us) = u) :
    exec (.seamStrandDown sm d k) s
      = .next ((((u.updSdir sm d (fun y => { y with
          resend := y.resend ++ ((u.sdir sm d).replay.filter (·.strand == k.val)).map (·.seq) })).strandFalls sm d k).strandRaise
            sm d k 2 3).abandonRetrain sm) := by
  subst hu
  exact if_neg (by simp [hl, hc])

/-- In the down direction the tile's PLL holds over as well. -/
theorem exec_timingStrandDown_up {d : Fin 2} (h2 : (s.strandOf sm d 8).status = 2) :
    exec (.timingStrandDown sm d) s
      = .next (if d.val == 1
          then ((s.strandFalls sm d 8).strandRaise sm d 8 2 4).raiseCore (582 + sm) 1 1 true { master := 0x84 + sm }
          else (s.strandFalls sm d 8).strandRaise sm d 8 2 4) := by
  rw [← raise_below_fatal _ _ 1 _ _ _ (by decide)]
  exact if_neg (by simp [hl, h2])

end

/-! ### Strands retried (R329, R332, R335) -/

theorem updStrand_congr {s : State} {sm d k : Nat} {f g : Strand → Strand} (h : f (s.strandOf sm d k) = g (s.strandOf sm d k)) :
    s.updStrand sm d k f = s.updStrand sm d k g := by
  unfold State.updStrand KMap.upd
  rw [show KMap.get {} s.seams.strand ((sm * 2 + d) * 9 + k) = s.strandOf sm d k from rfl, h]

section
variable {sm : TileIx} {d : Fin 2} {k : Fin 9} {bad : List (Fin 66)} {s : State} (hl : s.seamLive sm = true)
  (h2 : (s.strandOf sm d k).status < 2) (hs : (s.strandOf sm d k).stopped = false)
include hl h2 hs

theorem exec_strandRetry_fails :
    exec (.strandRetry sm d k false bad) s = .next (s.updStrand sm d k (fun y => { y with status := 0 })) :=
  (if_neg (by simp [hl, Nat.not_le.2 h2, hs])).trans (if_pos rfl)

theorem exec_strandRetry_passes (hi : (s.strandOf sm d k).injAll = false) :
    exec (.strandRetry sm d k true bad) s
      = .next (s.strandPasses sm d k (bad.map (·.val)) ((s.strandOf sm d k).status == 1)) :=
  (if_neg (by simp [hl, Nat.not_le.2 h2, hs])).trans (if_neg (by simp [hi]))

end

/-- A data strand that passes with no bad wire, old or new, comes up; if it returns from down, it brings on a retrain at once. -/
theorem strandPasses_without_bad_wires {s u : State} {sm d k : Nat} (first : Bool) (hb : (s.strandOf sm d k).bad = [])
    (ht : (s.strandOf sm d k).retest = false) (hk : k < 8)
    (hu : (s.updStrand sm d k (fun y => { y with status := 2, upAt := s.now, lastAt := s.now, bad := [], retest := false })).strandRaise
      sm d k 0 0 = u) :
    s.strandPasses sm d k [] first
      = if first then (u.spareStrand sm d k).updSeam sm (fun x => { x with trainedAt := (u.spareStrand sm d k).now })
        else (u.spareStrand sm d k).askRetrainNow sm := by
  have hall : (if (s.strandOf sm d k).retest then ([] : List Nat).eraseDups else ((s.strandOf sm d k).noteBad []).bad) = [] := by
    simp [ht, Strand.noteBad, hb]
  subst hu
  unfold State.strandPasses
  simp only [hall]
  refine (if_neg (by simp)).trans ((if_neg (by simp [hk.ne])).trans ?_)
  rw [updStrand_congr (g := fun y => { y with status := 2, upAt := s.now, lastAt := s.now, bad := [], retest := false })
    (by simp only [hall])]
  exact ite_congr rfl (fun _ => rfl) fun _ => if_pos hk

/-! ### The healthy seam (R333) -/

section
variable {sm : TileIx} {s : State}

theorem exec_seamHealthy_set (hl : s.seamLive sm = true) (hh : s.strandsHealthy sm = true) :
    exec (.seamHealthy sm) s = .next ((s.advance (s.lastUnrest sm + Config.ms)).setO (K.HEALTHY sm) 1) :=
  if_neg (by simp [hl, hh])

theorem exec_seamHealthy_not (h : s.seamLive sm = false ∨ s.strandsHealthy sm = false) : exec (.seamHealthy sm) s = .next s :=
  if_pos (by simpa using h)

end

/-- Settles O21: one lemma above for each command and outcome. That one state of a strand serves both ends, and what RETRAIN_NOW and a
quiet boundary are, is the model's choice (log entry 46). -/
theorem seamRetrainsAndStrands : Obligations.SeamRetrainsAndStrands := by
  refine ⟨fun sm s => retrainMay_iff, fun sm s u h hu => exec_seamRetrainStart_may h hu.symm,
    fun sm s h => exec_seamRetrainStart_may_not h, ?_, fun sm ws s h => exec_seamRetrainComplete_waits h, ?_,
    fun sm d k s u hl hc hu => exec_seamStrandDown_carries hl hc hu.symm, fun sm s => rfl,
    fun sm s hl h2 => exec_timingStrandDown_up hl h2, fun sm s hl h2 => exec_timingStrandDown_up hl h2,
    fun sm d k bad s hl h2 hs => ⟨exec_strandRetry_fails hl h2 hs, exec_strandRetry_passes hl h2 hs⟩,
    fun sm d k first s u hb ht hk hu => strandPasses_without_bad_wires first hb ht hk hu.symm,
    fun sm s hl hh => exec_seamHealthy_set hl hh, fun sm s h => exec_seamHealthy_not h⟩
  · intro sm ws s u w hr h0 h1 hu hw
    have hw : (s.exchange sm ws).updSeam sm (fun x => { x with retraining := false, leak := false }) = w := by
      rw [hw, hu]
      rfl
    rw [exec_seamRetrainComplete_ends hr h0 h1 hw]
    exact ⟨fun hk => congrArg _ (if_neg (Bool.eq_false_iff.1 hk)), fun hk => congrArg _ (if_pos hk)⟩
  · intro sess sm v s u h
    exact exec_retrainNow_accepted h

/-! ### Timing flits (R325, R326, R340) -/

/-- Distance of a flit from the next one to deliver, modulo 256. -/
def State.flitDist (s : State) (sm d : Nat) (f : TimingFlit) : Nat := (f.fseq + 256 - (s.timing sm d).nextRx) % 256

/-- A sequenced flit is stored under its number, but where one stands there already. -/
def State.storeFlit (s : State) (sm d : Nat) (f : TimingFlit) : State :=
  s.updTiming sm d (fun x => if (KMap.get none x.store f.fseq).isSome then x
    else { x with store := KMap.set none x.store f.fseq (some f.body) })

/-- What a good sequenced flit does, by its distance: stored and delivered in order, discarded as old, or out of the window. -/
def State.takeSequenced (s : State) (sm : TileIx) (d : Fin 2) (f : TimingFlit) : State :=
  if s.flitDist sm d f < 64 then
    ((s.storeFlit sm d f).deliverFlits sm d ((s.storeFlit sm d f).timing sm d).store.length).updTiming sm d
      (fun x => { x with nakDue := !x.store.isEmpty })
  else if 192 ≤ s.flitDist sm d f then s.incO (K.DUP_DISCARDS sm)
  else s.strandRaise sm d 8 2 2

/-- What a good flit does, by its type. -/
def State.takeFlit (s : State) (sm : TileIx) (d : Fin 2) (f : TimingFlit) : State :=
  match f.body with
  | .tick ct _ => if d.val == 1 then s.updSeam sm (fun x => { x with tileCt := ct.toNat }) else s
  | .credit pairs =>
    s.updTiming sm (1 - d.val) (fun x => { x with
      credit := pairs.foldl (fun m e => if e.1 == 0xFF then m else KMap.set 0 m e.1 e.2) x.credit })
  | .bcast _ | .sys _ => s.takeSequenced sm d f
  | _ => s

section
variable {sm : TileIx} {d : Fin 2} {f : TimingFlit} {s : State}

theorem takeFlit_of_sequenced (h : flitSequenced f.body = true) : s.takeFlit sm d f = s.takeSequenced sm d f := by
  unfold State.takeFlit
  cases hb : f.body with
  | bcast m | sys it => rfl
  | tick ct st | credit pairs | idle | ack | illegal =>
    rw [hb] at h
    exact absurd h Bool.false_ne_true

theorem exec_timingFlitReceive_down (h : s.seamLive sm = false ∨ (s.strandOf sm d 8).status ≠ 2) :
    exec (.timingFlitReceive sm d f) s = .next s :=
  if_pos (by simpa using h)

variable (hl : s.seamLive sm = true) (h2 : (s.strandOf sm d 8).status = 2)
include hl h2

/-- A flit with a bad FCRC, or inverted by a diagnostic, is counted, raises the failing check and asks for a NAK. -/
theorem exec_timingFlitReceive_bad_crc {bad : Bool} {w : State} (hi : s.unitInverted sm d 8 = (bad, w))
    (hb : (bad || !f.crcOk) = true) :
    exec (.timingFlitReceive sm d f) s
      = .next (((w.incO (K.CRC_ERRORS sm)).strandRaise sm d 8 1 1).updTiming sm d (fun x => { x with nakDue := true })) := by
  refine (if_neg (by simp [hl, h2])).trans ?_
  simp only [hi, hb, if_true]

variable (hi : s.unitInverted sm d 8 = (false, s)) (hg : f.crcOk = true)
include hi hg

theorem exec_timingFlitReceive_broken_fields (hf : flitWellFormed f = false) :
    exec (.timingFlitReceive sm d f) s
      = .next ((s.strandRaise sm d 8 1 1).updTiming sm d (fun x => { x with nakDue := x.nakDue || flitSequenced f.body })) := by
  refine (if_neg (by simp [hl, h2])).trans ?_
  simp only [hi]
  exact (if_neg (by simp [hg])).trans (if_pos (by simp [hf]))

theorem exec_timingFlitReceive_good (hf : flitWellFormed f = true) {u : State}
    (hu : s.updStrand sm d 8 (fun y => { y with lastAt := s.now }) = u) :
    exec (.timingFlitReceive sm d f) s = .next (u.takeFlit sm d f) := by
  subst hu
  refine (if_neg (by simp [hl, h2])).trans ?_
  simp only [hi]
  refine (if_neg (by simp [hg])).trans ((if_neg (by simp [hf])).trans ?_)
  unfold State.takeFlit
  cases hb : f.body with
  | tick ct st | credit pairs | idle | ack | illegal => rfl
  | bcast m | sys it =>
    simp only [State.takeSequenced, State.storeFlit, hb, apply_ite Host.Outcome.next]
    rfl

end

/-! ### Tick marks (R327) -/

section
variable {sm : TileIx} {s : State} (hl : s.seamLive sm = true) (h2 : (s.strandOf sm 1 8).status = 2)
include hl h2

theorem exec_tickMark_in_step : exec (.tickMark sm 0) s = .next (s.causeEnds (582 + sm)) :=
  (if_neg (by simp [hl, h2])).trans (if_pos rfl)

theorem exec_tickMark_step {j : Int} (hj : j ≠ 0) :
    exec (.tickMark sm j) s
      = .next (((s.causeEnds (582 + sm)).setO (K.CYCLE_STEP sm) (toSigned 32 j)).strandRaise sm 1 8 2 8) :=
  (if_neg (by simp [hl, h2])).trans (if_neg hj)

end

/-! ### Isolation (R335, R550) -/

theorem exec_isolate_accepted {s u : State} {sess : SessRef} {sm : TileIx} {v : Byte} (h : s.accepts sess (K.ISOLATE sm) 1 v.toNat u) :
    exec (.isolate sess sm v) s = .next ((ownIsolate sm v.toNat u).2.answerOd sess (ownIsolate sm v.toNat u).1) :=
  congrArg Host.Outcome.next (odCommand_accepts (ownIsolate sm v.toNat) h)

section
variable {s w : State} {sm v : Nat} (hw : s.setO (K.ISOLATE sm) v = w)
include hw

theorem ownIsolate_hub_held (hh : w.hubHeld = true) : ownIsolate sm v s = (odOk, w) := by
  subst hw
  exact if_pos hh

variable (hh : w.hubHeld = false)
include hh

theorem ownIsolate_true (hv : v = 1) :
    ownIsolate sm v s = (odOk, if KMap.get false w.st.tileHeld sm then w else w.tileReset sm) := by
  subst hw
  exact (if_neg (Bool.eq_false_iff.1 hh)).trans (if_pos (by simp [hv]))

theorem ownIsolate_false (hv : v = 0) :
    ownIsolate sm v s = (odOk, if KMap.get false w.st.tileHeld sm && w.tileFree sm ≤ w.now then w.tileRelease sm else w) := by
  subst hw
  exact (if_neg (Bool.eq_false_iff.1 hh)).trans (if_neg (by simp [hv]))

end

/-! ### Diagnostics of a seam (R340, R463) -/

section
variable {via : CsrVia} {sm d k : Nat} {s : State} (ho : s.csrOpen via (diagDie sm d) = true)
include ho

theorem diagWrite_acts {sets : Bool} (f : Strand → Strand) (h : s.injOpen = true ∨ sets = false) :
    s.diagWrite via sm d k sets f = (s.updStrand sm d k f).diagMirror sm d k :=
  (csrDo_open _ ho).trans (if_neg (by rcases h with h | h <;> simp [h]))

theorem diagWrite_denied {sets : Bool} (f : Strand → Strand) (hs : sets = true) (hi : s.injOpen = false) :
    s.diagWrite via sm d k sets f = s.injDeny sm d :=
  (csrDo_open _ ho).trans (if_pos (by simp [hs, hi]))

end

/-- Settles O22: one lemma above for each command and outcome. What KA_HOLD does and how the tile's time is kept is the model's choice
(log entry 46), and so is what a flit with broken fields raises (log entry 30). -/
theorem timingStrandsIsolationAndDiagnostics : Obligations.TimingStrandsIsolationAndDiagnostics := by
  refine ⟨?_, fun sm d f s hl h2 hi hg hf => exec_timingFlitReceive_broken_fields hl h2 hi hg hf, ?_,
    fun sm d f s h => exec_timingFlitReceive_down h, fun sm s hl h2 => exec_tickMark_in_step hl h2, ?_, ?_, ?_, ?_, ?_⟩
  · intro sm d f bad s w hl h2 hi hb
    rw [exec_timingFlitReceive_bad_crc hl h2 hi hb, strandRaise_below_fatal _ _ _ _ _ (by decide)]
    rfl
  · intro sm d f s u hl h2 hi hg hf hu
    rw [exec_timingFlitReceive_good hl h2 hi hg hf hu.symm]
    refine ⟨fun ct st hb => ?_, fun pairs hb => ?_, fun hb => ?_, ?_⟩
    · simp only [State.takeFlit, hb]
    · simp only [State.takeFlit, hb]
    · rcases hb with hb | hb <;> simp only [State.takeFlit, hb]
    · rintro dist v w hs rfl rfl rfl
      rw [takeFlit_of_sequenced hs]
      exact ⟨fun h => congrArg _ (if_pos h),
        fun h => congrArg _ ((if_neg (Nat.not_lt.2 (le_trans (by decide) h))).trans (if_pos h)),
        fun h h' => congrArg _ ((if_neg (Nat.not_lt.2 h)).trans (if_neg (Nat.not_le.2 h')))⟩
  · intro sm j s hl h2 hj
    rw [exec_tickMark_step hl h2 hj, strandRaise_below_fatal _ _ _ _ _ (by decide)]
    rfl
  · intro sess sm v s u w h hw
    rw [exec_isolate_accepted h]
    refine ⟨fun hh => ?_, fun hh hv ht => ?_, fun hh hv ht => ?_, fun hh hv ht hf => ?_, fun hh hv ht => ?_⟩
    · rw [ownIsolate_hub_held hw.symm hh]
      rfl
    · rw [ownIsolate_true hw.symm hh hv, ht]
      rfl
    · rw [ownIsolate_true hw.symm hh hv, ht]
      rfl
    · rw [ownIsolate_false hw.symm hh hv, if_pos (by simp [ht, hf])]
      rfl
    · rw [ownIsolate_false hw.symm hh hv, if_neg (by rcases ht with ht | ht <;> simp [ht])]
      rfl
  · intro via sm d k on s ho h
    exact ⟨congrArg _ (diagWrite_acts ho _ h), congrArg _ (diagWrite_acts ho _ h), congrArg _ (diagWrite_acts ho _ h)⟩
  · intro via sm d k w s ho h
    exact congrArg _ (diagWrite_acts ho _ (h.imp_right (by simp [·])))
  · intro via sm d k w s ho hi
    exact ⟨congrArg _ (diagWrite_denied ho _ rfl hi), congrArg _ (diagWrite_denied ho _ rfl hi),
      congrArg _ (diagWrite_denied ho _ rfl hi), fun hw => congrArg _ (diagWrite_denied ho _ (by simpa using hw) hi)⟩

end Sys2Proof.Machine
end

section
/-!
PROOFS. The statements of 10_data_movers.md: slice commands, the progress of descriptors and chunks, doorbell pages, evacuation.
-/
namespace Sys2Proof.Machine

/-! ### Slice commands (R341, R342, R345) -/

theorem ownSliceCmd_accepted {s : State} {v : Nat} {r : List Byte} (h : s.sliceRefusal v r = 0) :
    ownSliceCmd v r s = (odOk, s.sliceAccept v r) := by
  simp only [ownSliceCmd, h]

/-- A reason against a slice command is answered, as busy where a save is in progress, and kept. -/
theorem ownSliceCmd_refused {s : State} {v : Nat} {r : List Byte} (h : s.sliceRefusal v r ≠ 0) :
    ownSliceCmd v r s
      = (odNo (if s.sliceRefusal v r == 10 then 0x0502 else 0x0504) (s.sliceRefusal v r), s.setO K.SLICE_RESULT (s.sliceRefusal v r)) := by
  obtain ⟨n, hn⟩ := Nat.exists_eq_succ_of_ne_zero h
  simp only [ownSliceCmd, hn]

/-- The five rows of SLICE_CMD that carry no record are one write of the object. -/
theorem exec_sliceCmd_accepted {s u : State} {sess : SessRef} {c : BitVec 512} (h : s.accepts sess K.SLICE_CMD 64 c.toNat u) :
    ∀ i ∈ [Instr.sliceCreate sess c, .sliceDestroy sess c, .sliceFreeze sess c, .sliceSave sess c, .sliceThaw sess c],
      exec i s = .next ((ownSliceCmd c.toNat [] u).2.answerOd sess (ownSliceCmd c.toNat [] u).1) := by
  simp only [List.forall_mem_cons]
  have hw := odCommand_accepts (ownSliceCmd c.toNat []) h
  exact ⟨congrArg _ hw, congrArg _ hw, congrArg _ hw, congrArg _ hw, congrArg _ hw, List.forall_mem_nil _⟩

theorem exec_sliceRestore_accepted {s u : State} {sess : SessRef} {c : BitVec 512} (r : List Byte)
    (h : s.accepts sess K.SLICE_CMD 64 c.toNat u) :
    exec (.sliceRestore sess c r) s = .next ((ownSliceCmd c.toNat r u).2.answerOd sess (ownSliceCmd c.toNat r u).1) :=
  congrArg _ (odCommand_accepts (ownSliceCmd c.toNat r) h)

section
variable {s u : State} {v : Nat} (r : List Byte) (hu : ((s.setO K.SLICE_TAG (bits v 95 80)).setO K.SLICE_RESULT 0).setO K.SLICE_STATE 2 = u)
include hu

theorem sliceAccept_create (ho : bits v 7 0 = 1) : s.sliceAccept v r = u.updSlice (bits v 18 8) (fun _ => createSlice v) := by
  simp only [State.sliceAccept, ho, hu]

/-- A slice that is destroyed closes its block, abandons its fences and is free. -/
theorem sliceAccept_destroy (ho : bits v 7 0 = 2) :
    s.sliceAccept v r = ((u.closeBlock (bits v 18 8) false true).abandonFences
      (fun f => f.agent == agentSlice (bits v 18 8))).updSlice (bits v 18 8) (fun _ => {}) := by
  simp only [State.sliceAccept, ho, hu]

theorem sliceAccept_thaw (ho : bits v 7 0 = 6) :
    s.sliceAccept v r = u.updSlice (bits v 18 8) (fun x => { x with state := .active }) := by
  simp only [State.sliceAccept, ho, hu]

end

/-! ### The progress of a slice (R352, R355, R360) -/

section
variable {sl : SliceIx} {s u : State} (hh : s.hubHeld = false) (hu : s.settleSlice sl = u)
include hh hu

/-- A freezing slice with no descriptor active or ending has nothing under way. -/
theorem exec_sliceFrozen_quiet (hs : (u.slice sl).state = .freezing) (ha : (u.slice sl).active = none) (he : (u.slice sl).ending = []) :
    exec (.sliceFrozen sl) s = .next (u.updSlice sl (fun x => { x with state := .frozen, ctFrozen := s.ct })) := by
  subst hu
  show execSliceFrozen sl s = _
  simp only [execSliceFrozen]
  exact if_neg (by simp [hs, ha, he, hh])

theorem exec_descriptorFinish_first {a : ActiveDesc} (hf : firstDone [] (u.slice sl).ending = some a) :
    exec (.descriptorFinish sl) s = .next (u.finishDesc sl a) := by
  subst hu
  show execDescriptorFinish sl s = _
  simp only [execDescriptorFinish, hf]
  exact if_neg (by simp [hh])

/-- The oldest descriptor of the next queue that waits for nothing starts, and the turn passes to the queue after. -/
theorem exec_descriptorStart_next (l : List Byte) {q : Nat} {d : Desc} (hs : (u.slice sl).state = .active)
    (ha : (u.slice sl).active = none) (hr : (u.slice sl).resume = none) (hq : (u.slice sl).nextQueue = some q)
    (hd : (u.slice sl).pend.find? (fun d => d.queue == q) = some d) (hf : bit d.raw 8 = false) (hc : bit d.raw 10 = false) :
    exec (.descriptorStart sl l) s
      = .next (((u.startDesc sl d l 0 0).2.updSlice sl (fun x => { x with
          pend := x.pend.filter (fun e => e.id ≠ d.id), turn := (q + 1) % 4, active := some (u.startDesc sl d l 0 0).1 })).settleSlice sl) := by
  subst hu
  show execDescriptorStart sl l s = _
  simp [execDescriptorStart, hs, ha, hh, hr, hq, hd, hf, hc]

end

/-! ### Chunks (R354, R356, R357) -/

/-- The chosen slice's next chunk is issued where its reads have room and the guard lets it. -/
theorem exec_chunkIssue_chosen {e : EngineIx} {sl deficit : Nat} {a : ActiveDesc} {s u w : State} (hh : s.hubHeld = false)
    (hc : (s.blk (552 + e)).contain = false) (hp : s.pickSlice e = some (sl, deficit)) (ha : (s.slice sl).active = some a)
    (hr : KMap.get 0 s.mv.reads e + s.readsNeeded (s.slice sl) a ≤ 256) (hu : s.noteRun e sl = u) (hf : u.chunkFault sl a = none)
    (hw : u.updSlice sl (fun x => { x with
      deficit := if a.issued + x.nextLen == a.total && x.pend.isEmpty then 0 else deficit - x.nextLen }) = w) :
    exec (.chunkIssue e) s
      = .next ((({ w with mv := { w.mv with rr := KMap.set 0 w.mv.rr e sl } } : State).issueChunk sl a).settleSlice sl) := by
  subst hw hu
  have hopen : ¬(s.hubHeld || (s.blk (552 + e)).contain) = true := by simp [hh, hc]
  show execChunkIssue e s = _
  simp only [execChunkIssue, if_neg hopen, hp, ha, if_neg (Nat.not_lt.2 hr), hf]

theorem exec_chunkReadReturn_mover {id : Nat} {t : Txn} {s : State} (st : MemStatus) (d : List Byte) (ht : s.txn? id = some t)
    (hp : t.purpose = .mover) (hh : s.hubHeld = false) :
    exec (.chunkReadReturn id st d) s = .next (s.hubAnswer id st (leNat d)) := by
  show execChunkReadReturn id st d s = _
  simp only [execChunkReadReturn, ht]
  exact if_neg (by simp [hp, hh])

/-! ### Doorbell pages (R347) -/

/-- A page command at a host's port that is up acts for the VCS of that port. -/
theorem pageCommand_host {s : State} {p : Nat} (f : Nat → Nat → State) (hh : s.hubHeld = false) (hl : s.linkUp (s.lead p) = true)
    (hr : s.o (K.ROLE (s.lead p)) = 1) : s.pageCommand p f = f (s.lead p) (s.o (K.AGENT (s.lead p))) :=
  if_neg (by simp [hh, hl, hr])

/-! ### Evacuation (R363, R364) -/

theorem exec_evacCmd_accepted {s u : State} {sess : SessRef} {c : BitVec 128} (h : s.accepts sess K.EVAC_CMD 16 c.toNat u) :
    exec (.evacCmd sess c) s = .next ((ownEvacCmd c.toNat u).2.answerOd sess (ownEvacCmd c.toNat u).1) :=
  congrArg _ (odCommand_accepts (ownEvacCmd c.toNat) h)

/-- An accepted evacuation of a target without extents is done at once; another starts. -/
theorem ownEvacCmd_accepted {s w : State} {v : Nat} (h : s.evacRefusal v = 0)
    (hw : ((s.setO K.EVAC_RESULT 0).setO K.EVAC_TAG (bits v 47 32)).setO K.EVAC_DONE_EXTENTS 0 = w) :
    ownEvacCmd v s = (odOk, if (s.fab.extents.filter (fun x => x.target == bits v 5 0)).isEmpty then w.setO K.EVAC_STATE 2
      else ({ w with mv := { w.mv with evac := some { src := bits v 5 0, dst := bits v 13 8, engine := bits v 19 16 } } } : State).setO
        K.EVAC_STATE 1) := by
  subst hw
  simp only [ownEvacCmd, h]
  exact (apply_ite (Prod.mk odOk) _ _ _).symm

/-- After the copy of a granule before the last the extent stays, and its mark moves on. -/
theorem moveGranule_before_last (s : State) (e : Evac) {x : Extent} {t g : Nat} (hm : x.moveTo = some (t, g)) (h : x.mark + 1 < 262144) :
    s.moveGranule e x t g
      = (s.copyGranule e (e.src, x.tgtGib * gibBytes + x.mark * 4096) (t, g * gibBytes + x.mark * 4096)).setExtent
          { x with mark := x.mark + 1 } := by
  simp only [State.moveGranule, if_pos h, hm]

/-- After the copy of its last granule the extent stands at the destination. -/
theorem moveGranule_last (s : State) (e : Evac) {x : Extent} (t g : Nat) (h : 262144 ≤ x.mark + 1) :
    s.moveGranule e x t g
      = ((s.copyGranule e (e.src, x.tgtGib * gibBytes + x.mark * 4096) (t, g * gibBytes + x.mark * 4096)).setExtent
          { x with target := t, tgtGib := g, moveTo := none, mark := 0 }).incO K.EVAC_DONE_EXTENTS :=
  if_neg (Nat.not_lt.2 h)

section
variable {e : Evac} {s : State} (he : s.mv.evac = some e) (hh : s.hubHeld = false)
include he hh

theorem exec_evacGranuleMove_ends (hx : s.fab.extents.filter (fun x => x.target == e.src) = []) :
    exec .evacGranuleMove s
      = .next ((({ s with mv := { s.mv with evac := none } } : State).setO K.EVAC_STATE 2).releaseEvac) := by
  show execEvacGranuleMove s = _
  simp [execEvacGranuleMove, he, hh, hx]

/-- A granule that is held already waits for the requests from before its hold, and then moves. -/
theorem exec_evacGranuleMove_held {x : Extent} {t g since : Nat} (hx : s.fab.extents.filter (fun x => x.target == e.src) ≠ [])
    (hp : pickExtent (s.movable e.src) = some x) (hm : x.moveTo = some (t, g))
    (hold : e.hold = some (x.tgtGib * 262144 + x.mark, since)) :
    exec .evacGranuleMove s
      = if (s.extentUsers x).any (fun id => decide (id < since)) then .next { s with mv := { s.mv with evac := some e } }
        else .next ((({ s with mv := { s.mv with evac := some { e with hold := none } } } : State).moveGranule e x t g).releaseEvac) := by
  have hkeep : { e with hold := some (x.tgtGib * 262144 + x.mark, since) } = e := by rw [← hold]
  have hopen : ¬s.hubHeld = true := by simp [hh]
  have hsome : ¬(s.fab.extents.filter (fun x => x.target == e.src)).isEmpty = true := by simpa using hx
  show execEvacGranuleMove s = _
  simp only [execEvacGranuleMove, he, if_neg hopen, if_neg hsome, hp, hm, hold, beq_self_eq_true, if_true, hkeep]

end

/-- Settles O29: one lemma above for each command and outcome. The cutting of chunks, the busy code of reason 0x0A and the hold and copy
of a granule in one command are the model's choice (log entry 39). -/
theorem slicesCommandedAndDescriptorsRun : Obligations.SlicesCommandedAndDescriptorsRun := by
  refine ⟨?_, ?_, ?_, ?_, fun sl s u hh hu hs ha he => exec_sliceFrozen_quiet hh hu.symm hs ha he,
    fun sl a s u hh hu hf => exec_descriptorFinish_first hh hu.symm hf,
    fun sl l q d s u hh hu hs ha hr hq hd hf hc => exec_descriptorStart_next hh hu.symm l hs ha hr hq hd hf hc,
    fun e sl def_ a s u w hh hc hp ha hr hu hf hw => exec_chunkIssue_chosen hh hc hp ha hr hu.symm hf hw.symm,
    fun id st d t s ht hp hh => exec_chunkReadReturn_mover st d ht hp hh, ?_, ?_,
    fun e s he hh hx => exec_evacGranuleMove_ends he hh hx, ?_⟩
  · intro sess c s u h hr i hi
    rw [exec_sliceCmd_accepted h i hi, ownSliceCmd_accepted hr]
    rfl
  · intro sess c r s u h hr
    rw [exec_sliceRestore_accepted r h, ownSliceCmd_accepted hr]
    rfl
  · intro sess c s u h hr
    rw [exec_sliceCmd_accepted h _ List.mem_cons_self, ownSliceCmd_refused hr]
    rfl
  · intro s u v hu
    exact ⟨sliceAccept_create [] hu.symm, sliceAccept_destroy [] hu.symm, sliceAccept_thaw [] hu.symm⟩
  · intro p sl o pa k w v d s hh hl hr
    exact ⟨congrArg _ (pageCommand_host _ hh hl hr), congrArg _ (pageCommand_host _ hh hl hr), congrArg _ (pageCommand_host _ hh hl hr)⟩
  · intro sess c s u w h hr hw
    rw [exec_evacCmd_accepted h, ownEvacCmd_accepted hr hw.symm]
    rfl
  · intro e x t g since s u he hh hx hp hm hold
    have hstep := exec_evacGranuleMove_held he hh hx hp hm hold
    refine ⟨fun hw => hstep.trans (if_pos hw), fun hn hu hk => ?_, fun hn hu hk => ?_⟩
    · rw [hstep, if_neg (by simp [hn]), ← hu, moveGranule_before_last u e hm hk]
    · rw [hstep, if_neg (by simp [hn]), ← hu, moveGranule_last u e t g hk]

end Sys2Proof.Machine
end

section
/-!
PROOFS. The statements of 11_access_guards.md: the regions that govern a byte, the check of an access, publication, sync, slice regions,
colour tags and core regions.
-/
namespace Sys2Proof.Machine

/-! ### The governing region of a byte (R375) -/

/-- A region matches a byte when it is valid and its range holds the byte. -/
theorem rgnMatches_iff {r a : Nat} :
    (bit r 0 && inRange (rgnRange r) a) = true ↔ bit r 0 = true ∧ r / 2 ^ 64 ≤ a ∧ a < r / 2 ^ 64 + 2 ^ bits r 17 12 := by
  simp only [inRange, Bool.and_eq_true, decide_eq_true_eq]
  rfl

theorem governing_eq_some_iff {rs : List Nat} {a k r : Nat} :
    governing rs a = some (k, r) ↔ rs[k]? = some r ∧ (bit r 0 && inRange (rgnRange r) a) = true
      ∧ ∀ j q, j < k → rs[j]? = some q → ¬ (bit q 0 && inRange (rgnRange q) a) = true := by
  have hfind : governing rs a = some (k, r) ↔ rs.zipIdx.find? (fun e => bit e.1 0 && inRange (rgnRange e.1) a) = some (r, k) := by
    simp [governing]
  rw [hfind, List.find?_eq_some_iff_getElem]
  simp only [List.getElem_zipIdx, List.length_zipIdx, Bool.not_eq_true', Bool.not_eq_true]
  constructor
  · rintro ⟨hm, i, hi, he, hb⟩
    obtain ⟨rfl, rfl⟩ : rs[i] = r ∧ i = k := by simpa using he
    refine ⟨List.getElem?_eq_getElem hi, hm, fun j q hj hq => ?_⟩
    obtain ⟨_, rfl⟩ := List.getElem?_eq_some_iff.1 hq
    exact hb j hj
  · rintro ⟨hk, hm, hb⟩
    obtain ⟨hi, rfl⟩ := List.getElem?_eq_some_iff.1 hk
    exact ⟨hm, k, hi, by simp, fun j hj => hb j _ hj (List.getElem?_eq_getElem (hj.trans hi))⟩

theorem governing_eq_none_iff {rs : List Nat} {a : Nat} :
    governing rs a = none ↔ ∀ r ∈ rs, ¬ (bit r 0 && inRange (rgnRange r) a) = true := by
  simp only [governing, Option.map_eq_none_iff, List.find?_eq_none]
  constructor
  · intro h r hr
    obtain ⟨k, hk⟩ := List.mem_iff_getElem?.1 hr
    exact h (r, k) (List.mem_zipIdx_iff_getElem?.2 hk)
  · intro h e he
    exact h e.1 (List.fst_mem_of_mem_zipIdx he)

/-- Bytes that the same valid regions match are governed alike. -/
theorem governing_congr {rs : List Nat} {a b : Nat}
    (h : ∀ r ∈ rs, bit r 0 = true → (inRange (rgnRange r) a = inRange (rgnRange r) b)) : governing rs a = governing rs b := by
  unfold governing
  congr 1
  refine List.find?_congr fun e he => ?_
  cases hv : bit e.1 0 with
  | false => rfl
  | true => rw [h e.1 (List.fst_mem_of_mem_zipIdx he) hv]

/-- Where valid regions begin and end. -/
def regionEnds (rs : List Nat) : List Nat :=
  (rs.filter (fun r => bit r 0)).flatMap (fun r => [(rgnRange r).1, (rgnRange r).1 + (rgnRange r).2])

theorem mem_regionEnds {rs : List Nat} {x : Nat} :
    x ∈ regionEnds rs ↔ ∃ r ∈ rs, bit r 0 = true ∧ (x = (rgnRange r).1 ∨ x = (rgnRange r).1 + (rgnRange r).2) := by
  simp [regionEnds, and_assoc]

/-- The region changes from one byte to the next only where a valid region begins or ends. -/
theorem governing_succ {rs : List Nat} {b : Nat} (h : b + 1 ∉ regionEnds rs) : governing rs (b + 1) = governing rs b := by
  refine governing_congr fun r hr hv => ?_
  have hedge : b + 1 ≠ (rgnRange r).1 ∧ b + 1 ≠ (rgnRange r).1 + (rgnRange r).2 :=
    ⟨fun e => h (mem_regionEnds.2 ⟨r, hr, hv, .inl e⟩), fun e => h (mem_regionEnds.2 ⟨r, hr, hv, .inr e⟩)⟩
  simp only [inRange, Bool.and_eq_decide, decide_eq_true_eq, decide_eq_decide]
  omega

/-! ### The pieces of an access (R389) -/

theorem mem_insertNat {a x : Nat} {l : List Nat} : x ∈ insertNat a l ↔ x = a ∨ x ∈ l := by
  induction l with
  | nil => simp [insertNat]
  | cons b l ih =>
    simp only [insertNat]
    split_ifs with hlt heq
    · simp
    · simp [heq]
    · simp [ih, or_left_comm]

theorem insertNat_rising {a : Nat} {l : List Nat} (h : l.Pairwise (· < ·)) : (insertNat a l).Pairwise (· < ·) := by
  induction l with
  | nil => simp [insertNat]
  | cons b l ih =>
    obtain ⟨hb, hl⟩ := List.pairwise_cons.1 h
    simp only [insertNat]
    split_ifs with hlt heq
    · exact List.pairwise_cons.2 ⟨fun x hx => (List.mem_cons.1 hx).elim (fun e => e ▸ hlt) (fun m => hlt.trans (hb x m)), h⟩
    · exact h
    · refine List.pairwise_cons.2 ⟨fun x hx => ?_, ih hl⟩
      rcases mem_insertNat.1 hx with rfl | hx
      · omega
      · exact hb x hx

/-- The addresses of a list that lie inside an access, inserted among its cuts. -/
def insertCuts (a len : Nat) (l xs : List Nat) : List Nat :=
  xs.foldl (fun l x => if a < x && x < a + len then insertNat x l else l) l

theorem insertCuts_cons (a len x : Nat) (l xs : List Nat) :
    insertCuts a len l (x :: xs) = insertCuts a len (if a < x && x < a + len then insertNat x l else l) xs := rfl

theorem mem_insertCuts {a len y : Nat} {l xs : List Nat} : y ∈ insertCuts a len l xs ↔ y ∈ l ∨ y ∈ xs ∧ a < y ∧ y < a + len := by
  induction xs generalizing l with
  | nil => simp [insertCuts]
  | cons x xs ih =>
    rw [insertCuts_cons, ih]
    split_ifs with hx <;> simp only [Bool.and_eq_true, decide_eq_true_eq] at hx
    · rw [mem_insertNat]
      grind
    · grind

theorem insertCuts_rising {a len : Nat} {l : List Nat} (xs : List Nat) (h : l.Pairwise (· < ·)) :
    (insertCuts a len l xs).Pairwise (· < ·) := by
  induction xs generalizing l with
  | nil => exact h
  | cons x xs ih =>
    rw [insertCuts_cons]
    split_ifs
    · exact ih (insertNat_rising h)
    · exact ih h

/-- The cuts at which a unit's check divides an access. -/
def GuardUnit.cuts (u : GuardUnit) (a len : Nat) (extra : List Nat) : List Nat :=
  insertCuts a len (insertCuts a len [a] (regionEnds u.regs)) extra

theorem cuts_rising (u : GuardUnit) (a len : Nat) (extra : List Nat) : (u.cuts a len extra).Pairwise (· < ·) :=
  insertCuts_rising _ (insertCuts_rising _ (List.pairwise_singleton _ _))

theorem mem_cuts {u : GuardUnit} {a len x : Nat} {extra : List Nat} :
    x ∈ u.cuts a len extra ↔ x = a ∨ (x ∈ regionEnds u.regs ∨ x ∈ extra) ∧ a < x ∧ x < a + len := by
  simp only [GuardUnit.cuts, mem_insertCuts, List.mem_singleton]
  grind

theorem le_of_mem_cuts {u : GuardUnit} {a len x : Nat} {extra : List Nat} (h : x ∈ u.cuts a len extra) : a ≤ x := by
  rcases mem_cuts.1 h with rfl | ⟨-, h, -⟩
  · exact le_rfl
  · exact h.le

theorem lt_of_mem_cuts {u : GuardUnit} {a len x : Nat} {extra : List Nat} (hl : 0 < len) (h : x ∈ u.cuts a len extra) :
    x < a + len := by
  rcases mem_cuts.1 h with rfl | ⟨-, -, h⟩
  · omega
  · exact h

theorem guardCheck_eq_none_iff {u : GuardUnit} {n : Needs} {a len : Nat} {extra : List Nat} :
    guardCheck u n a len extra = none
      ↔ ∀ c m, (c, m) ∈ pieces (u.cuts a (max 1 len) extra) (a + max 1 len) → pieceFault u n c m = none := by
  show Option.map _ (List.findSome? _ (pieces (u.cuts a (max 1 len) extra) _)) = none ↔ _
  rw [Option.map_eq_none_iff, List.findSome?_eq_none_iff, Prod.forall]

/-- A piece begins at a cut, ends within the access, and has no cut inside it. -/
theorem mem_pieces {l : List Nat} {e c m : Nat} (hl : l.Pairwise (· < ·)) (he : ∀ x ∈ l, x < e) (hp : (c, m) ∈ pieces l e) :
    c ∈ l ∧ 0 < m ∧ c + m ≤ e ∧ ∀ x ∈ l, c < x → c + m ≤ x := by
  induction l using pieces.induct with
  | case1 => cases hp
  | case2 a =>
    obtain ⟨rfl, rfl⟩ : c = a ∧ m = e - a := by simpa [pieces] using hp
    have hc := he c List.mem_cons_self
    refine ⟨List.mem_cons_self, by omega, by omega, fun x hx hlt => ?_⟩
    exact absurd (List.mem_singleton.1 hx) hlt.ne'
  | case3 a b l ih =>
    obtain ⟨ha, hrest⟩ := List.pairwise_cons.1 hl
    have hab := ha b List.mem_cons_self
    have hbe := he b (List.mem_cons_of_mem _ List.mem_cons_self)
    rcases List.mem_cons.1 hp with hp | hp
    · obtain ⟨rfl, rfl⟩ := Prod.mk.inj hp
      refine ⟨List.mem_cons_self, by omega, by omega, fun x hx hlt => ?_⟩
      have hbx : b ≤ x := by
        rcases List.mem_cons.1 ((List.mem_cons.1 hx).resolve_left hlt.ne') with rfl | hx
        · exact le_rfl
        · exact ((List.pairwise_cons.1 hrest).1 x hx).le
      omega
    · obtain ⟨hm, hpos, hend, hcut⟩ := ih hrest (fun x hx => he x (List.mem_cons_of_mem _ hx)) hp
      refine ⟨List.mem_cons_of_mem _ hm, hpos, hend, fun x hx hlt => ?_⟩
      rcases List.mem_cons.1 hx with rfl | hx
      · exact absurd (ha c hm) hlt.not_gt
      · exact hcut x hx hlt

/-- Every byte from a cut on lies in a piece. -/
theorem exists_piece {l : List Nat} {a b e : Nat} (hl : l.Pairwise (· < ·)) (ha : a ∈ l) (hab : a ≤ b) (hb : b < e) :
    ∃ c m, (c, m) ∈ pieces l e ∧ c ≤ b ∧ b < c + m := by
  induction l using pieces.induct generalizing a with
  | case1 => cases ha
  | case2 c =>
    obtain rfl := List.mem_singleton.1 ha
    exact ⟨a, e - a, List.mem_cons_self, hab, by omega⟩
  | case3 c d l ih =>
    obtain ⟨hc, hl⟩ := List.pairwise_cons.1 hl
    by_cases hd : d ≤ b
    · obtain ⟨c, m, hp, hin⟩ := ih hl List.mem_cons_self hd
      exact ⟨c, m, List.mem_cons_of_mem _ hp, hin⟩
    · have hca : c ≤ a := (List.mem_cons.1 ha).elim (fun h => h ▸ le_rfl) (fun h => (hc a h).le)
      exact ⟨c, d - c, List.mem_cons_self, by omega, by omega⟩

/-- What is the same at each byte of a piece as at the byte before is the same over the piece. -/
theorem eq_first_of_succ {α : Type} {f : Nat → α} {c m b : Nat} (h : ∀ b, c ≤ b → b + 1 < c + m → f (b + 1) = f b) (hb : c ≤ b)
    (hm : b < c + m) : f b = f c := by
  induction b, hb using Nat.le_induction with
  | base => rfl
  | succ b hb ih => rw [h b hb hm, ih (by omega)]

section
variable {u : GuardUnit} {a len c m : Nat} {extra : List Nat}
  (hp : (c, m) ∈ pieces (u.cuts a (max 1 len) extra) (a + max 1 len))
include hp

/-- A piece lies within the access. -/
theorem piece_within : a ≤ c ∧ 0 < m ∧ c + m ≤ a + max 1 len := by
  obtain ⟨hc, hpos, hend, -⟩ := mem_pieces (cuts_rising u a _ extra) (fun _ => lt_of_mem_cuts (by omega)) hp
  exact ⟨le_of_mem_cuts hc, hpos, hend⟩

/-- Inside a piece no valid region begins or ends, and no further cut lies. -/
theorem piece_uncut {b : Nat} (hb : c ≤ b) (hm : b + 1 < c + m) : b + 1 ∉ regionEnds u.regs ∧ b + 1 ∉ extra := by
  obtain ⟨-, -, -, hcut⟩ := mem_pieces (cuts_rising u a _ extra) (fun _ => lt_of_mem_cuts (by omega)) hp
  obtain ⟨ha, -, hend⟩ := piece_within hp
  refine not_or.1 fun h => ?_
  have hx := hcut (b + 1) (mem_cuts.2 (.inr ⟨h, by omega, by omega⟩)) (by omega)
  omega

/-- One region governs a piece. -/
theorem governing_piece {b : Nat} (hb : c ≤ b) (hm : b < c + m) : governing u.regs b = governing u.regs c :=
  eq_first_of_succ (fun _ hb hm => governing_succ (piece_uncut hp hb hm).1) hb hm

end

/-! ### The check of a piece, and of its bytes (R376, R379, R387, R389) -/

/-- A byte passes by itself: a miss under the default map, a governed byte under its region. -/
def GuardUnit.Passes (u : GuardUnit) (n : Needs) (b : Nat) : Prop :=
  (governing u.regs b = none → u.prot false b = false ∧ u.priv = true ∧ u.dflt n b = true)
  ∧ (∀ k r, governing u.regs b = some (k, r) → u.prot true b = false
    ∧ (n.read = true → bit r 1 = true) ∧ (n.write = true → bit r 2 = true) ∧ (n.exec = true → bit r 3 = true)
    ∧ (n.user = true → bit r 6 = false) ∧ (bit r 7 = true → u.tagAt b = some (bits r 11 8)))

theorem passes_miss_iff {u : GuardUnit} {n : Needs} {b : Nat} (hg : governing u.regs b = none) :
    u.Passes n b ↔ u.prot false b = false ∧ u.priv = true ∧ u.dflt n b = true := by
  simp [GuardUnit.Passes, hg]

theorem allowedBy_iff {n : Needs} {r : Nat} :
    n.allowedBy r = true ↔ (n.read = true → bit r 1 = true) ∧ (n.write = true → bit r 2 = true) ∧ (n.exec = true → bit r 3 = true) := by
  simp only [Needs.allowedBy, rgnRead, rgnWrite, rgnExec, Bool.and_eq_true, Bool.or_eq_true, Bool.not_eq_true', ← Bool.not_eq_true,
    ← imp_iff_not_or, and_assoc]

theorem passes_governed_iff {u : GuardUnit} {n : Needs} {b k r : Nat} (hg : governing u.regs b = some (k, r)) :
    u.Passes n b ↔ u.prot true b = false ∧ n.allowedBy r = true ∧ (n.user = true → bit r 6 = false)
      ∧ (bit r 7 = true → u.tagAt b = some (bits r 11 8)) := by
  simp [GuardUnit.Passes, hg, allowedBy_iff, and_assoc]

theorem pieceFault_miss_eq_none_iff {u : GuardUnit} {n : Needs} {a : Nat} (len : Nat) (hg : governing u.regs a = none) :
    pieceFault u n a len = none ↔ u.prot false a = false ∧ u.priv = true ∧ u.dflt n a = true := by
  simp only [pieceFault, hg]
  split_ifs <;> simp_all

theorem pieceFault_governed_eq_none_iff {u : GuardUnit} {n : Needs} {a len k r : Nat} (hg : governing u.regs a = some (k, r)) :
    pieceFault u n a len = none ↔ u.prot true a = false ∧ n.allowedBy r = true ∧ (n.user = true → bit r 6 = false)
      ∧ (bit r 7 = true → tagFault u (bits r 11 8) a len = none) := by
  simp only [pieceFault, hg, rgnKey]
  cases bit r 7 <;> split_ifs <;> simp_all

/-- The tags of a range are read once in each 256-byte block, which holds one tag. -/
theorem tagFault_eq_none_iff {u : GuardUnit} {key a len : Nat} (ht : ∀ x y : Nat, x / 256 = y / 256 → u.tagAt x = u.tagAt y)
    (hl : 0 < len) : tagFault u key a len = none ↔ ∀ b, a ≤ b → b < a + len → u.tagAt b = some key := by
  have hread : tagFault u key a len = none ↔ ∀ i < (a + len - 1) / 256 - a / 256 + 1,
      u.tagAt (max a ((a / 256 + i) * 256)) = some key := by
    rw [tagFault, List.findSome?_eq_none_iff]
    simp only [List.mem_range]
    refine forall₂_congr fun i _ => ?_
    cases u.tagAt (max a ((a / 256 + i) * 256)) with
    | none => simp
    | some t => simp
  rw [hread]
  constructor
  · intro h b hb hm
    rw [← h (b / 256 - a / 256) (by omega)]
    exact ht _ _ (by omega)
  · intro h i hi
    exact h _ (by omega) (by omega)

/-- A piece over which region, default map and protected ranges stay the same passes when every byte of it does. -/
theorem pieceFault_eq_none_iff {u : GuardUnit} {n : Needs} {a len : Nat} (ht : ∀ x y : Nat, x / 256 = y / 256 → u.tagAt x = u.tagAt y)
    (hl : 0 < len) (hr : ∀ b, a ≤ b → b < a + len → governing u.regs b = governing u.regs a)
    (hp : ∀ g b, a ≤ b → b < a + len → u.prot g b = u.prot g a) (hd : ∀ b, a ≤ b → b < a + len → u.dflt n b = u.dflt n a) :
    pieceFault u n a len = none ↔ ∀ b, a ≤ b → b < a + len → u.Passes n b := by
  cases hg : governing u.regs a with
  | none =>
    rw [pieceFault_miss_eq_none_iff len hg]
    constructor
    · intro h b hb hm
      rwa [passes_miss_iff ((hr b hb hm).trans hg), hp false b hb hm, hd b hb hm]
    · exact fun h => (passes_miss_iff hg).1 (h a le_rfl (by omega))
  | some e =>
    obtain ⟨k, r⟩ := e
    rw [pieceFault_governed_eq_none_iff hg, tagFault_eq_none_iff ht hl]
    have hpass : ∀ b, a ≤ b → b < a + len → (u.Passes n b ↔ _) := fun b hb hm => passes_governed_iff ((hr b hb hm).trans hg)
    constructor
    · rintro ⟨hprot, hneeds, huser, htag⟩ b hb hm
      exact (hpass b hb hm).2 ⟨(hp true b hb hm).trans hprot, hneeds, huser, fun hk => htag hk b hb hm⟩
    · intro h
      obtain ⟨hprot, hneeds, huser, -⟩ := (hpass a le_rfl (by omega)).1 (h a le_rfl (by omega))
      refine ⟨hprot, hneeds, huser, fun hk b hb hm => ?_⟩
      obtain ⟨-, -, -, htag⟩ := (hpass b hb hm).1 (h b hb hm)
      exact htag hk

/-- Settles O37: each piece passes when its bytes do, since nothing but tags changes inside one, and the pieces cover the access. -/
theorem guardCheckIsBytewise : Obligations.GuardCheckIsBytewise := by
  intro u n a len extra ht hprot hdflt
  show _ ↔ ∀ b, a ≤ b → b < a + max 1 len → u.Passes n b
  have hpiece : ∀ c m, (c, m) ∈ pieces (u.cuts a (max 1 len) extra) (a + max 1 len) →
      (pieceFault u n c m = none ↔ ∀ b, c ≤ b → b < c + m → u.Passes n b) := by
    intro c m hp
    obtain ⟨hstart, hpos, hend⟩ := piece_within hp
    have huncut : ∀ b, c ≤ b → b + 1 < c + m → b + 1 ∉ extra := fun b hb hm => (piece_uncut hp hb hm).2
    refine pieceFault_eq_none_iff ht hpos (fun b => governing_piece hp) (fun g b => eq_first_of_succ fun b hb hm => ?_)
      (fun b => eq_first_of_succ fun b hb hm => ?_)
    · exact hprot g b (by omega) (by omega) (huncut b hb hm)
    · exact hdflt b (by omega) (by omega) (huncut b hb hm)
  rw [guardCheck_eq_none_iff]
  constructor
  · intro h b hb hm
    obtain ⟨c, m, hp, hcb, hbm⟩ := exists_piece (cuts_rising u a (max 1 len) extra) (mem_cuts.2 (.inl rfl)) hb hm
    exact (hpiece c m hp).1 (h c m hp) b hcb hbm
  · intro h c m hp
    obtain ⟨hstart, -, hend⟩ := piece_within hp
    exact (hpiece c m hp).2 fun b hb hm => h b (by omega) (by omega)

/-- A region without R, W and X allows no access that needs one of them. -/
theorem not_allowedBy_of_deny {n : Needs} {r : Nat} (hr : bit r 1 = false) (hw : bit r 2 = false) (hx : bit r 3 = false)
    (hn : (n.read || n.write || n.exec) = true) : n.allowedBy r = false := by
  rw [Bool.eq_false_iff, Ne, allowedBy_iff, hr, hw, hx]
  rintro ⟨hread, hwrite, hexec⟩
  simp only [Bool.or_eq_true] at hn
  rcases hn with (h | h) | h
  · exact nomatch hread h
  · exact nomatch hwrite h
  · exact nomatch hexec h

/-- Settles O36: a denied byte's piece is governed by the same region at its start, where the check finds it. -/
theorem regionsGovernBytes : Obligations.RegionsGovernBytes := by
  refine ⟨fun rs a k r => ?_, fun rs a => ?_, ?_⟩
  · simp only [governing_eq_some_iff, rgnMatches_iff]
  · simp only [governing_eq_none_iff, rgnMatches_iff]
  · intro u n a len b k r extra hg hr hw hx hn hb hm
    obtain ⟨c, m, hp, hcb, hbm⟩ := exists_piece (cuts_rising u a (max 1 len) extra) (mem_cuts.2 (.inl rfl)) hb hm
    have hstart : governing u.regs c = some (k, r) := (governing_piece hp hcb hbm).symm.trans hg
    have hfault : pieceFault u n c m ≠ none := by
      rw [Ne, pieceFault_governed_eq_none_iff hstart, not_allowedBy_of_deny hr hw hx hn]
      simp
    exact Option.isSome_iff_ne_none.2 fun h => hfault (guardCheck_eq_none_iff.1 h c m hp)

/-! ### Publication and sync (R392, R394, R396) -/

section
variable {s u : State} {sess : SessRef} {v : Byte}

theorem exec_guardPublish_accepted (h : s.accepts sess K.GUARD_PUBLISH 1 v.toNat u) :
    exec (.guardPublish sess v) s = .next ((ownGuardPublish u).2.answerOd sess (ownGuardPublish u).1) :=
  congrArg _ (odCommand_accepts ownGuardPublish h)

theorem exec_guardSync_accepted (h : s.accepts sess K.GUARD_SYNC 1 v.toNat u) :
    exec (.guardSync sess v) s = .next ((ownGuardSync u).2.answerOd sess (ownGuardSync u).1) :=
  congrArg _ (odCommand_accepts ownGuardSync h)

end

theorem ownGuardPublish_pending {s : State} (h : s.gd.sliceAt.isSome = true) : ownGuardPublish s = (odOk, s) := if_pos h

theorem ownGuardPublish_starts {s : State} (h : s.gd.sliceAt = none) (he : s.epochFree = true) :
    ownGuardPublish s = (odOk,
      (({ s with gd := { s.gd with sliceAt := some s.tm.ticks } } : State).setO K.PUBLISH_STATE 1).setO K.PUBLISH_REFUSAL 0) := by
  simp [ownGuardPublish, h, he]

theorem ownGuardPublish_refused {s : State} (h : s.gd.sliceAt = none) (he : s.epochFree = false) :
    ownGuardPublish s = (odNo 0x0502 1, s.setO K.PUBLISH_REFUSAL 1) := by
  simp [ownGuardPublish, h, he]

theorem exec_guardSyncDone (s : State) :
    exec .guardSyncDone s = .next (if s.o K.SYNC_STATE == 1 && s.syncHolds then
      ({ s with gd := { s.gd with syncAt := none } } : State).setO K.SYNC_STATE 2 else s) := rfl

theorem exec_guardSyncTimeout_running {t : Nat} {s u : State} (ht : s.gd.syncAt = some t) (hs : s.o K.SYNC_STATE = 1)
    (hu : s.advance (t + s.c K.SYNC_TIMEOUT * Config.us) = u) :
    exec .guardSyncTimeout s
      = .next ((({ u with gd := { u.gd with syncAt := none } } : State).setO K.SYNC_STATE 3).raiseCore 586 1 1) := by
  show execGuardSyncTimeout s = _
  simp [execGuardSyncTimeout, ht, hs, hu, raise_below_fatal]

/-! ### Slice regions (R392) -/

theorem exec_sliceRgnCmd_accepted {s u : State} {sess : SessRef} {c : BitVec 192} (h : s.accepts sess K.SLICE_RGN_CMD 24 c.toNat u) :
    exec (.sliceRgnCmd sess c) s
      = .next ((ownSliceRgnCmd c.toNat u).2.answerOd sess (ownSliceRgnCmd c.toNat u).1) :=
  congrArg _ (odCommand_accepts (ownSliceRgnCmd c.toNat) h)

theorem ownSliceRgnCmd_reserved {v : Nat} (s : State) (h : bits v 15 11 ≠ 0 ∨ bits v 63 20 ≠ 0) :
    ownSliceRgnCmd v s = (odNo 0x0504 1, s.setO K.RGN_RESULT 1) := by
  simp [ownSliceRgnCmd, h]

section
variable {v : Nat} {s : State} (hlo : bits v 15 11 = 0) (hhi : bits v 63 20 = 0)
include hlo hhi

theorem ownSliceRgnCmd_unclaimed (hs : (s.slice (bits v 10 0)).state = .free) :
    ownSliceRgnCmd v s = (odNo 0x0504 2, s.setO K.RGN_RESULT 2) := by
  simp [ownSliceRgnCmd, hlo, hhi, hs]

theorem ownSliceRgnCmd_staged (hs : (s.slice (bits v 10 0)).state ≠ .free) (hp : s.gd.sliceAt = none)
    (hr : regionOk false (v / 2 ^ 64) = true) :
    ownSliceRgnCmd v s = (odOk, (s.setO K.RGN_RESULT 0).updSlice (bits v 10 0)
      (fun x => { x with staged := KMap.set 0 x.staged (bits v 19 16) (v / 2 ^ 64) })) := by
  simp only [ownSliceRgnCmd, hlo, hhi, hs, hp, hr]
  simp

end

/-! ### Colour tags (R381, R382, R383) -/

theorem exec_tagCmd_accepted {s u : State} {sess : SessRef} {c : BitVec 128} (h : s.accepts sess K.TAG_CMD 16 c.toNat u) :
    exec (.tagCmd sess c) s = .next ((ownTagCmd c.toNat u).2.answerOd sess (ownTagCmd c.toNat u).1) :=
  congrArg _ (odCommand_accepts (ownTagCmd c.toNat) h)

theorem ownTagCmd_taken {s w : State} {v : Nat} (h : s.tagRefusal v = 0)
    (hw : (s.setO K.TAG_RESULT 0).setO K.TAG_CMD_TAG (bits v 127 112) = w) :
    ownTagCmd v s = (odOk, ({ w with gd := { w.gd with tagCmd := some v } } : State).setO K.TAG_CMD_STATE 1) := by
  subst hw
  exact if_neg (not_not.2 h)

theorem ownTagCmd_refused {s : State} {v : Nat} (h : s.tagRefusal v ≠ 0) :
    ownTagCmd v s
      = (odNo (if s.tagRefusal v == 6 then 0x0502 else 0x0504) (s.tagRefusal v), s.setO K.TAG_RESULT (s.tagRefusal v)) :=
  if_pos h

theorem exec_tagCmdWritten_writes {s u : State} {v : Nat} (hc : s.gd.tagCmd = some v) (ha : s.gd.tagAt = none)
    (hu : (s.tagPlaces v).foldl (fun (x : State) e =>
      (List.range (bits v 58 32)).foldl (fun (x : State) i => x.setTagLater e.1 (e.2 + i) (bits v 19 16)) x) s = u) :
    exec .tagCmdWritten s = .next { u with gd := { u.gd with tagAt := some u.tm.ticks } } := by
  show execTagCmdWritten s = _
  simp [execTagCmdWritten, hc, ha, hu]

theorem exec_tagFillComplete_filling {s : State} {m : TargetIx} (h : s.o (K.TAG_STATE m) = 1) :
    exec (.tagFillComplete m) s
      = .next (({ s with gd := { s.gd with filling := KMap.set false s.gd.filling m false } } : State).setO (K.TAG_STATE m) 2) :=
  congrArg _ (if_neg (not_not.2 h))

/-! ### Core regions (R374, R402) -/

theorem exec_coreRegionBaseHi_open {s : State} {via : CsrVia} (c : CoreIx) (k : Fin 16) (v : Word32) (h : s.csrOpen via 4 = true) :
    exec (.coreRegionBaseHi via c k v) s = .next (s.unitWrite via c (fun s => s.coreRegionLoad c k v.toNat)) :=
  congrArg _ (csrDo_open _ h)

theorem unitWrite_supervisor {s : State} {c : CoreIx} (f : State → State) (h : (s.coreAt c).sup = true) :
    s.unitWrite (.core c) c f = f s := by
  simp [State.unitWrite, State.mayWriteUnit, h]

/-- User code changes no unit: the core's block records it. -/
theorem unitWrite_user {s : State} {d : CoreIx} {c : Nat} (f : State → State) (h : (s.coreAt c).sup = false) :
    s.unitWrite (.core d) c f = s.raiseCore (568 + c) 1 1 false { master := csrMaster (.core d), access := 0x0C } := by
  simp [State.unitWrite, State.mayWriteUnit, h, raise_below_fatal]

/-- A region that passes R374 is loaded as its four words. -/
theorem coreRegion_coreRegionLoad {s : State} {c k hi r : Nat}
    (hr : s.coreWord c k 0 + s.coreWord c k 1 * 2 ^ 32 + s.coreWord c k 2 * 2 ^ 64 + hi % 2 ^ 32 * 2 ^ 96 = r)
    (ho : regionOk true r = true) :
    (s.coreRegionLoad c k hi).coreRegion c k = r := by
  simp only [State.coreRegionLoad, State.coreRegion, hr, ho, if_true, updCore_at_coreAt_same, kmap_get_set_same]

/-- Settles O15: one lemma above for each command and outcome. The choice among the reasons of a refusal and the writing of every tag at
once are the model's (log entries 13 and 38). -/
theorem guardsPublishedSyncedAndTagged : Obligations.GuardsPublishedSyncedAndTagged := by
  refine ⟨?_, ?_, ?_, ?_, ?_, ?_, ?_, ?_, ?_, ?_, ?_, ?_, ?_, fun m s h => exec_tagFillComplete_filling h, ?_, ?_,
    fun s c k hi r hr ho => coreRegion_coreRegionLoad hr.symm ho⟩
  · intro sess v s u h hp he
    rw [exec_guardPublish_accepted h, ownGuardPublish_starts hp he]
    rfl
  · intro sess v s u h hp
    rw [exec_guardPublish_accepted h, ownGuardPublish_pending hp]
    rfl
  · intro sess v s u h hp he
    rw [exec_guardPublish_accepted h, ownGuardPublish_refused hp he]
    rfl
  · intro sess v s u h
    rw [exec_guardSync_accepted h]
    rfl
  · intro s hs hh
    simp [exec_guardSyncDone, hs, hh]
  · intro s hh
    simp [exec_guardSyncDone, hh]
  · intro t s u ht hs hu
    exact exec_guardSyncTimeout_running ht hs hu.symm
  · intro sess c s u h hlo hhi hs hp hr
    rw [exec_sliceRgnCmd_accepted h, ownSliceRgnCmd_staged hlo hhi hs hp hr]
    rfl
  · intro sess c s u h hb
    rw [exec_sliceRgnCmd_accepted h, ownSliceRgnCmd_reserved u hb]
    rfl
  · intro sess c s u h hlo hhi hs
    rw [exec_sliceRgnCmd_accepted h, ownSliceRgnCmd_unclaimed hlo hhi hs]
    rfl
  · intro sess c s u w h hr hw
    rw [exec_tagCmd_accepted h, ownTagCmd_taken hr hw.symm]
    rfl
  · intro sess c s u h hr
    rw [exec_tagCmd_accepted h, ownTagCmd_refused hr]
    rfl
  · intro v s u hc ha hu
    exact exec_tagCmdWritten_writes hc ha hu.symm
  · intro c k v s ho hs
    rw [exec_coreRegionBaseHi_open c k v ho, unitWrite_supervisor _ hs]
  · intro d c k v s ho hs
    rw [exec_coreRegionBaseHi_open c k v ho, unitWrite_user _ hs]

end Sys2Proof.Machine
end

section
/-!
PROOFS. The statements of 15_lifecycle_firmware.md: fuses over a step, what the boot ROM reads of them, life-cycle transitions, keys, the TAP,
and attestation.
-/
namespace Sys2Proof.Machine

/-! ### Fuses over a step (R513, R515, R520, R528, R539, R545) -/

/-- A number that holds every bit of another has each bit that the other has. -/
theorem bit_of_land {a b i : Nat} (h : Nat.land a b = a) (hi : bit a i = true) : bit b i = true := by
  have h : a &&& b = a := h
  rw [bit_eq_testBit] at hi ⊢
  rw [← h, Nat.testBit_and, Bool.and_eq_true] at hi
  exact hi.2

/-- Settles O49: LC_FUSE is among the fuses that `step_onward` follows. -/
theorem lifeCyclePatternStaysLegal : Obligations.LifeCyclePatternStaysLegal := by
  intro s t hl h
  exact (step_onward s t h).1.legal hl

/-- Settles O50: `step_onward` says how the fuses grow. The vendor roots are R521's. -/
theorem fusesOnlyGain : Obligations.FusesOnlyGain := by
  intro s t h
  obtain ⟨hf, -⟩ := step_onward s t h
  exact ⟨fun _ => bit_of_land hf.lc, hf.serial, hf.vroot0, hf.vroot1, hf.revoked0, hf.devPub, hf.trees, hf.sv⟩

/-! ### LC_FUSE as the boot ROM reads it (R513) -/

/-- LC_FUSE half way from pattern a to pattern b: of the bits to blow, those from bit i on are blown. -/
def lcHalfway (a b i : Nat) : Nat := a + (b - a) / 2 ^ i * 2 ^ i

/-- Pattern p holds every bit of a, none outside b, and of b's bits that a lacks exactly those from bit i on (R513). -/
def HalfBlown (a b i p : Nat) : Prop :=
  (∀ j, bit a j = true → bit p j = true) ∧ (∀ j, bit p j = true → bit b j = true)
    ∧ (∀ j, bit b j = true → bit a j = false → (bit p j = true ↔ i ≤ j))

theorem bit_lcHalfway_low : ∀ m ∈ lcMoves, ∀ i < 9, ∀ j < 8,
    bit (lcHalfway m.1 m.2 i) j = (bit m.1 j || bit m.2 j && decide (i ≤ j)) := by decide

theorem lcHalfway_lt : ∀ m ∈ lcMoves, ∀ i < 9, m.1 < 2 ^ 8 ∧ m.2 < 2 ^ 8 ∧ lcHalfway m.1 m.2 i < 2 ^ 8 := by decide

theorem lcMoves_widen : ∀ m ∈ lcMoves, ∀ j < 8, bit m.1 j = true → bit m.2 j = true := by decide

/-- A half-way pattern that is no state's own is repaired to the transition's end. -/
theorem lcRepair_lcHalfway : ∀ m ∈ lcMoves, ∀ i < 9, lcHalfway m.1 m.2 i ∉ [0x00, 0x03, 0x0F, 0x3F, 0xFF] →
    lcRepair (lcHalfway m.1 m.2 i) = some m.2 := by decide

theorem bit_of_lt {v n j : Nat} (h : v < 2 ^ n) (hj : n ≤ j) : bit v j = false := by
  rw [bit_eq_testBit]
  exact Nat.testBit_lt_two_pow (h.trans_le (Nat.pow_le_pow_right (by decide) hj))

theorem bit_lcHalfway {a b i : Nat} (h : (a, b) ∈ lcMoves) (hi : i < 9) (j : Nat) :
    bit (lcHalfway a b i) j = (bit a j || bit b j && decide (i ≤ j)) := by
  by_cases hj : j < 8
  · exact bit_lcHalfway_low _ h i hi j hj
  · obtain ⟨ha, hb, hp⟩ := lcHalfway_lt _ h i hi
    have hj := Nat.le_of_not_lt hj
    simp [bit_of_lt ha hj, bit_of_lt hb hj, bit_of_lt hp hj]

theorem bit_widen {a b j : Nat} (h : (a, b) ∈ lcMoves) (hj : bit a j = true) : bit b j = true := by
  by_cases h8 : j < 8
  · exact lcMoves_widen _ h j h8 hj
  · rw [bit_of_lt (lcHalfway_lt _ h 0 (by decide)).1 (Nat.le_of_not_lt h8)] at hj
    exact absurd hj Bool.false_ne_true

theorem halfBlown_lcHalfway {a b i : Nat} (h : (a, b) ∈ lcMoves) (hi : i < 9) : HalfBlown a b i (lcHalfway a b i) := by
  refine ⟨fun j hj => ?_, fun j hj => ?_, fun j hb ha => ?_⟩
  · rw [bit_lcHalfway h hi, hj, Bool.true_or]
  · rw [bit_lcHalfway h hi, Bool.or_eq_true, Bool.and_eq_true] at hj
    exact hj.elim (bit_widen h) And.left
  · rw [bit_lcHalfway h hi, hb, ha]
    simp

/-- Bits 8 and up are clear on both sides, so a larger bit position says the same as bit 8. -/
theorem HalfBlown.eq_lcHalfway {a b i p : Nat} (h : (a, b) ∈ lcMoves) (hp : HalfBlown a b i p) : p = lcHalfway a b (min i 8) := by
  obtain ⟨hap, hpb, hij⟩ := hp
  have hi : min i 8 < 9 := by omega
  refine Nat.eq_of_testBit_eq fun j => ?_
  rw [← bit_eq_testBit, ← bit_eq_testBit, bit_lcHalfway h hi]
  cases ha : bit a j with
  | true => rw [hap j ha, Bool.true_or]
  | false =>
    cases hb : bit b j with
    | false => simpa [hb] using mt (hpb j)
    | true =>
      have hj : j < 8 := by
        by_contra hj
        rw [bit_of_lt (lcHalfway_lt _ h 0 (by decide)).2.1 (Nat.le_of_not_lt hj)] at hb
        exact Bool.false_ne_true hb
      have hmin : min i 8 ≤ j ↔ i ≤ j := by omega
      rw [Bool.false_or, Bool.true_and, Bool.eq_iff_iff, hij j hb ha, decide_eq_true_eq, hmin]

/-- What the ROM takes for an interrupted transition is half way from its start to its end. -/
theorem lcInterrupted_halfway {p a b : Nat} (h : lcInterrupted p a b = true) : ∃ i < 9, p = lcHalfway a b i := by
  simp only [lcInterrupted, Bool.and_eq_true, beq_iff_eq, List.any_eq_true, List.mem_range] at h
  obtain ⟨⟨⟨⟨ha, -⟩, i, hi, he⟩, -⟩, -⟩ := h
  have hap : a ≤ p := ha ▸ Nat.and_le_left
  exact ⟨i, hi, by rw [lcHalfway, ← he]; omega⟩

/-- A pattern that is neither a state's nor a transition's is not repaired. -/
theorem lcRepair_none {p : Nat} (hp : p ∉ [0x00, 0x03, 0x0F, 0x3F, 0xFF]) (hn : ∀ a b i, (a, b) ∈ lcMoves → ¬ HalfBlown a b i p) :
    lcRepair p = none := by
  have hf : lcMoves.find? (fun m => lcInterrupted p m.1 m.2) = none := by
    refine List.find?_eq_none.2 fun m hm hi => ?_
    obtain ⟨i, h9, rfl⟩ := lcInterrupted_halfway hi
    exact hn _ _ i hm (halfBlown_lcHalfway hm h9)
  rw [lcRepair, if_neg (by simpa using hp), hf]
  rfl

theorem lcRepair_of_legal {p : Nat} (hp : p ∈ [0x00, 0x03, 0x0F, 0x3F, 0xFF]) : lcRepair p = some p :=
  if_pos (by simpa using hp)

theorem lcState_of_pattern {p n : Nat} {s : State} (hs : s.life.fuses.lc = p)
    (h : (p, n) ∈ [(0x00, 0), (0x03, 1), (0x0F, 2), (0x3F, 3), (0xFF, 4)]) : s.lcState = n := by
  simp only [List.mem_cons, Prod.mk.injEq, List.not_mem_nil, or_false] at h
  unfold State.lcState
  rw [hs]
  rcases h with ⟨rfl, rfl⟩ | ⟨rfl, rfl⟩ | ⟨rfl, rfl⟩ | ⟨rfl, rfl⟩ | ⟨rfl, rfl⟩ <;> rfl

theorem lcState_of_illegal {s : State} (h : s.life.fuses.lc ∉ [0x00, 0x03, 0x0F, 0x3F, 0xFF]) : s.lcState = 4 := by
  simp only [List.mem_cons, List.not_mem_nil, or_false, not_or] at h
  obtain ⟨h0, h1, h2, h3, -⟩ := h
  simp [State.lcState, h0, h1, h2, h3]

/-- The machine with pattern p in LC_FUSE. -/
def State.withLc (s : State) (p : Nat) : State := { s with life := { s.life with fuses := { s.life.fuses with lc := p } } }

/-- The ROM after LC_FUSE: it completes the erasure that the state requires and that is not done (R516). -/
def State.romErase (s : State) : State :=
  if (s.lcState == 3 || s.lcState == 4) && !s.life.eraseDone then s.erase.raiseCore 615 0 7 false island else s

theorem romErase_scrapped {s : State} (h : s.lcState = 4) :
    s.romErase = if s.life.eraseDone then s else s.erase.raiseCore 615 0 7 false island := by
  unfold State.romErase
  cases he : s.life.eraseDone <;> simp [h]

theorem romFuses_repaired {s : State} {p : Nat} (h : lcRepair s.life.fuses.lc = some p) :
    s.romFuses = (s.withLc p).romErase := by
  simp only [State.romFuses, h, raise_below_fatal _ 615 0 _ _ _ (by decide)]
  rfl

/-- A legal pattern is left as it is. -/
theorem romFuses_legal {s : State} (h : s.life.fuses.lc ∈ [0x00, 0x03, 0x0F, 0x3F, 0xFF]) : s.romFuses = s.romErase :=
  romFuses_repaired (lcRepair_of_legal h)

theorem romFuses_inconsistent {s : State} (h : lcRepair s.life.fuses.lc = none) :
    s.romFuses = (s.raiseCore 615 3 3 false island).romErase := by
  simp only [State.romFuses, h, raise_below_fatal _ 615 0 _ _ _ (by decide)]
  rfl

/-- A transition that power loss interrupted starts as its end does. -/
theorem romFuses_halfway {s : State} {a b i : Nat} (h : (a, b) ∈ lcMoves) (hl : s.life.fuses.lc ∉ [0x00, 0x03, 0x0F, 0x3F, 0xFF])
    (hp : HalfBlown a b i s.life.fuses.lc) :
    s.romFuses = (s.withLc b).romFuses := by
  have heq := hp.eq_lcHalfway h
  have hb : b ∈ [0x00, 0x03, 0x0F, 0x3F, 0xFF] := by
    have : ∀ m ∈ lcMoves, m.2 ∈ [0x00, 0x03, 0x0F, 0x3F, 0xFF] := by decide
    exact this _ h
  rw [romFuses_repaired (p := b) (by rw [heq] at hl ⊢; exact lcRepair_lcHalfway _ h _ (by omega) hl)]
  exact (romFuses_legal (s := s.withLc b) hb).symm

/-- The machine that the ROM finds at the release of power-on reset. -/
def State.porReleased (s : State) (ga : BitVec 6) : State :=
  (({ s with st := { s.st with porHeld := false }, mg := { s.mg with gaPins := ga.toNat }, tm := { s.tm with ticks := 0 } } : State).incO
    K.POR_COUNT).setO K.LAST_RESET 1

theorem porReleased_life (s : State) (ga : BitVec 6) : (s.porReleased ga).life = s.life := rfl

theorem porReleased_withLc (s : State) (ga : BitVec 6) (p : Nat) : (s.withLc p).porReleased ga = (s.porReleased ga).withLc p := rfl

/-- The ROM reads LC_FUSE before anything else of the boot. -/
theorem exec_powerOnResetRelease_of_romFuses {s t : State} (hs : s.st.porHeld = true) (ht : t.st.porHeld = true) (ga : BitVec 6)
    (h : (s.porReleased ga).romFuses = (t.porReleased ga).romFuses) :
    exec (.powerOnResetRelease ga) s = exec (.powerOnResetRelease ga) t := by
  have hx : ∀ u : State, u.st.porHeld = true → exec (.powerOnResetRelease ga) u = .next ((u.porReleased ga).boot true) :=
    fun u hu => if_neg (by simp [hu])
  rw [hx s hs, hx t ht, State.boot, State.boot, h]

/-- An interrupted transition is completed at the release of power-on reset. -/
theorem exec_powerOnResetRelease_halfway {s : State} {a b i : Nat} (h : (a, b) ∈ lcMoves) (hr : s.st.porHeld = true)
    (hl : s.life.fuses.lc ∉ [0x00, 0x03, 0x0F, 0x3F, 0xFF]) (hp : HalfBlown a b i s.life.fuses.lc) (ga : BitVec 6) :
    exec (.powerOnResetRelease ga) s = exec (.powerOnResetRelease ga) (s.withLc b) := by
  refine exec_powerOnResetRelease_of_romFuses (t := s.withLc b) hr hr ga ?_
  rw [porReleased_withLc]
  exact romFuses_halfway (s := s.porReleased ga) (i := i) h (by rw [porReleased_life]; exact hl) (by rw [porReleased_life]; exact hp)

/-- Settles O43: legal patterns by `lcState_of_pattern`, interrupted transitions by `HalfBlown.eq_lcHalfway`, the rest by `lcRepair_none`.
That the fault of an inconsistent pattern brings no reset is the model's choice (log entry 14); the erasure is R516's, its event R543's. -/
theorem bootRomReadsLifeCycleFuse : Obligations.BootRomReadsLifeCycleFuse := by
  refine ⟨fun p n s hs h => lcState_of_pattern hs h, fun p s hs hp => ?_, fun a b i s ga h hr hl h1 h2 h3 => ?_, fun s hl hn => ?_⟩
  · subst hs
    exact romFuses_legal hp
  · exact exec_powerOnResetRelease_halfway (i := i) h hr hl ⟨h1, h2, h3⟩ ga
  · have hs := lcState_of_illegal hl
    refine ⟨hs, ?_⟩
    rw [romFuses_inconsistent (lcRepair_none hl fun a b i h hp => hn a b i h hp),
      romErase_scrapped (by rw [raiseCore_at_lcState]; exact hs), raiseCore_life]

/-! ### Transitions (R512, R514, R515, R518) -/

theorem fuses_of_held {s t : State} (h : t.held = s.held) : t.life.fuses = s.life.fuses := congrArg (fun x => x.2.1) h

/-- A move blows the pattern of its state into LC_FUSE. -/
theorem lcMove_lc (s : State) (n : Nat) : (s.lcMove n).life.fuses.lc = lcPattern n := by
  unfold State.lcMove
  generalize hu : ({ s with life := { s.life with fuses := { s.life.fuses with lc := lcPattern n } } } : State) = u
  have hlc : u.life.fuses.lc = lcPattern n := by rw [← hu]
  have hg : u.lcGates.life.fuses.lc = lcPattern n := by rw [fuses_of_held (lcGates_held u), hlc]
  dsimp only
  split
  · rw [fuses_of_held (raise_held _ _ _ _ _ _), hg]
  · rw [fuses_of_held (raise_held _ _ _ _ _ _), fuses_of_held (hkReset_held _ _), fuses_of_held (erase_held _)]
    split <;> exact hg

section
variable {s u : State} {sess key len v : Nat} (h : s.accepts sess key len v u)
include h

theorem odCommand_ownLcAdvance_provision (hs : u.lcState = 0) (hr : u.role sess = 3) (hc : u.life.certHeld = true)
    (hb : u.lcBlocked = 0) : s.odCommand sess key len v (ownLcAdvance sess 1) = (u.lcMove 1).answerOd sess odOk := by
  rw [odCommand_accepts _ h]
  simp [ownLcAdvance, hs, hr, hc, hb]

theorem odCommand_ownLcAdvance_field (hs : u.lcState = 1) (hb : u.lcBlocked = 0) :
    s.odCommand sess key len v (ownLcAdvance sess 2) = (u.lcMove 2).answerOd sess odOk := by
  rw [odCommand_accepts _ h]
  simp [ownLcAdvance, hs, hb]

theorem odCommand_ownLcAdvance_elsewhere (hs : u.lcState ≠ 1) :
    s.odCommand sess key len v (ownLcAdvance sess 2) = (u.setO K.LC_REFUSAL 1).answerOd sess (odNo 0x0501 1) := by
  rw [odCommand_accepts _ h]
  simp [ownLcAdvance, State.lcRefuse, hs]

/-- A token in PROVISIONED or FIELD uses up its challenge, and moves to RETURNED where it verifies. -/
theorem odCommand_ownLcToken {d : List Byte} {ok : Bool} {w : State} (hs : u.lcState = 1 ∨ u.lcState = 2) (hb : u.lcBlocked = 0)
    (hok : (u.tokenOk d [0x4B, 0x48, 0x52, 0x54] u.life.lcChallenge 0 && leAt d 4 1 == 3 && leAt d 5 1 ≠ 0) = ok)
    (hw : ({ u with life := { u.life with lcChallenge := u.entropyVal } } : State).freeNext = w) :
    s.odCommand sess key len v (ownLcToken d)
      = if ok then (w.lcMove 3).answerOd sess odOk else (w.setO K.LC_REFUSAL 5).answerOd sess (odNo 0x0501 5) := by
  have hg : ¬ (u.lcState ≠ 1 && u.lcState ≠ 2) = true := by rcases hs with hs | hs <;> simp [hs]
  rw [odCommand_accepts _ h]
  simp only [ownLcToken, if_neg hg, hb, ne_eq, not_true_eq_false, if_false, hok, hw]
  cases ok <;> rfl

theorem odCommand_ownLcScrap {w : Nat} (hs : u.lcState = 1 ∨ u.lcState = 2) (hb : u.lcBlocked = 0) :
    s.odCommand sess key len v (ownLcScrap sess w) = if w = u.life.fuses.serial then (u.lcMove 4).answerOd sess odOk
      else (u.setO K.LC_REFUSAL 6).answerOd sess (odNo 0x0501 6) := by
  rw [odCommand_accepts _ h]
  by_cases hw : w = u.life.fuses.serial <;> rcases hs with hs | hs <;> simp [ownLcScrap, State.lcRefuse, hs, hb, hw]

/-! ### Roots, keys and roles (R521, R522, R523) -/

theorem odCommand_ownVrootRevoke0_held (hv : u.life.fuses.vroot1.isSome = true) : s.odCommand sess key len v ownVrootRevoke0
    = ({ u with life := { u.life with fuses := { u.life.fuses with revoked0 := true } } } : State).answerOd sess odOk := by
  rw [odCommand_accepts _ h]
  simp only [ownVrootRevoke0, Option.isNone_eq_false_iff.2 hv, Bool.false_eq_true, if_false]

theorem odCommand_ownJtagOpen_field (hs : u.lcState = 2) : s.odCommand sess key len v (ownJtagOpen sess)
    = ({ u with life := { u.life with jtagScan := true } } : State).answerOd sess odOk := by
  rw [odCommand_accepts _ h]
  simp [ownJtagOpen, hs]

/-- A response uses up its challenge, and gains the role where it verifies. -/
theorem odCommand_ownAuthResponse {d : List Byte} {ok : Bool} {w : State}
    (hok : (u.tokenOk d [0x4B, 0x48, 0x41, 0x55] (u.session sess).challenge sess
      && ((leAt d 4 1 == 2 && leAt d 5 1 == 0) || (leAt d 4 1 == 3 && (leAt d 5 1 == 1 || leAt d 5 1 == 2) && sidPath sess == 3))
      && u.gainedOk (leAt d 4 1)) = ok)
    (hw : (u.updSess sess (fun x => { x with challenge := u.entropyVal })).freeNext = w) :
    s.odCommand sess key len v (ownAuthResponse sess d)
      = if ok then (w.updSess sess (fun x => { x with role := max x.role (leAt d 4 1), gained := true })).answerOd sess odOk
        else ((w.incO K.AUTH_FAILURES).raiseCore 615 1 2 false island).answerOd sess (odNo 0x0504) := by
  rw [odCommand_accepts _ h]
  simp only [ownAuthResponse, hok, hw, raise_below_fatal _ 615 1 _ _ _ (by decide)]
  cases ok <;> rfl

end

/-! ### The TAP (R514, R552, R556) -/

theorem exec_jtagTapAccess_closed {s : State} {i : TapInstr} (pins tdi : BitVec 97) (h : s.tapOpen i = false) :
    exec (.jtagTapAccess ⟨i, pins, tdi⟩) s = .next s := if_pos (by simp [h])

/-- An open instruction is loaded and shifts the data register that it selects. -/
theorem exec_jtagTapAccess_open {s u : State} {i : TapInstr} (pins tdi : BitVec 97) (h : s.tapOpen i = true) (hp : s.st.porHeld = false)
    (hu : { s with life := { s.life with tap := i } } = u) :
    exec (.jtagTapAccess ⟨i, pins, tdi⟩) s = .next (match i with
      | .bypass => u.emit .tap 0 [0]
      | .idcode => u.emit .tap 0 [idcode]
      | .sample => ({ u with life := { u.life with boundary := tdi } } : State).emit .tap 0 [pins.toNat]
      | .extest => (({ u with life := { u.life with boundary := tdi } } : State).emit .tap 1 [s.life.boundary.toNat]).emit .tap 0
          [pins.toNat] |>.emit .tap 1 [tdi.toNat]
      | .internalDebug => u) := by
  subst hu
  refine (if_neg (by simp [h, hp])).trans ?_
  cases i <;> rfl

/-- Settles O9: one lemma above for each command and outcome. What the TAP's instructions do is presumed (log entry 51); that open sessions
are graded anew after CUST_KEY_HASH is deduced (log entry 15). -/
theorem lifeCycleTransitionsMade : Obligations.LifeCycleTransitionsMade := by
  refine ⟨fun sess s u h hs hr hc hb => congrArg _ (odCommand_ownLcAdvance_provision h hs hr hc hb),
    fun sess s u h hs hb => congrArg _ (odCommand_ownLcAdvance_field h hs hb),
    fun sess s u h hs => congrArg _ (odCommand_ownLcAdvance_elsewhere h hs),
    fun sess d ok s u w h hs hb hok hw => congrArg _ (odCommand_ownLcToken h hs hb hok.symm hw.symm),
    fun sess v s u h hs hb hv => congrArg _ ((odCommand_ownLcScrap h hs hb).trans (if_pos hv)),
    fun sess v s u h hs hb hv => congrArg _ ((odCommand_ownLcScrap h hs hb).trans (if_neg hv)), lcMove_lc,
    fun sess v s u h hv => congrArg _ (odCommand_ownVrootRevoke0_held h hv),
    fun sess v s u h hs => congrArg _ (odCommand_ownJtagOpen_field h hs),
    fun sess v s u h => congrArg _ (odCommand_accepts (ownCustKeyHash v.toNat) h),
    fun sess d ok s u w h hok hw => congrArg _ (odCommand_ownAuthResponse h hok.symm hw.symm), fun i pins tdi s u h hp hu => ?_,
    fun i pins tdi s h => exec_jtagTapAccess_closed pins tdi h⟩
  have hx := exec_jtagTapAccess_open pins tdi h hp hu.symm
  refine ⟨?_, ?_, ?_, ?_⟩ <;> rintro rfl <;> exact hx

/-! ### The device key and its certificate (R538, R545) -/

section
variable {s u : State} {sess key len v : Nat} (h : s.accepts sess key len v u)
include h

/-- The machine once DEVKEY_GEN has made the key: signing begins at tree 0 with 32 indices reserved. -/
def State.withDevKey (s : State) : State :=
  ({ s with life := { s.life with
      fuses := { s.life.fuses with devPub := some (Config.devPublic s.freeIx).toNat, trees := max 1 s.life.fuses.trees },
      recA := some { seqNo := 1, t := 0, limit := 32 }, recB := none, sigT := 0, sigB := 0, sigLimit := 32, sigOff := false } } :
    State).freeNext

theorem odCommand_ownDevkeyGen_first (hk : u.life.fuses.devPub = none) :
    s.odCommand sess key len v ownDevkeyGen = u.withDevKey.answerOd sess odOk := by
  rw [odCommand_accepts _ h]
  simp [ownDevkeyGen, hk, State.withDevKey]

theorem odCommand_ownDevkeyGen_again (hk : u.life.fuses.devPub.isSome = true) :
    s.odCommand sess key len v ownDevkeyGen = u.answerOd sess (odNo 0x0501) := by
  rw [odCommand_accepts _ h]
  simp only [ownDevkeyGen, hk, if_true]

theorem odCommand_ownDevkeyCert_maker {d : List Byte} {ok : Bool} (hr : u.role sess = 3) (hok : u.certOk d = ok) :
    s.odCommand sess key len v (ownDevkeyCert sess d)
      = if ok then ({ u with life := { u.life with cert := leNat d, certHeld := true } } : State).answerOd sess odOk
        else u.answerOd sess (odNo 0x0504) := by
  rw [odCommand_accepts _ h]
  simp only [ownDevkeyCert, hr, ne_eq, not_true_eq_false, if_false, hok]
  cases ok <;> rfl

/-! ### Attestation (R541, R542) -/

theorem odCommand_ownAttestNonce_taken {n : Nat} (ha : u.attestOpen = true) (hr : u.sigReady = true) (hl : u.life.lastReport = none)
    (hn : u.life.signing = none) : s.odCommand sess key len v (ownAttestNonce sess n)
      = (({ u with life := { u.life with signing := some sess, lastReport := some u.now } } : State).updSess sess
          (fun x => { x with attNonce := n, attState := 1 })).answerOd sess odOk := by
  rw [odCommand_accepts _ h]
  simp [ownAttestNonce, ha, hr, hl, hn]

/-- Within 20 s of the last report a nonce is refused as busy. -/
theorem odCommand_ownAttestNonce_soon {n t : Nat} (ha : u.attestOpen = true) (hl : u.life.lastReport = some t)
    (ht : u.now < t + 20000 * Config.ms) : s.odCommand sess key len v (ownAttestNonce sess n) = u.answerOd sess (odNo 0x0502) := by
  rw [odCommand_accepts _ h]
  simp only [ownAttestNonce, ha, hl, ht, decide_true, Bool.or_true, Bool.true_or, Bool.not_true, Bool.false_eq_true, if_false, if_true]

end

theorem reserve_left {l : Life} (h : l.sigB < l.sigLimit) : l.reserve = l := if_pos h

/-- The report of the session whose nonce is being signed is written, with one index used. -/
theorem exec_attestReportReady_signed {s u : State} {sess : SessRef} (hs : s.life.signing = some sess) (hr : s.sigReady = true)
    (ha : s.attestOpen = true) (hb : s.life.sigB < s.life.sigLimit)
    (hu : ({ s with life := { s.life with sigB := s.life.sigB + 1, signing := none } } : State).updSess sess (fun x => { x with
      attState := 2, attReport := s.reportBody (s.session sess).attNonce (32768 * s.life.sigT + s.life.sigB)
        + 2 ^ 4096 * (Config.hssSign (32768 * s.life.sigT + s.life.sigB)
          (s.reportBody (s.session sess).attNonce (32768 * s.life.sigT + s.life.sigB))).toNat }) = u)
    (he : u.sigExhausted = false) : exec (.attestReportReady sess) s = .next u := by
  show execAttestReportReady sess s = _
  simp only [execAttestReportReady, hs, hr, ha, reserve_left hb, hu, he, ne_eq, not_true_eq_false, Bool.not_true, Bool.or_self,
    Bool.false_eq_true, if_false]

theorem exec_attestReportReady_refused {s : State} {sess : SessRef} (hs : s.life.signing = some sess)
    (hr : (s.sigReady && s.attestOpen) = false) :
    exec (.attestReportReady sess) s
      = .next (({ s with life := { s.life with signing := none } } : State).updSess sess (fun x => { x with attState := 3 })) :=
  (if_neg (by simp [hs])).trans (if_pos (by rw [← Bool.not_and, hr]; rfl))

/-- Settles O10: one lemma above for each command and outcome. The check of a certificate and the opaque signing functions are the model's
presumptions (log entry 21). -/
theorem deviceKeyAndAttestation : Obligations.DeviceKeyAndAttestation :=
  ⟨fun sess _ _ u h hk => ⟨u.withDevKey.answerOd sess odOk, congrArg Host.Outcome.next (odCommand_ownDevkeyGen_first h hk),
      rfl, rfl, rfl, rfl, rfl, rfl, Nat.le_max_left _ _, rfl, rfl, rfl⟩,
    fun _ _ _ _ h hk => congrArg _ (odCommand_ownDevkeyGen_again h hk),
    fun _ _ _ _ _ h hr hok => congrArg _ (odCommand_ownDevkeyCert_maker h hr hok.symm),
    fun _ _ _ _ h ha hr hl hn => congrArg _ (odCommand_ownAttestNonce_taken h ha hr hl hn),
    fun _ _ _ _ _ h ha hl ht => congrArg _ (odCommand_ownAttestNonce_soon h ha hl ht),
    fun _ _ _ hs hr ha hb hu he => exec_attestReportReady_signed hs hr ha hb hu.symm he,
    fun _ _ hs hr => exec_attestReportReady_refused hs hr⟩

end Sys2Proof.Machine
end

section
/-!
PROOFS. The statements of 13_events_faults.md: what a raise does to its block.
-/
namespace Sys2Proof.Machine

/-! ### Hot bits of a block (R7) -/

@[simp] theorem sameCycle_self (t : Nat) : sameCycle t t = true := beq_self_eq_true _

/-- A bit of STAT that hardware sets now is hot with those that were. -/
theorem isHot_heat (b : EvtBlock) (i j now : Nat) : (b.heat i now).isHot j now = (b.isHot j now || j == i) := by
  simp only [EvtBlock.heat, EvtBlock.isHot, sameCycle_self, Bool.true_and, bit_setBit_true]
  cases sameCycle b.hotAt now <;> simp [bit]

@[simp] theorem heat_frame (b : EvtBlock) (i now : Nat) :
    (b.heat i now).pending = b.pending ∧ (b.heat i now).cls = b.cls ∧ (b.heat i now).cause = b.cause ∧ (b.heat i now).requal = b.requal
      ∧ (b.heat i now).ferValid = b.ferValid ∧ (b.heat i now).more = b.more ∧ (b.heat i now).step = b.step
      ∧ (b.heat i now).lastSyn = b.lastSyn ∧ (b.heat i now).count = b.count ∧ (b.heat i now).timer = b.timer
      ∧ (b.heat i now).fer = b.fer :=
  ⟨rfl, rfl, rfl, rfl, rfl, rfl, rfl, rfl, rfl, rfl, rfl⟩

/-! ### The stages of a raise (R444, R445, R447, R452) -/

/-- A block that a raise of any class is noted in. -/
def EvtBlock.noted (b : EvtBlock) (code ct master now : Nat) : EvtBlock :=
  { (b.mark now).heat 0 now with pending := true, count := min (b.count + 1) 0xFFFFFFFF, lastSyn := code, raiseCt := ct,
                                 raiseMaster := master }

/-- A block whose class, which was `old`, and cause a fault has raised; a requalification ends with it. -/
def EvtBlock.classed (b : EvtBlock) (old cls : Nat) (lasting : Bool) : EvtBlock :=
  { b with cls := max old cls, cause := if old < cls then lasting else if old == cls then b.cause || lasting else b.cause,
           requal := false }

/-- The timer after a fault of class `cls` that found class `old`: it runs while a step is left, afresh for a higher class (R452). -/
def EvtBlock.timed (b : EvtBlock) (old cls esc ceil now : Nat) : EvtBlock :=
  if 1 < ceil && b.step < ceil then
    match b.timer with
    | none => { b with timer := some esc, timerAt := now }
    | some t => if old < cls then { b with timer := some esc, timerAt := now } else { b with timer := some t }
  else b

/-- Step and timer after a fault; `fresh` after one that failed a requalification (R450, R452). -/
def EvtBlock.laddered (b : EvtBlock) (old cls esc ceil now : Nat) (fresh : Bool) : EvtBlock :=
  if cls == 3 then { b with step := max b.step 3, timer := none }
  else ({ b with step := if fresh then 1 else max b.step 1, timer := if fresh then none else b.timer } : EvtBlock).timed old cls esc ceil now

/-- The block that a fault finds: noted, and with what a clear of this cycle lifted standing again (R456). -/
def EvtBlock.struck (b : EvtBlock) (code ct master now : Nat) : EvtBlock := ((b.noted code ct master now).unclear now).heat 3 now

theorem raise_informational (b : EvtBlock) (code fer esc ceil : Nat) (lasting : Bool) (ct master now : Nat) :
    b.raise 0 code fer esc ceil lasting ct master now = b.noted code ct master now := rfl

theorem raise_fault (b : EvtBlock) {cls : Nat} (h : cls ≠ 0) (code fer esc ceil : Nat) (lasting : Bool) (ct master now : Nat) :
    b.raise cls code fer esc ceil lasting ct master now
      = (((b.struck code ct master now).capture (bits (b.struck code ct master now).fer 145 144) cls fer now).classed
          (b.struck code ct master now).cls cls lasting).laddered (b.struck code ct master now).cls cls esc ceil now
          ((b.struck code ct master now).capture (bits (b.struck code ct master now).fer 145 144) cls fer now).requal := by
  simp only [EvtBlock.raise, beq_eq_false_iff_ne.2 h, Bool.false_eq_true, if_false]
  rfl

theorem unclear_none {b : EvtBlock} (now : Nat) (h : b.lifted = none) : b.unclear now = b := by
  unfold EvtBlock.unclear
  rw [h]

theorem unclear_later {b : EvtBlock} {l : Lifted} {now : Nat} (h : b.lifted = some l) (hc : sameCycle b.clearedAt now = false) :
    b.unclear now = { b with lifted := none } := by
  unfold EvtBlock.unclear
  simp [h, hc]

theorem unclear_same {b : EvtBlock} {l : Lifted} {now : Nat} (h : b.lifted = some l) (hc : sameCycle b.clearedAt now = true) :
    b.unclear now = { b with cls := l.cls, step := l.step, cause := l.cause, pending := b.pending || l.pending, contain := l.contain,
                             isolate := l.isolate, ferValid := l.ferValid, timer := l.timer, requal := false, clrRefused := true,
                             lifted := none } := by
  unfold EvtBlock.unclear
  simp [h, hc]

/-- What a clear of this cycle lifted stands again whether the raise is noted before or after. -/
theorem struck_eq (b : EvtBlock) (code ct master now : Nat) :
    b.struck code ct master now = ((b.unclear now).noted code ct master now).heat 3 now := by
  refine congrArg (fun x : EvtBlock => x.heat 3 now) ?_
  cases h : b.lifted with
  | none => rw [unclear_none now h]; exact unclear_none now h
  | some l =>
    have h' : (b.noted code ct master now).lifted = some l := h
    cases hc : sameCycle b.clearedAt now with
    | false => rw [unclear_later h hc, unclear_later h' hc]; rfl
    | true => rw [unclear_same h hc, unclear_same h' hc]; rfl

/-- The record of a struck block is as hot as it was before the raise. -/
theorem isHot_struck (b : EvtBlock) (code ct master now : Nat) :
    (b.struck code ct master now).isHot 10 now = (b.unclear now).isHot 10 now := by
  rw [struck_eq, isHot_heat]
  exact (Bool.or_false _).trans ((isHot_heat ((b.unclear now).mark now) 0 10 now).trans (Bool.or_false _))

@[simp] theorem struck_fields (b : EvtBlock) (code ct master now : Nat) :
    (b.struck code ct master now).pending = true ∧ (b.struck code ct master now).count = min ((b.unclear now).count + 1) 0xFFFFFFFF
      ∧ (b.struck code ct master now).lastSyn = code ∧ (b.struck code ct master now).cls = (b.unclear now).cls
      ∧ (b.struck code ct master now).cause = (b.unclear now).cause ∧ (b.struck code ct master now).requal = (b.unclear now).requal
      ∧ (b.struck code ct master now).step = (b.unclear now).step ∧ (b.struck code ct master now).timer = (b.unclear now).timer
      ∧ (b.struck code ct master now).fer = (b.unclear now).fer ∧ (b.struck code ct master now).ferValid = (b.unclear now).ferValid
      ∧ (b.struck code ct master now).more = (b.unclear now).more := by
  rw [struck_eq]
  exact ⟨rfl, rfl, rfl, rfl, rfl, rfl, rfl, rfl, rfl, rfl, rfl⟩

@[simp] theorem unclear_count (b : EvtBlock) (now : Nat) : (b.unclear now).count = b.count := by
  unfold EvtBlock.unclear
  split
  · rfl
  · split <;> rfl

/-- Capturing a record leaves the rest of the block but for its hot bits. -/
@[simp] theorem capture_frame (b : EvtBlock) (held cls fer now : Nat) :
    (b.capture held cls fer now).pending = b.pending ∧ (b.capture held cls fer now).count = b.count
      ∧ (b.capture held cls fer now).lastSyn = b.lastSyn ∧ (b.capture held cls fer now).cls = b.cls
      ∧ (b.capture held cls fer now).cause = b.cause ∧ (b.capture held cls fer now).requal = b.requal
      ∧ (b.capture held cls fer now).step = b.step ∧ (b.capture held cls fer now).timer = b.timer := by
  simp only [EvtBlock.capture]
  split
  · simp
  · split <;> simp

theorem capture_free {b : EvtBlock} (held cls fer now : Nat) (h : b.ferValid = false) :
    (b.capture held cls fer now).ferValid = true ∧ (b.capture held cls fer now).fer = fer
      ∧ (b.capture held cls fer now).more = b.more := by
  simp [EvtBlock.capture, h]

theorem capture_held {b : EvtBlock} (held cls fer now : Nat) (h : b.ferValid = true) :
    (b.capture held cls fer now).ferValid = true ∧ (b.capture held cls fer now).more = true
      ∧ (b.capture held cls fer now).fer = if held < cls
          ∨ (cls = held ∧ b.isHot 10 now = true ∧ bits fer 167 160 < bits b.fer 167 160) then fer else b.fer := by
  simp only [EvtBlock.capture, h, Bool.not_true, Bool.false_eq_true, if_false, Bool.or_eq_true, Bool.and_eq_true, beq_iff_eq,
    decide_eq_true_eq, and_assoc]
  split <;> simp [h]

/-- The timer's start leaves the rest of the block. -/
@[simp] theorem timed_frame (b : EvtBlock) (old cls esc ceil now : Nat) :
    (b.timed old cls esc ceil now).pending = b.pending ∧ (b.timed old cls esc ceil now).count = b.count
      ∧ (b.timed old cls esc ceil now).lastSyn = b.lastSyn ∧ (b.timed old cls esc ceil now).cls = b.cls
      ∧ (b.timed old cls esc ceil now).cause = b.cause ∧ (b.timed old cls esc ceil now).requal = b.requal
      ∧ (b.timed old cls esc ceil now).fer = b.fer ∧ (b.timed old cls esc ceil now).ferValid = b.ferValid
      ∧ (b.timed old cls esc ceil now).more = b.more ∧ (b.timed old cls esc ceil now).step = b.step := by
  unfold EvtBlock.timed
  split
  · split
    · simp
    · split <;> simp
  · simp

/-- A timer that stands still starts while a step is left. -/
theorem timed_timer_stopped {b : EvtBlock} (old cls esc ceil now : Nat) (h : b.timer = none) :
    (b.timed old cls esc ceil now).timer = if 1 < ceil ∧ b.step < ceil then some esc else none := by
  simp only [EvtBlock.timed, h, Bool.and_eq_true, decide_eq_true_eq]
  split <;> simp [h]

/-- One that runs is started afresh by a higher class. -/
theorem timed_timer_running {b : EvtBlock} (old cls esc ceil now : Nat) {x : Nat} (h : b.timer = some x) (hc : 1 < ceil)
    (hs : b.step < ceil) : (b.timed old cls esc ceil now).timer = if old < cls then some esc else some x := by
  simp only [EvtBlock.timed, h, hc, hs, decide_true, Bool.and_self, if_true]
  split <;> rfl

/-- The ladder changes step and timer only. -/
@[simp] theorem laddered_frame (b : EvtBlock) (old cls esc ceil now : Nat) (fresh : Bool) :
    (b.laddered old cls esc ceil now fresh).pending = b.pending ∧ (b.laddered old cls esc ceil now fresh).count = b.count
      ∧ (b.laddered old cls esc ceil now fresh).lastSyn = b.lastSyn ∧ (b.laddered old cls esc ceil now fresh).cls = b.cls
      ∧ (b.laddered old cls esc ceil now fresh).cause = b.cause ∧ (b.laddered old cls esc ceil now fresh).requal = b.requal
      ∧ (b.laddered old cls esc ceil now fresh).fer = b.fer ∧ (b.laddered old cls esc ceil now fresh).ferValid = b.ferValid
      ∧ (b.laddered old cls esc ceil now fresh).more = b.more := by
  unfold EvtBlock.laddered
  split <;> simp

theorem laddered_fatal (b : EvtBlock) (old esc ceil now : Nat) (fresh : Bool) :
    (b.laddered old 3 esc ceil now fresh).step = max b.step 3 ∧ (b.laddered old 3 esc ceil now fresh).timer = none := ⟨rfl, rfl⟩

section
variable {cls : Nat} (h : cls ≠ 3) (b : EvtBlock) (old esc ceil now : Nat)
include h

theorem laddered_step (fresh : Bool) : (b.laddered old cls esc ceil now fresh).step = if fresh then 1 else max b.step 1 := by
  simp [EvtBlock.laddered, h]

theorem laddered_timer_fresh : (b.laddered old cls esc ceil now true).timer = if 1 < ceil then some esc else none := by
  simp [EvtBlock.laddered, h, timed_timer_stopped]

theorem laddered_timer_stopped (ht : b.timer = none) : (b.laddered old cls esc ceil now false).timer
    = if 1 < ceil ∧ (b.laddered old cls esc ceil now false).step < ceil then some esc else none := by
  simp [EvtBlock.laddered, h, ht, timed_timer_stopped]

theorem laddered_timer_running {x : Nat} (ht : b.timer = some x) (hc : 1 < ceil)
    (hs : (b.laddered old cls esc ceil now false).step < ceil) :
    (b.laddered old cls esc ceil now false).timer = if old < cls then some esc else some x := by
  rw [laddered_step h] at hs
  simp only [EvtBlock.laddered, beq_eq_false_iff_ne.2 h, Bool.false_eq_true, if_false]
  exact timed_timer_running old cls esc ceil now ht hc hs

end

/-! ### A raise, as a whole (R444, R445, R447, R450, R452, R456) -/

theorem raiseCore_at_blk {s : State} {n : Nat} (h : blockReserved n = false) (cls code : Nat) (lasting : Bool) (src : Src) :
    (s.raiseCore n cls code lasting src).blk n
      = (s.blk n).raise cls code (packFer s n cls code src) (s.c (K.ESC_TICKS n)) (s.ceiling n (max (s.blk n).cls cls)) lasting s.ct
          src.master s.now := by
  unfold State.raiseCore
  simp [h]

theorem raiseCore_at_blk_other (s : State) {n j : Nat} (h : j ≠ n) (cls code : Nat) (lasting : Bool) (src : Src) :
    (s.raiseCore n cls code lasting src).blk j = s.blk j := by
  unfold State.raiseCore
  split
  · rfl
  · rw [setBlk_at_blk, if_neg h]

theorem raiseCore_reserved (s : State) {n : Nat} (h : blockReserved n = true) (cls code : Nat) (lasting : Bool) (src : Src) :
    s.raiseCore n cls code lasting src = s := if_pos h

/-- Every raise is pending, counted, and gives the latest syndrome. -/
theorem raise_noted (b : EvtBlock) (cls code fer esc ceil : Nat) (lasting : Bool) (ct master now : Nat) :
    (b.raise cls code fer esc ceil lasting ct master now).pending = true
    ∧ (b.raise cls code fer esc ceil lasting ct master now).count = min (b.count + 1) 0xFFFFFFFF
    ∧ (b.raise cls code fer esc ceil lasting ct master now).lastSyn = code := by
  by_cases h : cls = 0
  · subst h
    exact ⟨rfl, rfl, rfl⟩
  · rw [raise_fault b h]
    simp [EvtBlock.classed]

/-- A fault ends a requalification. -/
theorem raise_requal (b : EvtBlock) {cls : Nat} (h : cls ≠ 0) (code fer esc ceil : Nat) (lasting : Bool) (ct master now : Nat) :
    (b.raise cls code fer esc ceil lasting ct master now).requal = false := by
  rw [raise_fault b h]
  simp [EvtBlock.classed]

section
variable {b b0 : EvtBlock} {cls : Nat} {now : Nat} (hb : b.unclear now = b0) (code fer esc ceil : Nat) (lasting : Bool) (ct master : Nat)

section
variable (h : cls ≠ 0)
include hb h

theorem raise_cls : (b.raise cls code fer esc ceil lasting ct master now).cls = max b0.cls cls := by
  rw [raise_fault b h]
  simp [EvtBlock.classed, hb]

theorem raise_cause : (b.raise cls code fer esc ceil lasting ct master now).cause
    = if b0.cls < cls then lasting else if b0.cls == cls then b0.cause || lasting else b0.cause := by
  rw [raise_fault b h]
  simp [EvtBlock.classed, hb]

/-- A fault takes a record that is free. -/
theorem raise_record_free (hv : b0.ferValid = false) :
    (b.raise cls code fer esc ceil lasting ct master now).ferValid = true
      ∧ (b.raise cls code fer esc ceil lasting ct master now).fer = fer
      ∧ (b.raise cls code fer esc ceil lasting ct master now).more = b0.more := by
  rw [raise_fault b h]
  simpa [EvtBlock.classed, hb] using capture_free (b := b.struck code ct master now)
    (bits (b.struck code ct master now).fer 145 144) cls fer now (by simp [hb, hv])

/-- A record that is held gives way to a higher class, or in one cycle to the lower code. -/
theorem raise_record_held (hv : b0.ferValid = true) :
    (b.raise cls code fer esc ceil lasting ct master now).ferValid = true
      ∧ (b.raise cls code fer esc ceil lasting ct master now).more = true
      ∧ (b.raise cls code fer esc ceil lasting ct master now).fer = if bits b0.fer 145 144 < cls
          ∨ (cls = bits b0.fer 145 144 ∧ b0.isHot 10 now = true ∧ bits fer 167 160 < bits b0.fer 167 160) then fer else b0.fer := by
  rw [raise_fault b h]
  simpa [EvtBlock.classed, hb, isHot_struck] using capture_held (b := b.struck code ct master now)
    (bits (b.struck code ct master now).fer 145 144) cls fer now (by simp [hb, hv])

end

include hb

theorem raise_fatal : (b.raise 3 code fer esc ceil lasting ct master now).step = max b0.step 3
    ∧ (b.raise 3 code fer esc ceil lasting ct master now).timer = none := by
  rw [raise_fault b (by decide)]
  simp [laddered_fatal, EvtBlock.classed, hb]

section
variable (h : cls ≠ 0) (h3 : cls ≠ 3)
include h h3

theorem raise_step : (b.raise cls code fer esc ceil lasting ct master now).step = if b0.requal then 1 else max b0.step 1 := by
  rw [raise_fault b h, laddered_step h3]
  simp [EvtBlock.classed, hb]

theorem raise_timer_requalifying (hr : b0.requal = true) :
    (b.raise cls code fer esc ceil lasting ct master now).timer = if 1 < ceil then some esc else none := by
  rw [raise_fault b h]
  simp [hb, hr, laddered_timer_fresh h3]

theorem raise_timer_stopped (hr : b0.requal = false) (ht : b0.timer = none) :
    (b.raise cls code fer esc ceil lasting ct master now).timer
      = if 1 < ceil ∧ (b.raise cls code fer esc ceil lasting ct master now).step < ceil then some esc else none := by
  rw [raise_fault b h]
  simp only [capture_frame, struck_fields, hb, hr]
  exact laddered_timer_stopped h3 _ _ _ _ _ (by simp [EvtBlock.classed, hb, ht])

theorem raise_timer_running {x : Nat} (hr : b0.requal = false) (ht : b0.timer = some x) (hc : 1 < ceil)
    (hs : (b.raise cls code fer esc ceil lasting ct master now).step < ceil) :
    (b.raise cls code fer esc ceil lasting ct master now).timer = if b0.cls < cls then some esc else some x := by
  rw [raise_fault b h] at hs ⊢
  simp only [capture_frame, struck_fields, hb, hr] at hs ⊢
  exact laddered_timer_running h3 _ _ _ _ _ (by simp [EvtBlock.classed, hb, ht]) hc hs

end

end

/-- Settles O47: what a raise does to each part of the block it strikes, by the lemmas above; another block stays. -/
theorem raisesRecorded : Obligations.RaisesRecorded := by
  refine ⟨?_, fun b l now => ⟨unclear_none now, unclear_later, fun h hc => ?_⟩,
    fun s n cls code j lasting src h => raiseCore_at_blk_other s h cls code lasting src,
    fun s n cls code lasting src h => raiseCore_reserved s h cls code lasting src⟩
  · rintro s n cls code F C E lasting src b b0 t hn rfl hb rfl rfl rfl rfl
    rw [raiseCore_at_blk hn]
    obtain ⟨hp, hcount, hsyn⟩ := raise_noted (s.blk n) cls code (packFer s n cls code src) (s.c (K.ESC_TICKS n))
      (s.ceiling n (max (s.blk n).cls cls)) lasting s.ct src.master s.now
    refine ⟨hp, hcount, hsyn, ?_, fun h1 => ?_, ?_, fun h12 hr => ?_, fun h12 hr => ?_⟩
    · rintro rfl
      exact ⟨rfl, rfl, rfl, rfl, rfl, rfl, rfl⟩
    · have h0 : cls ≠ 0 := Nat.one_le_iff_ne_zero.1 h1
      have hcause := raise_cause hb.symm code (packFer s n cls code src) (s.c (K.ESC_TICKS n)) (s.ceiling n (max (s.blk n).cls cls)) lasting
        s.ct src.master h0
      refine ⟨raise_cls hb.symm _ _ _ _ _ _ _ h0, ?_, ?_, fun hv => ?_, fun hv => ?_, fun hl => ?_, fun hl => ?_, fun hl => ?_⟩
      · cases hv : b0.ferValid with
        | false => exact (raise_record_free hb.symm _ _ _ _ _ _ _ h0 hv).1
        | true => exact (raise_record_held hb.symm _ _ _ _ _ _ _ h0 hv).1
      · by_cases h3 : cls = 3
        · subst h3
          rw [(raise_fatal hb.symm _ _ _ _ _ _ _).1]
          omega
        · rw [raise_step hb.symm _ _ _ _ _ _ _ h0 h3]
          split <;> omega
      · exact (raise_record_free hb.symm _ _ _ _ _ _ _ h0 hv).2
      · exact (raise_record_held hb.symm _ _ _ _ _ _ _ h0 hv).2
      · rw [hcause, if_pos hl]
      · rw [hcause, if_neg (by omega), if_neg (by simp; omega)]
      · rw [hcause, if_neg (by omega), if_pos (by simp [hl])]
    · rintro rfl
      exact raise_fatal hb.symm _ _ _ _ _ _ _
    · have h0 : cls ≠ 0 := by omega
      have h3 : cls ≠ 3 := by omega
      refine ⟨?_, raise_timer_stopped hb.symm _ _ _ _ _ _ _ h0 h3 hr, fun x => raise_timer_running hb.symm _ _ _ _ _ _ _ h0 h3 hr⟩
      rw [raise_step hb.symm _ _ _ _ _ _ _ h0 h3, hr]
      rfl
    · have h0 : cls ≠ 0 := by omega
      have h3 : cls ≠ 3 := by omega
      refine ⟨?_, raise_requal _ h0 _ _ _ _ _ _ _ _, raise_timer_requalifying hb.symm _ _ _ _ _ _ _ h0 h3 hr⟩
      rw [raise_step hb.symm _ _ _ _ _ _ _ h0 h3, hr]
      rfl
  · rw [unclear_same h hc]
    exact ⟨rfl, rfl, rfl, rfl, rfl, rfl, rfl, rfl, rfl⟩

end Sys2Proof.Machine
end

section
/-!
PROOFS. The statements of 13_events_faults.md: acknowledgement, clearing, the safe state, delivery, escalation and injection.
-/
namespace Sys2Proof.Machine

/-! ### Acknowledgement (R7, R452, R456) -/

/-- Item 6 has run, or no timer of block n runs: an acknowledgement comes before no step. -/
theorem ackBlock_untimed {s : State} {n : Nat} (h : 6 ≤ s.tm.item ∨ (s.blk n).timer = none) :
    s.ackBlock n = s.setBlk n ((s.blk n).ack (s.c (K.ESC_TICKS n)) s.now) := by
  have ht : (if s.tm.item < 6 && !s.tm.overrun && !s.hubHeld && s.itemRuns 6 && decide (s.itemAt 6 < s.now + Config.fclk)
      then s.tickTimer n else s) = s := by
    rcases h with h | h
    · exact if_neg (by simp [Nat.not_lt.2 h])
    · simp [State.tickTimer, h]
  simp only [State.ackBlock, ht]

theorem ack_quiet {b : EvtBlock} (esc : Nat) {now : Nat} (h : b.isHot 0 now = false) :
    b.ack esc now = { b with pending := false, timer := none } := if_neg (by simp [h])

/-- A raise of the same cycle keeps PENDING, and the timer starts afresh. -/
theorem ack_raised {b : EvtBlock} (esc : Nat) {now t : Nat} (h : b.isHot 0 now = true) (ht : b.timer = some t) :
    b.ack esc now = { b with timer := some esc, timerAt := now } := by
  simp [EvtBlock.ack, h, ht]

/-! ### Clearing (R447, R450) -/

theorem clearBlock_correctable {s : State} {n : Nat} (hc : (s.blk n).cls = 1) (hf : (s.blk n).isHot 3 s.now = false) :
    s.clearBlock n = (true, s.setBlk n
      { (s.blk n).leave s.now with clearedAt := s.now, clearedTick := s.tm.ticks, lifted := some (s.blk n).lift }) := by
  simp [State.clearBlock, hc, hf]

/-- A contained block whose condition stands refuses the clear. -/
theorem clearBlock_standing {s : State} {n : Nat} (hc : (s.blk n).cls = 2) (ha : (s.blk n).cause = true) :
    s.clearBlock n = (false, s.setBlk n { s.blk n with clrRefused := true }) := by
  simp [State.clearBlock, hc, ha]

/-! ### The safe state (R455) -/

theorem ownSafeExit_safe {s : State} (h : s.ev.safe = true) :
    ownSafeExit s = (odOk, (((({ s with ev := { s.ev with safe := false } } : State).setO K.SAFE_STATE 0).setO K.START_PHASE 7).causeEnds
      589).hubCauseEnds 0x13) := by
  simp [ownSafeExit, h]

theorem ownSafeExit_running {s : State} (h : s.ev.safe = false) : ownSafeExit s = (odNo 0x0501, s) := by
  simp [ownSafeExit, h]

theorem exec_safeExit_safe {s u : State} {sess : SessRef} {v : Byte} (h : s.accepts sess K.SAFE_EXIT 1 v.toNat u) (hs : u.ev.safe = true) :
    ∃ t, exec (.safeExit sess v) s = .next t ∧ t.ev.safe = false ∧ t.o K.SAFE_STATE = 0 ∧ t.o K.START_PHASE = 7
      ∧ (t.blk 589).cause = false ∧ t.st.hubCauses = u.st.hubCauses.filter (· ≠ 0x13)
      ∧ t.out = { kind := .answer, dst := sess, args := [0, 0] } :: u.out := by
  have hk : K.SAFE_STATE ≠ K.START_PHASE := by decide
  have hx : exec (.safeExit sess v) s = .next ((ownSafeExit u).2.answerOd sess (ownSafeExit u).1) :=
    congrArg _ (odCommand_accepts _ h)
  rw [hx, ownSafeExit_safe hs]
  refine ⟨_, rfl, rfl, ?_, ?_, ?_, rfl, rfl⟩
  · simp [o_setO_other _ _ hk]
  · simp
  · exact congrArg EvtBlock.cause (setBlk_at_blk_same _ 589 _)

/-- Settles O2: one lemma above for each command and outcome. A raise and an acknowledgement of one cycle are R7's and R456's, START_PHASE
R552's. -/
theorem eventBlockAcknowledged : Obligations.EventBlockAcknowledged := by
  refine ⟨fun sess n v s u h ht hq => ?_, fun via n s ho ht hq => ?_, fun via n t s ho hi ht hq => ?_,
    fun via n s ho => congrArg _ (csrDo_open _ ho), fun via n s ho hc hf => ?_, fun via n s ho hc ha => ?_,
    fun sess n v s u h hc hf => ?_, fun sess n v s u h hc ha => ?_, fun sess v s u h hs => exec_safeExit_safe h hs,
    fun sess v s u h hs => ?_⟩
  · refine congrArg _ ((odCommand_accepts (ownEvtAck n) h).trans ?_)
    simp only [ownEvtAck, ackBlock_untimed ht, ack_quiet _ hq]
    rfl
  · refine congrArg _ ((csrDo_open _ ho).trans ?_)
    rw [ackBlock_untimed ht, ack_quiet _ hq]
  · refine congrArg _ ((csrDo_open _ ho).trans ?_)
    rw [ackBlock_untimed (.inl hi), ack_raised _ hq ht]
  · refine congrArg _ ((csrDo_open _ ho).trans ?_)
    rw [clearBlock_correctable hc hf]
  · refine congrArg _ ((csrDo_open _ ho).trans ?_)
    rw [clearBlock_standing hc ha]
  · refine congrArg _ ((odCommand_accepts (ownEvtClear n) h).trans ?_)
    rw [ownEvtClear, clearBlock_correctable hc hf]
    rfl
  · refine congrArg _ ((odCommand_accepts (ownEvtClear n) h).trans ?_)
    rw [ownEvtClear, clearBlock_standing hc ha]
    rfl
  · refine congrArg _ ((odCommand_accepts ownSafeExit h).trans ?_)
    rw [ownSafeExit_running hs]
    rfl

/-! ### Delivery (R432, R457, R458, R459, R460) -/

@[simp] theorem setBlk_routedHosts (s : State) (n m : Nat) (b : EvtBlock) : (s.setBlk n b).routedHosts m = s.routedHosts m := rfl

/-- An owed change of one routed host's event, with no emergency, raises that host's vector. -/
theorem deliver_one {s : State} {n h : Nat} (ho : (s.blk n).owed = true) (hh : s.hubHeld = false) (hr : s.routedHosts n = [h])
    (hv : s.isVcsUp h = true) (he : bit (s.c (K.EVT_ROUTE n)) 2 = false) :
    s.deliver n = (s.setBlk n { s.blk n with owed := false }).msixRaise h 1 (bits (s.c (K.EVT_ROUTE n)) 13 8) := by
  simp [State.deliver, State.sendEvent, State.sendMsix, ho, hh, hr, hv, he]

/-- A block of the hub or a tile after item 4: what is owed goes out. -/
theorem exec_eventDeliver_dataPath {s : State} {n : EventIx} (hd : blockDie n < 5) (hi : 4 ≤ s.tm.item) :
    exec (.eventDeliver n) s = .next (s.deliver n) := by
  show execEventDeliver n s = _
  simp [execEventDeliver, Nat.not_le.2 hd, State.itemDue, Nat.not_lt.2 hi]

theorem blockDie_slot {n : Nat} (h1 : 456 ≤ n) (h2 : n < 528) : 5 ≤ blockDie n := by
  unfold blockDie
  rw [if_neg (by omega), if_neg (by omega), if_pos h2]
  split <;> omega

/-- A companion that still has room keeps the record of a slot's changed block for the island. -/
theorem holdRecord_room {s : State} {n : Nat} (hl : (KMap.get [] s.pw.spcHeld ((n - 456) / 36)).length < 32) :
    ((s.holdRecord n).blk n).changed = false
      ∧ KMap.get [] (s.holdRecord n).pw.spcHeld ((n - 456) / 36)
        = KMap.get [] s.pw.spcHeld ((n - 456) / 36) ++ [(n, emcyBody n (s.blk n))]
      ∧ (s.holdRecord n).out = s.out ∧ (s.holdRecord n).od = s.od := by
  simp only [State.holdRecord, hl, if_true]
  exact ⟨congrArg EvtBlock.changed (setBlk_at_blk_same s n _), kmap_get_set_same _ _ _ _, rfl, rfl⟩

theorem exec_eventDeliver_held {s : State} {n : EventIx} (h1 : 456 ≤ n.val) (h2 : n.val < 528) (hk : s.hkServes = false)
    (hc : (s.blk n).changed = true) : exec (.eventDeliver n) s = .next (s.holdRecord n) := by
  show execEventDeliver n s = _
  simp [execEventDeliver, blockDie_slot h1 h2, hk, h1, h2, hc]

/-! ### Emergencies (R460, R477) -/

theorem exec_emcy_sent {s : State} {body : Nat} {rest : List Nat} (he : s.ev.emcy = body :: rest) (ha : s.o K.NODE_ADDR ≠ 0)
    (hc : s.o K.CAN_STATE ≠ 2) (hi : s.islandUp = true) :
    exec .emcy s = .next ((({ s with ev := { s.ev with emcy := rest, emcyCount := s.ev.emcyCount + 1 } } : State).emit .can 0
      (1 :: s.o K.NODE_ADDR :: (s.ev.emcyCount + 1) % 64 :: (toBytes 16 body).map (·.toNat))).incO K.FRAMES_TX) := by
  show execEmcy s = _
  simp only [execEmcy, he]
  exact if_neg (by simp [ha, hc, hi])

/-! ### A host's map of acknowledgements (R452, R458) -/

theorem nodup_bitList (n v : Nat) : (bitList n v).Nodup := List.nodup_range.filter _

theorem mem_bitList {n v i : Nat} : i ∈ bitList n v ↔ i < n ∧ bit v i = true := by simp [bitList]

/-- What acknowledging event e for host h does once item 6 has run. -/
def State.ackFor (s : State) (h e : Nat) : State :=
  if (s.routedHosts e).contains h then s.setBlk e ((s.blk e).ack (s.c (K.ESC_TICKS e)) s.now) else s

theorem ackFor_frame (s : State) (h e : Nat) :
    (s.ackFor h e).tm = s.tm ∧ (s.ackFor h e).now = s.now ∧ (∀ k, (s.ackFor h e).c k = s.c k)
      ∧ (∀ m, (s.ackFor h e).routedHosts m = s.routedHosts m) ∧ (s.ackFor h e).od = s.od ∧ (s.ackFor h e).out = s.out := by
  unfold State.ackFor
  split
  · exact ⟨rfl, rfl, fun _ => rfl, fun _ => rfl, rfl, rfl⟩
  · exact ⟨rfl, rfl, fun _ => rfl, fun _ => rfl, rfl, rfl⟩

theorem ackFor_at_blk (s : State) (h e m : Nat) : (s.ackFor h e).blk m
    = if m = e ∧ (s.routedHosts m).contains h = true then (s.blk m).ack (s.c (K.ESC_TICKS m)) s.now else s.blk m := by
  unfold State.ackFor
  by_cases hm : m = e
  · subst hm
    cases (s.routedHosts m).contains h <;> simp
  · split
    · rw [setBlk_at_blk, if_neg hm, if_neg (by simp [hm])]
    · rw [if_neg (by simp [hm])]

/-- A list of distinct events acknowledged for host h: each that is routed to it, and no other. -/
theorem foldl_ackFor (h : Nat) (l : List Nat) (hl : l.Nodup) (s : State) :
    (∀ m, (l.foldl (fun (s : State) e => s.ackFor h e) s).blk m
      = if m ∈ l ∧ (s.routedHosts m).contains h = true then (s.blk m).ack (s.c (K.ESC_TICKS m)) s.now else s.blk m)
    ∧ (l.foldl (fun (s : State) e => s.ackFor h e) s).od = s.od ∧ (l.foldl (fun (s : State) e => s.ackFor h e) s).out = s.out := by
  induction l generalizing s with
  | nil => simp
  | cons e l ih =>
    obtain ⟨he, hl⟩ := List.nodup_cons.1 hl
    obtain ⟨hblk, hod, hout⟩ := ih hl (s.ackFor h e)
    obtain ⟨-, hnow, hc, hr, hod', hout'⟩ := ackFor_frame s h e
    refine ⟨fun m => ?_, hod.trans hod', hout.trans hout'⟩
    rw [List.foldl_cons, hblk, ackFor_at_blk, hr, hc, hnow]
    by_cases hm : m = e
    · subst hm
      simp [he]
    · simp [hm]

/-- After item 6 the map is worked through event by event. -/
theorem ackMap_late (h map : Nat) (s : State) (hi : 6 ≤ s.tm.item) :
    s.ackMap h map = (bitList 640 map).foldl (fun (s : State) e => s.ackFor h e) s := by
  unfold State.ackMap
  generalize bitList 640 map = l
  induction l generalizing s with
  | nil => rfl
  | cons e l ih =>
    have hstep : (if (s.routedHosts e).contains h then s.ackBlock e else s) = s.ackFor h e := by
      rw [ackBlock_untimed (.inl hi)]
      rfl
    rw [List.foldl_cons, List.foldl_cons, hstep]
    exact ih _ (by rw [(ackFor_frame s h e).1]; exact hi)

theorem exec_ackMapWrite_up {s : State} {h : HostIx} (map : BitVec 640) (hv : s.isVcsUp h = true) (hi : 6 ≤ s.tm.item) :
    exec (.ackMapWrite h map) s = .next ((bitList 640 map.toNat).foldl (fun (s : State) e => s.ackFor h e) s) := by
  show execAckMapWrite h map s = _
  rw [execAckMapWrite, if_pos hv, ackMap_late h map.toNat s hi]

/-! ### Requalification and escalation (R451, R452, R453) -/

theorem requalifyCheck_passes {s : State} {n : Nat} (hr : (s.blk n).requal = true) (hq : s.requalified n = true) :
    s.requalifyCheck n
      = s.setBlk n { (s.blk n).mark s.now with requal := false, cls := 0, cause := false, ferValid := false, step := 0 } := by
  simp [State.requalifyCheck, hr, hq]

theorem engine_range {n e : Nat} (h : blockKind n = .engine e) : 552 ≤ n ∧ n < 568 := by
  unfold blockKind at h
  iterate 3 (split at h; · cases h)
  split at h
  · simpa using ‹(552 ≤ n && n < 568 : Bool) = true›
  · (repeat' split at h) <;> cases h

theorem blockDie_engine {n e : Nat} (h : blockKind n = .engine e) : blockDie n = 4 := by
  obtain ⟨h1, h2⟩ := engine_range h
  unfold blockDie
  rw [if_neg (by omega), if_neg (by omega), if_neg (by omega), if_neg (by simp; omega), if_neg (by simp; omega),
    if_neg (by simp; omega), if_neg (by simp; omega)]

/-- The last boundary that a timer has to count, in item 6: the next step is taken. -/
theorem tickTimer_last {s : State} {n : Nat} (ht : (s.blk n).timer = some 1) (ha : (s.blk n).timerAt < s.tm.tickStart)
    (hc : (s.blk n).counted ≠ s.tm.ticks) (hp : (s.blk n).pending = true) (hs : (s.blk n).step < s.ceiling n (s.blk n).cls)
    (hd : blockDie n = 4) :
    s.tickTimer n = (s.setBlk n { s.blk n with counted := s.tm.ticks, timer := some 0 }).escalate n := by
  simp [State.tickTimer, ht, Nat.not_le.2 ha, hc, hp, Nat.not_le.2 hs, hd]

theorem containAction_engine (s : State) {n e : Nat} (hk : blockKind n = .engine e) :
    s.containAction n = s.setBlk n { s.blk n with contain := true } := by
  simp only [State.containAction, hk]

/-- The second step of a slice engine's ladder, below its ceiling: it is contained and its timer runs again. -/
theorem escalate_engine {s : State} {n e t : Nat} (hk : blockKind n = .engine e) (ht : (s.blk n).timer = some t)
    (hp : (s.blk n).pending = true) (hs : (s.blk n).step = 1) (hc : 2 < s.ceiling n (s.blk n).cls) :
    ((s.escalate n).blk n).step = 2 ∧ ((s.escalate n).blk n).contain = true
      ∧ ((s.escalate n).blk n).timer = some (s.c (K.ESC_TICKS n)) ∧ (s.escalate n).od = s.od ∧ (s.escalate n).out = s.out := by
  have hle : ¬ s.ceiling n (s.blk n).cls ≤ 1 := by omega
  simp [State.escalate, ht, hp, hs, hc, hle, containAction_engine _ hk]

theorem exec_escalationTimerExpiry_engine {s : State} {n : EventIx} {e : Nat} (hk : blockKind n = .engine e) (ht : (s.blk n).timer = some 1)
    (hp : (s.blk n).pending = true) (hs : (s.blk n).step = 1) (hc : 2 < s.ceiling n (s.blk n).cls)
    (ha : (s.blk n).timerAt < s.tm.tickStart) (hn : (s.blk n).counted ≠ s.tm.ticks) (hh : s.hubHeld = false)
    (ho : s.tm.overrun = false) (hi : s.itemRuns 6 = true) :
    exec (.escalationTimerExpiry n) s
      = .next (((s.advance (s.itemAt 6)).setBlk n { s.blk n with counted := s.tm.ticks, timer := some 0 }).escalate n) := by
  have hd := blockDie_engine hk
  have hlast := tickTimer_last (s := s.advance (s.itemAt 6)) (n := n) (by simpa) (by simpa) (by simpa) (by simpa)
    (by rw [advance_at_blk, hs]; exact Nat.lt_of_succ_lt (by simpa [State.ceiling] using hc)) hd
  show execEscalationTimerExpiry n s = _
  simp only [execEscalationTimerExpiry, ht, hd, hh, ho, hi]
  simpa using hlast

/-! ### Injection registers (R462) -/

/-- A reserved mode is refused: only DENIED is set. -/
theorem injWrite_reserved_mode {s : State} {n v : Nat} (hr : blockReserved n = false) (hm : bits v 4 3 = 3) :
    s.injWrite n v = s.setBlk n { s.blk n with inj := setBit (s.blk n).inj 6 true } := by
  simp [State.injWrite, hr, hm]

/-- An open write that clears DENIED sets the fields; checker 0 has no mirror to set where another is named. -/
theorem injWrite_open {s : State} {n v : Nat} (hr : blockReserved n = false) (hi : s.injOpen = true) (hc : bits v 2 0 < checkers n)
    (hm : bits v 4 3 ≠ 3) (h0 : bits v 2 0 ≠ 0) (hd : bit v 6 = true) :
    s.injWrite n v = s.setBlk n { s.blk n with
      inj := setBit (setBit (Nat.land v injMask) 6 false) 5 (bits v 4 3 == 0 && bit (s.blk n).inj 5) } := by
  simp [State.injWrite, hr, hi, Nat.not_le.2 hc, hm, h0, hd]

/-- Settles O3: one lemma above for each command and outcome. What a companion holds for an island in reset is the model's choice (log
entry 47), the return of DONE to 0 too (log entry 48). -/
theorem eventChangeDelivered : Obligations.EventChangeDelivered := by
  refine ⟨fun n h s hd hh hi ho hr hv he => ?_, fun n s h1 h2 hk hc hl => ?_, fun body rest s he ha hc hi => ?_,
    fun h map s hv hi => ?_, fun n s hr hq => congrArg _ (requalifyCheck_passes hr hq),
    fun n e s hk ht hp hs hc ha hn hh ho hi => ?_, fun via n v s ho hr hm => ?_, fun via n v s ho hr hi hc hm h0 hd => ?_⟩
  · rw [exec_eventDeliver_dataPath hd hi, deliver_one ho hh hr hv he]
  · obtain ⟨hch, hheld, hout, hod⟩ := holdRecord_room (n := n) hl
    exact ⟨_, exec_eventDeliver_held h1 h2 hk hc, hch, hheld, hout, hod⟩
  · exact ⟨_, exec_emcy_sent he ha hc hi, rfl, rfl, rfl⟩
  · obtain ⟨hblk, hod, hout⟩ := foldl_ackFor h (bitList 640 map.toNat) (nodup_bitList _ _) s
    refine ⟨_, exec_ackMapWrite_up map hv hi, fun n hn hb hr => ?_, fun n hn => ?_, hod, hout⟩
    · rw [hblk, if_pos ⟨mem_bitList.2 ⟨hn, hb⟩, hr⟩]
    · rw [hblk, if_neg]
      rintro ⟨hm, hr⟩
      rcases hn with hn | hn
      · exact Bool.false_ne_true (hn.symm.trans (mem_bitList.1 hm).2)
      · exact Bool.false_ne_true (hn.symm.trans hr)
  · obtain ⟨hstep, hcon, htim, hod, hout⟩ := escalate_engine
      (s := (s.advance (s.itemAt 6)).setBlk n { s.blk n with counted := s.tm.ticks, timer := some 0 }) (t := 0) hk (by simp) (by simpa)
      (by simpa) (by simpa [State.ceiling] using hc)
    exact ⟨_, exec_escalationTimerExpiry_engine hk ht hp hs hc ha hn hh ho hi, hstep, hcon, by simpa using htim, by simpa using hod,
      by simpa using hout⟩
  · exact congrArg _ ((csrDo_open _ ho).trans (injWrite_reserved_mode hr hm))
  · exact congrArg _ ((csrDo_open _ ho).trans (injWrite_open hr hi hc hm h0 hd))

end Sys2Proof.Machine
end

section
/-!
PROOFS. The statements of 12_slot_power.md: supply inputs and levels, temperatures, and the core rails.
-/
namespace Sys2Proof.Machine

/-! ### The inputs of VBUS (R403) -/

@[simp] theorem oring_setOring_same (s : State) (b : Bool) (x : OrFet) : (s.setOring b x).oring b = x := by
  cases b <;> rfl

@[simp] theorem oring_setOring_other (s : State) (b : Bool) (x : OrFet) : (s.setOring b x).oring (!b) = s.oring (!b) := by
  cases b <;> rfl

/-- An ORing FET is part of the supply's state only. -/
theorem setOring_frame (s : State) (b : Bool) (x : OrFet) :
    (s.setOring b x).od = s.od ∧ (s.setOring b x).ev = s.ev ∧ (s.setOring b x).out = s.out := by
  cases b <;> exact ⟨rfl, rfl, rfl⟩

theorem exec_vbusReverseTurnOff_conducting {s : State} {b : Bool} (h : s.oring b = .conducting) :
    exec (.vbusReverseTurnOff b) s = .next ((s.setOring b .offReverse).raise (602 + b2n b) 1 1 false island) := if_pos h

theorem exec_vbusOvervoltageOff_below {s : State} {b : Bool} (h : s.oring b ≠ .offOver) :
    exec (.vbusOvervoltageOff b) s = .next ((s.setOring b .offOver).raise (602 + b2n b) 1 2 false island) := if_neg h

/-! ### The levels of VBUS_OR (R404) -/

theorem exec_vbusBelow33_above {s : State} (hp : s.st.porHeld = false) (hb : s.pw.below33 = false) :
    exec .vbusBelow33 s
      = .next (((({ s with pw := { s.pw with below33 := true } } : State).raise 604 2 3 false island).hubReset 0x10 true).turnRailsOff) :=
  if_neg (by simp [hp, hb])

theorem exec_vbusRecover36_below {s : State} (hb : s.pw.below33 = true) :
    exec .vbusRecover36 s
      = .next ((({ s with pw := { s.pw with below33 := false } } : State).hubCauseEnds 0x10).startRails) :=
  if_neg (by simp [hb])

theorem exec_vbusBelow31_released {s : State} (hp : s.st.porHeld = false) : exec .vbusBelow31 s = .next s.porReset :=
  if_neg (by simp [hp])

/-! ### Temperatures (R563, R564) and oscillators (R442, R445) -/

theorem exec_thermalShutdown_first {s : State} (ht : s.st.thermal = false) (hi : s.islandUp = true) :
    exec .thermalShutdown s
      = .next ((((({ s with st := { s.st with thermal := true } } : State).incO K.THERM_SHUTDOWNS).raise 618 2 1 false
          island).hubReset 0x06 true).turnRailsOff) :=
  if_neg (by simp [ht, hi])

theorem exec_thermalRecovery_shut {s : State} (ht : s.st.thermal = true) :
    exec .thermalRecovery s
      = .next ((({ s with st := { s.st with thermal := false } } : State).hubCauseEnds 0x06).startRails) :=
  if_neg (by simp [ht])

/-- Whether companion b is too hot, as it was set. -/
theorem hotSpc_set (s : State) (b v : Bool) :
    KMap.get false ({ s with st := { s.st with hotSpc := KMap.set false s.st.hotSpc (b2n b) v } } : State).st.hotSpc (b2n b) = v :=
  kmap_get_set_same _ _ _ _

theorem exec_companionOverTemperature (b : Bool) (s : State) :
    ∃ t, exec (.companionOverTemperature b) s = .next t ∧ KMap.get false t.st.hotSpc (b2n b) = true
      ∧ t.pw = ((List.range 12).foldl (fun s i => s.slotOff (12 * b2n b + i) 8) s).pw := by
  generalize hu : (List.range 12).foldl (fun s i => s.slotOff (12 * b2n b + i) 8) s = u
  refine ⟨{ u with st := { u.st with hotSpc := KMap.set false u.st.hotSpc (b2n b) true } }, ?_, hotSpc_set u b true, rfl⟩
  rw [← hu]
  rfl

theorem exec_companionTemperatureRecover (b : Bool) (s : State) :
    ∃ t, exec (.companionTemperatureRecover b) s = .next t
      ∧ KMap.get false t.st.hotSpc (b2n b) = false ∧ t.pw = s.pw ∧ t.od = s.od ∧ t.ev = s.ev ∧ t.out = s.out :=
  ⟨_, rfl, hotSpc_set s b false, rfl, rfl, rfl, rfl⟩

/-- Seven sensors none of which is a new peak or past the warning: their readings are kept and no more. -/
theorem exec_temperaturePoll_calm {mc : List Int} {s u : State} (hs : s.islandServes = true) (hl : mc.length = 7)
    (hu : (List.range 7).foldl (fun s k => s.setO (tjKey k) (toSigned 32 (mc.getD k 0))) s = u)
    (hp : hottest mc ≤ ofSigned 32 (u.o K.TJ_PEAK)) (hw : u.st.warnTemp = false) (ht : hottest mc ≤ (u.c K.TJ_WARN : Int)) :
    exec (.temperaturePoll mc) s = .next u := by
  have hne : mc.isEmpty = false := by cases mc with
    | nil => simp at hl
    | cons a l => rfl
  show execTemperaturePoll mc s = _
  simp only [execTemperaturePoll, hs, hne, Bool.not_true, Bool.or_self, Bool.false_eq_true, if_false,
    List.take_of_length_le hl.le, hl, hu, Int.not_lt.2 hp, hw, Int.not_lt.2 ht, decide_false, Bool.and_false, Bool.false_and]

/-- Settles O4: one lemma above for each command and outcome. -/
theorem supplyInputsAndLevels : Obligations.SupplyInputsAndLevels :=
  ⟨fun _ _ h => exec_vbusReverseTurnOff_conducting h, fun _ _ h => exec_vbusOvervoltageOff_below h,
    fun b s => ⟨_, rfl, oring_setOring_same s b _, oring_setOring_other s b _, setOring_frame s b _⟩,
    fun _ hp hb => exec_vbusBelow33_above hp hb, fun _ hb => exec_vbusRecover36_below hb,
    fun _ hp => exec_vbusBelow31_released hp, fun _ ht hi => exec_thermalShutdown_first ht hi,
    fun _ ht => exec_thermalRecovery_shut ht, exec_companionOverTemperature,
    exec_companionTemperatureRecover, fun _ _ => ⟨rfl, rfl⟩,
    fun _ _ _ hs hl hu hp hw ht => exec_temperaturePoll_calm hs hl hu.symm hp hw ht⟩

/-! ### Core rails start and come up (R405, R406) -/

@[simp] theorem pmbus_now (s : State) (r code v : Nat) : (s.pmbus r code v).now = s.now := rfl

/-- Rail r, whose regulator has been asked for its capability and mode, is commanded on: ON_OFF_CONFIG, VOUT_COMMAND with the
trimmed voltage, OPERATION. -/
def State.commandRail (s : State) (r : Nat) : State :=
  (((((s.pmbus r 0x03 0).pmbus r 0x02 0).pmbus r 0x21 (toSigned 16 (s.railSet r))).pmbus r 0x01 1).updRail r
    (fun x => { x with on := true, asked := true, startedAt := s.now })).setO (K.RAIL_STATE r) 1

theorem half_ms : Config.ms / 2 = 500000000 := by simp [Config.ms]

section
variable {s : State} {r : Fin 4}

section
variable (hq : s.o K.RAIL_SEQ_STATE = 1) (ht : s.pw.turningOff = false) (ho : (s.rail r).on = false) (ha : (s.rail r).asked = true)
  (hi : s.islandUp = true)
include hq ht ho ha hi

theorem exec_railStart_first (hr : r.val = 0) : exec (.railStart r) s = .next (s.commandRail r) := by
  show execRailStart r s = _
  simp only [execRailStart, State.commandRail, hq, ht, ho, ha, hi, beq_iff_eq.2 hr, pmbus_now, if_true, ne_eq, not_true_eq_false,
    decide_false, Bool.or_self, Bool.not_true, Bool.true_or, Bool.false_eq_true, if_false]

/-- A later rail starts 0.5 ms after the rail before it is up. -/
theorem exec_railStart_after {u : State} (hr : r.val ≠ 0) (hb : s.o (K.RAIL_STATE (r - 1)) = 2)
    (hu : s.advance ((s.rail (r - 1)).upAt + Config.ms / 2) = u) : exec (.railStart r) s = .next (u.commandRail r) := by
  have hu' : (u.rail r).asked = true := by rw [← hu, advance_at_rail]; exact ha
  show execRailStart r s = _
  simp only [execRailStart, State.commandRail, hq, ht, ho, hi, hb, hu, hu', beq_eq_false_iff_ne.2 hr, pmbus_now, if_true, ne_eq,
    not_true_eq_false, decide_false, Bool.or_self, Bool.not_true, Bool.false_or, Bool.false_eq_true, if_false, beq_self_eq_true]

end

theorem exec_railUp_earlier (hs : s.o (K.RAIL_STATE r) = 1) (ho : (s.rail r).on = true) (hr : r.val ≠ 3) :
    exec (.railUp r) s
      = .next (((s.updRail r (fun x => { x with upAt := s.now })).setO (K.RAIL_STATE r) 2).causeEnds (605 + r)) := by
  show execRailUp r s = _
  simp [execRailUp, hs, ho, hr]

/-- The fourth rail is up: the sequence is complete, and the data path is released 1 ms later. -/
theorem exec_railUp_last {u : State} (hs : s.o (K.RAIL_STATE 3) = 1) (ho : (s.rail 3).on = true)
    (hu : ((s.updRail 3 (fun x => { x with upAt := s.now })).setO (K.RAIL_STATE 3) 2).causeEnds 608 = u) :
    exec (.railUp 3) s
      = .next (({ u with pw := { u.pw with dieRelAt := some (u.now + Config.ms) } } : State).setO K.RAIL_SEQ_STATE 2) := by
  subst hu
  refine (if_neg ?_).trans (if_pos rfl)
  simp [hs, ho]

/-! ### Core rails fault, retry and go off (R405, R407, R408) -/

theorem exec_railStartTimeout_starting {u : State} (hs : s.o (K.RAIL_STATE r) = 1) (ho : (s.rail r).on = true)
    (hu : s.advance ((s.rail r).startedAt + 20 * Config.ms) = u) :
    exec (.railStartTimeout r) s = .next (u.freeNext.railFaultAct r u.freeVal) := by
  subst hu
  exact if_neg (by simp [hs, ho])

theorem exec_railFault_running (st : BitVec 16) (hs : s.o (K.RAIL_STATE r) = 2) :
    exec (.railFault r st) s = .next (s.railFaultAct r st.toNat) :=
  if_neg (by simp [hs])

theorem exec_railOffStep_next (ht : s.pw.turningOff = true) (hh : s.railsOn.head? = some r.val) :
    exec (.railOffStep r) s
      = .next { s.railOff r with pw := { (s.railOff r).pw with turningOff := !(s.railOff r).railsOn.isEmpty } } :=
  if_neg (by simp [ht, hh])

theorem exec_railRetry_due {at_ : Nat} {u : State} (h : s.pw.retryAt = some at_) (hu : (s.advance at_).hubCauseEnds 0x11 = u) :
    exec .railRetry s = .next ({ u with pw := { u.pw with retryAt := none } } : State).startRails := by
  subst hu
  show execRailRetry s = _
  simp only [execRailRetry, h]

theorem odCommand_ownRailRestart_stopped {u : State} {sess len v : Nat} (h : s.accepts sess K.RAIL_RESTART len v u)
    (hq : u.o K.RAIL_SEQ_STATE = 3) :
    s.odCommand sess K.RAIL_RESTART len v ownRailRestart = (u.hubCauseEnds 0x11).startRails.answerOd sess odOk := by
  rw [odCommand_accepts _ h]
  simp [ownRailRestart, hq]

theorem odCommand_ownRailRestart_refused {u : State} {sess len v : Nat} (h : s.accepts sess K.RAIL_RESTART len v u)
    (hq : u.o K.RAIL_SEQ_STATE ≠ 3) :
    s.odCommand sess K.RAIL_RESTART len v ownRailRestart = u.answerOd sess (odNo 0x0501) := by
  rw [odCommand_accepts _ h]
  simp [ownRailRestart, hq]

/-- A poll that is acknowledged with a clean status keeps the telemetry and no more. -/
theorem exec_pmbusPoll_clean {st : BitVec 16} {u : State} (mv ma : Nat) (mc : Int) (hi : s.islandServes = true)
    (hb : railStatusBad st.toNat = false)
    (hu : ((((s.pmbus r 0x79 0).updRail r (fun x => { x with nacks := 0 })).pmbus r 0x8B 0).pmbus r 0x8C 0).pmbus r 0x8D 0 = u) :
    exec (.pmbusPoll r true st mv ma mc) s
      = .next (((u.setO (K.RAIL_VOUT_MV r) (mv % 2 ^ 32)).setO (K.RAIL_IOUT_MA r) (ma % 2 ^ 32)).setO (K.RAIL_TEMP_MC r)
          (toSigned 32 mc)) := by
  subst hu
  show execPmbusPoll r true st mv ma mc s = _
  simp only [execPmbusPoll, hi, hb, Bool.not_true, Bool.false_eq_true, if_false, Bool.and_false]

theorem exec_dataPathRelease_due {at_ : Nat} {u : State} (h : s.pw.dieRelAt = some at_)
    (hu : { s.advance at_ with pw := { (s.advance at_).pw with dieRelAt := none } } = u) (hm : u.mayReleaseHub = true) :
    exec .dataPathRelease s = .next u.hubRelease := by
  subst hu
  show execDataPathRelease s = _
  simp only [execDataPathRelease, h, hm, if_true]

end

/-- Settles O5: one lemma above for each command and outcome. The data of PMBus and the bits of a bad status are the model's choice (log
entry 18), the class of a rail's last fault too (log entry 14), and what stands for RAIL_RETRY_MAX (log entry 51). -/
theorem coreRailsSequenced : Obligations.CoreRailsSequenced := by
  refine ⟨fun s hq ht ho ha hi => exec_railStart_first (r := 0) hq ht ho ha hi rfl,
    fun r s u hr hq ht ho hi hb ha hu => exec_railStart_after hq ht ho ha hi hr hb (by rw [half_ms]; exact hu.symm),
    fun r s hs ho hr => exec_railUp_earlier hs ho hr, fun s u hs ho hu => exec_railUp_last hs ho hu.symm,
    fun r s hs ho => exec_railStartTimeout_starting hs ho rfl, fun r st s hs => exec_railFault_running st hs,
    fun r s ht hh => ⟨_, exec_railOffStep_next ht hh, rfl, rfl, rfl⟩, fun at_ s h => exec_railRetry_due h rfl,
    fun sess v s u h hq => congrArg _ (odCommand_ownRailRestart_stopped h hq),
    fun sess v s u h hq => congrArg _ (odCommand_ownRailRestart_refused h hq),
    fun r st mv ma mc s u hi hb hu => exec_pmbusPoll_clean mv ma mc hi hb hu.symm,
    fun at_ s u h hu hm => exec_dataPathRelease_due h hu.symm hm⟩

end Sys2Proof.Machine
end

section
/-!
PROOFS. The statements of 12_slot_power.md: slot commands, ramp, limit, trips, lockout, supply and feeds.
-/
namespace Sys2Proof.Machine

/-! ### Slot commands (R411, R420, R430, R436) -/

section
variable {s u : State} {sess key len v n : Nat} (h : s.accepts sess key len v u)
include h

/-- An accepted on command for a slot in OFF sets CMD_ON and waits for the output to fall. -/
theorem odCommand_ownSlotCmd_on (ho : (u.slotOwner n).isSome = false) (hs : (u.slot n).state = .off) (hp : u.slotPresent n = true)
    (hh : u.slotHot n = false) : s.odCommand sess key len v (ownSlotCmd n 1)
      = (u.updSlot n (fun x => { x with cmdOn := true, onWaits := true })).answerOd sess odOk := by
  rw [odCommand_accepts _ h]
  simp [ownSlotCmd, State.slotOn, ho, hs, hp, hh]

/-- A host owns the slot. -/
theorem odCommand_ownSlotCmd_owned (w : Nat) (ho : (u.slotOwner n).isSome = true) : s.odCommand sess key len v (ownSlotCmd n w)
    = (u.setO (K.CMD_REFUSAL n) 1).answerOd sess (odNo 0x0501 1) := by
  rw [odCommand_accepts _ h]
  simp [ownSlotCmd, State.slotRefuse, ho]

/-- A running slot goes to OFF with its gate off; the watch stays as it was. -/
theorem odCommand_ownSlotCmd_off (ho : (u.slotOwner n).isSome = false) (hs : (u.slot n).state = .on ∨ (u.slot n).state = .ramp) :
    s.odCommand sess key len v (ownSlotCmd n 0)
      = (u.updSlot n (fun x => { x.gateOff .off u.now with cmdOn := false, watch := x.watch, offAt := some u.now })).answerOd sess odOk := by
  rw [odCommand_accepts _ h]
  rcases hs with hs | hs <;> simp [ownSlotCmd, State.slotOff, ho, hs]

theorem odCommand_ownSlotCmd_lockout (w : Nat) (ho : (u.slotOwner n).isSome = false) (hs : (u.slot n).state = .lockout) :
    s.odCommand sess key len v (ownSlotCmd n w) = (u.setO (K.CMD_REFUSAL n) 2).answerOd sess (odNo 0x0501 2) := by
  rw [odCommand_accepts _ h]
  simp [ownSlotCmd, State.slotRefuse, ho, hs]

/-! ### Self-test and lockout by command (R421, R436) -/

theorem odCommand_ownChanReset_lockout (hs : (u.slot n).state = .lockout) : s.odCommand sess key len v (ownChanReset n)
    = (u.updSlot n (fun x => { x with selftest := .running })).answerOd sess odOk := by
  rw [odCommand_accepts _ h]
  simp only [ownChanReset, hs]

theorem odCommand_ownChanReset_on (hs : (u.slot n).state = .on) : s.odCommand sess key len v (ownChanReset n)
    = (u.setO (K.CMD_REFUSAL n) 5).answerOd sess (odNo 0x0501 5) := by
  rw [odCommand_accepts _ h]
  simp only [ownChanReset, hs]
  rfl

/-- After a passed self-test the slot leaves LOCKOUT, and its pass-FET block its class. -/
theorem odCommand_ownLockoutClear_passed {w : State} (hs : (u.slot n).state = .lockout) (ht : (u.slot n).selftest = .passed)
    (hw : u.updSlot n (fun x => { x with state := .off, feedA := x.feedAGood, feedB := x.feedBGood, lockRec := false, watch := true,
                                         discharging := true, enteredAt := u.now, selftest := .none }) = w) :
    s.odCommand sess key len v (ownLockoutClear n)
      = (w.setBlk (457 + 3 * n) ((w.blk (457 + 3 * n)).leave w.now)).answerOd sess odOk := by
  subst hw
  rw [odCommand_accepts _ h]
  simp [ownLockoutClear, hs, ht]

theorem odCommand_ownLockoutClear_refused (hs : (u.slot n).state ≠ .lockout) : s.odCommand sess key len v (ownLockoutClear n)
    = (u.setO (K.CMD_REFUSAL n) 6).answerOd sess (odNo 0x0501 6) := by
  rw [odCommand_accepts _ h]
  simp [ownLockoutClear, State.slotRefuse, hs]

end

section
variable {s u : State} {n : SlotIx}

/-! ### Ramp and gate (R410, R411, R412, R416, R417, R419) -/

theorem exec_rampStart_low {mv : Nat} (hu : s.setO (K.V_OUT_MV n) (mv % 2 ^ 32) = u) (hs : (u.slot n).state = .off)
    (hw : (u.slot n).onWaits = true) (hm : mv < 2500) : exec (.rampStart n mv) s = .next (u.enterRamp n) := by
  subst hu
  rw [setO_at_slot] at hs hw
  exact if_pos (by simp [hs, hw, hm])

theorem exec_gateFullyOn_ramp {mv : Nat} (hu : s.setO (K.V_OUT_MV n) (mv % 2 ^ 32) = u) (hs : (u.slot n).state = .ramp)
    (ht : (u.slot n).timerOn = false) :
    exec (.gateFullyOn n mv) s
      = .next (u.updSlot n (fun x => { x with state := .on, pg := true, enteredAt := u.now,
                                              perstAt := some (u.now + u.perstDelay n * Config.ms) })) := by
  subst hu
  rw [setO_at_slot] at hs ht
  exact if_pos (by simp [hs, ht])

theorem exec_supplyReturn_commanded (hs : (s.slot n).state = .supplyWait) (hc : (s.slot n).cmdOn = true) :
    exec (.supplyReturn n) s = .next (s.enterRamp n) :=
  if_pos (by simp [hs, hc])

/-- A ramp begins now, with its timeout of the active generation; no other slot changes. -/
theorem enterRamp_slot (s : State) (n : Nat) : ((s.enterRamp n).slot n).state = .ramp ∧ ((s.enterRamp n).slot n).rampAt = s.now
    ∧ ((s.enterRamp n).slot n).rampLim = s.c (K.RAMP_TIMEOUT n) ∧ (∀ m, m ≠ n → (s.enterRamp n).slot m = s.slot m) := by
  refine ⟨?_, ?_, ?_, fun m hm => ?_⟩
  iterate 3 simp [State.enterRamp]
  rw [State.enterRamp, updSlot_at_slot, if_neg hm]

theorem exec_dischargeEnd_discharging (hd : (s.slot n).discharging = true) (hs : (s.slot n).state ≠ .lockout)
    (hu : s.advance ((s.slot n).enteredAt + s.c (K.DSCHG_TIME n) * Config.ms) = u) :
    exec (.dischargeEnd n) s = .next (u.updSlot n (fun x => { x with discharging := false, watch := true })) := by
  subst hu
  exact if_pos (by simp [hd, hs])

theorem exec_rampTimeout_ramp (hs : (s.slot n).state = .ramp) :
    exec (.rampTimeout n) s = .next ((s.advance ((s.slot n).rampAt + (s.slot n).rampLim * Config.ms)).trip n 3) := if_pos hs

theorem exec_channelSelftestDone_running (pass : Bool) (ht : (s.slot n).selftest = .running) :
    exec (.channelSelftestDone n pass) s
      = .next (s.updSlot n (fun x => { x with selftest := if pass then .passed else .failed })) := if_pos ht

end

/-- Settles O6: one lemma above for each command and outcome. PERST with the gate, and what waits after FORCE_OFF, are the model's choice
(log entry 27). -/
theorem slotCommandsAndRamp : Obligations.SlotCommandsAndRamp := by
  refine ⟨fun sess n s u h ho hs hp hh => congrArg _ (odCommand_ownSlotCmd_on h ho hs hp hh),
    fun sess n s u h ho => congrArg _ (odCommand_ownSlotCmd_owned h 1 ho),
    fun sess n s u h ho hs => congrArg _ (odCommand_ownSlotCmd_off h ho hs),
    fun sess n s u h ho hs => congrArg _ (odCommand_ownSlotCmd_lockout h 0 ho hs),
    fun sess n v s u h => congrArg _ (odCommand_accepts (ownForceOff n) h),
    fun n mv s u hu hs hw hm => exec_rampStart_low hu.symm hs hw hm, fun n mv s u hu hs ht => exec_gateFullyOn_ramp hu.symm hs ht,
    fun n s hs hc => ?_, fun n s u hd hs hu => exec_dischargeEnd_discharging hd hs hu.symm, fun n s hs => exec_rampTimeout_ramp hs,
    fun sess n v s u h hs => congrArg _ (odCommand_ownChanReset_lockout h hs),
    fun sess n v s u h hs => congrArg _ (odCommand_ownChanReset_on h hs),
    fun n pass s ht => exec_channelSelftestDone_running pass ht,
    fun sess n v s u w h hs ht hw => congrArg _ (odCommand_ownLockoutClear_passed h hs ht hw.symm),
    fun sess n v s u h hs => congrArg _ (odCommand_ownLockoutClear_refused h hs)⟩
  obtain ⟨hstate, hat, hlim, hother⟩ := enterRamp_slot s n
  exact ⟨_, exec_supplyReturn_commanded hs hc, hstate, hat, hlim, hother, rfl, rfl⟩

/-! ### Current limit and fault timer (R413, R422) -/

/-- In the controller cycle in which the gate was declared fully on, a fault takes the slot back to RAMP. -/
theorem startTimer_eq (x : Slot) (now : Nat) : x.startTimer now = if x.state = .on ∧ now < x.enteredAt + 50000 then
      { x with state := .ramp, pg := false, perstAt := none, timerOn := true, timerAt := now }
    else { x with timerOn := true, timerAt := now } := by
  simp only [Slot.startTimer, Bool.and_eq_true, decide_eq_true_eq]
  split <;> rfl

section
variable {s u : State} {n : SlotIx}

theorem exec_currentLimitEnter_over {ma : Nat} (hu : s.setO (K.I_OUT_MA n) (ma % 2 ^ 32) = u)
    (hs : (u.slot n).state = .on ∨ (u.slot n).state = .ramp) (ht : (u.slot n).timerOn = false) (hc : u.c (K.LIMIT_MA n) < ma) :
    exec (.currentLimitEnter n ma) s = .next (u.updSlot n (fun x => x.startTimer u.now)) := by
  subst hu
  rw [setO_at_slot] at hs ht
  rw [setO_at_c] at hc
  exact if_pos (by rcases hs with hs | hs <;> simp [hs, ht, hc])

theorem exec_faultTimerStop_below {ma : Nat} (hu : s.setO (K.I_OUT_MA n) (ma % 2 ^ 32) = u) (ht : (u.slot n).timerOn = true)
    (hc : ma * 100 < u.c (K.LIMIT_MA n) * 95) :
    exec (.faultTimerStop n ma) s = .next (u.updSlot n (fun x => { x with timerOn := false })) := by
  subst hu
  rw [setO_at_slot] at ht
  rw [setO_at_c] at hc
  exact if_pos (by simp [ht, hc])

theorem exec_faultTimerExpiry_running (ht : (s.slot n).timerOn = true) :
    exec (.faultTimerExpiry n) s
      = .next ((s.advance ((s.slot n).timerAt + s.c (K.FAULT_TIME n) * Config.us)).trip n 1) := if_pos ht

/-! ### Trips (R411, R414, R418, R433) -/

/-- A running slot trips: its gate opens, the trip is recorded and taken as a power fault. -/
theorem trip_running {s u : State} {n cause : Nat} (hs : (s.slot n).state = .ramp ∨ (s.slot n).state = .on)
    (hu : s.updSlot n (fun x => { x.gateOff .tripped s.now with cmdOn := false }) = u) :
    s.trip n cause = ((u.tripRecord n cause).powerFault n).powerNext n := by
  subst hu
  rcases hs with hs | hs <;> simp [State.trip, hs]

/-- The trip record names the cause and leaves the fabric and the start-up alone. -/
theorem tripRecord_kept (n cause : Nat) (s : State) :
    ((s.tripRecord n cause).slot n).tripCheck = cause ∧ ((s.tripRecord n cause).slot n).tripSeen = true
      ∧ ((s.tripRecord n cause).blk (456 + 3 * n)).lastSyn
        = (if blockReserved (456 + 3 * n) then (s.blk (456 + 3 * n)).lastSyn else cause)
      ∧ (s.tripRecord n cause).o (K.LAST_CAUSE n) = cause ∧ (s.tripRecord n cause).fab = s.fab ∧ (s.tripRecord n cause).st = s.st := by
  simp only [State.tripRecord, raise_below_fatal _ _ 2 _ _ _ (by decide)]
  refine ⟨by simp, by simp, ?_, o_setO _ _ _, by simp, by simp⟩
  cases hr : blockReserved (456 + 3 * n) with
  | true => simp [raiseCore_reserved _ hr]
  | false =>
    simp only [setO_at_blk, incO_at_blk, raiseCore_at_blk hr]
    exact (raise_noted _ _ _ _ _ _ _ _ _ _).2.2

theorem exec_tripFailure_tripped (hc : (s.slot n).tripCheck ≠ 0) (hs : (s.slot n).state = .tripped) :
    exec (.tripFailure n) s = .next (s.lockout n 7) := if_pos (by simp [hc, hs])

theorem exec_passFetWatchFire_off (hw : (s.slot n).watch = true) (hs : (s.slot n).state = .off) :
    exec (.passFetWatchFire n) s = .next (s.lockout n 6) := if_pos (by simp [hw, hs])

/-! ### Supply and feeds (R409, R411, R425) -/

theorem exec_supplyOutOfRange_on (high : Bool) (hs : (s.slot n).state = .on)
    (hu : s.updSlot n (fun x => x.gateOff .supplyWait s.now) = u) :
    exec (.supplyOutOfRange n high) s
      = .next (((u.raiseCore (458 + 3 * n) 1 0x14 false (spcOf n)).setO (K.LAST_CAUSE n) (if high then 5 else 4)).powerNext n) := by
  subst hu
  rw [← raise_below_fatal _ _ _ _ _ _ (by decide)]
  exact if_pos (by simp [hs])

theorem exec_feedSwitchover_fed (b : Bool) (hs : (s.slot n).state ≠ .lockout) :
    exec (.feedSwitchover n b) s
      = .next ((s.updSlot n (fun x => { x with feedA := b, feedB := !b })).incO (K.SWITCHOVERS n)) := if_neg hs

theorem exec_redundancyLost_first (b : Bool) (hr : (s.slot n).redLost = false)
    (hu : s.updSlot n (fun x => { x with redLost := true, feedAGood := b, feedBGood := !b }) = u) :
    exec (.redundancyLost n b) s = .next (u.raiseCore (458 + 3 * n) 1 0x12 false (spcOf n)) := by
  subst hu
  rw [← raise_below_fatal _ _ _ _ _ _ (by decide)]
  exact if_neg (by simp [hr])

theorem exec_redundancyRegained_lost (hr : (s.slot n).redLost = true)
    (hu : s.updSlot n (fun x => { x with redLost := false, feedAGood := true, feedBGood := true }) = u) :
    exec (.redundancyRegained n) s = .next (u.raiseCore (458 + 3 * n) 1 0x13 false (spcOf n)) := by
  subst hu
  rw [← raise_below_fatal _ _ _ _ _ _ (by decide)]
  exact if_neg (by simp [hr])

end

/-! ### Presence (R258, R432) -/

@[simp] theorem advance_slotPort (s : State) (t n : Nat) : (s.advance t).slotPort n = s.slotPort n := by
  simp [State.slotPort]

@[simp] theorem updSlot_slotPort (s : State) (m n : Nat) (f : Slot → Slot) : (s.updSlot m f).slotPort n = s.slotPort n := rfl

theorem slotStatus_unnamed {s : State} {n : Nat} (b : Nat) (h : s.slotPort n = none) : s.slotStatus n b = s := by
  simp only [State.slotStatus, h]

theorem autoOn_not_due {s : State} {n : Nat} (h : (s.slot n).autoDue = false) : s.autoOn n = s :=
  if_neg (by simp [h])

/-- A card is found in a slot that no port names. -/
theorem exec_presenceChange_found {s u : State} {n : SlotIx} {at_ : Nat} (hk : (s.slot n).prsntKnown = false) (hp : s.slotPort n = none)
    (ha : (s.slot n).autoDue = false)
    (hu : (s.advance (at_ + s.debounce n)).updSlot n (fun x => { x with prsntKnown := true, prsnt := true }) = u) :
    exec (.presenceChange n ⟨true, at_⟩) s = .next u := by
  show execPresenceChange n ⟨true, at_⟩ s = _
  unfold execPresenceChange
  obtain ⟨w, hw⟩ : ∃ w, s.advance (at_ + s.debounce n) = w := ⟨_, rfl⟩
  rw [hw] at hu
  have hkw : (w.slot n).prsntKnown = false := by rw [← hw, advance_at_slot]; exact hk
  have hpu : u.slotPort n = none := by rw [← hu, updSlot_slotPort, ← hw, advance_slotPort]; exact hp
  have hau : (u.slot n).autoDue = false := by rw [← hu, updSlot_at_slot_same, ← hw, advance_at_slot]; exact ha
  simp only [hw, hkw, Bool.false_and, Bool.false_eq_true, if_false, hu, hpu, Bool.or_true, if_true, slotStatus_unnamed 3 hpu,
    autoOn_not_due hau]

/-- Settles O7: one lemma above for each command and outcome. What a trip shows of itself, and the power command that waits behind it, are
the model's choice (log entry 27). -/
theorem slotTripsAndFeeds : Obligations.SlotTripsAndFeeds := by
  refine ⟨fun n ma s u hu hs ht hc => exec_currentLimitEnter_over hu.symm hs ht hc, startTimer_eq,
    fun n ma s u hu ht hc => exec_faultTimerStop_below hu.symm ht hc, fun n s ht => exec_faultTimerExpiry_running ht,
    fun n s u hs hu => congrArg _ (trip_running hs hu.symm), fun n cause s => ⟨_, rfl, tripRecord_kept n cause s⟩,
    fun n s hc hs => exec_tripFailure_tripped hc hs, fun n s hw hs => exec_passFetWatchFire_off hw hs,
    fun n high s u hs hu => exec_supplyOutOfRange_on high hs hu.symm, fun n b s hs => exec_feedSwitchover_fed b hs,
    fun n b s u hr hu => exec_redundancyLost_first b hr hu.symm, fun n s u hr hu => exec_redundancyRegained_lost hr hu.symm,
    fun n at_ s u hk hp ha hu => exec_presenceChange_found hk hp ha hu.symm⟩

end Sys2Proof.Machine
end

section
/-!
PROOFS. The statements of 12_slot_power.md: power warnings, their message, and the global persistent flush.
-/
namespace Sys2Proof.Machine

/-! ### Warnings (R404, R424, R426) -/

section
variable {s u : State}

theorem exec_vbusWarnAssert_first (hp : s.st.porHeld = false) (hw : s.pw.vbusWarn = false) :
    exec .vbusWarnAssert s
      = .next ((({ s with pw := { s.pw with vbusWarn := true } } : State).raiseCore 604 0 1 false island).stampWarning false 24) := by
  rw [← raise_below_fatal _ _ _ _ _ _ (by decide)]
  exact if_neg (by simp [hp, hw])

theorem exec_vbusWarnClear_standing (hp : s.st.porHeld = false) (hw : s.pw.vbusWarn = true) :
    exec .vbusWarnClear s
      = .next (((({ s with pw := { s.pw with vbusWarn := false } } : State).raiseCore 604 0 2 false island).stampWarning true
          24).settleFlush) := by
  rw [← raise_below_fatal _ _ _ _ _ _ (by decide)]
  exact if_neg (by simp [hp, hw])

/-- A slot's warning is noted and raised; the slot becomes a source where its configuration says so. -/
theorem exec_feedWarningAssert_first {n : SlotIx} (hp : s.st.porHeld = false) (hw : (s.slot n).warn = false)
    (hu : (s.updSlot n (fun x => { x with warn := true, warnSeen := true, warnAt := s.now })).raiseCore (458 + 3 * n) 1 0x10 false
      (spcOf n) = u) :
    exec (.feedWarningAssert n) s = .next (if u.cB (K.GPF_ON_WARN n)
      then ({ u with pw := { u.pw with srcSlots := setBit u.pw.srcSlots n true } } : State).stampWarning false n else u) := by
  subst hu
  rw [← raise_below_fatal _ _ _ _ _ _ (by decide), apply_ite Host.Outcome.next]
  exact if_neg (by simp [hp, hw])

theorem exec_feedWarningClear_standing {n : SlotIx} (hp : s.st.porHeld = false) (hw : (s.slot n).warn = true)
    (hu : (s.updSlot n (fun x => { x with warn := false })).raiseCore (458 + 3 * n) 1 0x11 false (spcOf n) = u) :
    exec (.feedWarningClear n) s = .next (if bit u.pw.srcSlots n
      then (({ u with pw := { u.pw with srcSlots := setBit u.pw.srcSlots n false } } : State).stampWarning true n).settleFlush else u) := by
  subst hu
  rw [← raise_below_fatal _ _ _ _ _ _ (by decide), apply_ite Host.Outcome.next]
  exact if_neg (by simp [hp, hw])

/-- A warning is stamped into the open window; one that is over is built first. -/
theorem stampWarning_released {e : WarnEv} {clear : Bool} {src : Nat} (hh : s.hubHeld = false)
    (he : { clear := clear, src := src, stamp := s.ct, state := s.ctState,
            gpf := !clear && s.cB K.GPF_ENABLE && !s.pw.gpf.running && !s.pw.win.any (·.gpf) } = e)
    (hu : (if s.pw.win ≠ [] ∧ s.pw.winAt + 6 * Config.fclk ≤ s.now then s.buildWarnings else s) = u) :
    s.stampWarning clear src
      = ({ u with pw := { u.pw with winAt := if u.pw.win.isEmpty then u.now else u.pw.winAt, win := u.pw.win ++ [e] } } : State).updWarn := by
  have hc : (!s.pw.win.isEmpty && decide (s.pw.winAt + 6 * Config.fclk ≤ s.now)) = true
      ↔ s.pw.win ≠ [] ∧ s.pw.winAt + 6 * Config.fclk ≤ s.now := by simp
  simp only [State.stampWarning, hh, Bool.false_eq_true, if_false, he, hc, hu]

/-! ### The message (R426, R427) -/

theorem exec_powerWarningMessage_open {w : State} (hw : s.pw.win ≠ []) (hh : s.hubHeld = false)
    (hu : { s with pw := { s.pw with win := [] } } = u) (hf : (if s.pw.win.any (·.gpf) then u.startFlush else u) = w) :
    exec .powerWarningMessage s
      = .next ((((w.queueWarn (s.pw.win.filter (fun e => !e.clear)) false (s.pw.win.any (·.gpf))).queueWarn
          (s.pw.win.filter (·.clear)) true false).drainBcast).settleFlush) := by
  subst hu hf
  exact if_neg (by simp [hw, hh])

theorem exec_powerWarningMessage_none (h : s.pw.win = [] ∨ s.hubHeld = true) : exec .powerWarningMessage s = .next s :=
  if_pos (by simpa using h)

/-! ### The flush and its targets (R164, R428) -/

/-- A host's first request of a flush is noted. -/
theorem exec_hostGpfPhase2Request_first {h : HostIx} (hh : s.hubHeld = false) (hv : s.isVcsUp h = true) (hr : s.pw.gpf.running = true)
    (hn : s.pw.gpf.phase2.contains h.val = false) :
    exec (.hostGpfPhase2Request h) s
      = .next { s with pw := { s.pw with gpf := { s.pw.gpf with phase2 := s.pw.gpf.phase2 ++ [h.val] } } } := by
  show execHostGpfPhase2Request h s = _
  simp only [execHostGpfPhase2Request, hh, hv, hr, hn, Bool.not_true, Bool.or_self, Bool.false_eq_true, if_false, if_true]

section
variable {m : TargetIx} {p : Nat} (ht : s.targetPort m = some p) (hh : s.hubHeld = false) (hl : s.linkUp p = true)
  (hn : s.pw.gpf.forwarded.contains m.val = false) (hw : s.writesIssued m p = true)
  (hu : { s with pw := { s.pw with gpf := { s.pw.gpf with forwarded := m.val :: s.pw.gpf.forwarded,
                                                          limit := KMap.set none s.pw.gpf.limit m (s.flushLimit p) } } } = u)
include ht hh hl hn hw hu

/-- A pool target that waits no more for its hosts is sent Phase 2. -/
theorem exec_gpfTargetForward_pool (hp : s.poolBound m = true) (hr : s.pw.gpf.running = true) (ho : s.pw.gpf.waitOver = true) :
    exec (.gpfTargetForward m) s = .next (u.emit .gpf p [2, m.val]) := by
  subst hu
  show execGpfTargetForward m s = _
  simp only [execGpfTargetForward, ht, hh, hl, hn, hw, hp, hr, ho, Bool.or_true, Bool.and_self, Bool.not_true, Bool.or_self,
    Bool.false_eq_true, if_false, if_true]

/-- A host-bound target whose owners have asked is sent Phase 1 and Phase 2. -/
theorem exec_gpfTargetForward_bound (hp : s.poolBound m = false) (hb : s.boundIn p ≠ [])
    (ha : (s.flushHosts m p).all (fun h => s.pw.gpf.phase2.contains h) = true) :
    exec (.gpfTargetForward m) s = .next ((u.emit .gpf p [1, m.val]).emit .gpf p [2, m.val]) := by
  subst hu
  show execGpfTargetForward m s = _
  simp only [execGpfTargetForward, ht, hh, hl, hn, hw, hp, ha, List.isEmpty_eq_false_iff.2 hb, Bool.not_false, Bool.and_self, Bool.not_true,
    Bool.or_self, Bool.false_eq_true, if_false]

end

/-- A flush that still waits for a pool target's hosts waits no more. -/
theorem exec_gpfHostWaitExpiry_waiting (hr : s.pw.gpf.running = true) (ho : s.pw.gpf.waitOver = false) (hh : s.hubHeld = false)
    (hw : s.flushTargets.any (fun m => s.poolBound m && !s.pw.gpf.forwarded.contains m
      && !((s.flushHosts m ((s.targetPort m).getD 0)).all (fun h => s.pw.gpf.phase2.contains h))) = true)
    (hu : s.advance (s.pw.gpf.startedAt + s.c K.GPF_HOST_WAIT * Config.us) = u) :
    exec .gpfHostWaitExpiry s
      = .next (({ u with pw := { u.pw with gpf := { s.pw.gpf with waitOver := true } } } : State).raiseCore 614 1 3 false island) := by
  rw [← raise_below_fatal _ _ _ _ _ _ (by decide)]
  show execGpfHostWaitExpiry s = _
  simp only [execGpfHostWaitExpiry, hr, ho, hw, hh, hu, Bool.not_true, Bool.or_self, Bool.false_eq_true, if_false]

theorem exec_gpfTargetComplete_forwarded {m : TargetIx} (hf : s.pw.gpf.forwarded.contains m.val = true)
    (hc : s.pw.gpf.completed.contains m.val = false) :
    exec (.gpfTargetComplete m) s
      = .next (({ s with pw := { s.pw with gpf := { s.pw.gpf with completed := m.val :: s.pw.gpf.completed } } } : State).settleFlush) :=
  if_neg (by rw [hf, hc]; decide)

end

/-- Settles O28: one lemma above for each command and outcome. When a warning acts, how an assertion starts a flush and what a target waits
for are the model's choice (log entry 45). -/
theorem powerWarningsAndFlush : Obligations.PowerWarningsAndFlush := by
  refine ⟨fun s hp hw => exec_vbusWarnAssert_first hp hw, fun s hp hw => exec_vbusWarnClear_standing hp hw,
    fun n s u hp hw hu => exec_feedWarningAssert_first hp hw hu.symm, fun n s u hp hw hu => exec_feedWarningClear_standing hp hw hu.symm,
    fun s u w hw hh hu hf => exec_powerWarningMessage_open hw hh hu.symm hf.symm, fun s h => exec_powerWarningMessage_none h,
    fun s u clear src e hh he hu => stampWarning_released hh he.symm hu.symm,
    fun h s hh hv hr hn => exec_hostGpfPhase2Request_first hh hv hr hn,
    fun m p s u ht hh hl hn hw hp hr ho hu => exec_gpfTargetForward_pool ht hh hl hn hw hu.symm hp hr ho,
    fun m p s u ht hh hl hn hw hp hb ha hu => exec_gpfTargetForward_bound ht hh hl hn hw hu.symm hp hb ha,
    fun s u hr ho hh hw hu => exec_gpfHostWaitExpiry_waiting hr ho hh hw hu.symm,
    fun m s hf hc => exec_gpfTargetComplete_forwarded hf hc⟩

end Sys2Proof.Machine
end

section
/-!
PROOFS. The statements of 14_management.md: the features of a session, the checks of an object access, and the aborts of the
fabric-manager path.
-/
namespace Sys2Proof.Machine

/-! ### Features of a session (R487) -/

theorem odRow_featRequest : odRow? K.FEAT_REQUEST = some ⟨"FEAT_REQUEST", 0x0101, 1, 1, 2, 1, .u 8, .wo, .const 0, .any, .island, 2⟩ := by
  decide

theorem odRow_featSession : odRow? K.FEAT_SESSION = some ⟨"FEAT_SESSION", 0x0101, 1, 1, 3, 1, .u 8, .ro, .const 1, .any, .island, 2⟩ := by
  decide

theorem lcPermits_featRequest (s : State) (v : Nat) : s.lcPermits K.FEAT_REQUEST v = true := by
  simp [State.lcPermits, K.FEAT_REQUEST, K.JTAG_OPEN, K.CUST_KEY_HASH, K.DEVKEY_CERT, K.DEVKEY_GEN]

/-- A write of FEAT_REQUEST passes every check in any session with the feature CORE. -/
theorem accepts_featRequest {s u : State} {sess : SessRef} (v : Nat) (h : s.sessionFor sess = .ready u)
    (hc : bit (u.session sess).feat 0 = true) : s.accepts sess K.FEAT_REQUEST 8 v u := by
  have hf : featBit (K.FEAT_REQUEST / 256) = 0 := by decide
  have hp : perSession K.FEAT_REQUEST = true := by decide
  have he : u.writeEarly sess K.FEAT_REQUEST v
      = .inr ⟨"FEAT_REQUEST", 0x0101, 1, 1, 2, 1, .u 8, .wo, .const 0, .any, .island, 2⟩ := by
    simp [State.writeEarly, odRow_featRequest, hf, hc, State.mayWrite, hp, lcPermits_featRequest]
  exact ⟨h, _, he, rfl, rfl, rfl, by decide⟩

@[simp] theorem openSession_session_feat (s : State) (sid : Nat) : ((s.openSession sid).session sid).feat = 1 := by
  have h : (s.openSession sid).sess? sid
      = some { role := s.startRole sid, challenge := s.entropyVal, lastAt := s.now } := by
    simp [State.sess?, State.openSession, State.freeNext]
  rw [State.session, h]
  rfl

theorem updSess_session {u : State} {sess : SessRef} (f : Session → Session) (h : (u.sess? sess).isSome = true) :
    (u.updSess sess f).session sess = f (u.session sess) := by
  obtain ⟨x, hx⟩ := Option.isSome_iff_exists.1 h
  have hu : (u.updSess sess f).sess? sess = some (f x) := by
    show KMap.get none (KMap.upd none u.mg.sess sess (Option.map f)) sess = _
    rw [kmap_get_upd, if_pos rfl, show KMap.get none u.mg.sess sess = some x from hx]
    rfl
  rw [State.session, hu, State.session, hx]
  rfl

theorem odGet_featSession {sid : Nat} {s : State} (h : bit (s.session sid).feat 0 = true) :
    ∃ u, s.odGet sid K.FEAT_SESSION = .inr (toBytes 8 (s.session sid).feat, u) := by
  have hf : featBit (K.FEAT_SESSION / 256) = 0 := by decide
  have hp : perSession K.FEAT_SESSION = true := by decide
  simp [State.odGet, State.readCheck, odRow_featSession, hf, h, State.mayRead, hp, State.readReach, State.reachable,
    State.odValue, State.sessionValue, OdType.bytes]

/-- Settles O40: FEAT_REQUEST passes every check (`accepts_featRequest`) and its own rule intersects. That bit 0 is set before is what
every open session keeps. -/
theorem sessionFeaturesIntersected : Obligations.SessionFeaturesIntersected := by
  refine ⟨openSession_session_feat, fun sess v s u h _ hc => ?_, fun sess v u h => ?_, fun sid s h => odGet_featSession h⟩
  · rw [exec_featRequest_accepted (accepts_featRequest _ h hc)]
    simp only [show ∀ x, Nat.lor 1 x = Nat.lor x 1 from Nat.lor_comm 1]
    rfl
  · rw [updSess_session _ h]

/-! ### Aborts of the fabric-manager path (R503) -/

theorem abortRc_of_abort {a : OdAns} (h : a.abort ≠ 0) : abortRc a = if a.abort = 0x0502 ∨ a.abort = 0x0503 then 6 else 2 := by
  simp [abortRc, h, rcBusy, rcInvalidInput]

theorem lcPermits_bindCmd (s : State) (v : Nat) : s.lcPermits K.BIND_CMD v = true := by
  simp [State.lcPermits, K.BIND_CMD, K.JTAG_OPEN, K.CUST_KEY_HASH, K.DEVKEY_CERT, K.DEVKEY_GEN]

theorem lcPermits_extentCmd (s : State) (v : Nat) : s.lcPermits K.EXTENT_CMD v = true := by
  simp [State.lcPermits, K.EXTENT_CMD, K.JTAG_OPEN, K.CUST_KEY_HASH, K.DEVKEY_CERT, K.DEVKEY_GEN]

section
variable {s w : State} {h key v : Nat} {r : OdRow} {a : OdAns} (hr : odRow? key = some r)
include hr

theorem fmCommand_aborted {own : State → OdAns × State} (hw : s.mayWrite (sidMailbox h) r key = true) (hl : s.lcPermits key v = true)
    (ho : own s = (a, w)) (ha : a.abort ≠ 0) :
    s.fmCommand h key v own = w.mbox h (if a.abort = 0x0502 ∨ a.abort = 0x0503 then 6 else 2) [] := by
  rw [fmCommand_permitted own hr hw hl, ho, abortRc_of_abort ha]

theorem fmCommand_forbidden (own : State → OdAns × State) (hw : s.mayWrite (sidMailbox h) r key = false) :
    s.fmCommand h key v own = s.mbox h 2 [] := by
  simp [State.fmCommand, hr, hw, odNo, abortRc, rcInvalidInput]

end

/-- Settles O44: the command's rule aborts (`fmCommand_aborted`), or the role does not permit it (`fmCommand_forbidden`). That the own
rule's code is answered whatever features the mailbox's session has is the model's choice (log entry 26). -/
theorem managerAbortsMapped : Obligations.ManagerAbortsMapped := by
  refine ⟨fun a ha => abortRc_of_abort ha, fun h c r s u w a ht hr hw ho ha => ?_, fun h c r s u w a ht hr hw ho ha => ?_,
    fun h c r s u ht hr hw => ?_⟩
  · have hf := fmCommand_aborted hr hw (lcPermits_bindCmd u c.toNat) (show fmBindCmd c.toNat u = _ from ho) ha
    exact ⟨fun hop => next_onFm ht ((if_neg (not_not.2 hop)).trans hf), fun hop => next_onFm ht ((if_neg (not_not.2 hop)).trans hf)⟩
  · have hf := fmCommand_aborted hr hw (lcPermits_extentCmd u c.toNat) ho ha
    exact ⟨fun hop => next_onFm ht ((if_neg (not_not.2 hop)).trans hf), fun hop => next_onFm ht ((if_neg (by simpa using hop)).trans hf)⟩
  · have hf := fmCommand_forbidden (v := c.toNat) hr (fmBindCmd c.toNat) hw
    exact ⟨fun hop => next_onFm ht ((if_neg (not_not.2 hop)).trans hf), fun hop => next_onFm ht ((if_neg (not_not.2 hop)).trans hf)⟩

/-! ### The checks of an object access (R481) -/

theorem odKey_index {ix sub : Nat} (h : sub < 256) : odKey ix sub / 256 = ix := by
  unfold odKey
  omega

theorem exec_objectWrite_refused {s u : State} {sess : SessRef} {ix : BitVec 16} {sub : Byte} {d : List Byte} {code : Nat}
    (h : s.sessionFor sess = .ready u) (hp : u.odPut sess (odKey ix.toNat sub.toNat) d = (odNo code, u)) (hc : code ≠ 0) :
    exec (.objectWrite sess ix sub d) s = .next (u.emit .answer sess [code, 0]) := by
  rw [exec_objectWrite_ready ix sub d h, hp]
  show Host.Outcome.next (State.odAfter _ _ _) = _
  rw [State.odAfter, if_pos (show (odNo code).abort ≠ 0 from hc)]
  rfl

/-- The abort code of a write that fails one of the checks: that of the first. -/
def State.firstFailed (s : State) (sid len v key : Nat) (r : OdRow) : Nat :=
  if bit (s.session sid).feat (featBit (key / 256)) = false then 0x0101
  else if r.access = .ro then 0x0201
  else if s.mayWrite sid r key = false then 0x0401
  else if s.lcPermits key v = false then 0x0402
  else if r.type.lengthOk len = false then 0x0301
  else if r.check.clean v = false then 0x0303
  else 0x0302

theorem firstFailed_ne_zero (s : State) (sid len v key : Nat) (r : OdRow) : s.firstFailed sid len v key r ≠ 0 := by
  unfold State.firstFailed
  repeat' split
  all_goals decide

/-- `writeEarly` and `OdRow.late` refuse with the code of the first check that fails. -/
theorem odWrite_refused {s : State} {sid key len v : Nat} {r : OdRow} (own : State → OdAns × State) (hr : odRow? key = some r)
    (hf : bit (s.session sid).feat (featBit (key / 256)) = false ∨ r.access = .ro ∨ s.mayWrite sid r key = false
      ∨ s.lcPermits key v = false ∨ r.type.lengthOk len = false ∨ r.check.clean v = false ∨ r.check.holds r.type.bytes v = false
      ∨ (r.type = .bool ∧ 1 < v)) :
    s.odWrite sid key len v own = (odNo (s.firstFailed sid len v key r), s) := by
  unfold State.odWrite State.writeEarly State.firstFailed
  by_cases h1 : bit (s.session sid).feat (featBit (key / 256)) = false
  · simp [hr, h1]
  by_cases h2 : r.access = .ro
  · simp [hr, h1, h2]
  by_cases h3 : s.mayWrite sid r key = false
  · simp [hr, h1, h2, h3]
  by_cases h4 : s.lcPermits key v = false
  · simp [hr, h1, h2, h3, h4]
  by_cases h5 : r.type.lengthOk len = false
  · simp [hr, h1, h2, h3, h4, h5, OdRow.late]
  by_cases h6 : r.check.clean v = false
  · simp [hr, h1, h2, h3, h4, h5, h6, OdRow.late]
  have h7 : r.check.holds r.type.bytes v = false ∨ (r.type = .bool ∧ 1 < v) := by
    simpa [h1, h2, h3, h4, h5, h6] using hf
  simp [hr, h1, h2, h3, h4, h5, h6, h7, OdRow.late]

theorem odPut_unknown {s : State} {sid key : Nat} (d : List Byte) (h : odRow? key = none) : s.odPut sid key d = (odNo 0x0101, s) := by
  simp [State.odPut, State.odWrite, State.writeEarly, h]

theorem odPut_accepts {s u : State} {sid key : Nat} {d : List Byte} (h : s.accepts sid key d.length (leNat d) u) :
    u.odPut sid key d = odOwn sid key d u := by
  obtain ⟨hs, r, he, hl, hv, hw, ha⟩ := h
  simp [State.odPut, State.odWrite, he, hl, hv, hw, ha]

theorem odAfter_of_stays {s : State} {key : Nat} {a : OdAns} (h : a.abort ≠ 0 ∨ (key ≠ K.RESET_HUB ∧ key ≠ K.RESET_HK)) :
    s.odAfter key a = s := by
  unfold State.odAfter
  rcases h with h | ⟨h1, h2⟩
  · rw [if_pos h]
  · simp [h1, h2]

theorem exec_objectWrite_accepted {s u : State} {sess : SessRef} {ix : BitVec 16} {sub : Byte} {d : List Byte}
    (h : s.accepts sess (odKey ix.toNat sub.toNat) d.length (leNat d) u)
    (hk : (odOwn sess (odKey ix.toNat sub.toNat) d u).1.abort ≠ 0
      ∨ (odKey ix.toNat sub.toNat ≠ K.RESET_HUB ∧ odKey ix.toNat sub.toNat ≠ K.RESET_HK)) :
    exec (.objectWrite sess ix sub d) s
      = .next ((odOwn sess (odKey ix.toNat sub.toNat) d u).2.answerOd sess (odOwn sess (odKey ix.toNat sub.toNat) d u).1) := by
  rw [exec_objectWrite_ready ix sub d h.1, odPut_accepts h, odAfter_of_stays hk]

theorem odGet_unknown {s : State} {sid key : Nat} (h : odRow? key = none) : s.odGet sid key = .inl (odNo 0x0101) := by
  simp [State.odGet, State.readCheck, h]

theorem odGet_refused {s : State} {sid key : Nat} {r : OdRow} (hr : odRow? key = some r)
    (hf : bit (s.session sid).feat (featBit (key / 256)) = false ∨ s.mayRead sid key = false) :
    s.odGet sid key = .inl (odNo (if bit (s.session sid).feat (featBit (key / 256)) = false then 0x0101 else 0x0401)) := by
  by_cases h : bit (s.session sid).feat (featBit (key / 256)) = false
  · simp [State.odGet, State.readCheck, hr, h]
  · simp [State.odGet, State.readCheck, hr, h, hf.resolve_left h]

/-- Settles O45: `odWrite_refused` gives the first failing check of a write, `odGet_refused` of a read. -/
theorem objectChecksOrdered : Obligations.ObjectChecksOrdered := by
  refine ⟨fun sess ix sub d k s u h hk hr => ?_, fun sess ix sub d k v r s u h hk hv hr hf => ?_, fun sess ix sub d k s u hk h hs => ?_,
    fun sid ix sub s _ hr => odGet_unknown hr, fun sid ix sub r s hsub hr hf => ?_⟩
  · subst hk
    exact exec_objectWrite_refused h (odPut_unknown d hr) (by decide)
  · subst hk hv
    have hi := odKey_index (ix := ix.toNat) sub.isLt
    have he := exec_objectWrite_refused h (odWrite_refused _ hr (by rwa [hi])) (firstFailed_ne_zero _ _ _ _ _ _)
    rwa [State.firstFailed, hi] at he
  · subst hk
    exact exec_objectWrite_accepted h hs
  · have hi := odKey_index (ix := ix) hsub
    have he := odGet_refused hr (by rwa [hi])
    rwa [hi] at he

end Sys2Proof.Machine
end

section
/-!
PROOFS. The CAN FD node's statement of 14_management.md: the node address, frames, segmented transfers, notifications.
-/
namespace Sys2Proof.Machine

/-! ### The node address (R479, R480) -/

section
variable {s u : State} (hi : s.islandUp = true)
include hi

theorem exec_addrClaim_onBus (a : BitVec 7) (n : Word64) (hu : u = s.incO K.FRAMES_RX) (hb : u.onBus = true) :
    exec (.addrClaim a n) s = .next (u.claimSeen a.toNat n.toNat) := by
  subst hu
  show execAddrClaim a n s = _
  simp only [execAddrClaim, hi, if_true, hb]

theorem exec_addrAssign_own {d : List Byte} (hu : u = s.incO K.FRAMES_RX) (hb : u.onBus = true) (hl : d.length = 12)
    (hz : zeroAt d 9 3 = true) (h1 : 1 ≤ byteAt d 8) (h2 : byteAt d 8 ≤ 0x5F) (hm : u.o K.ADDR_MODE = 2)
    (hs : leAt d 0 8 = u.life.fuses.serial) : exec (.addrAssign d) s = .next (u.dropAddress.claim (byteAt d 8)) := by
  subst hu
  show execAddrAssign d s = _
  simp only [execAddrAssign, hi, if_true, hb, hl, hz, h1, h2, hm, hs, decide_true, beq_self_eq_true, Bool.and_self]

theorem exec_addrClaimTimerExpiry_listening (hp : s.mg.phase = .listening) (hu : u = s.advance s.mg.addrAt) :
    exec .addrClaimTimerExpiry s
      = .next (({ u with mg := { u.mg with phase := .held, savedAddr := u.mg.candidate } } : State).setO K.NODE_ADDR u.mg.candidate) := by
  show execAddrClaimTimerExpiry s = _
  simp only [execAddrClaimTimerExpiry, hp, hi, decide_true, Bool.and_self, if_true, ← hu]

theorem exec_addrRetryExpiry_waiting (hp : s.mg.phase = .retryWait) (hu : u = s.advance s.mg.addrAt) :
    exec .addrRetryExpiry s = .next (({ u with mg := { u.mg with contested := 0 } } : State).claim u.firstCandidate) := by
  show execAddrRetryExpiry s = _
  simp only [execAddrRetryExpiry, hp, hi, decide_true, Bool.and_self, if_true, ← hu]

/-! ### The state of the bus (R442, R466, R472) -/

theorem exec_canErrorStateChange_same {st : Fin 3} {tec rc : Byte}
    (hu : u = ((s.setO K.CAN_STATE st.val).setO K.TEC tec.toNat).setO K.REC rc.toNat) (ho : s.o K.CAN_STATE = st.val) :
    exec (.canErrorStateChange st tec rc) s = .next u := by
  subst hu
  show execCanErrorStateChange st tec rc s = _
  simp only [execCanErrorStateChange, hi, Bool.not_true, Bool.false_eq_true, if_false, ho, beq_self_eq_true, if_true]

/-- A change takes the branch of the new state: 0 error active, 1 error passive, 2 bus off. -/
theorem exec_canErrorStateChange_changed {st : Fin 3} {tec rc : Byte}
    (hu : u = ((s.setO K.CAN_STATE st.val).setO K.TEC tec.toNat).setO K.REC rc.toNat) (ho : s.o K.CAN_STATE ≠ st.val) :
    exec (.canErrorStateChange st tec rc) s = .next
      (if st.val = 0 then u.causeEnds 610
       else if st.val = 1 then u.raiseCore 610 1 1 true island
       else (((u.incO K.BUS_OFFS).raiseCore 610 2 2 true island).sessionsOn 1).foldl (fun (x : State) e => x.closeSession e.1)
          ((u.incO K.BUS_OFFS).raiseCore 610 2 2 true island)) := by
  subst hu
  show execCanErrorStateChange st tec rc s = _
  simp only [execCanErrorStateChange, hi, Bool.not_true, Bool.false_eq_true, if_false, beq_eq_false_iff_ne.2 ho, beq_iff_eq,
    raise_below_fatal _ _ _ _ _ _ (by decide : (1 : Nat) ≠ 3), raise_below_fatal _ _ _ _ _ _ (by decide : (2 : Nat) ≠ 3)]
  split
  · rfl
  · split <;> rfl

theorem exec_illegalFuncFrame_classical (hu : u = s.incO K.FRAMES_RX) : exec (.illegalFuncFrame true) s = .next u := by
  subst hu
  show execIllegalFuncFrame true s = _
  simp only [execIllegalFuncFrame, hi, Bool.not_true, Bool.false_eq_true, if_false, if_true]

theorem exec_illegalFuncFrame_fd (hu : u = s.incO K.FRAMES_RX) :
    exec (.illegalFuncFrame false) s = .next { u with mg := { u.mg with badFunc := u.mg.badFunc + 1 } } := by
  subst hu
  show execIllegalFuncFrame false s = _
  simp only [execIllegalFuncFrame, hi, Bool.not_true, Bool.false_eq_true, if_false]

end

/-! ### Frames of a peer that has a session (R473, R474, R476) -/

theorem withPeer_ready {s u : State} {src : Nat} (txn key : Nat) (f : State → State)
    (h : (s.frameSeen src).sessionFor (sidCan src) = .ready u) : s.withPeer src txn key f = f u := by
  simp only [State.withPeer, h]

section
variable {src : BitVec 7} {txn : BitVec 6} {d : List Byte} {s u : State}
  (h : (s.frameSeen src.toNat).sessionFor (sidCan src.toNat) = .ready u)
include h

theorem exec_readReq_formed (hl : d.length = 8) (hz : zeroAt d 3 5 = true) :
    exec (.readReq src txn d) s = .next (u.canRead src.toNat txn.toNat (frameKey d)) :=
  congrArg Host.Outcome.next ((withPeer_ready _ _ _ h).trans (if_neg (by simp [hl, hz])))

theorem exec_readReq_malformed (hl : d.length ≠ 8) :
    exec (.readReq src txn d) s = .next (u.canAbort src.toNat txn.toNat (frameKey d) (odNo 0x0801)) :=
  congrArg Host.Outcome.next ((withPeer_ready _ _ _ h).trans (if_pos (by simp [hl])))

theorem exec_writeReq_formed (h1 : 1 ≤ byteAt d 3) (h2 : byteAt d 3 ≤ 56) (hz : zeroAt d 4 4 = true)
    (hf : canFits d (8 + byteAt d 3) = true) :
    exec (.writeReq src txn d) s = .next (u.canWrite src.toNat txn.toNat (frameKey d) (bytesAt d 8 (byteAt d 3))) :=
  congrArg Host.Outcome.next ((withPeer_ready _ _ _ h).trans (if_neg (by simp [h1, h2, hz, hf])))

theorem exec_writeReq_empty (h0 : byteAt d 3 = 0) :
    exec (.writeReq src txn d) s = .next (u.canAbort src.toNat txn.toNat (frameKey d) (odNo 0x0801)) :=
  congrArg Host.Outcome.next ((withPeer_ready _ _ _ h).trans (if_pos (by simp [h0])))

theorem exec_segInit_taken (ho : segInitOk d = true) (hb : bit (u.session (sidCan src.toNat)).feat 1 = true)
    (hn : u.seg? src.toNat = none) (hl : u.mg.seg.length < 4) :
    exec (.segInit src txn d) s = .next (if byteAt d 3 == 1 then u.segRead src.toNat txn.toNat (frameKey d)
      else u.segWrite src.toNat txn.toNat (frameKey d) (leAt d 4 4) (leAt d 8 4)) :=
  congrArg Host.Outcome.next ((withPeer_ready _ _ _ h).trans ((if_neg (by simp [ho])).trans ((if_neg (by simp [hb])).trans
    (if_neg (by simp [hn, hl])))))

theorem exec_abortFrame_formed (hl : d.length = 8) (h0 : byteAt d 3 = 0) :
    exec (.abortFrame src txn d) s = .next (u.setSeg src.toNat none) :=
  congrArg Host.Outcome.next ((withPeer_ready _ _ _ h).trans (if_pos (by simp [hl, h0])))

theorem exec_segData_none (hn : u.seg? src.toNat = none) :
    exec (.segData src txn d) s = .next (u.canAbort src.toNat txn.toNat 0 (odNo 0x0704)) := by
  show execSegData src txn d s = _
  simp only [execSegData, withPeer_ready _ _ _ h, hn]

theorem exec_segAck_none (hn : u.seg? src.toNat = none) :
    exec (.segAck src txn d) s = .next (u.canAbort src.toNat txn.toNat 0 (odNo 0x0704)) := by
  show execSegAck src txn d s = _
  simp only [execSegAck, withPeer_ready _ _ _ h, hn]

variable {x : Seg} (hx : u.seg? src.toNat = some x) (ht : x.txn = txn.toNat)
include hx ht

theorem exec_segData_open (hw : x.write = true) (h1 : 1 ≤ byteAt d 2) (h2 : byteAt d 2 ≤ 60)
    (hf : canFits d (4 + byteAt d 2) = true) (h3 : byteAt d 3 = 0) (hb : byteAt d 1 ≤ 1) (hs1 : 1 ≤ byteAt d 0) (hs2 : byteAt d 0 ≤ 16) :
    exec (.segData src txn d) s
      = .next (u.segTake src.toNat x (byteAt d 0) (byteAt d 1 == 1) (bytesAt d 4 (byteAt d 2))) := by
  show execSegData src txn d s = _
  simp only [execSegData, withPeer_ready _ _ _ h, hx]
  rw [if_neg (by simp [h1, h2, hf, h3, hb, hs1, hs2]), if_neg (by simp [hw, ht])]

theorem exec_segAck_open (hw : x.write = false) (hl : d.length = 8) (hz : zeroAt d 2 6 = true) (hb : byteAt d 1 ≤ 1) :
    exec (.segAck src txn d) s = .next (u.segAcked src.toNat x (byteAt d 0) (byteAt d 1)) := by
  show execSegAck src txn d s = _
  simp only [execSegAck, withPeer_ready _ _ _ h, hx]
  rw [if_neg (by simp [hl, hz, hb]), if_neg (by simp [hw, ht])]

end

/-! ### Timers, subscriptions, idle sessions (R476, R466, R509, R510) -/

section
variable {src : BitVec 7} {x : Seg} {s : State} (hx : s.seg? src.toNat = some x) (hc : s.canServes = true)
include hx hc

theorem exec_segAckTimerExpiry_due (hd : x.ackDue = true) : exec (.segAckTimerExpiry src) s
    = .next (((s.advance (x.lastAt + 20 * Config.ms)).setSeg src.toNat (some { x with ackDue := false })).segAck src.toNat x.txn x.seq
        0) := by
  show execSegAckTimerExpiry src s = _
  simp only [execSegAckTimerExpiry, hx, hd, hc, Bool.not_true, Bool.or_self, Bool.false_eq_true, if_false]

theorem exec_segTimeout_open :
    exec (.segTimeout src) s = .next ((s.advance (x.lastAt + 100 * Config.ms)).segAbort src.toNat x 0x0703) := by
  show execSegTimeout src s = _
  simp only [execSegTimeout, hx, hc, if_true]

end

theorem exec_notifySample_due {k : Fin 32} {r : OdRow} {x : Session} {v : Nat} {s u : State} (hr : odRow? (s.o (K.NTF_OBJECT k)) = some r)
    (hx : s.sess? (sidCan (s.o (K.NTF_DEST k))) = some x) (hv : s.sampled (s.o (K.NTF_OBJECT k)) r = some v) (hb : bit x.feat 2 = true)
    (hn : s.o (K.NTF_ON_CHANGE k) ≠ 1) (hc : s.canServes = true)
    (hu : u = { s with mg := { s.mg with lastSent := KMap.set none s.mg.lastSent k (some v) } }) :
    exec (.notifySample k) s
      = .next (u.canSend 4 (s.o (K.NTF_DEST k)) 0 (canData (keyBytes (s.o (K.NTF_OBJECT k)) ++ toBytes 1 r.type.bytes ++ toBytes 8 s.tm.snapCt
          ++ toBytes r.type.bytes v))) := by
  show execNotifySample k s = _
  simp only [execNotifySample, hr, hx, hv, hb, beq_eq_false_iff_ne.2 hn, hc, hu, Bool.not_true, Bool.false_and, Bool.or_self,
    Bool.false_eq_true, if_false]

theorem exec_sessionIdleExpiry_idle {sess : SessRef} {x : Session} {s : State} (hx : s.sess? sess = some x)
    (hp : sidPath sess = 1 ∨ sidPath sess = 3) (hi : s.islandUp = true) :
    exec (.sessionIdleExpiry sess) s
      = .next ((s.advance (x.lastAt + s.o K.SESSION_IDLE * 1000 * Config.ms)).closeSession sess) := by
  have hg : ¬ (((sidPath sess ≠ 1 && sidPath sess ≠ 3) || !s.islandUp) = true) := by
    rcases hp with hp | hp <;> simp [hp, hi]
  show execSessionIdleExpiry sess s = _
  simp only [execSessionIdleExpiry, hx, if_neg hg]

/-- Settles O33: one lemma above for each command and outcome. The answer 0x0704 for a segment without a transfer, the order in which
ADDR_ASSIGN drops the address, and what malformed frames bring are the model's choice (log entry 25). -/
theorem canFramesServed : Obligations.CanFramesServed := by
  refine ⟨fun a n s u hi hu hb => exec_addrClaim_onBus hi a n hu hb,
    fun d s u hi hu hb hl hz h1 h2 hm hs => exec_addrAssign_own hi hu hb hl hz h1 h2 hm hs,
    fun s u hp hi hu => exec_addrClaimTimerExpiry_listening hi hp hu, fun s u hp hi hu => exec_addrRetryExpiry_waiting hi hp hu,
    fun st tec rc s u hi hu => ⟨fun ho => exec_canErrorStateChange_same hi hu ho, fun ho hst => ?_, fun ho hst => ?_, fun ho hst => ?_⟩,
    fun s u hi hu => ⟨exec_illegalFuncFrame_classical hi hu, exec_illegalFuncFrame_fd hi hu⟩,
    fun src txn d s u h => ⟨exec_readReq_formed h, exec_readReq_malformed h, exec_writeReq_formed h, exec_writeReq_empty h,
      exec_segInit_taken h, exec_abortFrame_formed h⟩,
    fun src txn d x s u h hx ht => ⟨exec_segData_open h hx ht, exec_segAck_open h hx ht⟩,
    fun src txn d s u h hn => ⟨exec_segData_none h hn, exec_segAck_none h hn⟩,
    fun src x s hx hc => ⟨exec_segAckTimerExpiry_due hx hc, exec_segTimeout_open hx hc⟩,
    fun k r x v s u hr hx hv hb hn hc hu => exec_notifySample_due hr hx hv hb hn hc hu,
    fun sess x s hx hp hi => exec_sessionIdleExpiry_idle hx hp hi⟩
  · rw [exec_canErrorStateChange_changed hi hu ho, if_pos hst]
  · rw [exec_canErrorStateChange_changed hi hu ho, if_neg (by omega), if_pos hst]
  · rw [exec_canErrorStateChange_changed hi hu ho, if_neg (by omega), if_neg (by omega)]

end Sys2Proof.Machine
end

section
/-!
PROOFS. The statements of 16_startup_electrical.md: the reset causes, what each reset leaves, and the release of each domain.
-/
namespace Sys2Proof.Machine

/-! ### Releases (R547, R550) -/

theorem exec_powerOnResetRelease_held {s u : State} {ga : BitVec 6} (h : s.st.porHeld = true)
    (hu : u = { s with st := { s.st with porHeld := false }, mg := { s.mg with gaPins := ga.toNat }, tm := { s.tm with ticks := 0 } }) :
    exec (.powerOnResetRelease ga) s = .next (((u.incO K.POR_COUNT).setO K.LAST_RESET 1).boot true) := by
  show execPowerOnResetRelease ga s = _
  rw [execPowerOnResetRelease, h, hu]
  rfl

/-- The release comes later than the assertion: what moves is the time, and the reset domains stay as they are until then. -/
theorem hkRelease_advance (s : State) (t : Nat) : (s.advance t).hkRelease
    = (({ s.advance t with st := { s.st with hkHeld := false, hkPinLow := false } } : State).resumeTimers.boot false).reportCause := by
  rw [State.hkRelease, advance_st]

theorem exec_resetRelease_housekeeping {s : State} (h : s.st.hkHeld = true) :
    exec (.resetRelease .housekeeping) s = .next ((({ s.advance (s.st.relAt + 10 * Config.us) with
      st := { s.st with hkHeld := false, hkPinLow := false } } : State).resumeTimers.boot false).reportCause) := by
  show execResetRelease .housekeeping s = _
  simp only [execResetRelease, h, Bool.not_true, Bool.false_eq_true, if_false, hkRelease_advance]

theorem exec_resetRelease_hub {s : State} (hi : s.st.hubIn = true) (hm : s.mayReleaseHub = true) :
    exec (.resetRelease .hub) s = .next (s.advance (s.st.relAt + 10 * Config.us)).hubRelease := by
  show execResetRelease .hub s = _
  simp only [execResetRelease, hi, hm, Bool.and_self, if_true]

theorem exec_resetRelease_tile {s : State} {t : TileIx} (hh : s.hubHeld = false) (ht : KMap.get false s.st.tileHeld t = true)
    (hi : s.o (K.ISOLATE t) ≠ 1) : exec (.resetRelease (.tile t)) s = .next ((s.advance (s.tileFree t)).tileRelease t) := by
  show execResetRelease (.tile t) s = _
  simp only [execResetRelease, hh, ht, beq_eq_false_iff_ne.2 hi, Bool.not_true, Bool.or_self, Bool.false_eq_true, if_false]

theorem exec_resetRelease_port {s : State} {p : PortIx} (ht : s.tileHeld (tileOf p) = false) (hl : s.o (K.LINK_ENABLE p) ≠ 0) :
    exec (.resetRelease (.port p)) s = .next ((s.portFatalEnds p).startTraining p) := by
  show execResetRelease (.port p) s = _
  simp only [execResetRelease, ht, beq_eq_false_iff_ne.2 hl, Bool.or_self, Bool.false_eq_true, if_false]

/-! ### Resets asked for (R550, R551, R552) -/

section
variable {s u : State} {sess : SessRef} {v : Byte}

theorem exec_resetHk_accepted (h : s.accepts sess K.RESET_HK 1 v.toNat u) :
    exec (.resetHk sess v) s = .next ((u.emit .answer sess [0, 0]).hkReset 3) :=
  congrArg Host.Outcome.next (odCommandThen_accepts (fun _ => odOk) (fun s => s.hkReset 3) h rfl)

theorem exec_resetHub_accepted (h : s.accepts sess K.RESET_HUB 1 v.toNat u) (hw : u.o K.WARN_STATE ≠ 2) :
    exec (.resetHub sess v) s = .next ((u.emit .answer sess [0, 0]).hubReset 0x14) := by
  have ho : ownResetHub u = odOk := if_neg (by simpa using hw)
  show Host.Outcome.next (s.odCommandThen _ _ _ _ _ _) = _
  rw [odCommandThen_accepts _ _ h (by rw [ho]; rfl), ho]
  rfl

/-- A command that its own rule aborts is answered and has no effect afterwards. -/
theorem odCommandThen_aborted {s u : State} {sid key len v : Nat} {own : State → OdAns} (after : State → State)
    (h : s.accepts sid key len v u) (ho : (own u).abort ≠ 0) :
    s.odCommandThen sid key len v own after = u.answerOd sid (own u) := by
  obtain ⟨hs, r, he, hl, hv, hw, ha⟩ := h
  simp [State.odCommandThen, State.odWrite, hs, he, hl, hv, hw, ha, ho]

theorem exec_resetHub_flushing (h : s.accepts sess K.RESET_HUB 1 v.toNat u) (hw : u.o K.WARN_STATE = 2) :
    exec (.resetHub sess v) s = .next (u.emit .answer sess [0x0501, 0]) := by
  have ho : ownResetHub u = odNo 0x0501 := if_pos (by simpa using hw)
  show Host.Outcome.next (s.odCommandThen _ _ _ _ _ _) = _
  rw [odCommandThen_aborted _ h (by rw [ho]; decide), ho]
  rfl

end

theorem exec_hkRstN_powered {s u : State} {ga : BitVec 6} (h : s.st.porHeld = false)
    (hu : u = ({ s with mg := { s.mg with gaPins := ga.toNat } } : State).hkReset 2) :
    exec (.hkRstN ga) s = .next { u with st := { u.st with hkPinLow := true } } := by
  show execHkRstN ga s = _
  rw [execHkRstN, h, hu]
  rfl

theorem exec_hkWatchdog_running {s : State} (h : s.islandUp = true) :
    exec .hkWatchdog s = .next ((s.raiseCore 600 3 2 false island).hkReset 4) := by
  show execHkWatchdog s = _
  simp only [execHkWatchdog, h, Bool.not_true, Bool.false_eq_true, if_false]

theorem exec_servicePortLinkChange_changed {s : State} {up : Bool} (h : s.islandUp = true) (hu : s.mg.svcLinkUp ≠ up) :
    exec (.servicePortLinkChange up) s
      = .next (({ s with mg := { s.mg with svcLinkUp := up } } : State).raiseCore 611 0 (if up then 2 else 1) false island) := by
  show execServicePortLinkChange up s = _
  simp only [execServicePortLinkChange, h, beq_eq_false_iff_ne.2 hu, Bool.not_true, Bool.or_self, Bool.false_eq_true, if_false,
    raise_below_fatal _ _ _ _ _ _ (by decide : (0 : Nat) ≠ 3)]

/-! ### What each reset leaves (R550, R551) -/

theorem hubReset_swallowed {s : State} (c : Nat) (h : s.st.porHeld = true ∨ s.st.hkHeld = true) : s.hubReset c false = s := by
  simp [State.hubReset, h]

theorem hkReset_swallowed {s : State} (c : Nat) (h : s.st.porHeld = true) : s.hkReset c = s := if_pos h

/-- The hub stays held: by a larger domain, by the reset that runs, or by the reset itself. -/
theorem hubReset_hubHeld (s : State) (c : Nat) (b : Bool) : (s.hubReset c b).hubHeld = true := by
  by_cases hd : (s.st.porHeld || s.st.hkHeld) = true
  · have hs : s.hubHeld = true := by rw [State.hubHeld, hd, Bool.true_or, Bool.true_or]
    rw [State.hubReset, if_pos hd]
    split
    · exact hs
    · exact hs
  by_cases hr : (s.st.hubIn || !s.st.released) = true
  · simp only [State.hubReset, if_neg hd, if_pos hr, State.hubHeld, Bool.or_true, Bool.true_or]
  · simp only [State.hubReset, if_neg hd, if_neg hr, incO_at_hubHeld, setO_at_hubHeld]
    simp only [State.hubHeld, Bool.or_true, Bool.true_or]

theorem hubReset_stands (s : State) (c : Nat) : (s.hubReset c true).st.hubCauses.contains c = true := by
  by_cases hd : (s.st.porHeld || s.st.hkHeld) = true
  · simp only [State.hubReset, if_pos hd, if_true, List.contains_cons, beq_self_eq_true, Bool.true_or]
  by_cases hr : (s.st.hubIn || !s.st.released) = true
  · simp only [State.hubReset, if_neg hd, if_pos hr, if_true, List.contains_cons, beq_self_eq_true, Bool.true_or]
  · simp only [State.hubReset, if_neg hd, if_neg hr, incO_st, setO_st, if_true, List.contains_cons, beq_self_eq_true, Bool.true_or]

section
variable {s : State} (h : s.st.porHeld = false)
include h

theorem hkReset_st (c : Nat) : (s.hkReset c).st.hkHeld = true := by
  simp [State.hkReset, h]

theorem hkReset_hubHeld (c : Nat) : (s.hkReset c).hubHeld = true := by
  simp [State.hubHeld, hkReset_st h]

theorem hkReset_islandUp (c : Nat) : (s.hkReset c).islandUp = false := by
  simp [State.islandUp, hkReset_st h]

theorem hkReset_lastReset (c : Nat) : (s.hkReset c).o K.LAST_RESET = c := by
  simp [State.hkReset, h]

end

theorem porReset_st (s : State) : s.porReset.st.porHeld = true := by
  simp [State.porReset]

theorem porReset_hubHeld (s : State) : s.porReset.hubHeld = true := by
  simp [State.hubHeld, porReset_st]

theorem porReset_islandUp (s : State) : s.porReset.islandUp = false := by
  simp [State.islandUp, porReset_st]

/-- Settles O11: one lemma above for each command and reset. That a release moves the time to 10 µs after the assertion is the model's
choice (log entry 8). -/
theorem resetsTakenAndReleased : Obligations.ResetsTakenAndReleased :=
  ⟨fun _ _ _ h hu => exec_powerOnResetRelease_held h hu, fun _ h => exec_resetRelease_housekeeping h,
    fun _ hi hm => exec_resetRelease_hub hi hm, fun _ _ hh ht hi => exec_resetRelease_tile hh ht hi,
    fun _ _ ht hl => exec_resetRelease_port ht hl, fun _ _ _ _ h => exec_resetHk_accepted h,
    fun _ _ _ _ h hw => exec_resetHub_accepted h hw, fun _ _ _ _ h hw => exec_resetHub_flushing h hw,
    fun _ _ _ h hu => exec_hkRstN_powered h hu, fun _ h => exec_hkWatchdog_running h,
    fun _ _ h hu => exec_servicePortLinkChange_changed h hu,
    fun s c _ => ⟨hubReset_hubHeld s c _, fun hb => hb ▸ hubReset_stands s c⟩,
    fun _ c h => ⟨hkReset_st h c, hkReset_hubHeld h c, hkReset_islandUp h c, hkReset_lastReset h c⟩,
    fun s => ⟨porReset_st s, porReset_hubHeld s, porReset_islandUp s, o_setO _ _ _, rfl, rfl⟩,
    fun _ c h => ⟨hkReset_swallowed c h, hubReset_swallowed c (.inl h)⟩, fun _ c h => hubReset_swallowed c (.inr h)⟩

end Sys2Proof.Machine
end
